-- ==== Sys2Proof/Word.lean ====
section
/-! DEFINITION. The word types of the module and their plainest arithmetic (R2, R8, R14: registers are 32 or 64 bits, structures
in memory are little-endian 64-bit words). -/

namespace Sys2Proof

/-- One byte of a memory. -/
abbrev Byte := BitVec 8

/-- A 16-bit word: BF16 elements, sequence numbers. -/
abbrev W16 := BitVec 16

/-- A 32-bit word: FP32 bits, thread registers, 32-bit registers. -/
abbrev W32 := BitVec 32

/-- A 64-bit word: registers, descriptor and record words (*Scope*, "A word is 64 bits"). -/
abbrev W64 := BitVec 64

/-- `⌈a / b⌉`, the `ceil` of the manual's size formulas. -/
def ceilDiv (a b : Nat) : Nat := (a + b - 1) / b

/-- `a` rounded up to a multiple of `b`. -/
def alignUp (a b : Nat) : Nat := ceilDiv a b * b

/-- 1 for `true`, 0 for `false`: the value a flag field holds. -/
def bit (b : Bool) : Nat := if b then 1 else 0

end Sys2Proof
end

