-- ==== Sys2Proof/Syntax.lean ====
section
/-! DEFINITION. The commands: one constructor of `Instr` per row of the opcode table, and the small types their operands use.
What happens outside the module (the bytes the host answers with, a flit's payload, a sensor's value) is an operand; when
an event happens is the sender's choice. -/

namespace Sys2Proof

/-- What the far side of a transfer answers: data the module asked for, or an error (R107: any completion that does not deliver
the request normally). For a write, `data []` is the plain acknowledgement. -/
inductive FarAns where
  | data (bytes : List Byte)
  | error
  deriving DecidableEq, Repr, Inhabited

/-- A host access to the HDM window (R94): a read of `len` bytes or a write. -/
inductive HdmAccess where
  | read (len : Nat)
  | write (bytes : List Byte)
  deriving DecidableEq, Repr

/-- The rates and widths the other end of the CXL link supports (R89). -/
structure LinkOffer where
  g64 : Bool
  g32 : Bool
  x16 : Bool
  x8 : Bool
  x4 : Bool
  deriving DecidableEq, Repr

/-- A lower-tier access of a logical rafter, named by what the module holds of it (R375): the i-th downpipe store in flight,
the i-th run-ahead load, or the peer request with this tag. -/
inductive LowerAccess where
  | downpipe (i : Nat)
  | runAhead (i : Nat)
  | peer (tag : Nat)
  deriving DecidableEq, Repr

/-- What boot finds in stage 0x6 (R550): the idle draw in watts, spares that failed their boot test (kind 0 rafter 9n + k, 1 vector
engine 5 × (9n + k) + v, 2 decode pipeline, 3 lane 18p + l), and channels that trained badly (stack, physical channel, 1 marginal or
2 dead). -/
structure BootTests where
  idleW : Nat
  spares : List (Nat × Nat)
  chans : List (Nat × Nat × Nat)
  deriving DecidableEq, Repr

/-- The source of one stream of a media sample (R391, R404): what the host or a peer answers for its data and for its index (unused when
it lies in HBM), and the physical decode pipeline that decodes it (R412). -/
structure MSrc where
  data : FarAns
  index : FarAns
  pipe : Nat
  deriving DecidableEq, Repr, Inhabited

/-- A completion record (R115): its ring, and how many places it lies before the latest record of the ring. -/
structure RecordPlace where
  ring : Nat
  back : Nat
  deriving DecidableEq, Repr

/-- LATE_CYC cycles have passed at a splice of a rafter (R373); `got`: for each running reload in turn, the number of
bytes it has delivered and those of them that came from a lower tier (R371). -/
structure SpliceLate where
  lr : Nat
  got : List (Nat × List Byte)
  deriving DecidableEq, Repr

/-- What bring-up finds as HELLO is exchanged (R433, R435, R438): the one-way latency in ns, and the physical lanes that failed to train or
that the other end marks failed. -/
structure HelloEnd where
  latency : Nat
  lanes : List Nat
  deriving DecidableEq, Repr

/-- What a PTP message says of its sender (R565): the domain number it carries, and the offset in ns measured from it. -/
structure PtpOffset where
  domain : Nat
  ns : Int
  deriving DecidableEq, Repr

/-- A flit as it arrives (R429, R430): the physical lane that carried it, symbols its codeword corrected, whether the codeword could be
corrected, its 200 payload bytes and its trailer. -/
structure RxFlit where
  lane : Nat
  csym : Nat
  codeword : Bool
  payload : List Byte
  trailer : W64
  deriving DecidableEq, Repr

/-- A unit of the module that finds an error, and the event (R23, R183, R267, R340, R344, R352, R423, R510, R524). Physical rafter 9n + k: 0 and 1 corrected in
the rafter store, in accumulator memory; 2 and 3 uncorrectable there; 4 array parity; 5 sequencer. Vector engine 5 × (9n + k) + v, decode
and encode pipelines: 0 corrected, 1 uncorrectable, 2 parity; `pic`: the picture an encode pipeline has in work. The alignment unit or the stager; a CRC replay and the end of a physical HBM
channel (R344, R352); `n` symbols of a stored HBM sector going into error (R340); H, with the requests it stopped by ring
and SEQ; and any other event source by its FLT_STATUS bit: a bridge receiver (R23), the parapet's self-check (R524). -/
inductive ErrSource where
  | rafter (u ev : Nat)
  | vector (x ev : Nat)
  | decode (k ev : Nat)
  | encode (k ev pic : Nat)
  | stager
  | crcReplay (st p : Nat)
  | deadChannel (st p : Nat)
  | sectorError (sec n : Nat)
  | hub (stopped : List (Nat × Nat))
  | line (b : Nat)
  deriving DecidableEq, Repr


/-- The commands of the module, one constructor per row of the opcode table. -/
inductive Instr where
  /-- REGISTER_WRITE (R10): A host write to a register field that has no row of its own is stored, ignored or applied according to its access code. -/
  | registerWrite (addr width : Nat) (v : W64)
  /-- BEAT_EDGE (R48): An edge arrives from the chosen beat source and is accepted, discarded as a glitch, or counted toward lock. -/
  | beatEdge (frac : Nat)
  /-- MISSING_EDGE (R50): The 2 % window of an expected edge closes with no accepted edge, and the edge counts as missing. -/
  | missingEdge
  /-- BEAT_LOSS (R53): At the moment holdover beat HOLD_BEATS would fall, the beat is lost, bit 41 is set and the course in progress fails with 0x82. -/
  | beatLoss
  /-- INTERNAL_BEAT (R49): The module makes an internal beat from the 25 MHz reference and advances CRS_BEAT_COUNT. -/
  | internalBeat
  /-- FREE_RIDGE (R58): While unlocked the module makes a free ridge every 100 µs that carries every ridge action except lane repair and opens no window. -/
  | freeRidge
  /-- RECLAIM (R296): Pending pages and sequences whose release version is not above the lowest walker start version become free. -/
  | reclaim
  /-- PHASE_DEADLINE (R72): A phase still running at its deadline fails the course with 0x81 and sets bit 45. -/
  | phaseDeadline (phase : Nat)
  /-- KV_ROLLBACK_DONE (R298): The rollout-cache restore ends, ROLLBACK clears and a pending resume takes effect. -/
  | kvRollbackDone
  /-- CRS_RESUME (R76): A write of 1 to CRS_RESUME.RESUME clears HELD so timed descriptors are read again. -/
  | crsResume (v : W32)
  /-- CRS_ABORT (R77): A write of 1 to CRS_ABORT.ABORT fails the course in progress with 0x86. -/
  | crsAbort (v : W32)
  /-- CRS_SWAP_REQ (R81): A write of 1 to CRS_SWAP.REQ validates the shadow set and sets SWAP_PEND or SWAP_ERR. -/
  | crsSwapReq (v : W32)
  /-- SHADOW_SET_WRITE (R83): A write to an RWS field stores into the shadow set, or is ignored with SHADOW_WERR while a swap is pending. -/
  | shadowSetWrite (addr : Nat) (v : W64)
  /-- TIMED_ENABLE (R78): A write of 1 to CRS_CTRL.ENABLE resumes reading the timed ring from the next unread descriptor. -/
  | timedEnable (v : W32)
  /-- TIMED_DISABLE (R78): A write of 0 to CRS_CTRL.ENABLE stops timed reads and withdraws waiting courses with 0x48. -/
  | timedDisable (v : W32)
  /-- BEAT_SRC_CHANGE (R78): A change of BEAT_SRC or of BEAT_PORT under Fjostlink source treats the old source as lost at once. -/
  | beatSrcChange (v : W32)
  /-- DESCRIPTOR_FETCH (R121): The module reads the next descriptor of a ring when the tail and completion room allow, and starts or rejects it. -/
  | descriptorFetch (ring : Nat) (ans : Option (List W64))
  /-- DESCRIPTOR_REREAD (R121): A stale descriptor is read again after 1 µs, and after 65 reads the ring is ended with 0x52. -/
  | descriptorReread (ring : Nat) (ans : Option (List W64))
  /-- NOP (R111): A NOP descriptor completes with 0x00. -/
  | nop (ring : Nat)
  /-- COURSE_RUN (R67): A COURSE_RUN descriptor is admitted for a window or refused with an admission status. -/
  | courseRun (ring : Nat)
  /-- BIAS_SET (R95): BIAS_SET sets a range of window pages shared or device-owned, recalling host lines for device ownership. -/
  | biasSet (ring : Nat)
  /-- BIAS_SET_DONE (R95): A BIAS_SET completes when every page of its range holds the new bias. -/
  | biasSetDone
  /-- APT_INVAL (R106): APT_INVAL drops cached aperture translations for a range of entries. -/
  | aptInval (ring : Nat)
  /-- APT_INVAL_DONE (R106): An APT_INVAL completes once no request in flight uses a dropped translation. -/
  | aptInvalDone
  /-- QUIESCE_RESET (R129): A QUIESCE with ACTION reset fences, drains, aborts, resets and reopens its target. -/
  | quiesceReset (ring : Nat)
  /-- QUIESCE_POWER_DOWN (R129): A QUIESCE with ACTION power down fences, drains and powers its target down, leaving the gate closed. -/
  | quiescePowerDown (ring : Nat)
  /-- QUIESCE_POWER_UP (R129): A QUIESCE with ACTION power up powers its target up and reopens it with a new generation. -/
  | quiescePowerUp (ring : Nat)
  /-- QUIESCE_DRAIN_LIMIT (R129): At t0 plus DRAIN_US the requests left are completed with 0x51, then the target is acted on and reopened. -/
  | quiesceDrainLimit (target : Nat)
  /-- TARGET_REPLY (R130): A reply from a quiesced target is delivered, or discarded and counted when its generation or tag is stale. -/
  | targetReply (target tag gen : Nat)
  /-- CQ_WRITE_FAIL (R115): A completion write that the host completes with an error loses the record and ends the ring with 0x59. -/
  | cqWriteFail (record : RecordPlace)
  /-- INTERRUPT_COALESCE_TIMEOUT (R140): A ring signals its MSI-X vector 10 µs after its oldest unsignalled record was posted. -/
  | interruptCoalesceTimeout (ring : Nat)
  /-- SQ_DOORBELL (R120): A submission doorbell write is checked and advances the tail, or is discarded, or ends the ring with 0x56. -/
  | sqDoorbell (off width : Nat) (v : W64)
  /-- CQ_DOORBELL (R119): A completion-head doorbell write is checked and advances cq_head, or is discarded with a HIF_DB_ERR flag. -/
  | cqDoorbell (off width : Nat) (v : W64)
  /-- RING_ENABLE (R123): ENABLE going from 0 to 1 checks the ring and sets ACTIVE, or refuses it with ERR and 0x50. -/
  | ringEnable (ring : Nat) (v : W32)
  /-- RING_DISABLE (R124): ENABLE going from 1 to 0 clears ACTIVE, sets BUSY and starts the ring's shut-down. -/
  | ringDisable (ring : Nat) (v : W32)
  /-- RING_SHUTDOWN_DONE (R125): When the last record of a shutting ring is posted, pointers reset, BUSY clears and a held enable takes effect. -/
  | ringShutdownDone (ring : Nat)
  /-- FUNC_POWER_DOWN (R127): Clearing a HIF_FUNC_EN bit quiesces the function with the power-down action. -/
  | funcPowerDown (v : W32)
  /-- FUNC_POWER_UP (R127): Setting a HIF_FUNC_EN bit powers the function up, held until a running power-down ends. -/
  | funcPowerUp (v : W32)
  /-- COH_MODE_WRITE (R99): A write to HIF_CTRL.COH_MODE switches coherence mode, or is ignored with MODE_ERR while courses or rings run. -/
  | cohModeWrite (v : W32)
  /-- HDM_MOVE_REQUEST (R101): A write to HIF_HDM.BASE_GIB sets MOVE_PEND for the next ridge, or is ignored with HDM_ERR when out of range. -/
  | hdmMoveRequest (v : W64)
  /-- HDM_HOST_ACCESS (R94): A host access to the HDM window is served, first flipping a device-owned page to shared. -/
  | hdmHostAccess (off : Nat) (access : HdmAccess)
  /-- LINK_TRAINED (R89): The CXL link completes training at the best common rate and width, or stays down. -/
  | linkTrained (offer : LinkOffer)
  /-- LINK_LEAVE_L0 (R133): The CXL link leaves L0 and the host-loss detection timer starts. -/
  | linkLeaveL0
  /-- LINK_DOWN_TIMEOUT (R133): The link has not returned to L0 within DET_US, which is host loss. -/
  | linkDownTimeout
  /-- HOSTRST_ASSERT (R133): Assertion of HOSTRST_N is host loss. -/
  | hostrstAssert
  /-- VIRAL_RECEIVED (R88): A received viral indication is treated as host loss. -/
  | viralReceived
  /-- HOST_LOSS_SELF_RESET (R134): With HL_MODE 0 the module carries out a module reset within 1 ms of host loss. -/
  | hostLossSelfReset
  /-- REATTACH (R136): After host re-enumeration in fallback mode the module clears HOST_LOST, sets REATTACH and signals vector 1,025. -/
  | reattach
  /-- ATTACH_RESUME (R136): A write of 1 to HIF_ATTACH.RESUME resumes suspended rings and posts held records in order. -/
  | attachResume (v : W32)
  /-- END (R176): END ends the rafter's program for the course, or returns from a splice segment. -/
  | endProgram (lr : Nat) (w0 w1 : W64)
  /-- RAFTER_NOP (R176): A rafter NOP only waits and signals as its word 0 gives. -/
  | rafterNop (lr : Nat) (w0 w1 : W64)
  /-- MX_LDB (R144): MX.LDB loads a block of B, plain or transposed, through the leggett into the standby buffer. -/
  | mxLdb (lr : Nat) (w0 w1 : W64)
  /-- MX_MM (R155): MX.MM streams rows of A through the array into an accumulator slot in the reference order. -/
  | mxMm (lr : Nat) (w0 w1 : W64)
  /-- ST_LOAD (R164): ST.LOAD moves a far range into the rafter store. -/
  | stLoad (lr : Nat) (w0 w1 : W64) (far : FarAns)
  /-- ST_LOAD_RUNAHEAD (R371): A run-ahead ST.LOAD fills its buffer, and its failure ends only itself. -/
  | stLoadRunahead (lr : Nat) (w0 w1 : W64)
  /-- RUNAHEAD_LOAD_END (R371): A run-ahead load ends, delivered, failed or cancelled, releasing instructions that wait on its buffer. -/
  | runaheadLoadEnd (lr : Nat) (near : Nat) (far : FarAns)
  /-- ST_STORE (R164): ST.STORE moves a rafter-store range to a far tier. -/
  | stStore (lr : Nat) (w0 w1 : W64) (far : FarAns)
  /-- ST_STORE_DOWNPIPE (R366): A downpipe ST.STORE is posted and takes effect on its near side once its bytes leave the rafter store. -/
  | stStoreDownpipe (lr : Nat) (w0 w1 : W64)
  /-- ST_STORE_COMP (R316): A compressing ST.STORE runs or reuses a table pass and writes a thatch section. -/
  | stStoreComp (lr : Nat) (w0 w1 : W64) (far : FarAns)
  /-- ST_DRAIN (R159): ST.DRAIN writes an accumulator tile as raw FP32 rows to a far tier. -/
  | stDrain (lr : Nat) (w0 w1 : W64) (far : FarAns)
  /-- ST_DRAIN_COMP (R318): An ST.DRAIN with COMP set thatches the tile as an FP32 section. -/
  | stDrainComp (lr : Nat) (w0 w1 : W64) (far : FarAns)
  /-- DOWNPIPE_ACK (R366): The far write of a downpipe store is acknowledged, releasing waiting accesses and its signal. -/
  | downpipeAck (lr : Nat)
  /-- LOWER_TIER_ACCESS_FAIL (R375): A host- or peer-aperture access fails, and its effect follows its kind, from recomputation to course failure. -/
  | lowerTierAccessFail (lr : Nat) (access : LowerAccess)
  /-- AT_SPLICE (R373): Before a spliced PC the sequencer checks the save point's reloads and either proceeds or issues the recomputation segment. -/
  | atSplice (lr : Nat)
  /-- SPLICE_LATE_TIMEOUT (R373): LATE_CYC cycles pass at a splice, and the running reloads are cancelled and the segment issued. -/
  | spliceLateTimeout (late : SpliceLate)
  /-- PROGRAM_FETCH (R587): The sequencer refills its instruction buffer from HBM, failing the course with 0x92 past HBM_CAP. -/
  | programFetch (lr : Nat)
  /-- VX_KERNEL (R235): VX.KERNEL runs a thread program over a number of sheafs on the rafter's vector engines. -/
  | vxKernel (lr : Nat) (w0 w1 : W64)
  /-- SHEAF_RESIDENT (R238): A sheaf becomes resident in a freed sheaf slot in increasing g, with zeroed registers. -/
  | sheafResident (lr g : Nat)
  /-- KERNEL_DONE (R240): A kernel takes effect when every sheaf has ended and every store is written, adding its watch counters. -/
  | kernelDone (lr : Nat)
  /-- VX_DWCONV (R261): VX.DWCONV computes a depthwise or grouped convolution. -/
  | vxDwconv (lr : Nat) (w0 w1 : W64)
  /-- VX_POOL (R262): VX.POOL computes maximum or average pooling. -/
  | vxPool (lr : Nat) (w0 w1 : W64)
  /-- VX_RESAMP (R263): VX.RESAMP resamples over height and width, nearest or bilinear. -/
  | vxResamp (lr : Nat) (w0 w1 : W64)
  /-- VX_BOXDEC (R264): VX.BOXDEC decodes boxes from deltas and anchors. -/
  | vxBoxdec (lr : Nat) (w0 w1 : W64)
  /-- VX_NMS (R265): VX.NMS selects boxes by score with overlap suppression. -/
  | vxNms (lr : Nat) (w0 w1 : W64)
  /-- THREAD_NOP (R243): A thread NOP does nothing. -/
  | threadNop (lr g : Nat) (w : W64)
  /-- THREAD_END (R238): Thread END ends the sheaf and frees its slot. -/
  | threadEnd (lr g : Nat) (w : W64)
  /-- SPEC (R243): SPEC writes a thread, sheaf, engine or rafter index selected by SUB. -/
  | spec (lr g : Nat) (w : W64)
  /-- BRA (R243): BRA jumps to an instruction. -/
  | bra (lr g : Nat) (w : W64)
  /-- BRANY (R243): BRANY jumps when A is non-zero in any active thread. -/
  | brany (lr g : Nat) (w : W64)
  /-- IF (R244): IF pushes the active bits and clears them where A is zero. -/
  | ifBegin (lr g : Nat) (w : W64)
  /-- ELSE (R243): ELSE sets active bits to the pushed bits and not the current ones. -/
  | elseFlip (lr g : Nat) (w : W64)
  /-- ENDIF (R243): ENDIF pops the active bits. -/
  | endIf (lr g : Nat) (w : W64)
  /-- FADD (R194): FADD adds two FP32 values. -/
  | fadd (lr g : Nat) (w : W64)
  /-- FSUB (R194): FSUB subtracts two FP32 values. -/
  | fsub (lr g : Nat) (w : W64)
  /-- FMUL (R194): FMUL multiplies two FP32 values. -/
  | fmul (lr g : Nat) (w : W64)
  /-- FFMA (R194): FFMA computes A times B plus C with one rounding. -/
  | ffma (lr g : Nat) (w : W64)
  /-- FDIV (R194): FDIV divides two FP32 values. -/
  | fdiv (lr g : Nat) (w : W64)
  /-- FMAX (R195): FMAX takes the FP32 maximum. -/
  | fmax (lr g : Nat) (w : W64)
  /-- FMIN (R195): FMIN takes the FP32 minimum. -/
  | fmin (lr g : Nat) (w : W64)
  /-- FCMP (R243): FCMP compares two FP32 values by the SUB condition. -/
  | fcmp (lr g : Nat) (w : W64)
  /-- FABS (R243): FABS clears the sign. -/
  | fabs (lr g : Nat) (w : W64)
  /-- FNEG (R243): FNEG inverts the sign. -/
  | fneg (lr g : Nat) (w : W64)
  /-- HADD (R194): HADD adds BF16 pairs. -/
  | hadd (lr g : Nat) (w : W64)
  /-- HMUL (R194): HMUL multiplies BF16 pairs. -/
  | hmul (lr g : Nat) (w : W64)
  /-- HFMA (R194): HFMA computes a BF16 pairwise fused multiply-add. -/
  | hfma (lr g : Nat) (w : W64)
  /-- HMAX (R195): HMAX takes BF16 pairwise maxima. -/
  | hmax (lr g : Nat) (w : W64)
  /-- HMIN (R195): HMIN takes BF16 pairwise minima. -/
  | hmin (lr g : Nat) (w : W64)
  /-- IADD (R243): IADD adds integers modulo 2^32. -/
  | iadd (lr g : Nat) (w : W64)
  /-- ISUB (R243): ISUB subtracts integers modulo 2^32. -/
  | isub (lr g : Nat) (w : W64)
  /-- IMUL (R243): IMUL gives the low 32 bits of an integer product. -/
  | imul (lr g : Nat) (w : W64)
  /-- AND (R243): AND forms a bitwise and. -/
  | andBits (lr g : Nat) (w : W64)
  /-- OR (R243): OR forms a bitwise or. -/
  | orBits (lr g : Nat) (w : W64)
  /-- XOR (R243): XOR forms a bitwise exclusive or. -/
  | xorBits (lr g : Nat) (w : W64)
  /-- SHL (R243): SHL shifts left. -/
  | shl (lr g : Nat) (w : W64)
  /-- SHR (R243): SHR shifts right with zero fill. -/
  | shr (lr g : Nat) (w : W64)
  /-- SAR (R243): SAR shifts right with sign fill. -/
  | sar (lr g : Nat) (w : W64)
  /-- ICMP (R243): ICMP compares integers by the SUB condition. -/
  | icmp (lr g : Nat) (w : W64)
  /-- SELC (R243): SELC selects A or B by C. -/
  | selc (lr g : Nat) (w : W64)
  /-- MOV (R243): MOV copies A. -/
  | mov (lr g : Nat) (w : W64)
  /-- CVTF (R243): CVTF converts a signed or unsigned integer to FP32. -/
  | cvtf (lr g : Nat) (w : W64)
  /-- CVTI (R243): CVTI converts FP32 to a saturating signed integer. -/
  | cvti (lr g : Nat) (w : W64)
  /-- EXP2 (R248): EXP2 returns 2^A correctly rounded. -/
  | exp2 (lr g : Nat) (w : W64)
  /-- LOG2 (R248): LOG2 returns log2 A correctly rounded. -/
  | log2 (lr g : Nat) (w : W64)
  /-- RCP (R248): RCP returns 1/A correctly rounded. -/
  | rcp (lr g : Nat) (w : W64)
  /-- RSQRT (R248): RSQRT returns 1/sqrt(A) correctly rounded. -/
  | rsqrt (lr g : Nat) (w : W64)
  /-- RAND (R250): RAND sets D to the counter-based random word of seed, identity, coordinate and draw. -/
  | rand (lr g : Nat) (w : W64)
  /-- SHFL (R243): SHFL reads A from another thread of the sheaf. -/
  | shfl (lr g : Nat) (w : W64)
  /-- SRED (R245): SRED reduces A over the sheaf in a fixed pairwise tree. -/
  | sred (lr g : Nat) (w : W64)
  /-- LD (R252): LD loads from the rafter store, accumulator, statistics buffer or parameter block. -/
  | ld (lr g : Nat) (w : W64)
  /-- ST (R255): ST converts a register to a stored format and writes it, counting into the watch counters. -/
  | st (lr g : Nat) (w : W64)
  /-- AT_FWD (R280): AT.FWD computes attention forward over a ragged batch in a fixed block order. -/
  | atFwd (lr : Nat) (w0 w1 : W64)
  /-- AT_BWD (R282): AT.BWD recomputes scores and forms dQ, dK and dV. -/
  | atBwd (lr : Nat) (w0 w1 : W64)
  /-- AT_DEC (R293): AT.DEC starts a walker that attends over the rollout cache at its start version. -/
  | atDec (lr : Nat) (w0 w1 : W64)
  /-- WALKER_END (R296): A walker ends, runs reclaim and releases changes that waited for it. -/
  | walkerEnd (lr : Nat)
  /-- KV_APPEND (R290): KV.APPEND writes keys and values of new tokens into cache pages, taking or copying pages. -/
  | kvAppend (lr : Nat) (w0 w1 : W64)
  /-- KV_EDIT (R289): KV.EDIT applies a list of page-table edits in order and writes result bytes. -/
  | kvEdit (lr : Nat) (w0 w1 : W64)
  /-- KV_CONF (R285): KV.CONF configures the rollout cache and clears it. -/
  | kvConf (lr : Nat) (w0 w1 : W64)
  /-- THC_INJECT_ARM (R331): A write of 1 to THC_INJECT.ARM arms one inverted CHECK for the next compressing store. -/
  | thcInjectArm (v : W32)
  /-- DRAM_TEMP_SAMPLE (R338): Every 100 µs a stack samples its hottest DRAM and sets refresh and rate limit. -/
  | dramTempSample (s t : Nat)
  /-- SCRUB_READ (R343): Patrol scrub reads a sector in free cycles, writing back corrections or marking it poisoned. -/
  | scrubRead (sec : Nat)
  /-- CHANNEL_RETRAIN_REQUEST (R344): A write of 1 to MEM_LCH_STAT.RETRAIN makes the channel retrain-pending for the next ridge. -/
  | channelRetrainRequest (s c : Nat) (v : W32)
  /-- CHANNEL_RETRAIN_END (R348): A retrain ends pass, marginal or dead, and the module assigns a spare or schedules a map-out and opens the gate. -/
  | channelRetrainEnd (s p result : Nat)
  /-- MIGRATION_GRANULE_COPY (R350): One granule is copied from source to target and the watermark advances. -/
  | migrationGranuleCopy (s c : Nat)
  /-- LOOPBACK_START (R346): A write of 1 to MEM_LOOP.START runs the loop-back test, or sets REFUSED. -/
  | loopbackStart (s : Nat) (v : W64)
  /-- LOOPBACK_DONE (R346): After DUR_US the loop-back test sets DONE and releases waiting requests. -/
  | loopbackDone (s errs : Nat)
  /-- MEM_INJECT_ARM (R345): A write of 1 to MEM_INJECT.ARM arms a check-symbol inversion on the next full-sector write. -/
  | memInjectArm (s : Nat) (v : W32)
  /-- PEAK_CLR (R354): A write of 1 to MEM_TEMP.PEAK_CLR clears TPEAK. -/
  | peakClr (s : Nat) (v : W32)
  /-- MEDIA_DECODE_JOB (R394): A MEDIA_JOB of KIND decode is validated and decodes, aligns and stages samples. -/
  | mediaDecodeJob (ring : Nat)
  /-- MEDIA_ENCODE_JOB (R415): A MEDIA_JOB of KIND encode is validated and encodes pictures within CAP. -/
  | mediaEncodeJob (ring : Nat)
  /-- BUFFER_GRANT (R403): A waiting stream is granted picture buffers from the work area in sample and stream order. -/
  | bufferGrant (ring sample stream : Nat) (src : MSrc) (ended : List (Nat × Nat))
  /-- SOURCE_READ_RETRY (R404): A failed source read is retried after 1 ms, ending the job with 0x64 if it fails again. -/
  | sourceReadRetry (ring : Nat) (encode : Bool) (srcs : List MSrc)
  /-- SAMPLE_COMMIT (R408): The stager commits the next finished sample in order, substituting a corrupt one. -/
  | sampleCommit (ring : Nat) (srcs : List MSrc)
  /-- DECODE_PIPELINE_FAULT (R412): A decode pipeline fault restarts the stream on the next pipeline, substituting after two restarts. -/
  | decodePipelineFault (k ring sample stream : Nat) (parity : Bool)
  /-- ENCODE_PIPELINE_FAULT (R423): An encode pipeline fault restarts the picture on another pipeline, ending the job with 0xC8 on a third. -/
  | encodePipelineFault (e ring picture : Nat) (parity : Bool)
  /-- PORT_BRING_UP (R433): A write of 1 to LNK_CTRL.EN starts the port's bring-up steps. -/
  | portBringUp (p : Nat) (v : W32) (far : List Nat)
  /-- BRING_UP_STEP_TIMEOUT (R434): A bring-up step exceeds its limit, setting TRAIN_ERR and restarting, or leaving the port down after three failures. -/
  | bringUpStepTimeout (p step : Nat)
  /-- BRING_UP_DONE (R433): Bring-up completes and sets UP, or DEGRADED with fewer lanes. -/
  | bringUpDone (p : Nat)
  /-- HELLO (R433): A HELLO idle flit exchanges identity, port and power domain and measures latency. -/
  | hello (p : Nat) (id : W64) (port pwrdom : Nat) (found : HelloEnd)
  /-- FLIT_RECEIVE (R430): A flit is received and accepted, or discarded with a NAK on a bad codeword, CRC or FTYPE. -/
  | flitReceive (p : Nat) (f : RxFlit)
  /-- BEAT_FLIT (R432): A BEAT idle flit on the beat port gives a beat edge and a beat number. -/
  | beatFlit (p beat frac : Nat)
  /-- FAIL_NOTICE (R458): A FAIL idle flit for the current timetable and course is relayed once and fails the course with 0x87. -/
  | failNotice (p ttId counter pos : Nat)
  /-- LANE_PROPOSE (R436): A LANE_PROPOSE announces failed lanes and a ridge, and is answered with LANE_ACCEPT. -/
  | lanePropose (p version beat : Nat) (lanes : List Nat)
  /-- LANE_ACCEPT (R436): A LANE_ACCEPT fixes the common ridge at which both ends apply the new lane map. -/
  | laneAccept (p version beat : Nat) (lanes : List Nat)
  /-- LANE_REPAIR_TIMEOUT (R436): A port not up 20 µs after a repair ridge goes down and starts bring-up. -/
  | laneRepairTimeout (p : Nat)
  /-- PORT_DOWN (R437): An up port goes down on loss of signal, lock or deskew, setting bit 28 + n and failing the course. -/
  | portDown (p : Nat) (lane : Option Nat)
  /-- SLOT_SEND_START (R444): A send entry starts its transfer with a header flit once its START, wait counter and previous transfer allow. -/
  | slotSendStart (e : Nat)
  /-- TRANSFER_HEADER (R445): A received transfer header is checked against the receive entry, failing the course with 0xA8 on mismatch. -/
  | transferHeader (e : Nat) (header : List Byte)
  /-- SEND_COMPLETE (R447): A send entry completes when every flit is acknowledged, signalling its counter. -/
  | sendComplete (e : Nat)
  /-- RECEIVE_COMPLETE (R447): A receive entry completes when its bytes are written and visible, signalling its counter. -/
  | receiveComplete (e : Nat) (payload : List Byte)
  /-- DISPATCH_PLAN (R454): When all count vectors are known, every module decides kept and dropped entries and writes the dispatch record. -/
  | dispatchPlan (d : Nat)
  /-- COMMIT_RESERVE_START (R446): At the start of the commit reserve, receive entries without a header fail the course with 0xA9. -/
  | commitReserveStart
  /-- PEER_APERTURE_REQUEST (R460): A peer-aperture request is served from this module's HBM within its exposed range, or refused. -/
  | peerApertureRequest (p addr len : Nat) (store : Option (List Byte))
  /-- PEER_APERTURE_REPLY (R460): A peer-aperture reply completes the requesting streamer access. -/
  | peerApertureReply (tag : Nat) (ans : FarAns)
  /-- SARK_BLOCKS (R484): A received BLOCKS record fills blocks of the receiving slot. -/
  | sarkBlocks (rec_ : List Byte)
  /-- SARK_SEAL (R484): A received SEAL record completes the point, which is sealed on a digest match or rejected. -/
  | sarkSeal (rec_ : List Byte)
  /-- SARK_ACK (R485): A received ACK record updates the receiver's acknowledgement and SVL_ACK.ACKED. -/
  | sarkAck (rec_ : List Byte)
  /-- SNAPSHOT_SAVE (R491): SNAPSHOT SAVE writes a sealed slot to flash, erasing old images for room. -/
  | snapshotSave (ring : Nat)
  /-- SNAPSHOT_LOAD (R490): SNAPSHOT LOAD reads a flash image into a slot and checks its digest. -/
  | snapshotLoad (ring : Nat)
  /-- SNAPSHOT_RESTORE (R476): SNAPSHOT RESTORE loads a sealed point into the module state and sets VERIFY. -/
  | snapshotRestore (ring : Nat)
  /-- SNAPSHOT_DROP (R488): SNAPSHOT DROP erases flash images. -/
  | snapshotDrop (ring : Nat)
  /-- HOST_COPY_TO_HOST (R489): HOST_COPY with DIR 0 copies a sealed point to host memory. -/
  | hostCopyToHost (ring : Nat)
  /-- HOST_COPY_FROM_HOST (R489): HOST_COPY with DIR 1 copies a point from host memory into a slot and checks it. -/
  | hostCopyFromHost (ring : Nat)
  /-- SNAPSHOT_SAVE_DONE (R490): A flash save ends and posts its completion. -/
  | snapshotSaveDone (area slot : Nat)
  /-- SNAPSHOT_LOAD_DONE (R490): A flash load ends, sealing or rejecting the slot, and posts its completion. -/
  | snapshotLoadDone (slot : Nat)
  /-- RESTORE_DONE (R476): A restore copy ends, RESTORING clears and the completion is posted. -/
  | restoreDone (area slot : Nat)
  /-- HOST_COPY_DONE (R490): A host copy ends and posts its completion. -/
  | hostCopyDone (out : Bool) (area slot : Nat) (far : FarAns)
  /-- FLASH_FAULT (R493): A flash controller fault raises bit 35 and stops a SAVE or LOAD with 0xD0. -/
  | flashFault
  /-- SVL_PAIR_WRITE (R480): A write to SVL_PAIR sets the partner and clears refusal and shared status. -/
  | svlPairWrite (v : W32)
  /-- SVL_HOT_WRITE (R479): A write to SVL_HOT sets the hot-spare roles and clears refusal and shared status. -/
  | svlHotWrite (v : W32)
  /-- SVL_CTRL_WRITE (R492): A write to SVL_CTRL sets the build and flash cadence and restarts the flash count. -/
  | svlCtrlWrite (v : W32)
  /-- GUTTER_WRITE (R501): A producer appends a word to the filling bank, closing it when full or marked LAST. -/
  | gutterWrite (i : Nat) (w : W64) (poison last : Bool) (owner : Option (Nat × Nat))
  /-- GUTTER_READ (R501): A consumer reads the next word, with parity checked and poison applied. -/
  | gutterRead (i : Nat) (dst : Option Nat)
  /-- GUTTER_STALE (R502): The stale-tail timer expires, counting STALE and closing the open bank. -/
  | gutterStale (i : Nat)
  /-- GUTTER_POINTER_MISMATCH (R505): A control-gutter pointer copy mismatch resets the gutter, discards its words and raises bit 37. -/
  | gutterPointerMismatch (i : Nat)
  /-- ERROR_LINE_RISE (R511): A block's error line rises, setting its FLT_STATUS bit or merging it, and failing the course by R73. -/
  | errorLineRise (e : ErrSource)
  /-- MERGE_WINDOW_CLOSE (R514): The merge window closes WIN_US after it opened. -/
  | mergeWindowClose
  /-- FLT_STATUS_CLEAR (R511): A W1C write clears FLT_STATUS or FLT_MERGED_SRC bits, a holding condition setting its bit again. -/
  | fltStatusClear (v : W64)
  /-- FLT_INJECT_ARM (R519): A write of 1 to FLT_INJECT.ARM arms an injection into a chosen checker, or is refused. -/
  | fltInjectArm (v : W64)
  /-- FLT_INJECT_DISARM (R519): A write of 1 to FLT_INJECT.DISARM clears an armed injection without consuming it. -/
  | fltInjectDisarm (v : W64)
  /-- ALIVE_TOGGLE (R516): Every 500 µs the parapet changes the level of ALIVE. -/
  | aliveToggle
  /-- SET_LIMIT (R527): The signed command SET_LIMIT sets LIMIT_W and DERATE_W for later windows. -/
  | setLimit (via : Nat) (ws : List W64)
  /-- SET_RAMP (R527): The signed command SET_RAMP sets SLOPE and BAND_W. -/
  | setRamp (via : Nat) (ws : List W64)
  /-- SET_TARGET (R527): The signed command SET_TARGET sets the floor target and hold time. -/
  | setTarget (via : Nat) (ws : List W64)
  /-- SET_COOL (R527): The signed command SET_COOL sets the valve fields and FLOW_K. -/
  | setCool (via : Nat) (ws : List W64)
  /-- SET_THERM (R527): The signed command SET_THERM sets JT_WARN. -/
  | setTherm (via : Nat) (ws : List W64)
  /-- SET_FATAL (R527): The signed command SET_FATAL sets further FLT_FATAL bits. -/
  | setFatal (via : Nat) (ws : List W64)
  /-- SET_CAL (R527): The signed command SET_CAL sets the calendar clock. -/
  | setCal (via : Nat) (ws : List W64)
  /-- DRAW_SAMPLE (R531): Every 10 µs the parapet measures the draw, moves the floor toward the target and sets flashing. -/
  | drawSample (meas joules : Nat) (short : Bool)
  /-- OVERDRAW_STEP (R534): After 100 µs of overdraw the arithmetic clock is lowered by 1/16, or restored after 1 ms below. -/
  | overdrawStep (above : Bool)
  /-- VALVE_UPDATE (R537): Every 10 ms the parapet sets the valve duty from planned draw and outlet rise. -/
  | valveUpdate (tin tout pulses : Nat)
  /-- COOLANT_CONDITION (R538): A flow, inlet or rise condition lasting its time holds bit 40 and derates later windows. -/
  | coolantCondition (cause : Nat) (holds : Bool)
  /-- THERMAL_SAMPLE (R539): Every 100 µs the parapet reads junction and DRAM sensors, acting at warn and trip thresholds. -/
  | thermalSample (truss hub dram pstage : Nat)
  /-- HARDWARE_TRIP (R539): The analog comparator asserts THERMTRIP_N and removes every rail except standby. -/
  | hardwareTrip
  /-- VBAT_SAMPLE (R544): Once per second VBAT is measured, setting VLOW and holding bit 42 below 2.5 V. -/
  | vbatSample (mv : Nat)
  /-- REF_CHECK (R577): Every 10 µs REF25 is compared against the parapet oscillator, holding bit 47 when absent or off frequency. -/
  | refCheck (good : Bool)
  /-- POWER_ON (R578): J1 rises through 48 V and the standby converter starts. -/
  | powerOn (osc : Bool)
  /-- STANDBY_GOOD (R578): Standby rails in tolerance start the parapet and release the valve. -/
  | standbyGood
  /-- SELF_TEST_PASS (R578): The lockstep self-test passes, VBAT is measured and the straps are sampled. -/
  | selfTestPass (mv pwrdom slot : Nat)
  /-- RAIL_SEQUENCE (R578): Once step 4's conditions hold, the main rails are sequenced on. -/
  | railSequence
  /-- RAIL_FAIL (R579): A rail missing power good takes every main rail down and counts RAILFAIL. -/
  | railFail
  /-- RAIL_RETRY (R579): 100 ms after a rail failure the sequence returns to step 4. -/
  | railRetry
  /-- POWER_GOOD (R578): The PLLs lock on REF25 and power good is reached. -/
  | powerGood
  /-- J1_OVERVOLTAGE (R575): J1 above 60 V for 100 µs raises bit 38. -/
  | j1Overvoltage
  /-- J1_UNDERVOLTAGE (R575): J1 below 48 V or 46 V beyond its tolerated time raises bit 38. -/
  | j1Undervoltage
  /-- STANDBY_LOSS (R575): J1 below 40 V loses standby and stops everything but the calendar clock. -/
  | standbyLoss
  /-- MODRST_ASSERT (R580): MODRST_N held low at least 10 µs after step 3 starts a module reset. -/
  | modrstAssert
  /-- BOOT_IDENTITY (R556): Boot stage 0x1 reconstructs the PUF seed and derives the identity key and IDHASH. -/
  | bootIdentity (puf : List Byte)
  /-- BOOT_MANIFEST (R549): Boot stage 0x2 reads and verifies the manifest. -/
  | bootManifest
  /-- BOOT_CACHE (R550): Boot stage 0x3 verifies the cached image slots and chooses one. -/
  | bootCache
  /-- OFFER (R552): A write of 1 to SEC_BOOT_CTRL.OFFER offers an object in host memory during the offer window. -/
  | offer (v : W32)
  /-- REQUEST_UPDATE (R552): A PLDM RequestUpdate on the management port offers an object during the offer window. -/
  | requestUpdate
  /-- OFFER_VERIFY (R552): An offered object has been read and is verified, ending the window for a valid image. -/
  | offerVerify (obj : Option (List Byte))
  /-- OFFER_WINDOW_CLOSE (R552): The 100 ms offer window closes and the image chosen from cache runs. -/
  | offerWindowClose
  /-- BOOT_LOAD (R550): Boot stage 0x5 loads the chosen image and starts the cache write. -/
  | bootLoad
  /-- CACHE_WRITE_DONE (R553): A cache write completes and its slot is marked valid after read-back. -/
  | cacheWriteDone
  /-- BOOT_CONFIG (R550): Boot stage 0x6 applies the spare map, tests spares, trains and clears HBM and measures IDLE_W. -/
  | bootConfig (tests : BootTests)
  /-- BOOT_ALIAS (R557): Boot stage 0x7 derives the alias key, signs its certificate and erases the identity key. -/
  | bootAlias
  /-- READY (R550): Boot sets READY, passes control to Bolyel and starts ALIVE. -/
  | ready
  /-- WATCHDOG_EXPIRY (R564): The management watchdog expires, raising bit 46 and restarting Bolyel. -/
  | watchdogExpiry
  /-- GET_VERSION (R560): The SPDM GET_VERSION request is answered with version 1.2. -/
  | getVersion
  /-- GET_CAPABILITIES (R560): The SPDM GET_CAPABILITIES request is answered. -/
  | getCapabilities
  /-- NEGOTIATE_ALGORITHMS (R560): The SPDM NEGOTIATE_ALGORITHMS request is answered with P-384 and SHA-384. -/
  | negotiateAlgorithms
  /-- GET_DIGESTS (R560): The SPDM GET_DIGESTS request is answered. -/
  | getDigests
  /-- GET_CERTIFICATE (R560): The SPDM GET_CERTIFICATE request returns the chain of slot 0. -/
  | getCertificate (off len : Nat)
  /-- CHALLENGE (R560): The SPDM CHALLENGE request is answered with a signed CHALLENGE_AUTH. -/
  | challenge (nonce : List Byte)
  /-- GET_MEASUREMENTS (R560): The SPDM GET_MEASUREMENTS request returns signed measurements 1 to 6. -/
  | getMeasurements (index : Nat) (nonce : List Byte)
  /-- KEY_ADD (R559): An ADD edit adds an owner key entry to the key store. -/
  | keyAdd (via : Nat) (edit : List Byte)
  /-- KEY_REVOKE (R559): A REVOKE edit removes an owner key entry. -/
  | keyRevoke (via : Nat) (edit : List Byte)
  /-- KEY_CLEAR (R559): A CLEAR edit empties the key store. -/
  | keyClear (via : Nat) (edit : List Byte)
  /-- FIRMWARE_UPDATE (R563): A PLDM Type 5 update after READY verifies a signed object and writes it to the cache. -/
  | firmwareUpdate (obj : List Byte)
  /-- ACTIVATE_FIRMWARE (R563): ActivateFirmware is answered with activation at the next module reset. -/
  | activateFirmware
  /-- PTP_MESSAGE (R565): A PTP message updates the offset, locking, slewing or stepping the module time base. -/
  | ptpMessage (offset : PtpOffset) (time : Nat)
  /-- PPS_EDGE (R565): A PPS edge aligns the second boundary of the time base while PTP is locked. -/
  | ppsEdge
  /-- MODRST_RELEASE (R578): MODRST_N going high after power good starts boot stage 0x1. -/
  | modrstRelease
  /-- RIDGE_INTERVAL_END (R56): 25 µs after the opening ridge the ridge interval ends and the course image's work and slot times begin. -/
  | ridgeIntervalEnd
  /-- ENCODE_JOB_COMPLETE (R387): An encode job finishes its last picture, writes its index and posts its completion with pictures written and capped. -/
  | encodeJobComplete (ring : Nat) (far : FarAns)
  /-- HOST_SNOOP (R98): In full-coherence mode a host snoop arrives over CXL.cache and is served from the host-line cache. -/
  | hostSnoop (line : Nat)
  /-- RESERVED_RAFTER_OPCODE (R176): A rafter instruction with a reserved opcode issues and ends the course with 0x90. -/
  | reservedRafterOpcode (lr : Nat) (w0 w1 : W64)
  /-- RESERVED_THREAD_OPCODE (R243): A thread instruction with a reserved opcode issues and ends the course with 0x90. -/
  | reservedThreadOpcode (lr g : Nat) (w : W64)
  /-- RESERVED_PARAPET_OPCODE (R528): A parapet command with a reserved opcode or malformed form is refused with result 0x02 in PPT_CMD. -/
  | reservedParapetOpcode (via : Nat) (ws : List W64)
  /-- SPDM_UNSUPPORTED_REQUEST (R560): An SPDM request not in the supported table is answered with ERROR UnsupportedRequest. -/
  | spdmUnsupportedRequest (code : Nat)
  deriving DecidableEq, Repr

end Sys2Proof
end

