-- ==== Sys2Proof/Decode.lean ====
section
/-! DEFINITION. The decoder of table words. The opcode table of this block gives no row any bits: commands are register writes, bus
operations and events, not words (assumption 1). -/

namespace Sys2Proof

/-- The command an `nbits`-bit word spells: none, as no row of the table has bits. -/
def decodeTableWord (_nbits _w : Nat) : Option Instr := none

end Sys2Proof
end

