-- ==== Sys2Proof/Machine/Regs.lean ====
section
/-! DEFINITION. The set-up registers of BAR0 (R6 to R12), transcribed from the register tables of the manual: each field as a
`Fld` (its place, width and value after module reset), and the table that finds a register by its address with each field's
access code. Index names: n truss die, k physical rafter or pipeline, v vector engine, s stack, c logical channel, p physical
channel or port, l physical lane, r ring, e encode pipeline, a area, i gutter. -/

namespace Sys2Proof.Machine

/-- A field of a register. `key` is 64 × (BAR0 address of its register) + (its lowest bit). -/
structure Fld where
  key : Nat
  w : Nat
  reset : Nat
  deriving DecidableEq, Repr

/-- Access codes of R10. -/
inductive Acc where
  | RO | RW | W1C | W1S | RWS | PRO
  deriving DecidableEq, Repr

/-- A register: its BAR0 address, its width in bits, its fields with their access codes. Bits no field covers are reserved and
read as zero (R12). -/
structure RegRow where
  addr : Nat
  width : Nat
  fields : List (Acc × Fld)
  deriving DecidableEq, Repr

/-- R500: whether gutter identity `i` is defined. -/
def Gut.defined (i : Nat) : Bool :=
  decide (i ≤ 0xA3 ∨ (0xB0 ≤ i ∧ i ≤ 0xD7) ∨ (0x100 ≤ i ∧ i ≤ 0x143) ∨ (0x150 ≤ i ∧ i ≤ 0x16E) ∨ (0x170 ≤ i ∧ i ≤ 0x172))

/-- R500: class of gutter `i`, 0 data, 1 control. -/
def Gut.cls (i : Nat) : Nat :=
  if i ≤ 0x8F then bit (i % 4 = 0)
  else if 0xB0 ≤ i ∧ i ≤ 0xD7 then bit (i % 2 = 0)
  else bit (i = 0x140 ∨ i = 0x141 ∨ i = 0x142 ∨ i = 0x16E ∨ i = 0x170)

/-- R500: depth of gutter `i` in words, 2B. -/
def Gut.depth (i : Nat) : Nat :=
  if i ≤ 0x8F then (if i % 4 = 0 then 64 else 512)
  else if i ≤ 0x9B then 1024
  else if i ≤ 0xA3 then 512
  else if i ≤ 0xD7 then (if i % 2 = 0 then 256 else 1024)
  else if i ≤ 0x13F then 2048
  else if i ≤ 0x142 then 256
  else if i ≤ 0x143 then 1024
  else if i ≤ 0x16D then 1024
  else if i ≤ 0x170 then 64
  else 2048

/-! ### Fields -/

/-! GEN_IDENT, 32 bits, R36. -/
abbrev Reg.GEN_IDENT.VENDOR : Fld := ⟨0, 16, 0x1E5B⟩
abbrev Reg.GEN_IDENT.DEVICE : Fld := ⟨16, 16, 0xd080⟩

/-! GEN_REV, 32 bits, R37. -/
abbrev Reg.GEN_REV.STEP_MINOR : Fld := ⟨256, 4, 0x1⟩
abbrev Reg.GEN_REV.STEP_MAJOR : Fld := ⟨260, 4, 0x1⟩

/-! GEN_SPARES, 64 bits, R38. -/
abbrev Reg.GEN_SPARES.RAFT_FREE : Fld := ⟨1024, 3, 0x4⟩
abbrev Reg.GEN_SPARES.VEC_FREE : Fld := ⟨1032, 6, 0x20⟩
abbrev Reg.GEN_SPARES.LANE_FREE : Fld := ⟨1040, 7, 0x40⟩
abbrev Reg.GEN_SPARES.CHAN_FREE : Fld := ⟨1048, 6, 0x28⟩
abbrev Reg.GEN_SPARES.DEC_FREE : Fld := ⟨1054, 2, 0x2⟩
abbrev Reg.GEN_SPARES.CHAN_OUT : Fld := ⟨1056, 10, 0x0⟩
abbrev Reg.GEN_SPARES.HBM_CAP : Fld := ⟨1068, 12, 0x780⟩

/-! GEN_RAFTMAP0, 64 bits, R39. -/
abbrev Reg.GEN_RAFTMAP0.MAP_T0 : Fld := ⟨1536, 32, 0x76543210⟩
abbrev Reg.GEN_RAFTMAP0.MAP_T1 : Fld := ⟨1568, 32, 0x76543210⟩

/-! GEN_RAFTMAP1, 64 bits, R39. -/
abbrev Reg.GEN_RAFTMAP1.MAP_T2 : Fld := ⟨2048, 32, 0x76543210⟩
abbrev Reg.GEN_RAFTMAP1.MAP_T3 : Fld := ⟨2080, 32, 0x76543210⟩

/-! CRS_CTRL, 32 bits, R86. -/
abbrev Reg.CRS_CTRL.ENABLE : Fld := ⟨4194304, 1, 0x0⟩
abbrev Reg.CRS_CTRL.BEAT_SRC : Fld := ⟨4194305, 2, 0x0⟩
abbrev Reg.CRS_CTRL.BEAT_PORT : Fld := ⟨4194307, 5, 0x0⟩
abbrev Reg.CRS_CTRL.TIMED_RING : Fld := ⟨4194320, 10, 0x0⟩

/-! CRS_BEAT_NOM, 32 bits, R86. -/
abbrev Reg.CRS_BEAT_NOM.NOM_NS : Fld := ⟨4194560, 24, 0xf4240⟩

/-! CRS_HOLDMAX, 32 bits, R86. -/
abbrev Reg.CRS_HOLDMAX.HOLD_BEATS : Fld := ⟨4194816, 16, 0x3e8⟩

/-! CRS_STATUS, 32 bits, R86. -/
abbrev Reg.CRS_STATUS.LOCKED : Fld := ⟨4195072, 1, 0x0⟩
abbrev Reg.CRS_STATUS.HOLDOVER : Fld := ⟨4195073, 1, 0x0⟩
abbrev Reg.CRS_STATUS.HELD : Fld := ⟨4195074, 1, 0x0⟩
abbrev Reg.CRS_STATUS.SWAP_PEND : Fld := ⟨4195075, 1, 0x0⟩
abbrev Reg.CRS_STATUS.SWAP_ERR : Fld := ⟨4195076, 1, 0x0⟩
abbrev Reg.CRS_STATUS.SHADOW_WERR : Fld := ⟨4195077, 1, 0x0⟩
abbrev Reg.CRS_STATUS.LOCK_ERR : Fld := ⟨4195078, 1, 0x0⟩
abbrev Reg.CRS_STATUS.IDLE : Fld := ⟨4195079, 1, 0x1⟩

/-! CRS_BEAT_PERIOD, 32 bits, R86. -/
abbrev Reg.CRS_BEAT_PERIOD.PERIOD_NS : Fld := ⟨4195328, 24, 0x0⟩

/-! CRS_BEAT_COUNT, 64 bits, R86. -/
abbrev Reg.CRS_BEAT_COUNT.BEATS : Fld := ⟨4195840, 64, 0x0⟩

/-! CRS_RIDGE_COUNT, 64 bits, R86. -/
abbrev Reg.CRS_RIDGE_COUNT.RIDGES : Fld := ⟨4196352, 64, 0x0⟩

/-! CRS_COURSE_COUNT, 64 bits, R86. -/
abbrev Reg.CRS_COURSE_COUNT.COURSES : Fld := ⟨4196864, 64, 0x0⟩

/-! CRS_TIME, 64 bits, R86. -/
abbrev Reg.CRS_TIME.TIME_NS : Fld := ⟨4197376, 64, 0x0⟩

/-! CRS_LAST, 64 bits, R86. -/
abbrev Reg.CRS_LAST.STATUS : Fld := ⟨4197888, 8, 0x0⟩
abbrev Reg.CRS_LAST.COMMITTED : Fld := ⟨4197896, 1, 0x0⟩
abbrev Reg.CRS_LAST.SUPPRESSED : Fld := ⟨4197897, 1, 0x0⟩
abbrev Reg.CRS_LAST.COURSE : Fld := ⟨4197904, 48, 0x0⟩

/-! CRS_SWAP, 32 bits, R86. -/
abbrev Reg.CRS_SWAP.REQ : Fld := ⟨4198400, 1, 0x0⟩

/-! CRS_EPOCH, 32 bits, R86. -/
abbrev Reg.CRS_EPOCH.EPOCH : Fld := ⟨4198656, 32, 0x0⟩

/-! CRS_RESUME, 32 bits, R86. -/
abbrev Reg.CRS_RESUME.RESUME : Fld := ⟨4198912, 1, 0x0⟩

/-! CRS_ABORT, 32 bits, R86. -/
abbrev Reg.CRS_ABORT.ABORT : Fld := ⟨4199168, 1, 0x0⟩

/-! CRS_ADM_END, 64 bits, R86. -/
abbrev Reg.CRS_ADM_END.END_NS : Fld := ⟨4199424, 64, 0x0⟩

/-! CRS_ADM_WIN, 64 bits, R86. -/
abbrev Reg.CRS_ADM_WIN.WIN_NS : Fld := ⟨4199936, 64, 0x0⟩

/-! CRS_ADM_STATUS, 32 bits, R86. -/
abbrev Reg.CRS_ADM_STATUS.STATUS : Fld := ⟨4200448, 8, 0x0⟩

/-! CRS_SET_IMGTAB, 64 bits, R87. -/
abbrev Reg.CRS_SET_IMGTAB.COUNT : Fld := ⟨4210688, 12, 0x0⟩
abbrev Reg.CRS_SET_IMGTAB.BASE : Fld := ⟨4210700, 52, 0x0⟩

/-! CRS_SET_TTAB, 64 bits, R87. -/
abbrev Reg.CRS_SET_TTAB.COUNT : Fld := ⟨4211200, 12, 0x0⟩
abbrev Reg.CRS_SET_TTAB.BASE : Fld := ⟨4211212, 52, 0x0⟩

/-! CRS_SET_PLAN, 64 bits, R87. -/
abbrev Reg.CRS_SET_PLAN.BASE : Fld := ⟨4211724, 52, 0x0⟩

/-! CRS_SET_RECIPE, 64 bits, R87. -/
abbrev Reg.CRS_SET_RECIPE.COUNT : Fld := ⟨4212224, 12, 0x0⟩
abbrev Reg.CRS_SET_RECIPE.BASE : Fld := ⟨4212236, 52, 0x0⟩

/-! CRS_SET_SPARE, 64 bits, R87. -/
abbrev Reg.CRS_SET_SPARE.SPARE_VER : Fld := ⟨4212736, 32, 0x0⟩

/-! CRS_SET_LEDGER, 64 bits, R87. -/
abbrev Reg.CRS_SET_LEDGER.BASE : Fld := ⟨4213260, 52, 0x0⟩

/-! HIF_CTRL, 32 bits, R141. -/
abbrev Reg.HIF_CTRL.HL_MODE : Fld := ⟨8388608, 1, 0x0⟩
abbrev Reg.HIF_CTRL.COH_MODE : Fld := ⟨8388609, 1, 0x0⟩

/-! HIF_STATUS, 32 bits, R141. -/
abbrev Reg.HIF_STATUS.LINK_UP : Fld := ⟨8388864, 1, 0x0⟩
abbrev Reg.HIF_STATUS.HOST_LOST : Fld := ⟨8388865, 1, 0x0⟩
abbrev Reg.HIF_STATUS.REATTACH : Fld := ⟨8388866, 1, 0x0⟩
abbrev Reg.HIF_STATUS.MODE_ERR : Fld := ⟨8388867, 1, 0x0⟩
abbrev Reg.HIF_STATUS.HDM_ERR : Fld := ⟨8388868, 1, 0x0⟩
abbrev Reg.HIF_STATUS.DB_ERR : Fld := ⟨8388869, 1, 0x0⟩

/-! HIF_LINK, 32 bits, R141. -/
abbrev Reg.HIF_LINK.RATE : Fld := ⟨8389120, 3, 0x0⟩
abbrev Reg.HIF_LINK.WIDTH : Fld := ⟨8389123, 5, 0x0⟩

/-! HIF_HDM, 64 bits, R141. -/
abbrev Reg.HIF_HDM.BASE_GIB : Fld := ⟨8389632, 10, 0x0⟩
abbrev Reg.HIF_HDM.MOVE_PEND : Fld := ⟨8389642, 1, 0x0⟩
abbrev Reg.HIF_HDM.LOST : Fld := ⟨8389643, 1, 0x0⟩

/-! HIF_APT_BASE, 64 bits, R141. -/
abbrev Reg.HIF_APT_BASE.OFFSET : Fld := ⟨8390156, 22, 0x0⟩

/-! HIF_APT_CFG, 32 bits, R141. -/
abbrev Reg.HIF_APT_CFG.COUNT : Fld := ⟨8390656, 21, 0x0⟩
abbrev Reg.HIF_APT_CFG.EN : Fld := ⟨8390677, 1, 0x0⟩

/-! HIF_APT_FAULT, 64 bits, R141. -/
abbrev Reg.HIF_APT_FAULT.ADDR : Fld := ⟨8391168, 42, 0x0⟩
abbrev Reg.HIF_APT_FAULT.CAUSE : Fld := ⟨8391210, 2, 0x0⟩
abbrev Reg.HIF_APT_FAULT.VALID : Fld := ⟨8391212, 1, 0x0⟩

/-! HIF_BIAS_FLIPS, 64 bits, R141. -/
abbrev Reg.HIF_BIAS_FLIPS.FLIPS : Fld := ⟨8391680, 64, 0x0⟩

/-! HIF_REREADS, 64 bits, R141. -/
abbrev Reg.HIF_REREADS.REREADS : Fld := ⟨8392192, 64, 0x0⟩

/-! HIF_DB_ERR, 32 bits, R141. -/
abbrev Reg.HIF_DB_ERR.RING : Fld := ⟨8392704, 10, 0x0⟩
abbrev Reg.HIF_DB_ERR.DISCARD : Fld := ⟨8392714, 1, 0x0⟩
abbrev Reg.HIF_DB_ERR.MISMATCH : Fld := ⟨8392715, 1, 0x0⟩
abbrev Reg.HIF_DB_ERR.BADPAGE : Fld := ⟨8392716, 1, 0x0⟩
abbrev Reg.HIF_DB_ERR.CQHEAD : Fld := ⟨8392717, 1, 0x0⟩

/-! HIF_FUNC_EN, 32 bits, R141. -/
abbrev Reg.HIF_FUNC_EN.EN : Fld := ⟨8392960, 4, 0xf⟩

/-! HIF_FUNC_BUSY, 32 bits, R141. -/
abbrev Reg.HIF_FUNC_BUSY.BUSY : Fld := ⟨8393216, 4, 0x0⟩

/-! HIF_QUI_DRAIN, 32 bits, R141. -/
abbrev Reg.HIF_QUI_DRAIN.DRAIN_US : Fld := ⟨8393472, 16, 0x64⟩

/-! HIF_QUI_DISCARD, 64 bits, R141. -/
abbrev Reg.HIF_QUI_DISCARD.DISCARDS : Fld := ⟨8393728, 64, 0x0⟩

/-! HIF_HL_LOST, 64 bits, R141. -/
abbrev Reg.HIF_HL_LOST.LOST : Fld := ⟨8394240, 64, 0x0⟩

/-! HIF_HL_DET, 32 bits, R141. -/
abbrev Reg.HIF_HL_DET.DET_US : Fld := ⟨8394752, 16, 0x2710⟩

/-! HIF_ATTACH, 32 bits, R141. -/
abbrev Reg.HIF_ATTACH.RESUME : Fld := ⟨8395008, 1, 0x0⟩

/-! HIF_RING_SQ, 64 bits, R142. -/
abbrev Reg.HIF_RING_SQ.BASE (r : Nat) : Fld := ⟨(0x28000 + r * 0x20 + 0x0) * 64 + 12, 52, 0x0⟩

/-! HIF_RING_CQ, 64 bits, R142. -/
abbrev Reg.HIF_RING_CQ.BASE (r : Nat) : Fld := ⟨(0x28000 + r * 0x20 + 0x8) * 64 + 12, 52, 0x0⟩

/-! HIF_RING_CFG, 32 bits, R142. -/
abbrev Reg.HIF_RING_CFG.ENABLE (r : Nat) : Fld := ⟨(0x28000 + r * 0x20 + 0x10) * 64 + 0, 1, 0x0⟩
abbrev Reg.HIF_RING_CFG.CLASS (r : Nat) : Fld := ⟨(0x28000 + r * 0x20 + 0x10) * 64 + 1, 2, 0x1⟩
abbrev Reg.HIF_RING_CFG.SIZE_LOG2 (r : Nat) : Fld := ⟨(0x28000 + r * 0x20 + 0x10) * 64 + 3, 4, 0x4⟩
abbrev Reg.HIF_RING_CFG.IRQ_EN (r : Nat) : Fld := ⟨(0x28000 + r * 0x20 + 0x10) * 64 + 7, 1, 0x0⟩
abbrev Reg.HIF_RING_CFG.VECTOR (r : Nat) : Fld := ⟨(0x28000 + r * 0x20 + 0x10) * 64 + 8, 10, 0x0⟩
abbrev Reg.HIF_RING_CFG.COAL (r : Nat) : Fld := ⟨(0x28000 + r * 0x20 + 0x10) * 64 + 24, 8, 0x0⟩

/-! HIF_RING_STAT, 32 bits, R142. -/
abbrev Reg.HIF_RING_STAT.ACTIVE (r : Nat) : Fld := ⟨(0x28000 + r * 0x20 + 0x14) * 64 + 0, 1, 0x0⟩
abbrev Reg.HIF_RING_STAT.BUSY (r : Nat) : Fld := ⟨(0x28000 + r * 0x20 + 0x14) * 64 + 1, 1, 0x0⟩
abbrev Reg.HIF_RING_STAT.ERR (r : Nat) : Fld := ⟨(0x28000 + r * 0x20 + 0x14) * 64 + 2, 1, 0x0⟩
abbrev Reg.HIF_RING_STAT.ERR_CODE (r : Nat) : Fld := ⟨(0x28000 + r * 0x20 + 0x14) * 64 + 8, 8, 0x0⟩

/-! HIF_RING_PTR, 64 bits, R142. -/
abbrev Reg.HIF_RING_PTR.SQ_HEAD (r : Nat) : Fld := ⟨(0x28000 + r * 0x20 + 0x18) * 64 + 0, 16, 0x0⟩
abbrev Reg.HIF_RING_PTR.SQ_TAIL (r : Nat) : Fld := ⟨(0x28000 + r * 0x20 + 0x18) * 64 + 16, 16, 0x0⟩
abbrev Reg.HIF_RING_PTR.CQ_TAIL (r : Nat) : Fld := ⟨(0x28000 + r * 0x20 + 0x18) * 64 + 32, 16, 0x0⟩
abbrev Reg.HIF_RING_PTR.EXP_SEQ (r : Nat) : Fld := ⟨(0x28000 + r * 0x20 + 0x18) * 64 + 48, 16, 0x0⟩

/-! TRS_DIE_STAT, 32 bits, R190. -/
abbrev Reg.TRS_DIE_STAT.ACTIVE (n : Nat) : Fld := ⟨(0x1000000 + n * 0x400000 + 0x0) * 64 + 0, 9, 0xff⟩
abbrev Reg.TRS_DIE_STAT.SPARE (n : Nat) : Fld := ⟨(0x1000000 + n * 0x400000 + 0x0) * 64 + 9, 9, 0x100⟩
abbrev Reg.TRS_DIE_STAT.FAILED (n : Nat) : Fld := ⟨(0x1000000 + n * 0x400000 + 0x0) * 64 + 18, 9, 0x0⟩

/-! TRS_CE_LIMIT, 32 bits, R190. -/
abbrev Reg.TRS_CE_LIMIT.LIMIT (n : Nat) : Fld := ⟨(0x1000000 + n * 0x400000 + 0x4) * 64 + 0, 16, 0x100⟩

/-! TRS_PROG_ERR, 64 bits, R190. -/
abbrev Reg.TRS_PROG_ERR.STATUS (n : Nat) : Fld := ⟨(0x1000000 + n * 0x400000 + 0x8) * 64 + 0, 8, 0x0⟩
abbrev Reg.TRS_PROG_ERR.LRAFT (n : Nat) : Fld := ⟨(0x1000000 + n * 0x400000 + 0x8) * 64 + 8, 3, 0x0⟩
abbrev Reg.TRS_PROG_ERR.VALID (n : Nat) : Fld := ⟨(0x1000000 + n * 0x400000 + 0x8) * 64 + 11, 1, 0x0⟩
abbrev Reg.TRS_PROG_ERR.PC (n : Nat) : Fld := ⟨(0x1000000 + n * 0x400000 + 0x8) * 64 + 16, 32, 0x0⟩
abbrev Reg.TRS_PROG_ERR.COURSE (n : Nat) : Fld := ⟨(0x1000000 + n * 0x400000 + 0x8) * 64 + 48, 16, 0x0⟩

/-! TRS_MAC_BUSY, 64 bits, R190. -/
abbrev Reg.TRS_MAC_BUSY.CYCLES (n : Nat) : Fld := ⟨(0x1000000 + n * 0x400000 + 0x10) * 64 + 0, 64, 0x0⟩

/-! TRS_RAFT_STAT, 32 bits, R190. -/
abbrev Reg.TRS_RAFT_STAT.LOGICAL (n k : Nat) : Fld := ⟨(0x1000000 + n * 0x400000 + 0x100 + k * 0x20) * 64 + 0, 4, (if k ≤ 7 then k else 15)⟩
abbrev Reg.TRS_RAFT_STAT.STATE (n k : Nat) : Fld := ⟨(0x1000000 + n * 0x400000 + 0x100 + k * 0x20) * 64 + 4, 2, (if k ≤ 7 then 0 else 1)⟩
abbrev Reg.TRS_RAFT_STAT.CAUSE (n k : Nat) : Fld := ⟨(0x1000000 + n * 0x400000 + 0x100 + k * 0x20) * 64 + 6, 2, 0x0⟩

/-! TRS_RAFT_CE, 64 bits, R190. -/
abbrev Reg.TRS_RAFT_CE.CE_STORE (n k : Nat) : Fld := ⟨(0x1000000 + n * 0x400000 + 0x108 + k * 0x20) * 64 + 0, 32, 0x0⟩
abbrev Reg.TRS_RAFT_CE.CE_ACC (n k : Nat) : Fld := ⟨(0x1000000 + n * 0x400000 + 0x108 + k * 0x20) * 64 + 32, 32, 0x0⟩

/-! TRS_RAFT_UE, 64 bits, R190. -/
abbrev Reg.TRS_RAFT_UE.UE_STORE (n k : Nat) : Fld := ⟨(0x1000000 + n * 0x400000 + 0x110 + k * 0x20) * 64 + 0, 16, 0x0⟩
abbrev Reg.TRS_RAFT_UE.UE_ACC (n k : Nat) : Fld := ⟨(0x1000000 + n * 0x400000 + 0x110 + k * 0x20) * 64 + 16, 16, 0x0⟩
abbrev Reg.TRS_RAFT_UE.PARITY (n k : Nat) : Fld := ⟨(0x1000000 + n * 0x400000 + 0x110 + k * 0x20) * 64 + 32, 16, 0x0⟩
abbrev Reg.TRS_RAFT_UE.SEQ_ERR (n k : Nat) : Fld := ⟨(0x1000000 + n * 0x400000 + 0x110 + k * 0x20) * 64 + 48, 16, 0x0⟩

/-! CRS_NUM_VOTE, 32 bits, R229. -/
abbrev Reg.CRS_NUM_VOTE.VOTE : Fld := ⟨4243456, 1, 0x0⟩
abbrev Reg.CRS_NUM_VOTE.RESULT : Fld := ⟨4243457, 1, 0x0⟩
abbrev Reg.CRS_NUM_VOTE.VALID : Fld := ⟨4243458, 1, 0x0⟩
abbrev Reg.CRS_NUM_VOTE.HALVED : Fld := ⟨4243464, 8, 0x0⟩

/-! CRS_NUM_STATE, 32 bits, R229. -/
abbrev Reg.CRS_NUM_STATE.PAR : Fld := ⟨4243712, 1, 0x0⟩

/-! CRS_NUM_WATCH, 64 bits, R229. -/
abbrev Reg.CRS_NUM_WATCH.RECORDS : Fld := ⟨4243968, 64, 0x0⟩

/-! CRS_NUM_SKIPS, 64 bits, R229. -/
abbrev Reg.CRS_NUM_SKIPS.SKIPS : Fld := ⟨4244480, 64, 0x0⟩

/-! CRS_NUM_SAT, 64 bits, R229. -/
abbrev Reg.CRS_NUM_SAT.SAT_TRIPS : Fld := ⟨4244992, 64, 0x0⟩

/-! TRS_VEC_SEED, 64 bits, R271. -/
abbrev Reg.TRS_VEC_SEED.SEED (n : Nat) : Fld := ⟨(0x1000000 + n * 0x400000 + 0x1000) * 64 + 0, 64, 0x0⟩

/-! TRS_VEC_BUSY, 64 bits, R271. -/
abbrev Reg.TRS_VEC_BUSY.CYCLES (n : Nat) : Fld := ⟨(0x1000000 + n * 0x400000 + 0x1008) * 64 + 0, 64, 0x0⟩

/-! TRS_VEC_STAT, 32 bits, R271. -/
abbrev Reg.TRS_VEC_STAT.LOGICAL (n k v : Nat) : Fld := ⟨(0x1000000 + n * 0x400000 + 0x1100 + k * 0x80 + v * 0x10) * 64 + 0, 3, (if v ≤ 3 then v else 7)⟩
abbrev Reg.TRS_VEC_STAT.STATE (n k v : Nat) : Fld := ⟨(0x1000000 + n * 0x400000 + 0x1100 + k * 0x80 + v * 0x10) * 64 + 3, 2, (if v ≤ 3 then 0 else 1)⟩
abbrev Reg.TRS_VEC_STAT.CAUSE (n k v : Nat) : Fld := ⟨(0x1000000 + n * 0x400000 + 0x1100 + k * 0x80 + v * 0x10) * 64 + 5, 2, 0x0⟩

/-! TRS_VEC_ERR, 64 bits, R271. -/
abbrev Reg.TRS_VEC_ERR.CE_REG (n k v : Nat) : Fld := ⟨(0x1000000 + n * 0x400000 + 0x1108 + k * 0x80 + v * 0x10) * 64 + 0, 32, 0x0⟩
abbrev Reg.TRS_VEC_ERR.UE_REG (n k v : Nat) : Fld := ⟨(0x1000000 + n * 0x400000 + 0x1108 + k * 0x80 + v * 0x10) * 64 + 32, 16, 0x0⟩
abbrev Reg.TRS_VEC_ERR.PARITY (n k v : Nat) : Fld := ⟨(0x1000000 + n * 0x400000 + 0x1108 + k * 0x80 + v * 0x10) * 64 + 48, 16, 0x0⟩

/-! TRS_ATT_CMDS, 64 bits, R302. -/
abbrev Reg.TRS_ATT_CMDS.CMDS (n : Nat) : Fld := ⟨(0x1000000 + n * 0x400000 + 0x2000) * 64 + 0, 64, 0x0⟩

/-! TRS_ATT_RISE, 64 bits, R302. -/
abbrev Reg.TRS_ATT_RISE.RISES (n : Nat) : Fld := ⟨(0x1000000 + n * 0x400000 + 0x2008) * 64 + 0, 64, 0x0⟩

/-! TRS_ATT_SKIP, 64 bits, R302. -/
abbrev Reg.TRS_ATT_SKIP.SKIPS (n : Nat) : Fld := ⟨(0x1000000 + n * 0x400000 + 0x2010) * 64 + 0, 64, 0x0⟩

/-! CRS_KV_STAT, 32 bits, R303. -/
abbrev Reg.CRS_KV_STAT.CONF : Fld := ⟨4259840, 1, 0x0⟩
abbrev Reg.CRS_KV_STAT.ROLLBACK : Fld := ⟨4259841, 1, 0x0⟩
abbrev Reg.CRS_KV_STAT.LIVE : Fld := ⟨4259842, 13, 0x0⟩
abbrev Reg.CRS_KV_STAT.WALKERS : Fld := ⟨4259855, 13, 0x0⟩

/-! CRS_KV_VER, 64 bits, R303. -/
abbrev Reg.CRS_KV_VER.VER : Fld := ⟨4260352, 48, 0x0⟩

/-! CRS_KV_PAGES, 64 bits, R303. -/
abbrev Reg.CRS_KV_PAGES.FREE : Fld := ⟨4260864, 23, 0x0⟩
abbrev Reg.CRS_KV_PAGES.PENDING : Fld := ⟨4260896, 23, 0x0⟩

/-! CRS_KV_COPIES, 64 bits, R303. -/
abbrev Reg.CRS_KV_COPIES.COPIES : Fld := ⟨4261376, 64, 0x0⟩

/-! CRS_KV_WAITS, 64 bits, R303. -/
abbrev Reg.CRS_KV_WAITS.CYCLES : Fld := ⟨4261888, 64, 0x0⟩

/-! THC_INJECT, 32 bits, R330. -/
abbrev Reg.THC_INJECT.ARM : Fld := ⟨50331648, 1, 0x0⟩
abbrev Reg.THC_INJECT.TARGET : Fld := ⟨50331649, 1, 0x0⟩

/-! THC_ERR, 64 bits, R330. -/
abbrev Reg.THC_ERR.CAUSE : Fld := ⟨50332160, 8, 0x0⟩
abbrev Reg.THC_ERR.LRAFT : Fld := ⟨50332168, 5, 0x0⟩
abbrev Reg.THC_ERR.PORT : Fld := ⟨50332173, 1, 0x0⟩
abbrev Reg.THC_ERR.VALID : Fld := ⟨50332174, 1, 0x0⟩
abbrev Reg.THC_ERR.YELM : Fld := ⟨50332176, 32, 0x0⟩
abbrev Reg.THC_ERR.COURSE : Fld := ⟨50332208, 16, 0x0⟩

/-! THC_INTEG, 64 bits, R330. -/
abbrev Reg.THC_INTEG.COUNT : Fld := ⟨50332672, 64, 0x0⟩

/-! THC_RAW, 64 bits, R330. -/
abbrev Reg.THC_RAW.BYTES : Fld := ⟨50333184, 64, 0x0⟩

/-! THC_STORED, 64 bits, R330. -/
abbrev Reg.THC_STORED.BYTES : Fld := ⟨50333696, 64, 0x0⟩

/-! THC_YCOMP, 64 bits, R330. -/
abbrev Reg.THC_YCOMP.YELMS : Fld := ⟨50334208, 64, 0x0⟩

/-! THC_YRAW, 64 bits, R330. -/
abbrev Reg.THC_YRAW.YELMS : Fld := ⟨50334720, 64, 0x0⟩

/-! THC_YMISS, 64 bits, R330. -/
abbrev Reg.THC_YMISS.YELMS : Fld := ⟨50335232, 64, 0x0⟩

/-! THC_TPASS, 64 bits, R330. -/
abbrev Reg.THC_TPASS.PASSES : Fld := ⟨50335744, 64, 0x0⟩

/-! MEM_STAT, 32 bits, R354. -/
abbrev Reg.MEM_STAT.ACTIVE (s : Nat) : Fld := ⟨(0x2000000 + s * 0x100000 + 0x0) * 64 + 0, 6, 0x20⟩
abbrev Reg.MEM_STAT.FREE (s : Nat) : Fld := ⟨(0x2000000 + s * 0x100000 + 0x0) * 64 + 6, 2, 0x2⟩
abbrev Reg.MEM_STAT.OUT (s : Nat) : Fld := ⟨(0x2000000 + s * 0x100000 + 0x0) * 64 + 8, 5, 0x0⟩
abbrev Reg.MEM_STAT.MIG (s : Nat) : Fld := ⟨(0x2000000 + s * 0x100000 + 0x0) * 64 + 13, 3, 0x0⟩

/-! MEM_TEMP, 32 bits, R354. -/
abbrev Reg.MEM_TEMP.TEMP (s : Nat) : Fld := ⟨(0x2000000 + s * 0x100000 + 0x4) * 64 + 0, 8, 0x0⟩
abbrev Reg.MEM_TEMP.REFRESH (s : Nat) : Fld := ⟨(0x2000000 + s * 0x100000 + 0x4) * 64 + 8, 2, 0x0⟩
abbrev Reg.MEM_TEMP.THROTTLE (s : Nat) : Fld := ⟨(0x2000000 + s * 0x100000 + 0x4) * 64 + 10, 2, 0x0⟩
abbrev Reg.MEM_TEMP.TPEAK (s : Nat) : Fld := ⟨(0x2000000 + s * 0x100000 + 0x4) * 64 + 12, 8, 0x0⟩
abbrev Reg.MEM_TEMP.PEAK_CLR (s : Nat) : Fld := ⟨(0x2000000 + s * 0x100000 + 0x4) * 64 + 20, 1, 0x0⟩

/-! MEM_CTRL, 32 bits, R354. -/
abbrev Reg.MEM_CTRL.CE_LIMIT (s : Nat) : Fld := ⟨(0x2000000 + s * 0x100000 + 0x8) * 64 + 0, 16, 0x40⟩
abbrev Reg.MEM_CTRL.CRC_LIMIT (s : Nat) : Fld := ⟨(0x2000000 + s * 0x100000 + 0x8) * 64 + 16, 16, 0x100⟩

/-! MEM_SCRUB, 32 bits, R354. -/
abbrev Reg.MEM_SCRUB.EN (s : Nat) : Fld := ⟨(0x2000000 + s * 0x100000 + 0xc) * 64 + 0, 1, 0x1⟩
abbrev Reg.MEM_SCRUB.PERIOD_H (s : Nat) : Fld := ⟨(0x2000000 + s * 0x100000 + 0xc) * 64 + 1, 8, 0x18⟩

/-! MEM_LOOP, 64 bits, R354. -/
abbrev Reg.MEM_LOOP.START (s : Nat) : Fld := ⟨(0x2000000 + s * 0x100000 + 0x10) * 64 + 0, 1, 0x0⟩
abbrev Reg.MEM_LOOP.DONE (s : Nat) : Fld := ⟨(0x2000000 + s * 0x100000 + 0x10) * 64 + 1, 1, 0x0⟩
abbrev Reg.MEM_LOOP.REFUSED (s : Nat) : Fld := ⟨(0x2000000 + s * 0x100000 + 0x10) * 64 + 2, 1, 0x0⟩
abbrev Reg.MEM_LOOP.DUR_US (s : Nat) : Fld := ⟨(0x2000000 + s * 0x100000 + 0x10) * 64 + 16, 16, 0x3e8⟩
abbrev Reg.MEM_LOOP.ERRS (s : Nat) : Fld := ⟨(0x2000000 + s * 0x100000 + 0x10) * 64 + 32, 32, 0x0⟩

/-! MEM_INJECT, 32 bits, R354. -/
abbrev Reg.MEM_INJECT.ARM (s : Nat) : Fld := ⟨(0x2000000 + s * 0x100000 + 0x18) * 64 + 0, 1, 0x0⟩
abbrev Reg.MEM_INJECT.LCH (s : Nat) : Fld := ⟨(0x2000000 + s * 0x100000 + 0x18) * 64 + 1, 5, 0x0⟩
abbrev Reg.MEM_INJECT.MODE (s : Nat) : Fld := ⟨(0x2000000 + s * 0x100000 + 0x18) * 64 + 6, 1, 0x0⟩

/-! MEM_LCH_STAT, 32 bits, R355. -/
abbrev Reg.MEM_LCH_STAT.PHYS (s c : Nat) : Fld := ⟨(0x2000000 + s * 0x100000 + 0x100 + c * 0x10) * 64 + 0, 6, c⟩
abbrev Reg.MEM_LCH_STAT.STATE (s c : Nat) : Fld := ⟨(0x2000000 + s * 0x100000 + 0x100 + c * 0x10) * 64 + 6, 3, 0x0⟩
abbrev Reg.MEM_LCH_STAT.OUT_SEQ (s c : Nat) : Fld := ⟨(0x2000000 + s * 0x100000 + 0x100 + c * 0x10) * 64 + 9, 10, 0x0⟩
abbrev Reg.MEM_LCH_STAT.RETRAIN (s c : Nat) : Fld := ⟨(0x2000000 + s * 0x100000 + 0x100 + c * 0x10) * 64 + 19, 1, 0x0⟩

/-! MEM_LCH_MIG, 64 bits, R355. -/
abbrev Reg.MEM_LCH_MIG.DONE (s c : Nat) : Fld := ⟨(0x2000000 + s * 0x100000 + 0x108 + c * 0x10) * 64 + 0, 32, 0x0⟩
abbrev Reg.MEM_LCH_MIG.TOTAL (s c : Nat) : Fld := ⟨(0x2000000 + s * 0x100000 + 0x108 + c * 0x10) * 64 + 32, 32, 0x0⟩

/-! MEM_PCH_STAT, 32 bits, R356. -/
abbrev Reg.MEM_PCH_STAT.LOGICAL (s p : Nat) : Fld := ⟨(0x2000000 + s * 0x100000 + 0x400 + p * 0x20) * 64 + 0, 6, (if p ≤ 31 then p else 63)⟩
abbrev Reg.MEM_PCH_STAT.STATE (s p : Nat) : Fld := ⟨(0x2000000 + s * 0x100000 + 0x400 + p * 0x20) * 64 + 6, 3, (if p ≤ 31 then 0 else 1)⟩

/-! MEM_PCH_CE, 64 bits, R356. -/
abbrev Reg.MEM_PCH_CE.CE (s p : Nat) : Fld := ⟨(0x2000000 + s * 0x100000 + 0x408 + p * 0x20) * 64 + 0, 32, 0x0⟩
abbrev Reg.MEM_PCH_CE.CRC (s p : Nat) : Fld := ⟨(0x2000000 + s * 0x100000 + 0x408 + p * 0x20) * 64 + 32, 32, 0x0⟩

/-! MEM_PCH_UE, 64 bits, R356. -/
abbrev Reg.MEM_PCH_UE.UE_READ (s p : Nat) : Fld := ⟨(0x2000000 + s * 0x100000 + 0x410 + p * 0x20) * 64 + 0, 16, 0x0⟩
abbrev Reg.MEM_PCH_UE.UE_SCRUB (s p : Nat) : Fld := ⟨(0x2000000 + s * 0x100000 + 0x410 + p * 0x20) * 64 + 16, 16, 0x0⟩
abbrev Reg.MEM_PCH_UE.RETRAINS (s p : Nat) : Fld := ⟨(0x2000000 + s * 0x100000 + 0x410 + p * 0x20) * 64 + 32, 16, 0x0⟩
abbrev Reg.MEM_PCH_UE.RT_FAIL (s p : Nat) : Fld := ⟨(0x2000000 + s * 0x100000 + 0x410 + p * 0x20) * 64 + 48, 16, 0x0⟩

/-! CRS_PLC_POOL, 32 bits, R381. -/
abbrev Reg.CRS_PLC_POOL.USED : Fld := ⟨4276224, 32, 0x0⟩

/-! CRS_PLC_LAST, 64 bits, R381. -/
abbrev Reg.CRS_PLC_LAST.KEEP : Fld := ⟨4276736, 16, 0x0⟩
abbrev Reg.CRS_PLC_LAST.HOST : Fld := ⟨4276752, 16, 0x0⟩
abbrev Reg.CRS_PLC_LAST.PEER : Fld := ⟨4276768, 16, 0x0⟩
abbrev Reg.CRS_PLC_LAST.DISCARD : Fld := ⟨4276784, 16, 0x0⟩

/-! CRS_PLC_RATE, 64 bits, R381. -/
abbrev Reg.CRS_PLC_RATE.HOST_MBS : Fld := ⟨4277248, 32, 0x0⟩
abbrev Reg.CRS_PLC_RATE.PEER_MBS : Fld := ⟨4277280, 32, 0x0⟩

/-! CRS_PLC_LOGPOS, 64 bits, R381. -/
abbrev Reg.CRS_PLC_LOGPOS.POS : Fld := ⟨4277760, 64, 0x0⟩

/-! CRS_PLC_LATE, 64 bits, R381. -/
abbrev Reg.CRS_PLC_LATE.COUNT : Fld := ⟨4278272, 64, 0x0⟩

/-! CRS_PLC_FAILED, 64 bits, R381. -/
abbrev Reg.CRS_PLC_FAILED.COUNT : Fld := ⟨4278784, 64, 0x0⟩

/-! CRS_PLC_ALT, 64 bits, R381. -/
abbrev Reg.CRS_PLC_ALT.COUNT : Fld := ⟨4279296, 64, 0x0⟩

/-! CRS_PLC_SPILL, 64 bits, R381. -/
abbrev Reg.CRS_PLC_SPILL.BYTES : Fld := ⟨4279808, 64, 0x0⟩

/-! MED_CTRL, 32 bits, R426. -/
abbrev Reg.MED_CTRL.CE_LIMIT : Fld := ⟨33554432, 16, 0x100⟩

/-! MED_STAT, 32 bits, R426. -/
abbrev Reg.MED_STAT.DEC_ACTIVE : Fld := ⟨33554688, 5, 0x18⟩
abbrev Reg.MED_STAT.ENC_ACTIVE : Fld := ⟨33554693, 3, 0x4⟩
abbrev Reg.MED_STAT.BUSY : Fld := ⟨33554696, 1, 0x0⟩

/-! MED_LIMIT, 32 bits, R426. -/
abbrev Reg.MED_LIMIT.HBM_GBS : Fld := ⟨33554944, 16, 0xf0⟩

/-! MED_WORK, 64 bits, R426. -/
abbrev Reg.MED_WORK.BASE : Fld := ⟨33555468, 36, 0x0⟩

/-! MED_WORK_LEN, 64 bits, R426. -/
abbrev Reg.MED_WORK_LEN.PAGES : Fld := ⟨33555968, 36, 0x0⟩

/-! MED_SUBLOG, 64 bits, R426. -/
abbrev Reg.MED_SUBLOG.BASE : Fld := ⟨33556492, 36, 0x0⟩
abbrev Reg.MED_SUBLOG.SLOTS : Fld := ⟨33556528, 16, 0x0⟩

/-! MED_SUBPOS, 64 bits, R426. -/
abbrev Reg.MED_SUBPOS.POS : Fld := ⟨33556992, 64, 0x0⟩

/-! MED_SEQ, 64 bits, R426. -/
abbrev Reg.MED_SEQ.COMMITTED : Fld := ⟨33557504, 17, 0x0⟩
abbrev Reg.MED_SEQ.RING : Fld := ⟨33557536, 10, 0x0⟩
abbrev Reg.MED_SEQ.SEQ : Fld := ⟨33557552, 16, 0x0⟩

/-! MED_ERR, 64 bits, R426. -/
abbrev Reg.MED_ERR.CODE : Fld := ⟨33558016, 8, 0x0⟩
abbrev Reg.MED_ERR.ISCAUSE : Fld := ⟨33558024, 1, 0x0⟩
abbrev Reg.MED_ERR.VALID : Fld := ⟨33558025, 1, 0x0⟩
abbrev Reg.MED_ERR.STREAM : Fld := ⟨33558026, 4, 0x0⟩
abbrev Reg.MED_ERR.SAMPLE : Fld := ⟨33558032, 16, 0x0⟩
abbrev Reg.MED_ERR.SEQ : Fld := ⟨33558048, 16, 0x0⟩
abbrev Reg.MED_ERR.RING : Fld := ⟨33558064, 10, 0x0⟩

/-! MED_FRAMES, 64 bits, R426. -/
abbrev Reg.MED_FRAMES.COUNT : Fld := ⟨33558528, 64, 0x0⟩

/-! MED_CONCEAL, 64 bits, R426. -/
abbrev Reg.MED_CONCEAL.COUNT : Fld := ⟨33559040, 64, 0x0⟩

/-! MED_REFSUB, 64 bits, R426. -/
abbrev Reg.MED_REFSUB.COUNT : Fld := ⟨33559552, 64, 0x0⟩

/-! MED_REJECT, 64 bits, R426. -/
abbrev Reg.MED_REJECT.COUNT : Fld := ⟨33560064, 64, 0x0⟩

/-! MED_SUBST, 64 bits, R426. -/
abbrev Reg.MED_SUBST.COUNT : Fld := ⟨33560576, 64, 0x0⟩

/-! MED_CAPPED, 64 bits, R426. -/
abbrev Reg.MED_CAPPED.COUNT : Fld := ⟨33561088, 64, 0x0⟩

/-! MED_MASKED, 64 bits, R426. -/
abbrev Reg.MED_MASKED.COUNT : Fld := ⟨33561600, 64, 0x0⟩

/-! MED_RESTART, 64 bits, R426. -/
abbrev Reg.MED_RESTART.COUNT : Fld := ⟨33562112, 64, 0x0⟩

/-! MED_PIPE_STAT, 32 bits, R427. -/
abbrev Reg.MED_PIPE_STAT.LOGICAL (k : Nat) : Fld := ⟨(0x80100 + k * 0x10) * 64 + 0, 5, (if k ≤ 23 then k else 31)⟩
abbrev Reg.MED_PIPE_STAT.STATE (k : Nat) : Fld := ⟨(0x80100 + k * 0x10) * 64 + 5, 2, (if k ≤ 23 then 0 else 1)⟩
abbrev Reg.MED_PIPE_STAT.CAUSE (k : Nat) : Fld := ⟨(0x80100 + k * 0x10) * 64 + 7, 2, 0x0⟩

/-! MED_PIPE_ERR, 64 bits, R427. -/
abbrev Reg.MED_PIPE_ERR.CE (k : Nat) : Fld := ⟨(0x80108 + k * 0x10) * 64 + 0, 32, 0x0⟩
abbrev Reg.MED_PIPE_ERR.UE (k : Nat) : Fld := ⟨(0x80108 + k * 0x10) * 64 + 32, 16, 0x0⟩
abbrev Reg.MED_PIPE_ERR.PARITY (k : Nat) : Fld := ⟨(0x80108 + k * 0x10) * 64 + 48, 16, 0x0⟩

/-! MED_ENC_STAT, 32 bits, R427. -/
abbrev Reg.MED_ENC_STAT.STATE (e : Nat) : Fld := ⟨(0x80300 + e * 0x10) * 64 + 0, 2, 0x0⟩

/-! MED_ENC_ERR, 64 bits, R427. -/
abbrev Reg.MED_ENC_ERR.CE (e : Nat) : Fld := ⟨(0x80308 + e * 0x10) * 64 + 0, 32, 0x0⟩
abbrev Reg.MED_ENC_ERR.UE (e : Nat) : Fld := ⟨(0x80308 + e * 0x10) * 64 + 32, 16, 0x0⟩
abbrev Reg.MED_ENC_ERR.PARITY (e : Nat) : Fld := ⟨(0x80308 + e * 0x10) * 64 + 48, 16, 0x0⟩

/-! LNK_CTRL, 32 bits, R464. -/
abbrev Reg.LNK_CTRL.EN (p : Nat) : Fld := ⟨(0x3800000 + p * 0x10000 + 0x0) * 64 + 0, 1, 0x0⟩
abbrev Reg.LNK_CTRL.BEAT_OUT (p : Nat) : Fld := ⟨(0x3800000 + p * 0x10000 + 0x0) * 64 + 1, 1, 0x0⟩
abbrev Reg.LNK_CTRL.UCW_LIMIT (p : Nat) : Fld := ⟨(0x3800000 + p * 0x10000 + 0x0) * 64 + 8, 8, 0x4⟩
abbrev Reg.LNK_CTRL.CSYM_LIMIT (p : Nat) : Fld := ⟨(0x3800000 + p * 0x10000 + 0x0) * 64 + 16, 16, 0x1000⟩

/-! LNK_STAT, 32 bits, R464. -/
abbrev Reg.LNK_STAT.UP (p : Nat) : Fld := ⟨(0x3800000 + p * 0x10000 + 0x4) * 64 + 0, 1, 0x0⟩
abbrev Reg.LNK_STAT.TRAINING (p : Nat) : Fld := ⟨(0x3800000 + p * 0x10000 + 0x4) * 64 + 1, 1, 0x0⟩
abbrev Reg.LNK_STAT.TRAIN_STEP (p : Nat) : Fld := ⟨(0x3800000 + p * 0x10000 + 0x4) * 64 + 2, 3, 0x0⟩
abbrev Reg.LNK_STAT.TRAIN_ERR (p : Nat) : Fld := ⟨(0x3800000 + p * 0x10000 + 0x4) * 64 + 5, 1, 0x0⟩
abbrev Reg.LNK_STAT.LANES (p : Nat) : Fld := ⟨(0x3800000 + p * 0x10000 + 0x4) * 64 + 6, 5, 0x0⟩
abbrev Reg.LNK_STAT.FREE (p : Nat) : Fld := ⟨(0x3800000 + p * 0x10000 + 0x4) * 64 + 11, 2, 0x2⟩
abbrev Reg.LNK_STAT.DEGRADED (p : Nat) : Fld := ⟨(0x3800000 + p * 0x10000 + 0x4) * 64 + 13, 1, 0x0⟩
abbrev Reg.LNK_STAT.REPAIR_PEND (p : Nat) : Fld := ⟨(0x3800000 + p * 0x10000 + 0x4) * 64 + 14, 1, 0x0⟩

/-! LNK_ID, 64 bits, R464. -/
abbrev Reg.LNK_ID.LOCAL_ID (p : Nat) : Fld := ⟨(0x3800000 + p * 0x10000 + 0x8) * 64 + 0, 64, 0x0⟩

/-! LNK_PARTNER, 64 bits, R464. -/
abbrev Reg.LNK_PARTNER.PARTNER_ID (p : Nat) : Fld := ⟨(0x3800000 + p * 0x10000 + 0x10) * 64 + 0, 64, 0x0⟩

/-! LNK_PARTNER2, 32 bits, R464. -/
abbrev Reg.LNK_PARTNER2.PORT (p : Nat) : Fld := ⟨(0x3800000 + p * 0x10000 + 0x18) * 64 + 0, 5, 0x0⟩
abbrev Reg.LNK_PARTNER2.PWRDOM (p : Nat) : Fld := ⟨(0x3800000 + p * 0x10000 + 0x18) * 64 + 5, 4, 0x0⟩

/-! LNK_LAT, 32 bits, R464. -/
abbrev Reg.LNK_LAT.ONEWAY_NS (p : Nat) : Fld := ⟨(0x3800000 + p * 0x10000 + 0x1c) * 64 + 0, 16, 0x0⟩

/-! LNK_LANEMAP0, 64 bits, R464. -/
abbrev Reg.LNK_LANEMAP0.PHYS0 (p : Nat) : Fld := ⟨(0x3800000 + p * 0x10000 + 0x20) * 64 + 0, 5, 0⟩
abbrev Reg.LNK_LANEMAP0.PHYS1 (p : Nat) : Fld := ⟨(0x3800000 + p * 0x10000 + 0x20) * 64 + 8, 5, 1⟩
abbrev Reg.LNK_LANEMAP0.PHYS2 (p : Nat) : Fld := ⟨(0x3800000 + p * 0x10000 + 0x20) * 64 + 16, 5, 2⟩
abbrev Reg.LNK_LANEMAP0.PHYS3 (p : Nat) : Fld := ⟨(0x3800000 + p * 0x10000 + 0x20) * 64 + 24, 5, 3⟩
abbrev Reg.LNK_LANEMAP0.PHYS4 (p : Nat) : Fld := ⟨(0x3800000 + p * 0x10000 + 0x20) * 64 + 32, 5, 4⟩
abbrev Reg.LNK_LANEMAP0.PHYS5 (p : Nat) : Fld := ⟨(0x3800000 + p * 0x10000 + 0x20) * 64 + 40, 5, 5⟩
abbrev Reg.LNK_LANEMAP0.PHYS6 (p : Nat) : Fld := ⟨(0x3800000 + p * 0x10000 + 0x20) * 64 + 48, 5, 6⟩
abbrev Reg.LNK_LANEMAP0.PHYS7 (p : Nat) : Fld := ⟨(0x3800000 + p * 0x10000 + 0x20) * 64 + 56, 5, 7⟩

/-! LNK_LANEMAP1, 64 bits, R464. -/
abbrev Reg.LNK_LANEMAP1.PHYS8 (p : Nat) : Fld := ⟨(0x3800000 + p * 0x10000 + 0x28) * 64 + 0, 5, 8⟩
abbrev Reg.LNK_LANEMAP1.PHYS9 (p : Nat) : Fld := ⟨(0x3800000 + p * 0x10000 + 0x28) * 64 + 8, 5, 9⟩
abbrev Reg.LNK_LANEMAP1.PHYS10 (p : Nat) : Fld := ⟨(0x3800000 + p * 0x10000 + 0x28) * 64 + 16, 5, 10⟩
abbrev Reg.LNK_LANEMAP1.PHYS11 (p : Nat) : Fld := ⟨(0x3800000 + p * 0x10000 + 0x28) * 64 + 24, 5, 11⟩
abbrev Reg.LNK_LANEMAP1.PHYS12 (p : Nat) : Fld := ⟨(0x3800000 + p * 0x10000 + 0x28) * 64 + 32, 5, 12⟩
abbrev Reg.LNK_LANEMAP1.PHYS13 (p : Nat) : Fld := ⟨(0x3800000 + p * 0x10000 + 0x28) * 64 + 40, 5, 13⟩
abbrev Reg.LNK_LANEMAP1.PHYS14 (p : Nat) : Fld := ⟨(0x3800000 + p * 0x10000 + 0x28) * 64 + 48, 5, 14⟩
abbrev Reg.LNK_LANEMAP1.PHYS15 (p : Nat) : Fld := ⟨(0x3800000 + p * 0x10000 + 0x28) * 64 + 56, 5, 15⟩

/-! LNK_RETRY, 64 bits, R464. -/
abbrev Reg.LNK_RETRY.REPLAYS (p : Nat) : Fld := ⟨(0x3800000 + p * 0x10000 + 0x30) * 64 + 0, 64, 0x0⟩

/-! LNK_IDLEDROP, 64 bits, R464. -/
abbrev Reg.LNK_IDLEDROP.COUNT (p : Nat) : Fld := ⟨(0x3800000 + p * 0x10000 + 0x38) * 64 + 0, 64, 0x0⟩

/-! LNK_DOWN, 32 bits, R464. -/
abbrev Reg.LNK_DOWN.DOWNS (p : Nat) : Fld := ⟨(0x3800000 + p * 0x10000 + 0x40) * 64 + 0, 16, 0x0⟩
abbrev Reg.LNK_DOWN.CAUSE (p : Nat) : Fld := ⟨(0x3800000 + p * 0x10000 + 0x40) * 64 + 16, 2, 0x0⟩

/-! LNK_LANE_ERR, 64 bits, R465. -/
abbrev Reg.LNK_LANE_ERR.CSYM (p l : Nat) : Fld := ⟨(0x3800000 + p * 0x10000 + 0x100 + l * 0x10) * 64 + 0, 32, 0x0⟩
abbrev Reg.LNK_LANE_ERR.UCW (p l : Nat) : Fld := ⟨(0x3800000 + p * 0x10000 + 0x100 + l * 0x10) * 64 + 32, 16, 0x0⟩
abbrev Reg.LNK_LANE_ERR.LOS (p l : Nat) : Fld := ⟨(0x3800000 + p * 0x10000 + 0x100 + l * 0x10) * 64 + 48, 16, 0x0⟩

/-! LNK_LANE_STAT, 32 bits, R465. -/
abbrev Reg.LNK_LANE_STAT.LOGICAL (p l : Nat) : Fld := ⟨(0x3800000 + p * 0x10000 + 0x108 + l * 0x10) * 64 + 0, 5, (if l ≤ 15 then l else 31)⟩
abbrev Reg.LNK_LANE_STAT.STATE (p l : Nat) : Fld := ⟨(0x3800000 + p * 0x10000 + 0x108 + l * 0x10) * 64 + 5, 2, (if l ≤ 15 then 0 else 1)⟩

/-! CRS_LNK_TT, 64 bits, R466. -/
abbrev Reg.CRS_LNK_TT.TT_ID : Fld := ⟨4292608, 32, 0x0⟩
abbrev Reg.CRS_LNK_TT.POS : Fld := ⟨4292640, 12, 0x0⟩

/-! CRS_LNK_EXPOSE, 64 bits, R466. -/
abbrev Reg.CRS_LNK_EXPOSE.BASE : Fld := ⟨4293132, 36, 0x0⟩

/-! CRS_LNK_EXPLEN, 64 bits, R466. -/
abbrev Reg.CRS_LNK_EXPLEN.PAGES : Fld := ⟨4293632, 36, 0x0⟩

/-! CRS_LNK_NOTICE, 64 bits, R466. -/
abbrev Reg.CRS_LNK_NOTICE.POS : Fld := ⟨4294144, 12, 0x0⟩
abbrev Reg.CRS_LNK_NOTICE.VALID : Fld := ⟨4294156, 1, 0x0⟩
abbrev Reg.CRS_LNK_NOTICE.COURSE : Fld := ⟨4294176, 32, 0x0⟩

/-! CRS_LNK_ERR, 64 bits, R466. -/
abbrev Reg.CRS_LNK_ERR.STATUS : Fld := ⟨4294656, 8, 0x0⟩
abbrev Reg.CRS_LNK_ERR.PORT : Fld := ⟨4294664, 5, 0x0⟩
abbrev Reg.CRS_LNK_ERR.VALID : Fld := ⟨4294669, 1, 0x0⟩
abbrev Reg.CRS_LNK_ERR.XID : Fld := ⟨4294688, 16, 0x0⟩
abbrev Reg.CRS_LNK_ERR.COURSE : Fld := ⟨4294704, 16, 0x0⟩

/-! CRS_LNK_DROPS, 64 bits, R466. -/
abbrev Reg.CRS_LNK_DROPS.COUNT : Fld := ⟨4295168, 64, 0x0⟩

/-! SVL_CTRL, 32 bits, R498. -/
abbrev Reg.SVL_CTRL.EN : Fld := ⟨58720256, 1, 0x0⟩
abbrev Reg.SVL_CTRL.EVERY : Fld := ⟨58720264, 8, 0x1⟩
abbrev Reg.SVL_CTRL.FLASH_EVERY : Fld := ⟨58720272, 8, 0x10⟩

/-! SVL_RATE, 32 bits, R498. -/
abbrev Reg.SVL_RATE.STAGE_GBS : Fld := ⟨58720512, 16, 0x190⟩

/-! SVL_SAVE, 64 bits, R498. -/
abbrev Reg.SVL_SAVE.BASE : Fld := ⟨58720780, 36, 0x0⟩

/-! SVL_SAVE_LEN, 64 bits, R498. -/
abbrev Reg.SVL_SAVE_LEN.PAGES : Fld := ⟨58721280, 36, 0x0⟩

/-! SVL_PART, 64 bits, R498. -/
abbrev Reg.SVL_PART.BASE : Fld := ⟨58721804, 36, 0x0⟩

/-! SVL_PART_LEN, 64 bits, R498. -/
abbrev Reg.SVL_PART_LEN.PAGES : Fld := ⟨58722304, 36, 0x0⟩

/-! SVL_LOSS, 64 bits, R498. -/
abbrev Reg.SVL_LOSS.LEN : Fld := ⟨58722816, 6, 0x0⟩
abbrev Reg.SVL_LOSS.BASE : Fld := ⟨58722822, 42, 0x0⟩

/-! SVL_PAIR, 32 bits, R498. -/
abbrev Reg.SVL_PAIR.PARTNER : Fld := ⟨58723328, 12, 0x0⟩
abbrev Reg.SVL_PAIR.PEN : Fld := ⟨58723340, 1, 0x0⟩
abbrev Reg.SVL_PAIR.FORCE : Fld := ⟨58723341, 1, 0x0⟩

/-! SVL_HOT, 32 bits, R498. -/
abbrev Reg.SVL_HOT.PROTECTS : Fld := ⟨58723584, 12, 0x0⟩
abbrev Reg.SVL_HOT.HEN : Fld := ⟨58723596, 1, 0x0⟩
abbrev Reg.SVL_HOT.FORCE : Fld := ⟨58723597, 1, 0x0⟩
abbrev Reg.SVL_HOT.HOTPOS : Fld := ⟨58723600, 12, 0x0⟩
abbrev Reg.SVL_HOT.HOTEN : Fld := ⟨58723612, 1, 0x0⟩

/-! SVL_PSTAT, 32 bits, R498. -/
abbrev Reg.SVL_PSTAT.OWN_DOM : Fld := ⟨58723840, 4, 0xF⟩
abbrev Reg.SVL_PSTAT.PART_DOM : Fld := ⟨58723844, 4, 0x0⟩
abbrev Reg.SVL_PSTAT.PAIRED : Fld := ⟨58723848, 1, 0x0⟩
abbrev Reg.SVL_PSTAT.SHARED : Fld := ⟨58723849, 1, 0x0⟩
abbrev Reg.SVL_PSTAT.REFUSED : Fld := ⟨58723850, 1, 0x0⟩

/-! SVL_STAT, 64 bits, R498. -/
abbrev Reg.SVL_STAT.VERIFY : Fld := ⟨58724352, 1, 0x0⟩
abbrev Reg.SVL_STAT.VERIFY_FAIL : Fld := ⟨58724353, 1, 0x0⟩
abbrev Reg.SVL_STAT.RESTORING : Fld := ⟨58724354, 1, 0x0⟩
abbrev Reg.SVL_STAT.SIZE_ERR : Fld := ⟨58724355, 1, 0x0⟩
abbrev Reg.SVL_STAT.VCOURSE : Fld := ⟨58724368, 48, 0x0⟩

/-! SVL_PUSH, 64 bits, R498. -/
abbrev Reg.SVL_PUSH.COURSE : Fld := ⟨58724864, 48, 0x0⟩

/-! SVL_ACK, 64 bits, R498. -/
abbrev Reg.SVL_ACK.ACKED : Fld := ⟨58725376, 48, 0x0⟩

/-! SVL_FLASH, 64 bits, R498. -/
abbrev Reg.SVL_FLASH.NEWEST : Fld := ⟨58725888, 48, 0x0⟩
abbrev Reg.SVL_FLASH.IMAGES : Fld := ⟨58725936, 16, 0x0⟩

/-! SVL_POINTS, 64 bits, R498. -/
abbrev Reg.SVL_POINTS.COUNT : Fld := ⟨58736640, 64, 0x0⟩

/-! SVL_SKIPS, 64 bits, R498. -/
abbrev Reg.SVL_SKIPS.COUNT : Fld := ⟨58737152, 64, 0x0⟩

/-! SVL_ABANDON, 64 bits, R498. -/
abbrev Reg.SVL_ABANDON.COUNT : Fld := ⟨58737664, 64, 0x0⟩

/-! SVL_SARK_TX, 64 bits, R498. -/
abbrev Reg.SVL_SARK_TX.BYTES : Fld := ⟨58738176, 64, 0x0⟩

/-! SVL_SARK_RX, 64 bits, R498. -/
abbrev Reg.SVL_SARK_RX.BYTES : Fld := ⟨58738688, 64, 0x0⟩

/-! SVL_REJECT, 64 bits, R498. -/
abbrev Reg.SVL_REJECT.COUNT : Fld := ⟨58739200, 64, 0x0⟩

/-! SVL_DISCARD, 64 bits, R498. -/
abbrev Reg.SVL_DISCARD.COUNT : Fld := ⟨58739712, 64, 0x0⟩

/-! SVL_SLOT, 64 bits, R499. -/
abbrev Reg.SVL_SLOT.STATE (a n : Nat) : Fld := ⟨(0xe0080 + a * 0x20 + n * 0x10) * 64 + 0, 3, 0x0⟩
abbrev Reg.SVL_SLOT.HOLD (a n : Nat) : Fld := ⟨(0xe0080 + a * 0x20 + n * 0x10) * 64 + 3, 4, 0x0⟩
abbrev Reg.SVL_SLOT.COURSE (a n : Nat) : Fld := ⟨(0xe0080 + a * 0x20 + n * 0x10) * 64 + 16, 48, 0x0⟩

/-! FLT_STATUS, 64 bits, R521. -/
abbrev Reg.FLT_STATUS.STATUS : Fld := ⟨16777216, 48, 0x0⟩

/-! FLT_LINES, 64 bits, R521. -/
abbrev Reg.FLT_LINES.LINES : Fld := ⟨16777728, 48, 0x0⟩

/-! FLT_IRQ_EN, 64 bits, R521. -/
abbrev Reg.FLT_IRQ_EN.EN : Fld := ⟨16778240, 48, 0xffffffffffff⟩

/-! FLT_FATAL, 64 bits, R521. -/
abbrev Reg.FLT_FATAL.FATAL : Fld := ⟨16778752, 48, 0x90c000000000⟩

/-! FLT_MERGE, 32 bits, R521. -/
abbrev Reg.FLT_MERGE.WIN_US : Fld := ⟨16779264, 10, 0x64⟩

/-! FLT_MERGED, 64 bits, R521. -/
abbrev Reg.FLT_MERGED.COUNT : Fld := ⟨16779776, 64, 0x0⟩

/-! FLT_MERGED_SRC, 64 bits, R521. -/
abbrev Reg.FLT_MERGED_SRC.SRC : Fld := ⟨16780288, 48, 0x0⟩

/-! FLT_ALIVE, 32 bits, R521. -/
abbrev Reg.FLT_ALIVE.RUN : Fld := ⟨16780800, 1, 0x0⟩
abbrev Reg.FLT_ALIVE.LEVEL : Fld := ⟨16780801, 1, 0x0⟩

/-! FLT_INJECT, 64 bits, R521. -/
abbrev Reg.FLT_INJECT.ARM : Fld := ⟨16781312, 1, 0x0⟩
abbrev Reg.FLT_INJECT.DISARM : Fld := ⟨16781313, 1, 0x0⟩
abbrev Reg.FLT_INJECT.REFUSED : Fld := ⟨16781314, 1, 0x0⟩
abbrev Reg.FLT_INJECT.MODE : Fld := ⟨16781315, 1, 0x0⟩
abbrev Reg.FLT_INJECT.CHECKER : Fld := ⟨16781316, 5, 0x0⟩
abbrev Reg.FLT_INJECT.UNIT : Fld := ⟨16781321, 9, 0x0⟩

/-! FLT_INJ_COUNT, 64 bits, R521. -/
abbrev Reg.FLT_INJ_COUNT.COUNT : Fld := ⟨16781824, 64, 0x0⟩

/-! GUT_STALE, 32 bits, R522. -/
abbrev Reg.GUT_STALE.STALE_NS : Fld := ⟨16793600, 16, 0x3e8⟩

/-! GUT_SUM_PAR, 64 bits, R522. -/
abbrev Reg.GUT_SUM_PAR.COUNT : Fld := ⟨16794112, 64, 0x0⟩

/-! GUT_SUM_RST, 64 bits, R522. -/
abbrev Reg.GUT_SUM_RST.COUNT : Fld := ⟨16794624, 64, 0x0⟩

/-! GUT_SUM_UNDER, 64 bits, R522. -/
abbrev Reg.GUT_SUM_UNDER.COUNT : Fld := ⟨16795136, 64, 0x0⟩

/-! GUT_STAT, 64 bits, R523. -/
abbrev Reg.GUT_STAT.OCC (i : Nat) : Fld := ⟨(0x41000 + i * 0x20) * 64 + 0, 16, 0x0⟩
abbrev Reg.GUT_STAT.DEPTH (i : Nat) : Fld := ⟨(0x41000 + i * 0x20) * 64 + 16, 16, Gut.depth i⟩
abbrev Reg.GUT_STAT.CLASS (i : Nat) : Fld := ⟨(0x41000 + i * 0x20) * 64 + 32, 1, Gut.cls i⟩
abbrev Reg.GUT_STAT.UNDERRUN (i : Nat) : Fld := ⟨(0x41000 + i * 0x20) * 64 + 33, 1, 0x0⟩
abbrev Reg.GUT_STAT.FILL (i : Nat) : Fld := ⟨(0x41000 + i * 0x20) * 64 + 34, 1, 0x0⟩
abbrev Reg.GUT_STAT.READY (i : Nat) : Fld := ⟨(0x41000 + i * 0x20) * 64 + 35, 1, 0x0⟩

/-! GUT_CNT, 64 bits, R523. -/
abbrev Reg.GUT_CNT.PARITY (i : Nat) : Fld := ⟨(0x41008 + i * 0x20) * 64 + 0, 32, 0x0⟩
abbrev Reg.GUT_CNT.RESETS (i : Nat) : Fld := ⟨(0x41008 + i * 0x20) * 64 + 32, 16, 0x0⟩
abbrev Reg.GUT_CNT.UNDERRUNS (i : Nat) : Fld := ⟨(0x41008 + i * 0x20) * 64 + 48, 16, 0x0⟩

/-! GUT_STALECNT, 64 bits, R523. -/
abbrev Reg.GUT_STALECNT.STALE (i : Nat) : Fld := ⟨(0x41010 + i * 0x20) * 64 + 0, 64, 0x0⟩

/-! PPT_STAT, 32 bits, R546. -/
abbrev Reg.PPT_STAT.SELF_OK : Fld := ⟨20971520, 1, 0x1⟩
abbrev Reg.PPT_STAT.AT_TARGET : Fld := ⟨20971521, 1, 0x0⟩
abbrev Reg.PPT_STAT.HOLDING : Fld := ⟨20971522, 1, 0x0⟩
abbrev Reg.PPT_STAT.DERATED : Fld := ⟨20971523, 1, 0x0⟩
abbrev Reg.PPT_STAT.TWARN : Fld := ⟨20971524, 1, 0x0⟩
abbrev Reg.PPT_STAT.OVERDRAW : Fld := ⟨20971525, 1, 0x0⟩
abbrev Reg.PPT_STAT.FLASH_SHORT : Fld := ⟨20971526, 1, 0x0⟩

/-! PPT_LIMIT, 32 bits, R546. -/
abbrev Reg.PPT_LIMIT.LIMIT_W : Fld := ⟨20971776, 13, 0x12c0⟩
abbrev Reg.PPT_LIMIT.DERATE_W : Fld := ⟨20971792, 13, 0xbb8⟩

/-! PPT_RAMP, 32 bits, R546. -/
abbrev Reg.PPT_RAMP.SLOPE : Fld := ⟨20972032, 8, 0x14⟩
abbrev Reg.PPT_RAMP.BAND_W : Fld := ⟨20972040, 12, 0x190⟩

/-! PPT_TARGET, 32 bits, R546. -/
abbrev Reg.PPT_TARGET.TARGET_W : Fld := ⟨20972288, 13, 0x0⟩
abbrev Reg.PPT_TARGET.HOLD_MS : Fld := ⟨20972304, 16, 0x2710⟩

/-! PPT_DRAW, 64 bits, R546. -/
abbrev Reg.PPT_DRAW.MEAS_W : Fld := ⟨20972544, 13, 0x0⟩
abbrev Reg.PPT_DRAW.FLOOR_W : Fld := ⟨20972560, 13, 0x0⟩
abbrev Reg.PPT_DRAW.CEIL_W : Fld := ⟨20972576, 13, 0x0⟩
abbrev Reg.PPT_DRAW.INFORCE_W : Fld := ⟨20972592, 13, 0x0⟩

/-! PPT_IDLE, 32 bits, R546. -/
abbrev Reg.PPT_IDLE.IDLE_W : Fld := ⟨20973056, 13, 0x0⟩

/-! PPT_FLASH, 64 bits, R546. -/
abbrev Reg.PPT_FLASH.ENERGY_J : Fld := ⟨20973568, 64, 0x0⟩

/-! PPT_OVER, 64 bits, R546. -/
abbrev Reg.PPT_OVER.COUNT : Fld := ⟨20974080, 64, 0x0⟩

/-! PPT_COOL, 64 bits, R546. -/
abbrev Reg.PPT_COOL.TIN : Fld := ⟨20974592, 12, 0x0⟩
abbrev Reg.PPT_COOL.TOUT : Fld := ⟨20974608, 12, 0x0⟩
abbrev Reg.PPT_COOL.FLOW : Fld := ⟨20974624, 16, 0x0⟩
abbrev Reg.PPT_COOL.DUTY : Fld := ⟨20974640, 7, 0x64⟩
abbrev Reg.PPT_COOL.CAUSE : Fld := ⟨20974647, 3, 0x0⟩

/-! PPT_VALVE, 64 bits, R546. -/
abbrev Reg.PPT_VALVE.LEAD_MS : Fld := ⟨20975104, 16, 0x7d0⟩
abbrev Reg.PPT_VALVE.DT_SET : Fld := ⟨20975120, 8, 0xb⟩
abbrev Reg.PPT_VALVE.CP : Fld := ⟨20975128, 16, 0x1054⟩
abbrev Reg.PPT_VALVE.FLOW_FULL : Fld := ⟨20975144, 12, 0x4b0⟩

/-! PPT_FLOWK, 32 bits, R546. -/
abbrev Reg.PPT_FLOWK.FLOW_K : Fld := ⟨20975616, 16, 0x1f4⟩

/-! PPT_THERM, 64 bits, R546. -/
abbrev Reg.PPT_THERM.TRUSS : Fld := ⟨20976128, 8, 0x0⟩
abbrev Reg.PPT_THERM.HUB : Fld := ⟨20976136, 8, 0x0⟩
abbrev Reg.PPT_THERM.DRAM : Fld := ⟨20976144, 8, 0x0⟩
abbrev Reg.PPT_THERM.PSTAGE : Fld := ⟨20976152, 8, 0x0⟩
abbrev Reg.PPT_THERM.JT_WARN : Fld := ⟨20976160, 8, 0x64⟩

/-! PPT_CAL, 64 bits, R546. -/
abbrev Reg.PPT_CAL.TIME : Fld := ⟨20976640, 64, 0⟩

/-! PPT_CAL_STAT, 32 bits, R546. -/
abbrev Reg.PPT_CAL_STAT.VBAT_MV : Fld := ⟨20977152, 12, 0x0⟩
abbrev Reg.PPT_CAL_STAT.VLOW : Fld := ⟨20977164, 1, 0x0⟩
abbrev Reg.PPT_CAL_STAT.INVALID : Fld := ⟨20977165, 1, 0⟩
abbrev Reg.PPT_CAL_STAT.SRC : Fld := ⟨20977166, 2, 0x0⟩

/-! PPT_CMD, 64 bits, R546. -/
abbrev Reg.PPT_CMD.SEQ : Fld := ⟨20977664, 48, 0⟩
abbrev Reg.PPT_CMD.RESULT : Fld := ⟨20977712, 8, 0x0⟩
abbrev Reg.PPT_CMD.OPCODE : Fld := ⟨20977720, 8, 0x0⟩

/-! SEC_BOOT_STAT, 64 bits, R566. -/
abbrev Reg.SEC_BOOT_STAT.STAGE : Fld := ⟨25165824, 4, 0x1⟩
abbrev Reg.SEC_BOOT_STAT.READY : Fld := ⟨25165828, 1, 0x0⟩
abbrev Reg.SEC_BOOT_STAT.SRC : Fld := ⟨25165829, 2, 0x0⟩
abbrev Reg.SEC_BOOT_STAT.WAITING : Fld := ⟨25165831, 1, 0x0⟩
abbrev Reg.SEC_BOOT_STAT.ERR : Fld := ⟨25165832, 8, 0x0⟩
abbrev Reg.SEC_BOOT_STAT.ERR_VALID : Fld := ⟨25165840, 1, 0x0⟩
abbrev Reg.SEC_BOOT_STAT.SVN : Fld := ⟨25165856, 32, 0x0⟩

/-! SEC_BOOT_ADDR, 64 bits, R566. -/
abbrev Reg.SEC_BOOT_ADDR.ADDR : Fld := ⟨25166348, 40, 0x0⟩

/-! SEC_BOOT_LEN, 32 bits, R566. -/
abbrev Reg.SEC_BOOT_LEN.PAGES : Fld := ⟨25166848, 16, 0x0⟩

/-! SEC_BOOT_CTRL, 32 bits, R566. -/
abbrev Reg.SEC_BOOT_CTRL.OFFER : Fld := ⟨25167104, 1, 0x0⟩

/-! SEC_ID, 64 bits, R566. -/
abbrev Reg.SEC_ID.IDHASH : Fld := ⟨25167360, 64, 0x0⟩

/-! SEC_MAN, 64 bits, R566. -/
abbrev Reg.SEC_MAN.MVER : Fld := ⟨25167872, 32, 0x0⟩
abbrev Reg.SEC_MAN.MIN_SVN : Fld := ⟨25167904, 32, 0x0⟩

/-! SEC_KS, 64 bits, R566. -/
abbrev Reg.SEC_KS.ENTRIES : Fld := ⟨25168384, 5, 0x0⟩
abbrev Reg.SEC_KS.KSEQ : Fld := ⟨25168400, 48, 0x0⟩

/-! SEC_PTP, 64 bits, R566. -/
abbrev Reg.SEC_PTP.DOMAIN : Fld := ⟨25168896, 8, 0x0⟩
abbrev Reg.SEC_PTP.LOCKED : Fld := ⟨25168904, 1, 0x0⟩
abbrev Reg.SEC_PTP.STEP_PEND : Fld := ⟨25168905, 1, 0x0⟩
abbrev Reg.SEC_PTP.OFFSET_NS : Fld := ⟨25168928, 32, 0x0⟩

/-! SEC_WDOG, 32 bits, R566. -/
abbrev Reg.SEC_WDOG.EXPIRIES : Fld := ⟨25169408, 16, 0x0⟩

/-! FLS_STAT, 32 bits, R567. -/
abbrev Reg.FLS_STAT.READY : Fld := ⟨41943040, 1, 0x0⟩
abbrev Reg.FLS_STAT.HELPER : Fld := ⟨41943041, 1, 0x0⟩
abbrev Reg.FLS_STAT.MAN_VALID : Fld := ⟨41943042, 1, 0x0⟩

/-! FLS_CACHE0, 64 bits, R567. -/
abbrev Reg.FLS_CACHE0.SVN : Fld := ⟨41944064, 32, 0x0⟩
abbrev Reg.FLS_CACHE0.VALID : Fld := ⟨41944096, 1, 0x0⟩

/-! FLS_CACHE1, 64 bits, R567. -/
abbrev Reg.FLS_CACHE1.SVN : Fld := ⟨41944576, 32, 0x0⟩
abbrev Reg.FLS_CACHE1.VALID : Fld := ⟨41944608, 1, 0x0⟩

/-! GEN_STRAP, 32 bits, R583. -/
abbrev Reg.GEN_STRAP.PWRDOM : Fld := ⟨2560, 4, 0xF⟩
abbrev Reg.GEN_STRAP.SLOT : Fld := ⟨2564, 6, 0x3F⟩

/-! GEN_RESET, 64 bits, R583. -/
abbrev Reg.GEN_RESET.CAUSE : Fld := ⟨3072, 3, 1⟩
abbrev Reg.GEN_RESET.RAILFAIL : Fld := ⟨3075, 5, 0⟩
abbrev Reg.GEN_RESET.COUNT : Fld := ⟨3104, 16, 0⟩

/-! CRS_ACT_IMGTAB, 64 bits, R87. -/
abbrev Reg.CRS_ACT_IMGTAB.COUNT : Fld := ⟨4227072, 12, 0x0⟩
abbrev Reg.CRS_ACT_IMGTAB.BASE : Fld := ⟨4227084, 52, 0x0⟩

/-! CRS_ACT_TTAB, 64 bits, R87. -/
abbrev Reg.CRS_ACT_TTAB.COUNT : Fld := ⟨4227584, 12, 0x0⟩
abbrev Reg.CRS_ACT_TTAB.BASE : Fld := ⟨4227596, 52, 0x0⟩

/-! CRS_ACT_PLAN, 64 bits, R87. -/
abbrev Reg.CRS_ACT_PLAN.BASE : Fld := ⟨4228108, 52, 0x0⟩

/-! CRS_ACT_RECIPE, 64 bits, R87. -/
abbrev Reg.CRS_ACT_RECIPE.COUNT : Fld := ⟨4228608, 12, 0x0⟩
abbrev Reg.CRS_ACT_RECIPE.BASE : Fld := ⟨4228620, 52, 0x0⟩

/-! CRS_ACT_SPARE, 64 bits, R87. -/
abbrev Reg.CRS_ACT_SPARE.SPARE_VER : Fld := ⟨4229120, 32, 0x0⟩

/-! CRS_ACT_LEDGER, 64 bits, R87. -/
abbrev Reg.CRS_ACT_LEDGER.BASE : Fld := ⟨4229644, 52, 0x0⟩

/-! ### Tables -/

/-- Registers with one instance, GEN_IDENT to GEN_RESET. -/
def regsGen0 : List RegRow := [
  ⟨0x0, 32, [(.RO, Reg.GEN_IDENT.VENDOR), (.RO, Reg.GEN_IDENT.DEVICE)]⟩,
  ⟨0x4, 32, [(.RO, Reg.GEN_REV.STEP_MINOR), (.RO, Reg.GEN_REV.STEP_MAJOR)]⟩,
  ⟨0x10, 64, [(.RO, Reg.GEN_SPARES.RAFT_FREE), (.RO, Reg.GEN_SPARES.VEC_FREE), (.RO, Reg.GEN_SPARES.LANE_FREE), (.RO, Reg.GEN_SPARES.CHAN_FREE), (.RO, Reg.GEN_SPARES.DEC_FREE), (.RO, Reg.GEN_SPARES.CHAN_OUT), (.RO, Reg.GEN_SPARES.HBM_CAP)]⟩,
  ⟨0x18, 64, [(.RO, Reg.GEN_RAFTMAP0.MAP_T0), (.RO, Reg.GEN_RAFTMAP0.MAP_T1)]⟩,
  ⟨0x20, 64, [(.RO, Reg.GEN_RAFTMAP1.MAP_T2), (.RO, Reg.GEN_RAFTMAP1.MAP_T3)]⟩,
  ⟨0x28, 32, [(.RO, Reg.GEN_STRAP.PWRDOM), (.RO, Reg.GEN_STRAP.SLOT)]⟩,
  ⟨0x30, 64, [(.RO, Reg.GEN_RESET.CAUSE), (.RO, Reg.GEN_RESET.RAILFAIL), (.RO, Reg.GEN_RESET.COUNT)]⟩]

/-- Registers with one instance, CRS_CTRL to CRS_ADM_STATUS. -/
def regsCrs100 : List RegRow := [
  ⟨0x10000, 32, [(.RW, Reg.CRS_CTRL.ENABLE), (.RW, Reg.CRS_CTRL.BEAT_SRC), (.RW, Reg.CRS_CTRL.BEAT_PORT), (.RW, Reg.CRS_CTRL.TIMED_RING)]⟩,
  ⟨0x10004, 32, [(.RW, Reg.CRS_BEAT_NOM.NOM_NS)]⟩,
  ⟨0x10008, 32, [(.RW, Reg.CRS_HOLDMAX.HOLD_BEATS)]⟩,
  ⟨0x1000c, 32, [(.RO, Reg.CRS_STATUS.LOCKED), (.RO, Reg.CRS_STATUS.HOLDOVER), (.RO, Reg.CRS_STATUS.HELD), (.RO, Reg.CRS_STATUS.SWAP_PEND), (.W1C, Reg.CRS_STATUS.SWAP_ERR), (.W1C, Reg.CRS_STATUS.SHADOW_WERR), (.W1C, Reg.CRS_STATUS.LOCK_ERR), (.RO, Reg.CRS_STATUS.IDLE)]⟩,
  ⟨0x10010, 32, [(.RO, Reg.CRS_BEAT_PERIOD.PERIOD_NS)]⟩,
  ⟨0x10018, 64, [(.RO, Reg.CRS_BEAT_COUNT.BEATS)]⟩,
  ⟨0x10020, 64, [(.RO, Reg.CRS_RIDGE_COUNT.RIDGES)]⟩,
  ⟨0x10028, 64, [(.RO, Reg.CRS_COURSE_COUNT.COURSES)]⟩,
  ⟨0x10030, 64, [(.RO, Reg.CRS_TIME.TIME_NS)]⟩,
  ⟨0x10038, 64, [(.RO, Reg.CRS_LAST.STATUS), (.RO, Reg.CRS_LAST.COMMITTED), (.RO, Reg.CRS_LAST.SUPPRESSED), (.RO, Reg.CRS_LAST.COURSE)]⟩,
  ⟨0x10040, 32, [(.W1S, Reg.CRS_SWAP.REQ)]⟩,
  ⟨0x10044, 32, [(.RO, Reg.CRS_EPOCH.EPOCH)]⟩,
  ⟨0x10048, 32, [(.W1S, Reg.CRS_RESUME.RESUME)]⟩,
  ⟨0x1004c, 32, [(.W1S, Reg.CRS_ABORT.ABORT)]⟩,
  ⟨0x10050, 64, [(.RO, Reg.CRS_ADM_END.END_NS)]⟩,
  ⟨0x10058, 64, [(.RO, Reg.CRS_ADM_WIN.WIN_NS)]⟩,
  ⟨0x10060, 32, [(.RO, Reg.CRS_ADM_STATUS.STATUS)]⟩]

/-- Registers with one instance, CRS_SET_IMGTAB to CRS_SET_LEDGER. -/
def regsCrs101 : List RegRow := [
  ⟨0x10100, 64, [(.RWS, Reg.CRS_SET_IMGTAB.COUNT), (.RWS, Reg.CRS_SET_IMGTAB.BASE)]⟩,
  ⟨0x10108, 64, [(.RWS, Reg.CRS_SET_TTAB.COUNT), (.RWS, Reg.CRS_SET_TTAB.BASE)]⟩,
  ⟨0x10110, 64, [(.RWS, Reg.CRS_SET_PLAN.BASE)]⟩,
  ⟨0x10118, 64, [(.RWS, Reg.CRS_SET_RECIPE.COUNT), (.RWS, Reg.CRS_SET_RECIPE.BASE)]⟩,
  ⟨0x10120, 64, [(.PRO, Reg.CRS_SET_SPARE.SPARE_VER)]⟩,
  ⟨0x10128, 64, [(.RWS, Reg.CRS_SET_LEDGER.BASE)]⟩]

/-- Registers with one instance, CRS_ACT_IMGTAB to CRS_ACT_LEDGER. -/
def regsCrs102 : List RegRow := [
  ⟨0x10200, 64, [(.RO, Reg.CRS_ACT_IMGTAB.COUNT), (.RO, Reg.CRS_ACT_IMGTAB.BASE)]⟩,
  ⟨0x10208, 64, [(.RO, Reg.CRS_ACT_TTAB.COUNT), (.RO, Reg.CRS_ACT_TTAB.BASE)]⟩,
  ⟨0x10210, 64, [(.RO, Reg.CRS_ACT_PLAN.BASE)]⟩,
  ⟨0x10218, 64, [(.RO, Reg.CRS_ACT_RECIPE.COUNT), (.RO, Reg.CRS_ACT_RECIPE.BASE)]⟩,
  ⟨0x10220, 64, [(.RO, Reg.CRS_ACT_SPARE.SPARE_VER)]⟩,
  ⟨0x10228, 64, [(.RO, Reg.CRS_ACT_LEDGER.BASE)]⟩]

/-- Registers with one instance, CRS_NUM_VOTE to CRS_NUM_SAT. -/
def regsCrs103 : List RegRow := [
  ⟨0x10300, 32, [(.RO, Reg.CRS_NUM_VOTE.VOTE), (.RO, Reg.CRS_NUM_VOTE.RESULT), (.RO, Reg.CRS_NUM_VOTE.VALID), (.RO, Reg.CRS_NUM_VOTE.HALVED)]⟩,
  ⟨0x10304, 32, [(.RO, Reg.CRS_NUM_STATE.PAR)]⟩,
  ⟨0x10308, 64, [(.RO, Reg.CRS_NUM_WATCH.RECORDS)]⟩,
  ⟨0x10310, 64, [(.RO, Reg.CRS_NUM_SKIPS.SKIPS)]⟩,
  ⟨0x10318, 64, [(.RO, Reg.CRS_NUM_SAT.SAT_TRIPS)]⟩]

/-- Registers with one instance, CRS_KV_STAT to CRS_KV_WAITS. -/
def regsCrs104 : List RegRow := [
  ⟨0x10400, 32, [(.RO, Reg.CRS_KV_STAT.CONF), (.RO, Reg.CRS_KV_STAT.ROLLBACK), (.RO, Reg.CRS_KV_STAT.LIVE), (.RO, Reg.CRS_KV_STAT.WALKERS)]⟩,
  ⟨0x10408, 64, [(.RO, Reg.CRS_KV_VER.VER)]⟩,
  ⟨0x10410, 64, [(.RO, Reg.CRS_KV_PAGES.FREE), (.RO, Reg.CRS_KV_PAGES.PENDING)]⟩,
  ⟨0x10418, 64, [(.RO, Reg.CRS_KV_COPIES.COPIES)]⟩,
  ⟨0x10420, 64, [(.RO, Reg.CRS_KV_WAITS.CYCLES)]⟩]

/-- Registers with one instance, CRS_PLC_POOL to CRS_PLC_SPILL. -/
def regsCrs105 : List RegRow := [
  ⟨0x10500, 32, [(.RO, Reg.CRS_PLC_POOL.USED)]⟩,
  ⟨0x10508, 64, [(.RO, Reg.CRS_PLC_LAST.KEEP), (.RO, Reg.CRS_PLC_LAST.HOST), (.RO, Reg.CRS_PLC_LAST.PEER), (.RO, Reg.CRS_PLC_LAST.DISCARD)]⟩,
  ⟨0x10510, 64, [(.RO, Reg.CRS_PLC_RATE.HOST_MBS), (.RO, Reg.CRS_PLC_RATE.PEER_MBS)]⟩,
  ⟨0x10518, 64, [(.RO, Reg.CRS_PLC_LOGPOS.POS)]⟩,
  ⟨0x10520, 64, [(.RO, Reg.CRS_PLC_LATE.COUNT)]⟩,
  ⟨0x10528, 64, [(.RO, Reg.CRS_PLC_FAILED.COUNT)]⟩,
  ⟨0x10530, 64, [(.RO, Reg.CRS_PLC_ALT.COUNT)]⟩,
  ⟨0x10538, 64, [(.RO, Reg.CRS_PLC_SPILL.BYTES)]⟩]

/-- Registers with one instance, CRS_LNK_TT to CRS_LNK_DROPS. -/
def regsCrs106 : List RegRow := [
  ⟨0x10600, 64, [(.RO, Reg.CRS_LNK_TT.TT_ID), (.RO, Reg.CRS_LNK_TT.POS)]⟩,
  ⟨0x10608, 64, [(.RW, Reg.CRS_LNK_EXPOSE.BASE)]⟩,
  ⟨0x10610, 64, [(.RW, Reg.CRS_LNK_EXPLEN.PAGES)]⟩,
  ⟨0x10618, 64, [(.RO, Reg.CRS_LNK_NOTICE.POS), (.W1C, Reg.CRS_LNK_NOTICE.VALID), (.RO, Reg.CRS_LNK_NOTICE.COURSE)]⟩,
  ⟨0x10620, 64, [(.RO, Reg.CRS_LNK_ERR.STATUS), (.RO, Reg.CRS_LNK_ERR.PORT), (.W1C, Reg.CRS_LNK_ERR.VALID), (.RO, Reg.CRS_LNK_ERR.XID), (.RO, Reg.CRS_LNK_ERR.COURSE)]⟩,
  ⟨0x10628, 64, [(.RO, Reg.CRS_LNK_DROPS.COUNT)]⟩]

/-- Registers with one instance, HIF_CTRL to HIF_ATTACH. -/
def regsHif200 : List RegRow := [
  ⟨0x20000, 32, [(.RW, Reg.HIF_CTRL.HL_MODE), (.RW, Reg.HIF_CTRL.COH_MODE)]⟩,
  ⟨0x20004, 32, [(.RO, Reg.HIF_STATUS.LINK_UP), (.RO, Reg.HIF_STATUS.HOST_LOST), (.W1C, Reg.HIF_STATUS.REATTACH), (.W1C, Reg.HIF_STATUS.MODE_ERR), (.W1C, Reg.HIF_STATUS.HDM_ERR), (.RO, Reg.HIF_STATUS.DB_ERR)]⟩,
  ⟨0x20008, 32, [(.RO, Reg.HIF_LINK.RATE), (.RO, Reg.HIF_LINK.WIDTH)]⟩,
  ⟨0x20010, 64, [(.RW, Reg.HIF_HDM.BASE_GIB), (.RO, Reg.HIF_HDM.MOVE_PEND), (.RO, Reg.HIF_HDM.LOST)]⟩,
  ⟨0x20018, 64, [(.RW, Reg.HIF_APT_BASE.OFFSET)]⟩,
  ⟨0x20020, 32, [(.RW, Reg.HIF_APT_CFG.COUNT), (.RW, Reg.HIF_APT_CFG.EN)]⟩,
  ⟨0x20028, 64, [(.RO, Reg.HIF_APT_FAULT.ADDR), (.RO, Reg.HIF_APT_FAULT.CAUSE), (.W1C, Reg.HIF_APT_FAULT.VALID)]⟩,
  ⟨0x20030, 64, [(.RO, Reg.HIF_BIAS_FLIPS.FLIPS)]⟩,
  ⟨0x20038, 64, [(.RO, Reg.HIF_REREADS.REREADS)]⟩,
  ⟨0x20040, 32, [(.RO, Reg.HIF_DB_ERR.RING), (.W1C, Reg.HIF_DB_ERR.DISCARD), (.W1C, Reg.HIF_DB_ERR.MISMATCH), (.W1C, Reg.HIF_DB_ERR.BADPAGE), (.W1C, Reg.HIF_DB_ERR.CQHEAD)]⟩,
  ⟨0x20044, 32, [(.RW, Reg.HIF_FUNC_EN.EN)]⟩,
  ⟨0x20048, 32, [(.RO, Reg.HIF_FUNC_BUSY.BUSY)]⟩,
  ⟨0x2004c, 32, [(.RW, Reg.HIF_QUI_DRAIN.DRAIN_US)]⟩,
  ⟨0x20050, 64, [(.RO, Reg.HIF_QUI_DISCARD.DISCARDS)]⟩,
  ⟨0x20058, 64, [(.RO, Reg.HIF_HL_LOST.LOST)]⟩,
  ⟨0x20060, 32, [(.RW, Reg.HIF_HL_DET.DET_US)]⟩,
  ⟨0x20064, 32, [(.W1S, Reg.HIF_ATTACH.RESUME)]⟩]

/-- Registers with one instance, FLT_STATUS to GUT_SUM_UNDER. -/
def regsFlt400 : List RegRow := [
  ⟨0x40000, 64, [(.W1C, Reg.FLT_STATUS.STATUS)]⟩,
  ⟨0x40008, 64, [(.RO, Reg.FLT_LINES.LINES)]⟩,
  ⟨0x40010, 64, [(.RW, Reg.FLT_IRQ_EN.EN)]⟩,
  ⟨0x40018, 64, [(.PRO, Reg.FLT_FATAL.FATAL)]⟩,
  ⟨0x40020, 32, [(.RW, Reg.FLT_MERGE.WIN_US)]⟩,
  ⟨0x40028, 64, [(.RO, Reg.FLT_MERGED.COUNT)]⟩,
  ⟨0x40030, 64, [(.W1C, Reg.FLT_MERGED_SRC.SRC)]⟩,
  ⟨0x40038, 32, [(.RO, Reg.FLT_ALIVE.RUN), (.RO, Reg.FLT_ALIVE.LEVEL)]⟩,
  ⟨0x40040, 64, [(.W1S, Reg.FLT_INJECT.ARM), (.W1S, Reg.FLT_INJECT.DISARM), (.W1C, Reg.FLT_INJECT.REFUSED), (.RW, Reg.FLT_INJECT.MODE), (.RW, Reg.FLT_INJECT.CHECKER), (.RW, Reg.FLT_INJECT.UNIT)]⟩,
  ⟨0x40048, 64, [(.RO, Reg.FLT_INJ_COUNT.COUNT)]⟩,
  ⟨0x40100, 32, [(.RW, Reg.GUT_STALE.STALE_NS)]⟩,
  ⟨0x40108, 64, [(.RO, Reg.GUT_SUM_PAR.COUNT)]⟩,
  ⟨0x40110, 64, [(.RO, Reg.GUT_SUM_RST.COUNT)]⟩,
  ⟨0x40118, 64, [(.RO, Reg.GUT_SUM_UNDER.COUNT)]⟩]

/-- Registers with one instance, PPT_STAT to PPT_CMD. -/
def regsPpt500 : List RegRow := [
  ⟨0x50000, 32, [(.PRO, Reg.PPT_STAT.SELF_OK), (.PRO, Reg.PPT_STAT.AT_TARGET), (.PRO, Reg.PPT_STAT.HOLDING), (.PRO, Reg.PPT_STAT.DERATED), (.PRO, Reg.PPT_STAT.TWARN), (.PRO, Reg.PPT_STAT.OVERDRAW), (.PRO, Reg.PPT_STAT.FLASH_SHORT)]⟩,
  ⟨0x50004, 32, [(.PRO, Reg.PPT_LIMIT.LIMIT_W), (.PRO, Reg.PPT_LIMIT.DERATE_W)]⟩,
  ⟨0x50008, 32, [(.PRO, Reg.PPT_RAMP.SLOPE), (.PRO, Reg.PPT_RAMP.BAND_W)]⟩,
  ⟨0x5000c, 32, [(.PRO, Reg.PPT_TARGET.TARGET_W), (.PRO, Reg.PPT_TARGET.HOLD_MS)]⟩,
  ⟨0x50010, 64, [(.PRO, Reg.PPT_DRAW.MEAS_W), (.PRO, Reg.PPT_DRAW.FLOOR_W), (.PRO, Reg.PPT_DRAW.CEIL_W), (.PRO, Reg.PPT_DRAW.INFORCE_W)]⟩,
  ⟨0x50018, 32, [(.PRO, Reg.PPT_IDLE.IDLE_W)]⟩,
  ⟨0x50020, 64, [(.PRO, Reg.PPT_FLASH.ENERGY_J)]⟩,
  ⟨0x50028, 64, [(.PRO, Reg.PPT_OVER.COUNT)]⟩,
  ⟨0x50030, 64, [(.PRO, Reg.PPT_COOL.TIN), (.PRO, Reg.PPT_COOL.TOUT), (.PRO, Reg.PPT_COOL.FLOW), (.PRO, Reg.PPT_COOL.DUTY), (.PRO, Reg.PPT_COOL.CAUSE)]⟩,
  ⟨0x50038, 64, [(.PRO, Reg.PPT_VALVE.LEAD_MS), (.PRO, Reg.PPT_VALVE.DT_SET), (.PRO, Reg.PPT_VALVE.CP), (.PRO, Reg.PPT_VALVE.FLOW_FULL)]⟩,
  ⟨0x50040, 32, [(.PRO, Reg.PPT_FLOWK.FLOW_K)]⟩,
  ⟨0x50048, 64, [(.PRO, Reg.PPT_THERM.TRUSS), (.PRO, Reg.PPT_THERM.HUB), (.PRO, Reg.PPT_THERM.DRAM), (.PRO, Reg.PPT_THERM.PSTAGE), (.PRO, Reg.PPT_THERM.JT_WARN)]⟩,
  ⟨0x50050, 64, [(.PRO, Reg.PPT_CAL.TIME)]⟩,
  ⟨0x50058, 32, [(.PRO, Reg.PPT_CAL_STAT.VBAT_MV), (.PRO, Reg.PPT_CAL_STAT.VLOW), (.PRO, Reg.PPT_CAL_STAT.INVALID), (.PRO, Reg.PPT_CAL_STAT.SRC)]⟩,
  ⟨0x50060, 64, [(.PRO, Reg.PPT_CMD.SEQ), (.PRO, Reg.PPT_CMD.RESULT), (.PRO, Reg.PPT_CMD.OPCODE)]⟩]

/-- Registers with one instance, SEC_BOOT_STAT to SEC_WDOG. -/
def regsSec600 : List RegRow := [
  ⟨0x60000, 64, [(.RO, Reg.SEC_BOOT_STAT.STAGE), (.RO, Reg.SEC_BOOT_STAT.READY), (.RO, Reg.SEC_BOOT_STAT.SRC), (.RO, Reg.SEC_BOOT_STAT.WAITING), (.RO, Reg.SEC_BOOT_STAT.ERR), (.W1C, Reg.SEC_BOOT_STAT.ERR_VALID), (.RO, Reg.SEC_BOOT_STAT.SVN)]⟩,
  ⟨0x60008, 64, [(.RW, Reg.SEC_BOOT_ADDR.ADDR)]⟩,
  ⟨0x60010, 32, [(.RW, Reg.SEC_BOOT_LEN.PAGES)]⟩,
  ⟨0x60014, 32, [(.W1S, Reg.SEC_BOOT_CTRL.OFFER)]⟩,
  ⟨0x60018, 64, [(.RO, Reg.SEC_ID.IDHASH)]⟩,
  ⟨0x60020, 64, [(.RO, Reg.SEC_MAN.MVER), (.RO, Reg.SEC_MAN.MIN_SVN)]⟩,
  ⟨0x60028, 64, [(.RO, Reg.SEC_KS.ENTRIES), (.RO, Reg.SEC_KS.KSEQ)]⟩,
  ⟨0x60030, 64, [(.RW, Reg.SEC_PTP.DOMAIN), (.RO, Reg.SEC_PTP.LOCKED), (.RO, Reg.SEC_PTP.STEP_PEND), (.RO, Reg.SEC_PTP.OFFSET_NS)]⟩,
  ⟨0x60038, 32, [(.RO, Reg.SEC_WDOG.EXPIRIES)]⟩]

/-- Registers with one instance, MED_CTRL to MED_RESTART. -/
def regsMed800 : List RegRow := [
  ⟨0x80000, 32, [(.RW, Reg.MED_CTRL.CE_LIMIT)]⟩,
  ⟨0x80004, 32, [(.RO, Reg.MED_STAT.DEC_ACTIVE), (.RO, Reg.MED_STAT.ENC_ACTIVE), (.RO, Reg.MED_STAT.BUSY)]⟩,
  ⟨0x80008, 32, [(.RW, Reg.MED_LIMIT.HBM_GBS)]⟩,
  ⟨0x80010, 64, [(.RW, Reg.MED_WORK.BASE)]⟩,
  ⟨0x80018, 64, [(.RW, Reg.MED_WORK_LEN.PAGES)]⟩,
  ⟨0x80020, 64, [(.RW, Reg.MED_SUBLOG.BASE), (.RW, Reg.MED_SUBLOG.SLOTS)]⟩,
  ⟨0x80028, 64, [(.RO, Reg.MED_SUBPOS.POS)]⟩,
  ⟨0x80030, 64, [(.RO, Reg.MED_SEQ.COMMITTED), (.RO, Reg.MED_SEQ.RING), (.RO, Reg.MED_SEQ.SEQ)]⟩,
  ⟨0x80038, 64, [(.RO, Reg.MED_ERR.CODE), (.RO, Reg.MED_ERR.ISCAUSE), (.W1C, Reg.MED_ERR.VALID), (.RO, Reg.MED_ERR.STREAM), (.RO, Reg.MED_ERR.SAMPLE), (.RO, Reg.MED_ERR.SEQ), (.RO, Reg.MED_ERR.RING)]⟩,
  ⟨0x80040, 64, [(.RO, Reg.MED_FRAMES.COUNT)]⟩,
  ⟨0x80048, 64, [(.RO, Reg.MED_CONCEAL.COUNT)]⟩,
  ⟨0x80050, 64, [(.RO, Reg.MED_REFSUB.COUNT)]⟩,
  ⟨0x80058, 64, [(.RO, Reg.MED_REJECT.COUNT)]⟩,
  ⟨0x80060, 64, [(.RO, Reg.MED_SUBST.COUNT)]⟩,
  ⟨0x80068, 64, [(.RO, Reg.MED_CAPPED.COUNT)]⟩,
  ⟨0x80070, 64, [(.RO, Reg.MED_MASKED.COUNT)]⟩,
  ⟨0x80078, 64, [(.RO, Reg.MED_RESTART.COUNT)]⟩]

/-- Registers with one instance, FLS_STAT to FLS_CACHE1. -/
def regsFlsA00 : List RegRow := [
  ⟨0xa0000, 32, [(.RO, Reg.FLS_STAT.READY), (.RO, Reg.FLS_STAT.HELPER), (.RO, Reg.FLS_STAT.MAN_VALID)]⟩,
  ⟨0xa0010, 64, [(.RO, Reg.FLS_CACHE0.SVN), (.RO, Reg.FLS_CACHE0.VALID)]⟩,
  ⟨0xa0018, 64, [(.RO, Reg.FLS_CACHE1.SVN), (.RO, Reg.FLS_CACHE1.VALID)]⟩]

/-- Registers with one instance, THC_INJECT to THC_TPASS. -/
def regsThcC00 : List RegRow := [
  ⟨0xc0000, 32, [(.W1S, Reg.THC_INJECT.ARM), (.RW, Reg.THC_INJECT.TARGET)]⟩,
  ⟨0xc0008, 64, [(.RO, Reg.THC_ERR.CAUSE), (.RO, Reg.THC_ERR.LRAFT), (.RO, Reg.THC_ERR.PORT), (.W1C, Reg.THC_ERR.VALID), (.RO, Reg.THC_ERR.YELM), (.RO, Reg.THC_ERR.COURSE)]⟩,
  ⟨0xc0010, 64, [(.RO, Reg.THC_INTEG.COUNT)]⟩,
  ⟨0xc0018, 64, [(.RO, Reg.THC_RAW.BYTES)]⟩,
  ⟨0xc0020, 64, [(.RO, Reg.THC_STORED.BYTES)]⟩,
  ⟨0xc0028, 64, [(.RO, Reg.THC_YCOMP.YELMS)]⟩,
  ⟨0xc0030, 64, [(.RO, Reg.THC_YRAW.YELMS)]⟩,
  ⟨0xc0038, 64, [(.RO, Reg.THC_YMISS.YELMS)]⟩,
  ⟨0xc0040, 64, [(.RO, Reg.THC_TPASS.PASSES)]⟩]

/-- Registers with one instance, SVL_CTRL to SVL_DISCARD. -/
def regsSvlE00 : List RegRow := [
  ⟨0xe0000, 32, [(.RW, Reg.SVL_CTRL.EN), (.RW, Reg.SVL_CTRL.EVERY), (.RW, Reg.SVL_CTRL.FLASH_EVERY)]⟩,
  ⟨0xe0004, 32, [(.RW, Reg.SVL_RATE.STAGE_GBS)]⟩,
  ⟨0xe0008, 64, [(.RW, Reg.SVL_SAVE.BASE)]⟩,
  ⟨0xe0010, 64, [(.RW, Reg.SVL_SAVE_LEN.PAGES)]⟩,
  ⟨0xe0018, 64, [(.RW, Reg.SVL_PART.BASE)]⟩,
  ⟨0xe0020, 64, [(.RW, Reg.SVL_PART_LEN.PAGES)]⟩,
  ⟨0xe0028, 64, [(.RW, Reg.SVL_LOSS.LEN), (.RW, Reg.SVL_LOSS.BASE)]⟩,
  ⟨0xe0030, 32, [(.RW, Reg.SVL_PAIR.PARTNER), (.RW, Reg.SVL_PAIR.PEN), (.RW, Reg.SVL_PAIR.FORCE)]⟩,
  ⟨0xe0034, 32, [(.RW, Reg.SVL_HOT.PROTECTS), (.RW, Reg.SVL_HOT.HEN), (.RW, Reg.SVL_HOT.FORCE), (.RW, Reg.SVL_HOT.HOTPOS), (.RW, Reg.SVL_HOT.HOTEN)]⟩,
  ⟨0xe0038, 32, [(.RO, Reg.SVL_PSTAT.OWN_DOM), (.RO, Reg.SVL_PSTAT.PART_DOM), (.RO, Reg.SVL_PSTAT.PAIRED), (.RO, Reg.SVL_PSTAT.SHARED), (.W1C, Reg.SVL_PSTAT.REFUSED)]⟩,
  ⟨0xe0040, 64, [(.RO, Reg.SVL_STAT.VERIFY), (.W1C, Reg.SVL_STAT.VERIFY_FAIL), (.RO, Reg.SVL_STAT.RESTORING), (.W1C, Reg.SVL_STAT.SIZE_ERR), (.RO, Reg.SVL_STAT.VCOURSE)]⟩,
  ⟨0xe0048, 64, [(.RW, Reg.SVL_PUSH.COURSE)]⟩,
  ⟨0xe0050, 64, [(.RO, Reg.SVL_ACK.ACKED)]⟩,
  ⟨0xe0058, 64, [(.RO, Reg.SVL_FLASH.NEWEST), (.RO, Reg.SVL_FLASH.IMAGES)]⟩,
  ⟨0xe0100, 64, [(.RO, Reg.SVL_POINTS.COUNT)]⟩,
  ⟨0xe0108, 64, [(.RO, Reg.SVL_SKIPS.COUNT)]⟩,
  ⟨0xe0110, 64, [(.RO, Reg.SVL_ABANDON.COUNT)]⟩,
  ⟨0xe0118, 64, [(.RO, Reg.SVL_SARK_TX.BYTES)]⟩,
  ⟨0xe0120, 64, [(.RO, Reg.SVL_SARK_RX.BYTES)]⟩,
  ⟨0xe0128, 64, [(.RO, Reg.SVL_REJECT.COUNT)]⟩,
  ⟨0xe0130, 64, [(.RO, Reg.SVL_DISCARD.COUNT)]⟩]

/-- Every register with one instance. -/
def singleRegs : List RegRow :=
  regsGen0 ++ regsCrs100 ++ regsCrs101 ++ regsCrs102 ++ regsCrs103 ++ regsCrs104 ++ regsCrs105 ++ regsCrs106 ++ regsHif200 ++ regsFlt400 ++ regsPpt500 ++ regsSec600 ++ regsMed800 ++ regsFlsA00 ++ regsThcC00 ++ regsSvlE00

/-- A family of registers: the address of its first instance, the stride and count of each index, its width, its fields. -/
structure RegFam where
  base : Nat
  dims : List (Nat × Nat)
  width : Nat
  fields : List Nat → List (Acc × Fld)

/-- The indices of offset `off` in a family, outermost first, or none when it is no instance of it. -/
def indicesOf : List (Nat × Nat) → Nat → Option (List Nat)
  | [], off => if off = 0 then some [] else none
  | (st, ct) :: ds, off =>
    if off / st < ct then (indicesOf ds (off % st)).map (off / st :: ·) else none

/-- Every family of registers. -/
def famRegs : List RegFam := [
  ⟨0x28000, [(0x20, 1024)], 64, fun | [r] => [(.RW, Reg.HIF_RING_SQ.BASE r)] | _ => []⟩,
  ⟨0x28008, [(0x20, 1024)], 64, fun | [r] => [(.RW, Reg.HIF_RING_CQ.BASE r)] | _ => []⟩,
  ⟨0x28010, [(0x20, 1024)], 32, fun | [r] => [(.RW, Reg.HIF_RING_CFG.ENABLE r), (.RW, Reg.HIF_RING_CFG.CLASS r), (.RW, Reg.HIF_RING_CFG.SIZE_LOG2 r), (.RW, Reg.HIF_RING_CFG.IRQ_EN r), (.RW, Reg.HIF_RING_CFG.VECTOR r), (.RW, Reg.HIF_RING_CFG.COAL r)] | _ => []⟩,
  ⟨0x28014, [(0x20, 1024)], 32, fun | [r] => [(.RO, Reg.HIF_RING_STAT.ACTIVE r), (.RO, Reg.HIF_RING_STAT.BUSY r), (.RO, Reg.HIF_RING_STAT.ERR r), (.RO, Reg.HIF_RING_STAT.ERR_CODE r)] | _ => []⟩,
  ⟨0x28018, [(0x20, 1024)], 64, fun | [r] => [(.RO, Reg.HIF_RING_PTR.SQ_HEAD r), (.RO, Reg.HIF_RING_PTR.SQ_TAIL r), (.RO, Reg.HIF_RING_PTR.CQ_TAIL r), (.RO, Reg.HIF_RING_PTR.EXP_SEQ r)] | _ => []⟩,
  ⟨0x1000000, [(0x400000, 4)], 32, fun | [n] => [(.PRO, Reg.TRS_DIE_STAT.ACTIVE n), (.PRO, Reg.TRS_DIE_STAT.SPARE n), (.PRO, Reg.TRS_DIE_STAT.FAILED n)] | _ => []⟩,
  ⟨0x1000004, [(0x400000, 4)], 32, fun | [n] => [(.RW, Reg.TRS_CE_LIMIT.LIMIT n)] | _ => []⟩,
  ⟨0x1000008, [(0x400000, 4)], 64, fun | [n] => [(.RO, Reg.TRS_PROG_ERR.STATUS n), (.RO, Reg.TRS_PROG_ERR.LRAFT n), (.W1C, Reg.TRS_PROG_ERR.VALID n), (.RO, Reg.TRS_PROG_ERR.PC n), (.RO, Reg.TRS_PROG_ERR.COURSE n)] | _ => []⟩,
  ⟨0x1000010, [(0x400000, 4)], 64, fun | [n] => [(.RO, Reg.TRS_MAC_BUSY.CYCLES n)] | _ => []⟩,
  ⟨0x1000100, [(0x400000, 4), (0x20, 9)], 32, fun | [n, k] => [(.PRO, Reg.TRS_RAFT_STAT.LOGICAL n k), (.PRO, Reg.TRS_RAFT_STAT.STATE n k), (.PRO, Reg.TRS_RAFT_STAT.CAUSE n k)] | _ => []⟩,
  ⟨0x1000108, [(0x400000, 4), (0x20, 9)], 64, fun | [n, k] => [(.RO, Reg.TRS_RAFT_CE.CE_STORE n k), (.RO, Reg.TRS_RAFT_CE.CE_ACC n k)] | _ => []⟩,
  ⟨0x1000110, [(0x400000, 4), (0x20, 9)], 64, fun | [n, k] => [(.RO, Reg.TRS_RAFT_UE.UE_STORE n k), (.RO, Reg.TRS_RAFT_UE.UE_ACC n k), (.RO, Reg.TRS_RAFT_UE.PARITY n k), (.RO, Reg.TRS_RAFT_UE.SEQ_ERR n k)] | _ => []⟩,
  ⟨0x1001000, [(0x400000, 4)], 64, fun | [n] => [(.RO, Reg.TRS_VEC_SEED.SEED n)] | _ => []⟩,
  ⟨0x1001008, [(0x400000, 4)], 64, fun | [n] => [(.RO, Reg.TRS_VEC_BUSY.CYCLES n)] | _ => []⟩,
  ⟨0x1001100, [(0x400000, 4), (0x80, 9), (0x10, 5)], 32, fun | [n, k, v] => [(.PRO, Reg.TRS_VEC_STAT.LOGICAL n k v), (.PRO, Reg.TRS_VEC_STAT.STATE n k v), (.PRO, Reg.TRS_VEC_STAT.CAUSE n k v)] | _ => []⟩,
  ⟨0x1001108, [(0x400000, 4), (0x80, 9), (0x10, 5)], 64, fun | [n, k, v] => [(.RO, Reg.TRS_VEC_ERR.CE_REG n k v), (.RO, Reg.TRS_VEC_ERR.UE_REG n k v), (.RO, Reg.TRS_VEC_ERR.PARITY n k v)] | _ => []⟩,
  ⟨0x1002000, [(0x400000, 4)], 64, fun | [n] => [(.RO, Reg.TRS_ATT_CMDS.CMDS n)] | _ => []⟩,
  ⟨0x1002008, [(0x400000, 4)], 64, fun | [n] => [(.RO, Reg.TRS_ATT_RISE.RISES n)] | _ => []⟩,
  ⟨0x1002010, [(0x400000, 4)], 64, fun | [n] => [(.RO, Reg.TRS_ATT_SKIP.SKIPS n)] | _ => []⟩,
  ⟨0x2000000, [(0x100000, 20)], 32, fun | [s] => [(.PRO, Reg.MEM_STAT.ACTIVE s), (.PRO, Reg.MEM_STAT.FREE s), (.PRO, Reg.MEM_STAT.OUT s), (.RO, Reg.MEM_STAT.MIG s)] | _ => []⟩,
  ⟨0x2000004, [(0x100000, 20)], 32, fun | [s] => [(.RO, Reg.MEM_TEMP.TEMP s), (.RO, Reg.MEM_TEMP.REFRESH s), (.RO, Reg.MEM_TEMP.THROTTLE s), (.RO, Reg.MEM_TEMP.TPEAK s), (.W1S, Reg.MEM_TEMP.PEAK_CLR s)] | _ => []⟩,
  ⟨0x2000008, [(0x100000, 20)], 32, fun | [s] => [(.RW, Reg.MEM_CTRL.CE_LIMIT s), (.RW, Reg.MEM_CTRL.CRC_LIMIT s)] | _ => []⟩,
  ⟨0x200000c, [(0x100000, 20)], 32, fun | [s] => [(.RW, Reg.MEM_SCRUB.EN s), (.RW, Reg.MEM_SCRUB.PERIOD_H s)] | _ => []⟩,
  ⟨0x2000010, [(0x100000, 20)], 64, fun | [s] => [(.W1S, Reg.MEM_LOOP.START s), (.RO, Reg.MEM_LOOP.DONE s), (.W1C, Reg.MEM_LOOP.REFUSED s), (.RW, Reg.MEM_LOOP.DUR_US s), (.RO, Reg.MEM_LOOP.ERRS s)] | _ => []⟩,
  ⟨0x2000018, [(0x100000, 20)], 32, fun | [s] => [(.W1S, Reg.MEM_INJECT.ARM s), (.RW, Reg.MEM_INJECT.LCH s), (.RW, Reg.MEM_INJECT.MODE s)] | _ => []⟩,
  ⟨0x2000100, [(0x100000, 20), (0x10, 32)], 32, fun | [s, c] => [(.PRO, Reg.MEM_LCH_STAT.PHYS s c), (.PRO, Reg.MEM_LCH_STAT.STATE s c), (.PRO, Reg.MEM_LCH_STAT.OUT_SEQ s c), (.W1S, Reg.MEM_LCH_STAT.RETRAIN s c)] | _ => []⟩,
  ⟨0x2000108, [(0x100000, 20), (0x10, 32)], 64, fun | [s, c] => [(.RO, Reg.MEM_LCH_MIG.DONE s c), (.RO, Reg.MEM_LCH_MIG.TOTAL s c)] | _ => []⟩,
  ⟨0x2000400, [(0x100000, 20), (0x20, 34)], 32, fun | [s, p] => [(.PRO, Reg.MEM_PCH_STAT.LOGICAL s p), (.PRO, Reg.MEM_PCH_STAT.STATE s p)] | _ => []⟩,
  ⟨0x2000408, [(0x100000, 20), (0x20, 34)], 64, fun | [s, p] => [(.RO, Reg.MEM_PCH_CE.CE s p), (.RO, Reg.MEM_PCH_CE.CRC s p)] | _ => []⟩,
  ⟨0x2000410, [(0x100000, 20), (0x20, 34)], 64, fun | [s, p] => [(.RO, Reg.MEM_PCH_UE.UE_READ s p), (.RO, Reg.MEM_PCH_UE.UE_SCRUB s p), (.RO, Reg.MEM_PCH_UE.RETRAINS s p), (.RO, Reg.MEM_PCH_UE.RT_FAIL s p)] | _ => []⟩,
  ⟨0x80100, [(0x10, 26)], 32, fun | [k] => [(.PRO, Reg.MED_PIPE_STAT.LOGICAL k), (.PRO, Reg.MED_PIPE_STAT.STATE k), (.PRO, Reg.MED_PIPE_STAT.CAUSE k)] | _ => []⟩,
  ⟨0x80108, [(0x10, 26)], 64, fun | [k] => [(.RO, Reg.MED_PIPE_ERR.CE k), (.RO, Reg.MED_PIPE_ERR.UE k), (.RO, Reg.MED_PIPE_ERR.PARITY k)] | _ => []⟩,
  ⟨0x80300, [(0x10, 4)], 32, fun | [e] => [(.PRO, Reg.MED_ENC_STAT.STATE e)] | _ => []⟩,
  ⟨0x80308, [(0x10, 4)], 64, fun | [e] => [(.RO, Reg.MED_ENC_ERR.CE e), (.RO, Reg.MED_ENC_ERR.UE e), (.RO, Reg.MED_ENC_ERR.PARITY e)] | _ => []⟩,
  ⟨0x3800000, [(0x10000, 32)], 32, fun | [p] => [(.RW, Reg.LNK_CTRL.EN p), (.RW, Reg.LNK_CTRL.BEAT_OUT p), (.RW, Reg.LNK_CTRL.UCW_LIMIT p), (.RW, Reg.LNK_CTRL.CSYM_LIMIT p)] | _ => []⟩,
  ⟨0x3800004, [(0x10000, 32)], 32, fun | [p] => [(.RO, Reg.LNK_STAT.UP p), (.RO, Reg.LNK_STAT.TRAINING p), (.RO, Reg.LNK_STAT.TRAIN_STEP p), (.W1C, Reg.LNK_STAT.TRAIN_ERR p), (.RO, Reg.LNK_STAT.LANES p), (.PRO, Reg.LNK_STAT.FREE p), (.PRO, Reg.LNK_STAT.DEGRADED p), (.RO, Reg.LNK_STAT.REPAIR_PEND p)] | _ => []⟩,
  ⟨0x3800008, [(0x10000, 32)], 64, fun | [p] => [(.RW, Reg.LNK_ID.LOCAL_ID p)] | _ => []⟩,
  ⟨0x3800010, [(0x10000, 32)], 64, fun | [p] => [(.RO, Reg.LNK_PARTNER.PARTNER_ID p)] | _ => []⟩,
  ⟨0x3800018, [(0x10000, 32)], 32, fun | [p] => [(.RO, Reg.LNK_PARTNER2.PORT p), (.RO, Reg.LNK_PARTNER2.PWRDOM p)] | _ => []⟩,
  ⟨0x380001c, [(0x10000, 32)], 32, fun | [p] => [(.RO, Reg.LNK_LAT.ONEWAY_NS p)] | _ => []⟩,
  ⟨0x3800020, [(0x10000, 32)], 64, fun | [p] => [(.PRO, Reg.LNK_LANEMAP0.PHYS0 p), (.PRO, Reg.LNK_LANEMAP0.PHYS1 p), (.PRO, Reg.LNK_LANEMAP0.PHYS2 p), (.PRO, Reg.LNK_LANEMAP0.PHYS3 p), (.PRO, Reg.LNK_LANEMAP0.PHYS4 p), (.PRO, Reg.LNK_LANEMAP0.PHYS5 p), (.PRO, Reg.LNK_LANEMAP0.PHYS6 p), (.PRO, Reg.LNK_LANEMAP0.PHYS7 p)] | _ => []⟩,
  ⟨0x3800028, [(0x10000, 32)], 64, fun | [p] => [(.PRO, Reg.LNK_LANEMAP1.PHYS8 p), (.PRO, Reg.LNK_LANEMAP1.PHYS9 p), (.PRO, Reg.LNK_LANEMAP1.PHYS10 p), (.PRO, Reg.LNK_LANEMAP1.PHYS11 p), (.PRO, Reg.LNK_LANEMAP1.PHYS12 p), (.PRO, Reg.LNK_LANEMAP1.PHYS13 p), (.PRO, Reg.LNK_LANEMAP1.PHYS14 p), (.PRO, Reg.LNK_LANEMAP1.PHYS15 p)] | _ => []⟩,
  ⟨0x3800030, [(0x10000, 32)], 64, fun | [p] => [(.RO, Reg.LNK_RETRY.REPLAYS p)] | _ => []⟩,
  ⟨0x3800038, [(0x10000, 32)], 64, fun | [p] => [(.RO, Reg.LNK_IDLEDROP.COUNT p)] | _ => []⟩,
  ⟨0x3800040, [(0x10000, 32)], 32, fun | [p] => [(.RO, Reg.LNK_DOWN.DOWNS p), (.RO, Reg.LNK_DOWN.CAUSE p)] | _ => []⟩,
  ⟨0x3800100, [(0x10000, 32), (0x10, 18)], 64, fun | [p, l] => [(.RO, Reg.LNK_LANE_ERR.CSYM p l), (.RO, Reg.LNK_LANE_ERR.UCW p l), (.RO, Reg.LNK_LANE_ERR.LOS p l)] | _ => []⟩,
  ⟨0x3800108, [(0x10000, 32), (0x10, 18)], 32, fun | [p, l] => [(.PRO, Reg.LNK_LANE_STAT.LOGICAL p l), (.PRO, Reg.LNK_LANE_STAT.STATE p l)] | _ => []⟩,
  ⟨0xe0080, [(0x20, 2), (0x10, 2)], 64, fun | [a, n] => [(.RO, Reg.SVL_SLOT.STATE a n), (.RO, Reg.SVL_SLOT.HOLD a n), (.RO, Reg.SVL_SLOT.COURSE a n)] | _ => []⟩,
  ⟨0x41000, [(0x20, 372)], 64, fun | [i] => [(.RO, Reg.GUT_STAT.OCC i), (.RO, Reg.GUT_STAT.DEPTH i), (.RO, Reg.GUT_STAT.CLASS i), (.W1C, Reg.GUT_STAT.UNDERRUN i), (.RO, Reg.GUT_STAT.FILL i), (.RO, Reg.GUT_STAT.READY i)] | _ => []⟩,
  ⟨0x41008, [(0x20, 372)], 64, fun | [i] => [(.RO, Reg.GUT_CNT.PARITY i), (.RO, Reg.GUT_CNT.RESETS i), (.RO, Reg.GUT_CNT.UNDERRUNS i)] | _ => []⟩,
  ⟨0x41010, [(0x20, 372)], 64, fun | [i] => [(.RO, Reg.GUT_STALECNT.STALE i)] | _ => []⟩]

/-- The register at BAR0 address `a`, or none: an address the owning block does not define (R9, R523). -/
def findReg (a : Nat) : Option RegRow :=
  match singleRegs.find? (fun r => r.addr = a) with
  | some r => some r
  | none =>
    if 0x41000 ≤ a ∧ a < 0x44000 ∧ ¬ Gut.defined ((a - 0x41000) / 0x20) then none else
    famRegs.findSome? fun f =>
      if a < f.base then none else
        (indicesOf f.dims (a - f.base)).map fun ix => ⟨a, f.width, f.fields ix⟩

end Sys2Proof.Machine
end

