-- ==== Sys2Proof/Config.lean ====
section
/-! DEFINITION. The free values of the model: what the manual leaves open, or fixes by an outside standard or by a secret of one
module. Every constant here is opaque: nothing can be proved of its value. The assumption log names each. -/

namespace Sys2Proof

/-- R113: the DETAIL of a completion whose opcode the manual gives none, or of a course that never ran (assumption 7). -/
opaque Config.openDetail : Nat → Nat

/-- R273: bytes a command leaves in its scratch area, and other bytes whose content the manual leaves open (assumption 11). -/
opaque Config.openByte : Nat → Nat → Byte

/-- R298: the 16 bytes of an undo-log record, whose layout the manual does not give (assumption 11). -/
opaque Config.undoRecord : Nat → List Byte

/-- R537: the duty when the divisor CP × DT_SET × FLOW_FULL is zero (assumption 8). -/
opaque Config.openDuty : Nat → Nat

/-- R564: how long a restart of Bolyel takes, which the spec only bounds (assumption 15). -/
opaque Config.openRestart : Nat → Nat

/-- How far an operation had come when it was stopped, which the manual leaves open: the bytes a RESTORE has written when a digest mismatch
stops it (R476, assumption 76), and the access at which a HOST_COPY met the loss of the host (R493, assumption 84). -/
opaque Config.openPart : Nat → Nat

/-- R433: payload bytes 4 and on of a HELLO flit, whose layout the manual does not give, from LNK_ID, port number and PWRDOM (assumption 53). -/
opaque Config.helloBody : Nat → Nat → Nat → List Byte

/-- R68: END_NS of a course refused because a phase needs a host link that has no lanes (assumption 62). -/
opaque Config.openEnd : Nat → Nat

/-- R35: the signed manifest, with the module's spare map, that manufacture leaves in flash (assumption 9). -/
opaque Config.factoryManifest : List Byte

/-- R556: the helper data that manufacture leaves in flash (assumption 9). -/
opaque Config.helperData : List Byte

/-- R557: the certificates of levels 0 to 2 that manufacture leaves in flash (assumption 9). -/
opaque Config.factoryCerts : List (List Byte)

/-- R549: SHA-384 of the root key, held in mask ROM (assumption 9). -/
opaque Config.rootKeyHash : List Byte

/-- R560: the mask ROM content (assumption 9). -/
opaque Config.romContent : List Byte

/-- R556: whether the fuzzy extractor reconstructs the seed from this helper data and this reading of the uninitialised SRAM
(assumption 10). -/
opaque Config.pufReads : List Byte → List Byte → Bool

/-- R556: the 384-bit seed that the helper data gives back on this module, the same at every power-on (assumption 10). -/
opaque Config.pufSeed : List Byte → Nat

/-- R557: the part of the alias certificate that the manual does not give: version, serial number, names and validity, in DER
(assumption 10). -/
opaque Config.certHead : List Byte

/-- R557: the object identifiers of the SVN and the MVER extension, in DER (assumption 10). -/
opaque Config.svnOid : List Byte
opaque Config.mverOid : List Byte

/-- R557, R560: the nonce of an ECDSA signature, the signer's own: private scalar, message, a count (assumption 10). -/
opaque Config.signNonce : Nat → List Byte → Nat → Nat

/-- R560: the module's random part of an SPDM response (assumption 10). -/
opaque Config.nonce : Nat → List Byte

/-- R490: which of the retryable and request-ended codes of R497 a LOAD or HOST_COPY into the slot that holds the newest sealed point ends
with, by place among the five that leave the slot as it is (assumption 14). -/
opaque Config.openStatus : Nat → Fin 5

/-- R420: the quantiser of a row when TARGET is zero, before it is clamped: bits used, row (assumption 13). -/
opaque Config.openQuant : Nat → Nat → Nat

/-! ### Coding standards (R385, R400, R417, R418): H.264, H.265, AV1 and JPEG fix these (assumption 12) -/

/-- The samples of a decoded picture after its cropping window: size, bits per sample, chroma (0 none, 1 4:2:0, 2 4:2:2, 3 4:4:4), and
the codes of the three planes, row by row. -/
structure Planes where
  pw : Nat
  ph : Nat
  depth : Nat
  chroma : Nat
  luma : List Nat
  cb : List Nat
  cr : List Nat
  deriving DecidableEq, Repr, Inhabited

/-- A sequence header as the standard parses it: where it starts, the size it claims after its cropping window, bits per sample, chroma
as in `Planes`, its reference count, its profile by place in the row of its codec in R383 (other profiles lie past the row), its level in
tenths, whether the standard allows the size at that level, and whether it declares one of the other features that R384 names. -/
structure SeqHeader where
  off : Nat
  pw : Nat
  ph : Nat
  depth : Nat
  chroma : Nat
  refs : Nat
  profile : Nat
  level : Nat
  inLevel : Bool
  feature : Bool
  deriving DecidableEq, Repr, Inhabited

/-- A damaged unit: its first block, by place in decode order, and its first reference, by its place among the picture's references,
when its header was read and that reference exists. -/
structure Damage where
  first : Nat
  ref : Option Nat
  deriving DecidableEq, Repr, Inhabited

/-- A decoded picture: its samples, its blocks in decode order as rectangles (x, y, w, h) of luma samples, the places among them of the
boundaries of R400 at which decoding restarts, and its damaged units. -/
structure Decoded where
  planes : Planes
  blocks : List (Nat × Nat × Nat × Nat)
  starts : List Nat
  damage : List Damage
  deriving DecidableEq, Repr, Inhabited

/-- R401: size and depth of the mid-grey picture of a stream whose coded bytes hold no sequence header, which the manual does not give
(assumption 12): codec, bytes. -/
opaque Config.openHeader : Nat → List Byte → SeqHeader

/-- R384, R399: the sequence headers a parse of coded bytes meets, by codec (R390). -/
opaque Config.seqHeaders : Nat → List Byte → List SeqHeader

/-- R401: the references of the last of these access units, by place among the earlier units; none was never received. -/
opaque Config.unitRefs : Nat → List (List Byte) → List (Option Nat)

/-- R385, R400: the last of these access units decoded with its references, without film grain: none when it cannot be decoded at all. -/
opaque Config.decodeUnit : Nat → List (List Byte) → List Planes → Option Decoded

/-- R418: the sample of a 10-bit plane at a position in quarter samples, by the interpolation filters of the encoder's codec (0 H.265,
1 AV1): codec, plane, width, height, x, y. -/
opaque Config.subSample : Nat → List Nat → Nat → Nat → Int → Int → Nat

/-- R418, R421: the vector, in quarter samples, of the skip prediction of the 16 × 16 block at (x, y): merge candidate 0, or GLOBALMV, from
the choices of the blocks before it: 0 skip, 1 a vector, 2 DC intra. -/
opaque Config.skipVector : Nat → List (Nat × Int × Int) → Nat → Nat → Int × Int

/-- R418: the luma sample (dx, dy) of the DC intra prediction of the block at (x, y): codec, picture, reference, choices of the blocks
before it, (x, y), (dx, dy). -/
opaque Config.dcSample : Nat → Planes → Planes → List (Nat × Int × Int) → Nat × Nat → Nat × Nat → Nat

/-- R417: a parameter set of a stream: codec, width, height, and which: NAL units VPS, SPS and PPS without start codes, or the sequence
header OBU. -/
opaque Config.paramUnit : Nat → Nat → Nat → Nat → List Byte

/-- R417: the header units of picture `f` other than its parameter sets: codec, width, height, f; none or some in H.265, the frame header
OBU in AV1. -/
opaque Config.pictureUnit : Nat → Nat → Nat → Nat → List Byte

/-- R418: the residual coefficients of a row, each in units of its quantiser step as a numerator and a denominator less 1, and whether its
block is intra: codec, quantiser, picture, reference, choices of the rows before and of the row, r. -/
opaque Config.rowCoeffs : Nat → Nat → Planes → Planes → List (Nat × Int × Int) → List (Nat × Int × Int) → Nat → List (Bool × Int × Nat)

/-- R417, R421: row `r` as one slice NAL unit without its start code, or as one tile group OBU of one tile: codec, intra picture, quantiser
and fixed manner, choices of the rows before and of the row, its quantised levels, r. -/
opaque Config.rowUnit : Nat → Bool → Nat × Bool → List (Nat × Int × Int) → List (Nat × Int × Int) → List Int → Nat → List Byte

/-- R417, R419: the reconstruction of a picture after its in-loop filters: codec, picture, reference, and per row the quantiser, the fixed
manner and the choices. -/
opaque Config.reconstruct : Nat → Planes → Planes → List (Nat × Bool × List (Nat × Int × Int)) → Planes

end Sys2Proof
end

