-- ==== Sys2Proof/Machine/State.lean ====
section
/-! DEFINITION. The state of the module, as plain data: every register, memory, queue, table, sequencer and pin the manual
gives it, and the reasons a step can stop. Each field's docstring names the rule that gives it, its width and its reset value. -/

namespace Sys2Proof.Machine

/-- A sparse map in canonical form: keys strictly rising, no entry equal to what an unlisted key reads as. -/
abbrev SMap (α : Type) := List (Nat × α)

/-- A sparse byte memory; an unlisted address reads as 0 (R353 for HBM; for the on-die memories see assumption 6). -/
abbrev Memory := SMap Byte

/-- Why the machine stops with a fault. No command of this model raises one: every rule of the manual that describes an error
gives it an effect on State (a course status, a completion status, a FLT_STATUS bit). Safe: it is never raised. -/
inductive Fault where
  /-- Raised by nobody; the closed type needs one constructor. Safe. -/
  | none
  deriving DecidableEq, Repr

/-- Why a command has no meaning in the model. -/
inductive Refusal where
  /-- Raised by an arm of exec whose command is not modelled yet, with its mnemonic. Safe: nothing is claimed of it. -/
  | notModelled (mnemonic : String)
  deriving DecidableEq, Repr

/-! ### Host attachment -/

/-- A descriptor the module has read and not yet completed (R110, R114). -/
structure Req where
  /-- R113: the ring it was read from. -/
  ring : Nat
  /-- R110: its eight 64-bit words. -/
  words : List W64
  /-- the command of its opcode has been carried out; before, it has only been read. -/
  started : Bool
  deriving DecidableEq, Repr

/-- A completion record's variable content (R113). -/
structure CRec where
  ring : Nat
  status : Nat
  seq : Nat
  tag : Nat
  opcode : Nat
  detail : Nat
  deriving DecidableEq, Repr

/-- What a ring holds beside its registers (R114, R119 to R125, R140). -/
structure Ring where
  /-- R120: last_seq, 16 bits; 0xFFFF after enable. -/
  lastSeq : Nat
  /-- R119: cq_head, 16 bits; 0 after enable. -/
  cqHead : Nat
  /-- R114, R119: records posted less records consumed. -/
  unconsumed : Nat
  /-- R121: exp_phase; 1 after enable. -/
  expPhase : Bool
  /-- R113: PHASE of the next record; 1 after enable. -/
  cqPhase : Bool
  /-- R121: stale reads of the descriptor at SQ_HEAD. -/
  tries : Nat
  /-- R114, R124: descriptors read and not completed, in the order read. -/
  outstanding : List Req
  /-- R116, R387: records that fell due and wait for an earlier record of the ring. -/
  waitingRecs : List CRec
  /-- R140: records posted and not yet signalled. -/
  unsignalled : Nat
  /-- R122: the ring was ended with 0x59. -/
  cqDead : Bool
  /-- R117, R118: the last accepted submission doorbell, read back by R10. -/
  sqDoorbell : W64
  /-- R117, R119: the last accepted completion-head doorbell, read back by R10. -/
  cqDoorbell : W64
  /-- R116, R122: the record of the ring's own end, while it waits for the records of earlier requests. -/
  endRec : Option CRec
  /-- R140: records that the ring's last interrupt signalled. -/
  batch : Nat
  deriving DecidableEq, Repr

/-- R123: a ring with every pointer at 0, last_seq 0xFFFF, both phases 1. -/
def Ring.fresh : Ring :=
  ⟨0xFFFF, 0, 0, true, true, 0, [], [], 0, false, 0, 0, none, 0⟩

/-- R123, R124: a ring whose pointers reset; records already posted are still to be signalled (R140). -/
def Ring.restart (x : Ring) : Ring :=
  { Ring.fresh with unsignalled := x.unsignalled, batch := x.batch, sqDoorbell := x.sqDoorbell, cqDoorbell := x.cqDoorbell }

/-- One write of the module to host memory, at a host physical or aperture address, in the order sent (R115). -/
structure HostWrite where
  addr : Nat
  bytes : List Byte
  deriving DecidableEq, Repr

/-- Requests of the coherence protocol that the module sends (R88, R93, R95, R98, R108, R115, R121). The manual names no kind for a device
access that reaches a shared page through the host, so those two have a name of the model's own (assumption 61). -/
inductive CxlKind where
  | rdCurr | itoMWr | wrCur | rdShared | rdOwn | rdOwnNoData | sharedRead | sharedWrite
  /-- R98: a back-invalidate snoop. -/
  | backInvalidate
  deriving DecidableEq, Repr

/-- A run of lines of 64 bytes that one kind of request names: host lines, or for RdOwnNoData, the shared kinds and back-invalidates lines of
the window. -/
structure CxlReq where
  kind : CxlKind
  line : Nat
  count : Nat
  deriving DecidableEq, Repr

/-- A line in the host-line cache (R98, R108): its host line, and its 64 bytes, as far as the module has had or written them, each with
whether it is dirty. -/
structure HostLine where
  line : Nat
  data : List (Option (Byte × Bool))
  deriving DecidableEq, Repr

/-- The gate of a quiesce target (R129). -/
inductive Gate where
  | opened | draining | off
  deriving DecidableEq, Repr

/-- A unit that can be quiesced (R128 to R131). -/
structure Target where
  /-- R129: the gate; open at reset. -/
  gate : Gate
  /-- R130: the generation, 2 bits; 0 at reset. -/
  gen : Nat
  /-- R129, R130: tags of the requests accepted and not replied to. -/
  tags : List Nat
  /-- R130: tags invalidated by an abort. -/
  dead : List Nat
  /-- R131, R132: quiesces that run or wait, in order of arrival: the request (none for HIF_FUNC_EN), its action, started. -/
  queue : List (Option Req × Nat × Bool)
  deriving DecidableEq, Repr

def Target.fresh : Target := ⟨.opened, 0, [], [], []⟩

/-- A BIAS_SET or APT_INVAL in progress (R95, R106). -/
structure RangeJob where
  req : Req
  first : Nat
  count : Nat
  bias : Bool
  /-- R95, R138: pages that it has flipped to shared and that no host access has touched since. -/
  flipped : List Nat
  deriving DecidableEq, Repr

/-! ### Beat, courses, admission -/

/-- The beat lock (R47 to R54). -/
structure Beat where
  /-- R48: times in ps of the latest edges counted toward lock, newest first, at most 8. -/
  edges : List Nat
  /-- R48, R66: the sum of the seven intervals in ps of the lock; the locked period is a seventh of it. 0: never locked. -/
  period7 : Nat
  /-- R50: time in sevenths of a ps of the last accepted edge, or of the edge projected in its place. -/
  lastEdge : Nat
  /-- R52: consecutive expected edges missing or discarded. -/
  missed : Nat
  /-- R52, R53: holdover beats made since holdover began. -/
  holdBeats : Nat
  /-- R54: internal beats are being pulled into phase with the returned edges. -/
  pulling : Bool
  /-- R49, R57: time in ns of the last ridge. -/
  ridgeAt : Nat
  deriving DecidableEq, Repr

/-- The header of a course image as admission read it (R62, R63). -/
structure Image where
  idx : Nat
  seed : Nat
  beats : Nat
  stepFirst : Bool
  stepLast : Bool
  epoch : Nat
  progAddr : Nat
  ttIdx : Nat
  recipeIdx : Nat
  envIdx : Nat
  footprint : Nat
  /-- R68: start and deadline of each phase in ns from the opening ridge. -/
  starts : List Nat
  deadlines : List Nat
  /-- R63, R73: the cost table counts host bytes. -/
  hostBytes : Bool
  /-- R63, R537: POWER_W of each phase. -/
  power : List Nat
  deriving DecidableEq, Repr

/-- R67: what the step check asks of the course admitted just before. -/
structure PrevCourse where
  stepLast : Bool
  /-- it ended without completing. -/
  endedBad : Bool
  deriving DecidableEq, Repr

/-- An admitted course waiting for its window (R64). -/
structure Adm where
  req : Req
  img : Image
  /-- R64: the earliest ns at which its opening ridge may lie. -/
  notBefore : Nat
  /-- R67, R69: the course admitted just before it. -/
  pred : Option PrevCourse
  deriving DecidableEq, Repr

/-- Progress of one slot entry of the running course's timetable (R444 to R449). -/
structure SlotSt where
  started : Bool
  /-- R445: a receive entry has accepted its header. -/
  header : Bool
  /-- R445: payload bytes the accepted header announces. -/
  expect : Nat
  completed : Bool
  deriving DecidableEq, Repr

def SlotSt.fresh : SlotSt := ⟨false, false, 0, false⟩

/-- A decision of the placement planner (R364). -/
inductive Decision where
  | keep | host | peer | discard
  deriving DecidableEq, Repr

/-- What the module holds about one save point of the running step (R358 to R373). -/
structure SavePt where
  /-- R361: extent start in the save window, bytes. -/
  off : Nat
  /-- R361: extent length, bytes. -/
  len : Nat
  allow : Nat
  dec : Decision
  /-- R364: pool offset and size of its slot, bytes. -/
  slot : Nat
  size : Nat
  /-- R365: POOL_BASE and PEER_BASE of the plan that decided it: a later swap does not move it (R380). -/
  pool : Nat
  peer : Nat
  pred : Nat
  /-- R368: stored length, bytes; 0 when nothing was stored. -/
  stored : Nat
  /-- R373: a far write of its store failed. -/
  lost : Bool
  /-- R378: outcome, the highest over rafters; 5 not reloaded. -/
  outcome : Nat
  deriving DecidableEq, Repr

/-- Watch counters of one tensor identity in the course (R224, R226), 40 bits each. -/
structure Watch where
  elems : Nat
  zeros : Nat
  sat : Nat
  nonfin : Nat
  deriving DecidableEq, Repr

def Watch.zero : Watch := ⟨0, 0, 0, 0⟩

/-- The running course (R55, R56). -/
structure Course where
  req : Req
  img : Image
  /-- R55: beats of the window still to come, the closing one included. -/
  beatsLeft : Nat
  /-- R59: course counter it runs at. -/
  counter : Nat
  /-- R56: the ridge interval has ended and no commit reserve has begun. -/
  working : Bool
  /-- R56: its commit reserve has begun. -/
  reserve : Bool
  /-- R74: it has failed; the rest of its window is idle. -/
  failed : Bool
  /-- R169: logical rafters with a program that have not issued END. -/
  running : List Nat
  /-- R132, R438: logical ports its timetable uses. -/
  ports : List Nat
  /-- R440: progress of each slot entry, in entry order. -/
  slots : List SlotSt
  /-- R457: positions whose vote is known, and RESULT. -/
  known : List Nat
  result : Bool
  /-- R454: count vectors known, by dispatch and rank. -/
  counts : List (Nat × Nat × List Nat)
  /-- R454: dispatches whose plan has been made. -/
  planned : List Nat
  /-- R227, R378: HBM traffic to host and peer by save accesses and weight fetches, bytes. -/
  hostMoved : Nat
  peerMoved : Nat
  /-- R364: ns in which a host (peer) save access or weight fetch was outstanding, up to now, and since when one is. -/
  hostBusy : Nat
  peerBusy : Nat
  hostSince : Option Nat
  peerSince : Option Nat
  /-- R364: rates the planner used, MB/s, and the pool in use after planning, bytes. -/
  rateH : Nat
  rateP : Nat
  poolUsed : Nat
  /-- R212: SCALE_EXP of every tensor identity at the opening ridge. -/
  scales : List Int
  /-- R218: the vote as it was sent, and whether a NONFIN count made it. -/
  sentVote : Option (Bool × Bool)
  /-- R453, R454: the routing list of a dispatch as it was counted: EXPERT and ROW of each entry. -/
  routes : List (Nat × List (Nat × Nat))
  /-- R458: a FAIL notice for it has been relayed. -/
  relayed : Bool
  deriving DecidableEq, Repr

/-! ### Rafters -/

/-- A matrix block (R143, R144, R178): rows in k, columns in n, element codes row by row, E2M1 scale codes per 32 rows. -/
structure Block where
  fmt : Nat
  split : Nat
  krows : Nat
  ncols : Nat
  elems : List (List W32)
  scales : List (List Byte)
  deriving DecidableEq, Repr

/-- The state of one accumulator tile (R155). -/
structure SlotState where
  shape : Nat
  mrows : Nat
  ncols : Nat
  next : Nat
  final : Bool
  deriving DecidableEq, Repr

/-- One statistics record (*Row and column statistics*, R162). -/
structure StatRec where
  /-- 32-bit count. -/
  count : Nat
  /-- 0 row, 1 column. -/
  dir : Nat
  s : List W32
  q : List W32
  mean : List W32
  var : List W32
  deriving DecidableEq, Repr

/-- A thatch table slot (R312). -/
structure TabSlot where
  fmt : Nat
  lens : List Nat
  deriving DecidableEq, Repr

/-- A resident sheaf (R232, R238, R244). -/
structure Sheaf where
  g : Nat
  pc : Nat
  /-- registers of thread i, `regs[i]`, 32 bits each. -/
  regs : List (List W32)
  active : List Bool
  /-- IF stack, newest first. -/
  stack : List (List Bool)
  /-- R518: register words stored with check bits inverted: thread, register, and whether all of them. -/
  bad : List (Nat × Nat × Bool)
  deriving DecidableEq, Repr

/-- R241: who has touched a byte of the rafter store in a kernel: its one thread (none: several), and whether it was written. -/
structure Touch where
  thread : Option Nat
  wrote : Bool
  deriving DecidableEq, Repr

/-- The kernel a rafter runs (R235, R236). -/
structure Kernel where
  rmark : Bool
  /-- R233: REGS code. -/
  regs : Nat
  /-- R235: SHEAFS: sheafs − 1. -/
  sheafs : Nat
  /-- R231: the program buffer: its thread instructions. -/
  code : List W64
  /-- R236: the 256 bytes of its parameter block. -/
  param : List Byte
  /-- R238: for each engine and quad, g mod 16, the next sheaf to become resident there. -/
  nextG : List Nat
  /-- R240: sheafs that have executed END. -/
  ended : Nat
  /-- R240: watch counters gathered, added when the kernel takes effect: identity, counters, largest AMAX. -/
  watch : List (Nat × Watch × W32)
  /-- word 0 of its VX.KERNEL, for SIG_EN when it takes effect. -/
  w0 : W64
  /-- R241: the rafter-store bytes its threads have touched. -/
  seen : SMap (Option Touch)
  deriving DecidableEq, Repr

/-- A contiguous piece of a streamer access after redirection (R164, R220, R358): tier, far byte address, length in bytes. -/
structure Piece where
  tier : Nat
  far : Nat
  len : Nat
  deriving DecidableEq, Repr

/-- A store whose lower-tier bytes are in flight: a downpipe store (R366, R367), or a normal store to a peer (R460). Bytes for a tier
on the module are written as the store issues. -/
structure Downpipe where
  /-- the save point, or none outside the save window. -/
  save : Option Nat
  /-- its lower-tier pieces, and their bytes in order. -/
  pieces : List Piece
  bytes : List Byte
  /-- SIG_EV of its instruction, when SIG_EN is set. -/
  sig : Option Nat
  /-- a normal-class store. -/
  normal : Bool
  /-- tag of its peer-aperture request; 0 none. -/
  tag : Nat
  deriving DecidableEq, Repr

/-- A load in flight or ended: a run-ahead load (R371, R373), a normal load from a peer (R460), or the refetch of a weight load from
its alternate source (R376). -/
structure RunAhead where
  /-- save point it reloads, if any. -/
  save : Option Nat
  /-- buffer: rafter-store byte address and length. -/
  near : Nat
  len : Nat
  /-- what it reads, in order. -/
  pieces : List Piece
  /-- R376: it lies in a weight source range, and the alternate source still to be tried. -/
  weight : Bool
  alt : Option Piece
  ended : Bool
  /-- it ended with all its bytes delivered. -/
  whole : Bool
  failed : Bool
  sig : Option Nat
  /-- a normal-class load. -/
  normal : Bool
  tag : Nat
  deriving DecidableEq, Repr

/-- A splice segment a rafter runs (R373). -/
structure Segment where
  returnPc : Nat
  addr : Nat
  len : Nat
  /-- instructions of it issued so far. -/
  done : Nat
  /-- R168, R373: its instructions that have been fetched, from its first on. -/
  buf : List (W64 × W64)
  deriving DecidableEq, Repr

/-- A KV.EDIT or KV.APPEND part of whose list has been carried out (R289 to R291, R295, R296). -/
structure KvJob where
  edit : Bool
  w0 : W64
  w1 : W64
  /-- the list entry it is at, and in an append the position within it. -/
  entry : Nat
  pos : Nat
  /-- R288: the entry has raised VER already. -/
  bumped : Bool
  deriving DecidableEq, Repr

/-- One logical rafter's own state (*Matrix Engine*, *Vector Engines*, *Thatch*). -/
structure Raft where
  /-- R170, R190: index of the next instruction of its program. -/
  pc : Nat
  /-- R587: instruction buffer: first index held and the 16-byte instructions. -/
  bufBase : Nat
  buf : List (W64 × W64)
  /-- R171: counters 0 to 11, 16 bits each. -/
  events : List Nat
  /-- R144: active and standby block. -/
  active : Option Block
  standby : Option Block
  /-- R155: tile state by first unit. -/
  slots : SMap (Option SlotState)
  /-- R162, R174: statistics records 0 to 15, none when unwritten. -/
  stats : SMap (Option StatRec)
  /-- R312: table slots 0 to 7 and their epochs (12 bits). -/
  tabs : SMap (Option TabSlot)
  tabEpochs : SMap Nat
  kernel : Option Kernel
  /-- R238: resident sheafs. -/
  sheafs : List Sheaf
  down : List Downpipe
  ahead : List RunAhead
  seg : Option Segment
  /-- R373: splice entries of the instruction at pc that have been handled. -/
  spliced : List Nat
  /-- R293: the walker this rafter runs: start version, sequences, word 0 of its AT.DEC. -/
  walker : Option (Nat × List Nat × W64)
  /-- R289, R295, R296: its KV.EDIT or KV.APPEND, when that waits. -/
  kvJob : Option KvJob
  deriving DecidableEq, Repr

def Raft.fresh : Raft :=
  ⟨0, 0, [], List.replicate 12 0, none, none, [], [], [], [], none, [], [], [], none, [], none, none⟩

/-- R328: a leggett failed a check: when, whether THC_ERR recorded it, the rafters as they stood, and those whose leggetts failed then. -/
structure Integ where
  at_ : Nat
  recorded : Bool
  rafts : SMap Raft
  lrs : List Nat
  deriving DecidableEq, Repr

/-- R185: a program error has failed the course: when, of which rafter, with which code, whether TRS_PROG_ERR of its die recorded it and
what that register held before (STATUS, LRAFT, PC, COURSE), and the rafters and running programs as they stood. -/
structure Fall where
  at_ : Nat
  lr : Nat
  code : Nat
  recorded : Bool
  old : Nat × Nat × Nat × Nat
  rafts : SMap Raft
  running : List Nat
  deriving DecidableEq, Repr

/-! ### Rollout cache -/

/-- State of a cache sequence (R287). -/
inductive SeqSt where
  | free | live | pendingReclaim
  deriving DecidableEq, Repr

/-- One sequence entry (R287). -/
structure KvSeq where
  st : SeqSt
  len : Nat
  nb : Nat
  wp : Bool
  /-- R295: blocks that have had a page since the sequence became live: their map entries are written. -/
  top : Nat
  deriving DecidableEq, Repr

def KvSeq.fresh : KvSeq := ⟨.free, 0, 0, false, 0⟩

/-- A page or a sequence waiting for reclaim (R296). -/
inductive Pend where
  | page (n : Nat) | seq (q : Nat)
  deriving DecidableEq, Repr

/-- The cache's configuration, from its descriptor (R285). -/
structure KvConf where
  poolBase : Nat
  pages : Nat
  mapBase : Nat
  refBase : Nat
  logBase : Nat
  fmt : Nat
  dcode : Nat
  hkv : Nat
  layers : Nat
  maxBlocks : Nat
  tidK : Nat
  tidV : Nat
  deriving DecidableEq, Repr

/-- The cache tables on H (R285 to R298); the block maps and the page counts lie in HBM, at MAP_BASE and REF_BASE. -/
structure KvTabs where
  conf : Option KvConf
  seqs : SMap KvSeq
  /-- R296: pages never handed out start here; pages below it that are free. -/
  nextPage : Nat
  freed : List Nat
  pend : List (Pend × Nat)
  /-- R288: VER, 48 bits. -/
  ver : Nat
  deriving DecidableEq, Repr

def KvTabs.fresh : KvTabs := ⟨none, [], 0, [], [], 0⟩

/-! ### HBM -/

/-- A migration under the dual map (R350). -/
structure Mig where
  stack : Nat
  /-- logical channel whose data moves. -/
  lch : Nat
  /-- old physical channel. -/
  src : Nat
  /-- spare, or none for a map-out. -/
  dst : Option Nat
  /-- R334: map-out number j; 0 for a spare. -/
  seq : Nat
  /-- the source is dead: targets are written poisoned. -/
  dead : Bool
  deriving DecidableEq, Repr

/-! ### Media -/

/-- A media job that runs (R386, R408). -/
structure MJob where
  req : Req
  encode : Bool
  /-- samples committed and substituted. -/
  committed : Nat
  subst : Nat
  /-- R412: faults of the streams of the next samples: 16 × sample + stream, and the count; R423: faults of the picture in work. -/
  restarts : List (Nat × Nat)
  /-- R404: an access has failed once, and its retry is due. -/
  retried : Bool
  /-- R423: the encode pipeline that has an encode job's pictures. -/
  pipe : Nat
  /-- R412: the logical pipelines that restarted streams of the next samples are on: 16 × sample + stream, pipeline. -/
  pipes : List (Nat × Nat)
  /-- R138, R506: the HBM bytes that the job has replaced, newest first: what is put back when nothing of it is to take effect. -/
  undo : List (Nat × List Byte)
  deriving DecidableEq, Repr

/-- A camera stream holding or waiting for picture buffers (R403): ring of its job, sample, stream, pages of 4 KiB. -/
structure BufClaim where
  ring : Nat
  sample : Nat
  stream : Nat
  pages : Nat
  granted : Bool
  /-- R129: the logical decode pipeline that decodes it. -/
  pipe : Nat
  deriving DecidableEq, Repr

/-! ### Links -/

/-- A flit that is to be sent (R430, R431): type, NAK, payload. -/
structure FlitReq where
  ftype : Nat
  nak : Bool
  payload : List Byte
  deriving DecidableEq, Repr

/-- One flit as sent (R428, R429): the logical lane it is dealt to, type, sequence number, acknowledgement, NAK, whether its CRC was inverted by
an injection (R518), 200 payload bytes. -/
structure Flit where
  lane : Nat
  ftype : Nat
  fseq : Nat
  ack : Nat
  nak : Bool
  badCrc : Bool
  payload : List Byte
  deriving DecidableEq, Repr

/-- One port's link state beside its registers (R430 to R438). -/
structure Port where
  /-- R429: FSEQ of the next flit sent, 12 bits. -/
  txSeq : Nat
  /-- R429: FSEQ of the last flit accepted in order, 12 bits; 4095 before the first. -/
  rxSeq : Nat
  /-- R430: flits sent and not acknowledged, oldest first, with their replay counts; at most 2,048. -/
  replay : List (Flit × Nat)
  /-- R430, R431: flits that wait for room in the replay buffer, in the order they will be sent. -/
  wait : List FlitReq
  /-- R428: the logical lane that the next flit is dealt to. -/
  lane : Nat
  /-- R434: bring-up failures since bring-up was asked for. -/
  fails : Nat
  /-- R433, R434, R436: 0 nothing runs, 1 bring-up to step 5, 6 HELLO done, 7 brought up and waiting for its ridge, 8 a lane repair. -/
  step : Nat
  /-- R435: physical lanes either end marks failed. -/
  failed : List Nat
  /-- R436: version and ridge beat numbers of LANE_PROPOSE sent and received. -/
  sent : Option (Nat × Nat)
  recv : Option (Nat × Nat)
  /-- R436: counter values at the opening ridge, by lane: UCW, CSYM. -/
  base : SMap (Nat × Nat)
  /-- R436: lane maps applied by repairs: the version the port announces. -/
  mapVer : Nat
  /-- R31, R434, R435: the lane map adopted in bring-up waits for a ridge to be committed, and the failed lanes it was adopted with. -/
  mapDue : Bool
  adopted : List Nat
  /-- R444: slot entry whose transfer is being sent. -/
  tx : Option Nat
  deriving DecidableEq, Repr

def Port.fresh : Port := ⟨0, 4095, [], [], 0, 0, 0, [], none, none, [], 0, false, [], none⟩

/-- A peer-aperture message this module sends (R460): a request of its own, or the reply to a request served or refused. -/
inductive PeerMsg where
  | load (tag pos addr len : Nat)
  | store (tag pos addr : Nat) (bytes : List Byte)
  | served (port : Nat) (bytes : List Byte)
  | refused (port : Nat)
  deriving DecidableEq, Repr

/-! ### Survival -/

/-- The restore point being built (R470 to R473): own slot, COURSE, ns of the opening ridge, the SEED, LOGPOS and PAR of that ridge, and
the recipe. -/
structure Build where
  slot : Nat
  course : Nat
  start : Nat
  seed : W64
  logpos : Nat
  par : Nat
  recipe : Nat
  /-- R472: block 1 holds the loss. -/
  loss : Bool
  /-- R496: a read was uncorrectable. -/
  bad : Bool
  deriving DecidableEq, Repr

/-- A point being received into a slot (R484, R487). -/
structure Fill where
  area : Nat
  slot : Nat
  course : Nat
  /-- R484: base point of a delta; none for full. -/
  base : Option Nat
  /-- blocks present, sorted. -/
  blocks : List Nat
  push : Bool
  /-- R495: its source has failed. -/
  lost : Bool
  deriving DecidableEq, Repr

/-- A flash snapshot image (R491). -/
structure FlashImage where
  course : Nat
  pages : Nat
  bytes : Memory
  deriving DecidableEq, Repr

/-- A SNAPSHOT or HOST_COPY in progress (R490). -/
structure SvlOp where
  req : Option Req
  /-- 0 SAVE, 1 LOAD, 2 RESTORE, 3 copy to host, 4 copy from host. -/
  kind : Nat
  area : Nat
  slot : Nat
  course : Nat
  /-- R489: host-aperture address and room. -/
  addr : Nat
  room : Nat
  /-- STATE and COURSE of the slot before. -/
  prev : Nat × Nat
  deriving DecidableEq, Repr

/-! ### Gutters -/

/-- A word in a gutter: value, poison tag, stored parity bit (R503), and the request it belongs to, by ring and SEQ (R506); none for a
request of a course. -/
structure GWord where
  val : W64
  poison : Bool
  parity : Bool
  owner : Option (Nat × Nat)
  deriving DecidableEq, Repr

/-- The latest read of a gutter (R501, R507, R508): its ns, the request its word belonged to, the word returned and its poison tag, and
lastval as it stood before. -/
structure GutRead where
  at_ : Nat
  owner : Option (Nat × Nat)
  word : W64
  poison : Bool
  before : W64
  deriving DecidableEq, Repr

/-- A gutter (R501 to R509). -/
structure Gutter where
  bank0 : List GWord
  bank1 : List GWord
  closed0 : Bool
  closed1 : Bool
  /-- bank the producer fills: false 0, true 1. -/
  f : Bool
  /-- bank the consumer reads. -/
  r : Option Bool
  lastval : W64
  /-- R502: ns at which the stale-tail timer was started last. -/
  timer : Nat
  /-- R508: the latest read. -/
  got : Option GutRead
  /-- R505, R508: ns of the latest pointer mismatch. -/
  resetAt : Option Nat
  deriving DecidableEq, Repr

def Gutter.fresh : Gutter := ⟨[], [], false, false, false, none, 0, 0, none, none⟩

/-! ### Parapet, power, boot -/

/-- Step of the power-on sequence reached (R578). -/
inductive PwrStep where
  /-- J1 off, or below 40 V. -/
  | off
  /-- step 1: the standby converter starts. -/
  | standby
  /-- step 2: the parapet runs. -/
  | parapet
  /-- steps 3 and 4: self-test passed; conditions awaited. -/
  | wait
  /-- R579: a rail failed; 100 ms pass before step 4. -/
  | retry
  /-- step 5: the main rails are sequenced. -/
  | rails
  /-- step 6: every rail is good, and the PLLs lock. -/
  | plls
  /-- step 7: power good. -/
  | good
  deriving DecidableEq, Repr

/-- Power, pins and sensors (R539, R571 to R582). -/
structure Power where
  step : PwrStep
  /-- R575, R578, R579: J1 lies within its range. -/
  j1Ok : Bool
  /-- R577, R578, R582: REF25 is present and within 200 ppm, as it was compared last. -/
  refOk : Bool
  /-- R579: rail failures in the present sequence. -/
  fails : Nat
  /-- R540: truss and HBM rails up; hub rails up. -/
  coreRails : Bool
  hubRails : Bool
  /-- pin MODRST_N, high when true. -/
  modrstN : Bool
  /-- R581: pin THERMTRIP_N, high when true. -/
  thermtripN : Bool
  /-- R91: CLKREQ_N driven low. -/
  clkreqLow : Bool
  /-- R573: strap pins as they stand. -/
  pinPwrdom : Nat
  pinSlot : Nat
  /-- R544: the oscillator-stop detector fired while J1 was unpowered. -/
  oscStopped : Bool
  /-- R540: the fatal source whose reaction lasts until module reset: the first, or the first that takes rails away. -/
  fatal : Option Nat
  /-- R581: a module reset has followed the fall of THERMTRIP_N. -/
  tripReset : Bool
  /-- R582: ns at which the last module reset started. -/
  resetAt : Nat
  /-- R533, R532: F in hundredths of a watt. -/
  floorCw : Nat
  /-- R532: ns at which the last course window closed. -/
  windowClosedAt : Nat
  /-- R534: arithmetic clock lowered by this many sixteenths. -/
  clockSteps : Nat
  /-- R537: trim in 1/320 L/min. -/
  trim : Int
  /-- R538: causes holding now, as sent by COOLANT_CONDITION. -/
  coolCauses : List Nat
  /-- R531: READY has been reported and the floor runs. -/
  floorOn : Bool
  deriving DecidableEq, Repr

/-- An owner key entry (R558), without its fixed MARK and reserved bytes. -/
structure KeyEntry where
  index : Nat
  auth : Nat
  signer : Nat
  kseq : Nat
  idhash : Nat
  key : List Byte
  sig : List Byte
  deriving DecidableEq, Repr

/-- What flash holds (R488 to R491, R530, R549, R553, R556, R558). -/
structure Flash where
  /-- R556: helper data of the fuzzy extractor, none when absent. -/
  helper : Option (List Byte)
  /-- R549: the manifest object. -/
  manifest : Option (List Byte)
  /-- R553: cache slots: object and whether the slot is marked valid. -/
  cache0 : Option (List Byte × Bool)
  cache1 : Option (List Byte × Bool)
  /-- R491: snapshot images, oldest first. -/
  images : List FlashImage
  /-- R558, R559: live owner keys and the store's sequence. -/
  keys : List KeyEntry
  kseq : Nat
  /-- R530: accepted parapet SEQ. -/
  cmdSeq : Nat
  /-- R557: certificates of levels 0 to 2. -/
  certs : List (List Byte)
  deriving DecidableEq, Repr

/-- Boot state on H (R550 to R557). -/
structure Boot where
  /-- R552: the offer window is open. -/
  window : Bool
  /-- R552: the window has no limit. -/
  unlimited : Bool
  /-- R552: an offer is being read: 2 host, 3 management port. -/
  reading : Option Nat
  /-- R554: error 0x01 has stopped boot in stage 0x1. -/
  idFail : Bool
  /-- R555: a manifest is being written to flash, and what flash held before. -/
  manOld : Option (Option (List Byte))
  /-- R550: the image chosen to run. -/
  chosen : Option (List Byte)
  /-- R550: the manifest in force. -/
  manifest : Option (List Byte)
  /-- R556: seed, 48 bytes; held in stages 0x1 to 0x7. -/
  seed : List Byte
  /-- R557: identity private key present. -/
  idKey : Bool
  /-- R557: alias private key in H's memory. -/
  alias_ : List Byte
  aliasCert : List Byte
  /-- R553: cache slot being written. -/
  cacheWrite : Option Nat
  /-- R550: control has passed to Bolyel. -/
  bolyel : Bool
  /-- R564: ns at which the last restart of Bolyel by the watchdog is complete. -/
  bolyelBack : Nat
  /-- R565: consecutive offsets within 1 µs. -/
  ptpGood : Nat
  /-- R565: ns by which the time base is behind (negative: ahead), still to be slewed away. -/
  slew : Int
  /-- R565: ns at which a PPS edge came last. -/
  ppsAt : Option Nat
  deriving DecidableEq, Repr

/-- A message the module sends on a management interface (R516, R560, R562, R563). -/
inductive MgmtMsg where
  | spdm (code : Nat) (body : List Byte)
  | spdmError (code : Nat)
  | platformEvent (bitNo : Nat)
  | pldm (answer : Nat)
  | parapet (opcode result : Nat)
  | keyEdit (done : Bool)
  deriving DecidableEq, Repr

/-! ### The module -/

/-- The state of one DZ80 module. -/
structure State where
  /-- Commands waiting, first in first out. Reset: empty. -/
  pending : List Instr
  /-- R586: ns of the reference clock since the state right after reset (the model's clock). Reset: 0. -/
  now : Nat
  /-- R586: module time base, 64 bits, read in CRS_TIME. Reset: 0. -/
  timeBase : Nat
  /-- R543: the calendar clock, ns since 1970-01-01 TAI; PPT_CAL reports it. Reset: 0, kept across module reset. -/
  calNs : Nat
  /-- R6: the set-up registers field by field, keyed as `Fld.key`; an unlisted field holds its reset value. Reset: empty. -/
  regs : SMap Nat
  /-- R107 to R126: rings 0 to 1,023. Reset: all fresh. -/
  rings : SMap Ring
  /-- R93 to R97: shared pages of the window, rising. Reset: none shared. -/
  shared : List Nat
  /-- R95: BIAS_SETs in progress. Reset: none. -/
  biasJobs : List RangeJob
  /-- R106: the aperture translation cache, entry index and word, oldest first, at most 4,096. Reset: empty. -/
  aptCache : List (Nat × W64)
  /-- R106: APT_INVALs in progress. Reset: none. -/
  aptJobs : List RangeJob
  /-- R98, R108: lines in the 4 MiB host-line cache, the longest unused first. Reset: none. -/
  hostLines : List HostLine
  /-- R98: lines of the window that the host may hold, rising. Reset: none. -/
  winLines : List Nat
  /-- R88, R93, R95, R98, R108: requests of the coherence protocol sent, oldest first. Reset: none. -/
  cxlOut : List CxlReq
  /-- R109: the ring of each class that was read last. Reset: 1,023, so that ring 0 comes first. -/
  lastRead : SMap Nat
  /-- R101: window base in force, GiB. Reset: 0. -/
  hdmBase : Nat
  /-- R133: ns at which the link left L0. Reset: none. -/
  l0Left : Option Nat
  /-- R134: a self-reset is due. Reset: false. -/
  selfReset : Bool
  /-- R135: rings are suspended. Reset: false. -/
  suspended : Bool
  /-- R135: records held over host loss, oldest first, at most 1,024. Reset: none. -/
  heldRecs : List CRec
  /-- R128 to R131: quiesce targets by code. Reset: all open, generation 0. -/
  targets : SMap Target
  /-- R115, R164: writes the module has sent to host memory, oldest first. Reset: none. -/
  hostOut : List HostWrite
  /-- R94, R104: data returned to the host for reads of the window, oldest first, with their poison. Reset: none. -/
  hostReads : List (List Byte × Bool)
  /-- R140: MSI-X vectors signalled, oldest first. Reset: none. -/
  msiOut : List Nat
  /-- R48 to R54. Reset: unlocked, nothing seen. -/
  beat : Beat
  /-- R82: ns at which SWAP_PEND was set. Reset: 0. -/
  swapAt : Nat
  /-- R64: admitted courses waiting, at most 4. Reset: none. -/
  waiting : List Adm
  /-- R67: the course admitted last. Reset: none. -/
  prev : Option PrevCourse
  /-- R55: the course whose window is open. Reset: none. -/
  course : Option Course
  /-- R298: a resume waits for the rollback to end. Reset: false. -/
  resumePend : Bool
  /-- R224: watch counters of the running course by identity. Reset: none. -/
  watch : SMap Watch
  /-- R213: largest AMAX (FP32) of the step by identity; listed exactly when the seen flag is set. Reset: none. -/
  amax : SMap (Option W32)
  /-- R216: the module's vote of the step, and whether a non-finite value caused it. Reset: 0. -/
  stepVote : Bool
  stepNonfin : Bool
  /-- R249: seed of the step before its first course, restored when the step fails. Reset: 0. -/
  seedBefore : W64
  /-- R143 to R373: the 32 logical rafters. Reset: all fresh. -/
  rafts : SMap Raft
  /-- R171: counters 12 and 13 of each truss die, keyed 2n + e. Reset: 0. -/
  dieEvents : SMap Nat
  /-- R171: counters 14 and 15. Reset: 0. -/
  modEvents : SMap Nat
  /-- R24: rafter stores, 24 MiB each, keyed lr × 0x180_0000 + address. Reset: nothing listed. -/
  rstore : Memory
  /-- R174: 4 KiB blocks of rafter stores written in the course, keyed lr × 6,144 + block. Reset: none. -/
  rsWritten : List Nat
  /-- R24: lofts, 64 MiB each, keyed die × 0x400_0000 + address. Reset: nothing listed. -/
  loft : Memory
  /-- R174: 4 KiB blocks of lofts written in the course, keyed die × 16,384 + block. Reset: none. -/
  loftWritten : List Nat
  /-- R154: accumulator memory words, keyed lr × 2,097,152 + word; a tile's element (r, c) is word unit × 65,536 + r × N + c. Reset: none listed. -/
  acc : SMap W32
  /-- R24: HBM by logical address. Reset: all zero, R353. -/
  hbm : Memory
  /-- R341: poisoned 64-byte sectors, rising. Reset: none. -/
  poison : List Nat
  /-- R340, R345: symbols in error of a stored sector. Reset: none. -/
  symErr : SMap Nat
  /-- R334: LAM[1], LAM[2], … in order. Reset: none. -/
  lam : List Nat
  /-- R350: migrations. Reset: none. -/
  migs : List Mig
  /-- R344, R347: physical channels (34s + p) that are retrain-pending. Reset: none. -/
  retrainPend : List Nat
  /-- R347: physical channels being retrained now. Reset: none. -/
  retraining : List Nat
  /-- R348: outcomes of the retrains that have ended in the repair window, by physical channel: 0 pass, 1 marginal, 2 dead. Reset: none. -/
  retrained : List (Nat × Nat)
  /-- R341, R352: physical channels found dead outside a repair window. Reset: none. -/
  deadChans : List Nat
  /-- R328: the last integrity failure of a leggett, for those that fail in the same cycle. Reset: none. -/
  integ : Option Integ
  /-- R185: the program error that set the status of the course last failed by one, for those of the same cycle. Reset: none. -/
  fell : Option Fall
  /-- R518: 64-bit words of rafter stores and words of accumulator memory stored with check bits inverted, and whether all of them. Reset:
  none. -/
  badStore : List (Nat × Bool)
  badAcc : List (Nat × Bool)
  /-- R348, R349: map-outs due at the next closing ridge, position and whether dead. Reset: none. -/
  mapOutDue : List (Nat × Bool)
  /-- R344: CE and CRC counts at the opening ridge by 34s + p. Reset: 0. -/
  chanBase : SMap (Nat × Nat)
  /-- R33, R335: stacks that have lost a seventeenth channel. Reset: none. -/
  hbmDegraded : List Nat
  /-- R285 to R298. Reset: not configured. -/
  kv : KvTabs
  /-- R298: the tables as at the opening ridge, and the HBM bytes since replaced, newest first: what the undo log restores. Reset: fresh,
  none. -/
  kvUndo : KvTabs
  kvUndoMem : List (Nat × List Byte)
  /-- R298: records of the undo log written in the course. Reset: 0. -/
  kvLog : Nat
  /-- R365: save points of the running step. Reset: none. -/
  saves : List SavePt
  /-- R365: save points of the step's earlier courses that the running course's envelope does not name. Reset: none. -/
  heldSaves : List SavePt
  /-- R365: pool bytes still held by the step. Reset: 0. -/
  poolHeld : Nat
  /-- R364: stored lengths by image index and ENV_IDX, most recent first, at most 16. Reset: none. -/
  predHist : List (Nat × Nat × List Nat)
  /-- R364: host and peer rate measured last, MB/s. Reset: none, and the plan's HOST_NOM and PEER_NOM stand in. -/
  rateH : Option Nat
  rateP : Option Nat
  /-- R386 to R414: media jobs in read order. Reset: none. -/
  jobs : List MJob
  /-- R413: DUE and status of needed jobs that have posted. Reset: none. -/
  jobsDone : List (Nat × Nat)
  /-- R403: picture buffers. Reset: none. -/
  bufs : List BufClaim
  /-- R433 to R438: ports. Reset: all fresh. -/
  ports : SMap Port
  /-- R431, R458: flits sent on a port: port, flit. Reset: none. -/
  flitOut : List (Nat × Flit)
  /-- R460: peer-aperture messages sent, oldest first. Reset: none. -/
  peerOut : List PeerMsg
  /-- R460: requests that wait for the next APERTURE slot to their target, oldest first. Reset: none. -/
  peerWait : List PeerMsg
  /-- R460: the tag of the last request. Reset: 0. -/
  peerTag : Nat
  /-- R183, R188, R267, R423, R542: reslating requests: kind (0 rafter, 1 vector, 2 decode), physical number, due at the next ridge. Reset: none. -/
  reslate : List (Nat × Nat × Bool)
  /-- R470: the point being built. Reset: none. -/
  build : Option Build
  /-- R484: points being received. Reset: none. -/
  fills : List Fill
  /-- R470: blocks of each own slot that differ from the other slot. Reset: none. -/
  changed0 : List Nat
  changed1 : List Nat
  /-- R470: steps completed, and their number when the step of the point in own slot 0 and 1 began. Reset: 0. -/
  stepsDone : Nat
  since0 : Nat
  since1 : Nat
  /-- R477: course counter at which the step in progress began. Reset: 0. -/
  stepCourse : Nat
  /-- R476: the recipe in force: that of the course opened last. Reset: 0. -/
  recipe : Nat
  /-- R483: acknowledgements of the partner and of the hot spare. Reset: 0. -/
  ackPartner : Nat
  ackHot : Nat
  /-- R483, R487: per receiver position: point sent and next block; push. Reset: none. -/
  cursors : List (Nat × Nat × Nat)
  pushCursor : Option (Nat × Nat)
  /-- R480: sources refused until SVL_PAIR or SVL_HOT is written. Reset: none. -/
  refusedSrc : List Nat
  /-- R482: sources of whose transfer a record was bad: the rest of it is discarded. Reset: none. -/
  sarkCut : List Nat
  /-- R482, R484: the source that filled partner slot 0 and 1. Reset: none. -/
  partSrc0 : Option Nat
  partSrc1 : Option Nat
  /-- R490: operations in progress. Reset: none. -/
  svlOps : List SvlOp
  /-- R477: area and slot of the restored point. Reset: none. -/
  verifySlot : Option (Nat × Nat)
  /-- R492: points sealed since SVL_CTRL was written. Reset: 0. -/
  flashCount : Nat
  /-- R501 to R509: gutters by identity. Reset: all fresh. -/
  gutters : SMap Gutter
  /-- R513: ns of the cycle in which vector 1,024 was last signalled. Reset: none. -/
  faultMsiAt : Option Nat
  /-- R519: the armed injection: CHECKER, MODE, UNIT. Reset: none. -/
  inj : Option (Nat × Nat × Nat)
  /-- R514: ns at which the open merge window opened. Reset: none. -/
  mergeAt : Option Nat
  /-- R571 to R582. Reset: step 2 done, J1 applied. -/
  power : Power
  /-- Flash contents. Reset: what manufacture puts there, the helper data (R556), the signed manifest with the spare map (R35) and the
  certificates of levels 0 to 2 (R557), and nothing else. -/
  flash : Flash
  boot : Boot
  /-- Messages sent on the management interfaces, oldest first. Reset: none. -/
  mgmtOut : List MgmtMsg
  /-- The model's own counter behind free values (opaque constants of Config). Reset: 0. -/
  freeCtr : Nat
  deriving DecidableEq, Repr

/-- The module right after reset: J1 applied, standby up, before step 3 of the power-on sequence (R580: "The sequence then
restarts at step 3"), every register at its reset value, nothing listed in any memory, no command waiting. -/
def State.reset : State where
  pending := []
  now := 0
  timeBase := 0
  calNs := 0
  regs := []
  rings := []
  shared := []
  biasJobs := []
  aptCache := []
  aptJobs := []
  hostLines := []
  winLines := []
  cxlOut := []
  lastRead := []
  hdmBase := 0
  l0Left := none
  selfReset := false
  suspended := false
  heldRecs := []
  targets := []
  hostOut := []
  hostReads := []
  msiOut := []
  beat := ⟨[], 0, 0, 0, 0, false, 0⟩
  swapAt := 0
  waiting := []
  prev := none
  course := none
  resumePend := false
  watch := []
  amax := []
  stepVote := false
  stepNonfin := false
  seedBefore := 0
  rafts := []
  dieEvents := []
  modEvents := []
  rstore := []
  rsWritten := []
  loft := []
  loftWritten := []
  acc := []
  hbm := []
  poison := []
  symErr := []
  lam := []
  migs := []
  retrainPend := []
  retraining := []
  retrained := []
  deadChans := []
  integ := none
  fell := none
  badStore := []
  badAcc := []
  mapOutDue := []
  chanBase := []
  hbmDegraded := []
  kv := KvTabs.fresh
  kvUndo := KvTabs.fresh
  kvUndoMem := []
  kvLog := 0
  saves := []
  heldSaves := []
  poolHeld := 0
  predHist := []
  rateH := none
  rateP := none
  jobs := []
  jobsDone := []
  bufs := []
  ports := []
  flitOut := []
  peerOut := []
  peerWait := []
  peerTag := 0
  reslate := []
  build := none
  fills := []
  changed0 := []
  changed1 := []
  stepsDone := 0
  since0 := 0
  since1 := 0
  stepCourse := 0
  recipe := 0
  ackPartner := 0
  ackHot := 0
  cursors := []
  pushCursor := none
  refusedSrc := []
  sarkCut := []
  partSrc0 := none
  partSrc1 := none
  svlOps := []
  verifySlot := none
  flashCount := 0
  gutters := []
  faultMsiAt := none
  inj := none
  mergeAt := none
  power := {
    step := .parapet, j1Ok := true, refOk := true, fails := 0, coreRails := false, hubRails := false, modrstN := true, thermtripN := true,
    clkreqLow := true, pinPwrdom := 0xF, pinSlot := 0x3F, oscStopped := false, fatal := none, tripReset := false, resetAt := 0,
    floorCw := 0, windowClosedAt := 0, clockSteps := 0, trim := 0, coolCauses := [], floorOn := false }
  flash := ⟨some Config.helperData, some Config.factoryManifest, none, none, [], [], 0, 0, Config.factoryCerts⟩
  boot := {
    window := false, unlimited := false, reading := none, idFail := false, manOld := none, chosen := none, manifest := none, seed := [], idKey := false,
    alias_ := [], aliasCert := [], cacheWrite := none, bolyel := false, bolyelBack := 0, ptpGood := 0, slew := 0, ppsAt := none }
  mgmtOut := []
  freeCtr := 0

end Sys2Proof.Machine
end

