-- ==== Sys2Proof/Machine/Ops.lean ====
section
/-! DEFINITION. The named operations over registers, memories and tables that every meaning is built from. -/

namespace Sys2Proof.Machine

/-! ### Sparse maps in canonical form -/

/-- The value at key `k`; an unlisted key reads as `d`. -/
def SMap.look {α : Type} (d : α) (k : Nat) : SMap α → α
  | [] => d
  | (k', v) :: t => if k = k' then v else if k < k' then d else SMap.look d k t

/-- The map with key `k` reading as `v`. The list stays sorted, and a value equal to the default is not listed. -/
def SMap.put {α : Type} [DecidableEq α] (d : α) (k : Nat) (v : α) : SMap α → SMap α
  | [] => if v = d then [] else [(k, v)]
  | (k', v') :: t =>
    if k < k' then (if v = d then (k', v') :: t else (k, v) :: (k', v') :: t)
    else if k = k' then (if v = d then t else (k, v) :: t)
    else (k', v') :: SMap.put d k v t

/-- Every key of a list lies above `k`. -/
def SMap.above {α : Type} (k : Nat) : SMap α → Bool
  | [] => true
  | (k', _) :: t => decide (k < k') && SMap.above k t

/-- The canonical form: keys strictly rising, no entry equal to the default. -/
def SMap.wf {α : Type} [DecidableEq α] (d : α) : SMap α → Bool
  | [] => true
  | (k, v) :: t => decide (v ≠ d) && SMap.above k t && SMap.wf d t

/-- The canonical form of a byte memory. -/
abbrev Memory.wf (m : Memory) : Bool := SMap.wf (0 : Byte) m

/-- The byte at address `a`; an unlisted one reads as 0. -/
def Memory.byte (m : Memory) (a : Nat) : Byte := SMap.look 0 a m

/-- `n` bytes from address `a`. -/
def Memory.bytes (m : Memory) (a n : Nat) : List Byte := (List.range n).map fun i => m.byte (a + i)

/-- The memory with the bytes `bs` written from address `a`. -/
def Memory.write (m : Memory) (a : Nat) : List Byte → Memory
  | [] => m
  | b :: bs => Memory.write (SMap.put 0 a b m) (a + 1) bs

/-! ### Little-endian words (R14) -/

/-- The number a byte list spells, lowest byte first. -/
def leNat : List Byte → Nat
  | [] => 0
  | b :: bs => b.toNat + 256 * leNat bs

/-- The `n` lowest bytes of `v`, lowest first. -/
def leBytes : Nat → Nat → List Byte
  | 0, _ => []
  | n + 1, v => BitVec.ofNat 8 v :: leBytes n (v / 256)

/-- Bits `[lo + w - 1 : lo]` of `v`. -/
def bitsOf (v lo w : Nat) : Nat := v >>> lo % 2 ^ w

/-- Bits of a 64-bit word. -/
def wbits (v : W64) (lo w : Nat) : Nat := bitsOf v.toNat lo w

/-- A big-endian byte list of `n` bytes (R547: signatures). -/
def beBytes (n v : Nat) : List Byte := (leBytes n v).reverse

/-! ### Register fields -/

/-- The present value of a register field. -/
def State.getF (s : State) (f : Fld) : Nat := SMap.look f.reset f.key s.regs

/-- The field holds the low bits of `v`. -/
def State.setF (s : State) (f : Fld) (v : Nat) : State :=
  { s with regs := SMap.put f.reset f.key (v % 2 ^ f.w) s.regs }

/-- A one-bit field reads 1. -/
def State.on (s : State) (f : Fld) : Bool := decide (s.getF f ≠ 0)

/-- A counter field rises by `n`; it wraps at its width. -/
def State.bump (s : State) (f : Fld) (n : Nat) : State := s.setF f (s.getF f + n)

/-- Sets bit `b` of a field. -/
def State.setBit (s : State) (f : Fld) (b : Nat) : State := s.setF f (s.getF f ||| 1 <<< b)

/-- Clears bit `b` of a field. -/
def State.clrBit (s : State) (f : Fld) (b : Nat) : State :=
  if (s.getF f).testBit b then s.setF f (s.getF f - 1 <<< b) else s

/-- Several fields set in turn. -/
def State.setFs (s : State) : List (Fld × Nat) → State
  | [] => s
  | (f, v) :: t => (s.setF f v).setFs t

/-- `f` applied for each element in turn. -/
def State.each {α : Type} (s : State) (xs : List α) (f : State → α → State) : State := xs.foldl f s

/-- R10: one field of a register takes a host write of `v`. Read-only and parapet-owned fields ignore it, W1C bits clear where `v`
holds 1; the effect of a W1S field and the shadow store of an RWS field belong to the register's own rule. -/
def State.writeField (s : State) (v : Nat) (af : Acc × Fld) : State :=
  let x := bitsOf v (af.2.key % 64) af.2.w
  match af.1 with
  | .RW => s.setF af.2 x
  | .W1C => s.setF af.2 (s.getF af.2 - (s.getF af.2 &&& x))
  | .RO | .PRO | .W1S | .RWS => s

/-- R10: a host write of `v` to every field of a register. -/
def State.writeFields (s : State) (v : Nat) (fs : List (Acc × Fld)) : State := fs.foldl (fun s af => s.writeField v af) s

/-! ### Tables of State -/

def State.ring (s : State) (r : Nat) : Ring := SMap.look Ring.fresh r s.rings
def State.setRing (s : State) (r : Nat) (x : Ring) : State := { s with rings := SMap.put Ring.fresh r x s.rings }

def State.target (s : State) (t : Nat) : Target := SMap.look Target.fresh t s.targets
def State.setTarget (s : State) (t : Nat) (x : Target) : State :=
  { s with targets := SMap.put Target.fresh t x s.targets }

def State.raft (s : State) (l : Nat) : Raft := SMap.look Raft.fresh l s.rafts
def State.setRaft (s : State) (l : Nat) (x : Raft) : State := { s with rafts := SMap.put Raft.fresh l x s.rafts }

def State.port (s : State) (p : Nat) : Port := SMap.look Port.fresh p s.ports
def State.setPort (s : State) (p : Nat) (x : Port) : State := { s with ports := SMap.put Port.fresh p x s.ports }

def State.gutter (s : State) (i : Nat) : Gutter := SMap.look Gutter.fresh i s.gutters
def State.setGutter (s : State) (i : Nat) (x : Gutter) : State :=
  { s with gutters := SMap.put Gutter.fresh i x s.gutters }

/-- A fresh free value: the counter behind the opaque constants of Config moves on. -/
def State.nextFree (s : State) : State := { s with freeCtr := s.freeCtr + 1 }

/-! ### Quantities -/

/-- R38: HBM capacity in force, in bytes. -/
def State.hbmCap (s : State) : Nat := s.getF Reg.GEN_SPARES.HBM_CAP * 0x20000000

/-- R551: boot has reported ready. -/
def State.ready (s : State) : Bool := s.on Reg.SEC_BOOT_STAT.READY

/-- A list with the element at `i` replaced. -/
def setAt {α : Type} (xs : List α) (i : Nat) (x : α) : List α := xs.set i x

/-- Insertion into a rising list without repeats. -/
def insertSorted (k : Nat) : List Nat → List Nat
  | [] => [k]
  | x :: xs => if k < x then k :: x :: xs else if k = x then x :: xs else x :: insertSorted k xs

end Sys2Proof.Machine
end

