-- ==== Sys2Proof/Machine/Hash.lean ====
section
/-! DEFINITION. The check functions the manual names by their standards: CRC-32 with the IEEE 802.3 polynomial (R62, R360, R429
and the other CHECK fields) and SHA-384 (R468, R547, R556). -/

namespace Sys2Proof.Machine

/-- One bit of CRC-32, reflected form. -/
def crcBit (c : BitVec 32) : BitVec 32 := if c.getLsbD 0 then (c >>> 1) ^^^ 0xEDB88320#32 else c >>> 1

/-- One byte of CRC-32. -/
def crcByte (c : BitVec 32) (b : Byte) : BitVec 32 :=
  crcBit (crcBit (crcBit (crcBit (crcBit (crcBit (crcBit (crcBit (c ^^^ b.setWidth 32))))))))

/-- CRC-32 of IEEE 802.3: initial value and final inversion all ones, reflected. -/
def crc32 (bs : List Byte) : Nat := (~~~ (bs.foldl crcByte 0xFFFFFFFF#32)).toNat

/-! ### SHA-384 -/

/-- The first `n` primes above `p`, by trial division with fuel. -/
def isPrimeTrial (n : Nat) : Bool := n ≥ 2 && (List.range n).all fun d => d < 2 || n % d ≠ 0

/-- The first 80 primes. -/
def shaPrimes : List Nat := (List.range 410).filter isPrimeTrial

/-- The cube root of `n`, rounded down, found bit by bit from bit `k`. -/
def icbrt : Nat → Nat → Nat → Nat
  | 0, acc, _ => acc
  | k + 1, acc, n => let c := acc + 2 ^ k; if c * c * c ≤ n then icbrt k c n else icbrt k acc n

/-- The round constants: the first 64 bits of the fractional parts of the cube roots of the first 80 primes (FIPS 180-4). -/
def shaK : List W64 := shaPrimes.map fun p => BitVec.ofNat 64 (icbrt 70 0 (p * 2 ^ 192))

/-- The initial hash value of SHA-384: the first 64 bits of the fractional parts of the square roots of the ninth to sixteenth
primes (FIPS 180-4). -/
def shaInit : List W64 := ((shaPrimes.drop 8).take 8).map fun p => BitVec.ofNat 64 (Nat.sqrt (p * 2 ^ 128))

/-- The 16 words of a 128-byte block, big-endian. -/
def shaWords : Nat → List Byte → List W64
  | 0, _ => []
  | n + 1, bs => BitVec.ofNat 64 (leNat (bs.take 8).reverse) :: shaWords n (bs.drop 8)

/-- The message schedule, newest word first, extended by `n` words. -/
def shaSchedule : Nat → List W64 → List W64
  | 0, w => w
  | n + 1, w =>
    let a := w.getD 14 0
    let b := w.getD 1 0
    let s0 := a.rotateRight 1 ^^^ a.rotateRight 8 ^^^ (a >>> 7)
    let s1 := b.rotateRight 19 ^^^ b.rotateRight 61 ^^^ (b >>> 6)
    shaSchedule n ((w.getD 15 0 + s0 + w.getD 6 0 + s1) :: w)

/-- One round on the eight working variables. -/
def shaRound (h : List W64) (kw : W64 × W64) : List W64 :=
  match h with
  | [a, b, c, d, e, f, g, hh] =>
    let s1 := e.rotateRight 14 ^^^ e.rotateRight 18 ^^^ e.rotateRight 41
    let ch := (e &&& f) ^^^ (~~~e &&& g)
    let t1 := hh + s1 + ch + kw.1 + kw.2
    let s0 := a.rotateRight 28 ^^^ a.rotateRight 34 ^^^ a.rotateRight 39
    let mj := (a &&& b) ^^^ (a &&& c) ^^^ (b &&& c)
    [t1 + (s0 + mj), a, b, c, d + t1, e, f, g]
  | _ => h

/-- One 128-byte block. -/
def shaBlock (h : List W64) (blk : List Byte) : List W64 :=
  let w := (shaSchedule 64 (shaWords 16 blk).reverse).reverse
  List.zipWith (· + ·) h ((List.zip shaK w).foldl shaRound h)

/-- All blocks of a padded message, with fuel. -/
def shaBlocks : Nat → List W64 → List Byte → List W64
  | 0, h, _ => h
  | n + 1, h, bs => shaBlocks n (shaBlock h (bs.take 128)) (bs.drop 128)

/-- SHA-384 of a byte string: 48 bytes, most significant first. -/
def sha384 (m : List Byte) : List Byte :=
  let z := (111 + 128 * 8 - m.length % 128) % 128
  let p := m ++ [0x80#8] ++ List.replicate z 0#8 ++ beBytes 16 (8 * m.length)
  ((shaBlocks (p.length / 128) shaInit p).take 6).flatMap fun w => beBytes 8 w.toNat

end Sys2Proof.Machine
end

