-- ==== Sys2Proof/Machine/Ecc.lean ====
section
/-! DEFINITION. ECDSA over P-384 (R526, R547, R558; FIPS 186): the curve, the public key of a private scalar, and the check of a
signature over a SHA-384 digest. -/

namespace Sys2Proof.Machine

/-- The field prime of P-384. -/
def p384 : Nat := 2 ^ 384 - 2 ^ 128 - 2 ^ 96 + 2 ^ 32 - 1
/-- The order of its base point. -/
def n384 : Nat := 0xffffffffffffffffffffffffffffffffffffffffffffffffc7634d81f4372ddf581a0db248b0a77aecec196accc52973
/-- The curve coefficient b. -/
def b384 : Nat := 0xb3312fa7e23ee7e4988e056be3f82d19181d9c6efe8141120314088f5013875ac656398d8a2ed19d2a85c8edd3ec2aef
/-- The base point. -/
def g384 : Nat × Nat :=
  (0xaa87ca22be8b05378eb1c71ef320ad746e1d3b628ba79b9859f741e082542a385502f25dbf55296c3a545e3872760ab7,
   0x3617de4a96262c6f5d9e98bf9292dc29f8f41dbd289a147ce9da3113b5f0b8c00a60b1ce1d7e819d7a431d7c90ea0e5f)

/-- `b ^ e mod m` by squaring, over `k` bits of `e`. -/
def powMod : Nat → Nat → Nat → Nat → Nat
  | 0, _, _, m => 1 % m
  | k + 1, b, e, m =>
    let h := powMod k (b * b % m) (e / 2) m
    if e % 2 = 1 then h * b % m else h

/-- The inverse modulo a prime of at most 384 bits. -/
def invMod (a p : Nat) : Nat := powMod 384 (a % p) (p - 2) p

/-- Addition of points; none is the point at infinity. -/
def ecAdd : Option (Nat × Nat) → Option (Nat × Nat) → Option (Nat × Nat)
  | none, q => q
  | p, none => p
  | some (x1, y1), some (x2, y2) =>
    if x1 = x2 ∧ (y1 + y2) % p384 = 0 then none
    else
      let l := if x1 = x2 then (3 * x1 * x1 + p384 - 3) * invMod (2 * y1) p384 % p384
               else (y2 + p384 - y1) * invMod (x2 + p384 - x1) p384 % p384
      let x := (l * l + 2 * p384 - x1 - x2) % p384
      some (x, (l * (x1 + p384 - x) + p384 - y1) % p384)

/-- `k` times a point, over `n` bits of `k`. -/
def ecMul : Nat → Nat → Option (Nat × Nat) → Option (Nat × Nat)
  | 0, _, _ => none
  | n + 1, k, p =>
    if k = 0 then none else
    let h := ecMul n (k / 2) (ecAdd p p)
    if k % 2 = 1 then ecAdd h p else h

/-- A number from big-endian bytes. -/
def beNat (bs : List Byte) : Nat := leNat bs.reverse

/-- R547: an uncompressed SEC1 point of 97 bytes, when it lies on the curve. -/
def ecPoint (bs : List Byte) : Option (Nat × Nat) :=
  let x := beNat ((bs.drop 1).take 48)
  let y := beNat ((bs.drop 49).take 48)
  if bs.length = 97 ∧ bs.head? = some 4#8 ∧ x < p384 ∧ y < p384 ∧ y * y % p384 = (x * x * x + (p384 - 3) * x + b384) % p384
  then some (x, y) else none

/-- The public key of a private scalar, as a SEC1 point. -/
def ecPublic (d : Nat) : List Byte :=
  match ecMul 384 d (some g384) with
  | some (x, y) => 4#8 :: (beBytes 48 x ++ beBytes 48 y)
  | none => [0#8]

/-- Whether (r, s) signs the 48-byte digest `h` under public key `key`. -/
def ecdsaVerify (key h : List Byte) (r s : Nat) : Bool :=
  match ecPoint key with
  | none => false
  | some q =>
    if r = 0 ∨ s = 0 ∨ n384 ≤ r ∨ n384 ≤ s then false
    else
      let w := invMod s n384
      match ecAdd (ecMul 384 (beNat h * w % n384) (some g384)) (ecMul 384 (r * w % n384) (some q)) with
      | none => false
      | some (x, _) => decide (x % n384 = r)

/-- R547: a signature of 96 bytes, r then s, each 48 bytes big-endian, over SHA-384 of `msg`. -/
def sigVerify (key msg sig : List Byte) : Bool :=
  decide (sig.length = 96) && ecdsaVerify key (sha384 msg) (beNat (sig.take 48)) (beNat (sig.drop 48))

/-- R557, R560: the signature of `msg` by private scalar `d`: r, then s, each 48 bytes big-endian (FIPS 186); `i` counts the signer's
nonces. -/
def ecSign (d : Nat) (msg : List Byte) (i : Nat) : List Byte :=
  let k := Config.signNonce d msg i % (n384 - 1) + 1
  let r := match ecMul 384 k (some g384) with | some (x, _) => x % n384 | none => 0
  beBytes 48 r ++ beBytes 48 (invMod k n384 * (beNat (sha384 msg) + r * d) % n384)

/-! ### Key derivation (R556, R557) -/

/-- HMAC-SHA-384 (FIPS 198-1) under a key of at most a block. -/
def hmac384 (key msg : List Byte) : List Byte :=
  let k := key ++ List.replicate (128 - key.length) 0
  sha384 (k.map (· ^^^ 0x5C#8) ++ sha384 (k.map (· ^^^ 0x36#8) ++ msg))

/-- R556: the counter-mode KDF of NIST SP 800-108 with HMAC-SHA-384 for one block of 384 bits, reduced into the P-384 scalar range. The width
of its counter, its fixed input and the way of the reduction are those of the standards (PRESUMED, assumption 10). -/
def deriveKey (seed label context : List Byte) : Nat :=
  beNat (hmac384 seed (beBytes 4 1 ++ label ++ [0] ++ context ++ beBytes 4 384)) % (n384 - 1) + 1

end Sys2Proof.Machine
end

