-- ==== Sys2Proof/Machine/Rings.lean ====
section
/-! DEFINITION. Completion records and the end of a ring (R113 to R116, R122, R124, R135, R140): how every command's completion
reaches the host. -/

namespace Sys2Proof.Machine

/-- R142: log2 of a ring's entries gives its size. -/
def State.ringSize (s : State) (r : Nat) : Nat := 2 ^ s.getF (Reg.HIF_RING_CFG.SIZE_LOG2 r)

/-- R109: CLASS of a ring: 0 timed, 1 bulk, 2 management. -/
def State.ringClass (s : State) (r : Nat) : Nat := s.getF (Reg.HIF_RING_CFG.CLASS r)

/-- R140: MSI-X vector `v` is signalled. -/
def State.msi (s : State) (v : Nat) : State := { s with msiOut := s.msiOut ++ [v] }

/-- R110: fields of a descriptor's word 0. -/
def Req.opcode (q : Req) : Nat := wbits (q.words.getD 0 0) 0 8
def Req.seq (q : Req) : Nat := wbits (q.words.getD 0 0) 16 16
def Req.tag (q : Req) : Nat := wbits (q.words.getD 0 0) 32 32
/-- Word `i` of a descriptor. -/
def Req.word (q : Req) (i : Nat) : W64 := q.words.getD i 0

/-- R113: the 32 bytes of a record, posted with PHASE `ph`, SQ_HEAD `head`, at time `t`. -/
def CRec.bytes (c : CRec) (ph : Bool) (head t : Nat) : List Byte :=
  leBytes 8 (c.status % 256 + bit ph * 2 ^ 8 + c.seq % 65536 * 2 ^ 16 + c.tag % 2 ^ 32 * 2 ^ 32) ++
  leBytes 8 (head % 65536 + c.ring % 1024 * 2 ^ 16 + c.opcode % 256 * 2 ^ 32) ++
  leBytes 8 c.detail ++ leBytes 8 t

/-- R140: the ring signals its vector, and no record is unsignalled. -/
def State.signalRing (s : State) (r : Nat) : State :=
  (s.setRing r { s.ring r with unsignalled := 0, batch := (s.ring r).unsignalled }).msi (s.getF (Reg.HIF_RING_CFG.VECTOR r))

/-- R140: a ring with IRQ_EN signals when COAL + 1 records are unsignalled. -/
def State.coalesce (s : State) (r : Nat) : State :=
  if s.on (Reg.HIF_RING_CFG.IRQ_EN r) && decide ((s.ring r).unsignalled ≥ s.getF (Reg.HIF_RING_CFG.COAL r) + 1)
  then s.signalRing r else s

/-- A request of the coherence protocol is sent for the lines that `n` bytes from `a` touch. -/
def State.sendCxl (s : State) (kind : CxlKind) (a n : Nat) : State :=
  if n = 0 then s else { s with cxlOut := s.cxlOut ++ [⟨kind, a / 64, (a + n - 1) / 64 - a / 64 + 1⟩] }

/-- R113, R115: a record is written to the next completion slot in one WrCur request; CQ_TAIL moves on, PHASE inverts on each wrap. -/
def State.writeRec (s : State) (c : CRec) : State :=
  let r := c.ring
  let x := s.ring r
  let slot := s.getF (Reg.HIF_RING_PTR.CQ_TAIL r)
  let next := (slot + 1) % s.ringSize r
  let w : HostWrite := ⟨s.getF (Reg.HIF_RING_CQ.BASE r) * 4096 + slot * 32,
    c.bytes x.cqPhase (s.getF (Reg.HIF_RING_PTR.SQ_HEAD r)) s.timeBase⟩
  let s := { s with hostOut := s.hostOut ++ [w] }.sendCxl .wrCur w.addr 32
  let s := s.setF (Reg.HIF_RING_PTR.CQ_TAIL r) next
  let s := s.setRing r { x with cqPhase := if next = 0 then !x.cqPhase else x.cqPhase,
                                unconsumed := x.unconsumed + 1, unsignalled := x.unsignalled + 1 }
  s.coalesce r

/-- R107, R134, R135: a request can reach the host: the link is up, the host is not lost, and no self-reset is due. -/
def State.hostReachable (s : State) : Bool :=
  s.on Reg.HIF_STATUS.LINK_UP && !s.on Reg.HIF_STATUS.HOST_LOST && !s.selfReset

/-- R115, R122: the ring is ended with 0x59: its completion ring is not written again. -/
def State.killCq (s : State) (r : Nat) : State :=
  (s.setFs [(Reg.HIF_RING_STAT.ERR r, 1), (Reg.HIF_RING_STAT.ERR_CODE r, 0x59)]).setRing r { s.ring r with cqDead := true }

/-- R114, R115, R122, R135: a record falls due. It is discarded and counted on a ring ended with 0x59, held during host loss in
fallback mode (at most 1,024), lost when its write cannot reach the host, which ends the ring with 0x59, and otherwise written. -/
def State.post (s : State) (c : CRec) : State :=
  if (s.ring c.ring).cqDead then s.bump Reg.HIF_HL_LOST.LOST 1
  else if s.suspended then
    if s.heldRecs.length < 1024 then { s with heldRecs := s.heldRecs ++ [c] }
    else s.bump Reg.HIF_HL_LOST.LOST 1
  else if s.hostReachable then s.writeRec c
  else s.killCq c.ring

/-- R116: the requests of one ring whose records keep the order the module read them: all of a timed or management ring; on a bulk
ring the MEDIA_JOBs among themselves (R387), and every other request alone. -/
def State.sameOrder (s : State) (q o : Req) : Bool :=
  decide (s.ringClass q.ring ≠ 1 ∨ (q.opcode = 0x10 ∧ o.opcode = 0x10) ∨ o.seq = q.seq)

/-- R116: posts the waiting records of an ordered group of requests, as far as the oldest of them has its record. -/
def State.flushRecs (s : State) (r : Nat) : List Req → State
  | [] => s
  | q :: qs =>
    match (s.ring r).waitingRecs.find? (fun c => c.seq = q.seq) with
    | none => s
    | some c =>
      let x := s.ring r
      let s := s.setRing r { x with outstanding := x.outstanding.filter (fun o => o.seq ≠ q.seq),
                                    waitingRecs := x.waitingRecs.filter (fun d => d.seq ≠ q.seq) }
      (s.post c).flushRecs r qs

/-- R116, R122: the record of a ring's own end is posted once no request of the ring is outstanding. -/
def State.flushEnd (s : State) (r : Nat) : State :=
  let x := s.ring r
  match x.endRec with
  | some c => if x.outstanding.isEmpty then (s.setRing r { x with endRec := none }).post c else s
  | none => s

/-- R114, R116: request `q` is complete with a status and detail: its record falls due, and is posted in the order of its group. A
request the module no longer holds (its ring was reset) posts nothing. -/
def State.complete (s : State) (q : Req) (status detail : Nat) : State :=
  let x := s.ring q.ring
  if x.outstanding.any (fun o => o.seq = q.seq) then
    ((s.setRing q.ring { x with waitingRecs := x.waitingRecs ++ [⟨q.ring, status, q.seq, q.tag, q.opcode, detail⟩] }).flushRecs
      q.ring (x.outstanding.filter fun o => s.sameOrder q o)).flushEnd q.ring
  else s

/-- R114: free completion slots of a ring. -/
def State.cqFree (s : State) (r : Nat) : Nat := s.ringSize r - (s.ring r).unconsumed

/-- R116, R122: ring `r` is ended with 0x52 or 0x56: ERR and ERR_CODE are set, and one record with SEQ `seq`, TAG and OPCODE zero is
posted when the completion ring has a slot that no descriptor already read needs; a timed or management ring posts it after the records
of those. The manual gives its DETAIL no value, so a free value stands there (assumption 7). -/
def State.endRing (s : State) (r code seq : Nat) : State :=
  let s := s.setFs [(Reg.HIF_RING_STAT.ERR r, 1), (Reg.HIF_RING_STAT.ERR_CODE r, code)]
  if s.cqFree r ≤ (s.ring r).outstanding.length then s
  else
    let c : CRec := ⟨r, code, seq, 0, 0, Config.openDetail s.freeCtr⟩
    let s := s.nextFree
    if s.ringClass r = 1 then s.post c
    else (s.setRing r { s.ring r with endRec := some c }).flushEnd r

/-- Two names of one request: it is known by its ring and SEQ. -/
def Req.same (q p : Req) : Bool := decide (q.ring = p.ring ∧ q.seq = p.seq)

/-- R116: the record of a request has fallen due, and waits for that of an earlier request. -/
def State.recordDue (s : State) (q : Req) : Bool := (s.ring q.ring).waitingRecs.any fun c => decide (c.seq = q.seq)

/-- The first request of a ring that has been read, neither carried out nor ended, and has opcode `op`. -/
def State.nextReq (s : State) (r op : Nat) : Option Req :=
  (s.ring r).outstanding.find? fun q => !q.started && decide (q.opcode = op) && !s.recordDue q

/-- Marks a request carried out. -/
def State.markStarted (s : State) (q : Req) : State :=
  let x := s.ring q.ring
  s.setRing q.ring { x with outstanding := x.outstanding.map fun o =>
    if o.seq = q.seq then { o with started := true } else o }

end Sys2Proof.Machine
end

