-- ==== Sys2Proof/Machine/Hbm.lean ====
section
/-! DEFINITION. HBM: where an address lies (R333 to R335, R350), sector errors and poison (R340 to R345), and the reads and
writes every unit makes of it. -/

namespace Sys2Proof.Machine

/-- R333: position λ and slot of granule `g` with no channel mapped out. -/
def basePlace (g : Nat) : Nat × Nat := ((g % 640 + 263 * (g / 640)) % 640, g / 640)

/-- R333: the pseudo-channel of the sector that holds address `a`: bit 6 of it. -/
def pseudoOf (a : Nat) : Nat := bitsOf a 6 1

/-- R334: granule count with `m` map-outs in force. -/
def granules (m : Nat) : Nat := (640 - m) * 393216

/-- R334: placement `P[j]` with the mapped-out positions newest first. -/
def place : List Nat → Nat → Nat × Nat
  | [], g => basePlace g
  | l :: ls, g =>
    if (place ls g).1 ≠ l then place ls g
    else
      let k := ((List.range g).filter fun h => (place ls h).1 = l).length
      let donors := (List.range (granules ls.length - granules (ls.length + 1))).map (· + granules (ls.length + 1))
      place ls (((donors.filter fun h => (place ls h).1 ≠ l)[k]?).getD g)

/-- R334, R350: where a granule is served: as `place`, but a victim whose map-out still migrates (the watermark beside its position) and whose
number is not below the watermark is served at its source. -/
def servedPlace : List (Nat × Option Nat) → Nat → Nat × Nat
  | [], g => basePlace g
  | (l, w) :: ls, g =>
    let old := ls.map Prod.fst
    if (place old g).1 ≠ l then servedPlace ls g
    else
      let k := ((List.range g).filter fun h => (place old h).1 = l).length
      match w with
      | some m => if m ≤ k then servedPlace ls g else place (l :: old) g
      | none => place (l :: old) g

/-- R350: the mapped-out positions, newest first, each with the watermark `f` gives its migration while that runs. -/
def State.marks (s : State) (f : Mig → Nat) : List (Nat × Option Nat) :=
  ((s.lam.zipIdx 1).map fun x => (x.1, (s.migs.find? fun m => Nat.beq m.seq x.2).map f)).reverse

/-- R350: the watermark of a migration. -/
def State.watermark (s : State) (m : Mig) : Nat := s.getF (Reg.MEM_LCH_MIG.DONE m.stack m.lch)

/-- R350: the mapped-out positions with their present watermarks. -/
def State.watermarks (s : State) : List (Nat × Option Nat) := s.marks s.watermark

/-- R335, R350: the position and slot that serve address `a`. -/
def State.placeOf (s : State) (a : Nat) : Nat × Nat := servedPlace s.watermarks (a / 4096)

/-- R332: stack and logical channel of a position. -/
def stackOf (lam : Nat) : Nat := lam % 20
def chanOf (lam : Nat) : Nat := lam / 20

/-- R335, R350: the physical channel that serves slot `q` of logical channel `c` of stack `st`: its PHYS, or the migration's
target for slots below the watermark. -/
def State.physOf (s : State) (st c q : Nat) : Nat :=
  let p := s.getF (Reg.MEM_LCH_STAT.PHYS st c)
  match s.migs.find? (fun m => m.stack = st && m.lch = c) with
  | some m =>
    match m.dst with
    | some d => if q < s.getF (Reg.MEM_LCH_MIG.DONE st c) then d else p
    | none => p
  | none => p

/-- What a read of one 64-byte sector finds (R341). -/
inductive SectorRead where
  | clean | corrected | bad
  deriving DecidableEq, Repr

/-- R350: the physical channel that serves a sector, as 34 × stack + channel. -/
def State.channelOf (s : State) (sec : Nat) : Nat :=
  let lq := s.placeOf (sec * 64)
  34 * stackOf lq.1 + s.physOf (stackOf lq.1) (chanOf lq.1) lq.2

/-- R341, R348, R350, R352: a sector served by a dead channel: one that has stopped answering, a lost position until its map-out, or the
source of a migration. -/
def State.deadSector (s : State) (sec : Nat) : Bool :=
  (!s.deadChans.isEmpty && s.deadChans.contains (s.channelOf sec)) || (s.mapOutDue.any fun x => x.2 && Nat.beq x.1 (s.placeOf (sec * 64)).1) ||
  s.migs.any fun m => m.dead && Nat.beq (20 * m.lch + m.stack) (s.placeOf (sec * 64)).1 &&
    (m.dst.isNone || Nat.ble (s.getF (Reg.MEM_LCH_MIG.DONE m.stack m.lch)) (s.placeOf (sec * 64)).2)

/-- R340, R349, R352: a poisoned sector, one of a dead channel, one whose address has been lost and one with four or more symbols in error
are uncorrectable; one to three are corrected. -/
def State.sectorState (s : State) (sec : Nat) : SectorRead :=
  if s.poison.contains sec || Nat.ble s.hbmCap (sec * 64) || s.deadSector sec then .bad
  else
    let e := SMap.look 0 sec s.symErr
    if e = 0 then .clean else if e ≤ 3 then .corrected else .bad

/-- R350: a running migration serves granule `g` at its target: a spare filled past the granule's slot, or the donor of a victim already
copied. -/
def State.atTarget (s : State) (g : Nat) : Bool :=
  let lq := s.placeOf (g * 4096)
  s.migs.any fun m =>
    if m.dst.isSome then decide (20 * m.lch + m.stack = lq.1 ∧ lq.2 < s.watermark m)
    else decide (servedPlace (s.marks fun n => if n = m then 0 else s.watermark n) g ≠ lq)

/-- R344, R354: physical channel `i`, 34 × stack + channel, becomes retrain-pending, and its logical channel, when nothing else moves it,
says so. -/
def State.retrainNext (s : State) (i : Nat) : State :=
  let c := s.getF (Reg.MEM_PCH_STAT.LOGICAL (i / 34) (i % 34))
  let s := if c < 32 ∧ s.getF (Reg.MEM_LCH_STAT.STATE (i / 34) c) = 0 then s.setF (Reg.MEM_LCH_STAT.STATE (i / 34) c) 1 else s
  { s with retrainPend := insertSorted i s.retrainPend }

/-- R352: an uncorrectable read at the target of a migration makes the target's channel retrain-pending. -/
def State.targetFails (s : State) (sec : Nat) : State :=
  if s.atTarget (sec / 64) ∧ !s.poison.contains sec then s.retrainNext (s.channelOf sec) else s

/-- R341: one sector is read: CE counted and the sector written back, or UE_READ counted. -/
def State.readSector (s : State) (sec : Nat) : State :=
  let lq := s.placeOf (sec * 64)
  let st := stackOf lq.1
  let p := s.physOf st (chanOf lq.1) lq.2
  match s.sectorState sec with
  | .clean => s
  | .corrected => { s.bump (Reg.MEM_PCH_CE.CE st p) 1 with symErr := SMap.put 0 sec 0 s.symErr }
  | .bad => (s.bump (Reg.MEM_PCH_UE.UE_READ st p) 1).targetFails sec

/-- The 64-byte sectors that `n` bytes from `a` touch. -/
def sectorsOf (a n : Nat) : List Nat :=
  if n = 0 then [] else (List.range ((a + n - 1) / 64 - a / 64 + 1)).map (· + a / 64)

/-- Stacks of the uncorrectable sectors among those of a read. -/
def State.badStacks (s : State) (a n : Nat) : List Nat :=
  ((sectorsOf a n).filter fun sec => s.sectorState sec = .bad).map fun sec => stackOf (s.placeOf (sec * 64)).1

/-- R341: a read at the HBM controllers: the bytes, whether a sector was uncorrectable, and the counters. -/
def State.readRaw (s : State) (a n : Nat) : List Byte × Bool × State :=
  (s.hbm.bytes a n, !(s.badStacks a n).isEmpty, s.each (sectorsOf a n) State.readSector)

/-! ### The window's coherence (R93, R98) -/

/-- R93, R98, R135: page `p` of the window is shared. -/
def State.pageShared (s : State) (p : Nat) : Bool :=
  (s.on Reg.HIF_CTRL.COH_MODE && !s.on Reg.HIF_STATUS.HOST_LOST) || s.shared.contains p

/-- The lines of the window that an access touches and whose page is shared. -/
def State.sharedLines (s : State) (a n : Nat) : List Nat :=
  let base := s.hdmBase * 2 ^ 24
  ((sectorsOf a n).filter fun x => Nat.ble base x && Nat.blt x (base + 2 ^ 28) && s.pageShared ((x - base) / 64)).map fun x => x - base

/-- R98: full-coherence mode at 64 GT/s, where the window works as HDM-DB. -/
def State.hdmDb (s : State) : Bool := s.on Reg.HIF_CTRL.COH_MODE && Nat.beq (s.getF Reg.HIF_LINK.RATE) 2

/-- R93, R98: what a device access to shared pages sends: a request for each line, or as HDM-DB a back-invalidate snoop of each line that
the host may hold before it is written. -/
def State.viaHost (s : State) (a n : Nat) (store : Bool) : State :=
  if !s.on Reg.HIF_CTRL.COH_MODE && s.shared.isEmpty then s
  else
    let ls := s.sharedLines a n
    if s.hdmDb then
      if store then
        { s with
          cxlOut := s.cxlOut ++ (ls.filter fun l => s.winLines.contains l).map fun l => ⟨.backInvalidate, l, 1⟩
          winLines := s.winLines.filter fun l => !ls.contains l }
      else s
    else if s.on Reg.HIF_LINK.RATE then
      { s with cxlOut := s.cxlOut ++ ls.map fun l => ⟨if store then .sharedWrite else .sharedRead, l, 1⟩ }
    else s

/-- R93, R341, R342: a read that belongs to no course: the bytes, whether a sector was uncorrectable, and what it leaves. -/
def State.readQuiet (s : State) (a n : Nat) : List Byte × Bool × State := (s.viaHost a n false).readRaw a n

/-- R345: a full-sector write to logical channel LCH of a stack with MEM_INJECT armed stores symbols inverted and disarms it;
any other write of a sector stores good check bytes. The poison mark is cleared (R341). -/
def State.storeSector (s : State) (sec : Nat) : State :=
  let lq := s.placeOf (sec * 64)
  let st := stackOf lq.1
  if s.on (Reg.MEM_INJECT.ARM st) && decide (s.getF (Reg.MEM_INJECT.LCH st) = chanOf lq.1) then
    let n := if s.on (Reg.MEM_INJECT.MODE st) then 4 else 1
    { s.setF (Reg.MEM_INJECT.ARM st) 0 with symErr := SMap.put 0 sec n s.symErr, poison := s.poison.filter (· ≠ sec) }
  else { s with symErr := SMap.put 0 sec 0 s.symErr, poison := s.poison.filter (· ≠ sec) }

/-- R470: the 4 KiB blocks touched by a write, for the changed marks of the two own slots. -/
def blocksOf (a n : Nat) : List Nat :=
  if n = 0 then [] else (List.range ((a + n - 1) / 4096 - a / 4096 + 1)).map (· + a / 4096)

/-- R93, R341, R349: the module writes bytes to HBM: every sector touched is written whole; what lies from HBM_CAP upward is lost. -/
def State.writeHbm (s : State) (a : Nat) (all : List Byte) : State :=
  let bs := all.take (s.hbmCap - a)
  let s := (s.viaHost a bs.length true).each (sectorsOf a bs.length) State.storeSector
  { s with hbm := s.hbm.write a bs }

/-- R341: a host write. A sector written only in part merges; if it is uncorrectable it stays poisoned, and the read row of
R341 applies to it (the stacks are those of `badStacks` over the partly written sectors). -/
def State.partSectors (a n : Nat) : List Nat :=
  (sectorsOf a n).filter fun sec => decide (sec * 64 < a ∨ a + n < sec * 64 + 64)

/-- R341: the state after a host write through the window, before any error line is raised. -/
def State.mergeHbm (s : State) (a : Nat) (bs : List Byte) : State :=
  let parts := State.partSectors a bs.length
  let bad := parts.filter fun sec => s.sectorState sec = .bad
  let s := s.each parts State.readSector
  let s := s.each ((sectorsOf a bs.length).filter fun sec => !parts.contains sec) State.storeSector
  { s with hbm := s.hbm.write a bs, poison := bad.foldl (fun l x => insertSorted x l) s.poison }

/-- The bytes of a control structure as stored; used where the manual gives no read of its own (the module holds what an
earlier checked read of the structure delivered). -/
def State.peek (s : State) (a n : Nat) : List Byte := s.hbm.bytes a n
/-- A 64-bit word of a control structure. -/
def State.peekW (s : State) (a : Nat) : Nat := leNat (s.hbm.bytes a 8)

end Sys2Proof.Machine
end

