-- ==== Sys2Proof/Machine/Course.lean ====
section
/-! DEFINITION. How a course ends badly (R74, R76, R79, R298, R365, R379, R458): the one operation every failure goes through. -/

namespace Sys2Proof.Machine

/-- R113, R387, R488: DETAIL of a request that ends before its work has begun. A COURSE_RUN that never ran has no course counter to
report, so [47:0] is free and COMMITTED and SUPPRESSED are 0; a MEDIA_JOB has committed and substituted nothing; a SNAPSHOT reports its
COURSE. The manual states no DETAIL for the other opcodes, so a free value stands there (assumption 7). -/
def Req.idleDetail (q : Req) (k : Nat) : Nat :=
  match q.opcode with
  | 0x01 => Config.openDetail k % 2 ^ 48
  | 0x10 => 0
  | 0x11 => wbits (q.word 2) 0 48
  | _ => Config.openDetail k

/-- Request `q` completes with a status before its work has begun, or with no DETAIL of its own. -/
def State.finish (s : State) (q : Req) (status : Nat) : State :=
  (s.complete q status (q.idleDetail s.freeCtr)).nextFree

/-- R113: DETAIL of a course that ran. -/
def courseDetail (counter : Nat) (committed suppressed : Bool) : Nat :=
  counter % 2 ^ 48 + bit committed * 2 ^ 48 + bit suppressed * 2 ^ 49

/-- R75, R86: CRS_LAST reports the course that ended. -/
def State.setLast (s : State) (status counter : Nat) (committed suppressed : Bool) : State :=
  s.setFs [(Reg.CRS_LAST.STATUS, status), (Reg.CRS_LAST.COMMITTED, bit committed),
    (Reg.CRS_LAST.SUPPRESSED, bit suppressed), (Reg.CRS_LAST.COURSE, counter)]

/-- R519: the armed injection is consumed. -/
def State.useInject (s : State) : State :=
  { (s.setF Reg.FLT_INJECT.ARM 0).bump Reg.FLT_INJ_COUNT.COUNT 1 with inj := none }

/-- R519: the armed injection's MODE, when it is of this checker on this unit. -/
def State.armed (s : State) (checker unit : Nat) : Option Nat :=
  match s.inj with
  | some j => if j.1 = checker ∧ j.2.2 = unit then some j.2.1 else none
  | none => none

/-- R431: a BEAT or FAIL idle flit, which goes before data flits, on logical lane 0. -/
def FlitReq.urgent (q : FlitReq) : Bool := Nat.beq q.ftype 5 && [1, 2].contains (q.payload.headD 0)

/-- R428, R429: a flit is sent on a port: it takes the port's next FSEQ and next lane, acknowledges the last flit received in order, and stays
in the replay buffer until it is acknowledged. -/
def State.putFlit (s : State) (p : Nat) (q : FlitReq) : State :=
  let x := s.port p
  let bad := (s.armed 9 p).isSome
  let f : Flit := ⟨if q.urgent then 0 else x.lane, q.ftype, x.txSeq, x.rxSeq, q.nak, bad, q.payload ++ List.replicate (200 - q.payload.length) 0⟩
  let s := if bad then s.useInject else s
  { s.setPort p { x with
      txSeq := (x.txSeq + 1) % 4096, replay := x.replay ++ [(f, 0)], lane := if q.urgent then x.lane else (x.lane + 1) % 16 } with
    flitOut := s.flitOut ++ [(p, f)] }

/-- R430: the replay buffer has room for one more of its 2,048 flits. -/
def Port.room (x : Port) : Bool := Nat.blt x.replay.length 2048

/-- R431: a flit joins those that wait; BEAT and FAIL go before data. -/
def Port.enqueue (x : Port) (q : FlitReq) : Port :=
  { x with wait := if q.urgent then x.wait.takeWhile FlitReq.urgent ++ q :: x.wait.dropWhile FlitReq.urgent else x.wait ++ [q] }

/-- R429 to R431: a flit is sent on a port at once, or waits for room in the replay buffer. -/
def State.sendFlitN (s : State) (nak : Bool) (p ftype : Nat) (payload : List Byte) : State :=
  let x := s.port p
  if x.room && x.wait.isEmpty then s.putFlit p ⟨ftype, nak, payload⟩ else s.setPort p (x.enqueue ⟨ftype, nak, payload⟩)

/-- R430: flits that wait are sent, as far as the replay buffer has room. -/
def State.drainFlits (s : State) (p : Nat) : List FlitReq → State
  | [] => s
  | q :: t => if (s.port p).room then ((s.setPort p { s.port p with wait := t }).putFlit p q).drainFlits p t else s

def State.sendFlit (s : State) (p ftype : Nat) (payload : List Byte) : State := s.sendFlitN false p ftype payload

/-- The ports that are up, rising. -/
def State.upPorts (s : State) : List Nat := (List.range 32).filter fun p => s.on (Reg.LNK_STAT.UP p)

/-- R431: the payload of a FAIL idle flit. -/
def failPayload (ttId counter pos : Nat) : List Byte :=
  [2, 0, 0, 0] ++ leBytes 4 ttId ++ leBytes 4 counter ++ leBytes 2 pos

/-- R458: a FAIL idle flit is sent on every port that is up. -/
def State.sendFail (s : State) (counter : Nat) : State :=
  s.each s.upPorts fun s p =>
    s.sendFlit p 5 (failPayload (s.getF Reg.CRS_LNK_TT.TT_ID) counter (s.getF Reg.CRS_LNK_TT.POS))

/-- R360: base address of the placement plan in force, and a word of it. -/
def State.planBase (s : State) : Nat := s.getF Reg.CRS_ACT_PLAN.BASE * 4096
def State.planW (s : State) (i : Nat) : Nat := s.peekW (s.planBase + 8 * i)

/-- R378: one entry of the placement log. -/
def logEntry (p : SavePt) : List Byte :=
  leBytes 8 ((match p.dec with | .keep => 0 | .host => 1 | .peer => 2 | .discard => 3) + p.outcome % 8 * 8
    + (match p.dec with | .keep => p.slot / 4096 % 2 ^ 32 | _ => 0) * 2 ^ 32) ++
  leBytes 8 (ceilDiv p.pred 4096 % 2 ^ 32 + p.stored / 64 % 2 ^ 32 * 2 ^ 32)

/-- R378: the placement-log record of a course that ends with `status`. -/
def placementLog (c : Course) (saves : List SavePt) (status : Nat) : List Byte :=
  leBytes 8 (c.counter % 2 ^ 48 + status % 256 * 2 ^ 48) ++ leBytes 8 (saves.length % 8192) ++
  leBytes 8 (c.rateH % 2 ^ 32 + c.rateP % 2 ^ 32 * 2 ^ 32) ++ leBytes 8 (c.poolUsed / 4096 % 2 ^ 32) ++
  List.replicate 32 0 ++ saves.flatMap logEntry

/-- R378: address of the log slot at CRS_PLC_LOGPOS.POS. -/
def State.logSlot (s : State) : Nat :=
  bitsOf (s.planW 5) 0 48 + s.getF Reg.CRS_PLC_LOGPOS.POS % (bitsOf (s.planW 6) 0 16 + 1) * 0x11000

/-- R67: the course admitted last has ended without completing. -/
def PrevCourse.ended (p : PrevCourse) : PrevCourse := { p with endedBad := true }

/-- R76: every admitted course still waiting is withdrawn with 0x48. -/
def State.withdraw (s : State) : State :=
  if s.waiting.isEmpty then s
  else { s with waiting := [], prev := s.prev.map PrevCourse.ended }.each s.waiting fun s a => s.finish a.req 0x48

/-- R76: the hold after a failed course. -/
def State.hold (s : State) : State := (s.setF Reg.CRS_STATUS.HELD 1).withdraw

/-- R303: live sequences and free and pending pages as CRS_KV_STAT, CRS_KV_VER and CRS_KV_PAGES report them. -/
def State.kvReport (s : State) : State :=
  let k := s.kv
  let pages := match k.conf with | some c => c.pages | none => 0
  s.setFs [(Reg.CRS_KV_STAT.CONF, bit k.conf.isSome), (Reg.CRS_KV_STAT.LIVE, (k.seqs.filter fun x => x.2.st = .live).length),
    (Reg.CRS_KV_STAT.WALKERS, (s.rafts.filter fun x => x.2.walker.isSome).length), (Reg.CRS_KV_VER.VER, k.ver),
    (Reg.CRS_KV_PAGES.FREE, pages - k.nextPage + k.freed.length),
    (Reg.CRS_KV_PAGES.PENDING, (k.pend.filter fun x => match x.1 with | .page _ => true | .seq _ => false).length)]

/-- R298: the rollout-cache tables, the map entries and the counts return to their state at the opening ridge; ROLLBACK reads 1 until
the restore ends. -/
def State.kvRollback (s : State) : State :=
  let t := s.each s.kvUndoMem fun s x => s.writeHbm x.1 x.2
  let t := if s.kvLog = 0 then t else t.setF Reg.CRS_KV_STAT.ROLLBACK 1
  { t with kv := s.kvUndo, kvUndoMem := [], kvLog := 0 }.kvReport

/-- R249: TRS_VEC_SEED of every truss die reports the seed. -/
def State.setSeed (s : State) (v : Nat) : State :=
  s.each (List.range 4) fun s n => s.setF (Reg.TRS_VEC_SEED.SEED n) v

/-- R74, R76, R79: the course in progress fails with a status: it stops at once, its completion is posted, FAIL notices go out, the
timed class is held, waiting courses are withdrawn, the rollout cache is rolled back, its save slots are released and the step's
vote and seed are dropped. With no course running, or one that has failed already, nothing changes. -/
def State.failCourse (s : State) (code : Nat) : State :=
  match s.course with
  | none => s
  | some c =>
    if c.failed then s else
    let s := s.writeHbm s.logSlot (placementLog c s.saves code)
    let s := s.sendFail c.counter
    let s := { s with
      course := some { c with failed := true, working := false, running := [] }
      rafts := [], saves := [], heldSaves := [], poolHeld := 0, stepVote := false, stepNonfin := false, amax := [], watch := [], peerWait := []
      prev := some ⟨c.img.stepLast, true⟩ }
    let s := (s.setF Reg.CRS_STATUS.IDLE 1).setLast code c.counter false false
    let s := s.setSeed s.seedBefore.toNat
    let s := s.complete c.req code (courseDetail c.counter false false)
    s.hold.kvRollback

/-! ### Errors of one cycle (R185) -/

/-- R113: a host write is the completion record of a request, posted at time `t`. -/
def HostWrite.isRecord (w : HostWrite) (q : Req) (t : Nat) : Bool :=
  decide (w.bytes.length = 32 ∧ bitsOf (leNat (w.bytes.take 4)) 16 16 = q.seq ∧ bitsOf (leNat ((w.bytes.drop 8).take 4)) 16 10 = q.ring ∧
    leNat (w.bytes.drop 24) = t)

/-- The status of a request's record replaced where it waits, is held, or has been written in this nanosecond. -/
def State.amendRecord (s : State) (q : Req) (code : Nat) : State :=
  let fix := fun c : CRec => if c.ring = q.ring ∧ c.seq = q.seq then { c with status := code } else c
  let x := s.ring q.ring
  let put := fun w : HostWrite => if w.isRecord q s.timeBase then { w with bytes := BitVec.ofNat 8 code :: w.bytes.drop 1 } else w
  { s.setRing q.ring { x with waitingRecs := x.waitingRecs.map fix } with heldRecs := s.heldRecs.map fix, hostOut := s.hostOut.map put }

/-- R75, R185, R378: the course that has failed in this cycle has status `code`: in CRS_LAST, in its record of the placement log and in its
completion record. -/
def State.amendStatus (s : State) (c : Course) (code : Nat) : State :=
  ((s.setF Reg.CRS_LAST.STATUS code).writeHbm (s.logSlot + 6) [BitVec.ofNat 8 code]).amendRecord c.req code

/-- R185, R190: the program error that set the status in this cycle no longer does: TRS_PROG_ERR holds what it held before. -/
def State.withdrawProg (s : State) (t : Fall) : State :=
  let n := t.lr / 8
  if t.recorded then
    s.setFs [(Reg.TRS_PROG_ERR.STATUS n, t.old.1), (Reg.TRS_PROG_ERR.LRAFT n, t.old.2.1), (Reg.TRS_PROG_ERR.VALID n, 0),
      (Reg.TRS_PROG_ERR.PC n, t.old.2.2.1), (Reg.TRS_PROG_ERR.COURSE n, t.old.2.2.2)]
  else s

/-- R185: the program error that failed the course in this cycle, if one did. -/
def State.fellNow (s : State) : Option Fall := s.fell.filter fun t => decide (t.at_ = s.now) && s.course.any (·.failed)

/-- R73, R185: a fault latched fails the course in progress, or sets the status of the one that a program error has failed in this cycle. -/
def State.failByFault (s : State) (code : Nat) : State :=
  match s.fellNow, s.course with
  | some t, some c => { (s.withdrawProg t).amendStatus c code with fell := none }
  | _, _ => s.failCourse code

end Sys2Proof.Machine
end

