-- ==== Sys2Proof/Machine/Flags.lean ====
section
/-! DEFINITION. The fault collector: the rise of an error line (R510 to R516), its effect on the course in progress (R73), the fatal
reaction (R540), and the reads of HBM that raise a line (R341). -/

namespace Sys2Proof.Machine

/-- R516: ALIVE stays at the level it has. -/
def State.stopAlive (s : State) : State := s.setF Reg.FLT_ALIVE.RUN 0

/-- R564: Bolyel runs, and no restart by its watchdog is under way. -/
def State.bolyelUp (s : State) : Bool := s.boot.bolyel && decide (s.boot.bolyelBack ≤ s.now)

/-- R562: a rise of a state sensor sends a PlatformEventMessage, while Bolyel runs. -/
def State.platformEvent (s : State) (b : Nat) : State :=
  if s.bolyelUp then { s with mgmtOut := s.mgmtOut ++ [.platformEvent b] } else s

/-- R513: vector 1,024 is signalled, once for all the bits that go from 0 to 1 in one cycle. -/
def State.faultIrq (s : State) (b : Nat) : State :=
  if (s.getF Reg.FLT_IRQ_EN.EN).testBit b && decide (s.faultMsiAt ≠ some s.now)
  then { s.msi 1024 with faultMsiAt := some s.now } else s

/-- R514: a merge window opens when a bit goes from 0 to 1 while none is open; a WIN_US of 0 merges nothing. -/
def State.openMerge (s : State) : State :=
  if s.mergeAt = none ∧ s.getF Reg.FLT_MERGE.WIN_US ≠ 0 then { s with mergeAt := some s.now } else s

/-- R511, R513, R514: bit `b` of FLT_STATUS is set; when it was 0 the interrupt, the merge window and the sensor follow. -/
def State.latchFault (s : State) (b : Nat) : State :=
  if (s.getF Reg.FLT_STATUS.STATUS).testBit b then s
  else ((s.setBit Reg.FLT_STATUS.STATUS b).faultIrq b).openMerge.platformEvent b

/-- R510: the sources that hold their line for as long as their condition lasts. -/
def isCondition (b : Nat) : Bool := [32, 38, 39, 40, 41, 42, 47].contains b

/-- R73: the status with which a fault newly latched fails the course in progress; none where it has no effect. -/
def faultStatus (b : Nat) (fatal hostBytes : Bool) : Option Nat :=
  if fatal then some 0x80
  else if b ≤ 31 ∨ b = 33 ∨ (36 ≤ b ∧ b ≤ 39) ∨ b = 44 ∨ b = 47 then some 0x80
  else if b = 32 then (if hostBytes then some 0x83 else none)
  else if b = 41 then some 0x82
  else if b = 45 then some 0x81
  else none

/-- R540: the sources whose reaction takes rails away and drives the valve. -/
def takesRails (b : Nat) : Bool := [38, 39, 44, 47].contains b

/-- R540: of two fatal sources, the one whose reaction counts: the first, or the first that takes rails away. -/
def worseFatal (old : Option Nat) (b : Nat) : Nat :=
  match old with
  | none => b
  | some a => if !takesRails a && takesRails b then b else a

/-- R540: rails, valve and THERMTRIP_N of the reaction to a fatal source. -/
def State.fatalReaction (s : State) (b : Nat) : State :=
  let s := s.stopAlive
  let s := { s with power := { s.power with fatal := some (worseFatal s.power.fatal b) } }
  if b = 38 ∨ b = 44 ∨ b = 47 then
    { s.setF Reg.PPT_COOL.DUTY 100 with power := { s.power with coreRails := false, hubRails := false } }
  else if b = 39 then
    { s.setF Reg.PPT_COOL.DUTY 100 with power := { s.power with coreRails := false, thermtripN := false } }
  else s.setF Reg.PPT_TARGET.TARGET_W 0

/-- R73, R185, R512: the course in progress fails on a rise, merged or not. -/
def State.faultCourse (s : State) (b : Nat) (fatal : Bool) : State :=
  match s.course with
  | none => s
  | some c =>
    match faultStatus b fatal c.img.hostBytes with
    | none => s
    | some code => s.failByFault code

/-- R510 to R515, R540: error line `b` rises. `hold` says whether a condition holds the line up after the rise. -/
def State.rise (s : State) (b : Nat) (hold : Bool) : State :=
  let fatal := (s.getF Reg.FLT_FATAL.FATAL).testBit b
  let merged := (match s.mergeAt with | some t => decide (t < s.now) | none => false) && !fatal
  let s := if hold then s.setBit Reg.FLT_LINES.LINES b else s
  let s := if merged then (s.bump Reg.FLT_MERGED.COUNT 1).setBit Reg.FLT_MERGED_SRC.SRC b else s.latchFault b
  let s := s.faultCourse b fatal
  if fatal then s.fatalReaction b else s

/-- An event source, or a condition source with a rise of one cycle, raises its line. -/
def State.raiseLine (s : State) (b : Nat) : State := s.rise b false

/-- A condition begins: the line rises and stays; while it is up already nothing new rises. -/
def State.holdLine (s : State) (b : Nat) : State :=
  if (s.getF Reg.FLT_LINES.LINES).testBit b then s else s.rise b true

/-- A condition ends: the line falls; the latched bit stays. -/
def State.dropLine (s : State) (b : Nat) : State := s.clrBit Reg.FLT_LINES.LINES b

/-- R93, R341: a read that belongs to the course: an uncorrectable sector raises bit 8 + s, which fails the course. -/
def State.readHbm (s : State) (a n : Nat) : List Byte × State :=
  let r := s.readQuiet a n
  (r.1, r.2.2.each (s.badStacks a n) fun s st => s.raiseLine (8 + st))

end Sys2Proof.Machine
end

