-- ==== Sys2Proof/Machine/Power.lean ====
section
/-! DEFINITION. Power-on, rails and module reset (R571 to R583), and the gates that keep a command from a part whose rails are off. -/

namespace Sys2Proof.Machine

abbrev Out := Host.Outcome State Fault Refusal

/-- A command of a part on the hub rails: with those rails off nothing answers and nothing changes (R540, R578). -/
def onHub (f : State → State) (s : State) : Out := .next (if s.power.hubRails then f s else s)

/-- A command of the truss dies, the HBM stacks or the links: it needs every main rail (R540, R578). -/
def onCore (f : State → State) (s : State) : Out :=
  .next (if s.power.hubRails ∧ s.power.coreRails then f s else s)

/-- A command of the standby domain, which runs whenever J1 is powered. -/
def onStandby (f : State → State) (s : State) : Out := .next (if s.power.step = .off then s else f s)

/-- R496, R580: the fields that survive a module reset: PPT_CAL_STAT, GEN_RESET, the straps as last sampled, and SVL_FLASH. -/
def keptFields : List Fld :=
  [Reg.PPT_CAL_STAT.VBAT_MV, Reg.PPT_CAL_STAT.VLOW, Reg.PPT_CAL_STAT.INVALID, Reg.PPT_CAL_STAT.SRC,
   Reg.GEN_RESET.CAUSE, Reg.GEN_RESET.RAILFAIL, Reg.GEN_RESET.COUNT, Reg.GEN_STRAP.PWRDOM, Reg.GEN_STRAP.SLOT, Reg.SVL_FLASH.NEWEST,
   Reg.SVL_FLASH.IMAGES]

/-- Every unit at its reset value but what `s` carries over: flash, the kept fields, the command queue, the clock of the model, and
what has already left the module. -/
def State.afterReset (s : State) : State :=
  { State.reset with
    pending := s.pending, now := s.now, calNs := s.calNs, freeCtr := s.freeCtr, flash := s.flash, hostOut := s.hostOut, hostReads := s.hostReads,
    cxlOut := s.cxlOut, msiOut := s.msiOut, flitOut := s.flitOut, mgmtOut := s.mgmtOut }.each keptFields fun t f => t.setF f (s.getF f)

/-- R580: a module reset with its cause: main rails go down, everything outside the standby domain returns to its reset value, and
the sequence restarts at step 3. -/
def State.moduleReset (s : State) (cause : Nat) : State :=
  let t := s.afterReset
  let t := t.setFs [(Reg.GEN_RESET.CAUSE, cause),
    (Reg.GEN_RESET.COUNT, min 0xFFFF (s.getF Reg.GEN_RESET.COUNT + 1))]
  { t with power := { State.reset.power with
      j1Ok := s.power.j1Ok, refOk := s.power.refOk, modrstN := s.power.modrstN, thermtripN := s.power.thermtripN, pinPwrdom := s.power.pinPwrdom,
      pinSlot := s.power.pinSlot, tripReset := !s.power.thermtripN, resetAt := s.now } }

/-- R575, R582: standby is lost; everything stops but the calendar clock, and flash keeps its contents. -/
def standbyLoss (s : State) : State :=
  let t := s.afterReset.setFs [(Reg.GEN_RESET.CAUSE, 1), (Reg.GEN_RESET.RAILFAIL, 0), (Reg.GEN_RESET.COUNT, 0)]
  { t with power := { State.reset.power with
      step := .off, j1Ok := false, clkreqLow := false, modrstN := s.power.modrstN,
      pinPwrdom := s.power.pinPwrdom, pinSlot := s.power.pinSlot } }

/-- R578 step 1, R583: J1 rises through 48 V. `osc`: the oscillator-stop detector fired while J1 was unpowered (R544). With standby up, J1 is
back in its range, and the condition of bit 38 ends (DESIGN CHOICE, assumption 79: the table has no other row for it). -/
def powerOn (osc : Bool) (s : State) : State :=
  if s.power.step = .off then
    let s := s.setFs [(Reg.GEN_RESET.CAUSE, 1), (Reg.GEN_RESET.RAILFAIL, 0), (Reg.GEN_RESET.COUNT, 0)]
    let s := if osc then { s.setF Reg.PPT_CAL_STAT.INVALID 1 with calNs := 0 } else s
    { s with power := { s.power with step := .standby, j1Ok := true, oscStopped := osc } }
  else { s with power := { s.power with j1Ok := true } }.dropLine 38

/-- R578 step 2: the parapet runs, CLKREQ_N is driven low (R91), THERMTRIP_N and the valve are released. -/
def standbyGood (s : State) : State :=
  if s.power.step = .standby then
    let s := { s with power := { s.power with step := .parapet, clkreqLow := true, thermtripN := true } }
    s.setF Reg.PPT_COOL.DUTY 100
  else s

/-- R544: VBAT measured; VLOW below 2.5 V; bit 42 held while VLOW or INVALID. -/
def measureVbat (mv : Nat) (s : State) : State :=
  let s := s.setFs [(Reg.PPT_CAL_STAT.VBAT_MV, mv), (Reg.PPT_CAL_STAT.VLOW, bit (decide (mv < 2500)))]
  if s.on Reg.PPT_CAL_STAT.VLOW || s.on Reg.PPT_CAL_STAT.INVALID then s.holdLine 42 else s.dropLine 42

/-- R578 step 3: VBAT is measured and the straps are sampled (R573). -/
def selfTestPass (mv pwrdom slot : Nat) (s : State) : State :=
  if s.power.step = .parapet then
    let s := { s with power := { s.power with step := .wait, pinPwrdom := pwrdom % 16, pinSlot := slot % 64 } }
    measureVbat mv (s.setFs [(Reg.GEN_STRAP.PWRDOM, pwrdom), (Reg.GEN_STRAP.SLOT, slot), (Reg.SVL_PSTAT.OWN_DOM, pwrdom)])
  else s

/-- R539: every sensor reads at least `m` °C below its parapet trip. -/
def State.belowTrips (s : State) (m : Nat) : Bool :=
  decide (s.getF Reg.PPT_THERM.TRUSS + m ≤ 115 ∧ s.getF Reg.PPT_THERM.HUB + m ≤ 110 ∧
    s.getF Reg.PPT_THERM.DRAM + m ≤ 115 ∧ s.getF Reg.PPT_THERM.PSTAGE + m ≤ 125)

/-- R578 step 4, R579, R581: the sequence may leave step 4: J1 and REF25 lie in their ranges, every sensor reads below its trip, THERMTRIP_N is
high, and fewer than three failures have stopped the sequence. -/
def State.mayRise (s : State) : Bool :=
  s.power.j1Ok && s.power.refOk && s.power.thermtripN && decide (s.power.fails < 3) && s.belowTrips 1

/-- R578 steps 5 and 6: the main rails are sequenced on; sent while they are, the row says that every one is good and the PLLs begin to lock
(DESIGN CHOICE, assumption 79). -/
def railSequence (s : State) : State :=
  if s.power.step = .wait ∧ s.mayRise then
    { s with power := { s.power with step := .rails, coreRails := true, hubRails := true } }
  else if s.power.step = .rails then { s with power := { s.power with step := .plls } }
  else s

/-- R579: a rail misses power good: every main rail goes down and RAILFAIL rises, saturating at 31. -/
def railFail (s : State) : State :=
  if s.power.step = .rails then
    let s := { s with power := { s.power with
      step := .retry, coreRails := false, hubRails := false, fails := s.power.fails + 1 } }
    s.setF Reg.GEN_RESET.RAILFAIL (min 31 (s.getF Reg.GEN_RESET.RAILFAIL + 1))
  else s

/-- R579: 100 ms after a rail failure the sequence returns to step 4. -/
def railRetry (s : State) : State :=
  if s.power.step = .retry then { s with power := { s.power with step := .wait } } else s

/-- R579, R582: the main rails go down, and the sequence returns to step 4. -/
def State.backToWait (s : State) : State := { s with power := { s.power with step := .wait, coreRails := false, hubRails := false } }

/-- R578, R579: steps 5 to 7: the rails are up, and boot has not begun: it waits for MODRST_N, whose fall after that is a module reset. -/
def State.rising (s : State) : Bool :=
  decide (s.power.step = .rails ∨ s.power.step = .plls ∨ (s.power.step = .good ∧ s.power.modrstN = false))

/-- R586: boot stage 0x1 starts with the rails up: the module time base is set to 0. -/
def startBoot (s : State) : State :=
  if s.power.step = .good ∧ s.power.modrstN ∧ s.power.hubRails then { s.setF Reg.SEC_BOOT_STAT.STAGE 1 with timeBase := 0 } else s

/-- R578 steps 6 and 7: the PLLs have locked: power good; boot starts at the later of this and MODRST_N high. From step 5 the row passes
through step 6 at once. -/
def powerGood (s : State) : State :=
  if (s.power.step = .rails ∨ s.power.step = .plls) ∧ s.power.hubRails then startBoot { s with power := { s.power with step := .good } } else s

/-- R578 step 7: MODRST_N goes high. -/
def modrstRelease (s : State) : State :=
  if s.power.modrstN then s else startBoot { s with power := { s.power with modrstN := true } }

/-- R580, R582: MODRST_N held low for 10 µs: a module reset after step 3; in the same 100 µs as a self-reset it is one reset, whose
CAUSE records MODRST_N. -/
def modrstAssert (s : State) : State :=
  let s := { s with power := { s.power with modrstN := false } }
  match s.power.step with
  | .wait | .retry | .rails | .plls | .good => s.moduleReset 2
  | .parapet =>
    if s.getF Reg.GEN_RESET.CAUSE = 3 ∧ s.now ≤ s.power.resetAt + 100000 then s.setF Reg.GEN_RESET.CAUSE 2 else s
  | _ => s

/-- R575, R579: J1 outside its range: during steps 5 to 7 the rails go down and the sequence returns to step 4; in operation bit 38
is raised; before step 4 the sequence only waits. -/
def j1Fault (s : State) : State :=
  let s := { s with power := { s.power with j1Ok := false } }
  if s.rising then s.backToWait else if s.power.step = .good then s.holdLine 38 else s

/-- R539, R581, R582: the analog comparator asserts THERMTRIP_N and removes every rail except standby; during steps 5 to 7 the sequence
returns to step 4. -/
def hardwareTrip (s : State) : State :=
  let s := { s with power := { s.power with thermtripN := false, tripReset := false } }
  if s.rising then s.backToWait else { s with power := { s.power with coreRails := false, hubRails := false } }

/-! ### The commands -/

def execPowerOn (osc : Bool) (s : State) : Out := .next (powerOn osc s)
def execStandbyGood (s : State) : Out := onStandby standbyGood s
def execSelfTestPass (mv pwrdom slot : Nat) (s : State) : Out := onStandby (selfTestPass mv pwrdom slot) s
def execRailSequence (s : State) : Out := onStandby railSequence s
def execRailFail (s : State) : Out := onStandby railFail s
def execRailRetry (s : State) : Out := onStandby railRetry s
def execPowerGood (s : State) : Out := onStandby powerGood s
def execJ1Overvoltage (s : State) : Out := onStandby j1Fault s
def execJ1Undervoltage (s : State) : Out := onStandby j1Fault s
def execStandbyLoss (s : State) : Out := onStandby standbyLoss s
/-- The level of a pin is seen whatever the power (R578, R582: MODRST_N may be low before J1 is applied). -/
def execModrstAssert (s : State) : Out := .next (modrstAssert s)
def execModrstRelease (s : State) : Out := .next (modrstRelease s)
def execHardwareTrip (s : State) : Out := onStandby hardwareTrip s
def execVbatSample (mv : Nat) (s : State) : Out := onStandby (measureVbat mv) s

/-- R577, R578, R582: REF25 compared; `good` says it is present and within 200 ppm, with every PLL in lock. From step 6 on bit 47 holds while
it is not; lost in step 5, the rails go down and the sequence waits at step 4. -/
def refCheck (good : Bool) (s : State) : State :=
  let s := { s with power := { s.power with refOk := good } }
  if s.power.step = .good ∨ s.power.step = .plls then (if good then s.dropLine 47 else s.holdLine 47)
  else if s.power.step = .rails ∧ !good then s.backToWait
  else s
def execRefCheck (good : Bool) (s : State) : Out := onStandby (refCheck good) s

end Sys2Proof.Machine
end

