-- ==== Sys2Proof/Machine/Parapet.lean ====
section
/-! DEFINITION. The parapet (R524 to R546): signed commands, floor and ceiling, the power limit admission uses, valve, coolant and
thermal conditions. -/

namespace Sys2Proof.Machine

/-! ### Signed commands -/

/-- Bytes of a list of 64-bit words (R14). -/
def wordBytes (ws : List W64) : List Byte := ws.flatMap fun w => leBytes 8 w.toNat

/-- A 384-bit number of six words, most significant in the first (R526). -/
def wideWords (ws : List W64) : Nat := ws.foldl (fun a w => a * 2 ^ 64 + w.toNat) 0

/-- R528: the object a manifest is, split into its body. -/
def objBody (o : List Byte) : List Byte := o.drop 0x1000

/-- R548: the COOL bounds of the manifest in force: minimum and maximum number `i` of LEAD_MS, DT_SET, CP, FLOW_FULL. -/
def State.coolBounds (s : State) (i : Nat) : Nat × Nat :=
  match s.boot.manifest with
  | none => (1, 0)
  | some m => (leNat (((objBody m).drop (0x700 + 8 * i)).take 4), leNat (((objBody m).drop (0x704 + 8 * i)).take 4))

def inBounds (b : Nat × Nat) (v : Nat) : Bool := decide (b.1 ≤ v ∧ v ≤ b.2)

/-- R527: the operands of opcode `op` lie within their permitted values. -/
def State.ppOperandsOk (s : State) (op : Nat) (a0 a1 : W64) : Bool :=
  match op with
  | 1 => decide (1000 ≤ wbits a0 0 13 ∧ wbits a0 0 13 ≤ 4800 ∧ 500 ≤ wbits a0 16 13 ∧ wbits a0 16 13 ≤ wbits a0 0 13)
  | 2 => decide (1 ≤ wbits a0 0 8 ∧ wbits a0 0 8 ≤ 200 ∧ wbits a0 8 12 ≤ 1000)
  | 3 => decide (wbits a0 0 13 = 0 ∨
      (s.getF Reg.PPT_IDLE.IDLE_W ≤ wbits a0 0 13 ∧ wbits a0 0 13 ≤ s.getF Reg.PPT_LIMIT.LIMIT_W))
  | 4 => inBounds (s.coolBounds 0) (wbits a0 0 16) && inBounds (s.coolBounds 1) (wbits a0 16 8) &&
      inBounds (s.coolBounds 2) (wbits a0 24 16) && inBounds (s.coolBounds 3) (wbits a0 40 12) && decide (wbits a1 0 16 ≠ 0)
  | 5 => decide (70 ≤ wbits a0 0 8 ∧ wbits a0 0 8 ≤ 110)
  | _ => true

/-- R526: the signature of a command verifies under a live key with parapet authority. -/
def State.ppSigned (s : State) (ws : List W64) : Bool :=
  let h := sha384 (wordBytes (ws.take 8))
  s.flash.keys.any fun k => k.auth.testBit 1 &&
    ecdsaVerify k.key h (wideWords ((ws.drop 8).take 6)) (wideWords ((ws.drop 14).take 6))

/-- R528: the result of a command's checks, in order; the PPT_VALVE layout of SET_COOL has reserved bits [63:52] (R546). `via`: 0 I3C, 1 the CXL binding, 2 the management Ethernet. -/
def State.ppCheck (s : State) (via : Nat) (ws : List W64) : Nat :=
  let w0 := ws.getD 0 0
  let op := wbits w0 16 8
  if via = 1 then 1
  else if ws.length ≠ 20 ∨ wbits w0 0 16 ≠ 0x9A7E ∨ op = 0 ∨ 8 ≤ op ∨ wbits w0 24 40 ≠ 0 ∨ wbits (ws.getD 1 0) 48 16 ≠ 0 ∨
    (op = 4 ∧ wbits (ws.getD 3 0) 52 12 ≠ 0) ∨ ws.getD 6 0 ≠ 0 ∨ ws.getD 7 0 ≠ 0 then 2
  else if (ws.getD 2 0).toNat ≠ s.getF Reg.SEC_ID.IDHASH then 3
  else if wbits (ws.getD 1 0) 0 48 ≤ s.getF Reg.PPT_CMD.SEQ then 4
  else if !s.ppSigned ws then 5
  else if !s.ppOperandsOk op (ws.getD 3 0) (ws.getD 4 0) then 6
  else 0

/-- R543: calendar time of 64 bits, seconds in [63:16] and 1/65,536 s in [15:0], from nanoseconds, and the first
nanosecond that reads as one. -/
def calFromNs (ns : Nat) : Nat := ns / 1000000000 * 65536 + ns % 1000000000 * 65536 / 1000000000
def calToNs (c : Nat) : Nat := c / 65536 * 1000000000 + ceilDiv (c % 65536 * 1000000000) 65536
/-- R543: the calendar as PPT_CAL reads; R544: a stamp taken while INVALID is 1 is 0. -/
def State.calendar (s : State) : Nat := calFromNs s.calNs
def State.stamp (s : State) : Nat := if s.on Reg.PPT_CAL_STAT.INVALID then 0 else s.calendar

/-- R543, R544: the calendar is set by PTP (1) or SET_CAL (2); bit 42 is released unless VBAT is low. -/
def State.setCalendar (s : State) (ns src : Nat) : State :=
  let s := { s.setFs [(Reg.PPT_CAL_STAT.INVALID, 0), (Reg.PPT_CAL_STAT.SRC, src)] with calNs := ns }
  if s.on Reg.PPT_CAL_STAT.VLOW then s else s.dropLine 42

/-- R527, R529: what an accepted command sets. -/
def State.ppApply (s : State) (op : Nat) (a0 a1 : W64) : State :=
  match op with
  | 1 => s.setFs [(Reg.PPT_LIMIT.LIMIT_W, wbits a0 0 13), (Reg.PPT_LIMIT.DERATE_W, wbits a0 16 13)]
  | 2 => s.setFs [(Reg.PPT_RAMP.SLOPE, wbits a0 0 8), (Reg.PPT_RAMP.BAND_W, wbits a0 8 12)]
  | 3 => s.setFs [(Reg.PPT_TARGET.TARGET_W, wbits a0 0 13), (Reg.PPT_TARGET.HOLD_MS, wbits a0 16 16)]
  | 4 => s.setFs [(Reg.PPT_VALVE.LEAD_MS, wbits a0 0 16), (Reg.PPT_VALVE.DT_SET, wbits a0 16 8),
      (Reg.PPT_VALVE.CP, wbits a0 24 16), (Reg.PPT_VALVE.FLOW_FULL, wbits a0 40 12), (Reg.PPT_FLOWK.FLOW_K, wbits a1 0 16)]
  | 5 => s.setF Reg.PPT_THERM.JT_WARN (wbits a0 0 8)
  | 6 => s.setF Reg.FLT_FATAL.FATAL (wbits a0 0 48 ||| 0x90C000000000)
  | 7 =>
    (s.setCalendar (calToNs a0.toNat) 2)
  | _ => s

/-- R528: a command is checked, its result recorded and returned by Bolyel, and applied when it is accepted. -/
def ppCommand (via : Nat) (ws : List W64) (s : State) : State :=
  let op := wbits (ws.getD 0 0) 16 8
  let r := s.ppCheck via ws
  let s := s.setFs [(Reg.PPT_CMD.RESULT, r), (Reg.PPT_CMD.OPCODE, op)]
  let s := { s with mgmtOut := s.mgmtOut ++ [.parapet op r] }
  if r = 0 then
    let seq := wbits (ws.getD 1 0) 0 48
    let s := s.setF Reg.PPT_CMD.SEQ seq
    ({ s with flash := { s.flash with cmdSeq := seq } }).ppApply op (ws.getD 3 0) (ws.getD 4 0)
  else s

/-- A command reaches the parapet through Bolyel (R526); the command of a row carries that row's opcode. -/
def ppRow (op via : Nat) (ws : List W64) (s : State) : State :=
  if s.bolyelUp ∧ wbits (ws.getD 0 0) 16 8 = op then ppCommand via ws s else s

def execSetLimit (via : Nat) (ws : List W64) (s : State) : Out := onHub (ppRow 1 via ws) s
def execSetRamp (via : Nat) (ws : List W64) (s : State) : Out := onHub (ppRow 2 via ws) s
def execSetTarget (via : Nat) (ws : List W64) (s : State) : Out := onHub (ppRow 3 via ws) s
def execSetCool (via : Nat) (ws : List W64) (s : State) : Out := onHub (ppRow 4 via ws) s
def execSetTherm (via : Nat) (ws : List W64) (s : State) : Out := onHub (ppRow 5 via ws) s
def execSetFatal (via : Nat) (ws : List W64) (s : State) : Out := onHub (ppRow 6 via ws) s
def execSetCal (via : Nat) (ws : List W64) (s : State) : Out := onHub (ppRow 7 via ws) s

/-- R527, R528: a command with a reserved opcode, or malformed, is refused; nothing else happens. -/
def ppReserved (via : Nat) (ws : List W64) (s : State) : State :=
  if s.bolyelUp ∧ s.ppCheck via ws ∈ [1, 2] then ppCommand via ws s else s
def execReservedParapetOpcode (via : Nat) (ws : List W64) (s : State) : Out := onHub (ppReserved via ws) s

/-! ### Draw, floor and ceiling -/

/-- R531: where the floor moves to, in hundredths of a watt. -/
def State.floorTarget (s : State) : Nat := max (s.getF Reg.PPT_TARGET.TARGET_W) (s.getF Reg.PPT_IDLE.IDLE_W) * 100

/-- R540: a fatal reaction takes rails away and drives the valve. -/
def State.valveForced (s : State) : Bool :=
  match s.power.fatal with | some b => takesRails b | none => false

/-- R532: the floor may fall now: an idle window, not that of a failed course, HOLD_MS past since the last course window closed; a fatal reaction of another
source lets it fall in any case (R540). -/
def State.fallAllowed (s : State) : Bool :=
  (match s.power.fatal with | some b => !takesRails b | none => false) ||
  (s.on Reg.CRS_STATUS.IDLE && s.course.isNone && decide (s.getF Reg.PPT_TARGET.HOLD_MS ≠ 0xFFFF ∧
    s.power.windowClosedAt + s.getF Reg.PPT_TARGET.HOLD_MS * 1000000 ≤ s.now))

/-- R531, R532: the floor after one step of 10 µs. -/
def State.floorStep (s : State) : Nat :=
  let f := s.power.floorCw
  let t := s.floorTarget
  let d := s.getF Reg.PPT_RAMP.SLOPE
  if f ≤ t then min t (f + d) else if s.fallAllowed then max t (f - d) else f

/-- R533: the floor as it will stand `ns` from now, projected at SLOPE from its present value and target, in hundredths of a watt. -/
def State.floorAfter (s : State) (ns : Nat) : Nat :=
  let f := s.power.floorCw
  let t := s.floorTarget
  let d := s.getF Reg.PPT_RAMP.SLOPE * ns / 10000
  if f ≤ t then min t (f + d)
  else if s.fallAllowed then max t (f - d)
  else if s.on Reg.CRS_STATUS.IDLE ∧ s.course.isNone ∧ s.getF Reg.PPT_TARGET.HOLD_MS ≠ 0xFFFF then
    let start := s.power.windowClosedAt + s.getF Reg.PPT_TARGET.HOLD_MS * 1000000 - s.now
    max t (f - s.getF Reg.PPT_RAMP.SLOPE * (ns - start) / 10000)
  else f

/-- R533: the power limit in force for a window that opens `ns` from now, in watts. -/
def State.powerLimit (s : State) (ns : Nat) : Nat :=
  let l := min (s.getF Reg.PPT_LIMIT.LIMIT_W) (s.floorAfter ns / 100 + s.getF Reg.PPT_RAMP.BAND_W)
  if s.on Reg.PPT_STAT.DERATED then min l (s.getF Reg.PPT_LIMIT.DERATE_W) else l

/-- The ns that `n` beats last at the locked period. -/
def State.beatsNs (s : State) (n : Nat) : Nat := n * s.beat.period7 / 7000

/-- R55: the ridge that ends the window that runs, a course's or an idle one. -/
def State.windowEnd (s : State) : Nat := s.beat.ridgeAt + s.beatsNs (match s.course with | some c => c.img.beats | none => 1)

/-- R533: ns until the next window opens, at the locked period. -/
def State.nsToWindow (s : State) : Nat := s.windowEnd - s.now

/-- R58, R64: the first ridge at or after `nb` when windows may open from `t` on: idle windows of one beat pass until then. -/
def State.ridgeFrom (s : State) (t nb : Nat) : Nat :=
  let b := max 1 (s.beatsNs 1)
  if t < nb then t + (nb - t + b - 1) / b * b else t

/-- R64: the expected opening ridges of courses that wait, the first of which may open at `t`, and the ridge at which the last one's window
ends. Each course takes the window after the one before it. -/
def State.openings (s : State) : Nat → List Adm → List (Adm × Nat) × Nat
  | t, [] => ([], t)
  | t, a :: as =>
    let o := s.ridgeFrom t (max a.notBefore s.now)
    let r := s.openings (o + s.beatsNs a.img.beats) as
    ((a, o) :: r.1, r.2)

/-- R531 to R533, R536: every 10 µs the parapet measures the draw (`meas` watts; `joules` spent by flashing since the last sample;
`short`: all idle units together cannot reach the floor), moves the floor and reports; a reaction that takes rails away abandons the floor
(R545). -/
def drawSample (meas joules : Nat) (short : Bool) (s : State) : State :=
  let s := (s.setF Reg.PPT_DRAW.MEAS_W meas).bump Reg.PPT_FLASH.ENERGY_J joules
  if s.power.floorOn && !s.valveForced then
    let held := decide (s.floorTarget < s.power.floorCw) && !s.fallAllowed
    let s := { s with power := { s.power with floorCw := s.floorStep } }
    s.setFs [(Reg.PPT_DRAW.FLOOR_W, s.power.floorCw / 100),
      (Reg.PPT_DRAW.CEIL_W, s.power.floorCw / 100 + s.getF Reg.PPT_RAMP.BAND_W),
      (Reg.PPT_DRAW.INFORCE_W, s.powerLimit s.nsToWindow),
      (Reg.PPT_STAT.AT_TARGET, bit (decide (s.power.floorCw = s.floorTarget))),
      (Reg.PPT_STAT.HOLDING, bit held), (Reg.PPT_STAT.FLASH_SHORT, bit short)]
  else s
def execDrawSample (meas joules : Nat) (short : Bool) (s : State) : Out := onStandby (drawSample meas joules short) s

/-- R534: after 100 µs of overdraw the arithmetic clock is lowered by one sixteenth and counted; after 1 ms below it is restored by one
step. -/
def overdrawStep (above : Bool) (s : State) : State :=
  if above then
    ({ s with power := { s.power with clockSteps := s.power.clockSteps + 1 } }.bump Reg.PPT_OVER.COUNT 1).setF Reg.PPT_STAT.OVERDRAW 1
  else
    let s := { s with power := { s.power with clockSteps := s.power.clockSteps - 1 } }
    s.setF Reg.PPT_STAT.OVERDRAW (bit (decide (s.power.clockSteps ≠ 0)))
def execOverdrawStep (above : Bool) (s : State) : Out := onStandby (overdrawStep above) s

/-! ### Coolant valve -/

/-- The planned draw of a course that opens at `t0` over [now, now + ns]: the highest POWER_W of a phase whose worst-case time meets
that interval (R537). A phase runs from its start as admission times it (R68) to its deadline. -/
def plannedPhases (now ns t0 : Nat) (img : Image) : List Nat :=
  ((List.zip (List.zip img.starts img.deadlines) img.power).filter fun x =>
    decide (t0 + x.1.1 ≤ now + ns ∧ now ≤ t0 + x.1.2)).map (·.2)

/-- R537: the highest planned draw over the look-ahead, in watts. -/
def State.plannedDraw (s : State) : Nat :=
  let ns := s.getF Reg.PPT_VALVE.LEAD_MS * 1000000
  let fl := max s.power.floorCw (s.floorAfter ns) / 100
  let run := match s.course with
    | some c => if c.failed then [] else plannedPhases s.now ns s.beat.ridgeAt c.img
    | none => []
  (run ++ (s.openings s.windowEnd s.waiting).1.flatMap fun x => plannedPhases s.now ns x.2 x.1.img).foldl max fl

/-- R537: the duty, `ceil(100 × (Qff + trim) / FLOW_FULL)` clamped to 0 to 100; the trim is held in 1/320 L/min. -/
def State.valveDuty (s : State) (trim : Int) : Nat :=
  let cd := s.getF Reg.PPT_VALVE.CP * s.getF Reg.PPT_VALVE.DT_SET
  let den := 320 * cd * s.getF Reg.PPT_VALVE.FLOW_FULL
  if den = 0 then Config.openDuty s.freeCtr % 101
  else
    let num : Int := 10000 * (19200 * (s.plannedDraw : Int) + trim * (cd : Int))
    (min 100 (max 0 (-((-num) / (den : Int))))).toNat

/-- R537: every 10 ms the valve duty is set from the planned draw and the outlet rise; `tin`, `tout` in 1/16 °C (R574: an open or shorted
input reads 0xFFF). The measured flow is FLOW_TACH's pulses over FLOW_K litres; `pulses`: those of the last second (DESIGN CHOICE,
assumption 80). -/
def valveUpdate (tin tout pulses : Nat) (s : State) : State :=
  let flow := min 0xFFFF (pulses * 6000 / s.getF Reg.PPT_FLOWK.FLOW_K)
  let s := s.setFs [(Reg.PPT_COOL.TIN, tin), (Reg.PPT_COOL.TOUT, tout), (Reg.PPT_COOL.FLOW, flow)]
  let t : Int := s.power.trim + ((tout : Int) - (tin : Int) - 16 * (s.getF Reg.PPT_VALVE.DT_SET : Int))
  let trim := min 640 (max (-640) t)
  let s := { s with power := { s.power with trim := trim } }
  let duty := if s.on Reg.PPT_STAT.TWARN || s.valveForced then 100 else s.valveDuty trim
  (s.setF Reg.PPT_COOL.DUTY duty).nextFree
def execValveUpdate (tin tout pulses : Nat) (s : State) : Out := onStandby (valveUpdate tin tout pulses) s

/-! ### Conditions -/

/-- R538, R539, R545: one derating, for a coolant condition or a thermal warning. -/
def State.setDerated (s : State) : State :=
  s.setF Reg.PPT_STAT.DERATED (bit (!s.power.coolCauses.isEmpty || s.on Reg.PPT_STAT.TWARN))

/-- R538: a flow, inlet or rise condition (CAUSE 1, 2 or 3) has lasted its time, or has ended. -/
def coolantCondition (cause : Nat) (holds : Bool) (s : State) : State :=
  if cause = 0 ∨ 3 < cause then s else
  let cs := if holds then (if s.power.coolCauses.contains cause then s.power.coolCauses else s.power.coolCauses ++ [cause])
            else s.power.coolCauses.filter (· ≠ cause)
  let s := { s with power := { s.power with coolCauses := cs } }
  let s := s.setF Reg.PPT_COOL.CAUSE (cs.headD 0)
  let s := if cs.isEmpty then s.dropLine 40 else s.holdLine 40
  s.setDerated
def execCoolantCondition (cause : Nat) (holds : Bool) (s : State) : Out := onStandby (coolantCondition cause holds) s

/-- R338, R339, R539, R581: every 100 µs the sensors are read: warn (for DRAM 105 °C, where R338 throttles) sets TWARN and DERATED, 5 °C below every warn threshold clears them, a parapet
trip in operation raises bit 39, and THERMTRIP_N is released after a module reset once every sensor is 10 °C below its trip. -/
def thermalSample (truss hub dram pstage : Nat) (s : State) : State :=
  let s := s.setFs [(Reg.PPT_THERM.TRUSS, truss), (Reg.PPT_THERM.HUB, hub), (Reg.PPT_THERM.DRAM, dram),
    (Reg.PPT_THERM.PSTAGE, pstage)]
  let jt := s.getF Reg.PPT_THERM.JT_WARN
  let s := if jt ≤ truss ∨ 95 ≤ hub ∨ 105 ≤ dram ∨ 110 ≤ pstage then (s.setFs [(Reg.PPT_STAT.TWARN, 1), (Reg.PPT_COOL.DUTY, 100)])
           else if truss + 5 ≤ jt ∧ hub ≤ 90 ∧ dram ≤ 100 ∧ pstage ≤ 105 then s.setF Reg.PPT_STAT.TWARN 0 else s
  let s := s.setDerated
  let s := if s.power.step = .good then
             (if s.belowTrips 1 then s.dropLine 39 else s.holdLine 39)
           else s
  if !s.power.thermtripN ∧ s.power.tripReset ∧ s.belowTrips 10 then
    { s with power := { s.power with thermtripN := true, tripReset := false } } else s
def execThermalSample (truss hub dram pstage : Nat) (s : State) : Out := onStandby (thermalSample truss hub dram pstage) s

/-- R516: ALIVE changes level every 500 µs while it runs. -/
def aliveToggle (s : State) : State :=
  if s.on Reg.FLT_ALIVE.RUN then s.setF Reg.FLT_ALIVE.LEVEL (1 - s.getF Reg.FLT_ALIVE.LEVEL) else s
def execAliveToggle (s : State) : Out := onStandby aliveToggle s

end Sys2Proof.Machine
end

