-- ==== Sys2Proof/Machine/HbmCtl.lean ====
section
/-! DEFINITION. The HBM commands (R338 to R353): temperature, scrub, injection, loop-back, retraining, migration and map-out. -/

namespace Sys2Proof.Machine

/-! ### Temperature (R338) -/

/-- The row of R338's table a temperature falls in. -/
def dramRow (t : Nat) : Nat := if t < 85 then 0 else if t < 95 then 1 else if t < 105 then 2 else if t < 110 then 3 else 4
/-- The lower bound of a row. -/
def dramLow (r : Nat) : Nat := match r with | 0 => 0 | 1 => 85 | 2 => 95 | 3 => 105 | _ => 110
/-- REFRESH and THROTTLE of a row. -/
def dramRefresh (r : Nat) : Nat := min r 2
def dramThrottle (r : Nat) : Nat := r - 2
/-- The row a stack is in, from its REFRESH and THROTTLE. -/
def State.dramRowOf (s : State) (st : Nat) : Nat := s.getF (Reg.MEM_TEMP.REFRESH st) + s.getF (Reg.MEM_TEMP.THROTTLE st)
/-- R338: the lowest row reached from `r` going down one row at a time, each 3 °C below its lower bound. -/
def dramFall (t : Nat) : Nat → Nat
  | 0 => 0
  | r + 1 => if t + 3 ≤ dramLow (r + 1) then dramFall t r else r + 1

/-- R338: a stack samples its hottest DRAM temperature. -/
def dramTempSample (st t : Nat) (s : State) : State :=
  let r := max (dramRow t) (dramFall t (s.dramRowOf st))
  s.setFs [(Reg.MEM_TEMP.TEMP st, t), (Reg.MEM_TEMP.TPEAK st, max t (s.getF (Reg.MEM_TEMP.TPEAK st))),
    (Reg.MEM_TEMP.REFRESH st, dramRefresh r), (Reg.MEM_TEMP.THROTTLE st, dramThrottle r)]
def execDramTempSample (st t : Nat) (s : State) : Out := onCore (dramTempSample st t) s

/-- R354: a write to MEM_TEMP with PEAK_CLR 1 clears TPEAK. -/
def writeMemTemp (st v : Nat) (s : State) : State := if v.testBit 20 then s.setF (Reg.MEM_TEMP.TPEAK st) 0 else s

/-! ### Scrub and injection -/

/-- R343: patrol scrub reads one sector: what it corrects is written back, what it cannot is marked poisoned and counted; a sector that is
marked already stays as it is. -/
def scrubRead (sec : Nat) (s : State) : State :=
  let lq := s.placeOf (sec * 64)
  let st := stackOf lq.1
  if s.on (Reg.MEM_SCRUB.EN st) then
    match s.sectorState sec with
    | .clean => s
    | .corrected => s.readSector sec
    | .bad => if s.poison.contains sec then s else { s.bump (Reg.MEM_PCH_UE.UE_SCRUB st (s.physOf st (chanOf lq.1) lq.2)) 1 with poison := insertSorted sec s.poison }
  else s
def execScrubRead (sec : Nat) (s : State) : Out := onCore (scrubRead sec) s

/-- R345: a write to MEM_INJECT: LCH and MODE are stored, a 1 in ARM arms. -/
def writeMemInject (st v : Nat) (s : State) : State :=
  let s := s.setFs [(Reg.MEM_INJECT.LCH st, bitsOf v 1 5), (Reg.MEM_INJECT.MODE st, bitsOf v 6 1)]
  if v.testBit 0 then s.setF (Reg.MEM_INJECT.ARM st) 1 else s

/-! ### Loop-back (R346) -/

/-- R346: a write to MEM_LOOP: DUR_US is stored, REFUSED cleared by W1C, and a 1 in START runs the test, or sets REFUSED while
CRS_CTRL.ENABLE is 1 or a migration runs in the stack. -/
def writeMemLoop (st v : Nat) (s : State) : State :=
  let s := s.setF (Reg.MEM_LOOP.DUR_US st) (bitsOf v 16 16)
  let s := if v.testBit 2 then s.setF (Reg.MEM_LOOP.REFUSED st) 0 else s
  if v.testBit 0 then
    if s.on Reg.CRS_CTRL.ENABLE || s.on (Reg.MEM_STAT.MIG st) then s.setF (Reg.MEM_LOOP.REFUSED st) 1
    else s.setFs [(Reg.MEM_LOOP.START st, 1), (Reg.MEM_LOOP.DONE st, 0), (Reg.MEM_LOOP.ERRS st, 0)]
  else s

/-- R346: after DUR_US the test ends with its count of bit errors. -/
def loopbackDone (st errs : Nat) (s : State) : State :=
  if s.on (Reg.MEM_LOOP.START st) then
    s.setFs [(Reg.MEM_LOOP.START st, 0), (Reg.MEM_LOOP.DONE st, 1), (Reg.MEM_LOOP.ERRS st, errs)]
  else s
def execLoopbackDone (st errs : Nat) (s : State) : Out := onCore (loopbackDone st errs) s

/-! ### Retraining -/

/-- R344: a write of 1 to RETRAIN makes the logical channel's physical channel retrain-pending. -/
def writeLchStat (st c v : Nat) (s : State) : State :=
  if v.testBit 19 then
    let s := if s.getF (Reg.MEM_LCH_STAT.STATE st c) = 0 then s.setF (Reg.MEM_LCH_STAT.STATE st c) 1 else s
    { s with retrainPend := insertSorted (34 * st + s.getF (Reg.MEM_LCH_STAT.PHYS st c)) s.retrainPend }
  else s

/-- R344: a CRC mismatch on a physical channel is replayed, and counted. -/
def State.crcReplay (s : State) (st p : Nat) : State := s.bump (Reg.MEM_PCH_CE.CRC st p) 1

/-- R341, R352: a physical channel stops answering: its requests return poisoned data, and it becomes retrain-pending. -/
def State.channelDies (s : State) (st p : Nat) : State :=
  { s with deadChans := insertSorted (34 * st + p) s.deadChans }.retrainNext (34 * st + p)

/-- R340: `n` more symbols of a stored sector are in error. -/
def State.symbolErrors (s : State) (sec n : Nat) : State :=
  { s with symErr := SMap.put 0 sec (min 72 (SMap.look 0 sec s.symErr + n)) s.symErr }

/-- R344: physical channels in service, those a migration reads among them, whose CE or CRC count rose in the window by more than its
limit. -/
def State.overLimit (s : State) : List Nat :=
  (List.range 680).filter fun i =>
    let st := i / 34
    let p := i % 34
    let b := SMap.look (0, 0) i s.chanBase
    decide ((s.getF (Reg.MEM_PCH_STAT.STATE st p) = 0 ∨ s.getF (Reg.MEM_PCH_STAT.STATE st p) = 2) ∧
      (s.getF (Reg.MEM_CTRL.CE_LIMIT st) < s.getF (Reg.MEM_PCH_CE.CE st p) - b.1 ∨
       s.getF (Reg.MEM_CTRL.CRC_LIMIT st) < s.getF (Reg.MEM_PCH_CE.CRC st p) - b.2))

/-- R344: at a ridge that closes a window, the channels over their limits become retrain-pending; the counts of the next window start. -/
def State.closeChannelCounts (s : State) (closes : Bool) : State :=
  let s := s.each (if closes then s.overLimit else []) State.retrainNext
  { s with chanBase := (List.range 680).foldl (fun m i =>
      SMap.put (0, 0) i (s.getF (Reg.MEM_PCH_CE.CE (i / 34) (i % 34)), s.getF (Reg.MEM_PCH_CE.CRC (i / 34) (i % 34))) m) [] }

/-- R347, R348: the repair window opens for each retrain-pending channel of a logical position whose stack is at 100 °C or below. -/
def State.startRetrains (s : State) : State :=
  let pend := s.retrainPend.filter fun i => decide (s.getF (Reg.MEM_PCH_STAT.LOGICAL (i / 34) (i % 34)) < 32)
  let go := pend.filter fun i => decide (s.getF (Reg.MEM_TEMP.TEMP (i / 34)) ≤ 100)
  let s := s.each go fun s i =>
    (s.setF (Reg.MEM_PCH_STAT.STATE (i / 34) (i % 34)) 4).bump (Reg.MEM_PCH_UE.RETRAINS (i / 34) (i % 34)) 1
  { s with retrainPend := pend.filter (fun i => !go.contains i), retraining := s.retraining ++ go }

/-- R348: the lowest free spare of a stack. -/
def State.freeChannel (s : State) (st : Nat) : Option Nat :=
  (List.range 34).find? fun p => s.getF (Reg.MEM_PCH_STAT.STATE st p) = 1

/-- The migration of a logical channel, if one runs. -/
def State.migOf (s : State) (st c : Nat) : Option Mig := s.migs.find? fun m => m.stack = st && m.lch = c

/-- R348, R350: spare `d` takes logical channel `c` of a stack from physical channel `p`; the dual map is set. -/
def State.startMigration (s : State) (st c p d : Nat) (dead : Bool) : State :=
  let s := s.setFs [(Reg.MEM_PCH_STAT.LOGICAL st d, c), (Reg.MEM_PCH_STAT.STATE st d, 0),
    (Reg.MEM_PCH_STAT.STATE st p, 2), (Reg.MEM_LCH_STAT.STATE st c, 2), (Reg.MEM_LCH_STAT.PHYS st c, p),
    (Reg.MEM_LCH_MIG.DONE st c, 0), (Reg.MEM_LCH_MIG.TOTAL st c, 393216),
    (Reg.MEM_STAT.FREE st, s.getF (Reg.MEM_STAT.FREE st) - 1),
    (Reg.GEN_SPARES.CHAN_FREE, s.getF Reg.GEN_SPARES.CHAN_FREE - 1)]
  let old := s.migOf st c
  let s := if old.isSome then s else s.bump (Reg.MEM_STAT.MIG st) 1
  { s with migs := s.migs.filter (fun m => !(m.stack = st && m.lch = c)) ++ [⟨st, c, p, some d, 0, dead⟩] }

/-- R348: the position is lost: bit 8 + s rises, failing the course of this window, and a map-out is due at its closing ridge. -/
def State.losePosition (s : State) (st c : Nat) (dead : Bool) : State :=
  { s with mapOutDue := s.mapOutDue ++ [(20 * c + st, dead)] }.raiseLine (8 + st)

/-- R352: the source of logical channel `c`'s migration is dead. -/
def Mig.markDead (st c : Nat) (m : Mig) : Mig := if m.stack = st && m.lch = c then { m with dead := true } else m

/-- R348, R352: a physical channel has retrained marginal or dead. R540: after a fatal rise no replacement is committed, so a marginal channel
goes on serving and a dead one answers nothing. -/
def State.channelLost (s : State) (st p : Nat) (dead : Bool) : State :=
  let c := s.getF (Reg.MEM_PCH_STAT.LOGICAL st p)
  if s.power.fatal.isSome then
    if dead then { s with deadChans := insertSorted (34 * st + p) s.deadChans }.raiseLine (8 + st) else s
  else match s.migOf st c with
  | some m =>
    if m.dst = some p then
      let s := s.setFs [(Reg.MEM_PCH_STAT.STATE st p, 3), (Reg.MEM_PCH_STAT.LOGICAL st p, 0x3F)]
      match s.freeChannel st with
      | some d => s.startMigration st c m.src d m.dead
      | none =>
        let s := { s with migs := s.migs.filter (fun x => !(x.stack = st && x.lch = c)) }
        (s.setFs [(Reg.MEM_STAT.MIG st, s.getF (Reg.MEM_STAT.MIG st) - 1), (Reg.MEM_LCH_STAT.STATE st c, 0),
          (Reg.MEM_PCH_STAT.STATE st m.src, 0)]).losePosition st c m.dead
    else
      let s := s.setF (Reg.MEM_PCH_STAT.STATE st p) 2
      if dead then
        { s with migs := s.migs.map (Mig.markDead st c) }.raiseLine (8 + st)
      else s
  | none =>
    match s.freeChannel st with
    | some d => let s := s.startMigration st c p d dead; if dead then s.raiseLine (8 + st) else s
    | none => s.losePosition st c dead

/-- R348: the outcome of one retrain: 0 pass, 1 marginal, 2 dead. -/
def State.retrainOutcome (s : State) (st p result : Nat) : State :=
  let c := s.getF (Reg.MEM_PCH_STAT.LOGICAL st p)
  let src := match s.migOf st c with | some m => decide (m.src = p) | none => false
  let s := s.setF (Reg.MEM_PCH_STAT.STATE st p) (if src then 2 else 0)
  let s := if s.getF (Reg.MEM_LCH_STAT.STATE st c) = 1 then s.setF (Reg.MEM_LCH_STAT.STATE st c) 0 else s
  if result = 0 then s
  else (s.bump (Reg.MEM_PCH_UE.RT_FAIL st p) 1).channelLost st p (decide (result = 2))

/-- R32, R348: once no channel of a stack retrains, its outcomes take effect in increasing logical channel, which is the order its free
spares are given in. -/
def State.settleStack (s : State) (st : Nat) : State :=
  if s.retraining.any fun i => Nat.beq (i / 34) st then s
  else
    let mine := s.retrained.filter fun x => Nat.beq (x.1 / 34) st
    let key := fun x : Nat × Nat => s.getF (Reg.MEM_PCH_STAT.LOGICAL st (x.1 % 34))
    ({ s with retrained := s.retrained.filter fun x => !Nat.beq (x.1 / 34) st }).each
      (mine.mergeSort fun x y => Nat.ble (key x) (key y)) fun s x => s.retrainOutcome st (x.1 % 34) x.2

/-- R347, R348: a retrain ends: 0 pass, 1 marginal, 2 dead. -/
def channelRetrainEnd (st p result : Nat) (s : State) : State :=
  if s.retraining.contains (34 * st + p) then
    ({ s with
      retraining := s.retraining.filter (· ≠ 34 * st + p), deadChans := s.deadChans.filter (· ≠ 34 * st + p)
      retrained := s.retrained ++ [(34 * st + p, result)] }).settleStack st
  else s
def execChannelRetrainEnd (st p result : Nat) (s : State) : Out := onCore (channelRetrainEnd st p result) s

/-! ### Map-out and migration -/

/-- R334: donors of the map-out of position `l` when `ls` are mapped out already (newest first); victims are as many. -/
def donorCount (ls : List Nat) (l : Nat) : Nat :=
  ((List.range 393216).filter fun i => (place ls (granules (ls.length + 1) + i)).1 ≠ l).length

/-- R335: a 17th channel of a stack is lost: the stack has tables for 16 map-outs, so the position is not mapped out and the HBM group is
degraded. A dead channel answers nothing any more, and a marginal one goes on serving (DEDUCED, assumption 85). -/
def State.degradeStack (s : State) (st p : Nat) (dead : Bool) : State :=
  { s with
    hbmDegraded := insertSorted st s.hbmDegraded
    deadChans := if dead then insertSorted (34 * st + p) s.deadChans else s.deadChans }

/-- R335, R349: a map-out takes effect; a stack has at most 16. -/
def State.mapOut (s : State) (lam : Nat) (dead migrate : Bool) : State :=
  let st := stackOf lam
  let c := chanOf lam
  let p := s.getF (Reg.MEM_LCH_STAT.PHYS st c)
  if 16 ≤ s.getF (Reg.MEM_STAT.OUT st) then s.degradeStack st p dead else
  let j := s.lam.length + 1
  let s := s.setFs [(Reg.GEN_SPARES.CHAN_OUT, s.getF Reg.GEN_SPARES.CHAN_OUT + 1),
    (Reg.GEN_SPARES.HBM_CAP, s.getF Reg.GEN_SPARES.HBM_CAP - 3),
    (Reg.MEM_STAT.ACTIVE st, s.getF (Reg.MEM_STAT.ACTIVE st) - 1), (Reg.MEM_STAT.OUT st, s.getF (Reg.MEM_STAT.OUT st) + 1),
    (Reg.MEM_LCH_STAT.OUT_SEQ st c, j), (Reg.MEM_LCH_STAT.STATE st c, if migrate then 3 else 4),
    (Reg.MEM_PCH_STAT.STATE st p, if migrate then 2 else 3)]
  let cap := s.hbmCap
  let s := if migrate then
      let s := s.setFs [(Reg.MEM_LCH_MIG.DONE st c, 0), (Reg.MEM_LCH_MIG.TOTAL st c, donorCount s.lam.reverse lam),
        (Reg.MEM_STAT.MIG st, s.getF (Reg.MEM_STAT.MIG st) + 1)]
      { s with migs := s.migs ++ [⟨st, c, p, none, j, dead⟩] }
    else s.setF (Reg.MEM_PCH_STAT.LOGICAL st p) 0x3F
  { s with lam := s.lam ++ [lam], hbm := s.hbm.filter (fun x => decide (x.1 < cap)),
           poison := s.poison.filter (fun x => decide (x * 64 < cap)), symErr := s.symErr.filter (fun x => decide (x.1 * 64 < cap)) }

/-- R104: a capacity shrink that leaves part of the window above HBM_CAP sets LOST. -/
def State.checkWindow (s : State) : State :=
  if s.hbmCap < (s.hdmBase + 16) * 2 ^ 30 then s.setF Reg.HIF_HDM.LOST 1 else s.setF Reg.HIF_HDM.LOST 0

/-- R349, R334: the map-outs due take effect at a ridge, in increasing λ; after a fatal rise none does (R540). -/
def State.takeMapOuts (s : State) : State :=
  let due := s.mapOutDue.mergeSort fun a b => a.1 ≤ b.1
  if due.isEmpty ∨ s.power.fatal.isSome then s else
  ({ s with mapOutDue := [] }.each due fun s x => s.mapOut x.1 x.2 true).checkWindow

/-- R350: the logical granule with migration index `i`: the one placed at channel offset `i` for a spare, the `i`-th victim for a
map-out. -/
def State.migGranule (s : State) (m : Mig) (i : Nat) : Nat :=
  let lam := 20 * m.lch + m.stack
  if m.seq = 0 then
    if s.lam = [] then 640 * i + (lam + 640 - 263 * i % 640) % 640
    else ((List.range (granules s.lam.length)).find? fun g => place s.lam.reverse g = (lam, i)).getD 0
  else
    let ls := (s.lam.take (m.seq - 1)).reverse
    if ls = [] then 640 * i + (lam + 640 - 263 * i % 640) % 640
    else (((List.range (granules m.seq)).filter fun g => (place ls g).1 = lam)[i]?).getD 0

/-- R351: the last granule has been copied: the old channel is powered down and marked failed. -/
def State.migrationDone (s : State) (m : Mig) : State :=
  let s := s.setFs [(Reg.MEM_PCH_STAT.STATE m.stack m.src, 3), (Reg.MEM_PCH_STAT.LOGICAL m.stack m.src, 0x3F),
    (Reg.MEM_STAT.MIG m.stack, s.getF (Reg.MEM_STAT.MIG m.stack) - 1)]
  let s := match m.dst with
    | some d => s.setFs [(Reg.MEM_LCH_STAT.STATE m.stack m.lch, 0), (Reg.MEM_LCH_STAT.PHYS m.stack m.lch, d)]
    | none => s.setF (Reg.MEM_LCH_STAT.STATE m.stack m.lch) 4
  { s with migs := s.migs.filter (· ≠ m) }

/-- R350, R352: one granule is copied: its sectors are read at the source; what is uncorrectable, and everything of a dead source,
reaches the target poisoned; an uncorrectable read raises bit 8 + s; the watermark moves on. A granule that the migration of another map-out
still serves at its own source is not this source's, and keeps its bytes (DEDUCED, assumption 85). -/
def migrationGranuleCopy (st c : Nat) (s : State) : State :=
  match s.migOf st c with
  | none => s
  | some m =>
    let i := s.getF (Reg.MEM_LCH_MIG.DONE st c)
    let g := s.migGranule m i
    let mine := decide ((s.placeOf (g * 4096)).1 = 20 * c + st)
    let secs := if mine then (List.range 64).map (g * 64 + ·) else []
    let bad := secs.filter fun x => m.dead || decide (s.sectorState x = .bad)
    let hit := !m.dead && !bad.isEmpty
    let s := if m.dead || !mine then s else (s.readRaw (g * 4096) 4096).2.2
    let s := { s with poison := bad.foldl (fun l x => insertSorted x l) s.poison }
    let s := s.setF (Reg.MEM_LCH_MIG.DONE st c) (i + 1)
    let s := if hit then s.raiseLine (8 + st) else s
    if i + 1 = s.getF (Reg.MEM_LCH_MIG.TOTAL st c) then s.migrationDone m else s
def execMigrationGranuleCopy (st c : Nat) (s : State) : Out := onCore (migrationGranuleCopy st c) s

end Sys2Proof.Machine
end

