-- ==== Sys2Proof/Machine/Spares.lean ====
section
/-! DEFINITION. Spares and reslating (R28 to R40, R188, R269, R424, R542): marking units failed, committing spare maps at a ridge, and
applying the manifest's spare map at boot. -/

namespace Sys2Proof.Machine

/-- R39: the register field that holds the rafter map of truss die `n`. -/
def raftMapFld (n : Nat) : Fld :=
  match n with
  | 0 => Reg.GEN_RAFTMAP0.MAP_T0
  | 1 => Reg.GEN_RAFTMAP0.MAP_T1
  | 2 => Reg.GEN_RAFTMAP1.MAP_T2
  | _ => Reg.GEN_RAFTMAP1.MAP_T3

/-- R39: physical rafter that holds logical rafter `i` of die `n`, or last held it. -/
def State.raftPhys (s : State) (n i : Nat) : Nat := bitsOf (s.getF (raftMapFld n)) (4 * i) 4

/-- A 4-bit field of a number replaced. -/
def setNibble (v i x : Nat) : Nat := v - bitsOf v (4 * i) 4 * 2 ^ (4 * i) + x % 16 * 2 ^ (4 * i)

/-- R33: logical rafter `i` of die `n` holds a physical rafter in service. -/
def State.raftInService (s : State) (n i : Nat) : Bool :=
  decide (s.getF (Reg.TRS_RAFT_STAT.STATE n (s.raftPhys n i)) = 0)

/-- R270: logical vector engine `e` of physical rafter `k` of die `n` is held by an engine in service. -/
def State.vecInService (s : State) (n k e : Nat) : Bool :=
  (List.range 5).any fun v =>
    decide (s.getF (Reg.TRS_VEC_STAT.STATE n k v) = 0 ∧ s.getF (Reg.TRS_VEC_STAT.LOGICAL n k v) = e)

/-! ### Marking failed (R188, R269, R423) -/

/-- R188: a physical rafter is marked failed, with its cause. -/
def State.failRaft (s : State) (n k cause : Nat) : State :=
  let b := 2 ^ k
  let s := s.setFs [(Reg.TRS_RAFT_STAT.STATE n k, 2), (Reg.TRS_RAFT_STAT.LOGICAL n k, 0xF), (Reg.TRS_RAFT_STAT.CAUSE n k, cause)]
  s.setFs [(Reg.TRS_DIE_STAT.FAILED n, s.getF (Reg.TRS_DIE_STAT.FAILED n) ||| b),
    (Reg.TRS_DIE_STAT.ACTIVE n, s.getF (Reg.TRS_DIE_STAT.ACTIVE n) &&& (511 - b)),
    (Reg.TRS_DIE_STAT.SPARE n, s.getF (Reg.TRS_DIE_STAT.SPARE n) &&& (511 - b))]

/-- Causes of a reslating request: kind 0 rafter (unit 9n + k), 1 vector engine (5 × (9n + k) + v), 2 decode pipeline. -/
def State.requestReslate (s : State) (kind unit : Nat) (late : Bool) : State :=
  match s.reslate.find? fun r => r.1 = kind && r.2.1 = unit with
  | none => { s with reslate := s.reslate ++ [(kind, unit, late)] }
  | some _ => { s with reslate := s.reslate.map fun r => if r.1 = kind && r.2.1 = unit then (r.1, r.2.1, r.2.2 && late) else r }

/-! ### Commit at a ridge (R542) -/

/-- R32, R188: logical rafter `i` of die `n` gets the die's lowest free spare when its physical rafter has failed. -/
def State.spareRaft (s : State) (n i : Nat) : State :=
  if s.raftInService n i then s else
  match (List.range 9).find? fun k => s.getF (Reg.TRS_RAFT_STAT.STATE n k) = 1 with
  | none => s
  | some k =>
    s.setFs [(raftMapFld n, setNibble (s.getF (raftMapFld n)) i k), (Reg.TRS_RAFT_STAT.STATE n k, 0),
      (Reg.TRS_RAFT_STAT.LOGICAL n k, i), (Reg.TRS_DIE_STAT.ACTIVE n, s.getF (Reg.TRS_DIE_STAT.ACTIVE n) ||| 2 ^ k),
      (Reg.TRS_DIE_STAT.SPARE n, s.getF (Reg.TRS_DIE_STAT.SPARE n) &&& (511 - 2 ^ k)),
      (Reg.GEN_SPARES.RAFT_FREE, s.getF Reg.GEN_SPARES.RAFT_FREE - 1)]

/-- R269: logical engine `e` of physical rafter `k` gets the rafter's lowest free spare engine. -/
def State.spareVec (s : State) (n k e : Nat) : State :=
  if s.vecInService n k e then s else
  match (List.range 5).find? fun v => s.getF (Reg.TRS_VEC_STAT.STATE n k v) = 1 with
  | none => s
  | some v => s.setFs [(Reg.TRS_VEC_STAT.STATE n k v, 0), (Reg.TRS_VEC_STAT.LOGICAL n k v, e)]

/-- R38: VEC_FREE counts the free spare engines of the rafters that hold a logical rafter, 0 to 32. -/
def State.countVecs (s : State) : State :=
  s.setF Reg.GEN_SPARES.VEC_FREE ((List.range 180).filter fun i =>
    decide (s.getF (Reg.TRS_RAFT_STAT.STATE (i / 45) (i / 5 % 9)) = 0 ∧
      s.getF (Reg.TRS_VEC_STAT.STATE (i / 45) (i / 5 % 9) (i % 5)) = 1)).length

/-- R424: logical decode pipeline `d` is held by a pipeline in service. -/
def State.decInService (s : State) (d : Nat) : Bool :=
  (List.range 26).any fun k =>
    decide (s.getF (Reg.MED_PIPE_STAT.STATE k) = 0 ∧ s.getF (Reg.MED_PIPE_STAT.LOGICAL k) = d)

/-- R424: logical decode pipeline `d` gets the lowest free spare. -/
def State.spareDec (s : State) (d : Nat) : State :=
  if s.decInService d then s else
  match (List.range 26).find? fun k => s.getF (Reg.MED_PIPE_STAT.STATE k) = 1 with
  | none => s
  | some k => s.setFs [(Reg.MED_PIPE_STAT.STATE k, 0), (Reg.MED_PIPE_STAT.LOGICAL k, d),
      (Reg.GEN_SPARES.DEC_FREE, s.getF Reg.GEN_SPARES.DEC_FREE - 1)]

/-- R426: DEC_ACTIVE counts the logical decode pipelines in service. -/
def State.countDec (s : State) : State :=
  s.setF Reg.MED_STAT.DEC_ACTIVE ((List.range 24).filter fun d => s.decInService d).length

/-- R188, R267, R424: a request due at this ridge marks its unit failed. -/
def State.markUnit (s : State) (kind unit : Nat) : State :=
  match kind with
  | 0 => if s.getF (Reg.TRS_RAFT_STAT.STATE (unit / 9) (unit % 9)) = 2 then s else s.failRaft (unit / 9) (unit % 9) 2
  | 1 =>
    let n := unit / 45
    let k := unit / 5 % 9
    let v := unit % 5
    if s.getF (Reg.TRS_VEC_STAT.STATE n k v) = 2 then s else
    s.setFs [(Reg.TRS_VEC_STAT.STATE n k v, 2), (Reg.TRS_VEC_STAT.LOGICAL n k v, 7), (Reg.TRS_VEC_STAT.CAUSE n k v, 2)]
  | _ =>
    if s.getF (Reg.MED_PIPE_STAT.STATE unit) = 2 then s else
    s.setFs [(Reg.MED_PIPE_STAT.STATE unit, 2), (Reg.MED_PIPE_STAT.LOGICAL unit, 0x1F), (Reg.MED_PIPE_STAT.CAUSE unit, 2)]

/-- R84, R542: SPARE_VER of both sets rises by one for the ridge. -/
def State.bumpSpareVer (s : State) : State :=
  let v := s.getF Reg.CRS_ACT_SPARE.SPARE_VER + 1
  s.setFs [(Reg.CRS_ACT_SPARE.SPARE_VER, v), (Reg.CRS_SET_SPARE.SPARE_VER, v)]

/-- R542: the parapet commits the reslating requests due at the ridge; after a fatal rise none is committed (R540). Requests of the
correctable limit become due at the following ridge (R189). -/
def State.commitSpares (s : State) : State :=
  if s.power.fatal.isSome then s else
  let due := s.reslate.filter fun r => !r.2.2
  let later := (s.reslate.filter fun r => r.2.2).map fun r => (r.1, r.2.1, false)
  let s := { s with reslate := later }
  if due.isEmpty then s else
  let s := s.each due fun s r => s.markUnit r.1 r.2.1
  let s := s.each (List.range 32) fun s l => s.spareRaft (l / 8) (l % 8)
  let s := s.each (due.filter fun r => r.1 = 1) fun s r =>
    s.each (List.range 4) fun s e => s.spareVec (r.2.1 / 45) (r.2.1 / 5 % 9) e
  let s := (s.each (List.range 24) State.spareDec).countDec
  s.countVecs.bumpSpareVer

/-! ### Boot (R550 stage 0x6, R548, R187, R353) -/

/-- R548: the byte of the manifest's SPARE table for unit `i`: the logical identity held, 0xFE a free spare, 0xFF failed. -/
def spareByte (m : List Byte) (i : Nat) : Nat := ((m.drop (0x1100 + i)).headD 0).toNat

/-- STATE of a unit from its SPARE byte: 0 active, 1 free spare, 2 failed. -/
def spareState (b : Nat) : Nat := if b = 0xFE then 1 else if b = 0xFF then 2 else 0

/-- R550: SPARE applied to the rafter maps. -/
def State.applyRafts (s : State) (m : List Byte) : State :=
  s.each (List.range 36) fun s i =>
    let n := i / 9
    let k := i % 9
    let b := spareByte m i
    let st := spareState b
    let s := s.setFs [(Reg.TRS_RAFT_STAT.STATE n k, st), (Reg.TRS_RAFT_STAT.LOGICAL n k, if st = 0 then b else 0xF)]
    let f (f : Fld) (on : Bool) (s : State) : State :=
      s.setF f (if on then s.getF f ||| 2 ^ k else s.getF f &&& (511 - 2 ^ k))
    let s := f (Reg.TRS_DIE_STAT.FAILED n) (st = 2) (f (Reg.TRS_DIE_STAT.SPARE n) (st = 1) (f (Reg.TRS_DIE_STAT.ACTIVE n) (st = 0) s))
    if st = 0 then s.setF (raftMapFld n) (setNibble (s.getF (raftMapFld n)) b k) else s

/-- R550: SPARE applied to the vector-engine maps. -/
def State.applyVecs (s : State) (m : List Byte) : State :=
  s.each (List.range 180) fun s i =>
    let b := spareByte m (36 + i)
    let st := spareState b
    s.setFs [(Reg.TRS_VEC_STAT.STATE (i / 45) (i / 5 % 9) (i % 5), st),
      (Reg.TRS_VEC_STAT.LOGICAL (i / 45) (i / 5 % 9) (i % 5), if st = 0 then b else 7)]

/-- R464: the field that gives the physical lane of logical lane `l` of port `p`. -/
def laneMapFld (p l : Nat) : Fld :=
  if l < 8 then ⟨(0x3800020 + p * 0x10000) * 64 + 8 * l, 5, l⟩ else ⟨(0x3800028 + p * 0x10000) * 64 + 8 * (l - 8), 5, l⟩

/-- R550: SPARE applied to the lane maps. -/
def State.applyLanes (s : State) (m : List Byte) : State :=
  s.each (List.range 576) fun s i =>
    let b := spareByte m (216 + i)
    let st := spareState b
    let s := s.setFs [(Reg.LNK_LANE_STAT.STATE (i / 18) (i % 18), st),
      (Reg.LNK_LANE_STAT.LOGICAL (i / 18) (i % 18), if st = 0 then b else 0x1F)]
    if st = 0 then s.setF (laneMapFld (i / 18) b) (i % 18) else s

/-- R550: SPARE applied to the channel maps. -/
def State.applyChans (s : State) (m : List Byte) : State :=
  s.each (List.range 680) fun s i =>
    let b := spareByte m (792 + i)
    let st := spareState b
    let s := s.setFs [(Reg.MEM_PCH_STAT.STATE (i / 34) (i % 34), match st with | 0 => 0 | 1 => 1 | _ => 3),
      (Reg.MEM_PCH_STAT.LOGICAL (i / 34) (i % 34), if st = 0 then b else 0x3F)]
    if st = 0 then s.setF (Reg.MEM_LCH_STAT.PHYS (i / 34) b) (i % 34) else s

/-- R550: SPARE applied to the decode-pipeline map. -/
def State.applyDecs (s : State) (m : List Byte) : State :=
  s.each (List.range 26) fun s k =>
    let b := spareByte m (1472 + k)
    let st := spareState b
    s.setFs [(Reg.MED_PIPE_STAT.STATE k, st), (Reg.MED_PIPE_STAT.LOGICAL k, if st = 0 then b else 0x1F)]

/-- R187, R269, R424: a spare that fails its boot test is marked failed: kind 0 rafter, 1 vector engine, 2 decode pipeline, 3 lane
(unit 18p + l). The codes of TRS_RAFT_STAT.CAUSE (R191) and TRS_VEC_STAT.CAUSE (R271) name no such cause, nor a unit that the manifest's
spare map marks failed: CAUSE then reads 0b00, none (DESIGN CHOICE, assumption 86). -/
def State.failSpare (s : State) (x : Nat × Nat) : State :=
  match x.1 with
  | 0 => s.failRaft (x.2 / 9) (x.2 % 9) 0
  | 1 => s.setF (Reg.TRS_VEC_STAT.STATE (x.2 / 45) (x.2 / 5 % 9) (x.2 % 5)) 2
  | 2 => s.setF (Reg.MED_PIPE_STAT.STATE x.2) 2
  | _ => s.setF (Reg.LNK_LANE_STAT.STATE (x.2 / 18) (x.2 % 18)) 2

/-- R38: the free counts of GEN_SPARES, MEM_STAT and LNK_STAT, counted from the unit states. -/
def State.countSpares (s : State) : State :=
  let rf := ((List.range 36).filter fun i => s.getF (Reg.TRS_RAFT_STAT.STATE (i / 9) (i % 9)) = 1).length
  let lf := fun p => ((List.range 18).filter fun l => s.getF (Reg.LNK_LANE_STAT.STATE p l) = 1).length
  let cf := fun st => ((List.range 34).filter fun c => s.getF (Reg.MEM_PCH_STAT.STATE st c) = 1).length
  let df := ((List.range 26).filter fun k => s.getF (Reg.MED_PIPE_STAT.STATE k) = 1).length
  let s := s.setFs [(Reg.GEN_SPARES.RAFT_FREE, rf),
    (Reg.GEN_SPARES.LANE_FREE, ((List.range 32).map lf).sum), (Reg.GEN_SPARES.CHAN_FREE, ((List.range 20).map cf).sum),
    (Reg.GEN_SPARES.DEC_FREE, df)]
  let s := s.each (List.range 20) fun s st => s.setF (Reg.MEM_STAT.FREE st) (cf st)
  (s.each (List.range 32) fun s p => s.setF (Reg.LNK_STAT.FREE p) (lf p)).countDec.countVecs

/-- R353: a channel found marginal (result 1) or dead (2) at boot is treated as the repair window treats it, without migration: the
lowest free spare takes its logical channel, or its position is mapped out. -/
def State.bootChannel (s : State) (x : Nat × Nat × Nat) : State :=
  let st := x.1
  let p := x.2.1
  if x.2.2 = 0 then s else
  let c := s.getF (Reg.MEM_PCH_STAT.LOGICAL st p)
  let s := s.setFs [(Reg.MEM_PCH_STAT.STATE st p, 3), (Reg.MEM_PCH_STAT.LOGICAL st p, 0x3F)]
  if 32 ≤ c then s else
  match s.freeChannel st with
  | some d =>
    let s := s.setFs [(Reg.MEM_PCH_STAT.STATE st d, 0), (Reg.MEM_PCH_STAT.LOGICAL st d, c), (Reg.MEM_LCH_STAT.PHYS st c, d)]
    if x.2.2 = 2 then s.raiseLine (8 + st) else s
  | none => (s.raiseLine (8 + st)).mapOut (20 * c + st) (decide (x.2.2 = 2)) false

end Sys2Proof.Machine
end

