-- ==== Sys2Proof/Machine/Boot.lean ====
section
/-! DEFINITION. Boot (R547 to R557): signed objects, the stages, the offer window and the cache. -/

namespace Sys2Proof.Machine

/-! ### Signed objects -/

/-- `n` bytes of an object from offset `o`. -/
def objAt (o : List Byte) (off n : Nat) : List Byte := (o.drop off).take n
/-- R547: fields of a header. -/
def objSvn (o : List Byte) : Nat := leNat (objAt o 4 4)
def objBodyLen (o : List Byte) : Nat := leNat (objAt o 8 8)
def objHash (o : List Byte) : List Byte := objAt o 0x10 48
def objPurpose (o : List Byte) : Nat := leNat (objAt o 0x161 1)
/-- R548: fields of a manifest object. -/
def manIdhash (m : List Byte) : Nat := leNat (objAt m 0x1000 8)
def manMver (m : List Byte) : Nat := leNat (objAt m 0x1008 4)
def manMinSvn (m : List Byte) : Nat := leNat (objAt m 0x100C 4)

/-- All bytes are zero. -/
def allZero (bs : List Byte) : Bool := bs.all (· = 0)

/-- R547: MARK, VERSION, reserved bytes, PURPOSE and BODY_LEN. -/
def objFormOk (o : List Byte) (purpose : Nat) : Bool :=
  let len := objBodyLen o
  decide (leNat (objAt o 0 2) = 0xB0E1 ∧ leNat (objAt o 2 2) = 1 ∧ objPurpose o = purpose) &&
  allZero (objAt o 0xA1 95) && allZero (objAt o 0x162 30) && allZero (objAt o 0x240 3520) &&
  (if purpose = 1 then decide (4096 ≤ len ∧ len ≤ 0x4000000 ∧ len % 4096 = 0)
   else decide (len = 4096 ∧ objSvn o = 0) && allZero (objAt o 0x1020 224) && allZero (objAt o 0x16DA 38) &&
     allZero (objAt o 0x1720 2272)) &&
  decide (o.length = 0x1000 + len)

/-- R549: within a group of units, every logical identity below `n` is held by exactly one unit. -/
def groupHeld (bs : List Nat) (n : Nat) : Bool :=
  (List.range n).all fun i => decide ((bs.filter (· = i)).length = 1)

/-- R549: SPARE gives each logical identity of every group to one unit. -/
def spareTableOk (m : List Byte) : Bool :=
  let grp := fun start len n cnt => (List.range cnt).all fun g =>
    groupHeld ((List.range len).map fun i => spareByte m (start + len * g + i)) n
  grp 0 9 8 4 && grp 36 5 4 36 && grp 216 18 16 32 && grp 792 34 32 20 && grp 1472 26 24 1

/-- R549: COOL has no minimum above its maximum. -/
def coolOk (m : List Byte) : Bool :=
  (List.range 4).all fun i => decide (leNat (objAt m (0x1700 + 8 * i) 4) ≤ leNat (objAt m (0x1704 + 8 * i) 4))

/-- R549: the check of a signed object; its result is a boot error code of R554. -/
def State.verifyObj (s : State) (o : List Byte) (purpose : Nat) : Nat :=
  if !objFormOk o purpose then 2
  else if sha384 (objAt o 0x40 97) ≠ Config.rootKeyHash then 3
  else if !sigVerify (objAt o 0x40 97) (objAt o 0x100 128) (objAt o 0x180 96) then 4
  else if !sigVerify (objAt o 0x100 97) (objAt o 0 0x1E0) (objAt o 0x1E0 96) then 5
  else if sha384 (objBody o) ≠ objHash o then 6
  else if purpose = 2 then
    (if manIdhash o ≠ s.getF Reg.SEC_ID.IDHASH then 8
     else if !spareTableOk o || !coolOk o then 2 else 0)
  else if objSvn o < s.getF Reg.SEC_MAN.MIN_SVN then 7
  else 0

/-- R554: the first boot error is recorded while ERR_VALID is 0; each but 0x09 raises bit 43. -/
def State.bootError (s : State) (code : Nat) : State :=
  let s := if s.on Reg.SEC_BOOT_STAT.ERR_VALID then s
    else s.setFs [(Reg.SEC_BOOT_STAT.ERR, code), (Reg.SEC_BOOT_STAT.ERR_VALID, 1)]
  if code = 9 then s else s.raiseLine 43

/-- The module is in boot stage `k`: power good, MODRST_N high, and the stage reported. -/
def State.inStage (s : State) (k : Nat) : Bool :=
  decide (s.power.step = .good ∧ s.getF Reg.SEC_BOOT_STAT.STAGE = k) && s.power.modrstN

/-- R556: the identity private key. -/
def idScalar (seed : List Byte) : Nat := deriveKey seed [0x44#8, 0x5A#8, 0x38#8, 0x30#8, 0x20#8, 0x49#8, 0x44#8] []

/-- R556: the seed that helper data and an SRAM reading give; none when the reconstruction fails. -/
def extractSeed (helper puf : List Byte) : Option (List Byte) :=
  if Config.pufReads helper puf then some (leBytes 48 (Config.pufSeed helper)) else none

/-- R550 stage 0x1, R556: the seed is reconstructed, and IDHASH set to the low 64 bits of the SHA-384 of the identity public key;
without helper data or seed, error 0x01 stops boot here until a reset. -/
def bootIdentity (puf : List Byte) (s : State) : State :=
  if s.inStage 1 ∧ !s.boot.idFail then
    let s := s.setFs [(Reg.FLS_STAT.READY, 1), (Reg.FLS_STAT.HELPER, bit s.flash.helper.isSome)]
    match s.flash.helper.bind fun h => extractSeed h puf with
    | none => let s := s.bootError 1; { s with boot := { s.boot with idFail := true } }
    | some seed =>
      let h := sha384 (ecPublic (idScalar seed))
      { s.setFs [(Reg.SEC_ID.IDHASH, beNat h % 2 ^ 64), (Reg.SEC_BOOT_STAT.STAGE, 2)] with
        boot := { s.boot with seed := seed, idKey := true } }
  else s
def execBootIdentity (puf : List Byte) (s : State) : Out := onHub (bootIdentity puf) s

/-- A manifest that passed comes into force. -/
def State.takeManifest (s : State) (m : List Byte) : State :=
  { s.setFs [(Reg.SEC_MAN.MVER, manMver m), (Reg.SEC_MAN.MIN_SVN, manMinSvn m), (Reg.FLS_STAT.MAN_VALID, 1)] with
    boot := { s.boot with manifest := some m } }

/-- R550 stage 0x2: the flash manifest is read and verified; without a valid one the offer window will have no limit (R552). -/
def bootManifest (s : State) : State :=
  if s.inStage 2 then
    let s := s.setF Reg.SEC_BOOT_STAT.STAGE 3
    match s.flash.manifest with
    | none => { s.bootError 2 with boot := { s.boot with unlimited := true } }
    | some m =>
      let r := s.verifyObj m 2
      if r = 0 then s.takeManifest m
      else let s := s.bootError r; { s with boot := { s.boot with unlimited := true } }
  else s
def execBootManifest (s : State) : Out := onHub bootManifest s

/-- The image of cache slot `n`, when the slot is marked valid. -/
def State.cacheImage (s : State) (n : Nat) : Option (List Byte) :=
  match (if n = 0 then s.flash.cache0 else s.flash.cache1) with
  | some (o, true) => some o
  | _ => none

/-- R567: FLS_CACHEn reports a slot. -/
def State.reportCache (s : State) (n svn : Nat) (valid : Bool) : State :=
  if n = 0 then s.setFs [(Reg.FLS_CACHE0.SVN, svn), (Reg.FLS_CACHE0.VALID, bit valid)]
  else s.setFs [(Reg.FLS_CACHE1.SVN, svn), (Reg.FLS_CACHE1.VALID, bit valid)]

/-- R550 stage 0x3: one slot is verified: a valid image is chosen unless one is chosen already; an invalid one is an error. -/
def State.trySlot (s : State) (n : Nat) : State :=
  if s.boot.chosen.isSome then s else
  match s.cacheImage n with
  | none => s
  | some o =>
    let r := s.verifyObj o 1
    if r = 0 then
      { (s.reportCache n (objSvn o) true).setF Reg.SEC_BOOT_STAT.SRC n with boot := { s.boot with chosen := some o } }
    else s.bootError r

/-- R550 stage 0x3, R567: the header of a cache slot is read; the slot is not verified yet. -/
def State.readHeader (s : State) (n : Nat) : State :=
  match s.cacheImage n with
  | some o => s.reportCache n (objSvn o) false
  | none => s

/-- R550 stage 0x3: both headers are read; the slot of higher SVN is verified, and the other if that one fails; equal SVN tries slot 0
first. The offer window then opens; it has no limit when no valid object was found. -/
def bootCache (s : State) : State :=
  if s.inStage 3 then
    let v := fun n => match s.cacheImage n with | some o => objSvn o + 1 | none => 0
    let s := (s.readHeader 0).readHeader 1
    let s := if v 1 > v 0 then (s.trySlot 1).trySlot 0 else (s.trySlot 0).trySlot 1
    let un := s.boot.unlimited || s.boot.chosen.isNone
    { s.setFs [(Reg.SEC_BOOT_STAT.STAGE, 4), (Reg.SEC_BOOT_STAT.WAITING, bit un)] with
      boot := { s.boot with window := true, unlimited := un } }
  else s
def execBootCache (s : State) : Out := onHub bootCache s

/-- R552: a host offer: ignored outside the window, refused with 0x09 while another is read, 0x0B for a length out of range. -/
def writeBootCtrl (v : Nat) (s : State) : State :=
  if v.testBit 0 ∧ s.boot.window then
    if s.boot.reading.isSome then s.bootError 9
    else if s.getF Reg.SEC_BOOT_LEN.PAGES < 2 ∨ 16385 < s.getF Reg.SEC_BOOT_LEN.PAGES then s.bootError 11
    else { s.setF Reg.SEC_BOOT_CTRL.OFFER 1 with boot := { s.boot with reading := some 2 } }
  else s
def execOffer (v : W32) (s : State) : Out := onHub (writeBootCtrl v.toNat) s

/-- R552: a PLDM RequestUpdate during the window; ALREADY_IN_UPDATE_MODE (1) while another offer is read, else accepted (0);
after READY Bolyel accepts it (R555). -/
def requestUpdate (s : State) : State :=
  if s.boot.window then
    if s.boot.reading.isSome then { s.bootError 9 with mgmtOut := (s.bootError 9).mgmtOut ++ [.pldm 1] }
    else { s with boot := { s.boot with reading := some 3 }, mgmtOut := s.mgmtOut ++ [.pldm 0] }
  else if s.bolyelUp then { s with mgmtOut := s.mgmtOut ++ [.pldm 0] }
  else s
def execRequestUpdate (s : State) : Out := onHub requestUpdate s

/-- R552: the window ends and the chosen image runs; a manifest that was being written has been. -/
def State.endWindow (s : State) : State :=
  if s.boot.chosen.isSome then
    { s.setFs [(Reg.SEC_BOOT_STAT.STAGE, 5), (Reg.SEC_BOOT_STAT.WAITING, 0)] with
      boot := { s.boot with window := false, unlimited := false, reading := none, manOld := none } }
  else s

/-- R552, R555: a manifest is written to flash: what flash held comes back when a flash fault abandons the write. -/
def State.writeManifest (s : State) (o : List Byte) : State :=
  { s with boot := { s.boot with manOld := some s.flash.manifest }, flash := { s.flash with manifest := some o } }

/-- R552: MVER of a manifest is not below that of the flash copy. -/
def State.manifestNewer (s : State) (o : List Byte) : Bool :=
  match s.flash.manifest with | some m => decide (manMver m ≤ manMver o) | none => true

/-- R552: the object of an offer: a host offer names SEC_BOOT_LEN pages of 4 KiB, and host memory that answers fewer bytes fails it. -/
def State.offered (s : State) (src : Nat) (obj : Option (List Byte)) : Option (List Byte) :=
  let n := s.getF Reg.SEC_BOOT_LEN.PAGES * 4096
  if src = 2 then obj.bind fun o => if o.length < n then none else some (o.take n) else obj

/-- R552: the offered object has been read (none: the host read failed) and is verified under the PURPOSE its header carries. An image that
passes ends the window; after a manifest the window continues. -/
def offerVerify (obj : Option (List Byte)) (s : State) : State :=
  match s.boot.reading with
  | none => s
  | some src =>
    let s := { s.setF Reg.SEC_BOOT_CTRL.OFFER 0 with boot := { s.boot with reading := none } }
    match s.offered src obj with
    | none => s.bootError 10
    | some o =>
      let purpose := if objPurpose o = 2 then 2 else 1
      let r := s.verifyObj o purpose
      if r ≠ 0 then s.bootError r
      else if purpose = 1 then
        { s.setF Reg.SEC_BOOT_STAT.SRC src with boot := { s.boot with chosen := some o } }.endWindow
      else if s.manifestNewer o then (s.writeManifest o).takeManifest o
      else s
def execOfferVerify (obj : Option (List Byte)) (s : State) : Out := onHub (offerVerify obj) s

/-- R552: the 100 ms window closes with no image offered: the image chosen from cache runs. A window without limit, or one in which an
offer is being read, stays open. -/
def offerWindowClose (s : State) : State :=
  if s.boot.window ∧ !s.boot.unlimited ∧ s.boot.reading.isNone then s.endWindow else s
def execOfferWindowClose (s : State) : Out := onHub offerWindowClose s

/-- The image of cache slot `n`, when FLS_CACHEn says that it has been verified or written (R567). -/
def State.validImage (s : State) (n : Nat) : Option (List Byte) :=
  if s.on (if n = 0 then Reg.FLS_CACHE0.VALID else Reg.FLS_CACHE1.VALID) then s.cacheImage n else none

/-- R553: the slot an accepted image is written to: none when a slot already holds the same BODY_HASH, else the one that does not
hold the newest valid cached image. -/
def State.cacheSlotFor (s : State) (o : List Byte) : Option Nat :=
  let same := fun n => match s.cacheImage n with | some x => decide (objHash x = objHash o) | none => false
  if same 0 || same 1 then none
  else match s.validImage 0, s.validImage 1 with
    | some a, some b => some (if objSvn a < objSvn b then 0 else 1)
    | some _, none => some 1
    | none, _ => some 0

/-- R553: a cache write begins; its slot is not valid while it runs. -/
def State.startCacheWrite (s : State) (o : List Byte) : State :=
  match s.cacheSlotFor o with
  | none => s
  | some n =>
    let fl := if n = 0 then { s.flash with cache0 := some (o, false) } else { s.flash with cache1 := some (o, false) }
    { s.reportCache n (objSvn o) false with flash := fl, boot := { s.boot with cacheWrite := some n } }

/-- R550 stage 0x5: the chosen image is loaded; an offered one starts its cache write. -/
def bootLoad (s : State) : State :=
  if s.inStage 5 then
    let o := s.boot.chosen.getD []
    let s := s.setFs [(Reg.SEC_BOOT_STAT.STAGE, 6), (Reg.SEC_BOOT_STAT.SVN, objSvn o)]
    if 2 ≤ s.getF Reg.SEC_BOOT_STAT.SRC then s.startCacheWrite o else s
  else s
def execBootLoad (s : State) : Out := onHub bootLoad s

/-- R553: a cache write completes: the whole image has been read back, and the slot is marked valid. A manifest written beside it has been
written too. -/
def cacheWriteDone (s : State) : State :=
  let s := { s with boot := { s.boot with manOld := none } }
  match s.boot.cacheWrite with
  | none => s
  | some n =>
    let mark := fun x : Option (List Byte × Bool) => x.map fun y => (y.1, true)
    let fl := if n = 0 then { s.flash with cache0 := mark s.flash.cache0 } else { s.flash with cache1 := mark s.flash.cache1 }
    let svn := match (if n = 0 then s.flash.cache0 else s.flash.cache1) with | some y => objSvn y.1 | none => 0
    { s.reportCache n svn true with flash := fl, boot := { s.boot with cacheWrite := none } }
def execCacheWriteDone (s : State) : Out := onHub cacheWriteDone s

/-- R550 stage 0x6: SPARE is applied to every spare map, spares are tested, channels trained and HBM cleared (R353), PPT_CMD.SEQ and
the key-store figures restored, and IDLE_W measured. Without a manifest, when an offered image passed and no manifest did, every spare map keeps its reset value (DESIGN
CHOICE, assumption 57). A spare channel (LOGICAL 0x3F) that failed to train is put aside before a logical channel
asks for one, and these are taken in increasing position (R32). -/
def bootConfig (t : BootTests) (s : State) : State :=
  if s.inStage 6 then
    let s := match s.boot.manifest with
      | some m => ((((s.applyRafts m).applyVecs m).applyLanes m).applyChans m).applyDecs m
      | none => s
    let s := (s.each t.spares State.failSpare).countSpares
    let key := fun x : Nat × Nat × Nat => (s.getF (Reg.MEM_PCH_STAT.LOGICAL x.1 x.2.1) + 1) % 64 * 20 + x.1
    let chans := t.chans.mergeSort fun a b => key a ≤ key b
    let s := (s.each chans State.bootChannel).countSpares.checkWindow
    { s.setFs [(Reg.PPT_CMD.SEQ, s.flash.cmdSeq), (Reg.PPT_IDLE.IDLE_W, t.idleW), (Reg.SEC_BOOT_STAT.STAGE, 7),
        (Reg.SEC_KS.ENTRIES, s.flash.keys.length), (Reg.SEC_KS.KSEQ, s.flash.kseq)] with
      hbm := [], poison := [], symErr := [] }
  else s
def execBootConfig (t : BootTests) (s : State) : Out := onCore (bootConfig t) s

/-- R557: the alias private scalar: the seed, the label, and the SHA-384 of the running image's header and the manifest body. -/
def aliasScalar (seed img man : List Byte) : Nat :=
  deriveKey seed [0x44#8, 0x5A#8, 0x38#8, 0x30#8, 0x20#8, 0x41#8, 0x4C#8, 0x49#8, 0x41#8, 0x53#8]
    (sha384 (img.take 0x1000 ++ objBody man))

/-- R557: the bytes of the "DZ80 ALIAS" certificate: a DER value with its tag and length. -/
def der (tag : Byte) (body : List Byte) : List Byte :=
  let n := body.length
  tag :: ((if n < 128 then beBytes 1 n else if n < 256 then 0x81#8 :: beBytes 1 n else 0x82#8 :: beBytes 2 n) ++ body)

/-- A DER integer of `n` bytes, with a zero before a byte whose top bit is set. -/
def derInt (bs : List Byte) : List Byte :=
  let b := bs.dropWhile (· = 0)
  der 0x02 (if b.isEmpty || decide (128 ≤ (b.headD 0).toNat) then 0 :: b else b)

/-- ecdsa-with-SHA384, and a P-384 public key (RFC 5480). -/
def derSigAlg : List Byte := der 0x30 (der 0x06 [0x2A#8, 0x86#8, 0x48#8, 0xCE#8, 0x3D#8, 0x04#8, 0x03#8, 0x03#8])
def derKey (pub : List Byte) : List Byte :=
  der 0x30 (der 0x30 (der 0x06 [0x2A#8, 0x86#8, 0x48#8, 0xCE#8, 0x3D#8, 0x02#8, 0x01#8] ++ der 0x06 [0x2B#8, 0x81#8, 0x04#8, 0x00#8, 0x22#8]) ++
    der 0x03 (0 :: pub))

/-- An X.509 extension that holds a number. -/
def derExt (oid : List Byte) (v : Nat) : List Byte := der 0x30 (oid ++ der 0x04 (derInt (beBytes 4 v)))

/-- R557: what the alias certificate says: the alias public key, and the running SVN and MVER as extensions. -/
def aliasBody (pub : List Byte) (svn mver : Nat) : List Byte :=
  der 0x30 (Config.certHead ++ derKey pub ++ der 0xA3 (der 0x30 (derExt Config.svnOid svn ++ derExt Config.mverOid mver)))

/-- R557: the alias certificate, X.509 v3 in DER (PRESUMED, RFC 5280), signed by the identity key. -/
def aliasCert (pub : List Byte) (svn mver key : Nat) : List Byte :=
  let tbs := aliasBody pub svn mver
  let sig := ecSign key tbs 0
  der 0x30 (tbs ++ derSigAlg ++ der 0x03 (0 :: der 0x30 (derInt (sig.take 48) ++ derInt (sig.drop 48))))

/-- R550 stage 0x7, R557: the alias key is derived and its certificate signed; the identity private key is erased. -/
def bootAlias (s : State) : State :=
  if s.inStage 7 ∧ s.boot.idKey then
    let k := aliasScalar s.boot.seed (s.boot.chosen.getD []) (s.boot.manifest.getD [])
    let c := aliasCert (ecPublic k) (s.getF Reg.SEC_BOOT_STAT.SVN) (s.getF Reg.SEC_MAN.MVER) (idScalar s.boot.seed)
    { s with boot := { s.boot with idKey := false, seed := [], alias_ := beBytes 48 k, aliasCert := c } }
  else s
def execBootAlias (s : State) : Out := onHub bootAlias s

/-- R550 stage 0x8, R516, R531: READY is set, Bolyel runs, ALIVE starts, and the floor starts at IDLE_W. -/
def readyUp (s : State) : State :=
  if s.inStage 7 ∧ !s.boot.idKey ∧ s.boot.alias_ ≠ [] then
    let i := s.getF Reg.PPT_IDLE.IDLE_W
    { s.setFs [(Reg.SEC_BOOT_STAT.STAGE, 8), (Reg.SEC_BOOT_STAT.READY, 1), (Reg.FLT_ALIVE.RUN, bit s.power.fatal.isNone),
        (Reg.PPT_DRAW.FLOOR_W, i), (Reg.PPT_DRAW.CEIL_W, i + s.getF Reg.PPT_RAMP.BAND_W)] with
      boot := { s.boot with bolyel := true }, power := { s.power with floorOn := true, floorCw := i * 100 } }
  else s
def execReady (s : State) : Out := onHub readyUp s

end Sys2Proof.Machine
end

