-- ==== Sys2Proof/Machine/Mgmt.lean ====
section
/-! DEFINITION. Management (R556 to R565): key-store edits, attestation, firmware update, the watchdog, PTP and PPS. -/

namespace Sys2Proof.Machine

/-- A management command: Bolyel answers while it runs (R564). -/
def State.viaBolyel (s : State) (f : State → State) : State := if s.bolyelUp then f s else s

/-- A message leaves on a management interface. -/
def State.reply (s : State) (m : MgmtMsg) : State := { s with mgmtOut := s.mgmtOut ++ [m] }

/-! ### Owner keys (R558, R559) -/

/-- R558: the 256 bytes of an entry. -/
def KeyEntry.bytes (k : KeyEntry) : List Byte :=
  leBytes 2 0x0E5C ++ leBytes 1 k.index ++ leBytes 1 k.auth ++ leBytes 1 k.signer ++ List.replicate 3 0 ++
  leBytes 8 k.kseq ++ leBytes 8 k.idhash ++ k.key ++ List.replicate 39 0 ++ k.sig

/-- R558: an edit of 256 bytes read as an entry. -/
def readKeyEntry (e : List Byte) : KeyEntry :=
  ⟨leNat (objAt e 2 1), leNat (objAt e 3 1), leNat (objAt e 4 1), leNat (objAt e 8 8), leNat (objAt e 16 8), objAt e 24 97, objAt e 160 96⟩

/-- R558: MARK, reserved bits and bytes, and the index range of an edit. -/
def keyFormOk (e : List Byte) : Bool :=
  decide (e.length = 256 ∧ leNat (objAt e 0 2) = 0x0E5C ∧ leNat (objAt e 2 1) < 16 ∧ leNat (objAt e 3 1) < 4) &&
  allZero (objAt e 5 3) && allZero (objAt e 121 39)

/-- R559: SIGNER names a live ADMIN entry whose signature verifies over bytes 0 to 159. -/
def State.adminSigned (s : State) (e : List Byte) : Bool :=
  s.flash.keys.any fun k => decide (k.index = leNat (objAt e 4 1)) && k.auth.testBit 0 && sigVerify k.key (e.take 160) (objAt e 160 96)

/-- The store holds an ADMIN entry, or nothing. -/
def adminLeft (ks : List KeyEntry) : Bool := ks.isEmpty || ks.any fun k => k.auth.testBit 0

/-- Entries in index order. -/
def insertKey (k : KeyEntry) : List KeyEntry → List KeyEntry
  | [] => [k]
  | x :: xs => if k.index < x.index then k :: x :: xs else x :: insertKey k xs

/-- R559: an edit carried by interface `via` (0 I3C, 1 CXL, 2 management Ethernet) may be accepted. -/
def State.editOk (s : State) (via : Nat) (e : List Byte) : Bool :=
  keyFormOk e && decide (s.flash.kseq < leNat (objAt e 8 8) ∧ leNat (objAt e 16 8) = s.getF Reg.SEC_ID.IDHASH ∧ via ≠ 1) &&
  s.adminSigned e

/-- R559: the store after an accepted edit, whose KSEQ it takes. -/
def State.setKeys (s : State) (ks : List KeyEntry) (kseq : Nat) : State :=
  { s.setFs [(Reg.SEC_KS.ENTRIES, ks.length), (Reg.SEC_KS.KSEQ, kseq)] with
    flash := { s.flash with keys := ks, kseq := kseq } }.reply (.keyEdit true)

/-- R559: ADD. Into an empty store: index 0, ADMIN, SIGNER 0, signed by its own key, over I3C only. -/
def keyAdd (via : Nat) (e : List Byte) (s : State) : State :=
  let k := readKeyEntry e
  let ok :=
    if s.flash.keys.isEmpty then
      keyFormOk e && decide (via = 0 ∧ k.index = 0 ∧ k.signer = 0 ∧ s.flash.kseq < k.kseq ∧
        k.idhash = s.getF Reg.SEC_ID.IDHASH) && k.auth.testBit 0 && sigVerify k.key (e.take 160) k.sig
    else s.editOk via e && s.flash.keys.all fun x => decide (x.index ≠ k.index)
  if ok then s.setKeys (insertKey k s.flash.keys) k.kseq else s.reply (.keyEdit false)
def execKeyAdd (via : Nat) (e : List Byte) (s : State) : Out := onHub (fun s => s.viaBolyel (keyAdd via e)) s

/-- R559: REVOKE of an index; refused when it would leave no ADMIN entry while others remain. -/
def keyRevoke (via : Nat) (e : List Byte) (s : State) : State :=
  let i := leNat (objAt e 2 1)
  let ks := s.flash.keys.filter fun x => decide (x.index ≠ i)
  if s.editOk via e && adminLeft ks && decide (ks.length < s.flash.keys.length) then s.setKeys ks (leNat (objAt e 8 8))
  else s.reply (.keyEdit false)
def execKeyRevoke (via : Nat) (e : List Byte) (s : State) : Out := onHub (fun s => s.viaBolyel (keyRevoke via e)) s

/-- R559: CLEAR empties the store. -/
def keyClear (via : Nat) (e : List Byte) (s : State) : State :=
  if s.editOk via e then s.setKeys [] (leNat (objAt e 8 8)) else s.reply (.keyEdit false)
def execKeyClear (via : Nat) (e : List Byte) (s : State) : Out := onHub (fun s => s.viaBolyel (keyClear via e)) s

/-! ### Attestation (R560) -/

/-- R557: the chain of slot 0. -/
def State.certChain (s : State) : List Byte := s.flash.certs.flatten ++ s.boot.aliasCert

/-- R560: measurement `i`, 1 to 6. -/
def State.measurement (s : State) (i : Nat) : List Byte :=
  match i with
  | 1 => sha384 Config.romContent
  | 2 => sha384 ((s.boot.chosen.getD []).take 0x1000)
  | 3 => sha384 (objBody (s.boot.manifest.getD []))
  | 4 => sha384 (s.flash.keys.flatMap KeyEntry.bytes)
  | 5 => leBytes 4 (s.getF Reg.SEC_BOOT_STAT.SVN) ++ leBytes 4 (s.getF Reg.SEC_MAN.MVER) ++ leBytes 8 s.flash.kseq
  | 6 => leBytes 1 (s.getF Reg.SEC_BOOT_STAT.SRC)
  | _ => []

/-- R560: a response signed with the alias key over its own body and the requester's nonce. -/
def State.signedReply (s : State) (code : Nat) (body nonce : List Byte) : State :=
  let b := body ++ Config.nonce s.freeCtr ++ leBytes 8 s.stamp
  let sig := ecSign (beNat s.boot.alias_) (b ++ nonce) s.freeCtr
  (s.reply (.spdm code (b ++ sig))).nextFree

def execGetVersion (s : State) : Out :=
  onHub (fun s => s.viaBolyel fun s => s.reply (.spdm 0x04 [0x12])) s
def execGetCapabilities (s : State) : Out :=
  onHub (fun s => s.viaBolyel fun s => s.reply (.spdm 0x61 [0x16, 0, 0, 0])) s
def execNegotiateAlgorithms (s : State) : Out :=
  onHub (fun s => s.viaBolyel fun s => s.reply (.spdm 0x63 [0x80, 0, 0, 0, 0x02, 0, 0, 0, 0x04, 0, 0, 0])) s
def execGetDigests (s : State) : Out :=
  onHub (fun s => s.viaBolyel fun s => s.reply (.spdm 0x01 (1 :: sha384 s.certChain))) s
def execGetCertificate (off len : Nat) (s : State) : Out :=
  onHub (fun s => s.viaBolyel fun s => s.reply (.spdm 0x02 (objAt s.certChain off len))) s
def execChallenge (nonce : List Byte) (s : State) : Out :=
  onHub (fun s => s.viaBolyel fun s => s.signedReply 0x03 (sha384 s.certChain) nonce) s
/-- R560: one measurement, or with index 0xFF all six. -/
def execGetMeasurements (index : Nat) (nonce : List Byte) (s : State) : Out :=
  onHub (fun s => s.viaBolyel fun s => s.signedReply 0x60
    (if index = 0xFF then [1, 2, 3, 4, 5, 6].flatMap s.measurement else s.measurement index) nonce) s
/-- The request codes of SPDM 1.2 that R560 lists: GET_DIGESTS, GET_CERTIFICATE, CHALLENGE, GET_VERSION, GET_MEASUREMENTS,
GET_CAPABILITIES, NEGOTIATE_ALGORITHMS. -/
def spdmListed (code : Nat) : Bool := [0x81, 0x82, 0x83, 0x84, 0xE0, 0xE1, 0xE3].contains code
/-- R560: any other request is answered ERROR UnsupportedRequest. -/
def execSpdmUnsupportedRequest (code : Nat) (s : State) : Out :=
  onHub (fun s => s.viaBolyel fun s => if spdmListed code then s else s.reply (.spdmError 0x07)) s

/-! ### Sensors (R562) -/

/-- R562: the fields that have a PLDM Type 2 numeric sensor each. -/
def numericFields : List Fld :=
  [Reg.PPT_THERM.TRUSS, Reg.PPT_THERM.HUB, Reg.PPT_THERM.DRAM, Reg.PPT_THERM.PSTAGE, Reg.PPT_THERM.JT_WARN, Reg.PPT_DRAW.MEAS_W,
   Reg.PPT_COOL.TIN, Reg.PPT_COOL.TOUT, Reg.PPT_COOL.FLOW, Reg.PPT_CAL_STAT.VBAT_MV]

/-- R562: what the numeric sensors present, in the order of `numericFields`. -/
def State.numericSensors (s : State) : List Nat := numericFields.map s.getF

/-- R562: what the state sensors of FLT_STATUS bits 0 to 47 present: true for failed, false for normal. -/
def State.stateSensors (s : State) : List Bool := (List.range 48).map fun b => (s.getF Reg.FLT_STATUS.STATUS).testBit b

/-- R562, R564: the sensors a PLDM requester finds; none while Bolyel does not answer. The table has no command for a Type 0 or Type 2
request, so none is answered in `mgmtOut` (assumption 89). -/
def State.pldmSensors (s : State) : Option (List Nat × List Bool) :=
  if s.bolyelUp then some (s.numericSensors, s.stateSensors) else none

/-! ### Firmware update and watchdog (R563, R564) -/

/-- R563: an update after READY: the object is verified by R549 and written by R553; a failed verification raises bit 43. -/
def firmwareUpdate (o : List Byte) (s : State) : State :=
  let purpose := if objPurpose o = 2 then 2 else 1
  let r := s.verifyObj o purpose
  if r ≠ 0 then (s.bootError r).reply (.pldm 2)
  else if purpose = 1 then
    (s.startCacheWrite o).reply (.pldm 0)
  else
    (if s.manifestNewer o then s.writeManifest o else s).reply (.pldm 0)
def execFirmwareUpdate (o : List Byte) (s : State) : Out :=
  onHub (fun s => s.viaBolyel (firmwareUpdate o)) s

/-- R563: ActivateFirmware is answered with activation at the next module reset. -/
def execActivateFirmware (s : State) : Out := onHub (fun s => s.viaBolyel fun s => s.reply (.pldm 3)) s

/-- R564: the watchdog expires: bit 46, EXPIRIES + 1, and Bolyel restarts from the image in H's memory within 200 ms; until then no
management interface answers. -/
def watchdogExpiry (s : State) : State :=
  if s.ready then
    let s := s.bump Reg.SEC_WDOG.EXPIRIES 1
    let s := { s with boot := { s.boot with bolyelBack := s.now + 1 + Config.openRestart s.freeCtr % 200000000 } }.nextFree
    s.raiseLine 46
  else s
def execWatchdogExpiry (s : State) : Out := onHub watchdogExpiry s

/-! ### Time (R565, R586) -/

/-- R566: a signed offset saturated to 32 bits, as OFFSET_NS holds it. -/
def satOffset (o : Int) : Nat := ((max (-(2 ^ 31 : Int)) (min (2 ^ 31 - 1) o)) % (2 ^ 32 : Int)).toNat

/-- R565: while LOCKED, the calendar is set from PTP (TAI `time` in ns) when it differs by more than 1 ms, or has not been set. -/
def State.calFromPtp (s : State) (time : Nat) : State :=
  if s.on Reg.SEC_PTP.LOCKED ∧
    (s.on Reg.PPT_CAL_STAT.INVALID ∨ s.calNs + 1000000 < time ∨ time + 1000000 < s.calNs) then s.setCalendar time 1 else s

/-- R565: a step is allowed while CRS_STATUS.LOCKED or CRS_CTRL.ENABLE is 0. -/
def State.stepAllowed (s : State) : Bool := !s.on Reg.CRS_STATUS.LOCKED || !s.on Reg.CRS_CTRL.ENABLE

/-- R565: `d` ns remain to be slewed away. -/
def State.setSlew (s : State) (d : Int) : State := { s with boot := { s.boot with slew := d } }

/-- R565: the time base is to reach `time` (in ns, as of now): an offset below 1 ms is slewed away, a larger one is stepped when a step is
allowed; otherwise STEP_PEND is set, and the offset is slewed until a step is allowed. -/
def State.followPtp (s : State) (small : Bool) (time : Nat) : State :=
  let d : Int := (time : Int) - s.timeBase
  if small && !s.on Reg.SEC_PTP.STEP_PEND then s.setSlew d
  else if s.stepAllowed then { (s.setF Reg.SEC_PTP.STEP_PEND 0).setSlew 0 with timeBase := time }
  else (s.setF Reg.SEC_PTP.STEP_PEND 1).setSlew d

/-- R565: PPS edges are present: one came in the last 1.5 s (assumption 59). -/
def State.ppsPresent (s : State) : Bool := match s.boot.ppsAt with | some t => decide (s.now ≤ t + 1500000000) | none => false

/-- R565: where a PTP message of TAI time `time` puts the time base: with PPS edges present it supplies the seconds alone. -/
def State.ptpTarget (s : State) (time : Nat) : Nat :=
  if s.ppsPresent then
    let d : Int := (time : Int) - s.timeBase
    (s.timeBase + s.boot.slew + (d - s.boot.slew + 500000000) / 1000000000 * 1000000000).toNat
  else time

/-- R565, R586: a PTP message with the measured offset in ns and TAI time in ns; one of another domain than SEC_PTP.DOMAIN is not for this
clock (DEDUCED, assumption 45). Sixteen consecutive offsets within 1 µs lock the time
base, which then follows TAI; the first setting, from boot's count to TAI, is a step. -/
def ptpMessage (m : PtpOffset) (time : Nat) (s : State) : State :=
  let offset := m.ns
  if m.domain ≠ s.getF Reg.SEC_PTP.DOMAIN then s else
  let s := s.setF Reg.SEC_PTP.OFFSET_NS (satOffset offset)
  let good := if offset.natAbs ≤ 1000 then s.boot.ptpGood + 1 else 0
  let s := { s with boot := { s.boot with ptpGood := good } }
  let s :=
    if s.on Reg.SEC_PTP.LOCKED then s.followPtp (decide (offset.natAbs < 1000000)) (s.ptpTarget time)
    else if 16 ≤ good then (s.setF Reg.SEC_PTP.LOCKED 1).followPtp false time
    else s
  s.calFromPtp time
def execPtpMessage (m : PtpOffset) (time : Nat) (s : State) : Out := onHub (fun s => s.viaBolyel (ptpMessage m time)) s

/-- R565: while PTP is locked, the second boundary of the time base follows the PPS edge, by slewing or stepping as for any offset. -/
def ppsEdge (s : State) : State :=
  let s := { s with boot := { s.boot with ppsAt := some s.now } }
  if s.on Reg.SEC_PTP.LOCKED then
    let t := (s.timeBase + 500000000) / 1000000000 * 1000000000
    s.followPtp (decide (((t : Int) - s.timeBase).natAbs < 1000000)) t
  else s
def execPpsEdge (s : State) : Out := onHub ppsEdge s

/-- R565: ns by which this ns of the reference moves the time base: one, and one more or less every 10 µs while an offset is slewed away, which
is 100 ppm. -/
def State.slewStep (s : State) : Int :=
  if s.now % 10000 ≠ 0 ∨ s.boot.slew = 0 then 0 else if 0 < s.boot.slew then 1 else -1

/-- R543, R565, R575, R586: one nanosecond passes: the module time base and the calendar clock count (assumption 2); with J1 off or below
40 V nothing but the calendar clock runs. -/
def tick (s : State) : State :=
  if s.power.step = .off then { s with now := s.now + 1, calNs := s.calNs + 1 } else
  { s with
    now := s.now + 1, timeBase := (s.timeBase + (1 + s.slewStep).toNat) % 2 ^ 64, calNs := s.calNs + 1
    boot := { s.boot with slew := s.boot.slew - s.slewStep } }

end Sys2Proof.Machine
end

