-- ==== Sys2Proof/Machine/Host.lean ====
section
/-! DEFINITION. Host attachment (R88 to R142): the CXL link, bias and the HDM window, the host aperture, command rings, doorbells,
quiesce and loss of the host. -/

namespace Sys2Proof.Machine

/-! ### Descriptors (R110 to R112) -/

/-- The reserved fields of an opcode's operand words, as (word, lowest bit, width): R112, R386, R488, R489. -/
def reservedFields (op : Nat) : List (Nat × Nat × Nat) :=
  match op with
  | 0x00 => [(1, 0, 64), (2, 0, 64), (3, 0, 64), (4, 0, 64), (5, 0, 64), (6, 0, 64), (7, 0, 64)]
  | 0x01 => [(1, 12, 52), (3, 0, 64), (4, 0, 64), (5, 0, 64), (6, 0, 64), (7, 0, 64)]
  | 0x10 => [(1, 52, 12), (2, 49, 15), (3, 0, 64), (4, 0, 64), (5, 0, 64), (6, 0, 64), (7, 0, 64)]
  | 0x11 => [(1, 5, 59), (2, 48, 16), (3, 0, 64), (4, 0, 64), (5, 0, 64), (6, 0, 64), (7, 0, 64)]
  | 0x12 => [(1, 3, 61), (2, 42, 22), (3, 42, 22), (4, 0, 64), (5, 0, 64), (6, 0, 64), (7, 0, 64)]
  | 0x20 => [(1, 22, 10), (1, 54, 9), (2, 0, 64), (3, 0, 64), (4, 0, 64), (5, 0, 64), (6, 0, 64), (7, 0, 64)]
  | 0x21 => [(1, 21, 11), (1, 53, 11), (2, 0, 64), (3, 0, 64), (4, 0, 64), (5, 0, 64), (6, 0, 64), (7, 0, 64)]
  | 0x22 => [(1, 11, 53), (2, 0, 64), (3, 0, 64), (4, 0, 64), (5, 0, 64), (6, 0, 64), (7, 0, 64)]
  | _ => []

/-- R15, R112, R488, R489: a descriptor with a reserved field not zero, a reserved ACTION of QUIESCE or SNAPSHOT, an AREA that must be 0, or
an ADDR of HOST_COPY that is not aligned, is malformed. -/
def Req.malformed (q : Req) : Bool :=
  decide (wbits (q.word 0) 9 7 ≠ 0) || (reservedFields q.opcode).any (fun f => decide (wbits (q.word f.1) f.2.1 f.2.2 ≠ 0)) ||
  decide (q.opcode = 0x22 ∧ wbits (q.word 1) 8 2 = 3) || decide (q.opcode = 0x11 ∧ (4 ≤ wbits (q.word 1) 0 3 ∨ (wbits (q.word 1) 0 1 = 1 ∧ wbits (q.word 1) 3 1 = 1))) ||
  decide (q.opcode = 0x12 ∧ ((wbits (q.word 1) 0 1 = 1 ∧ wbits (q.word 1) 1 1 = 1) ∨ wbits (q.word 2) 0 12 ≠ 0))

/-- R111: the class that accepts an opcode; none for a reserved one, and 3 for any. -/
def opcodeClass (op : Nat) : Option Nat :=
  match op with
  | 0x00 => some 3
  | 0x01 => some 0
  | 0x10 | 0x11 | 0x12 => some 1
  | 0x20 | 0x21 | 0x22 => some 2
  | _ => none

/-- R15, R111, R386: the status that rejects a descriptor as it is read; none when its command starts. Of a descriptor that is malformed
and of the wrong class too, the manual does not say which status wins: it ends with 0x50, as R15 says (DEDUCED, assumption 64). -/
def State.rejectStatus (s : State) (q : Req) : Option Nat :=
  if q.malformed then some 0x50
  else match opcodeClass q.opcode with
    | none => some 0x53
    | some c =>
      if c = 3 then none
      else if c ≠ s.ringClass q.ring then some 0x54
      else if q.opcode = 0x01 ∧ q.ring ≠ s.getF Reg.CRS_CTRL.TIMED_RING then some 0x54
      else if q.opcode = 0x10 ∧ 2 ≤ wbits (q.word 1) 48 4 then some 0x60
      else none

/-- R387: DETAIL of a media job. -/
def mediaDetail (done other : Nat) : Nat := done % 2 ^ 17 + other % 2 ^ 17 * 2 ^ 17

/-- R386: DUE and NEED of a MEDIA_JOB. -/
def Req.due (q : Req) : Nat := wbits (q.word 2) 0 48
def Req.need (q : Req) : Bool := q.opcode = 0x10 && decide (wbits (q.word 2) 48 1 = 1)

/-- R413: the status of a needed job is kept for the course due on it. -/
def State.noteJob (s : State) (q : Req) (status : Nat) : State :=
  if q.need then { s with jobsDone := s.jobsDone ++ [(q.due, status)] } else s

/-- R408, R426: BUSY shows a job in progress, and MED_SEQ the oldest decode job in progress. -/
def State.countJobs (s : State) : State :=
  let s := s.setF Reg.MED_STAT.BUSY (bit !s.jobs.isEmpty)
  match s.jobs.find? fun j => !j.encode with
  | some j => s.setFs [(Reg.MED_SEQ.COMMITTED, j.committed), (Reg.MED_SEQ.RING, j.req.ring), (Reg.MED_SEQ.SEQ, j.req.seq)]
  | none => s

/-- R426: the first recorded error. -/
def State.mediaErr (s : State) (q : Req) (code : Nat) (cause : Bool) (sample stream : Nat) : State :=
  if s.on Reg.MED_ERR.VALID then s else
  s.setFs [(Reg.MED_ERR.CODE, code), (Reg.MED_ERR.ISCAUSE, bit cause), (Reg.MED_ERR.VALID, 1), (Reg.MED_ERR.STREAM, stream),
    (Reg.MED_ERR.SAMPLE, sample), (Reg.MED_ERR.SEQ, q.seq), (Reg.MED_ERR.RING, q.ring)]

/-- A media request completes without a job: it never started, or validation ended it. -/
def State.mediaReject (s : State) (q : Req) (code : Nat) : State :=
  ((s.mediaErr q code false 0 0).noteJob q code).complete q code 0

/-! ### Reading descriptors (R114, R121) -/

/-- R65, R76, R78, R114, R121, R135, R476: whether the module reads the next descriptor of ring `r` now. -/
def State.canFetch (s : State) (r : Nat) : Bool :=
  decide (r < 1024) && s.ready && s.on (Reg.HIF_RING_STAT.ACTIVE r) && !s.on (Reg.HIF_RING_STAT.ERR r) && !s.suspended &&
  decide (s.getF (Reg.HIF_RING_PTR.SQ_HEAD r) ≠ s.getF (Reg.HIF_RING_PTR.SQ_TAIL r)) &&
  decide ((s.ring r).outstanding.length < s.cqFree r) &&
  (if s.ringClass r = 0 then
     !s.on Reg.CRS_STATUS.HELD && !s.on Reg.SVL_STAT.RESTORING &&
     (if r = s.getF Reg.CRS_CTRL.TIMED_RING then s.on Reg.CRS_CTRL.ENABLE && decide (s.waiting.length < 4) else true)
   else true)

/-- R109: the rings whose next descriptor waits to be read for the first time. -/
def State.readable (s : State) : List Nat := (List.range 1024).filter fun r => s.canFetch r && Nat.beq (s.ring r).tries 0

/-- R109: the ring read next: management before timed before bulk, and round robin within a class. -/
def State.pickRing (s : State) : Option Nat :=
  let rs := s.readable
  [2, 0, 1].findSome? fun c =>
    let mine := rs.filter fun r => Nat.beq (s.ringClass r) c
    (mine.find? fun r => Nat.blt (SMap.look 1023 c s.lastRead) r).or mine.head?

/-- R109: ring `r` is the one of its class that was read last. -/
def State.noteRead (s : State) (r : Nat) : State := { s with lastRead := SMap.put 1023 (s.ringClass r) r s.lastRead }

/-- R121: the answer is a descriptor of the expected phase and sequence number. -/
def State.fresh (s : State) (r : Nat) (d : List W64) : Bool :=
  decide (d.length = 8 ∧ wbits (d.getD 0 0) 8 1 = bit (s.ring r).expPhase ∧
    wbits (d.getD 0 0) 16 16 = s.getF (Reg.HIF_RING_PTR.EXP_SEQ r))

/-- R121: the descriptor is taken: pointers and expectations move on, and it is rejected or waits for its command. -/
def State.takeDescriptor (s : State) (r : Nat) (d : List W64) : State :=
  let head := (s.getF (Reg.HIF_RING_PTR.SQ_HEAD r) + 1) % s.ringSize r
  let x := s.ring r
  let q : Req := ⟨r, d, (s.rejectStatus ⟨r, d, false⟩).isSome⟩
  let s := s.setFs [(Reg.HIF_RING_PTR.SQ_HEAD r, head), (Reg.HIF_RING_PTR.EXP_SEQ r, s.getF (Reg.HIF_RING_PTR.EXP_SEQ r) + 1)]
  let s := s.setRing r { x with tries := 0, expPhase := if head = 0 then !x.expPhase else x.expPhase,
                                outstanding := x.outstanding ++ [q] }
  match s.rejectStatus q with
  | some 0x60 => s.mediaReject q 0x60
  | some st => (s.noteJob q st).finish q st
  | none => s

/-- R121: the slot at the head is read with RdCurr, when the request can reach the host. -/
def State.askSlot (s : State) (r : Nat) : State :=
  if s.hostReachable then
    s.sendCxl .rdCurr (s.getF (Reg.HIF_RING_SQ.BASE r) * 4096 + s.getF (Reg.HIF_RING_PTR.SQ_HEAD r) * 64) 64
  else s

/-- R121: one read of the slot at the head: a fresh descriptor is taken; a stale one, an error or no answer counts in HIF_REREADS, and the
65th ends the ring with 0x52. -/
def State.readSlot (s : State) (r : Nat) (ans : Option (List W64)) : State :=
  let s := s.askSlot r
  match ans.filter fun d => s.hostReachable && s.fresh r d with
  | some d => s.takeDescriptor r d
  | none =>
    let x := s.ring r
    if x.tries = 64 then
      (s.setRing r { x with tries := 0 }).endRing r 0x52 (s.getF (Reg.HIF_RING_PTR.EXP_SEQ r))
    else (s.bump Reg.HIF_REREADS.REREADS 1).setRing r { x with tries := x.tries + 1 }

/-- R109, R121: the first read of a slot, of the ring whose turn it is. -/
def descriptorFetch (r : Nat) (ans : Option (List W64)) (s : State) : State :=
  if s.pickRing = some r then (s.noteRead r).readSlot r ans else s
def execDescriptorFetch (r : Nat) (ans : Option (List W64)) (s : State) : Out := onHub (descriptorFetch r ans) s

/-- R121: a stale slot is read again 1 µs later. -/
def descriptorReread (r : Nat) (ans : Option (List W64)) (s : State) : State :=
  if s.canFetch r && decide ((s.ring r).tries ≠ 0) then s.readSlot r ans else s
def execDescriptorReread (r : Nat) (ans : Option (List W64)) (s : State) : Out := onHub (descriptorReread r ans) s

/-- The command of a descriptor opcode carries out the oldest request of the ring that has been read and not carried out. -/
def State.onReq (s : State) (r op : Nat) (f : Req → State → State) : State :=
  match s.nextReq r op with
  | none => s
  | some q => f q (s.markStarted q)

/-- R111: a NOP completes with 0x00. -/
def execNop (r : Nat) (s : State) : Out := onHub (fun s => s.onReq r 0x00 fun q s => s.finish q 0) s

/-- R115, R140: no interrupt is sent for the record `k` places before the ring's latest, whose write failed: it is not signalled yet, or it
was signalled alone and its interrupt is taken back. An interrupt that other records share stands for those. -/
def State.unsignal (s : State) (r k : Nat) : State :=
  let x := s.ring r
  if k < x.unsignalled then s.setRing r { x with unsignalled := x.unsignalled - 1 }
  else if x.batch = 1 ∧ (k = x.unsignalled ∨ s.getF (Reg.HIF_RING_CFG.COAL r) = 0) then
    { s.setRing r { x with batch := 0 } with msiOut := (s.msiOut.reverse.erase (s.getF (Reg.HIF_RING_CFG.VECTOR r))).reverse }
  else s

/-- R115, R122: the host answers a record write with an error: that of the record `k` places before the latest. The record is lost, no
interrupt is sent for it, and the ring is ended with 0x59. -/
def cqWriteFail (r k : Nat) (s : State) : State :=
  let x := s.ring r
  let size := s.ringSize r
  let slot := (s.getF (Reg.HIF_RING_PTR.CQ_TAIL r) + size - (k + 1) % size) % size
  let addr := s.getF (Reg.HIF_RING_CQ.BASE r) * 4096 + slot * 32
  if x.unconsumed ≤ k ∨ x.cqDead ∨ s.suspended ∨ !(s.hostOut.any fun w => w.addr = addr) then s else
  let s := { s with hostOut := (s.hostOut.reverse.eraseP fun w : HostWrite => decide (w.addr = addr)).reverse }
  (s.unsignal r k).killCq r
def execCqWriteFail (x : RecordPlace) (s : State) : Out := onHub (cqWriteFail x.ring x.back) s

/-- R140: 10 µs after the oldest unsignalled record was posted the ring signals. -/
def coalesceTimeout (r : Nat) (s : State) : State :=
  if s.on (Reg.HIF_RING_CFG.IRQ_EN r) && decide ((s.ring r).unsignalled ≠ 0) then s.signalRing r else s
def execInterruptCoalesceTimeout (r : Nat) (s : State) : Out := onHub (coalesceTimeout r) s

/-! ### Doorbells (R117 to R120) -/

/-- R141: any flag of HIF_DB_ERR is set. -/
def State.dbErr (s : State) : Bool :=
  s.on Reg.HIF_DB_ERR.DISCARD || s.on Reg.HIF_DB_ERR.MISMATCH || s.on Reg.HIF_DB_ERR.BADPAGE || s.on Reg.HIF_DB_ERR.CQHEAD

/-- R119, R120, R140: a doorbell error: its flag and RING; vector 1,025 when DB_ERR goes from 0 to 1. -/
def State.doorbellError (s : State) (f : Fld) (r : Nat) : State :=
  let t := s.setFs [(f, 1), (Reg.HIF_DB_ERR.RING, r)]
  if s.dbErr then t else t.msi 1025

/-- R120: a submission doorbell of ring `r`. -/
def sqDoorbell (r : Nat) (v : W64) (s : State) : State :=
  if !s.on (Reg.HIF_RING_STAT.ACTIVE r) || s.on (Reg.HIF_RING_STAT.BUSY r) || s.on (Reg.HIF_RING_STAT.ERR r) then
    s.doorbellError Reg.HIF_DB_ERR.DISCARD r
  else if wbits v 32 10 ≠ r ∨ wbits v 42 22 ≠ 0 ∨ s.ringSize r ≤ wbits v 0 16 then
    s.doorbellError Reg.HIF_DB_ERR.BADPAGE r
  else
    let x := s.ring r
    let size := s.ringSize r
    let n := (wbits v 0 16 + size - s.getF (Reg.HIF_RING_PTR.SQ_TAIL r)) % size
    let d := (wbits v 16 16 + 65536 - x.lastSeq) % 65536
    if d ≠ n then (s.doorbellError Reg.HIF_DB_ERR.MISMATCH r).endRing r 0x56 (wbits v 16 16)
    else (s.setF (Reg.HIF_RING_PTR.SQ_TAIL r) (wbits v 0 16)).setRing r { x with lastSeq := wbits v 16 16, sqDoorbell := v }

/-- R119: a completion-head doorbell of ring `r`. -/
def cqDoorbell (r : Nat) (v : W64) (s : State) : State :=
  if !s.on (Reg.HIF_RING_STAT.ACTIVE r) && !s.on (Reg.HIF_RING_STAT.BUSY r) then s.doorbellError Reg.HIF_DB_ERR.DISCARD r
  else if wbits v 32 10 ≠ r ∨ wbits v 16 16 ≠ 0 ∨ wbits v 42 22 ≠ 0 ∨ s.ringSize r ≤ wbits v 0 16 then
    s.doorbellError Reg.HIF_DB_ERR.BADPAGE r
  else
    let x := s.ring r
    let size := s.ringSize r
    let n := (wbits v 0 16 + size - x.cqHead) % size
    if x.unconsumed < n then s.doorbellError Reg.HIF_DB_ERR.CQHEAD r
    else s.setRing r { x with cqHead := wbits v 0 16, unconsumed := x.unconsumed - n, cqDoorbell := v }

/-- R117, R551: a write of `width` bytes at BAR2 offset `off`: an aligned 64-bit write to offset 0x000 or 0x008 of a page is a doorbell,
any other write that falls on a doorbell sets BADPAGE, other offsets ignore it; before READY everything is discarded. -/
def bar2Write (off width : Nat) (v : W64) (s : State) : State :=
  let r := off / 0x1000
  if !s.ready ∨ 1024 ≤ r then s
  else if width = 8 ∧ off % 0x1000 = 0 then sqDoorbell r v s
  else if width = 8 ∧ off % 0x1000 = 8 then cqDoorbell r v s
  else if off % 0x1000 < 16 then s.doorbellError Reg.HIF_DB_ERR.BADPAGE r
  else s
def execSqDoorbell (off width : Nat) (v : W64) (s : State) : Out := onHub (bar2Write off width v) s
def execCqDoorbell (off width : Nat) (v : W64) (s : State) : Out := onHub (bar2Write off width v) s

/-! ### Enable and shut-down (R123 to R126) -/

/-- R123: the checks of an enable. -/
def State.enableRing (s : State) (r : Nat) : State :=
  if s.getF (Reg.HIF_RING_SQ.BASE r) = 0 ∨ s.getF (Reg.HIF_RING_CQ.BASE r) = 0 ∨ s.getF (Reg.HIF_RING_CFG.SIZE_LOG2 r) < 4 ∨
      s.ringClass r = 3 then
    s.setFs [(Reg.HIF_RING_STAT.ERR r, 1), (Reg.HIF_RING_STAT.ERR_CODE r, 0x50)]
  else
    (s.setFs [(Reg.HIF_RING_STAT.ACTIVE r, 1), (Reg.HIF_RING_PTR.SQ_HEAD r, 0), (Reg.HIF_RING_PTR.SQ_TAIL r, 0),
      (Reg.HIF_RING_PTR.CQ_TAIL r, 0), (Reg.HIF_RING_PTR.EXP_SEQ r, 0)]).setRing r (s.ring r).restart

/-- R123 to R126, R140: a write to HIF_RING_CFG: ENABLE and IRQ_EN are stored, and records enough for an interrupt are signalled; the other fields only while ACTIVE and BUSY are 0; then the ring is enabled,
disabled, or an enable is held while BUSY. -/
def writeRingCfg (r v : Nat) (s : State) : State :=
  let was := s.on (Reg.HIF_RING_CFG.ENABLE r)
  let now := v.testBit 0
  let free := !s.on (Reg.HIF_RING_STAT.ACTIVE r) && !s.on (Reg.HIF_RING_STAT.BUSY r)
  let s := if free then s.setFs [(Reg.HIF_RING_CFG.CLASS r, bitsOf v 1 2), (Reg.HIF_RING_CFG.SIZE_LOG2 r, bitsOf v 3 4),
      (Reg.HIF_RING_CFG.VECTOR r, bitsOf v 8 10), (Reg.HIF_RING_CFG.COAL r, bitsOf v 24 8)] else s
  let s := s.setFs [(Reg.HIF_RING_CFG.IRQ_EN r, bitsOf v 7 1), (Reg.HIF_RING_CFG.ENABLE r, bit now)]
  let s := s.coalesce r
  if !was && now then
    if s.on (Reg.HIF_RING_STAT.BUSY r) then s else s.enableRing r
  else if was && !now then
    if s.on (Reg.HIF_RING_STAT.BUSY r) then s else
    let s := s.setFs [(Reg.HIF_RING_STAT.ACTIVE r, 0), (Reg.HIF_RING_STAT.BUSY r, 1)]
    if r = s.getF Reg.CRS_CTRL.TIMED_RING then s.withdraw else s
  else s

/-- R126: a ring base is stored while the ring is neither active nor busy. -/
def writeRingBase (r : Nat) (f : Fld) (v : Nat) (s : State) : State :=
  if s.on (Reg.HIF_RING_STAT.ACTIVE r) || s.on (Reg.HIF_RING_STAT.BUSY r) then s else s.setF f (bitsOf v 12 52)

/-- R551: an access to BAR0 address `a` is answered: before READY only the GEN and SEC blocks respond. -/
def State.answers (s : State) (a : Nat) : Bool :=
  s.ready || decide (a < 0x10000 ∨ (0x60000 ≤ a ∧ a < 0x80000))

/-- A register write that has a row of its own. -/
def State.gated (s : State) (a : Nat) (f : State → State) : State := if s.answers a then f s else s

def execRingEnable (r : Nat) (v : W32) (s : State) : Out :=
  onHub (fun s => if r < 1024 then s.gated (0x28010 + r * 0x20) (writeRingCfg r v.toNat) else s) s
def execRingDisable (r : Nat) (v : W32) (s : State) : Out :=
  onHub (fun s => if r < 1024 then s.gated (0x28010 + r * 0x20) (writeRingCfg r v.toNat) else s) s

/-- R124, R135: every record of the ring has been posted, its own end's among them, and none is held over host loss. -/
def State.recordsOut (s : State) (r : Nat) : Bool :=
  (s.ring r).outstanding.isEmpty && (s.ring r).endRec.isNone && s.heldRecs.all fun c => decide (c.ring ≠ r)

/-- R124, R125: the last record of a shutting ring has been posted: pointers reset, ERR and BUSY clear, a held enable takes effect. The
rule does not name ERR_CODE, which says what ended the ring: with ERR it returns to 0 (DEDUCED, assumption 64). -/
def ringShutdownDone (r : Nat) (s : State) : State :=
  if s.on (Reg.HIF_RING_STAT.BUSY r) && s.recordsOut r then
    let s := (s.setFs [(Reg.HIF_RING_PTR.SQ_HEAD r, 0), (Reg.HIF_RING_PTR.SQ_TAIL r, 0), (Reg.HIF_RING_PTR.CQ_TAIL r, 0),
      (Reg.HIF_RING_PTR.EXP_SEQ r, 0), (Reg.HIF_RING_STAT.ERR r, 0), (Reg.HIF_RING_STAT.ERR_CODE r, 0),
      (Reg.HIF_RING_STAT.BUSY r, 0)]).setRing r (s.ring r).restart
    if s.on (Reg.HIF_RING_CFG.ENABLE r) then s.enableRing r else s
  else s
def execRingShutdownDone (r : Nat) (s : State) : Out := onHub (ringShutdownDone r) s

/-! ### Quiesce (R127 to R132) -/

/-- R128: a defined QUIESCE target. -/
def targetDefined (t : Nat) : Bool := decide (t ≤ 0x17 ∨ (0x20 ≤ t ∧ t ≤ 0x23) ∨ t = 0x30 ∨ t = 0x31 ∨ (0x40 ≤ t ∧ t ≤ 0x5F))

/-- R127: the target of function `i` of HIF_FUNC_EN. The flash controller is the QUIESCE target 0x31; the other functions, which R128 gives
no code, have codes of the model's own. -/
def funcTarget (i : Nat) : Nat := if i = 2 then 0x31 else 0x100 + i

/-- R129: a gate refuses a new request with this status; none when it is open. -/
def State.gateStatus (s : State) (t : Nat) : Option Nat :=
  match (s.target t).gate with
  | .opened => none
  | .draining => some 0x01
  | .off => some 0x58

/-- R130: the tag of the request with a ring and SEQ. -/
def reqTag (q : Req) : Nat := q.ring * 65536 + q.seq

/-- R130: a target accepts a request under a tag; a tag that an abort invalidated lives again with its new request. -/
def State.acceptTag (s : State) (t tag : Nat) : State :=
  let x := s.target t
  s.setTarget t { x with tags := x.tags ++ [tag], dead := x.dead.filter (· ≠ tag) }

def State.releaseTag (s : State) (t tag : Nat) : State :=
  let x := s.target t
  s.setTarget t { x with tags := x.tags.filter (· ≠ tag) }

/-- R437: a port is taken down by a disable or a quiesce: it sets no bit. -/
def State.portOff (s : State) (p : Nat) : State :=
  (s.setFs [(Reg.LNK_STAT.UP p, 0), (Reg.LNK_STAT.TRAINING p, 0), (Reg.LNK_STAT.LANES p, 0), (Reg.LNK_STAT.REPAIR_PEND p, 0)]).setPort p
    { Port.fresh with
      failed := (s.port p).failed, mapVer := (s.port p).mapVer, mapDue := (s.port p).mapDue, adopted := (s.port p).adopted, base := (s.port p).base }

/-- R499: the HOLD bit of an operation: 0 SAVE and 1 LOAD flash, 2 RESTORE, 3 and 4 host copy. -/
def holdBit (kind : Nat) : Nat := match kind with | 0 | 1 => 1 | 2 => 3 | _ => 2

/-- R490: an operation lets go of its slot; undone, a slot it was to fill is as before. -/
def State.releaseSlot (s : State) (o : SvlOp) (undo : Bool) : State :=
  let s := s.clrBit (Reg.SVL_SLOT.HOLD o.area o.slot) (holdBit o.kind)
  let s := if o.kind = 2 then s.setF Reg.SVL_STAT.RESTORING 0 else s
  if undo && (o.kind = 1 || o.kind = 4) then
    s.setFs [(Reg.SVL_SLOT.STATE o.area o.slot, o.prev.1), (Reg.SVL_SLOT.COURSE o.area o.slot, o.prev.2)]
  else s

/-- R17: an operation is aborted, and what it had done stands: a slot it was filling holds no point (assumption 69). -/
def State.stopFill (s : State) (o : SvlOp) : State :=
  let s := s.releaseSlot o false
  if o.kind = 1 ∨ o.kind = 4 then s.setF (Reg.SVL_SLOT.STATE o.area o.slot) 0 else s

/-- R128: the targets that a media job's requests go to: the front end as a whole, and the decode or encode function. -/
def mediaTargets (encode : Bool) : List Nat := [0x30, if encode then 0x101 else 0x100]

/-- R130: the tags a target holds: a decode pipeline those of the jobs whose streams it decodes or is to decode, an encode pipeline those of
its jobs. -/
def State.heldTags (s : State) (t : Nat) : List Nat :=
  if t ≤ 0x17 then
    (s.jobs.filter fun j => !j.encode && s.bufs.any fun b => decide (b.ring = j.req.ring ∧ b.pages ≠ 0 ∧ b.pipe = t)).map
      fun j => reqTag j.req
  else if 0x20 ≤ t ∧ t ≤ 0x23 then (s.jobs.filter fun j => j.encode && decide (j.pipe = t - 0x20)).map fun j => reqTag j.req
  else (s.target t).tags

/-- R130: a tag is invalidated at a target that holds it. -/
def State.killTag (s : State) (t tag : Nat) : State :=
  let x := s.target t
  if x.tags.contains tag then s.setTarget t { x with tags := x.tags.filter (· ≠ tag), dead := x.dead ++ [tag] } else s

/-- R129: the snapshot operations that an abort of target `t` ends: those whose requests it holds, and at the flash controller the saves
that SVL_CTRL started (R492), which have no request. -/
def SvlOp.aborts (o : SvlOp) (t : Nat) (mine : Req → Bool) : Bool := match o.req with | some q => mine q | none => decide (t = 0x31)

/-- R129 Abort: each request a target still holds completes with 0x51, its tag is invalidated wherever it is held, and the work it named is
dropped. -/
def State.abortTarget (s : State) (t : Nat) : State :=
  let x := s.target t
  let held := s.heldTags t
  let s := s.setTarget t { x with tags := [], dead := x.dead ++ held }
  let mine := fun q : Req => held.contains (reqTag q)
  let rings := (s.jobs.filter fun j => !j.encode && mine j.req).map fun j => j.req.ring
  let s := s.each (s.jobs.filter fun j => mine j.req) fun s j =>
    ((s.each (mediaTargets j.encode) fun s t => s.killTag t (reqTag j.req)).noteJob j.req 0x51).complete j.req 0x51
      (mediaDetail j.committed j.subst)
  let s := { s with jobs := s.jobs.filter fun j => !mine j.req, bufs := s.bufs.filter fun b => !rings.contains b.ring }.countJobs
  let s := s.each (s.svlOps.filter fun o => o.aborts t mine) fun s o =>
    match o.req with | some q => (s.stopFill o).complete q 0x51 (o.course % 2 ^ 48) | none => s.stopFill o
  { s with svlOps := s.svlOps.filter fun o => !o.aborts t mine }

/-- R412: the physical decode pipelines that serve as logical pipeline `t`. -/
def State.decPipes (s : State) (t : Nat) : List Nat :=
  (List.range 26).filter fun k => decide (s.getF (Reg.MED_PIPE_STAT.STATE k) = 0 ∧ s.getF (Reg.MED_PIPE_STAT.LOGICAL k) = t)

/-- The gutters of a target's unit (R509), a decode pipeline's by its physical number: powering up starts them in their reset state. -/
def State.targetGutters (s : State) (t : Nat) : List Nat :=
  if t ≤ 0x17 then (s.decPipes t).map (0x150 + ·) else if 0x20 ≤ t ∧ t ≤ 0x23 then [0x16A + (t - 0x20)]
  else if t = 0x30 then (List.range 31).map (0x150 + ·)
  else if t = 0x31 then [0x170, 0x171]
  else if 0x40 ≤ t ∧ t ≤ 0x5F then [0x100 + 2 * (t - 0x40), 0x101 + 2 * (t - 0x40)]
  else if t = 0x100 then (List.range 26).map (0x150 + ·) else if t = 0x101 then (List.range 4).map (0x16A + ·)
  else if t = 0x103 then [0x172] else []

/-- R509: a gutter in its reset state. -/
def State.resetGutter (s : State) (i : Nat) : State :=
  (s.setFs [(Reg.GUT_STAT.OCC i, 0), (Reg.GUT_STAT.FILL i, 0), (Reg.GUT_STAT.READY i, 0), (Reg.GUT_STAT.UNDERRUN i, 0), (Reg.GUT_CNT.PARITY i, 0), (Reg.GUT_CNT.RESETS i, 0), (Reg.GUT_CNT.UNDERRUNS i, 0),
    (Reg.GUT_STALECNT.STALE i, 0)]).setGutter i Gutter.fresh

/-- R129 Act and Reopen: ports are taken down, a power-up starts the unit's gutters afresh, and the gate reopens with generation + 1,
or stays closed after a power-down, whose unit's gutters hold no words; FLS_STAT.READY follows the flash controller (R567). The table gives generation + 1 with the opening; the model adds it
on a power-down too, whose requests have been aborted like the others (DESIGN CHOICE, assumption 64). -/
def State.actTarget (s : State) (t action : Nat) : State :=
  let s := if 0x40 ≤ t ∧ t ≤ 0x5F then s.portOff (t - 0x40) else s
  let s := if action = 0 then s else s.each (s.targetGutters t) State.resetGutter
  let s := if t = 0x31 ∧ action ≠ 0 then s.setF Reg.FLS_STAT.READY (bit (decide (action ≠ 1))) else s
  let x := s.target t
  s.setTarget t { x with gate := if action = 1 then .off else .opened, gen := (x.gen + 1) % 4 }

/-- R132: the course in progress uses the target. -/
def State.targetInUse (s : State) (t : Nat) : Bool :=
  match s.course with
  | some c => !c.failed && decide (0x40 ≤ t ∧ t ≤ 0x5F) && c.ports.contains (t - 0x40)
  | none => false

/-- R127: the end of a power-down of a function: BUSY clears, and a power-up held meanwhile follows. -/
def State.funcPoweredDown (s : State) (t : Nat) : State :=
  let i := if t = 0x31 then 2 else t - 0x100
  let s := s.clrBit Reg.HIF_FUNC_BUSY.BUSY i
  if (s.getF Reg.HIF_FUNC_EN.EN).testBit i then s.actTarget t 2 else s

/-- R129: the quiesce at the front of a target's queue acts: its requests are aborted, it acts and reopens, and its own request
completes with 0x00. -/
def State.finishQuiesce (s : State) (t : Nat) : State :=
  match (s.target t).queue with
  | [] => s
  | (req, action, _) :: rest =>
    let s := (s.abortTarget t).actTarget t action
    let s := s.setTarget t { s.target t with queue := rest }
    match req with
    | some q => s.finish q 0
    | none => if action = 1 then s.funcPoweredDown t else s

/-- R129 Fence, R131, R132: the quiesce at the front of the queue starts: with NOW set a course that uses the target fails with 0x86,
else it waits for the closing ridge; then the gate closes, where it is not closed by a power-down. A DRAIN_US of 0 aborts and acts at once. -/
def State.startQuiesce (s : State) (t : Nat) : State :=
  match (s.target t).queue with
  | (req, action, false) :: rest =>
    let now := match req with | some q => decide (wbits (q.word 1) 10 1 = 1) | none => true
    let s := if s.targetInUse t && now then s.failCourse 0x86 else s
    if s.targetInUse t then s else
    let x := s.target t
    let s := s.setTarget t { x with gate := if x.gate = .off then .off else .draining, queue := (req, action, true) :: rest }
    if s.getF Reg.HIF_QUI_DRAIN.DRAIN_US = 0 then s.finishQuiesce t else s
  | _ => s

/-- R129, R131: finishing a quiesce starts the next one that waits, as far as they act at once (`fuel` bounds the chain). -/
def State.drainQueue (s : State) (t : Nat) : Nat → State
  | 0 => s
  | n + 1 =>
    match (s.target t).queue with
    | (_, _, false) :: _ =>
      let u := s.startQuiesce t
      if (u.target t).queue.length < (s.target t).queue.length then u.drainQueue t n else u
    | _ => s

/-- Starts what can start of a target's queue. -/
def State.pumpTarget (s : State) (t : Nat) : State := s.drainQueue t ((s.target t).queue.length + 1)

/-- A quiesce joins the queue of a target. -/
def State.queueQuiesce (s : State) (t : Nat) (req : Option Req) (action : Nat) : State :=
  let x := s.target t
  (s.setTarget t { x with queue := x.queue ++ [(req, action, false)] }).pumpTarget t

/-- R128, R131: a QUIESCE request with ACTION `a`: 0x58 for a reserved target, else it joins its target's queue. -/
def quiesce (a r : Nat) (s : State) : State :=
  match s.nextReq r 0x22 with
  | none => s
  | some q =>
    if wbits (q.word 1) 8 2 ≠ a then s else
    let s := s.markStarted q
    let t := wbits (q.word 1) 0 8
    if !targetDefined t then s.finish q 0x58 else s.queueQuiesce t (some q) a
def execQuiesceReset (r : Nat) (s : State) : Out := onHub (quiesce 0 r) s
def execQuiescePowerDown (r : Nat) (s : State) : Out := onHub (quiesce 1 r) s
def execQuiescePowerUp (r : Nat) (s : State) : Out := onHub (quiesce 2 r) s

/-- R129: t0 + DRAIN_US of the quiesce that runs on a target. -/
def quiesceDrainLimit (t : Nat) (s : State) : State :=
  match (s.target t).queue with
  | (_, _, true) :: _ => (s.finishQuiesce t).pumpTarget t
  | _ => s
def execQuiesceDrainLimit (t : Nat) (s : State) : Out := onHub (quiesceDrainLimit t) s

/-- R130: a reply carries the generation and tag of its request; a stale or invalidated one is discarded and counted. -/
def targetReply (t tag gen : Nat) (s : State) : State :=
  let x := s.target t
  if gen ≠ x.gen ∨ x.dead.contains tag ∨ !(s.heldTags t).contains tag then
    (s.setTarget t { x with dead := x.dead.filter (· ≠ tag) }).bump Reg.HIF_QUI_DISCARD.DISCARDS 1
  else s.setTarget t { x with tags := x.tags.filter (· ≠ tag) }
def execTargetReply (t tag gen : Nat) (s : State) : Out := onHub (targetReply t tag gen) s

/-- R127, R131: a write to HIF_FUNC_EN: a bit cleared quiesces its function with the power-down action, a bit set powers it up, held while
BUSY; either waits for the quiesces of the target that are there before it. -/
def writeFuncEn (v : Nat) (s : State) : State :=
  let old := s.getF Reg.HIF_FUNC_EN.EN
  let s := s.setF Reg.HIF_FUNC_EN.EN (v % 16)
  s.each (List.range 4) fun s i =>
    let t := funcTarget i
    if old.testBit i && !v.testBit i then
      if (s.getF Reg.HIF_FUNC_BUSY.BUSY).testBit i then s else (s.setBit Reg.HIF_FUNC_BUSY.BUSY i).queueQuiesce t none 1
    else if !old.testBit i && v.testBit i then
      if (s.getF Reg.HIF_FUNC_BUSY.BUSY).testBit i then s
      else if (s.target t).queue.isEmpty then s.actTarget t 2 else s.queueQuiesce t none 2
    else s
def execFuncPowerDown (v : W32) (s : State) : Out := onHub (fun s => s.gated 0x20044 (writeFuncEn v.toNat)) s
def execFuncPowerUp (v : W32) (s : State) : Out := onHub (fun s => s.gated 0x20044 (writeFuncEn v.toNat)) s

/-! ### Coherence and the window (R93 to R104) -/

/-- R140: a status flag of HIF_STATUS is set, and vector 1,025 signalled when it goes from 0 to 1. -/
def State.hifFlag (s : State) (f : Fld) : State := if s.on f then s else (s.setF f 1).msi 1025

/-- R99: some ring is active or busy. -/
def State.anyRing (s : State) : Bool :=
  (List.range 1024).any fun r => s.on (Reg.HIF_RING_STAT.ACTIVE r) || s.on (Reg.HIF_RING_STAT.BUSY r)

/-! #### The host-line cache (R98, R108) -/

/-- The byte at host address `a` that the cache holds. -/
def State.cachedByte (s : State) (a : Nat) : Option Byte :=
  ((s.hostLines.find? fun x => Nat.beq x.line (a / 64)).bind fun x => (x.data.getD (a % 64) none)).map Prod.fst

/-- Bytes read from host address `a`: those the cache holds stand before what the host answered. -/
def State.overCache (s : State) : Nat → List Byte → List Byte
  | _, [] => []
  | a, b :: t => (s.cachedByte a).getD b :: s.overCache (a + 1) t

/-- The dirty bytes of a line as writes of runs, from host address `a`. -/
def dirtyRuns : Nat → List (Option (Byte × Bool)) → List HostWrite
  | _, [] => []
  | a, some (b, true) :: t =>
    match dirtyRuns (a + 1) t with
    | w :: ws => if w.addr = a + 1 then ⟨a, b :: w.bytes⟩ :: ws else ⟨a, [b]⟩ :: w :: ws
    | [] => [⟨a, [b]⟩]
  | a, _ :: t => dirtyRuns (a + 1) t

/-- Lines leave the cache, and what is dirty in them is written to the host. -/
def State.evict (s : State) (xs : List HostLine) : State :=
  { s with
    hostLines := s.hostLines.filter fun x => !xs.contains x
    hostOut := s.hostOut ++ xs.flatMap fun x => dirtyRuns (x.line * 64) x.data }

/-- A line takes the bytes of an access at host address `a` that fall on it; a store leaves them dirty, a load keeps what is there. -/
def HostLine.take (x : HostLine) (a : Nat) (bs : List Byte) (store : Bool) : HostLine :=
  { x with data := x.data.mapIdx fun i y =>
      match bs[x.line * 64 + i - a]? with
      | some b => if x.line * 64 + i < a then y else if store then some (b, true) else y.or (some (b, false))
      | none => y }

/-- R98, R108: the lines of an access are held, as the lines used last; beyond 65,536 lines the longest unused leave. -/
def State.holdLines (s : State) (a : Nat) (bs : List Byte) (store : Bool) : State :=
  let s := s.each (sectorsOf a bs.length) fun s l =>
    let x := (s.hostLines.find? fun x => Nat.beq x.line l).getD ⟨l, List.replicate 64 none⟩
    { s with hostLines := (s.hostLines.filter fun x => !Nat.beq x.line l) ++ [x.take a bs store] }
  s.evict (s.hostLines.take (s.hostLines.length - 65536))

/-- R99: a write to HIF_CTRL: HL_MODE is stored; COH_MODE is not, and MODE_ERR is set, while courses are enabled or a ring is active or busy.
Full-coherence mode starts with an empty host-line cache, and writes what is dirty there back when it ends. The bias table stands through
it, so the pages shared before it are shared after it (DESIGN CHOICE, assumption 64). -/
def writeHifCtrl (v : Nat) (s : State) : State :=
  let s := s.setF Reg.HIF_CTRL.HL_MODE (bitsOf v 0 1)
  if s.on Reg.CRS_CTRL.ENABLE || s.anyRing then s.hifFlag Reg.HIF_STATUS.MODE_ERR
  else if bitsOf v 1 1 = s.getF Reg.HIF_CTRL.COH_MODE then s
  else { (s.evict s.hostLines).setF Reg.HIF_CTRL.COH_MODE (bitsOf v 1 1) with winLines := [] }
def execCohModeWrite (v : W32) (s : State) : Out := onHub (fun s => s.gated 0x20000 (writeHifCtrl v.toNat)) s

/-- R100, R101: a write to HIF_HDM: a base in range waits for the next ridge, any other is ignored and sets HDM_ERR. -/
def writeHdm (v : Nat) (s : State) : State :=
  if bitsOf v 0 10 + 16 ≤ s.hbmCap / 2 ^ 30 then s.setFs [(Reg.HIF_HDM.BASE_GIB, bitsOf v 0 10), (Reg.HIF_HDM.MOVE_PEND, 1)]
  else s.hifFlag Reg.HIF_STATUS.HDM_ERR
def execHdmMoveRequest (v : W64) (s : State) : Out := onHub (fun s => s.gated 0x20010 (writeHdm v.toNat)) s

/-- R101 to R103: at a ridge a pending move takes effect, or is refused with HDM_ERR when a page is shared or it no longer fits. -/
def State.moveWindow (s : State) : State :=
  if s.on Reg.HIF_HDM.MOVE_PEND then
    let b := s.getF Reg.HIF_HDM.BASE_GIB
    let s := s.setF Reg.HIF_HDM.MOVE_PEND 0
    if s.on Reg.HIF_CTRL.COH_MODE || !s.shared.isEmpty || decide (s.hbmCap / 2 ^ 30 < b + 16) then
      (s.setF Reg.HIF_HDM.BASE_GIB s.hdmBase).hifFlag Reg.HIF_STATUS.HDM_ERR
    else { s with hdmBase := b }.checkWindow
  else s

/-- R94, R96: a device-owned page a host access touches is flipped to shared and counted; one that a running BIAS_SET has flipped is the
host's from now on. -/
def State.flipPage (s : State) (p : Nat) : State :=
  if s.pageShared p then { s with biasJobs := s.biasJobs.map fun j => { j with flipped := j.flipped.filter (· ≠ p) } }
  else { s.bump Reg.HIF_BIAS_FLIPS.FLIPS 1 with shared := insertSorted p s.shared }

/-- R98: as HDM-DB, the lines of the window that a host read touches may be held by the host. -/
def State.lendLines (s : State) (off n : Nat) : State :=
  if s.hdmDb then { s with winLines := (sectorsOf off n).foldl (fun l x => insertSorted x l) s.winLines } else s

/-- R94, R341: a host read of `n` bytes below HBM_CAP: what it returns, whether poisoned, and what it leaves. -/
def State.windowRead (s : State) (a n : Nat) : List Byte × Bool × State :=
  let bad := s.badStacks a n
  let r := s.readRaw a n
  (r.1, r.2.1, r.2.2.each bad fun s st => s.raiseLine (8 + st))

/-- R94, R341: a host write of bytes below HBM_CAP. -/
def State.windowWrite (s : State) (a : Nat) (bs : List Byte) : State :=
  let bad := ((State.partSectors a bs.length).filter fun x => s.sectorState x = .bad).map fun x => stackOf (s.placeOf (x * 64)).1
  (s.mergeHbm a bs).each bad fun s st => s.raiseLine (8 + st)

/-- R94, R104, R341: a host access of the window at byte offset `off`. What lies above HBM_CAP reads as all ones with poison, and is not
written. -/
def hdmHostAccess (off : Nat) (acc : HdmAccess) (s : State) : State :=
  let n := match acc with | .read n => n | .write bs => bs.length
  let a := s.hdmBase * 2 ^ 30 + off
  if !s.ready ∨ !s.on Reg.HIF_STATUS.LINK_UP ∨ n = 0 ∨ 16 * 2 ^ 30 < off + n then s else
  let s := s.each (blocksOf off n) State.flipPage
  let k := min n (s.hbmCap - a)
  match acc with
  | .read n =>
    let r := (s.lendLines off n).windowRead a k
    { r.2.2 with hostReads := r.2.2.hostReads ++ [(r.1 ++ List.replicate (n - k) 0xFF, r.2.1 || decide (k < n))] }
  | .write bs => s.windowWrite a (bs.take k)
def execHdmHostAccess (off : Nat) (acc : HdmAccess) (s : State) : Out := onCore (hdmHostAccess off acc) s

/-- R98: in full-coherence mode a host snoop of a host line held in the host-line cache takes it out, with what is dirty in it; one of a line
not held, and any in per-page mode, finds nothing. -/
def hostSnoop (line : Nat) (s : State) : State :=
  if s.on Reg.HIF_CTRL.COH_MODE then s.evict (s.hostLines.filter fun x => Nat.beq x.line line) else s
def execHostSnoop (line : Nat) (s : State) : Out := onHub (hostSnoop line) s

/-- The pages of a BIAS_SET or the entries of an APT_INVAL. -/
def RangeJob.has (j : RangeJob) (i : Nat) : Bool := decide (j.first ≤ i ∧ i < j.first + j.count)
def RangeJob.pages (j : RangeJob) : List Nat := (List.range j.count).map (j.first + ·)

/-- R138: a BIAS_SET stopped by an internal fault takes no effect: the pages it has flipped, and no host access has claimed since, are
device-owned again. -/
def State.unbias (s : State) (j : RangeJob) : State := { s with shared := s.shared.filter fun p => !j.flipped.contains p }

/-- R95, R98: BIAS_SET: 0x55 past the window or in full-coherence mode; pages set shared flip at once. -/
def biasSet (r : Nat) (s : State) : State :=
  s.onReq r 0x20 fun q s =>
    let j : RangeJob := ⟨q, wbits (q.word 1) 0 22, wbits (q.word 1) 32 22 + 1, wbits (q.word 1) 63 1 = 1, []⟩
    if 4194304 < j.first + j.count ∨ s.on Reg.HIF_CTRL.COH_MODE then s.finish q 0x55
    else if j.bias then
      let new := j.pages.filter fun p => !s.shared.contains p
      { s with biasJobs := s.biasJobs ++ [{ j with flipped := new }], shared := new.foldl (fun l p => insertSorted p l) s.shared }
    else { s with biasJobs := s.biasJobs ++ [j] }
def execBiasSet (r : Nat) (s : State) : Out := onHub (biasSet r) s

/-- R95, R96: the oldest BIAS_SET ends: every page of its range holds its bias, whatever host accesses did meanwhile; before pages become
device-owned RdOwnNoData goes out for each of their lines, so that the host holds none. -/
def biasSetDone (s : State) : State :=
  match s.biasJobs with
  | [] => s
  | j :: rest =>
    let s := { s with biasJobs := rest }
    let s := if j.bias then { s with shared := j.pages.foldl (fun l p => insertSorted p l) s.shared }
      else { s with
        cxlOut := s.cxlOut ++ j.pages.map fun p => ⟨.rdOwnNoData, 64 * p, 64⟩
        winLines := s.winLines.filter fun l => !j.has (l / 64), shared := s.shared.filter fun p => !j.has p }
    s.finish j.req 0
def execBiasSetDone (s : State) : Out := onHub biasSetDone s

/-! ### The host aperture (R105 to R108) -/

/-- R106: APT_INVAL starts; 0x57 past the table. -/
def aptInval (r : Nat) (s : State) : State :=
  s.onReq r 0x21 fun q s =>
    let j : RangeJob := ⟨q, wbits (q.word 1) 0 21, wbits (q.word 1) 32 21 + 1, false, []⟩
    if s.getF Reg.HIF_APT_CFG.COUNT + 1 < j.first + j.count then s.finish q 0x57
    else { s with aptJobs := s.aptJobs ++ [j] }
def execAptInval (r : Nat) (s : State) : Out := onHub (aptInval r) s

/-- The aperture entries that a piece of a host-aperture access uses. -/
def Piece.aptEntries (p : Piece) : List Nat := if p.tier = 3 then [p.far / 2 ^ 21, (p.far + p.len - 1) / 2 ^ 21] else []

/-- The aperture entries that accesses still in flight use. -/
def State.aptInFlight (s : State) : List Nat :=
  s.rafts.flatMap fun x =>
    (x.2.down.flatMap fun d => d.pieces.flatMap Piece.aptEntries) ++
    ((x.2.ahead.filter fun d => !d.ended).flatMap fun d => d.pieces.flatMap Piece.aptEntries)

/-- R106: the oldest APT_INVAL completes, and drops the cached translations of its range, once no request in flight uses one of them: until
then a host write to a cached entry is not seen. -/
def aptInvalDone (s : State) : State :=
  match s.aptJobs with
  | [] => s
  | j :: rest => if s.aptInFlight.any j.has then s
    else { s with aptJobs := rest, aptCache := s.aptCache.filter fun e => !j.has e.1 }.finish j.req 0
def execAptInvalDone (s : State) : Out := onHub aptInvalDone s

/-- R107: HIF_APT_FAULT records the first failure after VALID was last cleared. -/
def State.aptFault (s : State) (a cause : Nat) : State :=
  if s.on Reg.HIF_APT_FAULT.VALID then s
  else s.setFs [(Reg.HIF_APT_FAULT.ADDR, a), (Reg.HIF_APT_FAULT.CAUSE, cause), (Reg.HIF_APT_FAULT.VALID, 1)]

/-- R105: an entry is usable: V set and every reserved bit zero. -/
def aptEntryOk (e : W64) : Bool := decide (wbits e 0 1 = 1 ∧ wbits e 2 19 = 0 ∧ wbits e 52 12 = 0)

/-- R106: the entry for aperture page `i`: from the translation cache, or read from the table in HBM and kept when it is usable. The manual
does not say which entry leaves a full cache: the one filled longest ago does (DESIGN CHOICE, assumption 64). -/
def State.aptEntry (s : State) (i : Nat) : Option W64 × State :=
  match s.aptCache.find? (fun e => e.1 = i) with
  | some e => (some e.2, s)
  | none =>
    let r := s.readQuiet (s.hdmBase * 2 ^ 30 + s.getF Reg.HIF_APT_BASE.OFFSET * 4096 + 8 * i) 8
    let e : W64 := BitVec.ofNat 64 (leNat r.1)
    if r.2.1 || !aptEntryOk e then (none, r.2.2)
    else (some e, { r.2.2 with aptCache := (s.aptCache ++ [(i, e)]).drop (s.aptCache.length + 1 - 4096) })

/-- R107: the aperture page at `a` translated: the host physical address of `a`, or the CAUSE of the failure. `err`: the host answers
with an error. -/
def State.aptPage (s : State) (a : Nat) (store err : Bool) : Except Nat Nat × State :=
  let i := a / 2 ^ 21
  if !s.on Reg.HIF_APT_CFG.EN || decide (s.getF Reg.HIF_APT_CFG.COUNT < i) then (.error 0, s)
  else
    let r := s.aptEntry i
    match r.1 with
    | none => (.error 1, r.2)
    | some e =>
      if store && decide (wbits e 1 1 = 0) then (.error 2, r.2)
      else if err || !r.2.hostReachable then (.error 3, r.2)
      else (.ok (wbits e 21 31 * 2 ^ 21 + a % 2 ^ 21), r.2)

/-- The 2 MiB pages of an aperture access: address and length of each piece. -/
def aptPieces (a n : Nat) : List (Nat × Nat) :=
  if n = 0 then [] else
  (List.range ((a + n - 1) / 2 ^ 21 - a / 2 ^ 21 + 1)).map fun k =>
    let lo := max a ((a / 2 ^ 21 + k) * 2 ^ 21)
    (lo, min (a + n) ((a / 2 ^ 21 + k + 1) * 2 ^ 21) - lo)

/-- R107, R108: every page of an aperture access translated in turn: the host addresses, or the first failure recorded. -/
def State.aptAccess (s : State) (store err : Bool) : List (Nat × Nat) → List (Nat × Nat) → Option (List (Nat × Nat)) × State
  | [], acc => (some acc, s)
  | (a, n) :: t, acc =>
    match s.aptPage a store err with
    | (.error c, s) => (none, s.aptFault a c)
    | (.ok h, s) => s.aptAccess store err t (acc ++ [(h, n)])

/-- Requests of one kind for lines, each on its own. -/
def State.askLines (s : State) (kind : CxlKind) (ls : List Nat) : State := { s with cxlOut := s.cxlOut ++ ls.map fun l => ⟨kind, l, 1⟩ }

/-- R108: translated pieces of a load are read: with RdCurr, or in full-coherence mode from the host-line cache, with RdShared for the lines
it does not hold. `bs`: what the host answers. -/
def State.hostLoads (s : State) : List (Nat × Nat) → List Byte → List Byte × State
  | [], _ => ([], s)
  | (h, n) :: t, bs =>
    if s.on Reg.HIF_CTRL.COH_MODE then
      let got := s.overCache h (bs.take n)
      let miss := (sectorsOf h n).filter fun l => !s.hostLines.any fun x => Nat.beq x.line l
      let r := ((s.askLines .rdShared miss).holdLines h got false).hostLoads t (bs.drop n)
      (got ++ r.1, r.2)
    else
      let r := (s.sendCxl .rdCurr h n).hostLoads t (bs.drop n)
      (bs.take n ++ r.1, r.2)

/-- An aperture load of `n` bytes at `a`: the bytes the host answers with, or none when the access fails. -/
def State.aptLoad (s : State) (a n : Nat) (far : FarAns) : Option (List Byte) × State :=
  let r := s.aptAccess false (decide (far = .error)) (aptPieces a n) []
  match r.1, far with
  | some ps, .data bs =>
    let q := r.2.hostLoads ps (bs.take n ++ List.replicate (n - bs.length) 0)
    (some q.1, q.2)
  | _, _ => (none, r.2)

/-- R108: translated pieces of a store are written: full lines with ItoMWr and part lines with WrCur, or in full-coherence mode into the
host-line cache, with RdOwn for each line that it does not hold dirty. -/
def State.hostStores (s : State) : List (Nat × Nat) → List Byte → State
  | [], _ => s
  | (h, n) :: t, bs =>
    let ls := sectorsOf h n
    let part := State.partSectors h n
    if s.on Reg.HIF_CTRL.COH_MODE then
      let own := ls.filter fun l => !s.hostLines.any fun x => Nat.beq x.line l && x.data.any fun y => y.any Prod.snd
      ((s.askLines .rdOwn own).holdLines h (bs.take n) true).hostStores t (bs.drop n)
    else
      let s := (s.askLines .itoMWr (ls.filter fun l => !part.contains l)).askLines .wrCur part
      let w : HostWrite := ⟨h, bs.take n⟩
      { s with hostOut := s.hostOut ++ [w] }.hostStores t (bs.drop n)

/-- An aperture store of `bs` at `a`: whether it succeeded, and the state with its host writes sent. Every page is translated before the
first is written, so a store that fails writes nothing: of a HOST_COPY that ends with 0x7B the manual leaves the host bytes already written
undefined, and the model sends none of the failed piece (DESIGN CHOICE, assumption 65). -/
def State.aptStore (s : State) (a : Nat) (bs : List Byte) (far : FarAns) : Bool × State :=
  let r := s.aptAccess true (decide (far = .error)) (aptPieces a bs.length) []
  match r.1 with
  | none => (false, r.2)
  | some ps => (true, r.2.hostStores ps bs)

/-! ### The link and loss of the host (R89, R133 to R137) -/

/-- R493: a HOST_COPY that meets host loss ends with 0x7B and touches nothing further; a slot it was filling is EMPTY. HIF_APT_FAULT records
its access, of which the manual says no more than that it is the first that failed: its address within the copy is a free value (DESIGN
CHOICE, assumption 84). -/
def State.copyLost (s : State) (o : SvlOp) : State :=
  let s := ((s.stopFill o).aptFault (o.addr + 64 * (Config.openPart s.freeCtr % max 1 (o.room / 64))) 3).nextFree
  let s := { s with svlOps := s.svlOps.filter fun p => !(decide (p.kind = o.kind) && decide (p.area = o.area) && decide (p.slot = o.slot)) }
  match o.req with | some q => s.complete q 0x7B (o.course % 2 ^ 48) | none => s

/-- R133 to R135, R493: host loss: the link figures read down; in self-reset mode a reset is due and nothing more is written to the host; in
fallback mode rings are suspended, every page becomes device-owned and the translation cache is emptied. Bit 32 rises in both, and a HOST_COPY in
progress ends. Dirty lines of
the host-line cache cannot reach the host and are lost (DESIGN CHOICE, assumption 61). -/
def hostLoss (s : State) : State :=
  if s.on Reg.HIF_STATUS.HOST_LOST ∨ s.selfReset then s else
  let s := { s.setFs [(Reg.HIF_STATUS.LINK_UP, 0), (Reg.HIF_LINK.RATE, 0), (Reg.HIF_LINK.WIDTH, 0)] with
    l0Left := none, suspended := true, hostLines := [], winLines := [] }
  let s := if s.on Reg.HIF_CTRL.HL_MODE then
      { s.setF Reg.HIF_STATUS.HOST_LOST 1 with shared := [], aptCache := [] }
    else { s with selfReset := true }
  let s := s.each (s.svlOps.filter fun o => decide (o.kind = 3 ∨ o.kind = 4)) State.copyLost
  s.holdLine 32

/-- R89: the highest common rate and width: RATE and lanes. -/
def bestLink (o : LinkOffer) : Option (Nat × Nat) :=
  let rate := if o.g64 then 2 else if o.g32 then 1 else 0
  let width := if o.x16 then 16 else if o.x8 then 8 else if o.x4 then 4 else 0
  if rate = 0 ∨ width = 0 then none else some (rate, width)

/-- R89, R90, R133: the link completes training, or cannot train, which is host loss; a self-reset that is due has the link down (R134). -/
def linkTrained (o : LinkOffer) (s : State) : State :=
  if s.selfReset then s else
  match bestLink o with
  | none => hostLoss s
  | some (rate, width) =>
    { s.setFs [(Reg.HIF_LINK.RATE, rate), (Reg.HIF_LINK.WIDTH, width), (Reg.HIF_STATUS.LINK_UP, bit (!s.on Reg.HIF_STATUS.HOST_LOST))]
      with l0Left := none }
def execLinkTrained (o : LinkOffer) (s : State) : Out := onHub (linkTrained o) s

/-- R133: the link leaves L0, and the detection timer starts. HIF_LINK keeps the rate and width the link was trained at until it trains again
or the host is lost (DESIGN CHOICE, assumption 64). -/
def linkLeaveL0 (s : State) : State :=
  if s.on Reg.HIF_STATUS.LINK_UP then { s.setF Reg.HIF_STATUS.LINK_UP 0 with l0Left := some s.now } else s
def execLinkLeaveL0 (s : State) : Out := onHub linkLeaveL0 s

/-- R133: the link has not returned to L0 within DET_US. -/
def linkDownTimeout (s : State) : State := if s.l0Left.isSome then hostLoss s else s
def execLinkDownTimeout (s : State) : Out := onHub linkDownTimeout s

/-- R555: HOSTRST_N while a host offer is read: the offer fails with 0x0A. -/
def State.offerLost (s : State) : State :=
  if s.boot.reading = some 2 then offerVerify none s else s

/-- R133, R135, R551, R555, R582: HOSTRST_N is asserted; the CXL controller's component registers return to reset. It is host loss, but while
boot reads a host offer: then R555 has the offer fail and the window continue, so no self-reset is armed, and the link alone goes down
(DEDUCED, assumption 57). -/
def hostrstAssert (s : State) : State :=
  let s := { s with regs := s.regs.filter fun x => !decide (0x30000 * 64 ≤ x.1 ∧ x.1 < 0x40000 * 64) }
  if s.boot.reading = some 2 then
    { s.offerLost.setFs [(Reg.HIF_STATUS.LINK_UP, 0), (Reg.HIF_LINK.RATE, 0), (Reg.HIF_LINK.WIDTH, 0)] with l0Left := none }
  else hostLoss s
def execHostrstAssert (s : State) : Out := onHub hostrstAssert s

/-- R88, R133: a received viral indication. -/
def execViralReceived (s : State) : Out := onHub hostLoss s

/-- R134, R580: the self-reset that follows host loss with HL_MODE 0. -/
def hostLossSelfReset (s : State) : State := if s.selfReset then s.moduleReset 3 else s
def execHostLossSelfReset (s : State) : Out := onHub hostLossSelfReset s

/-- R136 step 2: the host has enumerated again: HOST_LOST clears, LINK_UP and REATTACH are set, vector 1,025 is signalled. -/
def reattach (s : State) : State :=
  if s.on Reg.HIF_STATUS.HOST_LOST && s.on Reg.HIF_LINK.WIDTH then
    ((s.setFs [(Reg.HIF_STATUS.HOST_LOST, 0), (Reg.HIF_STATUS.LINK_UP, 1), (Reg.HIF_STATUS.REATTACH, 1)]).msi 1025).dropLine 32
  else s
def execReattach (s : State) : Out := onHub reattach s

/-- R136 step 5: suspended rings resume; held records are posted in order, those of disabled rings discarded and counted. -/
def writeAttach (v : Nat) (s : State) : State :=
  if v.testBit 0 && s.suspended && !s.on Reg.HIF_STATUS.HOST_LOST && !s.selfReset then
    { s with suspended := false, heldRecs := [] }.each s.heldRecs fun s c =>
      if s.on (Reg.HIF_RING_STAT.ACTIVE c.ring) then s.writeRec c
      else s.bump Reg.HIF_HL_LOST.LOST 1
  else s
def execAttachResume (v : W32) (s : State) : Out := onHub (fun s => s.gated 0x20064 (writeAttach v.toNat)) s

end Sys2Proof.Machine
end

