-- ==== Sys2Proof/Machine/Float.lean ====
section
/-! DEFINITION. Number formats and arithmetic (R191 to R206): decoding to exact values, one rounding, the FP32 operations every unit
uses, conversion to stored formats, and the reference summation order of the matrix engine. -/

namespace Sys2Proof.Machine

/-- A value: NaN, an infinity, or (−1)^neg × m × 2^e exactly; m = 0 is a signed zero (R192). -/
inductive FV where
  | nan
  | inf (neg : Bool)
  | num (neg : Bool) (m : Nat) (e : Int)
  deriving DecidableEq, Repr

/-- R191: precision in bits and the exponent of the smallest subnormal, by format code (R177). -/
def fmtPrec (f : Nat) : Nat := match f with | 0 => 4 | 1 => 3 | 2 => 2 | 3 => 8 | _ => 24
def fmtMin (f : Nat) : Int := match f with | 0 => -9 | 1 => -16 | 2 => -1 | 3 => -133 | _ => -149
/-- Width in bits, and in bytes for the formats that fill whole bytes. -/
def fmtBits (f : Nat) : Nat := match f with | 0 => 8 | 1 => 8 | 2 => 4 | 3 => 16 | _ => 32
def fmtBytes (f : Nat) : Nat := fmtBits f / 8
/-- Magnitude code of infinity; for E4M3 and E2M1, which have none, a code above every finite one. -/
def fmtInf (f : Nat) : Nat := match f with | 0 => 0x7F | 1 => 0x7C | 2 => 8 | 3 => 0x7F80 | _ => 0x7F800000
/-- R193: the canonical NaN. -/
def fmtNan (f : Nat) : Nat := match f with | 0 => 0x7F | 1 => 0x7E | 3 => 0x7FC0 | _ => 0x7FC00000

/-- R191, R192: the value of an element code. -/
def decodeF (f code : Nat) : FV :=
  let w := fmtBits f
  let neg := code.testBit (w - 1)
  let mag := code % 2 ^ (w - 1)
  let h := 2 ^ (fmtPrec f - 1)
  if fmtInf f ≤ mag then
    if mag = fmtInf f ∧ f ≠ 0 then .inf neg else .nan
  else if mag / h = 0 then .num neg mag (fmtMin f)
  else .num neg (mag % h + h) (fmtMin f + (mag / h : Nat) - 1)

/-- m × 2^e / 2^q rounded to an integer, to nearest, ties to even. -/
def rne (m : Nat) (e q : Int) : Nat :=
  if q ≤ e then m * 2 ^ (e - q).toNat
  else
    let d := 2 ^ (q - e).toNat
    let n := m / d
    let r := m % d
    if 2 * r < d then n else if d < 2 * r then n + 1 else n + n % 2

/-- A magnitude rounded to a format's precision with exponent unbounded above: its magnitude code continued past the largest finite
one (R194, R196). -/
def magCode (f : Nat) (m : Nat) (e : Int) : Nat :=
  if m = 0 then 0 else
  let q := max ((m.log2 : Int) + e - (fmtPrec f - 1 : Nat)) (fmtMin f)
  (q - fmtMin f).toNat * 2 ^ (fmtPrec f - 1) + rne m e q

/-- The sign bit of a format. -/
def signBit (f : Nat) (neg : Bool) : Nat := if neg then 2 ^ (fmtBits f - 1) else 0

/-- R193, R194, R198: a value rounded once to FP32 or BF16; overflow gives an infinity. -/
def encodeF (f : Nat) : FV → Nat
  | .nan => fmtNan f
  | .inf neg => signBit f neg + fmtInf f
  | .num neg m e => signBit f neg + min (magCode f m e) (fmtInf f)

/-- The exact value of FP32 bits, and the FP32 of a value. -/
def FV.of (x : W32) : FV := decodeF 4 x.toNat
def FV.to32 (v : FV) : W32 := BitVec.ofNat 32 (encodeF 4 v)

/-! ### Exact operations -/

def FV.neg : FV → FV
  | .nan => .nan
  | .inf s => .inf (!s)
  | .num s m e => .num (!s) m e

/-- A signed integer at scale 2^e as a value; `z` is the sign of an exact zero. -/
def ofInt (t : Int) (e : Int) (z : Bool) : FV := if t = 0 then .num z 0 e else .num (decide (t < 0)) t.natAbs e

/-- A magnitude with its sign at scale 2^q, for q at or below its exponent. -/
def scaled (s : Bool) (m : Nat) (e q : Int) : Int :=
  let v : Int := (m * 2 ^ (e - q).toNat : Nat)
  if s then -v else v

/-- R195: the exact sum, with the signs of zero sums. -/
def FV.add : FV → FV → FV
  | .nan, _ => .nan
  | _, .nan => .nan
  | .inf a, .inf b => if a = b then .inf a else .nan
  | .inf a, _ => .inf a
  | _, .inf b => .inf b
  | .num sa ma ea, .num sb mb eb =>
    let q := min ea eb
    ofInt (scaled sa ma ea q + scaled sb mb eb q) q (sa && sb)

/-- R195: the exact product. -/
def FV.mul : FV → FV → FV
  | .nan, _ => .nan
  | _, .nan => .nan
  | .inf a, .inf b => .inf (a != b)
  | .inf a, .num b m _ => if m = 0 then .nan else .inf (a != b)
  | .num a m _, .inf b => if m = 0 then .nan else .inf (a != b)
  | .num a ma ea, .num b mb eb => .num (a != b) (ma * mb) (ea + eb)

/-- A quotient of magnitudes to well past FP32 precision, its last bit set when inexact. -/
def quot (ma mb : Nat) (ea eb : Int) : Nat × Int :=
  let k := 28 + mb.log2
  let n := ma * 2 ^ k
  (2 * (n / mb) + (if n % mb = 0 then 0 else 1), ea - eb - k - 1)

/-- R195: the quotient, exact as far as one rounding to FP32 can tell. -/
def FV.div : FV → FV → FV
  | .nan, _ => .nan
  | _, .nan => .nan
  | .inf _, .inf _ => .nan
  | .inf a, .num b _ _ => .inf (a != b)
  | .num a _ e, .inf b => .num (a != b) 0 e
  | .num a ma ea, .num b mb eb =>
    if mb = 0 then (if ma = 0 then .nan else .inf (a != b))
    else let r := quot ma mb ea eb; .num (a != b) r.1 r.2

/-- A value times 2^k. -/
def FV.scale (k : Int) : FV → FV
  | .num s m e => .num s m (e + k)
  | v => v

/-! ### FP32 operations (R194) -/

def fadd (a b : W32) : W32 := ((FV.of a).add (FV.of b)).to32
def fsub (a b : W32) : W32 := ((FV.of a).add (FV.of b).neg).to32
def fmul (a b : W32) : W32 := ((FV.of a).mul (FV.of b)).to32
def ffma (a b c : W32) : W32 := (((FV.of a).mul (FV.of b)).add (FV.of c)).to32
def fdiv (a b : W32) : W32 := ((FV.of a).div (FV.of b)).to32
/-- R199: one FP32 multiplication by a power of two. -/
def fscale (a : W32) (k : Int) : W32 := ((FV.of a).scale k).to32

def isNan (a : W32) : Bool := decide (0x7F800000 < a.toNat % 2 ^ 31)
def isInf (a : W32) : Bool := decide (a.toNat % 2 ^ 31 = 0x7F800000)
def isFin (a : W32) : Bool := decide (a.toNat % 2 ^ 31 < 0x7F800000)
def isZero (a : W32) : Bool := decide (a.toNat % 2 ^ 31 = 0)
def fneg (a : W32) : W32 := a ^^^ 0x80000000
def fabs (a : W32) : W32 := a &&& 0x7FFFFFFF

/-- R195: the place of a value in the order −Inf < … < −0 < +0 < … < +Inf. -/
def ordKey (a : W32) : Int := if a.toNat.testBit 31 then -((a.toNat % 2 ^ 31 : Nat) : Int) - 1 else (a.toNat : Int)

/-- R195: comparisons; NaN is unordered. -/
def flt (a b : W32) : Bool := !isNan a && !isNan b && decide (ordKey a < ordKey b)
def fle (a b : W32) : Bool := !isNan a && !isNan b && decide (ordKey a ≤ ordKey b)
def feq (a b : W32) : Bool := !isNan a && !isNan b && decide (a = b)

/-- R195: maximum and minimum. -/
def fmax (a b : W32) : W32 :=
  if isNan a then (if isNan b then 0x7FC00000 else b) else if isNan b then a else if ordKey a < ordKey b then b else a
def fmin (a b : W32) : W32 :=
  if isNan a then (if isNan b then 0x7FC00000 else b) else if isNan b then a else if ordKey b < ordKey a then b else a

/-- FP32 of an integer, rounded. -/
def ofInt32 (t : Int) : W32 := (ofInt t 0 false).to32
def ofNat32 (n : Nat) : W32 := ofInt32 n

/-- R195, R213: a larger absolute maximum. -/
def amaxOf (a x : W32) : W32 := if isFin x && decide (ordKey a < ordKey (fabs x)) then fabs x else a

/-! ### BF16 operations (R194) -/

/-- BF16 bits widened, and FP32 rounded once to BF16. -/
def bfWide (b : W16) : W32 := BitVec.ofNat 32 (b.toNat * 65536)
def bfNarrow (a : W32) : W16 := BitVec.ofNat 16 (encodeF 3 (FV.of a))

/-- A BF16 operation on one half of each register. -/
def bf1 (f : W32 → W32) (a : W16) : W16 := bfNarrow (f (bfWide a))
def bf2 (f : W32 → W32 → W32) (a b : W16) : W16 := bfNarrow (f (bfWide a) (bfWide b))
def bf3 (f : W32 → W32 → W32 → W32) (a b c : W16) : W16 := bfNarrow (f (bfWide a) (bfWide b) (bfWide c))

/-- The halves of a register. -/
def lo16 (a : W32) : W16 := BitVec.ofNat 16 (a.toNat % 65536)
def hi16 (a : W32) : W16 := BitVec.ofNat 16 (a.toNat / 65536)
def join16 (h l : W16) : W32 := BitVec.ofNat 32 (h.toNat * 65536 + l.toNat)

/-- R243: a BF16 operation on both halves independently. -/
def pair2 (f : W32 → W32 → W32) (a b : W32) : W32 := join16 (bf2 f (hi16 a) (hi16 b)) (bf2 f (lo16 a) (lo16 b))
def pair3 (f : W32 → W32 → W32 → W32) (a b c : W32) : W32 :=
  join16 (bf3 f (hi16 a) (hi16 b) (hi16 c)) (bf3 f (lo16 a) (lo16 b) (lo16 c))

/-! ### Conversion to a stored format (R196 to R198) -/

/-- A conversion's code and what it counts. -/
structure Conv where
  code : Nat
  zeros : Nat
  sat : Nat
  nonfin : Nat
  amax : W32
  deriving DecidableEq, Repr

/-- R196: conversion to E4M3 or E5M2 with scale exponent `e`. -/
def toFp8 (f : Nat) (x : W32) (e : Int) : Conv :=
  match (FV.of x).scale e with
  | .nan => ⟨fmtNan f, 0, 0, 1, 0⟩
  | .inf s => ⟨if f = 1 then signBit 1 s + fmtInf 1 else fmtNan f, 0, 0, 1, 0⟩
  | .num s m k =>
    let c := magCode f m k
    let top := fmtInf f - 1
    ⟨signBit f s + min c top, bit (decide (c = 0)), bit (decide (top < c)), 0, fabs x⟩

/-- R198: conversion to BF16, or FP32 as it stands; −0 and +0 count as zeros, NaN and infinities and overflows as NONFIN. -/
def toWide (f : Nat) (x : W32) : Conv :=
  let c := if f = 3 then (bfNarrow x).toNat else if isNan x then fmtNan 4 else x.toNat
  let mag := c % 2 ^ (fmtBits f - 1)
  ⟨c, bit (decide (mag = 0)), 0, bit (decide (fmtInf f ≤ mag)), if isFin x then fabs x else 0⟩

/-- Conversion of one element to a format other than E2M1. -/
def toStored (f : Nat) (x : W32) (e : Int) : Conv := if f ≤ 1 then toFp8 f x e else toWide f x

/-- R197: the scale exponent of an E2M1 block with absolute maximum `a`. -/
def fp4Scale (a : W32) : Int :=
  match FV.of a with
  | .num _ m e => if m = 0 then -127 else max (-127) (min 127 ((m.log2 : Int) + e - 2))
  | _ => -127

/-- R197: 32 values to an E2M1 block: the scale code, the element codes, and the counts. -/
def toFp4Block (xs : List W32) : Nat × List Nat × Conv :=
  if xs.all isFin then
    let a := xs.foldl amaxOf 0
    let sc := fp4Scale a
    let qs := xs.map fun x => match (FV.of x).scale (-sc) with
      | .num s m e => (s, magCode 2 m e)
      | _ => (false, 0)
    ((sc + 127).toNat, qs.map (fun q => signBit 2 q.1 + min q.2 7),
      ⟨0, (qs.filter fun q => q.2 = 0).length, (qs.filter fun q => 7 < q.2).length, 0, a⟩)
  else (0xFF, xs.map (fun _ => 0), ⟨0, 0, 0, 32, 0⟩)

/-- An element widened exactly to FP32 (R198). A NaN code of FP32 comes out as the canonical NaN of R193, without its payload, of which the
manual does not say whether a load or a store keeps it (DESIGN CHOICE, assumption 88). -/
def widen (f code : Nat) : W32 := (decodeF f code).to32

/-- R253: the value of an E8M0 scale code. -/
def e8m0 (code : Nat) : FV := if code = 0xFF then .nan else .num false 1 ((code : Int) - 127)

/-! ### Split operands (R203 to R205) -/

/-- R203: the exponent e of a finite element. -/
def splitExp (m : Nat) (e : Int) : Int := if m = 0 then -126 else max ((m.log2 : Int) + e) (-126)

/-- One piece on the grid 2^q: its signed integer multiple of 2^q. -/
def pieceAt (t : Int) (e q : Int) : Int := let n : Int := (rne t.natAbs e q : Nat); if t < 0 then -n else n

/-- R203: the pieces from grid exponent `q` down, of a remainder `t` × 2^e, as (integer, exponent). -/
def pieces (t : Int) (e : Int) : Nat → Int → List (Int × Int)
  | 0, _ => []
  | n + 1, q =>
    let p := pieceAt t e q
    let lo := min e q
    let r := t * 2 ^ (e - lo).toNat - p * 2 ^ (q - lo).toNat
    (p, q) :: pieces r lo n (q - 4)

/-- R203: an element split into `n` pieces. -/
def splitF (n : Nat) : FV → List (Int × Int)
  | .num s m e => pieces (if s then -(m : Int) else m) e n (splitExp m e - 3)
  | _ => []

/-- R204: the pairs of piece numbers whose products a split mode keeps: SPLIT 1 BF16 3 passes, 2 BF16 4 passes, 3 FP32 6 passes. -/
def keptPairs (split : Nat) : List (Nat × Nat) :=
  match split with
  | 1 => [(0, 0), (0, 1), (1, 0)]
  | 2 => [(0, 0), (0, 1), (1, 0), (1, 1)]
  | _ => [(0, 0), (0, 1), (1, 0), (0, 2), (1, 1), (2, 0)]

/-- R204: the exact product of two pieces. A zero piece carries the sign of its product's other factor's sign rule: +0 only. -/
def pieceMul (p q : Int × Int) : FV := ofInt (p.1 * q.1) (p.2 + q.2) false

/-- R200, R204, R205: the terms of one k. -/
def termsOf (split : Nat) (a b : FV) : List FV :=
  match split, a, b with
  | 0, _, _ => [a.mul b]
  | _, .num sa ma ea, .num sb mb eb =>
    let n := if split = 3 then 3 else 2
    let pa := splitF n (.num sa ma ea)
    let pb := splitF n (.num sb mb eb)
    if ma = 0 ∨ mb = 0 then (keptPairs split).map fun _ => .num (sa != sb) 0 0
    else (keptPairs split).map fun ij => pieceMul (pa.getD ij.1 (0, 0)) (pb.getD ij.2 (0, 0))
  | _, _, _ => [a.mul b]

/-! ### The reference summation order (R200 to R202) -/

/-- The exact sum of finite terms. -/
def sumTerms (ts : List FV) : FV :=
  let q := ts.foldl (fun q t => match t with | .num _ m e => if m = 0 then q else min q e | _ => q) 0
  ofInt (ts.foldl (fun a t => match t with | .num s m e => if m = 0 then a else a + scaled s m e q | _ => a) 0) q false

/-- A term that is −0. -/
def FV.isNegZero : FV → Bool
  | .num s m _ => s && decide (m = 0)
  | _ => false

/-- R200: the exact sum of a group's terms. -/
def exactGroup (ts : List FV) : FV :=
  if ts.any (· = .nan) || (ts.any (· = .inf true) && ts.any (· = .inf false)) then .nan
  else if ts.any (· = .inf true) then .inf true
  else if ts.any (· = .inf false) then .inf false
  else if ts.all FV.isNegZero then .num true 0 0
  else sumTerms ts

/-- R200: an FP4 group sum times its two block scales. -/
def fp4Group (s : FV) (sa sb : Nat) : FV := if sa = 0xFF ∨ sb = 0xFF then .nan else s.scale ((sa : Int) + sb - 254)

/-- R200: the next group joins the accumulator. -/
def joinGroup (acc : Option W32) (s : FV) : Option W32 :=
  match acc with
  | none => some s.to32
  | some x => some (fadd x s.to32)

/-- A list cut into pieces of `n`, the last shorter. -/
def chunks {α : Type} (n : Nat) (xs : List α) : Nat → List (List α)
  | 0 => []
  | k + 1 => if xs.isEmpty then [] else xs.take n :: chunks n (xs.drop n) k

/-- R200: the reference sum over operand elements in k order, group scales given for FP4 (else empty), onto an accumulator. -/
def refSum (split : Nat) (fp4 : Bool) (as bs : List FV) (sas sbs : List Nat) (acc : Option W32) : Option W32 :=
  let ps := chunks 32 (as.zip bs) (as.length + 1)
  (ps.zipIdx).foldl (fun acc gi =>
    let s := exactGroup (gi.1.flatMap fun ab => termsOf split ab.1 ab.2)
    joinGroup acc (if fp4 then fp4Group s (sas.getD gi.2 0) (sbs.getD gi.2 0) else s)) acc

/-! ### Special functions (R248) -/

/-- Integer square root, bit by bit. -/
def isqrtAux (n : Nat) : Nat → Nat → Nat
  | 0, r => r
  | b + 1, r => let r' := r + 2 ^ b; isqrtAux n b (if r' * r' ≤ n then r' else r)
def isqrt (n : Nat) : Nat := isqrtAux n (n.log2 / 2 + 1) 0

/-- 2^f for f = F / 2^n below 1, as a fixed-point number with 256 fraction bits: the product of the roots 2^(2^−j) for the bits of F,
`root` the present root and `n` the bits still to come. -/
def pow2Frac (fr : Nat) : Nat → Nat → Nat → Nat
  | 0, _, acc => acc
  | n + 1, root, acc =>
    let r := isqrt (root * 2 ^ 256)
    pow2Frac fr n r (if fr.testBit n then acc * r / 2 ^ 256 else acc)

/-- R248: EXP2, correctly rounded. -/
def exp2 (a : W32) : W32 :=
  match FV.of a with
  | .nan => 0x7FC00000
  | .inf s => if s then 0 else 0x7F800000
  | .num s m e =>
    if m = 0 then 0x3F800000 else
    let t : Int := if s then -(m : Int) else m
    if 0 ≤ e then
      let i := if 20 < e then (if s then -(2 ^ 20 : Int) else 2 ^ 20) else t * 2 ^ e.toNat
      if 128 ≤ i then 0x7F800000 else if i ≤ -150 then 0 else (FV.num false 1 i).to32
    else
      let n := (-e).toNat
      let i := t / (2 ^ n : Nat)
      let fr := (t % (2 ^ n : Nat)).toNat
      if fr = 0 then (FV.num false 1 i).to32
      else if 128 ≤ i then 0x7F800000 else if i < -150 then 0
      else (FV.num false (2 * pow2Frac fr n (2 ^ 257) (2 ^ 256) + 1) (i - 257)).to32

/-- Bits of log2 of a fixed-point number `y` in [1, 2) with 320 fraction bits, most significant first. -/
def log2Bits : Nat → Nat → Nat → Nat
  | 0, _, acc => acc
  | n + 1, y, acc =>
    let z := y * y / 2 ^ 320
    if 2 ^ 321 ≤ z then log2Bits n (z / 2) (2 * acc + 1) else log2Bits n z (2 * acc)

/-- R248: LOG2, correctly rounded. -/
def log2 (a : W32) : W32 :=
  match FV.of a with
  | .nan => 0x7FC00000
  | .inf s => if s then 0x7FC00000 else 0x7F800000
  | .num s m e =>
    if m = 0 then 0xFF800000 else if s then 0x7FC00000 else
    let i : Int := (m.log2 : Int) + e
    if m = 2 ^ m.log2 then ofInt32 i
    else
      let y := m * 2 ^ (320 - m.log2)
      let l : Int := (2 * log2Bits 128 y 0 + 1 : Nat)
      (ofInt (i * 2 ^ 129 + l) (-129) false).to32

/-- R248: RCP, correctly rounded. -/
def rcp (a : W32) : W32 := fdiv 0x3F800000 a

/-- R248: RSQRT, correctly rounded. -/
def rsqrt (a : W32) : W32 :=
  match FV.of a with
  | .nan => 0x7FC00000
  | .inf s => if s then 0x7FC00000 else 0
  | .num s m e =>
    if m = 0 then (if s then 0xFF800000 else 0x7F800000) else if s then 0x7FC00000 else
    let m' := if e % 2 = 0 then m else 2 * m
    let e' := if e % 2 = 0 then e else e - 1
    let q := isqrt (2 ^ 128 / m')
    (FV.num false (2 * q + (if q * q * m' = 2 ^ 128 then 0 else 1)) (-(e' / 2) - 65)).to32

/-! ### Integer conversions (R243) -/

/-- CVTI: toward zero, saturating; NaN gives 0. -/
def cvti (a : W32) : W32 :=
  match FV.of a with
  | .nan => 0
  | .inf s => if s then 0x80000000 else 0x7FFFFFFF
  | .num s m e =>
    let n := if 0 ≤ e then m * 2 ^ e.toNat else m / 2 ^ (-e).toNat
    if s then BitVec.ofInt 32 (-((min n (2 ^ 31) : Nat) : Int)) else BitVec.ofNat 32 (min n (2 ^ 31 - 1))

/-- CVTF: signed or unsigned integer to FP32. -/
def cvtf (uns : Bool) (a : W32) : W32 := if uns then ofNat32 a.toNat else ofInt32 a.toInt

/-- R245: a fixed pairwise tree over adjacent results. -/
def pairTree {α : Type} (f : α → α → α) (d : α) : Nat → List α → α
  | 0, xs => xs.headD d
  | n + 1, xs =>
    let rec go : List α → List α
      | a :: b :: t => f a b :: go t
      | t => t
    pairTree f d n (go xs)

/-- R223: the spar update of a BF16 parameter with an FP32 update and its BF16 spar. -/
def sparUpdate (p : W16) (u : W32) (r : W16) : W16 × W16 :=
  let t := fadd u (bfWide r)
  let w := fadd (bfWide p) t
  let p2 := bfNarrow w
  if isFin w then (p2, bfNarrow (fsub t (fsub (bfWide p2) (bfWide p)))) else (p2, 0)

end Sys2Proof.Machine
end

