-- ==== Sys2Proof/Machine/Operands.lean ====
section
/-! DEFINITION. Operand fields of rafter and thread instructions (R175 to R180, R235, R242): every field of every word, and the reserved
fields that must be zero. -/

namespace Sys2Proof.Machine

/-! ### Word 0 of every rafter instruction (R175) -/

def opcodeOf (w0 : W64) : Nat := wbits w0 0 8
def waitEv (w0 : W64) : Nat := wbits w0 8 4
def waitEn (w0 : W64) : Bool := wbits w0 12 1 = 1
def sigEn (w0 : W64) : Bool := wbits w0 13 1 = 1
def sigEv (w0 : W64) : Nat := wbits w0 14 4
def waitVal (w0 : W64) : Nat := wbits w0 18 16

/-- The counter an instruction signals. -/
def sigOf (w0 : W64) : Option Nat := if sigEn w0 then some (sigEv w0) else none

/-- R176: the fields (lowest bit, width) of words 0 and 1 that are reserved for an opcode, [36:34] apart; none for a reserved opcode. NOP and
END have no operand table, and the manual does not call their other bits reserved: word 0 [63:37] and word 1 are taken as reserved (DESIGN
CHOICE, assumption 88). -/
def reservedOf (op : Nat) : Option (List (Nat × Nat) × List (Nat × Nat)) :=
  match op with
  | 0x00 | 0x01 => some ([(37, 27)], [(0, 64)])
  | 0x10 => some ([(62, 2)], [(38, 26)])
  | 0x11 => some ([(57, 7)], [(55, 9)])
  | 0x20 => some ([(39, 1), (59, 5)], [])
  | 0x21 => some ([(59, 5)], [])
  | 0x22 => some ([(47, 17)], [(40, 24)])
  | 0x40 => some ([(56, 8)], [(49, 15)])
  | 0x41 | 0x42 | 0x43 | 0x44 | 0x45 | 0x80 | 0x81 | 0x82 | 0x83 | 0x84 | 0x85 => some ([(38, 26)], [(19, 45)])
  | _ => none

/-- R176: an instruction whose opcode is defined and whose reserved fields are zero. -/
def wellFormedWords (op : Nat) (w0 w1 : W64) : Bool :=
  match reservedOf op with
  | none => false
  | some r => decide (wbits w0 34 3 = 0) && r.1.all (fun f => decide (wbits w0 f.1 f.2 = 0)) &&
      r.2.all (fun f => decide (wbits w1 f.1 f.2 = 0))

/-! ### Thread instructions (R242) -/

def thOp (w : W64) : Nat := wbits w 0 8
def thD (w : W64) : Nat := wbits w 8 7
def thA (w : W64) : Nat := wbits w 15 7
def thB (w : W64) : Nat := wbits w 22 7
def thC (w : W64) : Nat := wbits w 29 7
def thImmB (w : W64) : Bool := wbits w 36 1 = 1
def thSub (w : W64) : Nat := wbits w 37 3
def thImm (w : W64) : Nat := wbits w 40 24

/-- A field of `n` bits as a two's complement number. -/
def signed (v n : Nat) : Int := if v < 2 ^ (n - 1) then v else (v : Int) - 2 ^ n

/-- R242: IMM as an operand of an FP32 operation, and of an integer operation. -/
def immFloat (w : W64) : W32 := BitVec.ofNat 32 (thImm w * 256)
def immInt (w : W64) : W32 := BitVec.ofInt 32 (signed (thImm w) 24)

end Sys2Proof.Machine
end

