-- ==== Sys2Proof/Machine/Tables.lean ====
section
/-! DEFINITION. The tables of a configuration set as the module finds them in HBM: recipes (R207, R208), the scale ledger (R211), the
placement plan (R360) with its weight sources (R376), and link timetables (R439, R440, R452). -/

namespace Sys2Proof.Machine

/-! ### Recipes and the ledger -/

/-- R207: word `i` of recipe `r` of the active set. -/
def State.recipeW (s : State) (r i : Nat) : Nat := s.peekW (s.getF Reg.CRS_ACT_RECIPE.BASE * 4096 + r * 128 + 8 * i)

/-- R207: TENSORS of the recipe a course names. -/
def State.tensors (s : State) (c : Course) : Nat := bitsOf (s.recipeW c.img.recipeIdx 0) 0 16

/-- R207: the watch buffer: base and slots − 1. -/
def State.watchBase (s : State) (r : Nat) : Nat := bitsOf (s.recipeW r 1) 0 48
def State.watchSlots (s : State) (r : Nat) : Nat := bitsOf (s.recipeW r 1) 48 16

/-- R207: base and length of the HBM and of the host state region. -/
def State.hState (s : State) (r : Nat) : Nat × Nat := (bitsOf (s.recipeW r 2) 0 48, bitsOf (s.recipeW r 3) 0 48)
def State.aState (s : State) (r : Nat) : Nat × Nat := (bitsOf (s.recipeW r 4) 0 42, bitsOf (s.recipeW r 5) 0 42)

/-- R208: a kind entry: stored format, margin, SKIP_HALVE, SAT_VOTE. -/
structure KindE where
  fmt : Nat
  margin : Nat
  skipHalve : Bool
  satVote : Bool
  deriving DecidableEq, Repr

def kindOf (w : Nat) : KindE := ⟨bitsOf w 0 3, bitsOf w 4 4, w.testBit 8, w.testBit 9⟩
def State.kind (s : State) (r j : Nat) : KindE := kindOf (s.recipeW r (8 + j))

/-- R211: address of ledger entry `t` of the active set, and its fields. -/
def State.ledgerAddr (s : State) (t : Nat) : Nat := s.getF Reg.CRS_ACT_LEDGER.BASE * 4096 + t * 128

structure LedgerE where
  exp : Int
  kind : Nat
  head : Nat
  fill : Nat
  hist : List Nat
  deriving DecidableEq, Repr

/-- R211: SCALE_EXP, two's complement. -/
def scaleByte (e : Nat) : Int := if e < 128 then (e : Int) else (e : Int) - 256

def State.ledger (s : State) (t : Nat) : LedgerE :=
  let a := s.ledgerAddr t
  let w := s.peekW a
  ⟨scaleByte (bitsOf w 0 8), bitsOf w 8 3, bitsOf w 12 4, bitsOf w 16 5,
    (List.range 16).map fun i => leNat (s.peek (a + 8 + 4 * i) 4)⟩

/-- A ledger entry as stored; its reserved fields are zero by R211. -/
def LedgerE.bytes (x : LedgerE) : List Byte :=
  leBytes 8 ((x.exp % 256).toNat + x.kind % 8 * 2 ^ 8 + x.head % 16 * 2 ^ 12 + x.fill % 32 * 2 ^ 16) ++
  x.hist.flatMap (leBytes 4) ++ List.replicate 56 0

/-! ### The placement plan -/

def State.poolBase (s : State) : Nat := bitsOf (s.planW 0) 0 48
def State.poolLen (s : State) : Nat := bitsOf (s.planW 1) 0 48
def State.saveBase (s : State) : Nat := bitsOf (s.planW 2) 0 42
def State.saveSpan (s : State) : Nat := bitsOf (s.planW 3) 0 42
def State.peerBase (s : State) : Nat := bitsOf (s.planW 4) 0 42

/-- R376: a weight source entry: primary address and tier, alternate address and tier, length. -/
structure WSrc where
  pri : Nat
  priTier : Nat
  alt : Nat
  altTier : Nat
  len : Nat
  deriving DecidableEq, Repr

def wsrcOf (w0 w1 w2 : Nat) : WSrc := ⟨bitsOf w0 0 42, bitsOf w0 42 4, bitsOf w1 0 42, bitsOf w1 42 4, bitsOf w2 0 42⟩

/-- R376: the weight source entries of the plan in force. -/
def State.wsrcs (s : State) : List WSrc :=
  let b := bitsOf (s.planW 9) 0 48
  (List.range (bitsOf (s.planW 9) 48 12 + 1)).map fun i => wsrcOf (s.peekW (b + 32 * i)) (s.peekW (b + 32 * i + 8)) (s.peekW (b + 32 * i + 16))

/-- R376: the entry whose primary range holds an access. -/
def State.weightSource (s : State) (tier a n : Nat) : Option WSrc :=
  if tier = 3 ∨ tier = 4 then s.wsrcs.find? fun w => decide (w.priTier = tier ∧ w.pri ≤ a ∧ a + n ≤ w.pri + w.len) else none

/-! ### Link timetables -/

/-- R440: a slot entry. -/
structure SlotE where
  start : Nat
  port : Nat
  recv : Bool
  kind : Nat
  stop : Nat
  peer : Nat
  bytes : Nat
  xid : Nat
  addr : Nat
  tier : Nat
  arg : Nat
  level : Nat
  index : Nat
  fwd : Nat
  waitEn : Bool
  waitEv : Nat
  waitVal : Nat
  sigEn : Bool
  sigEv : Nat
  deriving DecidableEq, Repr

def slotOf (w0 w1 w2 w3 w4 : Nat) : SlotE :=
  ⟨bitsOf w0 0 44, bitsOf w0 44 5, w0.testBit 49, bitsOf w0 50 4, bitsOf w1 0 44, bitsOf w1 44 12, bitsOf w2 0 48, bitsOf w2 48 16,
    bitsOf w3 0 48, bitsOf w3 48 4, bitsOf w4 0 8, bitsOf w4 8 4, bitsOf w4 12 12, bitsOf w4 24 5, w4.testBit 32, bitsOf w4 33 1,
    bitsOf w4 34 16, w4.testBit 50, bitsOf w4 51 1⟩

/-- R439: address of timetable `i` of the active set, and a word of it. -/
def State.ttAddr (s : State) (i : Nat) : Nat := bitsOf (s.peekW (s.getF Reg.CRS_ACT_TTAB.BASE * 4096 + 8 * i)) 0 48
def State.ttW (s : State) (i j : Nat) : Nat := s.peekW (s.ttAddr i + 8 * j)

/-- R439: slot entry count, modules − 1, position, identity. -/
def State.ttSlots (s : State) (i : Nat) : Nat := bitsOf (s.ttW i 0) 16 16 + 1
def State.ttModules (s : State) (i : Nat) : Nat := bitsOf (s.ttW i 0) 32 12
def State.ttPos (s : State) (i : Nat) : Nat := bitsOf (s.ttW i 0) 44 12
def State.ttId (s : State) (i : Nat) : Nat := bitsOf (s.ttW i 1) 0 32

/-- R440: slot entry `e` of timetable `i`. -/
def State.slotE (s : State) (i e : Nat) : SlotE :=
  slotOf (s.ttW i (8 + 8 * e)) (s.ttW i (9 + 8 * e)) (s.ttW i (10 + 8 * e)) (s.ttW i (11 + 8 * e)) (s.ttW i (12 + 8 * e))

/-- R62: TT_IDX 0xFFFF names no timetable. -/
def Image.hasTt (i : Image) : Bool := decide (i.ttIdx ≠ 0xFFFF)

/-- The slot entries of an image's timetable. -/
def State.slotsOf (s : State) (i : Image) : List SlotE :=
  if i.hasTt then (List.range (s.ttSlots i.ttIdx)).map (s.slotE i.ttIdx) else []

/-- R459: the peer-map entry of a peer-aperture address, and its address within the GiB. -/
def State.peerEntry (s : State) (i a : Nat) : Nat := s.peekW (bitsOf (s.ttW i 4) 0 48 + 8 * (a / 2 ^ 30 % 4096))

/-- R459, R460: position and HBM address that a peer access of at most a GiB's rest reaches; none when the map or its entry does not let
it. -/
def State.peerRoute (s : State) (i : Image) (a : Nat) (store : Bool) : Option (Nat × Nat) :=
  if !i.hasTt || decide (bitsOf (s.ttW i.ttIdx 4) 0 48 = 0) then none
  else
    let e := s.peerEntry i.ttIdx a
    if e.testBit 0 && (!store || e.testBit 1) && decide (e / 2 ^ 24 = 0)
    then some (bitsOf e 2 12, bitsOf e 14 10 * 2 ^ 30 + a % 2 ^ 30) else none

/-- R129, R460: an APERTURE slot to a module runs: it has begun and not ended, and the gate of its port is open. -/
def State.apertureOpen (s : State) (c : Course) (pos : Nat) : Bool :=
  (s.slotsOf c.img).zipIdx.any fun x =>
    let st := c.slots.getD x.2 SlotSt.fresh
    decide (x.1.kind = 6 ∧ x.1.peer = pos ∧ (s.target (0x40 + x.1.port)).gate = .opened) && (st.started || st.header) && !st.completed

/-- R460: an APERTURE slot to a module remains in the course. -/
def State.apertureSlot (s : State) (c : Course) (pos : Nat) : Bool :=
  (s.slotsOf c.img).zipIdx.any fun x => decide (x.1.kind = 6 ∧ x.1.peer = pos) && !(c.slots.getD x.2 SlotSt.fresh).completed

/-- A peer access cut at GiB boundaries: address and length. -/
def peerPieces (a n : Nat) : List (Nat × Nat) :=
  if n = 0 then [] else
  (List.range ((a + n - 1) / 2 ^ 30 - a / 2 ^ 30 + 1)).map fun k =>
    let lo := max a ((a / 2 ^ 30 + k) * 2 ^ 30)
    (lo, min (a + n) ((a / 2 ^ 30 + k + 1) * 2 ^ 30) - lo)

/-- R452: a dispatch descriptor. -/
structure Dsp where
  e : Nat
  g : Nat
  rank : Nat
  cap : Nat
  t : Nat
  rowBytes : Nat
  rt : Nat
  inA : Nat
  exp : Nat
  ret : Nat
  rec_ : Nat
  deriving DecidableEq, Repr

def dspOf (w : Nat → Nat) : Dsp :=
  ⟨bitsOf (w 0) 0 12 + 1, bitsOf (w 0) 12 12 + 1, bitsOf (w 0) 24 12, bitsOf (w 0) 36 16 + 1, bitsOf (w 1) 0 16 + 1, (bitsOf (w 1) 16 16 + 1) * 64,
    bitsOf (w 2) 0 48, bitsOf (w 3) 0 48, bitsOf (w 4) 0 48, bitsOf (w 5) 0 48, bitsOf (w 6) 0 48⟩

/-- R439: dispatch descriptor `d` of timetable `i`. -/
def State.dsp (s : State) (i d : Nat) : Dsp := dspOf fun j => s.peekW (bitsOf (s.ttW i 3) 0 48 + 64 * d + 8 * j)

/-- R439: group `g` of timetable `i`: ranks and format. -/
def State.group (s : State) (i g : Nat) : Nat × Nat :=
  let w := s.peekW (bitsOf (s.ttW i 2) 0 48 + 8 * g)
  (bitsOf w 0 12 + 1, bitsOf w 12 3)

end Sys2Proof.Machine
end

