-- ==== Sys2Proof/Machine/Points.lean ====
section
/-! DEFINITION. Restore points and their slots (R467 to R477, R485): where they lie, their header and digest, the copy of the loss at the
vote, and the comparison of a verification step. -/

namespace Sys2Proof.Machine

/-! ### Slots (R469, R475, R499); area 0 the save area, 1 the partner area -/

/-- R469: pages of a slot of an area, and the address of a slot. -/
def State.slotPages (s : State) (a : Nat) : Nat := if a = 0 then s.getF Reg.SVL_SAVE_LEN.PAGES else s.getF Reg.SVL_PART_LEN.PAGES
def State.slotAddr (s : State) (a n : Nat) : Nat :=
  (if a = 0 then s.getF Reg.SVL_SAVE.BASE else s.getF Reg.SVL_PART.BASE) * 4096 + n * s.slotPages a * 4096

/-- The address of a block of a slot. -/
def State.blockAddr (s : State) (a n i : Nat) : Nat := s.slotAddr a n + i * 4096

/-- R475: a slot's state and point. -/
def State.slotState (s : State) (a n : Nat) : Nat := s.getF (Reg.SVL_SLOT.STATE a n)
def State.slotCourse (s : State) (a n : Nat) : Nat := s.getF (Reg.SVL_SLOT.COURSE a n)
def State.setSlot (s : State) (a n state course : Nat) : State :=
  s.setFs [(Reg.SVL_SLOT.STATE a n, state), (Reg.SVL_SLOT.COURSE a n, course)]

/-- The slot of an area that holds its newest sealed point. -/
def State.newestSlot (s : State) (a : Nat) : Option Nat :=
  let ok := fun n => decide (s.slotState a n = 2)
  if ok 0 && ok 1 then some (if s.slotCourse a 0 < s.slotCourse a 1 then 1 else 0)
  else if ok 0 then some 0 else if ok 1 then some 1 else none

/-- The slot that does not hold the newest sealed point; slot 0 if neither does. -/
def State.otherSlot (s : State) (a : Nat) : Nat := match s.newestSlot a with | some 0 => 1 | _ => 0

/-- R470: steps completed since the step of the newest sealed own point began. -/
def State.stepsSince (s : State) : Nat := s.stepsDone - (if s.newestSlot 0 = some 1 then s.since1 else s.since0)

/-- R470: the step of the point in own slot `n` began when `k` steps had completed. -/
def State.pointSince (s : State) (n k : Nat) : State := if n = 0 then { s with since0 := k } else { s with since1 := k }

/-- COURSE of the newest sealed point of an area; 0 when there is none. -/
def State.newestCourse (s : State) (a : Nat) : Nat := match s.newestSlot a with | some n => s.slotCourse a n | none => 0

/-- The slot of an area that holds the sealed point COURSE. -/
def State.sealedSlot (s : State) (a course : Nat) : Option Nat :=
  (List.range 2).find? fun n => decide (s.slotState a n = 2 ∧ s.slotCourse a n = course)

/-! ### Layout (R467, R468) -/

/-- R467: pages of the ledger for a TENSORS field. -/
def ledgerPages (tensors : Nat) : Nat := ceilDiv ((tensors + 1) * 128) 4096

/-- R467: blocks of a point. -/
def pointBlocks (tensors hlen : Nat) : Nat := 2 + ledgerPages tensors + ceilDiv hlen 4096

/-- R467: blocks of a point of a recipe of the active set. -/
def State.recipeBlocks (s : State) (r : Nat) : Nat := pointBlocks (bitsOf (s.recipeW r 0) 0 16) (s.hState r).2

/-- R468: word `i` of the header of the point in a slot, and the blocks its header gives it. -/
def State.headW (s : State) (a n i : Nat) : Nat := s.peekW (s.slotAddr a n + 8 * i)
def State.headBlocks (s : State) (a n : Nat) : Nat := pointBlocks (bitsOf (s.headW a n 4) 0 16) (bitsOf (s.headW a n 6) 0 48)

/-- R468: a digest as stored: word 16 holds the most significant bits. -/
def digestBytes (d : List Byte) : List Byte := (List.range 6).flatMap fun i => ((d.drop (8 * i)).take 8).reverse

/-- R468: what the digest covers: words 0 to 15, block 1, and every block from 2 to the end. -/
def digestOf (head16 rest : List Byte) : List Byte := digestBytes (sha384 (head16 ++ rest))

/-- R468: the digest of a slot recomputed agrees with the one it holds. -/
def State.digestGood (s : State) (a n : Nat) : Bool :=
  let b := s.headBlocks a n
  decide (digestOf (s.peek (s.slotAddr a n) 128) (s.peek (s.blockAddr a n 1) ((b - 1) * 4096)) = s.peek (s.slotAddr a n + 128) 48)

/-- R496: a sector of a point in a slot is uncorrectable. -/
def State.slotBad (s : State) (a n : Nat) : Bool := !(s.badStacks (s.slotAddr a n) (s.headBlocks a n * 4096)).isEmpty

/-- R342: a slot's point is read. -/
def State.readSlotPoint (s : State) (a n : Nat) : State := (s.readQuiet (s.slotAddr a n) (s.headBlocks a n * 4096)).2.2

/-- R342, R496: bytes read to be sent on: those of an uncorrectable sector are free values. -/
def State.readSent (s : State) (a n : Nat) : List Byte × State :=
  let bad := (sectorsOf a n).filter fun x => s.sectorState x = .bad
  let r := s.readQuiet a n
  if bad.isEmpty then (r.1, r.2.2)
  else (r.1.zipIdx.map fun b => if bad.contains ((a + b.2) / 64) then Config.openByte r.2.2.freeCtr b.2 else b.1, r.2.2.nextFree)

/-- R467: a ledger as blocks. -/
def padPages (bs : List Byte) (pages : Nat) : List Byte := bs ++ List.replicate (pages * 4096 - bs.length) 0

/-! ### Acknowledgement and streams (R485, R499) -/

/-- R483: the cursor past the SEAL of a point. -/
def cursorEnd : Nat := 2 ^ 33

/-- R479: the partner counts while PEN is 1 and HEN is not. -/
def State.partnerOn (s : State) : Bool := s.on Reg.SVL_PAIR.PEN && !s.on Reg.SVL_HOT.HEN
/-- A receiver is configured. -/
def State.hasReceiver (s : State) : Bool := s.partnerOn || s.on Reg.SVL_HOT.HOTEN

/-- R483, R487, R499: a stream or push of the point in a slot is unfinished, or a fill of the slot. A stream follows the newest point, so
one of an older point has ended, and it ends when its receiver has acknowledged the point. -/
def State.slotStreams (s : State) (a n : Nat) : Bool :=
  (s.fills.any fun f => Nat.beq f.area a && Nat.beq f.slot n) ||
  (if a = 0 then
    decide (s.newestSlot 0 = some n) && s.cursors.any fun c => decide (c.2.1 = s.slotCourse 0 n ∧ c.2.2 ≠ cursorEnd) && receives s c.1 n
  else s.pushCursor.any fun c => decide (c.1 = s.slotCourse 1 n ∧ s.slotState 1 n = 2 ∧ c.2 ≠ cursorEnd))
where
  /-- A position is a configured receiver that has not acknowledged the point of own slot `n`. -/
  receives (s : State) (pos n : Nat) : Bool :=
    (s.partnerOn && decide (pos = s.getF Reg.SVL_PAIR.PARTNER ∧ s.ackPartner ≠ s.slotCourse 0 n)) ||
    (s.on Reg.SVL_HOT.HOTEN && decide (pos = s.getF Reg.SVL_HOT.HOTPOS ∧ s.ackHot ≠ s.slotCourse 0 n))

/-- R499: HOLD bit 0 of every slot shows a stream, push or fill while it is unfinished. -/
def State.holdStreams (s : State) : State :=
  s.each [(0, 0), (0, 1), (1, 0), (1, 1)] fun s x =>
    if s.slotStreams x.1 x.2 then s.setBit (Reg.SVL_SLOT.HOLD x.1 x.2) 0 else s.clrBit (Reg.SVL_SLOT.HOLD x.1 x.2) 0

/-- R485, R499: ACKED follows the acknowledgements, and HOLD bit 0 of the slots the streams that they and the newest point leave unfinished. -/
def State.countAck (s : State) : State :=
  (s.setF Reg.SVL_ACK.ACKED (
    if s.partnerOn && s.on Reg.SVL_HOT.HOTEN then min s.ackPartner s.ackHot
    else if s.partnerOn then s.ackPartner
    else if s.on Reg.SVL_HOT.HOTEN then s.ackHot
    else s.newestCourse 0)).holdStreams

/-! ### The loss (R472, R477) -/

/-- R498: address and bytes of the loss region. -/
def State.lossAt (s : State) : Nat := s.getF Reg.SVL_LOSS.BASE * 64
def State.lossLen (s : State) : Nat := (s.getF Reg.SVL_LOSS.LEN + 1) * 64

/-- R472: the loss region goes into block 1 of the slot being built, once. -/
def State.copyLoss (s : State) : State :=
  match s.build with
  | none => s
  | some b =>
    if b.loss then s else
    let r := s.readQuiet s.lossAt s.lossLen
    let s := r.2.2.writeHbm (r.2.2.blockAddr 0 b.slot 1) (padPages r.1 1)
    let b' : Build := { b with loss := true, bad := b.bad || r.2.1 }
    { s with build := some b' }

/-- R477: the step in progress is the verification step. -/
def State.verifying (s : State) : Bool := s.on Reg.SVL_STAT.VERIFY && decide (s.stepCourse % 2 ^ 48 = s.getF Reg.SVL_STAT.VCOURSE)

/-- R484, R498: a slot is left REJECTED, and its point counted in SVL_REJECT. -/
def State.rejectSlot (s : State) (a n : Nat) : State := (s.setF (Reg.SVL_SLOT.STATE a n) 3).bump Reg.SVL_REJECT.COUNT 1

/-- R341, R477: the loss region and block 1 of the restored point are read over LOSS_LEN + 1 units of the point, and whether they differ; a
read that finds a sector uncorrectable fails the course by itself, and compares nothing. -/
def State.compareLoss (s : State) (a n : Nat) : Bool × State :=
  let len := (bitsOf (s.headW a n 10) 0 6 + 1) * 64
  let r := s.readHbm s.lossAt len
  let q := r.2.readHbm (s.blockAddr a n 1) len
  (decide (r.1 ≠ q.1) && (s.badStacks s.lossAt len).isEmpty && (r.2.badStacks (s.blockAddr a n 1) len).isEmpty, q.2)

/-- R477: at the vote of a verification step the loss is compared; a difference fails the course with 0xB0. -/
def State.verifyLoss (s : State) : State :=
  if !s.verifying then s else
  match s.verifySlot with
  | none => s
  | some (a, n) =>
    let r := s.compareLoss a n
    if r.1 then ((r.2.setF Reg.SVL_STAT.VERIFY_FAIL 1).rejectSlot a n).countAck.failCourse 0xB0 else r.2

/-- R472, R477: what the moment of the vote carries. -/
def State.atVote (s : State) : State :=
  match s.course with
  | some c => if c.failed || !c.img.stepLast then s else s.copyLoss.verifyLoss
  | none => s

/-- R472, R477: with no timetable, the last phase of the course ends when the last program has. -/
def State.lastPhaseEnds (s : State) : State :=
  match s.course with
  | some c => if c.running.isEmpty && !c.img.hasTt then s.atVote else s
  | none => s

end Sys2Proof.Machine
end

