-- ==== Sys2Proof/Machine/Rafter.lean ====
section
/-! DEFINITION. Rafter programs (R168 to R176, R183, R185, R373, R587): the rafter store, event counters, program errors, and the one
frame in which every rafter instruction issues. -/

namespace Sys2Proof.Machine

/-! ### Places -/

/-- Size of a rafter store and of a loft, in bytes. -/
def rsSize : Nat := 0x1800000
def loftSize : Nat := 0x4000000

/-- R169: physical rafter, 9n + k, that holds logical rafter `lr`. -/
def State.unitOf (s : State) (lr : Nat) : Nat := 9 * (lr / 8) + s.raftPhys (lr / 8) (lr % 8)

/-- The 4 KiB blocks that bytes [a, a + n) touch, and those they fill. -/
def blocksTouched (a n : Nat) : List Nat := blocksOf a n
def blocksFilled (a n : Nat) : List Nat := (blocksOf a n).filter fun b => decide (a ≤ b * 4096 ∧ (b + 1) * 4096 ≤ a + n)

/-! ### Errors of the rafter's own units (R183, R188, R190) -/

/-- R183: a corrected error in a rafter store, or in accumulator memory and the statistics buffer. -/
def State.storeCorrected (s : State) (u : Nat) (acc : Bool) : State :=
  if acc then s.bump (Reg.TRS_RAFT_CE.CE_ACC (u / 9) (u % 9)) 1 else s.bump (Reg.TRS_RAFT_CE.CE_STORE (u / 9) (u % 9)) 1

/-- R183, R188: an uncorrectable event of a rafter: counted in `cnt`, the rafter marked failed with a cause and reslated at the next ridge,
its line raised. -/
def State.rafterError (s : State) (u : Nat) (cnt : Fld) (cause line : Nat) : State :=
  (((s.bump cnt 1).failRaft (u / 9) (u % 9) cause).requestReslate 0 u false).raiseLine line

def State.storeUncorrectable (s : State) (u : Nat) (acc : Bool) : State :=
  s.rafterError u (if acc then Reg.TRS_RAFT_UE.UE_ACC (u / 9) (u % 9) else Reg.TRS_RAFT_UE.UE_STORE (u / 9) (u % 9)) 2 (4 + u / 9)
def State.arrayParity (s : State) (u : Nat) : State := s.rafterError u (Reg.TRS_RAFT_UE.PARITY (u / 9) (u % 9)) 1 (u / 9)
def State.sequencerError (s : State) (u : Nat) : State := s.rafterError u (Reg.TRS_RAFT_UE.SEQ_ERR (u / 9) (u % 9)) 3 (u / 9)

/-- R518: words written anew hold good check bits; `lo` and `hi` bound them. -/
def renewWords (lo hi : Nat) (ws : List (Nat × Bool)) : List (Nat × Bool) := ws.filter fun w => !(Nat.ble lo w.1 && Nat.blt w.1 hi)

/-- R518, R519: an armed injection into the rafter store of unit `u` acts on the next word written: it is stored with one check bit
inverted, or with all eight. What that does shows when the word is read; the write consumes the injection (DEDUCED, assumption 87). -/
def State.injectStore (s : State) (u word : Nat) : State :=
  match s.armed 3 u with
  | none => s
  | some m => { s.useInject with badStore := s.badStore ++ [(word, decide (m ≠ 0))] }

/-- R518, R519: the same for accumulator memory. -/
def State.injectAcc (s : State) (u word : Nat) : State :=
  match s.armed 4 u with
  | none => s
  | some m => { s.useInject with badAcc := s.badAcc ++ [(word, decide (m ≠ 0))] }

/-- R183, R518: a word with inverted check bits is read: one bit is corrected and the word written back, eight are uncorrectable. -/
def State.badWord (s : State) (u : Nat) (acc hard : Bool) : State := if hard then s.storeUncorrectable u acc else s.storeCorrected u acc

/-! ### The rafter store (R165, R174) -/

/-- Bytes of a rafter store. -/
def State.rsRead (s : State) (lr a n : Nat) : List Byte := s.rstore.bytes (lr * rsSize + a) n

/-- R174: every block of a range has been written in the course. -/
def State.rsOk (s : State) (lr a n : Nat) : Bool := (blocksTouched a n).all fun b => s.rsWritten.contains (lr * 6144 + b)

/-- Blocks of a rafter store become written. -/
def State.rsMark (s : State) (lr : Nat) (bs : List Nat) : State :=
  { s with rsWritten := bs.foldl (fun l b => insertSorted (lr * 6144 + b) l) s.rsWritten }

/-- Bytes stored to a rafter store, without marking their blocks. -/
def State.rsPut (s : State) (lr a : Nat) (bs : List Byte) : State :=
  if bs.isEmpty then s
  else { s with
    rstore := s.rstore.write (lr * rsSize + a) bs
    badStore := renewWords (ceilDiv (lr * rsSize + a) 8) ((lr * rsSize + a + bs.length) / 8) s.badStore }.injectStore (s.unitOf lr)
      ((lr * rsSize + a) / 8)

/-- R174: a store marks every block it touches written. -/
def State.rsWrite (s : State) (lr a : Nat) (bs : List Byte) : State := (s.rsPut lr a bs).rsMark lr (blocksTouched a bs.length)

/-- A 64-bit word of a rafter store. -/
def State.rsWord (s : State) (lr a : Nat) : Nat := leNat (s.rsRead lr a 8)

/-- A loft. -/
def State.loftOk (s : State) (die a n : Nat) : Bool := (blocksTouched a n).all fun b => s.loftWritten.contains (die * 16384 + b)
def State.loftRead (s : State) (die a n : Nat) : List Byte := s.loft.bytes (die * loftSize + a) n
def State.loftWrite (s : State) (die a : Nat) (bs : List Byte) : State :=
  { s with loft := s.loft.write (die * loftSize + a) bs,
           loftWritten := (blocksTouched a bs.length).foldl (fun l b => insertSorted (die * 16384 + b) l) s.loftWritten }

/-! ### Event counters (R171, R172) -/

/-- The value of counter `ev` as rafter `lr` sees it. -/
def State.event (s : State) (lr ev : Nat) : Nat :=
  if ev < 12 then (s.raft lr).events.getD ev 0
  else if ev < 14 then SMap.look 0 (2 * (lr / 8) + (ev - 12)) s.dieEvents
  else SMap.look 0 (ev - 14) s.modEvents

/-- A counter holds a value. -/
def State.setEvent (s : State) (lr ev v : Nat) : State :=
  if ev < 12 then let x := s.raft lr; s.setRaft lr { x with events := x.events.set ev v }
  else if ev < 14 then { s with dieEvents := SMap.put 0 (2 * (lr / 8) + (ev - 12)) v s.dieEvents }
  else { s with modEvents := SMap.put 0 (ev - 14) v s.modEvents }

/-! ### Program errors (R184, R185, R190) -/

/-- R190: TRS_PROG_ERR records a program error while VALID is 0. PC is the instruction next to issue, of a fetch past HBM_CAP too, whose own
index the manual may mean as well (DESIGN CHOICE, assumption 88). -/
def State.recordProg (s : State) (lr code : Nat) : State :=
  let n := lr / 8
  if s.on (Reg.TRS_PROG_ERR.VALID n) then s
  else s.setFs [(Reg.TRS_PROG_ERR.STATUS n, code), (Reg.TRS_PROG_ERR.LRAFT n, lr % 8), (Reg.TRS_PROG_ERR.VALID n, 1),
    (Reg.TRS_PROG_ERR.PC n, (s.raft lr).pc), (Reg.TRS_PROG_ERR.COURSE n, (match s.course with | some c => c.counter | none => 0))]

/-- R185: what is kept of a program error that fails the course. -/
def State.fallOf (s : State) (c : Course) (lr code : Nat) : Fall :=
  let n := lr / 8
  ⟨s.now, lr, code, !s.on (Reg.TRS_PROG_ERR.VALID n),
    (s.getF (Reg.TRS_PROG_ERR.STATUS n), s.getF (Reg.TRS_PROG_ERR.LRAFT n), s.getF (Reg.TRS_PROG_ERR.PC n), s.getF (Reg.TRS_PROG_ERR.COURSE n)),
    s.rafts, c.running⟩

/-- R184, R190: a program error of rafter `lr` ends the course. -/
def State.progError (s : State) (lr code : Nat) : State :=
  match s.course with
  | some c => if c.failed then s else { (s.recordProg lr code).failCourse code with fell := some (s.fallOf c lr code) }
  | none => s

/-- R185: a program error found in the cycle in which one of another rafter has failed the course: the lowest code sets the status, and of
equal codes the lowest logical rafter's. `run` is the instruction as it runs in a course that goes on. -/
def State.progTie (s : State) (lr : Nat) (run : State → State) : State :=
  match s.fellNow, s.course with
  | some t, some c =>
    let c' : Course := { c with failed := false, working := true, running := t.running }
    let n := lr / 8
    let u := run ({ s with course := some c', rafts := t.rafts, fell := none }.setF (Reg.TRS_PROG_ERR.VALID n) 0)
    match u.fell with
    | none => s
    | some v =>
      if v.code < t.code ∨ (v.code = t.code ∧ lr < t.lr) then
        let r := s.withdrawProg t
        let free := !r.on (Reg.TRS_PROG_ERR.VALID n)
        let old := (r.getF (Reg.TRS_PROG_ERR.STATUS n), r.getF (Reg.TRS_PROG_ERR.LRAFT n), r.getF (Reg.TRS_PROG_ERR.PC n),
          r.getF (Reg.TRS_PROG_ERR.COURSE n))
        let r := if free then r.setFs [(Reg.TRS_PROG_ERR.STATUS n, v.code), (Reg.TRS_PROG_ERR.LRAFT n, lr % 8), (Reg.TRS_PROG_ERR.VALID n, 1),
            (Reg.TRS_PROG_ERR.PC n, u.getF (Reg.TRS_PROG_ERR.PC n)), (Reg.TRS_PROG_ERR.COURSE n, c.counter)] else r
        { r.amendStatus c v.code with fell := some { t with lr := lr, code := v.code, recorded := free, old := old } }
      else s
  | _, _ => run s

/-- R171, R172: counter `ev` is signalled by rafter `lr`; past 0xFFFF the course ends with 0x95. -/
def State.signal (s : State) (lr ev : Nat) : State :=
  if 0xFFFF ≤ s.event lr ev then s.progError lr 0x95 else s.setEvent lr ev (s.event lr ev + 1)

/-- A signal an instruction asked for, if it asked. -/
def State.signalOpt (s : State) (lr : Nat) : Option Nat → State
  | none => s
  | some ev => s.signal lr ev

/-! ### The frame of an instruction -/

/-- What the body of an instruction answers. -/
inductive Eff where
  /-- it has taken effect. -/
  | done (s : State)
  /-- it has issued; its signal follows when its bytes arrive. -/
  | posted (s : State)
  /-- it has begun, and the rafter's next instruction waits until it has taken effect. -/
  | began (s : State)
  /-- R170: it waits for something in flight. -/
  | hold
  /-- R185: the codes of the rules it breaks. -/
  | bad (codes : List Nat)
  /-- the course fails with a status that is no program error. -/
  | fail (s : State) (code : Nat)

/-- The lowest of some codes. -/
def lowest (codes : List Nat) : Nat := codes.foldl min 0xFF

/-- The course is being worked on: it has not failed, and its window is between the ridge interval and the commit reserve (R56). -/
def State.working (s : State) : Option Course :=
  match s.course with
  | some c => if c.working && !c.failed then some c else none
  | none => none

/-- Ranges overlap. -/
def overlaps (a n b m : Nat) : Bool := decide (a < b + m ∧ b < a + n ∧ n ≠ 0 ∧ m ≠ 0)

/-- R170, R371: a load still in flight fills part of one of the ranges. -/
def Raft.loading (x : Raft) (rs : List (Nat × Nat)) : Bool :=
  x.ahead.any fun l => !l.ended && rs.any fun r => overlaps l.near l.len r.1 r.2

/-- R170: a load still in flight reads the rafter store where one of the ranges is written. -/
def Raft.sourcing (x : Raft) (wr : List (Nat × Nat)) : Bool :=
  x.ahead.any fun l => !l.ended && l.pieces.any fun p => decide (p.tier = 0) && wr.any fun r => overlaps p.far p.len r.1 r.2

/-- R587, R373: the instruction the sequencer holds at its place in the program or in a splice segment, when it holds one. -/
def Raft.held (x : Raft) : Option (W64 × W64) :=
  match x.seg with
  | some g => g.buf[g.done]?
  | none => if x.pc < x.bufBase then none else x.buf[x.pc - x.bufBase]?

/-- R587: the instruction the sequencer holds at its place, when it holds one, is the one that issues. -/
def Raft.agrees (x : Raft) (w0 w1 : W64) : Bool :=
  match x.held with
  | some i => decide (i = (w0, w1))
  | none => true

/-- R361: envelope address, splice count and table address of an image. -/
def Image.envAddr (i : Image) : Nat := i.progAddr + 0x100 + i.envIdx * 64
def State.spliceTable (s : State) (i : Image) : Nat × Nat :=
  (bitsOf (s.peekW i.envAddr) 16 16, bitsOf (s.peekW (i.envAddr + 16)) 0 48)

/-- R361: a splice entry: its index, save point, segment address and segment length. -/
structure Splice where
  idx : Nat
  save : Nat
  addr : Nat
  len : Nat
  deriving DecidableEq, Repr

/-- R373: the splice entries of rafter `lr` before instruction `pc`, in table order. -/
def State.splices (s : State) (i : Image) (lr pc : Nat) : List Splice :=
  let t := s.spliceTable i
  (List.range t.1).filterMap fun e =>
    let w0 := s.peekW (t.2 + 16 * e)
    let w1 := s.peekW (t.2 + 16 * e + 8)
    if bitsOf w0 12 5 = lr ∧ bitsOf w0 32 32 = pc then some ⟨e, bitsOf w0 0 12, bitsOf w1 0 48, bitsOf w1 48 12⟩ else none

/-- The next splice entry a rafter must handle before its instruction issues. -/
def State.nextSplice (s : State) (c : Course) (lr : Nat) : Option Splice :=
  let x := s.raft lr
  match x.seg with
  | some _ => none
  | none => (s.splices c.img lr x.pc).find? fun e => !x.spliced.contains e.idx

/-- R169, R171, R373: rafter `lr` may issue an instruction with word 0 `w0`: the course it issues for. -/
def State.mayIssue (s : State) (lr : Nat) (w0 w1 : W64) : Option Course :=
  match s.working with
  | none => none
  | some c =>
    let x := s.raft lr
    if c.running.contains lr && x.kernel.isNone && x.walker.isNone && x.kvJob.isNone && x.agrees w0 w1 && (s.nextSplice c lr).isNone &&
      (!waitEn w0 || decide (waitVal w0 ≤ s.event lr (waitEv w0))) then some c else none

/-- R170, R373: the sequencer moves past an instruction; a segment that has issued all its instructions without an END ends the course
with 0x90. -/
def State.advance (s : State) (lr : Nat) : State :=
  let x := s.raft lr
  match x.seg with
  | none => s.setRaft lr { x with pc := x.pc + 1, spliced := [] }
  | some g =>
    if g.len ≤ g.done then s.progError lr 0x90
    else s.setRaft lr { x with seg := some { g with done := g.done + 1 } }

/-- An instruction has taken effect: its signal, and on to the next. A course that failed meanwhile goes no further. -/
def State.settle (s : State) (lr : Nat) (sig : Option Nat) : State :=
  if s.working.isNone then s else
  let s := s.signalOpt lr sig
  if s.working.isNone then s else s.advance lr

/-- R375: the first failed load that no instruction has read and whose buffer overlaps a range now read; a failed save reload is
none of them: its splice decides. -/
def Raft.unread (x : Raft) (rd : List (Nat × Nat)) : Option Nat :=
  x.ahead.findIdx? fun l => l.failed && l.ended && l.save.isNone && rd.any fun r => overlaps l.near l.len r.1 r.2

/-- The status with which a failed lower-tier access fails the course (R375): 0x83 from the host aperture, 0x85 from a peer. -/
def tierStatus (ps : List Piece) : Nat := if ps.any (fun p => p.tier = 4) then 0x85 else 0x83

/-! ### Rates (R364) -/

/-- A load or store of a tier counted for the rates is outstanding: a save access or a weight fetch. -/
def State.outstanding (s : State) (tier : Nat) : Bool :=
  let at_ := fun ps : List Piece => ps.any fun p => decide (p.tier = tier)
  s.rafts.any fun x => x.2.down.any (fun d => d.save.isSome && at_ d.pieces) ||
    x.2.ahead.any fun l => !l.ended && (l.save.isSome || l.weight) && at_ l.pieces

/-- One interval of outstanding accesses opens or closes. -/
def busyNow (out : Bool) (now busy : Nat) (since : Option Nat) : Nat × Option Nat :=
  match since, out with
  | none, true => (busy, some now)
  | some t, false => (busy + (now - t), none)
  | x, _ => (busy, x)

/-- R364: the times in which an access was outstanding are kept. -/
def State.markBusy (s : State) : State :=
  match s.course with
  | none => s
  | some c =>
    let h := busyNow (s.outstanding 3) s.now c.hostBusy c.hostSince
    let p := busyNow (s.outstanding 4) s.now c.peerBusy c.peerSince
    let c' : Course := { c with hostBusy := h.1, hostSince := h.2, peerBusy := p.1, peerSince := p.2 }
    { s with course := some c' }

/-- R364: bytes of pieces moved to or from host memory and peers. -/
def State.moved (s : State) (ps : List Piece) : State :=
  match s.course with
  | none => s
  | some c =>
    let n := fun t => ((ps.filter fun p => p.tier = t).map (·.len)).sum
    let c' : Course := { c with hostMoved := c.hostMoved + n 3, peerMoved := c.peerMoved + n 4 }
    { s with course := some c' }

/-! ### Peer requests (R459, R460) -/

/-- R460: every part of a peer access has a route and an APERTURE slot left. -/
def State.peerRoutes (s : State) (c : Course) (ps : List Piece) (store : Bool) : Option (List (Nat × Nat × Nat)) :=
  ((ps.filter fun p => p.tier = 4).flatMap fun p => peerPieces p.far p.len).mapM fun x =>
    match s.peerRoute c.img x.1 store with
    | some r => if s.apertureSlot c r.1 then some (r.1, r.2, x.2) else none
    | none => none

/-- R460: the target of a request of this module, and its tag. -/
def PeerMsg.target : PeerMsg → Option (Nat × Nat)
  | .load tag pos _ _ => some (tag, pos)
  | .store tag pos _ _ => some (tag, pos)
  | _ => none

/-- R460: a request goes out in the APERTURE slot to its target that runs, or waits for the next one. -/
def State.putPeer (s : State) (m : PeerMsg) : State :=
  match s.course, m.target with
  | some c, some t => if s.apertureOpen c t.2 then { s with peerOut := s.peerOut ++ [m] } else { s with peerWait := s.peerWait ++ [m] }
  | _, _ => s

/-- R460: the load requests of an access go out under one new tag. -/
def State.askPeer (s : State) (rs : List (Nat × Nat × Nat)) : Nat × State :=
  let tag := s.peerTag + 1
  (tag, { s with peerTag := tag }.each rs fun s r => s.putPeer (.load tag r.1 r.2.1 r.2.2))

/-- A load in flight joins the others of its rafter. -/
def State.addAhead (s : State) (lr : Nat) (l : RunAhead) : State :=
  let x := s.raft lr
  s.setRaft lr { x with ahead := x.ahead ++ [l] }

/-- R376: a weight load is tried once from its alternate source; a run-ahead load has signalled as its first try ended (R171). -/
def State.refetch (s : State) (lr : Nat) (l : RunAhead) (p : Piece) : State :=
  let s := s.bump Reg.CRS_PLC_ALT.COUNT 1
  let l : RunAhead := { l with pieces := [p], alt := none, ended := false, failed := false, tag := 0, sig := if l.normal then l.sig else none }
  if p.tier = 4 then
    match s.course.bind fun c => s.peerRoutes c [p] false with
    | some rs => let t := s.askPeer rs; t.2.addAhead lr { l with tag := t.1 }
    | none => s.failCourse 0x84
  else s.addAhead lr l

/-- R375, R376: a failed load acts: the alternate source of a weight range is tried once, and otherwise the course fails. -/
def State.loadFailed (s : State) (lr : Nat) (l : RunAhead) : State :=
  match l.alt with
  | some p => s.refetch lr l p
  | none => s.failCourse (if l.weight then 0x84 else tierStatus l.pieces)

/-- R375: the failed load at index `i` acts as an instruction reads its buffer. -/
def State.readFailed (s : State) (lr i : Nat) : State :=
  let x := s.raft lr
  match x.ahead[i]? with
  | none => s
  | some l => ((s.setRaft lr { x with ahead := x.ahead.eraseIdx i }).loadFailed lr l).markBusy

/-- R375: failed loads whose buffer an instruction has overwritten are forgotten. -/
def State.dropUnread (s : State) (lr : Nat) (wr : List (Nat × Nat)) : State :=
  if wr.isEmpty then s else
  let x := s.raft lr
  let gone := fun l : RunAhead => l.failed && l.ended && l.save.isNone &&
    wr.any fun r => decide (r.1 ≤ l.near ∧ l.near + l.len ≤ r.1 + r.2)
  s.setRaft lr { x with ahead := x.ahead.filter fun l => !gone l }

/-- R183, R518: the words of the rafter store in some ranges are read: those with inverted check bits show. -/
def State.storeCheck (s : State) (lr : Nat) (rd : List (Nat × Nat)) : State :=
  s.each (s.badStore.filter fun w => rd.any fun r => overlaps (lr * rsSize + r.1) r.2 (8 * w.1) 8) fun s w =>
    (if w.2 then s else { s with badStore := s.badStore.filter fun v => decide (v.1 ≠ w.1) }).badWord (s.unitOf lr) false w.2

/-- R183, R518: `n` words of accumulator memory from key `k` are read: those with inverted check bits show. -/
def State.accCheck (s : State) (lr k n : Nat) : State :=
  s.each (s.badAcc.filter fun w => decide (k ≤ w.1 ∧ w.1 < k + n)) fun s w =>
    (if w.2 then s else { s with badAcc := s.badAcc.filter fun v => decide (v.1 ≠ w.1) }).badWord (s.unitOf lr) true w.2

/-- R170 to R176: an instruction of opcode `op` issues and takes effect. `rd` and `wr` are the rafter-store ranges it reads and writes. -/
def State.issueNow (s : State) (lr op : Nat) (w0 w1 : W64) (rd wr : List (Nat × Nat)) (body : Course → State → Eff) : State :=
  match (if opcodeOf w0 = op then s.mayIssue lr w0 w1 else none) with
  | none => s
  | some c =>
    if !wellFormedWords op w0 w1 then s.progError lr 0x90
    else if (s.raft lr).loading (rd ++ wr) || (s.raft lr).sourcing wr then s
    else match (s.raft lr).unread rd with
      | some i => s.readFailed lr i
      | none =>
        let r := (s.storeCheck lr rd).dropUnread lr wr
        if r.working.isNone then r else
        match body c r with
        | .done t => t.settle lr (sigOf w0)
        | .posted t => t.settle lr none
        | .began t => t
        | .hold => s
        | .bad codes => r.progError lr (lowest codes)
        | .fail t code => t.failCourse code

/-- R185: an instruction issues, or its error counts among those of the cycle in which the course failed. -/
def State.issue (s : State) (lr op : Nat) (w0 w1 : W64) (rd wr : List (Nat × Nat)) (body : Course → State → Eff) : State :=
  s.progTie lr fun s => s.issueNow lr op w0 w1 rd wr body

/-- The codes of the rules that are broken. -/
def broken (cs : List (Bool × Nat)) : List Nat := (cs.filter (·.1)).map (·.2)

/-- R185: the codes broken, with those the effect itself finds, or the effect. An instruction that breaks a program rule and whose section
fails a check of a leggett besides ends the course with the program code and latches no bit 36: of the two, in one instruction, the manual
does not say which comes first (DESIGN CHOICE, assumption 88). -/
def checked (cs : List (Bool × Nat)) (e : Eff) : Eff :=
  if (broken cs).isEmpty then e
  else match e with
    | .bad ds => .bad (broken cs ++ ds)
    | _ => .bad (broken cs)

/-! ### NOP, END and reserved opcodes -/

def execRafterNop (lr : Nat) (w0 w1 : W64) (s : State) : Out := onCore (fun s => s.issue lr 0x00 w0 w1 [] [] fun _ s => .done s) s

/-- R169, R373, R472, R477: END ends the rafter's program for the course; in a segment it returns to the spliced instruction. -/
def endInstr (lr : Nat) (c : Course) (s : State) : State :=
  let x := s.raft lr
  match x.seg with
  | some _ => s.setRaft lr { x with seg := none }
  | none => { s with course := some { c with running := c.running.filter (· ≠ lr) } }.lastPhaseEnds

/-- END is no instruction to move past: it signals, then ends or returns. -/
def endProgram (lr : Nat) (w0 w1 : W64) (s : State) : State :=
  s.progTie lr fun s => match (if opcodeOf w0 = 0x01 then s.mayIssue lr w0 w1 else none) with
  | none => s
  | some _ =>
    if !wellFormedWords 0x01 w0 w1 then s.progError lr 0x90
    else
      let s := s.signalOpt lr (sigOf w0)
      match s.working with
      | none => s
      | some c => endInstr lr c s
def execEndProgram (lr : Nat) (w0 w1 : W64) (s : State) : Out := onCore (endProgram lr w0 w1) s

/-- R176, R234, R272: a reserved opcode issues and ends the course with 0x90. -/
def reservedRafter (lr : Nat) (w0 w1 : W64) (s : State) : State :=
  if (reservedOf (opcodeOf w0)).isSome then s
  else s.progTie lr fun s => match s.mayIssue lr w0 w1 with
    | none => s
    | some _ => s.progError lr 0x90
def execReservedRafterOpcode (lr : Nat) (w0 w1 : W64) (s : State) : Out := onCore (reservedRafter lr w0 w1) s

/-! ### Fetching (R168, R587) -/

/-- R168: address of the program of a logical rafter; 0 leaves it idle. -/
def State.progOf (s : State) (i : Image) (lr : Nat) : Nat := bitsOf (s.peekW (i.progAddr + 8 * lr)) 0 48

/-- A list of fetched instructions ends in END. -/
def endsInEnd (buf : List (W64 × W64)) : Bool := match buf.getLast? with | some i => decide (opcodeOf i.1 = 1) | none => false

/-- R168: the buffer of the main program as the next fetch finds it: restarted at the pc when the pc lies outside it. -/
def Raft.window (x : Raft) : Raft :=
  if x.bufBase ≤ x.pc ∧ x.pc < x.bufBase + x.buf.length then x else { x with bufBase := x.pc, buf := [] }

/-- R168, R373, R587: the address that the sequencer of a rafter fetches next: in a splice segment, after those of its SEG_LEN + 1
instructions that it holds; else after those the buffer holds. None when an END is the last held, or when the buffer is full of
instructions not yet issued. -/
def State.nextFetch (s : State) (i : Image) (lr : Nat) : Option Nat :=
  let x := (s.raft lr).window
  match x.seg with
  | some g => if endsInEnd g.buf || Nat.ble (g.len + 1) g.buf.length then none else some (g.addr + 16 * g.buf.length)
  | none =>
    if endsInEnd x.buf || (Nat.ble 4096 x.buf.length && Nat.ble x.pc x.bufBase) then none
    else some (s.progOf i lr + 16 * (x.bufBase + x.buf.length))

/-- R587: a fetched instruction joins those held; the oldest, issued already, leaves a full buffer. -/
def Raft.fetched (x : Raft) (i : W64 × W64) : Raft :=
  let x := x.window
  match x.seg with
  | some g => { x with seg := some { g with buf := g.buf ++ [i] } }
  | none =>
    if Nat.ble 4096 x.buf.length then { x with bufBase := x.bufBase + 1, buf := x.buf.drop 1 ++ [i] } else { x with buf := x.buf ++ [i] }

/-- R373, R587: the sequencer fetches the next instruction of the rafter's program or of its splice segment; at or above HBM_CAP the course
ends with 0x92. -/
def programFetch (lr : Nat) (s : State) : State :=
  s.progTie lr fun s => match s.working with
  | none => s
  | some c =>
    if !c.running.contains lr then s else
    match s.nextFetch c.img lr with
    | none => s
    | some a =>
      if s.hbmCap < a + 16 then s.progError lr 0x92 else
      let r := s.readHbm a 16
      if r.2.working.isNone then r.2 else
      let t := r.2.setRaft lr ((r.2.raft lr).fetched (BitVec.ofNat 64 (leNat (r.1.take 8)), BitVec.ofNat 64 (leNat (r.1.drop 8))))
      match t.armed 7 (t.unitOf lr) with
      | some _ => t.useInject.sequencerError (t.unitOf lr)
      | none => t
def execProgramFetch (lr : Nat) (s : State) : Out := onCore (programFetch lr) s

/-! ### Splices (R373, R374, R378) -/

/-- Save point `i` of the running course. -/
def State.saveAt (s : State) (i : Nat) : Option SavePt := s.saves[i]?

/-- R378: the outcome of a save point for one rafter, the highest over rafters. -/
def State.saveOutcome (s : State) (i v : Nat) : State :=
  match s.saves[i]? with
  | none => s
  | some p => { s with saves := s.saves.set i { p with outcome := if p.outcome = 5 then v else max p.outcome v } }

/-- R381: splices with outcome LATE, and with FETCH_FAILED or STORE_FAILED. -/
def State.countOutcome (s : State) (v : Nat) : State :=
  if v = 1 then s.bump Reg.CRS_PLC_LATE.COUNT 1 else if v = 2 ∨ v = 3 then s.bump Reg.CRS_PLC_FAILED.COUNT 1 else s

/-- R373: the entry has been handled. -/
def State.spliceHandled (s : State) (lr : Nat) (e : Splice) : State :=
  let x := s.raft lr
  s.setRaft lr { x with spliced := x.spliced ++ [e.idx] }

/-- R373: segment `e` is issued, with its outcome. -/
def State.issueSegment (s : State) (lr : Nat) (e : Splice) (v : Nat) : State :=
  let s := ((s.saveOutcome e.save v).countOutcome v).spliceHandled lr e
  let x := s.raft lr
  s.setRaft lr { x with seg := some ⟨x.pc, e.addr, e.len, 0, []⟩ }

/-- A load the splice procedure looks at: a run-ahead load of save point `i`. -/
def RunAhead.reloads (i : Nat) (l : RunAhead) : Bool := !l.normal && decide (l.save = some i)

end Sys2Proof.Machine
end

