-- ==== Sys2Proof/Machine/Thatch.lean ====
section
/-! DEFINITION. Thatch compression as a function of data alone (R304 to R326): the code table, the encoder of yelms and sections, and
the checks and expansion of a leggett. -/

namespace Sys2Proof.Machine

/-- R308: number of sign and exponent symbols, and mantissa width, of a format. -/
def thZ (f : Nat) : Nat := match f with | 0 => 32 | 1 => 64 | _ => 512
def thMb (f : Nat) : Nat := match f with | 0 => 3 | 1 => 2 | 3 => 7 | _ => 23

/-- R304: a format thatch takes. -/
def thFmt (f : Nat) : Bool := f = 0 || f = 1 || f = 3 || f = 4

/-! ### Symbols (R308, R314) -/

/-- A symbol with its extra bits: symbol, number of bits, value. -/
abbrev Sym := Nat × Nat × Nat

/-- The length of the run of all-zero elements at the head of a list. -/
def zeroRun : List Nat → Nat
  | 0 :: t => zeroRun t + 1
  | _ => 0

/-- R314: the symbols of a sub-stream of at most 16 elements; `n` bounds the elements left. -/
def parseSub (f : Nat) : Nat → List Nat → List Sym
  | 0, _ => []
  | n + 1, xs =>
    match xs with
    | [] => []
    | x :: t =>
      if x = 0 then
        let r := zeroRun xs
        let k := r.log2
        (thZ f + k, if k < 4 then k else 0, if k < 4 then r - 2 ^ k else 0) :: parseSub f n (xs.drop r)
      else (x / 2 ^ thMb f, thMb f, x % 2 ^ thMb f) :: parseSub f n t

/-- R313: the sub-streams of a yelm. -/
def subStreams (xs : List Nat) : List (List Nat) := chunks 16 xs 16

/-- The symbols of a whole yelm. -/
def yelmSyms (f : Nat) (xs : List Nat) : List Sym := (subStreams xs).flatMap fun x => parseSub f 16 x

/-! ### The code table (R309 to R311) -/

/-- The smallest l ≥ 1 with c × 2^l ≥ np, of at most 15. -/
def codeLen (c np : Nat) : Nat := ((List.range 15).find? fun i => np ≤ c * 2 ^ (i + 1)).getD 14 + 1

/-- R311: the table pass: code lengths from the symbols of a section. -/
def tablePass (f : Nat) (yelms : List (List Nat)) : List Nat :=
  let syms := (yelms.flatMap (yelmSyms f)).map (·.1)
  let n := (List.range (thZ f + 5)).map fun s => syms.count s
  let fl := ceilDiv syms.length 16384
  let np := (n.map fun c => if c = 0 then 0 else max c fl).sum
  n.map fun c => if c = 0 then 0 else codeLen (max c fl) np

/-- R310: canonical codes: (symbol, length, code), the shortest and lowest first. -/
def canonAt (lens : List Nat) (l code : Nat) : List (Nat × Nat × Nat) :=
  ((lens.zipIdx.filter fun x => x.1 = l).map (·.2)).zipIdx.map fun x => (x.1, l, code + x.2)
def canonFrom (lens : List Nat) : Nat → Nat → Nat → List (Nat × Nat × Nat)
  | 0, _, _ => []
  | n + 1, l, code =>
    let here := canonAt lens l code
    here ++ canonFrom lens n (l + 1) (2 * (code + here.length))
def canon (lens : List Nat) : List (Nat × Nat × Nat) := canonFrom lens 15 1 0

/-- R309: a valid table: the sum of 2^−L over symbols with a length is at most 1. -/
def tableOk (lens : List Nat) : Bool :=
  decide ((lens.map fun l => if l = 0 then 0 else 2 ^ (15 - l)).sum ≤ 2 ^ 15)

/-! ### Bits (R314) -/

/-- The low `n` bits of `v`, most significant first. -/
def toBits : Nat → Nat → List Bool
  | 0, _ => []
  | n + 1, v => v.testBit n :: toBits n v

/-- The number a bit list spells, most significant first. -/
def ofBits (bs : List Bool) : Nat := bs.foldl (fun a b => 2 * a + bit b) 0

/-- Bits packed into bytes from bit 7 down, with zero bits to a whole byte. -/
def packBits (bs : List Bool) : List Byte :=
  (chunks 8 bs (bs.length + 1)).map fun c => BitVec.ofNat 8 (ofBits c * 2 ^ (8 - c.length))

/-- The bits of bytes, bit 7 first. -/
def unpackBits (bs : List Byte) : List Bool := bs.flatMap fun b => toBits 8 b.toNat

/-! ### Encoding (R314, R315) -/

/-- R314: one sub-stream; none when a symbol has no code. -/
def encodeSub (codes : List (Nat × Nat × Nat)) (syms : List Sym) : Option (List Byte) :=
  (syms.foldl (fun (a : Option (List Bool)) y =>
    match a, codes.find? (fun c => c.1 = y.1) with
    | some bs, some c => some (bs ++ toBits c.2.1 c.2.2 ++ toBits y.2.1 y.2.2)
    | _, _ => none) (some [])).map packBits

/-- Size of a raw yelm of `n` elements in granules. -/
def rawGran (f n : Nat) : Nat := ceilDiv (16 + n * fmtBytes f) 16

/-- The element bytes as stored. -/
def elemBytes (f : Nat) (xs : List Nat) : List Byte := xs.flatMap (leBytes (fmtBytes f))

/-- A yelm's bytes with its CHECK, inverted for an injection (R331). -/
def sealYelm (body : List Byte) (inv : Bool) : List Byte :=
  let c := crc32 body
  body.take 4 ++ leBytes 4 (if inv then 2 ^ 32 - 1 - c else c) ++ body.drop 8

/-- A yelm as coded. -/
structure YelmOut where
  bytes : List Byte
  raw : Bool
  miss : Bool
  deriving DecidableEq, Repr

/-- Running totals of a list of sizes. -/
def runSums : Nat → List Nat → List Nat
  | _, [] => []
  | a, x :: t => (a + x) :: runSums (a + x) t

/-- R314, R315: one yelm. -/
def encodeYelm (f : Nat) (codes : List (Nat × Nat × Nat)) (xs : List Nat) (inv : Bool) : YelmOut :=
  let n := xs.length
  let subs := (subStreams xs).map fun x => encodeSub codes (parseSub f 16 x)
  let miss := subs.any (· = none)
  let body := subs.map (·.getD [])
  let len := (body.map List.length).sum
  let g := ceilDiv (32 + len) 16
  let head := fun form gran => leBytes 8 (form + f * 4 + (n - 1) * 2 ^ 5 + gran * 2 ^ 13)
  if !miss && decide (g < rawGran f n) then
    let ends := runSums 0 ((List.range 16).map fun i => (body.getD i []).length)
    let e := (ends.zipIdx.map fun x => x.1 * 2 ^ (12 * x.2)).sum
    let b := head 2 g ++ leBytes 24 e ++ body.flatten
    ⟨sealYelm (b ++ List.replicate (16 * g - b.length) 0) inv, false, false⟩
  else
    let g := rawGran f n
    let b := head 1 g ++ leBytes 8 0 ++ elemBytes f xs
    ⟨sealYelm (b ++ List.replicate (16 * g - b.length) 0) inv, true, miss⟩

/-- R305: rows cut into yelms of 256 elements, the last of a row shorter. -/
def cutRows (rows : List (List Nat)) : List (List Nat) := rows.flatMap fun r => chunks 256 r (r.length / 256 + 1)

/-- R307: the worst-case stored size in bytes of a section of `r` rows of `e` elements. -/
def worstSize (f r e : Nat) : Nat :=
  let row := e / 256 * (16 * rawGran f 256) + (if e % 256 = 0 then 0 else 16 * rawGran f (e % 256))
  64 * ceilDiv (384 + r * row) 64

/-- A section as written, with its counts. -/
structure SectionOut where
  bytes : List Byte
  yelms : Nat
  raws : Nat
  misses : Nat
  deriving DecidableEq, Repr

/-- R309: the 320 bytes of a code table. -/
def tableBytes (lens : List Nat) : List Byte :=
  (List.range 320).map fun i => BitVec.ofNat 8 (lens.getD (2 * i) 0 + 16 * lens.getD (2 * i + 1) 0)

/-- R305, R306: the section of some rows, coded with lengths `lens`; `slot` is the table slot and its epoch when the table is kept or
reused; `inject` inverts the first yelm's CHECK (0) or the section CHECK (1). -/
def encodeSection (f : Nat) (rows : List (List Nat)) (lens : List Nat) (slot : Option (Nat × Nat)) (inject : Option Nat) : SectionOut :=
  let cut := cutRows rows
  let codes := canon lens
  let ys := cut.zipIdx.map fun x => encodeYelm f codes x.1 (x.2 = 0 && inject = some 0)
  let body := ys.flatMap (·.bytes)
  let size := ceilDiv (384 + body.length) 64
  let raws := (ys.filter (·.raw)).length
  let e := (rows.headD []).length
  let head := leBytes 8 (0x5EC7 + f * 2 ^ 16 + (e - 1) * 2 ^ 24 + (rows.length - 1) * 2 ^ 40) ++
    leBytes 8 (ys.length + size * 2 ^ 32) ++
    leBytes 8 (rows.length * e + (match slot with | some (t, ep) => 2 ^ 48 + t * 2 ^ 49 + ep * 2 ^ 52 | none => 0)) ++
    leBytes 8 raws ++ List.replicate 24 0
  let tab := tableBytes lens
  let c := crc32 (head ++ tab)
  ⟨head ++ leBytes 8 (if inject = some 1 then 2 ^ 32 - 1 - c else c) ++ tab ++ body ++
      List.replicate (size * 64 - 384 - body.length) 0,
    ys.length, raws, (ys.filter (·.miss)).length⟩

/-! ### The leggett (R320 to R326) -/

/-- A section header as read (R306). -/
structure SecHead where
  mark : Nat
  fmt : Nat
  elems1 : Nat
  rows1 : Nat
  yelms : Nat
  size : Nat
  elems : Nat
  reserved : Nat
  check : Nat
  deriving DecidableEq, Repr

def readHead (bs : List Byte) : SecHead :=
  let w := fun i => leNat ((bs.drop (8 * i)).take 8)
  ⟨bitsOf (w 0) 0 16, bitsOf (w 0) 16 3, bitsOf (w 0) 24 16, bitsOf (w 0) 40 24, bitsOf (w 1) 0 32, bitsOf (w 1) 32 32, bitsOf (w 2) 0 48,
    bitsOf (w 0) 19 5 + bitsOf (w 3) 32 32 + w 4 + w 5 + w 6 + bitsOf (w 7) 32 32, bitsOf (w 7) 0 32⟩

/-- The code lengths of a table's first `n` symbols. -/
def readLens (tab : List Byte) (n : Nat) : List Nat :=
  (List.range n).map fun s => let b := (tab.getD (s / 2) 0).toNat; if s % 2 = 0 then b % 16 else b / 16

/-- R326: the section checks, 0x01 to 0x03, over the first 384 bytes: the cause that fails. -/
def headCause (bs : List Byte) : Option Nat :=
  let h := readHead bs
  let tab := (bs.drop 64).take 320
  let n := thZ h.fmt + 5
  if h.mark ≠ 0x5EC7 ∨ h.check ≠ crc32 (bs.take 56 ++ tab) then some 1
  else if h.reserved ≠ 0 ∨ !thFmt h.fmt ∨ h.yelms ≠ (h.rows1 + 1) * ceilDiv (h.elems1 + 1) 256 ∨
      h.elems ≠ (h.rows1 + 1) * (h.elems1 + 1) ∨ h.size < 6 ∨ worstSize h.fmt (h.rows1 + 1) (h.elems1 + 1) / 64 < h.size then some 2
  else if ((readLens tab 640).drop n).any (· ≠ 0) || !tableOk (readLens tab n) then some 3
  else none

/-- The symbol a bit list starts with: (symbol, bits left); none when no code matches. -/
def nextSym (codes : List (Nat × Nat × Nat)) (bs : List Bool) : Option (Nat × List Bool) :=
  match codes.find? fun c => decide (c.2.1 ≤ bs.length) && decide (ofBits (bs.take c.2.1) = c.2.2) with
  | some c => some (c.1, bs.drop c.2.1)
  | none => none

/-- R326 causes 0x08 and 0x09: a sub-stream of `m` elements expanded; `n` bounds the symbols left. -/
def decodeSub (f : Nat) (codes : List (Nat × Nat × Nat)) : Nat → Nat → List Bool → Except Nat (List Nat)
  | _, 0, bs => if 7 < bs.length ∨ bs.any id then .error 9 else .ok []
  | 0, _ + 1, _ => .error 8
  | n + 1, m + 1, bs =>
    match nextSym codes bs with
    | none => .error 8
    | some (y, bs) =>
      if y < thZ f then
        if bs.length < thMb f then .error 8
        else (decodeSub f codes n m (bs.drop (thMb f))).map ((y * 2 ^ thMb f + ofBits (bs.take (thMb f))) :: ·)
      else
        let k := y - thZ f
        let x := if k < 4 then k else 0
        if bs.length < x then .error 8
        else
          let r := 2 ^ k + ofBits (bs.take x)
          if m + 1 < r then .error 8
          else (decodeSub f codes n (m + 1 - r) (bs.drop x)).map (List.replicate r 0 ++ ·)

/-- Elements of a stored byte list. -/
def bytesElems (f : Nat) (n : Nat) (bs : List Byte) : List Nat :=
  (List.range n).map fun i => leNat ((bs.drop (i * fmtBytes f)).take (fmtBytes f))

/-- R326: the results of two neighbouring sub-streams joined: cause 0x08 of any sub-stream comes before 0x09 of any. -/
def joinSubs : Except Nat (List Nat) → Except Nat (List Nat) → Except Nat (List Nat)
  | .ok xs, .ok ys => .ok (xs ++ ys)
  | .error c, .error d => .error (min c d)
  | .error c, .ok _ => .error c
  | .ok _, .error d => .error d

/-- Every sub-stream of a yelm expanded in order. -/
def decodeSubs (f : Nat) (codes : List (Nat × Nat × Nat)) (subs : List (Nat × List Byte)) : Except Nat (List Nat) :=
  subs.foldr (fun x r => joinSubs (decodeSub f codes 16 x.1 (unpackBits x.2)) r) (.ok [])

/-- R326: the checks of one yelm of `n` elements at the head of `bs`, in the table's order, and its elements and size in bytes. -/
def checkYelm (f : Nat) (codes : List (Nat × Nat × Nat)) (n : Nat) (bs : List Byte) : Except Nat (List Nat × Nat) :=
  let w0 := leNat (bs.take 8)
  let form := bitsOf w0 0 2
  let gran := bitsOf w0 13 7
  let ends := (List.range 16).map fun i => bitsOf (leNat ((bs.drop 8).take 24)) (12 * i) 12
  let starts := 0 :: ends
  let lenAt := fun i => ends.getD i 0 - starts.getD i 0
  let subLen := fun i => min 16 (n - 16 * i)
  let down := (List.range 16).any fun i => decide (ends.getD i 0 < starts.getD i 0)
  let y := bs.take (16 * gran)
  if form = 0 ∨ form = 3 ∨ bitsOf w0 20 12 ≠ 0 ∨ (form = 1 ∧ leNat ((bs.drop 8).take 8) ≠ 0) then .error 4
  else if bitsOf w0 2 3 ≠ f ∨ bitsOf w0 5 8 + 1 ≠ n then .error 5
  else if (form = 1 ∧ gran ≠ rawGran f n) ∨ (form = 2 ∧ (gran < 3 ∨ rawGran f n ≤ gran)) then .error 6
  else if form = 2 ∧ (down ∨ (List.range 16).any (fun i => decide ((subLen i = 0) ≠ (lenAt i = 0))) ∨ 16 * gran - 32 < ends.getD 15 0)
    then .error 7
  else if bitsOf w0 32 32 ≠ crc32 (y.take 4 ++ List.replicate 4 0 ++ y.drop 8) then .error 10
  else if form = 1 then
    if ((y.drop (16 + n * fmtBytes f)).any (· ≠ 0)) then .error 9 else .ok (bytesElems f n (y.drop 16), 16 * gran)
  else
    match decodeSubs f codes ((List.range 16).map fun i => (subLen i, ((y.drop (32 + starts.getD i 0)).take (lenAt i)))) with
    | .error c => .error c
    | .ok xs => if (y.drop (32 + ends.getD 15 0)).any (· ≠ 0) then .error 9 else .ok (xs, 16 * gran)

/-- R326: the size in bytes that the yelm at the head of `bs` names. -/
def yelmLen (bs : List Byte) : Nat := 16 * bitsOf (leNat (bs.take 8)) 13 7

/-- R326: the last yelm and zero padding of less than a unit end exactly at the end of the section. -/
def endsHere (bs : List Byte) : Bool :=
  decide (yelmLen bs ≤ bs.length) && decide (bs.length < yelmLen bs + 64) && (bs.drop (yelmLen bs)).all (· = 0)

/-- R326: the yelms of a section in stream order: their elements, or the cause and the yelm that fails. Cause 0x0B of a yelm, which for
the last one takes in the end of the section, is tested before that yelm's other causes. The section has `m` bytes left of
`bs`, the bytes of the store from here on: a yelm that is not the last and runs past the end of the section is checked over every byte of it
(R315), and it is the next one that begins past the end. -/
def checkYelms (f : Nat) (codes : List (Nat × Nat × Nat)) : List Nat → Nat → Nat → List Byte → Except (Nat × Nat) (List (List Nat))
  | [], _, _, _ => .ok []
  | n :: ns, i, m, bs =>
    if m = 0 || (ns.isEmpty && !endsHere (bs.take m)) then .error (0x0B, i)
    else match checkYelm f codes n bs with
      | .error c => .error (c, i)
      | .ok (xs, len) => (checkYelms f codes ns (i + 1) (m - len) (bs.drop len)).map (xs :: ·)

/-- R315: the most bytes of a yelm. -/
def yelmMost : Nat := 16 * 127

/-- R305: the element counts of the yelms of a row of `e` elements. -/
def rowYelms (e : Nat) : List Nat := List.replicate (e / 256) 256 ++ (if e % 256 = 0 then [] else [e % 256])

/-- R320, R326: the rows of a section of SIZE × 64 bytes whose header has passed its checks; `rest` are the bytes that follow it in the store,
as many as a yelm can take. -/
def expandSection (bs rest : List Byte) : Except (Nat × Nat) (List (List Nat)) :=
  let h := readHead bs
  let per := rowYelms (h.elems1 + 1)
  let codes := canon (readLens ((bs.drop 64).take 320) (thZ h.fmt + 5))
  (checkYelms h.fmt codes ((List.range (h.rows1 + 1)).flatMap fun _ => per) 0 (bs.length - 384) (bs.drop 384 ++ rest)).map fun ys =>
    (chunks per.length ys (h.rows1 + 2)).map List.flatten

end Sys2Proof.Machine
end

