-- ==== Sys2Proof/Machine/Matrix.lean ====
section
/-! DEFINITION. The matrix engine (R143 to R163, R177 to R179, R320 to R328): MX.LDB, MX.MM, accumulator tiles and statistics. -/

namespace Sys2Proof.Machine

/-! ### Stored rows -/

/-- Bytes of a stored row of `n` elements. -/
def rowBytes (f n : Nat) : Nat := if f = 2 then ceilDiv n 2 else n * fmtBytes f

/-- R192: element codes of a row of bytes. -/
def rowElems (f n : Nat) (bs : List Byte) : List Nat :=
  if f = 2 then (List.range n).map fun i => let b := (bs.getD (i / 2) 0).toNat; if i % 2 = 0 then b % 16 else b / 16
  else bytesElems f n bs

/-- Columns of a list of rows of `n` elements. -/
def transpose (n : Nat) (rows : List (List Nat)) : List (List Nat) := (List.range n).map fun j => rows.map (·.getD j 0)

/-- A byte range lies in the rafter store. -/
def inStore (r : Nat × Nat) : Bool := decide (r.1 + r.2 ≤ rsSize)

/-- R165, R174: the codes broken by reads of ranges of the own rafter store. -/
def State.rangeCodes (s : State) (lr : Nat) (rs : List (Nat × Nat)) : List (Bool × Nat) :=
  [(!rs.all inStore, 0x92), (!rs.all fun r => s.rsOk lr r.1 r.2, 0x94)]

/-! ### The leggett (R320, R321, R326 to R328) -/

/-- R328: THC_ERR records a failure. -/
def State.recordInteg (s : State) (lr port cause yelm : Nat) : State :=
  s.setFs [(Reg.THC_ERR.CAUSE, cause), (Reg.THC_ERR.LRAFT, lr), (Reg.THC_ERR.PORT, port), (Reg.THC_ERR.VALID, 1),
    (Reg.THC_ERR.YELM, yelm), (Reg.THC_ERR.COURSE, (match s.course with | some c => c.counter | none => 0))]

/-- R328: an integrity failure is counted and recorded, and bit 36 fails the course. -/
def State.leggettFail (s : State) (lr port cause yelm : Nat) : State :=
  let s := s.bump Reg.THC_INTEG.COUNT 1
  let s := { s with integ := some ⟨s.now, !s.on Reg.THC_ERR.VALID, s.rafts, [lr]⟩ }
  (if s.on Reg.THC_ERR.VALID then s else s.recordInteg lr port cause yelm).raiseLine 36

/-- What a leggett delivers: rows, program errors, or an integrity failure with its yelm. -/
inductive Delivered where
  | rows (rs : List (List Nat))
  | bad (codes : List Nat)
  | broken (cause yelm : Nat)

/-- R320, R321, R326: the section at rafter-store address `a` read as `r` rows of `e` elements of format `f`. -/
def State.readSection (s : State) (lr a f r e : Nat) : Delivered :=
  if !(broken (s.rangeCodes lr [(a, 384)])).isEmpty then .bad (broken (s.rangeCodes lr [(a, 384)]))
  else
    let h := readHead (s.rsRead lr a 384)
    match headCause (s.rsRead lr a 384) with
    | some c => .broken c 0xFFFFFFFF
    | none =>
      let n := h.size * 64
      if !(broken (s.rangeCodes lr [(a, n)])).isEmpty then .bad (broken (s.rangeCodes lr [(a, n)]))
      else
        let codes := broken [(decide (f = 2 ∨ h.fmt ≠ f), 0x98), (decide (h.rows1 + 1 ≠ r ∨ h.elems1 + 1 ≠ e ∨ e * fmtBytes h.fmt < 256), 0x99)]
        if !codes.isEmpty then .bad codes
        else match expandSection (s.rsRead lr a n) (s.rsRead lr (a + n) (min yelmMost (rsSize - (a + n)))) with
          | .error ce => .broken ce.1 ce.2
          | .ok rows => .rows rows

/-- Plain stored rows at a pitch. -/
def State.readRows (s : State) (lr a pitch f r e : Nat) : Delivered :=
  let rs := (List.range r).map fun j => (a + j * pitch, rowBytes f e)
  let codes := broken (s.rangeCodes lr rs)
  if codes.isEmpty then .rows (rs.map fun x => rowElems f e (s.rsRead lr x.1 x.2)) else .bad codes

/-- R320: stored rows, in section form when the pitch is 0. -/
def State.operandRows (s : State) (lr a pitch f r e : Nat) : Delivered :=
  if pitch = 0 then s.readSection lr a f r e else s.readRows lr a pitch f r e

/-- The rest of an instruction once its operand rows are delivered. -/
def Delivered.use (d : Delivered) (s : State) (lr port : Nat) (k : List (List Nat) → Eff) : Eff :=
  match d with
  | .rows rs => k rs
  | .bad cs => .bad cs
  | .broken c y => .done (s.leggettFail lr port c y)

/-- R328: the leggett failures of the cycle in which the course failed, if it failed in this one; none yet when a program error failed it. -/
def State.integNow (s : State) : Option Integ :=
  if !s.course.any (·.failed) then none
  else (s.integ.filter fun t => decide (t.at_ = s.now)).or (s.fellNow.map fun t => ⟨s.now, !s.on Reg.THC_ERR.VALID, t.rafts, []⟩)

/-- R170: the rafters as they stood, that of rafter `lr` one instruction on, when its leggett has failed in this cycle: the sequencer overlaps
its next instruction with the one that failed. -/
def Integ.standing (t : Integ) (lr : Nat) : SMap Raft :=
  if t.lrs.contains lr then
    let x := SMap.look Raft.fresh lr t.rafts
    SMap.put Raft.fresh lr (match x.seg with
      | none => { x with pc := x.pc + 1 }
      | some g => { x with seg := some { g with done := g.done + 1 } }) t.rafts
  else t.rafts

/-- R328: a leggett that fails in the cycle in which another has failed the course is counted too, and THC_ERR names the lower rafter, and
within one rafter the A port (0) before the B port (1). The first that fails in the cycle of a program error raises bit 36, which sets the
course's status (R185). `run` is the instruction as it runs in a course that goes on. -/
def State.leggettTie (s : State) (lr port : Nat) (run : State → State) : State :=
  match s.course, s.integNow with
  | some c, some t =>
    let c' : Course := { c with failed := false, working := true, running := [lr] }
    let u := run ({ s with course := some c', rafts := t.standing lr, fell := none }.setF Reg.THC_ERR.VALID 0)
    if u.getF Reg.THC_INTEG.COUNT = s.getF Reg.THC_INTEG.COUNT then run s
    else
      let r := { s.bump Reg.THC_INTEG.COUNT 1 with integ := some { t with lrs := t.lrs ++ [lr] } }
      let r := if t.recorded && (t.lrs.isEmpty || decide (2 * lr + port < 2 * s.getF Reg.THC_ERR.LRAFT + s.getF Reg.THC_ERR.PORT)) then
          r.recordInteg lr port (u.getF Reg.THC_ERR.CAUSE) (u.getF Reg.THC_ERR.YELM)
        else r
      if t.lrs.isEmpty then r.raiseLine 36 else r
  | _, _ => run s

/-! ### MX.LDB (R144, R150, R151, R178) -/

/-- R150: stored row number of data row `k`, and of the scale row of group `g` of `kr` rows. The manual puts a scale row after each 32 data
rows and does not say where that of a shorter last group lies: it follows the last data row (DESIGN CHOICE, assumption 88). -/
def dataRow (k : Nat) : Nat := k + k / 32
def scaleRow (kr g : Nat) : Nat := min (32 * (g + 1)) kr + g

/-- R178: the codes an MX.LDB breaks whatever the rafter store holds. -/
def ldbCodes (f trans split kr : Nat) : List (Bool × Nat) :=
  [(decide (5 ≤ f), 0x90), (decide (f ≠ 2 ∧ 512 < kr), 0x91),
   (decide ((split = 1 ∨ split = 2) ∧ f ≠ 3), 0x91), (decide (split = 3 ∧ f ≠ 4), 0x91), (decide (trans = 1 ∧ f = 2), 0x91)]

/-- R518: an armed array-parity injection acts on the next operand row, of A or of B. -/
def State.injectArray (s : State) (u : Nat) : State :=
  match s.armed 6 u with
  | none => s
  | some _ => s.useInject.arrayParity u

/-- The standby buffer takes a block. -/
def State.loadBlock (s : State) (lr : Nat) (b : Block) : State := s.setRaft lr { s.raft lr with standby := some b }

def codes32 (rows : List (List Nat)) : List (List W32) := rows.map fun r => r.map (BitVec.ofNat 32)

/-- R150: a block of E2M1 rows, each 32 followed by a row of scale bytes. -/
def State.ldbFp4 (s : State) (lr a pitch kr nc : Nat) : Eff :=
  let g := ceilDiv kr 32
  let data := (List.range kr).map fun k => (a + dataRow k * pitch, rowBytes 2 nc)
  let scal := (List.range g).map fun i => (a + scaleRow kr i * pitch, nc)
  checked (s.rangeCodes lr (data ++ scal)) <|
    .done ((s.loadBlock lr ⟨2, 0, kr, nc, codes32 (data.map fun x => rowElems 2 nc (s.rsRead lr x.1 x.2)),
      scal.map fun x => s.rsRead lr x.1 x.2⟩).injectArray (s.unitOf lr))

/-- R150, R170, R320: the rafter-store ranges that stored rows of `e` elements occupy: a section's header, table and SIZE units, or `r` rows
at a pitch, each with its `extra` scale bytes 512 bytes in. -/
def State.rowSpans (s : State) (lr a pitch f r e extra : Nat) : List (Nat × Nat) :=
  if pitch = 0 then [(a, max 384 ((readHead (s.rsRead lr a 384)).size * 64))]
  else ((List.range r).map fun j => (a + j * pitch, rowBytes f e)) ++
    (if extra = 0 then [] else (List.range r).map fun j => (a + j * pitch + 512, extra))

/-- R150, R170: the ranges MX.LDB reads. -/
def State.ldbSpans (s : State) (lr a pitch f r e : Nat) : List (Nat × Nat) :=
  if f = 2 ∧ pitch ≠ 0 then
    ((List.range r).map fun k => (a + dataRow k * pitch, rowBytes 2 e)) ++
      (List.range (ceilDiv r 32)).map fun i => (a + scaleRow r i * pitch, e)
  else s.rowSpans lr a pitch f r e 0

def mxLdb (lr : Nat) (w0 w1 : W64) (s : State) : State :=
  let f := wbits w0 37 3
  let trans := wbits w0 40 1
  let split := wbits w0 41 2
  let kr := wbits w0 43 10 + 1
  let nc := wbits w0 53 9 + 1
  let a := wbits w1 0 19 * 64
  let pitch := wbits w1 19 19 * 64
  let r := if trans = 1 then nc else kr
  let e := if trans = 1 then kr else nc
  s.leggettTie lr 1 (fun s => s.issue lr 0x10 w0 w1 (s.ldbSpans lr a pitch f r e) [] fun _ s =>
    checked (ldbCodes f trans split kr) <|
      if f = 2 ∧ pitch ≠ 0 then s.ldbFp4 lr a pitch kr nc
      else (s.operandRows lr a pitch f r e).use s lr 1 fun rows =>
        .done ((s.loadBlock lr ⟨f, split, kr, nc, codes32 (if trans = 1 then transpose kr rows else rows), []⟩).injectArray (s.unitOf lr)))
def execMxLdb (lr : Nat) (w0 w1 : W64) (s : State) : Out := onCore (mxLdb lr w0 w1) s

/-! ### Accumulator tiles (R154 to R157, R160) -/

/-- R154: rows, columns and units of a shape. -/
def shapeRows (sh : Nat) : Nat := if sh = 1 ∨ sh = 3 then 512 else 256
def shapeCols (sh : Nat) : Nat := if sh = 2 ∨ sh = 3 then 512 else 256
def shapeUnits (sh : Nat) : Nat := match sh with | 0 => 1 | 1 => 2 | 2 => 2 | _ => 4

/-- The tile that starts at a unit. -/
def State.tile (s : State) (lr u : Nat) : Option SlotState := SMap.look none u (s.raft lr).slots

/-- Key of an accumulator word. -/
def accKey (lr u n r c : Nat) : Nat := lr * 2097152 + u * 65536 + r * n + c

/-- A tile's rows. -/
def State.tileRows (s : State) (lr u : Nat) (t : SlotState) : List (List W32) :=
  (List.range t.mrows).map fun r => (List.range t.ncols).map fun c => SMap.look 0 (accKey lr u t.ncols r c) s.acc

/-- R155, R157: a tile is recorded at unit `u`; tiles it overlaps are gone. -/
def State.setTile (s : State) (lr u : Nat) (t : SlotState) : State :=
  let x := s.raft lr
  let gone := fun k => match SMap.look none k x.slots with
    | some o => overlaps k (shapeUnits o.shape) u (shapeUnits t.shape)
    | none => false
  let m := ((List.range 32).filter gone).foldl (fun m k => SMap.put none k none m) x.slots
  s.setRaft lr { x with slots := SMap.put none u (some t) m }

/-- R183: the words of a tile are read. -/
def State.tileCheck (s : State) (lr u : Nat) (t : SlotState) : State := s.accCheck lr (accKey lr u t.ncols 0 0) (t.mrows * t.ncols)

/-- Values written to accumulator memory from key `k` on. -/
def accPut (m : SMap W32) (k : Nat) : List W32 → SMap W32
  | [] => m
  | v :: t => accPut (SMap.put 0 k v m) (k + 1) t

/-- A tile's values are written. -/
def State.accWrite (s : State) (lr u n : Nat) (rows : List (List W32)) : State :=
  let k := accKey lr u n 0 0
  let vs := rows.flatMap fun r => r
  { s with acc := accPut s.acc k vs, badAcc := renewWords k (k + vs.length) s.badAcc }.injectAcc (s.unitOf lr) k

/-! ### Statistics (R161, R162) -/

/-- R162: one entry's sums folded over its elements in order. -/
def foldEntry (sq : W32 × W32) (xs : List W32) : W32 × W32 := xs.foldl (fun a x => (fadd a.1 x, fadd a.2 (fmul x x))) sq

/-- R162: a record folded over the entries of a tile: `entries` lists each entry's elements. Of a count that passes its 32 bits the manual
says nothing: n is FP32 of the true sum, and COUNT holds it modulo 2^32 (DESIGN CHOICE, assumption 88). -/
def statFold (old : Option StatRec) (dir : Nat) (entries : List (List W32)) : StatRec :=
  let l := (entries.headD []).length
  let start := match old with
    | some r => (r.count, r.s.zip r.q)
    | none => (0, entries.map fun _ => ((0 : W32), (0 : W32)))
  let sq := (start.2.zip entries).map fun x => foldEntry x.1 x.2
  let count := start.1 + l
  let n := ofNat32 count
  let mv := sq.map fun x =>
    let m := fdiv x.1 n
    let v := fsub (fdiv x.2 n) (fmul m m)
    (m, if flt v 0 then 0 else v)
  ⟨count % 2 ^ 32, dir, sq.map (·.1), sq.map (·.2), mv.map (·.1), mv.map (·.2)⟩

/-- Statistics record `i`. -/
def State.statRec (s : State) (lr i : Nat) : Option StatRec := SMap.look none i (s.raft lr).stats

/-- R162: the codes of a continued record; `n` is the entry count, none while no block gives it. -/
def chainCodes (r : Option StatRec) (dir : Nat) (n : Option Nat) : List (Bool × Nat) :=
  match r with
  | none => [(true, 0x94)]
  | some r => [(decide (r.dir ≠ dir ∨ n.getD r.s.length ≠ r.s.length), 0x93)]

/-- R161: one record formed from a final tile. -/
def State.setStat (s : State) (lr i dir : Nat) (chain : Bool) (entries : List (List W32)) : State :=
  let x := s.raft lr
  let old := if chain then SMap.look none i x.stats else none
  s.setRaft lr { x with stats := SMap.put none i (some (statFold old dir entries)) x.stats }

/-! ### MX.MM (R148, R152, R155, R179) -/

/-- R148: the formats of A that pair with a block. -/
def pairOk (fa fb : Nat) : Bool := if fa ≤ 1 then decide (fb ≤ 1) else decide (fa = fb)

/-- R155: the codes of mm_check; `ncols` is the block's NCOLS, none while no block is loaded. -/
def mmCheck (t : Option SlotState) (acc : Bool) (sh mrows : Nat) (ncols : Option Nat) (kblk : Nat) : List (Bool × Nat) :=
  if !acc then [(decide (kblk ≠ 0), 0x93)]
  else match t with
    | none => [(true, 0x94)]
    | some t => [(t.final, 0x93), (decide (t.shape ≠ sh ∨ t.mrows ≠ mrows ∨ ncols.getD t.ncols ≠ t.ncols), 0x93), (decide (kblk ≠ t.next), 0x93)]

/-- R200: one output element. -/
def mmElem (b : Block) (a : List FV) (sa : List Nat) (col : List FV) (sb : List Nat) (old : Option W32) : W32 :=
  (refSum b.split (b.fmt = 2) a col sa sb old).getD 0

/-- R143, R150: the rows of a product added to the rows a tile holds. -/
def mmRows (b : Block) (fa : Nat) (arows : List (List Nat)) (ascales : List (List Nat)) (old : Option (List (List W32))) : List (List W32) :=
  let cols := (List.range b.ncols).map fun c => (b.elems.map fun r => decodeF b.fmt (r.getD c 0).toNat, b.scales.map fun r => (r.getD c 0).toNat)
  arows.zipIdx.map fun ra =>
    let a := ra.1.map (decodeF fa)
    cols.zipIdx.map fun cb => mmElem b a (ascales.getD ra.2 []) cb.1.1 cb.1.2 (old.map fun o => (o.getD ra.2 []).getD cb.2 0)

/-- The block in use: the standby block when a load has filled it, else the active one (R144). -/
def Raft.block (x : Raft) : Option Block := x.standby.or x.active

/-- R150: A rows of E2M1: 512 data bytes, then the scale bytes. -/
def State.fp4Rows (s : State) (lr a pitch r k : Nat) : Except (List Nat) (List (List Nat) × List (List Nat)) :=
  let rs := (List.range r).map fun j => (a + j * pitch, rowBytes 2 k)
  let ss := (List.range r).map fun j => (a + j * pitch + 512, ceilDiv k 32)
  let codes := broken (s.rangeCodes lr (rs ++ ss))
  if codes.isEmpty then .ok (rs.map fun x => rowElems 2 k (s.rsRead lr x.1 x.2), ss.map fun x => (s.rsRead lr x.1 x.2).map (·.toNat))
  else .error codes

/-- R152, R320: the rows of A with their scales, and then the rest. -/
def State.aRows (s : State) (lr a pitch fa trans m k : Nat) (kont : List (List Nat) → List (List Nat) → Eff) : Eff :=
  if fa = 2 ∧ pitch ≠ 0 then
    match s.fp4Rows lr a pitch m k with
    | .error cs => .bad cs
    | .ok r => kont r.1 r.2
  else
    (s.operandRows lr a pitch fa (if trans = 1 then k else m) (if trans = 1 then m else k)).use s lr 0 fun rows =>
      kont (if trans = 1 then transpose m rows else rows) []

/-- The fields of an MX.MM (R179). -/
structure MmF where
  fa : Nat
  trans : Nat
  slot : Nat
  shape : Nat
  acc : Bool
  last : Bool
  stat : Nat
  strec : Nat
  chain : Bool
  a : Nat
  pitch : Nat
  m : Nat
  kblk : Nat
  deriving DecidableEq, Repr

def mmFields (w0 w1 : W64) : MmF :=
  ⟨wbits w0 37 3, wbits w0 40 1, wbits w0 41 5, wbits w0 46 2, wbits w0 48 1 = 1, wbits w0 49 1 = 1, wbits w0 50 2, wbits w0 52 4,
    wbits w0 56 1 = 1, wbits w1 0 19 * 64, wbits w1 19 19 * 64, wbits w1 38 9 + 1, wbits w1 47 8⟩

/-- R152, R174, R179, R185: the codes an MX.MM breaks against its block, its tile and its records; with no block loaded, every rule that can
be tested without one is tested still. -/
def State.mmCodes (s : State) (lr : Nat) (x : MmF) (b : Option Block) : List (Bool × Nat) :=
  [(decide (5 ≤ x.fa), 0x90), (b.any fun b => !pairOk x.fa b.fmt, 0x91), (decide (x.trans = 1 ∧ x.fa = 2), 0x91),
   (decide (x.slot % shapeUnits x.shape ≠ 0), 0x91), (decide (shapeRows x.shape < x.m), 0x91),
   (b.any fun b => decide (shapeCols x.shape < b.ncols), 0x91), (decide (x.stat ≠ 0) && !x.last, 0x91),
   (decide (x.stat = 3 ∧ x.strec = 15), 0x91), (!x.last && (b.any fun b => decide (b.krows % 32 ≠ 0)), 0x91), (b.isNone, 0x94)] ++
  mmCheck (s.tile lr x.slot) x.acc x.shape x.m (b.map Block.ncols) x.kblk ++
  (if x.chain ∧ x.stat % 2 = 1 then chainCodes (s.statRec lr x.strec) 0 (some x.m) else []) ++
  (if x.chain ∧ 2 ≤ x.stat then chainCodes (s.statRec lr (x.strec + x.stat % 2)) 1 (b.map Block.ncols) else [])

/-- R161: the statistics of a final tile. -/
def State.mmStats (s : State) (lr : Nat) (x : MmF) (rows : List (List W32)) (n : Nat) : State :=
  let s := if x.stat % 2 = 1 then s.setStat lr x.strec 0 x.chain rows else s
  if 2 ≤ x.stat then s.setStat lr (x.strec + x.stat % 2) 1 x.chain ((List.range n).map fun c => rows.map (·.getD c 0)) else s

/-- The product is added to the tile, its state moves on, and the statistics follow. -/
def State.mmWrite (s : State) (lr : Nat) (x : MmF) (b : Block) (arows ascales : List (List Nat)) : State :=
  let y := s.raft lr
  let old := if x.acc then (s.tile lr x.slot).map (s.tileRows lr x.slot) else none
  let rows := mmRows b x.fa arows ascales old
  let s := s.setRaft lr { y with active := some b, standby := none }
  let s := if x.acc then s.setTile lr x.slot ⟨x.shape, x.m, b.ncols, x.kblk + 1, x.last⟩
    else s.setTile lr x.slot ⟨x.shape, x.m, b.ncols, 1, x.last⟩
  (s.mmStats lr x rows b.ncols).accWrite lr x.slot b.ncols rows

/-- R152, R170: the ranges the A rows of an MX.MM occupy for a block of `k` rows. -/
def State.mmSpans (s : State) (lr : Nat) (x : MmF) (k : Nat) : List (Nat × Nat) :=
  s.rowSpans lr x.a x.pitch x.fa (if x.trans = 1 then k else x.m) (if x.trans = 1 then x.m else k) (if x.fa = 2 then ceilDiv k 32 else 0)

def mxMm (lr : Nat) (w0 w1 : W64) (s : State) : State :=
  let x := mmFields w0 w1
  s.leggettTie lr 0 fun s =>
    s.issue lr 0x11 w0 w1 (s.mmSpans lr x ((((s.raft lr).block).map Block.krows).getD 0)) [] fun _ s =>
      let b := (s.raft lr).block
      match b with
      | none => .bad (broken ((!(s.mmSpans lr x 1).all inStore, 0x92) :: s.mmCodes lr x none))
      | some b =>
        checked (s.mmCodes lr x (some b)) <|
          s.aRows lr x.a x.pitch x.fa x.trans x.m b.krows fun rows scales =>
            let t := match (if x.acc then s.tile lr x.slot else none) with | some t => s.tileCheck lr x.slot t | none => s
            .done (if t.working.isNone then t else (t.mmWrite lr x b rows scales).injectArray (s.unitOf lr))
def execMxMm (lr : Nat) (w0 w1 : W64) (s : State) : Out := onCore (mxMm lr w0 w1) s

end Sys2Proof.Machine
end

