-- ==== Sys2Proof/Machine/Streamer.lean ====
section
/-! DEFINITION. The streamer (R164 to R168, R180, R181, R220, R316 to R318, R357 to R376, R460): loads, stores and drains between the
rafter store, the loft, HBM, the host aperture and peers, with their redirections, their classes and the failures of lower tiers. -/

namespace Sys2Proof.Machine

/-! ### Where an access goes -/

/-- R164: the limit of a tier; none for a reserved code. -/
def State.tierLimit (s : State) (tier : Nat) : Option Nat :=
  match tier with
  | 0 => some rsSize
  | 1 => some loftSize
  | 2 => some s.hbmCap
  | 3 | 4 => some (2 ^ 42)
  | _ => none

/-- R164: a reserved tier, or a far range past the end of its tier. -/
def State.farBad (s : State) (tier far n : Nat) : Bool :=
  match s.tierLimit tier with
  | some m => decide (m < far + n)
  | none => true

/-- R357: the access lies in the save window of the plan in force. -/
def State.inSave (s : State) (tier far : Nat) : Bool :=
  decide (tier = 3 ∧ s.saveBase ≤ far ∧ far < s.saveBase + s.saveSpan)

/-- R357: the save point whose extent holds the first byte of a save access. -/
def State.saveOf (s : State) (far : Nat) : Option Nat :=
  s.saves.findIdx? fun p => decide (s.saveBase + p.off ≤ far ∧ far < s.saveBase + p.off + p.len)

/-- R357: a save access that starts outside every extent or runs past the end of its own. -/
def State.saveBad (s : State) (tier far n : Nat) : Bool :=
  s.inSave tier far &&
  match s.saveOf far with
  | none => true
  | some i => match s.saves[i]? with
    | some p => decide (s.saveBase + p.off + p.len < far + n)
    | none => true

/-- Pieces of no bytes left out. -/
def piecesOf (ps : List Piece) : List Piece := ps.filter fun p => decide (p.len ≠ 0)

/-- R220: bytes [a, a + n) of a tier with a state region of two copies redirected by offset. -/
def copyPieces (tier a n : Nat) (reg : Nat × Nat) (copy : Nat) : List Piece :=
  let lo := min (a + n) (max a reg.1)
  let hi := max lo (min (a + n) (reg.1 + reg.2))
  piecesOf [⟨tier, a, lo - a⟩, ⟨tier, lo + copy * reg.2, hi - lo⟩, ⟨tier, hi, a + n - hi⟩]

/-- R358, R370: bytes [o, o + n) of save point `p`, `far` the address as named: the keep pool below the slot size and the spill tier
beyond it, the host aperture, the peer region, or nothing. -/
def State.savePieces (s : State) (p : SavePt) (far n : Nat) : List Piece :=
  let o := far - (s.saveBase + p.off)
  let peer := p.peer + p.off + o
  match p.dec with
  | .keep =>
    let k := min n (p.size - o)
    piecesOf [⟨2, p.pool + p.slot + o, k⟩,
      if p.allow.testBit 1 then ⟨3, far + k, n - k⟩ else ⟨4, peer + k, n - k⟩]
  | .host => piecesOf [⟨3, far, n⟩]
  | .peer => piecesOf [⟨4, peer, n⟩]
  | .discard => []

/-- R220, R358: the pieces of an access of `n` bytes. -/
def State.pieces (s : State) (c : Course) (tier far n : Nat) (write : Bool) : List Piece :=
  let par := s.getF Reg.CRS_NUM_STATE.PAR
  let copy := if write then 1 - par else par
  if s.inSave tier far then
    match (s.saveOf far).bind s.saveAt with
    | some p => s.savePieces p far n
    | none => []
  else if tier = 2 then copyPieces 2 far n (s.hState c.img.recipeIdx) copy
  else if tier = 3 then copyPieces 3 far n (s.aState c.img.recipeIdx) copy
  else piecesOf [⟨tier, far, n⟩]

/-- The save point an access belongs to. -/
def State.saveIdx (s : State) (tier far : Nat) : Option Nat := if s.inSave tier far then s.saveOf far else none

/-- R368: the bytes of a save load that lie below the stored length. -/
def State.loadLen (s : State) (tier far n : Nat) : Nat :=
  match (s.saveIdx tier far).bind s.saveAt with
  | some p => min n (s.saveBase + p.off + p.stored - far)
  | none => n

/-- R366: a store of the save point is in flight, from any rafter. -/
def State.saveInFlight (s : State) (i : Option Nat) : Bool :=
  i.isSome && s.rafts.any fun x => x.2.down.any fun d => decide (d.save = i)

/-- R170: pieces that share far bytes. -/
def piecesMeet (ps qs : List Piece) : Bool :=
  ps.any fun p => qs.any fun q => decide (p.tier = q.tier) && overlaps p.far p.len q.far q.len

/-- R170: an access must wait for a store in flight of its own rafter, or, when it writes, for a load in flight. -/
def Raft.farBusy (x : Raft) (ps : List Piece) (write : Bool) : Bool :=
  x.down.any (fun d => piecesMeet ps d.pieces) || (write && x.ahead.any fun l => !l.ended && piecesMeet ps l.pieces)

/-! ### Peer stores (R459, R460) -/

/-- R460: the store requests of an access, with their bytes. -/
def storeMsgs (tag : Nat) : List (Nat × Nat × Nat) → List Byte → List PeerMsg
  | [], _ => []
  | r :: t, bs => .store tag r.1 r.2.1 (bs.take r.2.2) :: storeMsgs tag t (bs.drop r.2.2)
def State.tellPeer (s : State) (rs : List (Nat × Nat × Nat)) (bs : List Byte) : Nat × State :=
  let tag := s.peerTag + 1
  (tag, { s with peerTag := tag }.each (storeMsgs tag rs bs) State.putPeer)

/-! ### Reading pieces -/

/-- Bytes of the lower tiers of an access. -/
def lowerLen (ps : List Piece) : Nat := ((ps.filter fun p => decide (3 ≤ p.tier)).map (·.len)).sum

/-- R20, R22: the bridges a piece of die `n` crosses: those to the dies whose stacks hold its HBM bytes, and that to H for host memory. -/
def State.bridgesOf (s : State) (n : Nat) (p : Piece) : List Nat :=
  match p.tier with
  | 2 => (blocksTouched p.far p.len).filterMap fun g =>
      let m := stackOf (s.placeOf (g * 4096)).1 / 5
      if m = n then none else ([(0, 1), (0, 2), (0, 3), (1, 2), (1, 3), (2, 3)].findIdx? fun b => decide (b = (min n m, max n m)))
  | 3 => [6 + n]
  | _ => []

/-- R22, R518: an armed bridge injection acts on the next transfer over its bridge, which is replayed and changes no data. -/
def State.crossBridges (s : State) (n : Nat) (p : Piece) : State :=
  match s.inj with
  | some (8, _, b) => if (s.bridgesOf n p).contains b then s.useInject else s
  | _ => s

/-- R107: the bytes of a host-aperture piece that a short answer delivers, and the failure of the rest, which is recorded. -/
def State.readHost (s : State) (p : Piece) (bs : List Byte) : List Byte × FarAns × State :=
  let k := min p.len bs.length
  let r := s.aptLoad p.far k (.data bs)
  match r.1 with
  | none => ([], .error, r.2)
  | some got => if k < p.len then (got, .error, (r.2.aptLoad (p.far + k) (p.len - k) .error).2) else (got, .data (bs.drop p.len), r.2)

/-- One piece is read: the bytes delivered and the bytes of the far answer left over. `lr` names the rafter whose store and loft a tier
on the die means. -/
def State.readPiece (s : State) (lr : Nat) (p : Piece) (far : FarAns) : List Byte × FarAns × State :=
  let s := s.crossBridges (lr / 8) p
  match p.tier with
  | 0 => (s.rsRead lr p.far p.len, far, s)
  | 1 => (s.loftRead (lr / 8) p.far p.len, far, s)
  | 2 => let r := s.readHbm p.far p.len; (r.1, far, r.2)
  | 3 =>
    match far with
    | .data bs => s.readHost p bs
    | .error => ([], .error, (s.aptLoad p.far p.len .error).2)
  | _ => match far with
    | .data bs => (bs.take p.len, .data (bs.drop p.len), s)
    | .error => ([], .error, s)

/-- The pieces of a load read in order up to the first that fails: the bytes delivered, and whether all were. -/
def State.readPieces (s : State) (lr : Nat) (far : FarAns) : List Piece → List Byte → List Byte × Bool × State
  | [], acc => (acc, true, s)
  | p :: t, acc =>
    let r := s.readPiece lr p far
    if r.1.length < p.len then (acc ++ r.1, false, r.2.2)
    else r.2.2.readPieces lr r.2.1 t (acc ++ r.1)

/-- The first `n` bytes of an access. -/
def cutPieces : Nat → List Piece → List Piece
  | _, [] => []
  | n, p :: t => if n < p.len then piecesOf [{ p with len := n }] else p :: cutPieces (n - p.len) t

/-- R371, R368: bytes of a load arrive in its buffer: a run-ahead or save load marks only the blocks it wholly wrote. -/
def State.deliver (s : State) (lr near : Nat) (bs : List Byte) (partial_ : Bool) : State :=
  (s.rsPut lr near bs).rsMark lr (if partial_ then blocksFilled near bs.length else blocksTouched near bs.length)

/-! ### Loads (R165, R167, R371, R376) -/

/-- The fields of a streamer instruction (R180). -/
structure StF where
  cls : Nat
  comp : Bool
  near : Nat
  far : Nat
  tier : Nat
  n : Nat
  deriving DecidableEq, Repr

def stFields (w0 w1 : W64) : StF :=
  ⟨wbits w0 37 2, wbits w0 39 1 = 1, wbits w0 40 19 * 64, wbits w1 0 36 * 64, wbits w1 36 4, (wbits w1 40 24 + 1) * 64⟩

/-- R376: the alternate source of a weight load. -/
def WSrc.altPiece (w : WSrc) (a n : Nat) : Option Piece :=
  if w.altTier = 0xF then none else some ⟨w.altTier, w.alt + (a - w.pri), n⟩

/-- The load an ST.LOAD asks for. -/
def State.loadOf (s : State) (c : Course) (x : StF) (w0 : W64) : RunAhead :=
  let n := s.loadLen x.tier x.far x.n
  let w := if s.inSave x.tier x.far then none else s.weightSource x.tier x.far x.n
  { save := s.saveIdx x.tier x.far, near := x.near, len := n, pieces := s.pieces c x.tier x.far n false, weight := w.isSome,
    alt := w.bind fun w => w.altPiece x.far x.n, ended := false, whole := false, failed := false, sig := sigOf w0,
    normal := decide (x.cls = 0), tag := 0 }

/-- The codes an ST.LOAD breaks. -/
def State.loadCodes (s : State) (lr : Nat) (x : StF) : List (Bool × Nat) :=
  [(decide (x.cls = 1 ∨ x.cls = 3), 0x90), (!inStore (x.near, x.n), 0x92), (s.farBad x.tier x.far x.n, 0x92), (s.saveBad x.tier x.far x.n, 0x92),
   (decide (x.tier = 0) && !s.rsOk lr x.far x.n, 0x94), (decide (x.tier = 1) && !s.loftOk (lr / 8) x.far x.n, 0x94)]

/-- R375: a load has ended without all its bytes: a normal-class load acts at once, one of the run-ahead class when its buffer is read. -/
def State.endBadly (s : State) (lr : Nat) (l : RunAhead) : State :=
  if !l.normal then s
  else s.loadFailed lr l

/-- R378: a run-ahead load that reads back a save point reloads it on time, until a splice says otherwise. -/
def State.reloaded (s : State) (l : RunAhead) : State :=
  match l.save with
  | some i => if l.pieces.isEmpty then s else s.saveOutcome i 0
  | none => s

/-- R371, R373, R375: a load ends with the answer of its far side. -/
def State.endLoad (s : State) (lr : Nat) (l : RunAhead) (far : FarAns) : State :=
  let r := s.readPieces lr far l.pieces []
  if r.2.2.working.isNone then r.2.2 else
  let s := r.2.2.deliver lr l.near r.1 (!l.normal || l.save.isSome)
  let s := if l.save.isSome || l.weight then s.moved (cutPieces r.1.length l.pieces) else s
  if r.2.1 then
    let s := if l.normal then s else (s.addAhead lr { l with ended := true, whole := true }).reloaded l
    s.signalOpt lr l.sig
  else if l.normal then s.endBadly lr l
  else (s.addAhead lr { l with ended := true, failed := true }).signalOpt lr l.sig

/-- R460: a load that reads from a peer is asked for; one that cannot be sent fails. -/
def State.askLoad (s : State) (c : Course) (lr : Nat) (l : RunAhead) : State :=
  match s.peerRoutes c l.pieces false with
  | some rs => let t := s.askPeer rs; t.2.addAhead lr { l with tag := t.1 }
  | none => s.endLoad lr l .error

/-- ST.LOAD: a normal-class load without peer bytes, and a load that moves no byte (R358, R368), take effect as they issue; every other
load is posted. -/
def stLoad (runAhead : Bool) (lr : Nat) (w0 w1 : W64) (far : FarAns) (s : State) : State :=
  let x := stFields w0 w1
  if decide (x.cls = 2) ≠ runAhead then s else
  s.issue lr 0x20 w0 w1 (if x.tier = 0 then [(x.far, x.n)] else []) [(x.near, x.n)] fun c s =>
    checked (s.loadCodes lr x) <|
      let l := s.loadOf c x w0
      if s.saveInFlight l.save || (s.raft lr).farBusy l.pieces false then .hold
      else if l.pieces.any (fun p => p.tier = 4) then .posted (s.askLoad c lr l).markBusy
      else if x.cls = 2 ∧ l.pieces ≠ [] then .posted (s.addAhead lr l).markBusy
      else .posted (s.endLoad lr l far).markBusy
def execStLoad (lr : Nat) (w0 w1 : W64) (far : FarAns) (s : State) : Out := onCore (stLoad false lr w0 w1 far) s
def execStLoadRunahead (lr : Nat) (w0 w1 : W64) (s : State) : Out := onCore (stLoad true lr w0 w1 .error) s

/-- The load at index `i` of a rafter leaves its list. -/
def State.takeAhead (s : State) (lr i : Nat) : State :=
  let x := s.raft lr
  s.setRaft lr { x with ahead := x.ahead.eraseIdx i }

/-- R371: the oldest load in flight at a buffer address ends with an answer. -/
def runaheadLoadEnd (lr near : Nat) (far : FarAns) (s : State) : State :=
  if s.working.isNone then s else
  let x := s.raft lr
  match x.ahead.findIdx? fun l => !l.ended && decide (l.near = near) with
  | none => s
  | some i => match x.ahead[i]? with
    | none => s
    | some l => ((s.takeAhead lr i).endLoad lr l far).markBusy
def execRunaheadLoadEnd (lr near : Nat) (far : FarAns) (s : State) : Out := onCore (runaheadLoadEnd lr near far) s

/-! ### Stores (R159, R165, R167, R366 to R370) -/

/-- One piece on the module is written. -/
def State.writePiece (s : State) (lr : Nat) (p : Piece) (bs : List Byte) : State :=
  let s := s.crossBridges (lr / 8) p
  match p.tier with
  | 0 => s.rsWrite lr p.far bs
  | 1 => s.loftWrite (lr / 8) p.far bs
  | 2 => s.writeHbm p.far bs
  | _ => s

/-- The pieces on the module are written in order. -/
def State.writePieces (s : State) (lr : Nat) : List Piece → List Byte → State
  | [], _ => s
  | p :: t, bs => (s.writePiece lr p (bs.take p.len)).writePieces lr t (bs.drop p.len)

/-- The bytes of the lower-tier pieces, in order. -/
def lowerBytes : List Piece → List Byte → List Byte
  | [], _ => []
  | p :: t, bs => (if 3 ≤ p.tier then bs.take p.len else []) ++ lowerBytes t (bs.drop p.len)

/-- R368, R375: what the module holds about a save point changes. -/
def State.mapSave (s : State) (i : Option Nat) (f : SavePt → SavePt) : State :=
  match i.bind s.saveAt, i with
  | some p, some k => { s with saves := s.saves.set k (f p) }
  | _, _ => s

/-- R370: bytes that go beyond a KEEP slot are counted. -/
def spillBytes (p : Option SavePt) (ps : List Piece) : Nat :=
  match p with
  | some q => if q.dec = .keep then lowerLen ps else 0
  | none => 0

/-- The host-aperture pieces of a store are written: whether all succeeded. -/
def State.putHost (s : State) (far : FarAns) : List Piece → List Byte → Bool × State
  | [], _ => (true, s)
  | p :: t, bs =>
    if p.tier = 3 then
      let r := s.aptStore p.far (bs.take p.len) far
      if r.1 then r.2.putHost far t (bs.drop p.len) else (false, r.2)
    else s.putHost far t (bs.drop p.len)

/-- R375: a store that failed in a lower tier: its save point is lost, or the course fails. -/
def State.storeFailed (s : State) (d : Downpipe) : State :=
  if d.save.isSome then s.mapSave d.save fun p => { p with lost := true } else s.failCourse (tierStatus d.pieces)

/-- R366, R375: the far write of a store ends: acknowledged, or failed. -/
def State.endStore (s : State) (lr : Nat) (d : Downpipe) (far : FarAns) : State :=
  let r := s.putHost far d.pieces d.bytes
  let ok := r.1 && decide (far ≠ .error)
  let s := if ok then (if d.save.isSome then r.2.moved d.pieces else r.2) else r.2.storeFailed d
  if s.working.isNone then s else s.signalOpt lr d.sig

/-- A store in flight joins the others of its rafter. -/
def State.addDown (s : State) (lr : Nat) (d : Downpipe) : State :=
  let x := s.raft lr
  s.setRaft lr { x with down := x.down ++ [d] }

/-- R367: the bytes a downpipe has in flight. -/
def Raft.downBytes (x : Raft) : Nat := ((x.down.filter fun d => !d.normal).map fun d => d.bytes.length).sum

/-- R460: a store with peer bytes is sent; one that cannot be sent fails. -/
def State.sendStore (s : State) (c : Course) (lr : Nat) (d : Downpipe) : State :=
  match s.peerRoutes c d.pieces true with
  | some rs => let t := s.tellPeer rs d.bytes; t.2.addDown lr { d with tag := t.1 }
  | none => s.endStore lr d .error

/-- R165 to R168, R358, R366, R368, R370: bytes go to a far address: those for the module are written, those for a lower tier are posted
or written as the host answers. -/
def State.storeOut (s : State) (c : Course) (lr : Nat) (x : StF) (w0 : W64) (bs : List Byte) (far : FarAns) : Eff :=
  let ps := s.pieces c x.tier x.far bs.length true
  let save := s.saveIdx x.tier x.far
  let low := ps.filter fun p => decide (3 ≤ p.tier)
  let full := decide (x.cls = 1 ∧ low ≠ [] ∧ 2 ^ 20 ≤ (s.raft lr).downBytes)
  if s.saveInFlight save || (s.raft lr).farBusy ps true || full then .hold
  else
    let s := s.bump Reg.CRS_PLC_SPILL.BYTES (spillBytes (save.bind s.saveAt) ps)
    let s := s.mapSave save fun p => if p.dec = .discard then p else { p with stored := bs.length }
    let s := s.writePieces lr ps bs
    let d : Downpipe := ⟨save, low, lowerBytes ps bs, sigOf w0, decide (x.cls = 0), 0⟩
    if low.isEmpty || s.working.isNone then .done s
    else if low.any (fun p => p.tier = 4) then .posted (s.sendStore c lr d).markBusy
    else if x.cls = 1 then .posted (s.addDown lr d).markBusy
    else .posted (s.endStore lr d far).markBusy

/-- The far codes of a store of `n` bytes. -/
def State.farCodes (s : State) (x : StF) (n : Nat) : List (Bool × Nat) :=
  [(decide (2 ≤ x.cls), 0x90), (s.farBad x.tier x.far n, 0x92), (s.saveBad x.tier x.far n, 0x92)]

/-! ### Compressing (R316 to R319) -/

/-- R316: a thatch descriptor. -/
structure ThD where
  fmt : Nat
  tmode : Nat
  slot : Nat
  elems : Nat
  room : Nat
  reserved : Bool
  deriving DecidableEq, Repr

def thDesc (bs : List Byte) : ThD :=
  let w := fun i => leNat ((bs.drop (8 * i)).take 8)
  ⟨bitsOf (w 0) 0 3, bitsOf (w 0) 3 2, bitsOf (w 0) 5 3, bitsOf (w 0) 8 16 + 1, bitsOf (w 1) 0 32,
    decide (bitsOf (w 0) 24 40 = 0 ∧ bitsOf (w 1) 32 32 = 0) && (bs.drop 16).all (· = 0)⟩

/-- R312: a table slot and its epoch. -/
def State.tabSlot (s : State) (lr t : Nat) : Option TabSlot := SMap.look none t (s.raft lr).tabs
def State.tabEpoch (s : State) (lr t : Nat) : Nat := SMap.look 0 t (s.raft lr).tabEpochs

/-- R316, R317: the codes a compressing store breaks, given its raw bytes `n`. -/
def State.compCodes (s : State) (lr : Nat) (x : StF) (d : ThD) : List (Bool × Nat) :=
  let row := d.elems * fmtBytes d.fmt
  let rows := x.n / row
  [(!thFmt d.fmt, 0x98), (decide (d.tmode = 3) || !d.reserved, 0x90), (decide (2 ≤ x.cls), 0x90),
   (thFmt d.fmt && decide (x.n % row ≠ 0 ∨ 2 ^ 24 < rows), 0x99),
   (thFmt d.fmt && decide (x.n % row = 0 ∧ d.room < worstSize d.fmt rows d.elems / 64), 0x9A),
   (decide (x.tier = 0) && overlaps x.near (x.n + 64) x.far (d.room * 64), 0x9C), (s.farBad x.tier x.far (d.room * 64), 0x92),
   (thFmt d.fmt && decide (x.n % row = 0) && s.saveBad x.tier x.far (worstSize d.fmt rows d.elems), 0x92)] ++
  (if d.tmode = 2 then match s.tabSlot lr d.slot with
    | none => [(true, 0x94)]
    | some t => [(decide (t.fmt ≠ d.fmt), 0x9B)]
  else [])

/-- R331: an armed THC injection: its target. -/
def State.thcInject (s : State) : Option Nat := if s.on Reg.THC_INJECT.ARM then some (s.getF Reg.THC_INJECT.TARGET) else none

/-- R311, R312: the code lengths of a section and the slot it names: a table pass, kept or not, or a reuse. -/
def State.tableFor (s : State) (lr : Nat) (d : ThD) (rows : List (List Nat)) : List Nat × Option (Nat × Nat) × State :=
  if d.tmode = 2 then
    ((match s.tabSlot lr d.slot with | some t => t.lens | none => []), some (d.slot, s.tabEpoch lr d.slot), s)
  else
    let lens := tablePass d.fmt (cutRows rows)
    let s := s.bump Reg.THC_TPASS.PASSES 1
    if d.tmode = 1 then
      let x := s.raft lr
      let e := (s.tabEpoch lr d.slot + 1) % 4096
      (lens, some (d.slot, e), s.setRaft lr { x with tabs := SMap.put none d.slot (some ⟨d.fmt, lens⟩) x.tabs,
                                                     tabEpochs := SMap.put 0 d.slot e x.tabEpochs })
    else (lens, none, s)

/-- R314, R330, R331: a section is coded and counted; one that a DISCARD save point does not keep (R358) writes no byte, so it stores no yelm
and takes no injection. -/
def State.compress (s : State) (lr : Nat) (d : ThD) (rows : List (List Nat)) (kept : Bool) : List Byte × State :=
  let t := s.tableFor lr d rows
  let o := encodeSection d.fmt rows t.1 t.2.1 (if kept then t.2.2.thcInject else none)
  let s := t.2.2.bump Reg.THC_RAW.BYTES (rows.length * d.elems * fmtBytes d.fmt)
  if !kept then (o.bytes, s) else
  let s := s.bump Reg.THC_STORED.BYTES o.bytes.length
  let s := ((s.bump Reg.THC_YCOMP.YELMS (o.yelms - o.raws)).bump Reg.THC_YRAW.YELMS o.raws).bump Reg.THC_YMISS.YELMS o.misses
  (o.bytes, s.setF Reg.THC_INJECT.ARM 0)

/-- The raw rows of a compressing store. -/
def rawRows (d : ThD) (bs : List Byte) : List (List Nat) :=
  let row := d.elems * fmtBytes d.fmt
  (chunks row bs (bs.length / row + 1)).map (bytesElems d.fmt d.elems)

/-- A coded section is stored; a store that must wait leaves the encoder's state as it was. -/
def State.storeSection (s : State) (c : Course) (lr : Nat) (x : StF) (w0 : W64) (d : ThD) (rows : List (List Nat)) (far : FarAns) : Eff :=
  let r := s.compress lr d rows (!(s.pieces c x.tier x.far 64 true).isEmpty)
  r.2.storeOut c lr x w0 r.1 far

/-- R316: ST.STORE with COMP set. -/
def State.storeComp (s : State) (c : Course) (lr : Nat) (x : StF) (w0 : W64) (far : FarAns) : Eff :=
  if !(broken (s.rangeCodes lr [(x.near, 64)])).isEmpty then
    .bad (broken (s.rangeCodes lr [(x.near, 64), (x.near + 64, x.n)] ++ s.farCodes x 64))
  else
    let d := thDesc (s.rsRead lr x.near 64)
    checked (s.rangeCodes lr [(x.near + 64, x.n)] ++ s.compCodes lr x d) <|
      s.storeSection c lr x w0 d (rawRows d (s.rsRead lr (x.near + 64) x.n)) far

/-- ST.STORE: plain, or through thatch. -/
def State.storeInstr (s : State) (c : Course) (lr : Nat) (x : StF) (w0 : W64) (far : FarAns) : Eff :=
  if x.comp then s.storeComp c lr x w0 far
  else checked (s.rangeCodes lr [(x.near, x.n)] ++ s.farCodes x x.n) <| s.storeOut c lr x w0 (s.rsRead lr x.near x.n) far

/-- R170: the bytes a compressing store writes. -/
def State.compLen (s : State) (lr : Nat) (x : StF) : Nat :=
  (s.compress lr (thDesc (s.rsRead lr x.near 64)) (rawRows (thDesc (s.rsRead lr x.near 64)) (s.rsRead lr (x.near + 64) x.n)) true).1.length

/-- ST.STORE as its row has it: `want` says which CLASS and COMP the row is of. -/
def stStore (want : StF → Bool) (lr : Nat) (w0 w1 : W64) (far : FarAns) (s : State) : State :=
  let x := stFields w0 w1
  if !want x then s else
  s.issue lr 0x21 w0 w1 [(x.near, if x.comp then x.n + 64 else x.n)] (if x.tier = 0 then [(x.far, if x.comp then s.compLen lr x else x.n)] else [])
    fun c s => s.storeInstr c lr x w0 far
def execStStore (lr : Nat) (w0 w1 : W64) (far : FarAns) (s : State) : Out :=
  onCore (stStore (fun x => !x.comp && decide (x.cls ≠ 1)) lr w0 w1 far) s
def execStStoreDownpipe (lr : Nat) (w0 w1 : W64) (s : State) : Out :=
  onCore (stStore (fun x => decide (x.cls = 1)) lr w0 w1 .error) s
def execStStoreComp (lr : Nat) (w0 w1 : W64) (far : FarAns) (s : State) : Out :=
  onCore (stStore (fun x => x.comp && decide (x.cls ≠ 1)) lr w0 w1 far) s

/-! ### Drains (R158 to R160, R181, R318) -/

/-- R159: bytes of a drained row, padding included. -/
def drainPitch (n : Nat) : Nat := ceilDiv (n * 4) 64 * 64

/-- R159: the bytes of a drained tile. -/
def drainBytes (n : Nat) (rows : List (List W32)) : List Byte :=
  rows.flatMap fun r => r.flatMap (fun v => leBytes 4 v.toNat) ++ List.replicate (drainPitch n - 4 * n) 0

/-- R318: the rows of a tile as FP32 codes. -/
def drainRows (s : State) (lr u : Nat) (t : SlotState) : List (List Nat) := (s.tileRows lr u t).map fun r => r.map BitVec.toNat

/-- ST.DRAIN of the tile at a unit. -/
def State.drainInstr (s : State) (c : Course) (lr : Nat) (x : StF) (w0 : W64) (far : FarAns) : Eff :=
  let u := wbits w0 40 5
  let sh := wbits w0 45 2
  match s.tile lr u with
  | none => .bad (broken ((true, 0x94) :: s.farCodes x 64))
  | some t =>
    let d : ThD := ⟨4, 0, 0, t.ncols, 0, true⟩
    let n := if x.comp then worstSize 4 t.mrows t.ncols else t.mrows * drainPitch t.ncols
    checked ((decide (t.shape ≠ sh), 0x93) :: s.farCodes x n) <|
      let v := s.tileCheck lr u t
      if v.working.isNone then .done v
      else if x.comp then v.storeSection c lr x w0 d (drainRows v lr u t) far
      else v.storeOut c lr x w0 (drainBytes t.ncols (v.tileRows lr u t)) far

/-- R170: the bytes a drain writes. -/
def State.drainLen (s : State) (lr : Nat) (x : StF) (w0 : W64) : Nat :=
  match s.tile lr (wbits w0 40 5) with
  | none => 0
  | some t =>
    if x.comp then (s.compress lr ⟨4, 0, 0, t.ncols, 0, true⟩ (drainRows s lr (wbits w0 40 5) t) true).1.length else t.mrows * drainPitch t.ncols

def stDrain (comp : Bool) (lr : Nat) (w0 w1 : W64) (far : FarAns) (s : State) : State :=
  let x := stFields w0 w1
  if x.comp ≠ comp then s else
  s.issue lr 0x22 w0 w1 [] (if x.tier = 0 then [(x.far, s.drainLen lr x w0)] else []) fun c s => s.drainInstr c lr x w0 far
def execStDrain (lr : Nat) (w0 w1 : W64) (far : FarAns) (s : State) : Out := onCore (stDrain false lr w0 w1 far) s
def execStDrainComp (lr : Nat) (w0 w1 : W64) (far : FarAns) (s : State) : Out := onCore (stDrain true lr w0 w1 far) s

/-! ### Acknowledgements and failures (R366, R375) -/

/-- The store in flight at index `i` of a rafter leaves its list. -/
def State.takeDown (s : State) (lr i : Nat) : State :=
  let x := s.raft lr
  s.setRaft lr { x with down := x.down.eraseIdx i }

/-- A store in flight ends with an answer. -/
def State.downEnd (s : State) (lr i : Nat) (far : FarAns) : State :=
  match (s.raft lr).down[i]? with
  | none => s
  | some d => ((s.takeDown lr i).endStore lr d far).markBusy

/-- R366: the far write of the oldest posted store of a rafter is acknowledged. -/
def downpipeAck (lr : Nat) (s : State) : State := if s.working.isNone then s else s.downEnd lr 0 (.data [])
def execDownpipeAck (lr : Nat) (s : State) : Out := onCore (downpipeAck lr) s

/-- A load in flight ends with an answer. -/
def State.aheadEnd (s : State) (lr i : Nat) (far : FarAns) : State :=
  match (s.raft lr).ahead[i]? with
  | none => s
  | some l => if l.ended then s else ((s.takeAhead lr i).endLoad lr l far).markBusy

/-- R460: the request with a tag ends with an answer: a store in flight or a load. -/
def State.tagEnd (s : State) (lr tag : Nat) (far : FarAns) : State :=
  match (s.raft lr).down.findIdx? fun d => decide (d.tag = tag ∧ tag ≠ 0) with
  | some i => s.downEnd lr i far
  | none => match (s.raft lr).ahead.findIdx? fun l => !l.ended && decide (l.tag = tag ∧ tag ≠ 0) with
    | some i => s.aheadEnd lr i far
    | none => s

/-- R375: an access through the host or peer aperture fails. -/
def lowerTierAccessFail (lr : Nat) (a : LowerAccess) (s : State) : State :=
  if s.working.isNone then s else
  match a with
  | .downpipe i => s.downEnd lr i .error
  | .runAhead i => s.aheadEnd lr i .error
  | .peer tag => { s with peerWait := s.peerWait.filter fun m => decide (m.target.map Prod.fst ≠ some tag) }.tagEnd lr tag .error
def execLowerTierAccessFail (lr : Nat) (a : LowerAccess) (s : State) : Out := onCore (lowerTierAccessFail lr a) s

/-- R460: the access of whichever rafter asked under a tag ends with an answer; what of it still waited is gone. -/
def State.peerEnd (s : State) (tag : Nat) (far : FarAns) : State :=
  { s with peerWait := s.peerWait.filter fun m => decide (m.target.map Prod.fst ≠ some tag) }.each (List.range 32) fun s lr => s.tagEnd lr tag far

/-- R460: a peer-aperture reply completes the access that was asked for under its tag, once all of it has gone out. -/
def peerReply (tag : Nat) (far : FarAns) (s : State) : State :=
  if s.working.isNone || s.peerWait.any fun m => decide (m.target.map Prod.fst = some tag) then s else s.peerEnd tag far

/-- R460: an APERTURE slot to module `pos` has begun: the requests that waited for it go out. -/
def State.flushPeer (s : State) (pos : Nat) : State :=
  let goes := fun m : PeerMsg => decide (m.target.map Prod.snd = some pos) && s.course.any fun c => s.apertureOpen c pos
  { s with peerWait := s.peerWait.filter fun m => !goes m, peerOut := s.peerOut ++ s.peerWait.filter goes }

/-- R460: an APERTURE slot to module `pos` has ended: with none left in the course, the accesses that still wait for one fail. -/
def State.strandPeer (s : State) (pos : Nat) : State :=
  match s.working with
  | none => s
  | some c =>
    if s.apertureSlot c pos then s
    else s.each ((s.peerWait.filterMap PeerMsg.target).filter fun t => decide (t.2 = pos)) fun s t =>
      if s.working.isNone then s else s.peerEnd t.1 .error

/-! ### Cancelled reloads and splices (R371 to R374) -/

/-- R371, R373: a running reload of save point `i` is cancelled: what it had delivered stays in its buffer and it ends, with its signal.
`got` is the number of bytes it had delivered and those of them that came from a lower tier. -/
def State.cancelLoad (s : State) (lr i : Nat) (got : Nat × List Byte) : State :=
  match (s.raft lr).ahead.findIdx? fun l => l.reloads i && !l.ended with
  | none => s
  | some k => match (s.raft lr).ahead[k]? with
    | none => s
    | some l =>
      let r := s.readPieces lr (.data got.2) (cutPieces got.1 l.pieces) []
      let s := (r.2.2.setRaft lr { r.2.2.raft lr with ahead := (r.2.2.raft lr).ahead.set k { l with ended := true } })
      if s.working.isNone then s else
      ((s.deliver lr l.near r.1 true).moved (cutPieces r.1.length l.pieces)).signalOpt lr l.sig

/-- The running reloads of a save point that a rafter has. -/
def Raft.reloading (x : Raft) (i : Nat) : Nat := (x.ahead.filter fun l => l.reloads i && !l.ended).length

/-- R373: the running reloads of save point `e.save` are cancelled and segment `e` issued. -/
def State.spliceLate (s : State) (lr : Nat) (e : Splice) (got : List (Nat × List Byte)) : State :=
  let v := if (s.raft lr).ahead.any (fun l => l.reloads e.save && l.failed) then 2 else 1
  let t := (s.each (List.range ((s.raft lr).reloading e.save)) fun s k => s.cancelLoad lr e.save (got.getD k (0, []))).markBusy
  if t.working.isNone then t else t.issueSegment lr e v

/-- R373: one splice entry before the instruction at pc is handled, or its reloads are waited for. -/
def atSplice (lr : Nat) (s : State) : State :=
  match s.working with
  | none => s
  | some c =>
    if !c.running.contains lr then s else
    match s.nextSplice c lr with
    | none => s
    | some e =>
      match s.saveAt e.save with
      | none => s
      | some p =>
        let r := (s.raft lr).ahead.filter fun l => l.reloads e.save
        if p.dec = .discard then s.issueSegment lr e 4
        else if p.lost then s.issueSegment lr e 3
        else if r.isEmpty then s.issueSegment lr e 1
        else if r.any fun l => !l.ended then s
        else if r.all fun l => l.whole then (s.saveOutcome e.save 0).spliceHandled lr e
        else s.spliceLate lr e []
def execAtSplice (lr : Nat) (s : State) : Out := onCore (atSplice lr) s

/-- R373, R374: LATE_CYC cycles have passed at a splice that waits; `got` tells how far each running reload had come. -/
def spliceLateTimeout (lr : Nat) (got : List (Nat × List Byte)) (s : State) : State :=
  match s.working with
  | none => s
  | some c =>
    match s.nextSplice c lr with
    | none => s
    | some e => if (s.raft lr).ahead.any fun l => l.reloads e.save && !l.ended then s.spliceLate lr e got else s
def execSpliceLateTimeout (x : SpliceLate) (s : State) : Out := onCore (spliceLateTimeout x.lr x.got) s

end Sys2Proof.Machine
end

