-- ==== Sys2Proof/Machine/Plan.lean ====
section
/-! DEFINITION. The placement planner (R361 to R365, R370, R378, R381): the envelope of a course image, the rates it plans with, and the
decision of every save point at the opening ridge. -/

namespace Sys2Proof.Machine

/-! ### The envelope (R361) -/

/-- R361: a save point entry: extent start and length in bytes, ALLOW, RECOMP. -/
structure EnvSave where
  off : Nat
  len : Nat
  allow : Nat
  recomp : Nat
  deriving DecidableEq, Repr

def envSaveOf (w0 w2 w3 : Nat) : EnvSave := ⟨bitsOf w0 0 30 * 4096, bitsOf w3 0 32 * 4096, bitsOf w0 30 4, bitsOf w2 0 32⟩

/-- R361: word `i` of an image's envelope header. -/
def State.envW (s : State) (i : Image) (j : Nat) : Nat := s.peekW (i.envAddr + 8 * j)

/-- R361: the save point table of an image: count and address. -/
def State.saveTable (s : State) (i : Image) : Nat × Nat := (bitsOf (s.envW i 0) 0 12 + 1, bitsOf (s.envW i 1) 0 48)

/-- R361: the save points of an image. -/
def State.envSaves (s : State) (i : Image) : List EnvSave :=
  let t := s.saveTable i
  (List.range t.1).map fun k => envSaveOf (s.peekW (t.2 + 32 * k)) (s.peekW (t.2 + 32 * k + 16)) (s.peekW (t.2 + 32 * k + 24))

/-- R361, R364: HOST_T and PEER_T, in µs. -/
def State.offloadTimes (s : State) (i : Image) : Nat × Nat := (bitsOf (s.envW i 3) 0 32, bitsOf (s.envW i 3) 32 32)

/-! ### Measurements (R364) -/

/-- R364: 1, but 0 while the host is lost or the link is down: rate_h is 0 then. -/
def State.hostUp (s : State) : Nat := bit (s.on Reg.HIF_STATUS.LINK_UP && !s.on Reg.HIF_STATUS.HOST_LOST)

/-- R364: the rate measured last, or the rate the plan assumes before any measurement, in MB/s. -/
def State.rateHost (s : State) : Nat := s.rateH.getD (bitsOf (s.planW 8) 0 32)
def State.ratePeer (s : State) : Nat := s.rateP.getD (bitsOf (s.planW 8) 32 32)

/-- R381: CRS_PLC_RATE reports both rates; what HOST_MBS reads as also follows the host link (`State.readField`). -/
def State.reportRates (s : State) : State :=
  s.setFs [(Reg.CRS_PLC_RATE.HOST_MBS, s.rateHost), (Reg.CRS_PLC_RATE.PEER_MBS, s.ratePeer)]

/-- R364: bytes moved over the ns in which an access was outstanding, in whole MB/s; a course that moved none leaves the rate. -/
def newRate (bytes ns : Nat) (old : Option Nat) : Option Nat := if bytes = 0 ∨ ns = 0 then old else some (bytes * 1000 / ns)

/-- R364: a completed course gives the rates of the next, and the stored lengths of its save points are kept for the 16 pairs run last. -/
def State.measure (s : State) (c : Course) : State :=
  let rest := s.predHist.filter fun h => !(decide (h.1 = c.img.idx) && decide (h.2.1 = c.img.envIdx))
  { s with
    rateH := newRate c.hostMoved c.hostBusy s.rateH
    rateP := newRate c.peerMoved c.peerBusy s.rateP
    predHist := ((c.img.idx, c.img.envIdx, s.saves.map SavePt.stored) :: rest).take 16 }.reportRates

/-- R364: pred of save point `i`, in bytes. -/
def State.predOf (s : State) (img : Image) (i : Nat) (e : EnvSave) : Nat :=
  match s.predHist.find? fun h => decide (h.1 = img.idx ∧ h.2.1 = img.envIdx) with
  | some h => h.2.2.getD i e.len
  | none => e.len

/-! ### The planner (R364) -/

/-- What the planner has used: pool bytes, and what is left of HOST_T and PEER_T, in µs. -/
structure Budget where
  off : Nat
  th : Rat
  tp : Rat

/-- One save point to plan: its index, entry and pred. -/
structure Cand where
  i : Nat
  e : EnvSave
  pred : Nat

/-- R364: a comes before b: keys decreasing, a pred of 0 before every finite key, equal keys by increasing index. -/
def Cand.before (a b : Cand) : Bool :=
  if a.pred = 0 then (if b.pred = 0 then decide (a.i ≤ b.i) else true)
  else if b.pred = 0 then false
  else
    let x := a.e.recomp * b.pred
    let y := b.e.recomp * a.pred
    if x = y then decide (a.i ≤ b.i) else decide (y < x)

/-- R361, R364: ALLOW is KEEP alone. -/
def EnvSave.keepOnly (e : EnvSave) : Bool := decide (e.allow = 1)

/-- R364: room planned for a save point in the pool. -/
def Cand.slotSize (x : Cand) (head : Nat) : Nat :=
  if x.e.allow.testBit 1 || x.e.allow.testBit 2 then min x.e.len (ceilDiv (x.pred * (16 + head)) 65536 * 4096) else x.e.len

/-- R364: `2 × pred / rate` is within a time; a rate of 0 makes it infinite. -/
def affordable (pred rate : Nat) (t : Rat) : Option Rat :=
  if rate = 0 then none
  else
    let c : Rat := mkRat (2 * pred : Nat) rate
    if c ≤ t then some c else none

/-- R364: one save point decided: decision, slot, size, and the budget left. -/
def Cand.decide (x : Cand) (head pool rh rp : Nat) (b : Budget) : (Decision × Nat × Nat) × Budget :=
  let size := x.slotSize head
  if x.e.allow.testBit 0 && Nat.ble (b.off + size) pool then ((.keep, b.off, size), { b with off := b.off + size })
  else match if x.e.allow.testBit 1 then affordable x.pred rh b.th else none with
    | some c => ((.host, 0, 0), { b with th := b.th - c })
    | none => match if x.e.allow.testBit 2 then affordable x.pred rp b.tp else none with
      | some c => ((.peer, 0, 0), { b with tp := b.tp - c })
      | none => ((.discard, 0, 0), b)

/-- R365: a planned save point; `base` is POOL_BASE and PEER_BASE of the plan in force. -/
def Cand.point (x : Cand) (base : Nat × Nat) (d : Decision × Nat × Nat) : SavePt :=
  { pool := base.1, peer := base.2, off := x.e.off, len := x.e.len, allow := x.e.allow, dec := d.1, slot := d.2.1, size := d.2.2, pred := x.pred, stored := 0, lost := false,
    outcome := 5 }

/-- The save points in the planner's order. -/
def planAll (base : Nat × Nat) (head pool rh rp : Nat) : List Cand → Budget → List (Nat × SavePt) × Budget
  | [], b => ([], b)
  | x :: t, b =>
    let r := x.decide head pool rh rp b
    let u := planAll base head pool rh rp t r.2
    ((x.i, x.point base r.1) :: u.1, u.2)

/-- R364: save points whose ALLOW is KEEP alone are kept first, whatever the pool; admission has checked that they fit. -/
def planKeeps (base : Nat × Nat) : List Cand → Nat → List (Nat × SavePt) × Nat
  | [], off => ([], off)
  | x :: t, off =>
    let u := planKeeps base t (off + x.e.len)
    ((x.i, x.point base (.keep, off, x.e.len)) :: u.1, u.2)

/-- R365: the point that the step holds for an extent, if any. -/
def holds (held : List SavePt) (e : EnvSave) : Option SavePt :=
  held.find? fun p => Nat.beq p.off e.off && (Nat.beq p.len 0 == Nat.beq e.len 0)

/-- R365: a held point as a later course of its step sees it: not reloaded yet. -/
def SavePt.again (p : SavePt) : SavePt := { p with outcome := 5 }

/-- R381: save points of each decision at this planning. -/
def State.countPlan (s : State) : State :=
  let n := fun d : Decision => (s.saves.filter fun p => decide (p.dec = d)).length
  s.setFs [(Reg.CRS_PLC_LAST.KEEP, n .keep), (Reg.CRS_PLC_LAST.HOST, n .host), (Reg.CRS_PLC_LAST.PEER, n .peer),
    (Reg.CRS_PLC_LAST.DISCARD, n .discard)]

/-- R364, R365, R381: the planner decides every save point of the course about to run; a running step's points stay where they are. -/
def State.plan (s : State) (img : Image) : State :=
  let held := s.saves ++ s.heldSaves
  let rh := s.hostUp * s.rateHost
  let rp := s.ratePeer
  let es := (s.envSaves img).zipIdx
  let fresh := (es.filter fun x => (holds held x.1).isNone).map fun x => (⟨x.2, x.1, s.predOf img x.2 x.1⟩ : Cand)
  let old := es.filterMap fun x => (holds held x.1).map fun p => (x.2, p.again)
  let base := (s.poolBase, s.peerBase)
  let ks := planKeeps base (fresh.filter fun x => x.e.keepOnly) s.poolHeld
  let ts := s.offloadTimes img
  let b : Budget := ⟨ks.2, mkRat ts.1 1, mkRat ts.2 1⟩
  let ps := planAll base (bitsOf (s.planW 6) 16 4) s.poolLen rh rp ((fresh.filter fun x => !x.e.keepOnly).mergeSort Cand.before) b
  let all := old ++ ks.1 ++ ps.1
  let sorted : List (Nat × SavePt) := all.mergeSort fun a b => Nat.ble a.1 b.1
  let named := old.map fun x => x.2
  let s := { s with
    saves := sorted.map Prod.snd
    heldSaves := held.filter fun p => !named.contains p.again
    poolHeld := ps.2.off }
  let s := (s.setF Reg.CRS_PLC_POOL.USED (ps.2.off / 4096)).countPlan.reportRates
  match s.course with
  | none => s
  | some c =>
    let c' : Course := { c with rateH := rh, rateP := rp, poolUsed := ps.2.off }
    { s with course := some c' }

/-- R365: every slot of the step is released. -/
def State.releaseSaves (s : State) : State := { s with saves := [], heldSaves := [], poolHeld := 0 }

end Sys2Proof.Machine
end

