-- ==== Sys2Proof/Machine/Link.lean ====
section
/-! DEFINITION. Fjostlink below the timetable (R428 to R438, R459, R460): flits and their acknowledgement and replay, bring-up, lane maps and
lane repair, port loss, fail notices, and peer requests served. -/

namespace Sys2Proof.Machine

/-! ### Lane maps (R32, R435, R438) -/

/-- Physical lane `l` of port `p` holds logical lane `k`. -/
def State.laneHolds (s : State) (p l k : Nat) : Bool :=
  decide (s.getF (Reg.LNK_LANE_STAT.STATE p l) = 0 ∧ s.getF (Reg.LNK_LANE_STAT.LOGICAL p l) = k)

/-- Logical lane `k` of port `p` is filled. -/
def State.laneFilled (s : State) (p k : Nat) : Bool := (List.range 18).any fun l => s.laneHolds p l k

/-- Logical lanes of a port in service. -/
def State.lanesFilled (s : State) (p : Nat) : Nat := ((List.range 16).filter fun k => s.laneFilled p k).length

/-- R437: a physical lane is marked failed. -/
def State.failLane (s : State) (p l : Nat) : State :=
  let s := s.setFs [(Reg.LNK_LANE_STAT.STATE p l, 2), (Reg.LNK_LANE_STAT.LOGICAL p l, 0x1F)]
  let x := s.port p
  s.setPort p { x with failed := insertSorted l x.failed }

/-- R32, R435: logical lane `k` gets the free spare of lowest number when it is not filled. -/
def State.spareLane (s : State) (p k : Nat) : State :=
  if s.laneFilled p k then s else
  match (List.range 18).find? fun l => s.getF (Reg.LNK_LANE_STAT.STATE p l) = 1 with
  | none => s
  | some l => s.setFs [(Reg.LNK_LANE_STAT.STATE p l, 0), (Reg.LNK_LANE_STAT.LOGICAL p l, k), (laneMapFld p k, l)]

/-- R464: FREE and DEGRADED of a port, and LANES while it is up. -/
def State.countPort (s : State) (p : Nat) : State :=
  let n := s.lanesFilled p
  s.setFs [(Reg.LNK_STAT.FREE p, ((List.range 18).filter fun l => s.getF (Reg.LNK_LANE_STAT.STATE p l) = 1).length),
    (Reg.LNK_STAT.DEGRADED p, bit (decide (n < 16))), (Reg.LNK_STAT.LANES p, if s.on (Reg.LNK_STAT.UP p) then n else 0)]

/-- R40: LANE_FREE follows the ports. -/
def State.countLanes (s : State) : State :=
  s.setF Reg.GEN_SPARES.LANE_FREE ((List.range 32).map fun p => s.getF (Reg.LNK_STAT.FREE p)).sum

/-- R435: the lane map both ends compute from the union of failed lanes is committed; SPARE_VER rises when it changes. -/
def State.mapLanes (s : State) (p : Nat) (failed : List Nat) : State :=
  let t := s.each (failed.filter fun l => decide (l < 18)) fun s l => s.failLane p l
  let u := ((t.each (List.range 16) fun s k => s.spareLane p k).countPort p).countLanes
  if u.lanesFilled p = t.lanesFilled p then u else u.bumpSpareVer

/-- R438: physical lanes of a port that train: those not failed, nor marked failed by either end. -/
def State.lanesTrained (s : State) (p : Nat) : Nat :=
  ((List.range 18).filter fun l =>
    decide (s.getF (Reg.LNK_LANE_STAT.STATE p l) ≠ 2) && !(s.port p).failed.contains l).length

/-! ### Bring-up (R433, R434, R438) -/

/-- R434: a step of bring-up fails: it starts again from step 1, and after the third failure the port stays down. -/
def State.bringUpFail (s : State) (p step : Nat) : State :=
  let x := s.port p
  let stop := decide (3 ≤ x.fails + 1)
  (s.setFs [(Reg.LNK_STAT.TRAIN_ERR p, 1), (Reg.LNK_STAT.TRAIN_STEP p, step), (Reg.LNK_STAT.TRAINING p, bit !stop)]).setPort p
    { x with fails := x.fails + 1, step := if stop then 0 else 1 }

/-- R433: bring-up starts. -/
def State.startBringUp (s : State) (p : Nat) : State :=
  (s.setFs [(Reg.LNK_STAT.UP p, 0), (Reg.LNK_STAT.LANES p, 0), (Reg.LNK_STAT.TRAINING p, 1), (Reg.LNK_STAT.REPAIR_PEND p, 0)]).setPort p
    { Port.fresh with
      failed := (s.port p).failed, mapVer := (s.port p).mapVer, mapDue := (s.port p).mapDue, adopted := (s.port p).adopted,
      base := (s.port p).base, step := 1 }

/-- R433, R437: a write to LNK_CTRL. EN at 1 brings a port that is down up, with the lanes the other end marks failed; EN at 0 takes it down,
which sets no fault bit. A port whose quiesce target is powered down stays down. -/
def writeLnkCtrl (p : Nat) (far : List Nat) (v : Nat) (s : State) : State :=
  if 32 ≤ p then s else
  let was := s.on (Reg.LNK_CTRL.EN p)
  let s := s.setFs [(Reg.LNK_CTRL.EN p, v), (Reg.LNK_CTRL.BEAT_OUT p, v / 2), (Reg.LNK_CTRL.UCW_LIMIT p, v / 2 ^ 8),
    (Reg.LNK_CTRL.CSYM_LIMIT p, v / 2 ^ 16)]
  if v % 2 = 0 then (if was then s.portOff p else s)
  else if s.on (Reg.LNK_STAT.UP p) || decide ((s.port p).step ≠ 0) || decide ((s.target (0x40 + p)).gate ≠ .opened) then s
  else
    let x := s.port p
    (s.setPort p { x with failed := far.foldl (fun l k => insertSorted k l) x.failed }).startBringUp p
/-- The row of a write to LNK_CTRL of port `p`; `far` are the lanes the other end marks failed. -/
def execPortBringUp (p : Nat) (v : W32) (far : List Nat) (s : State) : Out :=
  onCore (fun s => s.gated (0x3800000 + p * 0x10000) (writeLnkCtrl p far v.toNat)) s

/-- R434: step `step` of a bring-up exceeds its limit. -/
def bringUpStepTimeout (p step : Nat) (s : State) : State :=
  if 32 ≤ p ∨ (s.port p).step = 0 ∨ 7 ≤ (s.port p).step ∨ step < 1 ∨ 5 < step then s else s.bringUpFail p step
def execBringUpStepTimeout (p step : Nat) (s : State) : Out := onCore (bringUpStepTimeout p step) s

/-- R431, R433 step 5: the module's half of the HELLO exchange: LNK_ID, port number and PWRDOM. Flits flow, and are numbered, from step 6 on. -/
def State.sendHello (s : State) (p : Nat) : State :=
  let body := (Config.helloBody (s.getF (Reg.LNK_ID.LOCAL_ID p)) p (s.getF Reg.GEN_STRAP.PWRDOM)).take 196
  let f : Flit := ⟨0, 5, 0, (s.port p).rxSeq, false, false, leBytes 4 5 ++ body ++ List.replicate (196 - body.length) 0⟩
  { s with flitOut := s.flitOut ++ [(p, f)] }

/-- R433 steps 3 and 5, R434, R435, R438: the lane map is adopted, the HELLO exchange ends, and the latency is measured. `lanes`: physical
lanes that failed to train, or that the other end marks failed. The map is committed at a ridge (R31). Fewer than 8 lanes trained fails
step 3; a latency above 2,000 ns fails step 5. -/
def hello (p : Nat) (id : W64) (port pwrdom latency : Nat) (lanes : List Nat) (s : State) : State :=
  if 32 ≤ p ∨ (s.port p).step ≠ 1 then s else
  let x := s.port p
  let bad := (lanes.filter fun l => decide (l < 18)).foldl (fun l k => insertSorted k l) x.failed
  let s := s.setPort p { x with failed := bad, mapDue := true, adopted := bad }
  if s.lanesTrained p < 8 then s.bringUpFail p 3 else
  let s := (s.sendHello p).setFs [(Reg.LNK_PARTNER.PARTNER_ID p, id.toNat), (Reg.LNK_PARTNER2.PORT p, port), (Reg.LNK_PARTNER2.PWRDOM p, pwrdom),
    (Reg.LNK_LAT.ONEWAY_NS p, latency)]
  if 2000 < latency then s.bringUpFail p 5 else
  let x := s.port p
  s.setPort p { x with step := 6 }
def execHello (p : Nat) (id : W64) (port pwrdom : Nat) (x : HelloEnd) (s : State) : Out :=
  onCore (hello p id port pwrdom x.latency x.lanes) s

/-- R436: the error counts of a lane, UCW and CSYM. -/
def State.laneErrs (s : State) (p l : Nat) : Nat × Nat := (s.getF (Reg.LNK_LANE_ERR.UCW p l), s.getF (Reg.LNK_LANE_ERR.CSYM p l))

/-- R433 step 6, R438: the port is up with the lanes that have trained, degraded when they do not fill its logical lanes; errors count for its
lanes from here on (R436). -/
def State.portUp (s : State) (p : Nat) : State :=
  let x := s.port p
  let base := (List.range 18).foldl (fun m l => SMap.put (0, 0) l (s.laneErrs p l) m) []
  (s.setFs [(Reg.LNK_STAT.UP p, 1), (Reg.LNK_STAT.TRAINING p, 0), (Reg.LNK_STAT.LANES p, min 16 (s.lanesTrained p)),
    (Reg.LNK_STAT.DEGRADED p, bit (decide (s.lanesTrained p < 16)))]).setPort p
    { x with step := 0, fails := 0, base := base }

/-- R433, R434: bring-up completes; while courses are enabled the port is up from the next ridge. -/
def bringUpDone (p : Nat) (s : State) : State :=
  if 32 ≤ p ∨ (s.port p).step ≠ 6 then s
  else if s.on Reg.CRS_CTRL.ENABLE then let x := s.port p; s.setPort p { x with step := 7 }
  else s.portUp p
def execBringUpDone (p : Nat) (s : State) : Out := onCore (bringUpDone p) s

/-! ### Port loss (R437) -/

/-- R439, R462, R495: a timetable of the active set reaches the partner through port `p`. -/
def State.partnerPort (s : State) (p : Nat) : Bool :=
  (List.range (s.getF Reg.CRS_ACT_TTAB.COUNT + 1)).any fun i => (List.range (s.ttSlots i)).any fun e =>
    Nat.beq (s.slotE i e).port p && Nat.beq (s.slotE i e).peer (s.getF Reg.SVL_PAIR.PARTNER)

/-- R495: the partner has failed: the points that it pushes are given up when the next course opens. -/
def State.partnerLost (s : State) : State := { s with fills := s.fills.map fun f => if f.push then { f with lost := true } else f }

/-- R437, R495: an up port goes down: it is counted with its cause, bring-up starts again, and bit 28 + (p div 8) rises. The loss of a port
that reaches the partner, which is how a reset or an end of that module shows (R462), is its failure (DEDUCED, assumption 82). -/
def State.portDown (s : State) (p cause : Nat) : State :=
  let s := (s.bump (Reg.LNK_DOWN.DOWNS p) 1).setF (Reg.LNK_DOWN.CAUSE p) cause
  let s := if (s.fills.any fun f => f.push) && s.partnerPort p then s.partnerLost else s
  (s.startBringUp p).raiseLine (28 + p / 8)

/-- R437: a lane loses signal or lock (its number given), or deskew or FEC lock is lost. -/
def portDown (p : Nat) (lane : Option Nat) (s : State) : State :=
  if 32 ≤ p ∨ !s.on (Reg.LNK_STAT.UP p) then s else
  match lane with
  | some l =>
    if 18 ≤ l then s
    else ((s.bump (Reg.LNK_LANE_ERR.LOS p l) 1).failLane p l).portDown p 1
  | none => s.portDown p 3
def execPortDown (p : Nat) (lane : Option Nat) (s : State) : Out := onCore (portDown p lane) s

/-! ### Flits (R429 to R431, R449) -/

/-- R429, R430: a received flit is good: its codeword, its CRC and its type. -/
def rxGood (f : RxFlit) : Bool :=
  f.codeword && decide (f.payload.length = 200) && decide (crc32 (f.payload ++ leBytes 4 f.trailer.toNat) = wbits f.trailer 32 32) &&
  !([4, 6, 7].contains (wbits f.trailer 25 3))

def rxFseq (f : RxFlit) : Nat := wbits f.trailer 0 12
def rxAck (f : RxFlit) : Nat := wbits f.trailer 12 12
def rxNak (f : RxFlit) : Bool := wbits f.trailer 24 1 = 1
def rxFtype (f : RxFlit) : Nat := wbits f.trailer 25 3

/-- R430: flits up to the one acknowledged leave the replay buffer. -/
def acked (a : Nat) (fs : List (Flit × Nat)) : List (Flit × Nat) :=
  match fs.findIdx? fun x => x.1.fseq = a with
  | some i => fs.drop (i + 1)
  | none => fs

/-- R429: the trailer of a flit below its CRC. -/
def Flit.head (f : Flit) : Nat := f.fseq % 4096 + f.ack % 4096 * 2 ^ 12 + bit f.nak * 2 ^ 24 + f.ftype % 8 * 2 ^ 25

/-- R429, R518: the 208 bytes of a flit: its payload and its trailer, with the CRC of both, inverted by an injection. -/
def Flit.bytes (f : Flit) : List Byte :=
  let c := crc32 (f.payload ++ leBytes 4 f.head)
  f.payload ++ leBytes 8 (f.head + (if f.badCrc then 2 ^ 32 - 1 - c else c) * 2 ^ 32)

/-- R428, R430: every flit that waits for acknowledgement is sent again in order, dealt over the lanes afresh; the eighth replay of one takes
the port down. -/
def State.replayAll (s : State) (p : Nat) : State :=
  let x := s.port p
  let fs := x.replay.mapIdx fun i (e : Flit × Nat) => ({ e.1 with lane := (x.lane + i) % 16, badCrc := false }, e.2 + 1)
  let s := { s.setPort p { x with replay := fs, lane := (x.lane + fs.length) % 16 } with flitOut := s.flitOut ++ fs.map fun e : Flit × Nat => (p, e.1) }
  let s := s.bump (Reg.LNK_RETRY.REPLAYS p) fs.length
  if fs.any fun e => decide (8 ≤ e.2) then s.portDown p 2 else s

/-- R449: the outgoing port of a FORWARD entry that relays what arrives on port `p` now; aperture flits also go the other way. -/
def State.forwardTo (s : State) (p : Nat) (aperture : Bool) : Option Nat :=
  match s.course with
  | none => none
  | some c =>
    if c.failed then none else
    (s.slotsOf c.img).zipIdx.findSome? fun x =>
      let st := c.slots.getD x.2 SlotSt.fresh
      if x.1.kind ≠ 7 ∨ !st.header ∨ st.completed then none
      else if x.1.port = p then some x.1.fwd
      else if aperture ∧ x.1.fwd = p then some x.1.port
      else none

/-- R431, R449: an accepted flit: a reserved idle flit is dropped and counted, and a flit of a forwarded transfer goes on. -/
def State.acceptFlit (s : State) (p : Nat) (f : RxFlit) : State :=
  let itype := (f.payload.headD 0).toNat
  if rxFtype f = 5 then (if 6 ≤ itype then s.bump (Reg.LNK_IDLEDROP.COUNT p) 1 else s)
  else if rxFtype f = 1 then s
  else match s.forwardTo p (decide (rxFtype f = 2 ∨ rxFtype f = 3)) with
    | some q => s.sendFlit q (rxFtype f) f.payload
    | none => s

/-- R431: an idle flit of ITYPE 0x00 acknowledges an accepted flit when the port has nothing else to send; `s` is the state before. The endless
run of such flits on an idle lane is not modelled: one answers each flit that is not itself one (DESIGN CHOICE, assumption 83). -/
def State.ackIdle (t s : State) (p : Nat) (f : RxFlit) : State :=
  if (rxFtype f = 5 ∧ f.payload.headD 0 = 0) ∨ t.flitOut.length ≠ s.flitOut.length ∨ !(t.port p).wait.isEmpty ∨ !t.on (Reg.LNK_STAT.UP p) then t
  else t.sendFlit p 5 []

/-- R429 to R431: a flit arrives on port `p`. What an accepted flit carries acts through the rows of its type. -/
def flitReceive (p : Nat) (f : RxFlit) (s : State) : State :=
  if 32 ≤ p ∨ !s.on (Reg.LNK_STAT.UP p) then s else
  let s := if f.lane < 18 then
      (s.bump (Reg.LNK_LANE_ERR.CSYM p f.lane) f.csym).bump (Reg.LNK_LANE_ERR.UCW p f.lane) (bit !f.codeword)
    else s
  if !rxGood f then s.sendFlitN true p 5 [] else
  let x := s.port p
  let next := decide (rxFseq f = (x.rxSeq + 1) % 4096)
  let s := s.setPort p { x with replay := acked (rxAck f) x.replay, rxSeq := if next then rxFseq f else x.rxSeq }
  let u := s.drainFlits p (s.port p).wait
  let u := if next then u.acceptFlit p f else u
  let u := if rxNak f then u.replayAll p else u
  if next then u.ackIdle s p f else u
def execFlitReceive (p : Nat) (f : RxFlit) (s : State) : Out := onCore (flitReceive p f) s

/-! ### Lane repair (R436) -/

/-- R436: the beat number, 32 bits, of the module's next ridge. -/
def State.nextRidgeBeat (s : State) : Nat :=
  (s.getF Reg.CRS_BEAT_COUNT.BEATS + (match s.course with | some c => max 1 c.beatsLeft | none => 1)) % 2 ^ 32

/-- R431: the payload of LANE_PROPOSE (ITYPE 3) and LANE_ACCEPT (ITYPE 4). -/
def lanePayload (itype version beat : Nat) (lanes : List Nat) : List Byte :=
  leBytes 4 itype ++ leBytes 4 version ++ leBytes 4 beat ++ leBytes 3 (lanes.map fun l => 2 ^ l).sum

/-- R436: the port announces its next ridge with the lanes it holds failed. -/
def State.announce (s : State) (p itype : Nat) : State :=
  let x := s.port p
  let b := s.nextRidgeBeat
  (s.setPort p { x with sent := some (x.mapVer + 1, b) }).sendFlit p 5 (lanePayload itype (x.mapVer + 1) b x.failed)

/-- R436: lanes the partner names failed join the union, with the number it announces. -/
def State.heard (s : State) (p version beat : Nat) (lanes : List Nat) : State :=
  let x := s.port p
  (s.setF (Reg.LNK_STAT.REPAIR_PEND p) 1).setPort p
    { x with recv := some (version, beat), failed := (lanes.filter fun l => decide (l < 18)).foldl (fun l k => insertSorted k l) x.failed }

/-- R436: a LANE_PROPOSE arrives: the partner is answered with LANE_ACCEPT. -/
def lanePropose (p version beat : Nat) (lanes : List Nat) (s : State) : State :=
  if 32 ≤ p ∨ !s.on (Reg.LNK_STAT.UP p) then s else (s.heard p version beat lanes).announce p 4
def execLanePropose (p version beat : Nat) (lanes : List Nat) (s : State) : Out := onCore (lanePropose p version beat lanes) s

/-- R436: a LANE_ACCEPT arrives. -/
def laneAccept (p version beat : Nat) (lanes : List Nat) (s : State) : State :=
  if 32 ≤ p ∨ !s.on (Reg.LNK_STAT.UP p) ∨ (s.port p).sent.isNone then s else s.heard p version beat lanes
def execLaneAccept (p version beat : Nat) (lanes : List Nat) (s : State) : Out := onCore (laneAccept p version beat lanes) s

/-- R436, R540: at a ridge of beat number `b` that both ends have announced, the new map is applied and the repair runs, unless a fatal rise
came before. -/
def State.repairPort (s : State) (b p : Nat) : State :=
  let x := s.port p
  if s.on (Reg.LNK_STAT.UP p) && s.power.fatal.isNone && decide (x.sent.map (·.2) = some b ∧ x.recv.map (·.2) = some b) then
    let s := s.mapLanes p x.failed
    let y := s.port p
    (s.setFs [(Reg.LNK_STAT.REPAIR_PEND p, 0), (Reg.LNK_STAT.TRAINING p, 1)]).setPort p
      { y with sent := none, recv := none, mapVer := x.mapVer + 1, step := 8 }
  else s

/-- R31, R434, R435: the lane map adopted in a bring-up is committed at a ridge, and a port that waits for that comes up. Lanes that became
repair-pending since, or that the partner has proposed, keep serving until their own common ridge (R462). -/
def State.ridgeUp (s : State) (p : Nat) : State :=
  let s := if (s.port p).mapDue && s.power.fatal.isNone then
      let s := s.mapLanes p (s.port p).adopted
      s.setPort p { s.port p with mapDue := false, adopted := [] }
    else s
  if (s.port p).step = 7 && !(s.port p).mapDue then s.portUp p else s

/-- R436: a lane whose errors, counted over the wrap of their counters, rose past a limit in the window that the ridge closes becomes repair-pending; the next window counts from here. -/
def State.judgeLane (s : State) (closes : Bool) (p l : Nat) : State :=
  let x := s.port p
  let b := SMap.look (0, 0) l x.base
  let e := s.laneErrs p l
  let bad := closes && s.on (Reg.LNK_STAT.UP p) && decide (s.getF (Reg.LNK_LANE_STAT.STATE p l) = 0) &&
    decide (s.getF (Reg.LNK_CTRL.UCW_LIMIT p) < (e.1 + 2 ^ 16 - b.1) % 2 ^ 16 ∨ s.getF (Reg.LNK_CTRL.CSYM_LIMIT p) < (e.2 + 2 ^ 32 - b.2) % 2 ^ 32)
  let y : Port := { x with base := SMap.put (0, 0) l e x.base, failed := if bad then insertSorted l x.failed else x.failed }
  let s := s.setPort p y
  if bad then s.setF (Reg.LNK_STAT.REPAIR_PEND p) 1 else s

/-- R436: the ports of repair-pending lanes announce the next ridge. -/
def State.proposePort (s : State) (p : Nat) : State :=
  if s.on (Reg.LNK_STAT.UP p) && s.on (Reg.LNK_STAT.REPAIR_PEND p) then s.announce p 3 else s

/-- R436: the repairs of a ridge interval have ended in time. -/
def State.repairsEnd (s : State) : State :=
  s.each (List.range 32) fun s p =>
    let x := s.port p
    if x.step = 8 then (s.setF (Reg.LNK_STAT.TRAINING p) 0).setPort p { x with step := 0 } else s

/-- R436, R437: 20 µs after the ridge a port under repair is not up: it is down. -/
def laneRepairTimeout (p : Nat) (s : State) : State :=
  if 32 ≤ p ∨ (s.port p).step ≠ 8 then s else s.portDown p 3
def execLaneRepairTimeout (p : Nat) (s : State) : Out := onCore (laneRepairTimeout p) s

/-! ### Fail notices (R458) -/

/-- R458: a FAIL for this module's timetable and current course: the first is relayed on every other port that is up, and the course fails
with 0x87, unless it has failed already; CRS_LNK_NOTICE records the notice that failed it (R466). -/
def failNotice (p ttId counter pos : Nat) (s : State) : State :=
  match s.course with
  | none => s
  | some c =>
    if 32 ≤ p ∨ !s.on (Reg.LNK_STAT.UP p) ∨ c.relayed ∨ !c.img.hasTt ∨ s.ttId c.img.ttIdx ≠ ttId ∨ c.counter % 2 ^ 32 ≠ counter then s else
    let c' : Course := { c with relayed := true }
    let s := { s with course := some c' }.each (s.upPorts.filter (· ≠ p)) fun s q => s.sendFlit q 5 (failPayload ttId counter pos)
    if c.failed then s
    else (s.setFs [(Reg.CRS_LNK_NOTICE.POS, pos), (Reg.CRS_LNK_NOTICE.VALID, 1), (Reg.CRS_LNK_NOTICE.COURSE, counter)]).failCourse 0x87
def execFailNotice (p ttId counter pos : Nat) (s : State) : Out := onCore (failNotice p ttId counter pos) s

/-! ### Peer requests (R460) -/

/-- R460: the range served to peers. -/
def State.exposed (s : State) (addr len : Nat) : Bool :=
  let b := s.getF Reg.CRS_LNK_EXPOSE.BASE * 4096
  decide (b ≤ addr ∧ addr + len ≤ b + s.getF Reg.CRS_LNK_EXPLEN.PAGES * 4096 ∧ addr + len ≤ s.hbmCap)

/-- R460: a peer's load or store is served from HBM, or refused. -/
def peerApertureRequest (p addr len : Nat) (store : Option (List Byte)) (s : State) : State :=
  if 32 ≤ p ∨ !s.on (Reg.LNK_STAT.UP p) then s else
  let refuse := { s with peerOut := s.peerOut ++ [.refused p] }
  match store with
  | some bs =>
    if s.exposed addr bs.length then { s.writeHbm addr bs with peerOut := s.peerOut ++ [.served p []] } else refuse
  | none =>
    if !s.exposed addr len then refuse else
    let r := s.readQuiet addr len
    let m : PeerMsg := if r.2.1 then .refused p else .served p r.1
    { r.2.2 with peerOut := s.peerOut ++ [m] }
def execPeerApertureRequest (p addr len : Nat) (store : Option (List Byte)) (s : State) : Out :=
  onCore (peerApertureRequest p addr len store) s

/-- R460: the reply to a request of this module. -/
def execPeerApertureReply (tag : Nat) (ans : FarAns) (s : State) : Out := onCore (peerReply tag ans) s

end Sys2Proof.Machine
end

