-- ==== Sys2Proof/Machine/Survival.lean ====
section
/-! DEFINITION. Restore points built and sealed (R470 to R473), the sarking stream (R479 to R487), SNAPSHOT and HOST_COPY (R476, R488 to
R493, R496). -/

namespace Sys2Proof.Machine

/-! ### Building and sealing (R470 to R473) -/

/-- R471: the blocks of a build from block 2: ledger, and the copy PAR of the HBM state region. -/
def State.buildBytes (s : State) (r : Nat) : List Byte :=
  let n := bitsOf (s.recipeW r 0) 0 16
  let h := s.hState r
  padPages (s.peek (s.ledgerAddr 0) ((n + 1) * 128)) (ledgerPages n) ++
  padPages (s.peek (h.1 + s.getF Reg.CRS_NUM_STATE.PAR * h.2) h.2) (ceilDiv h.2 4096)

/-- R342, R471: the reads of a build, and whether one is uncorrectable. -/
def State.buildReads (s : State) (r : Nat) : Bool × State :=
  let n := bitsOf (s.recipeW r 0) 0 16
  let h := s.hState r
  let a := s.readQuiet (s.ledgerAddr 0) ((n + 1) * 128)
  let b := a.2.2.readQuiet (h.1 + s.getF Reg.CRS_NUM_STATE.PAR * h.2) h.2
  (a.2.1 || b.2.1, b.2.2)

/-- R470: the blocks, from 2, in which two slots of the save area differ. -/
def State.differing (s : State) (blocks : Nat) : List Nat :=
  (List.range blocks).filter fun i => decide (2 ≤ i ∧ s.peek (s.blockAddr 0 0 i) 4096 ≠ s.peek (s.blockAddr 0 1 i) 4096)

/-- R342, R470, R496: the blocks, from 2, of own slot `m` are read to be compared with those of a build, and whether one is uncorrectable. -/
def State.compareReads (s : State) (m blocks : Nat) : Bool × State :=
  let r := s.readQuiet (s.blockAddr 0 m 2) ((blocks - 2) * 4096)
  (r.2.1, r.2.2)

/-- The changed blocks recorded for own slot `n`. -/
def State.setChanged (s : State) (n : Nat) (bs : List Nat) : State :=
  if n = 0 then { s with changed0 := bs } else { s with changed1 := bs }
def State.changedOf (s : State) (n : Nat) : List Nat := if n = 0 then s.changed0 else s.changed1

/-- R470: at the opening ridge of a course with STEP_FIRST set, whether a point is built, and its blocks copied. -/
def State.buildDecision (s : State) (c : Course) : State :=
  if !s.on Reg.SVL_CTRL.EN || s.on Reg.SVL_STAT.VERIFY || !c.img.stepFirst then s
  else
  let s := s.holdStreams
  if (s.newestSlot 0).isSome && decide (s.stepsSince < max (s.getF Reg.SVL_CTRL.EVERY) 1) then s
  else
    let n := s.otherSlot 0
    if s.getF (Reg.SVL_SLOT.HOLD 0 n) ≠ 0 ∨ (s.hasReceiver ∧ s.slotState 0 n = 2 ∧ s.slotCourse 0 n = s.getF Reg.SVL_ACK.ACKED) then
      s.bump Reg.SVL_SKIPS.COUNT 1
    else if s.slotPages 0 * 4096 < 8192 + ledgerPages (bitsOf (s.recipeW c.img.recipeIdx 0) 0 16) * 4096 + (s.hState c.img.recipeIdx).2 then
      s.setF Reg.SVL_STAT.SIZE_ERR 1
    else
      let bs := s.buildBytes c.img.recipeIdx
      let r := s.buildReads c.img.recipeIdx
      let q := r.2.compareReads (1 - n) (s.recipeBlocks c.img.recipeIdx)
      let b : Build := ⟨n, c.counter, s.now, c.img.seed, s.getF Reg.CRS_PLC_LOGPOS.POS, s.getF Reg.CRS_NUM_STATE.PAR, c.img.recipeIdx, false,
        r.1 || q.1⟩
      let s := (q.2.setSlot 0 n 1 c.counter).writeHbm (s.blockAddr 0 n 2) bs
      let s := s.setChanged n (s.differing (s.recipeBlocks c.img.recipeIdx))
      { s with build := some b }

/-- R471: every block was copied at no more than STAGE_GBS by now. -/
def State.buildWhole (s : State) (b : Build) : Bool :=
  b.loss && decide ((s.recipeBlocks b.recipe - 2) * 4096 ≤ (s.now - b.start) * s.getF Reg.SVL_RATE.STAGE_GBS)

/-- R468: words 0 to 15 of a point's header; `tt` is TT_ID and POS, none with no timetable. -/
def State.pointHead (s : State) (b : Build) (committed : Bool) (tt : Option (Nat × Nat)) : List Byte :=
  let tensors := bitsOf (s.recipeW b.recipe 0) 0 16
  let h := s.hState b.recipe
  let t := tt.getD (0, 0)
  leBytes 8 (0x5A7E + 2 ^ 16 + bit committed * 2 ^ 24) ++ leBytes 8 (b.course % 2 ^ 48) ++ leBytes 8 b.seed.toNat ++ leBytes 8 b.logpos ++
  leBytes 8 (tensors + b.par % 2 * 2 ^ 16) ++ leBytes 8 h.1 ++ leBytes 8 h.2 ++
  leBytes 8 (ledgerPages tensors % 2 ^ 32 + t.1 % 2 ^ 32 * 2 ^ 32) ++
  leBytes 8 (t.2 % 4096 + s.getF Reg.SVL_PSTAT.OWN_DOM * 4096) ++ leBytes 8 s.stamp ++ leBytes 8 (s.getF Reg.SVL_LOSS.LEN) ++
  List.replicate 40 0

/-- R468: the header with its digest is written to the slot. -/
def State.writeHead (s : State) (b : Build) (committed : Bool) (tt : Option (Nat × Nat)) : State :=
  let h := s.pointHead b committed tt
  let rest := s.peek (s.blockAddr 0 b.slot 1) ((s.recipeBlocks b.recipe - 1) * 4096)
  s.writeHbm (s.slotAddr 0 b.slot) (padPages (h ++ digestOf h rest) 1)

/-! ### Flash (R491, R492) -/

/-- R491: pages of 4 KiB that flash holds for images: 7 TiB. -/
def flashPages : Nat := 7 * 2 ^ 40 / 4096

/-- R491: images erased oldest first, never the newest two, until a point fits; none when it does not. -/
def makeRoom (need : Nat) : List FlashImage → List FlashImage
  | [] => []
  | i :: t => if (i :: t).length ≤ 2 ∨ ((i :: t).map (·.pages)).sum + need ≤ flashPages then i :: t else makeRoom need t

/-- R498: SVL_FLASH follows the images. -/
def State.countFlash (s : State) : State :=
  s.setFs [(Reg.SVL_FLASH.NEWEST, match s.flash.images.getLast? with | some i => i.course | none => 0),
    (Reg.SVL_FLASH.IMAGES, s.flash.images.length)]

/-- The images of flash replaced. -/
def State.setImages (s : State) (is : List FlashImage) : State :=
  let f : Flash := { s.flash with images := is }
  { s with flash := f }.countFlash

/-- R490: an operation starts on a slot. -/
def State.startOp (s : State) (o : SvlOp) : State :=
  { s.setF (Reg.SVL_SLOT.HOLD o.area o.slot) (s.getF (Reg.SVL_SLOT.HOLD o.area o.slot) ||| 2 ^ holdBit o.kind) with svlOps := s.svlOps ++ [o] }

/-- R17, R491: the images that stay when a SAVE of point `c` makes room, and whether the point then fits. -/
def State.roomFor (s : State) (c need : Nat) : List FlashImage × Bool :=
  let is := makeRoom need (s.flash.images.filter fun i => i.course ≠ c)
  (is, decide ((is.map (·.pages)).sum + need ≤ flashPages))

/-- R17, R491: a SAVE of point `c` that finds no room: the images erased for it stay erased, and no other is. -/
def State.roomFails (s : State) (c need : Nat) : State :=
  s.setImages (s.flash.images.filter fun i => decide (i.course = c) || (s.roomFor c need).1.any fun k => decide (k.course = i.course))

/-- R16, R490, R491: a SAVE of a sealed slot starts, or finds flash too full. The images that make room for it go when it ends: a SAVE
that ends with 0xD0 or 0x79 takes no effect. -/
def State.startSave (s : State) (q : Option Req) (a n : Nat) : Option State × State :=
  let c := s.slotCourse a n
  if (s.roomFor c (s.headBlocks a n)).2 then (some (s.startOp ⟨q, 0, a, n, c, 0, 0, (2, c)⟩), s)
  else (none, s.roomFails c (s.headBlocks a n))

/-- R492: the interval of automatic saves. -/
def State.saveEvery (s : State) : Nat :=
  let n := s.getF Reg.SVL_CTRL.FLASH_EVERY
  if s.on Reg.SVL_PSTAT.SHARED then (n + 1) / 2 else n

/-- R492: a point was sealed: every interval it is saved, unless such a save still runs. -/
def State.autoSave (s : State) (n : Nat) : State :=
  let k := s.saveEvery
  if k = 0 then { s with flashCount := s.flashCount + 1 }
  else if s.flashCount + 1 < k then { s with flashCount := s.flashCount + 1 }
  else
    let s := { s with flashCount := 0 }
    if s.svlOps.any (fun o => o.req.isNone) ∨ (s.gateStatus 0x31).isSome then s
    else match s.startSave none 0 n with
      | (some t, _) => t
      | (none, t) => t

/-- R473, R496: at the closing ridge of a course the point being built is sealed when its step completed and every block was copied, and
otherwise its slot becomes EMPTY, or REJECTED after an uncorrectable read. `done` says whether the step completed, and whether it committed. -/
def State.sealBuild (s : State) (done : Option Bool) (tt : Option (Nat × Nat)) : State :=
  match s.build with
  | none => s
  | some b =>
    let whole := s.buildWhole b
    let s := { s with build := none }
    match done with
    | none => s.setF (Reg.SVL_SLOT.STATE 0 b.slot) 0
    | some committed =>
      if b.bad then s.rejectSlot 0 b.slot
      else if !whole then (s.setF (Reg.SVL_SLOT.STATE 0 b.slot) 0).bump Reg.SVL_ABANDON.COUNT 1
      else
        let s := (s.writeHead b committed tt).setSlot 0 b.slot 2 b.course
        let s := (s.bump Reg.SVL_POINTS.COUNT 1).pointSince b.slot (s.stepsDone - 1)
        s.countAck.autoSave b.slot

/-! ### Sark records (R481, R482) -/

structure SarkHdr where
  rtype : Nat
  push : Bool
  spos : Nat
  dom : Nat
  course : Nat
  base : Nat
  ack : Nat
  first : Nat
  deriving DecidableEq, Repr

/-- R482: the BASE of a full point. -/
def fullBase : Nat := 0xFFFFFFFFFFFF

/-- R482: a record's header and bitmap, with its CRC. -/
def sarkHead (h : SarkHdr) (bitmap : List Byte) : List Byte :=
  let w := leBytes 8 (h.rtype % 16 + bit h.push * 16 + h.spos % 4096 * 2 ^ 5 + h.dom % 16 * 2 ^ 17) ++ leBytes 8 (h.course % 2 ^ 48) ++
    leBytes 8 (h.base % 2 ^ 48) ++ leBytes 8 (h.ack % 2 ^ 48) ++ leBytes 8 (h.first % 2 ^ 32) ++ List.replicate 16 0
  w ++ leBytes 8 (crc32 (w ++ bitmap)) ++ bitmap

/-- R482: the header of a received record. -/
def sarkOf (bs : List Byte) : SarkHdr :=
  let w := fun i => leNat ((bs.drop (8 * i)).take 8)
  ⟨bitsOf (w 0) 0 4, (w 0).testBit 4, bitsOf (w 0) 5 12, bitsOf (w 0) 17 4, bitsOf (w 1) 0 48, bitsOf (w 2) 0 48, bitsOf (w 3) 0 48,
    bitsOf (w 4) 0 32⟩

/-- R482: the CRC of a received record; a BLOCKS record's covers its bitmap. -/
def sarkGood (bs : List Byte) : Bool :=
  let h := sarkOf bs
  let body := bs.take 56 ++ (if h.rtype = 1 then (bs.drop 64).take 64 else [])
  decide (64 ≤ bs.length ∧ (h.rtype = 1 ∨ h.rtype = 2 ∨ h.rtype = 3) ∧ crc32 body = leNat ((bs.drop 56).take 4))

/-- R482: the bitmap of the blocks of a group that a record carries. -/
def groupBitmap (first : Nat) (carried : List Nat) : List Byte :=
  leBytes 64 ((carried.filter fun i => decide (first ≤ i ∧ i < first + 512)).map fun i => 2 ^ (i - first)).sum

/-! ### Sending (R483, R487) -/

/-- R483: what goes to a receiver: the slot sent, its area, the base, the blocks carried. -/
structure SarkPlan where
  area : Nat
  slot : Nat
  course : Nat
  base : Nat
  carried : List Nat
  deriving DecidableEq, Repr

/-- R482: ACK of a record to position `pos`: the newest sealed point of that position that the partner area holds. -/
def State.ackTo (s : State) (pos : Nat) : Nat :=
  let of_ := fun n (src : Option Nat) => if s.slotState 1 n = 2 ∧ src = some pos then s.slotCourse 1 n else 0
  max (of_ 0 s.partSrc0) (of_ 1 s.partSrc1)

/-- R483: the plan for a receiver; none when only an acknowledgement is due. -/
def State.sarkPlan (s : State) (pos : Nat) : Option SarkPlan :=
  let partner := s.partnerOn && decide (pos = s.getF Reg.SVL_PAIR.PARTNER)
  let hot := s.on Reg.SVL_HOT.HOTEN && decide (pos = s.getF Reg.SVL_HOT.HOTPOS)
  if !partner && !hot then none else
  let ack := if partner then s.ackPartner else s.ackHot
  match s.newestSlot 0 with
  | none => none
  | some n =>
    let g := s.slotCourse 0 n
    if ack = g then none
    else if s.slotState 0 (1 - n) = 2 ∧ s.slotCourse 0 (1 - n) = ack then some ⟨0, n, g, ack, s.changedOf n⟩
    else some ⟨0, n, g, fullBase, (List.range (s.headBlocks 0 n)).filter fun i => decide (2 ≤ i)⟩

/-- R487: the plan of a push. -/
def State.pushPlan (s : State) : Option SarkPlan :=
  let c := s.getF Reg.SVL_PUSH.COURSE
  match (if c = 0 then s.newestSlot 1 else s.sealedSlot 1 c) with
  | none => none
  | some n => some ⟨1, n, s.slotCourse 1 n, fullBase, (List.range (s.headBlocks 1 n)).filter fun i => decide (2 ≤ i)⟩

/-- The FIRST values of the records of a plan, from a cursor on. -/
def SarkPlan.groups (p : SarkPlan) (cursor : Nat) : List Nat :=
  let top := p.carried.foldl max 0
  ((List.range (top / 512 + 1)).map (· * 512)).filter fun f => decide (cursor ≤ f) && p.carried.any fun i => decide (f ≤ i ∧ i < f + 512)

/-- The blocks of one group. -/
def SarkPlan.group (p : SarkPlan) (first : Nat) : List Nat := p.carried.filter fun i => decide (first ≤ i ∧ i < first + 512)

/-- The BLOCKS record of one group, its blocks read from HBM (R342). -/
def State.blocksRecord (s : State) (p : SarkPlan) (h : SarkHdr) (first : Nat) : List Byte × State :=
  let r := sendBlocks s p (p.group first) []
  (sarkHead { h with rtype := 1, first := first } (groupBitmap first p.carried) ++ r.1, r.2)
where
  /-- Blocks read in turn and sent. -/
  sendBlocks (s : State) (p : SarkPlan) : List Nat → List Byte → List Byte × State
    | [], acc => (acc, s)
    | i :: is, acc => let r := s.readSent (s.blockAddr p.area p.slot i) 4096; sendBlocks r.2 p is (acc ++ r.1)

/-- The records that fit in `room` bytes, and the FIRST values left. -/
def State.packRecords (s : State) (p : SarkPlan) (h : SarkHdr) : Nat → List Nat → List Byte → List Byte × List Nat × State
  | _, [], acc => (acc, [], s)
  | room, g :: gs, acc =>
    let n := 128 + 4096 * (p.group g).length
    if room < n then (acc, g :: gs, s)
    else let r := s.blocksRecord p h g; r.2.packRecords p h (room - n) gs (acc ++ r.1)

/-- R483, R487: the bytes a plan sends in `room` from its cursor, and the cursor after. -/
def State.planBytes (s : State) (p : SarkPlan) (h : SarkHdr) (cursor room : Nat) : List Byte × Nat × State :=
  if cursor = cursorEnd then ([], cursorEnd, s) else
  match s.packRecords p h room (p.groups cursor) [] with
  | (bs, g :: _, s) => (bs, g, s)
  | (bs, [], s) =>
    if room < bs.length + 64 + 8192 then (bs, cursorEnd - 1, s)
    else
      let r := s.readSent (s.slotAddr p.area p.slot) 8192
      (bs ++ sarkHead { h with rtype := 2, first := 0 } [] ++ r.1, cursorEnd, r.2)

/-- The header fields every record of this module carries. -/
def State.sarkBase (s : State) (own pos : Nat) (push : Bool) : SarkHdr :=
  ⟨3, push, own, s.getF Reg.SVL_PSTAT.OWN_DOM, 0, 0, s.ackTo pos, 0⟩

/-- R127, R481: the sarking function is enabled and not being powered down. -/
def State.sarkOn (s : State) : Bool := (s.getF Reg.HIF_FUNC_EN.EN).testBit 3 && (s.gateStatus 0x103).isNone

/-- R481, R483, R487: what a SARK send transfer to position `pos` carries: `own` is this module's position, `push` the slot's level 1. -/
def State.sarkSend (s : State) (own pos : Nat) (push : Bool) (room : Nat) : List Byte × State :=
  if !s.sarkOn then ([], s) else
  let h := s.sarkBase own pos push
  let ackOnly := sarkHead { h with push := false } []
  let send := fun (p : SarkPlan) (cursor : Nat) => s.planBytes p { h with course := p.course, base := p.base } cursor room
  let r : List Byte × State :=
    if push then
      match s.pushPlan with
      | none => ([], s)
      | some p =>
        let cur := match s.pushCursor with | some c => if c.1 = p.course then c.2 else 0 | none => 0
        let b := send p cur
        let u : State := { b.2.2 with pushCursor := some (p.course, b.2.1) }
        (b.1, u.holdStreams)
    else
      match s.sarkPlan pos with
      | none => (ackOnly, s)
      | some p =>
        let cur := match s.cursors.find? fun c => c.1 = pos with | some c => if c.2.1 = p.course then c.2.2 else 0 | none => 0
        let b := send p cur
        let u : State := { b.2.2 with cursors := (s.cursors.filter fun c => c.1 ≠ pos) ++ [(pos, p.course, b.2.1)] }
        (b.1, u.holdStreams)
  let bs := if r.1.isEmpty then ackOnly else r.1
  (bs, r.2.bump Reg.SVL_SARK_TX.BYTES bs.length)

/-! ### Receiving (R479, R480, R484) -/

/-- R479: the area a record goes to; 2 for an acknowledgement alone; none from any other source. -/
def State.sarkArea (s : State) (h : SarkHdr) : Option Nat :=
  if s.partnerOn && decide (h.spos = s.getF Reg.SVL_PAIR.PARTNER) then some (if h.push then 0 else 1)
  else if s.on Reg.SVL_HOT.HEN && decide (h.spos = s.getF Reg.SVL_HOT.PROTECTS) then (if h.push then none else some 1)
  else if s.on Reg.SVL_HOT.HOTEN && decide (h.spos = s.getF Reg.SVL_HOT.HOTPOS ∧ h.rtype = 3) then some 2
  else none

/-- A record is discarded. -/
def State.sarkDrop (s : State) : State := s.bump Reg.SVL_DISCARD.COUNT 1

/-- R485: the acknowledgement of an accepted record. -/
def State.sarkAcked (s : State) (h : SarkHdr) : State :=
  let s := if s.partnerOn && decide (h.spos = s.getF Reg.SVL_PAIR.PARTNER) then
      { s.setFs [(Reg.SVL_PSTAT.PART_DOM, h.dom), (Reg.SVL_PSTAT.PAIRED, 1)] with ackPartner := h.ack } else s
  let s := if s.on Reg.SVL_HOT.HOTEN && decide (h.spos = s.getF Reg.SVL_HOT.HOTPOS) then { s with ackHot := h.ack } else s
  s.countAck

/-- R479, R480, R482: a record of type `rt` arrives: it is accepted into an area, or discarded, with the rest of its transfer when it is
bad; SPOS tells whose transfer it is (DEDUCED, assumption 72). With the sarking function off nothing is taken. -/
def State.sarkIn (s : State) (rt : Nat) (bs : List Byte) (f : State → SarkHdr → Nat → State) : State :=
  if !s.sarkOn then s
  else if s.sarkCut.contains (sarkOf bs).spos then s.sarkDrop
  else if !sarkGood bs then { s with sarkCut := insertSorted (sarkOf bs).spos s.sarkCut }.sarkDrop
  else
    let h := sarkOf bs
    if h.rtype ≠ rt then s else
    match s.sarkArea h with
    | none => s.sarkDrop
    | some a =>
      if s.refusedSrc.contains h.spos then s.sarkDrop
      else
        let own := decide (h.dom = s.getF Reg.SVL_PSTAT.OWN_DOM)
        let force := if s.partnerOn && decide (h.spos = s.getF Reg.SVL_PAIR.PARTNER) then s.on Reg.SVL_PAIR.FORCE else s.on Reg.SVL_HOT.FORCE
        if own && !force then
          { s.setF Reg.SVL_PSTAT.REFUSED 1 with refusedSrc := insertSorted h.spos s.refusedSrc }.sarkDrop
        else
          let s := if own then s.setF Reg.SVL_PSTAT.SHARED 1 else s
          f ((s.bump Reg.SVL_SARK_RX.BYTES bs.length).sarkAcked h) h a

/-- The fill of an area. -/
def State.fillOf (s : State) (a : Nat) : Option Fill := s.fills.find? fun f => f.area = a

/-- A fill in place of its area's, or none. -/
def State.setFill (s : State) (a : Nat) (f : Option Fill) : State :=
  { s with fills := (s.fills.filter fun g => g.area ≠ a) ++ (match f with | some g => [g] | none => []) }

/-- R484, R495: an unfinished point is given up: its slot becomes EMPTY. -/
def State.dropFill (s : State) (a : Nat) : State :=
  match s.fillOf a with
  | none => s
  | some f => ((s.setF (Reg.SVL_SLOT.STATE a f.slot) 0).clrBit (Reg.SVL_SLOT.HOLD a f.slot) 0).setFill a none

/-- The base of a record, when it is a delta. -/
def SarkHdr.delta (h : SarkHdr) : Option Nat := if h.base = fullBase then none else some h.base

/-- The source that fills a partner slot. -/
def State.fillFrom (s : State) (n pos : Nat) : State := if n = 0 then { s with partSrc0 := some pos } else { s with partSrc1 := some pos }

/-- R484: the slot of an area that holds the sealed point COURSE of the source at position `pos`. The partner area records the source of
each of its slots; the save area holds this module's points alone, a pushed one among them. -/
def State.baseSlot (s : State) (a pos course : Nat) : Option Nat :=
  (s.sealedSlot a course).filter fun n => decide (a = 0) || decide ((if n = 0 then s.partSrc0 else s.partSrc1) = some pos)

/-- R484: the fill a record goes to: the unfinished one of its point, or a new one in the slot that does not hold the area's newest sealed
point; none when that slot is in use, or the module does not hold BASE. -/
def State.fillFor (s : State) (a : Nat) (h : SarkHdr) : Option Fill × State :=
  match (s.fillOf a).filter fun f =>
      decide (f.course = h.course ∧ f.base = h.delta ∧ f.push = h.push ∧ (a = 0 ∨ (if f.slot = 0 then s.partSrc0 else s.partSrc1) = some h.spos)) with
  | some f => (some f, s)
  | none =>
    let s := s.dropFill a
    let n := s.otherSlot a
    let busy := decide (s.getF (Reg.SVL_SLOT.HOLD a n) ≠ 0) || (decide (a = 0) && s.build.any fun b => decide (b.slot = n))
    let noBase := match h.delta with | some c => (s.baseSlot a h.spos c).isNone | none => false
    if busy || noBase then (none, s)
    else
      let f : Fill := ⟨a, n, h.course, h.delta, [], h.push, false⟩
      let s := (if a = 0 then s else s.fillFrom n h.spos).setSlot a n 1 h.course
      let s := s.setFill a (some f)
      (some f, s.setBit (Reg.SVL_SLOT.HOLD a n) 0)

/-- The block numbers a bitmap names. -/
def bitmapBlocks (first : Nat) (bitmap : List Byte) : List Nat :=
  ((List.range 512).filter fun k => (leNat bitmap).testBit k).map (· + first)

/-- R484: a BLOCKS record fills blocks of the receiving slot; blocks past the slot's end are lost. -/
def State.takeBlocks (s : State) (bs : List Byte) (h : SarkHdr) (a : Nat) : State :=
  match s.fillFor a h with
  | (none, s) => s
  | (some f, s) =>
    let ks := (bitmapBlocks h.first ((bs.drop 64).take 64)).zipIdx.filter fun x => decide (x.1 < s.slotPages a)
    let s := s.each ks fun s x => s.writeHbm (s.blockAddr a f.slot x.1) ((bs.drop (128 + 4096 * x.2)).take 4096)
    s.setFill a (some { f with blocks := ks.foldl (fun l x => insertSorted x.1 l) f.blocks })
def sarkBlocks (bs : List Byte) (s : State) : State := s.sarkIn 1 bs fun s h a => s.takeBlocks bs h a
def execSarkBlocks (bs : List Byte) (s : State) : Out := onCore (sarkBlocks bs) s

/-- A slot filled from outside is sealed: in the save area every block counts as changed, and no step has completed since its own
began. -/
def State.sealFilled (s : State) (a n : Nat) : State :=
  let s := s.setF (Reg.SVL_SLOT.STATE a n) 2
  let s := if a = 0 then
      (s.setChanged n ((List.range (s.headBlocks a n)).filter fun i => decide (2 ≤ i))).pointSince n s.stepsDone else s
  s.countAck

/-- R342, R484, R496: the blocks not carried are copied from the source's sealed point BASE; whether one of them could not be read. -/
def State.copyBase (s : State) (a pos : Nat) (f : Fill) : Bool × State :=
  match f.base.bind fun c => s.baseSlot a pos c with
  | none => (false, s)
  | some m =>
    let is := (List.range (s.headBlocks a f.slot)).filter fun i => decide (2 ≤ i) && !f.blocks.contains i
    (is.any fun i => !(s.badStacks (s.blockAddr a m i) 4096).isEmpty,
      s.each is fun s i => let r := s.readQuiet (s.blockAddr a m i) 4096; r.2.2.writeHbm (s.blockAddr a f.slot i) r.1)

/-- R484: a SEAL brings blocks 0 and 1; with every block present the digest seals or rejects the slot. -/
def State.takeSeal (s : State) (bs : List Byte) (h : SarkHdr) (a : Nat) : State :=
  match s.fillFor a h with
  | (none, s) => s
  | (some f, s) =>
    let s := s.writeHbm (s.slotAddr a f.slot) ((bs.drop 64).take 8192)
    let n := s.headBlocks a f.slot
    let whole := f.base.isSome || (List.range n).all fun i => decide (i < 2) || f.blocks.contains i
    if !whole then s else
    let r := s.copyBase a h.spos f
    let s := (r.2.setFill a none).clrBit (Reg.SVL_SLOT.HOLD a f.slot) 0
    let good := !r.1 && decide (n ≤ s.slotPages a) && !s.slotBad a f.slot && s.digestGood a f.slot
    let s := s.readSlotPoint a f.slot
    if good then s.sealFilled a f.slot
    else s.rejectSlot a f.slot
def sarkSeal (bs : List Byte) (s : State) : State := s.sarkIn 2 bs fun s h a => s.takeSeal bs h a
def execSarkSeal (bs : List Byte) (s : State) : Out := onCore (sarkSeal bs) s

/-- R485: an ACK record says what its sender holds. -/
def sarkAck (bs : List Byte) (s : State) : State := s.sarkIn 3 bs fun s _ _ => s
def execSarkAck (bs : List Byte) (s : State) : Out := onCore (sarkAck bs) s

/-! ### SVL_PAIR, SVL_HOT and SVL_CTRL -/

/-- R480, R496: a write to SVL_PAIR or SVL_HOT clears SHARED and the refusals; a partner or source rewritten loses its unfinished slot,
its acknowledgement and its cursor; the position each had before is given, where it changed. The cursor of the other receiver stays. -/
def State.pairWritten (s : State) (partner hot : Option Nat) : State :=
  let s := { s.setF Reg.SVL_PSTAT.SHARED 0 with refusedSrc := [] }
  let s := match partner with
    | some p => { (s.dropFill 1).dropFill 0 with ackPartner := 0, cursors := s.cursors.filter fun c => decide (c.1 ≠ p), pushCursor := none }
    | none => s
  let s := match hot with
    | some p => { s with ackHot := 0, cursors := s.cursors.filter fun c => decide (c.1 ≠ p) }
    | none => s
  s.countAck

def writeSvlPair (v : Nat) (s : State) : State :=
  let old := s.getF Reg.SVL_PAIR.PARTNER
  let s := s.setFs [(Reg.SVL_PAIR.PARTNER, v), (Reg.SVL_PAIR.PEN, v / 2 ^ 12), (Reg.SVL_PAIR.FORCE, v / 2 ^ 13)]
  s.pairWritten (if s.getF Reg.SVL_PAIR.PARTNER ≠ old then some old else none) none
def execSvlPairWrite (v : W32) (s : State) : Out := onHub (fun s => s.gated 0xE0030 (writeSvlPair v.toNat)) s

def writeSvlHot (v : Nat) (s : State) : State :=
  let oldP := s.getF Reg.SVL_HOT.PROTECTS
  let oldH := s.getF Reg.SVL_HOT.HOTPOS
  let s := s.setFs [(Reg.SVL_HOT.PROTECTS, v), (Reg.SVL_HOT.HEN, v / 2 ^ 12), (Reg.SVL_HOT.FORCE, v / 2 ^ 13), (Reg.SVL_HOT.HOTPOS, v / 2 ^ 16),
    (Reg.SVL_HOT.HOTEN, v / 2 ^ 28)]
  let s := if s.getF Reg.SVL_HOT.PROTECTS ≠ oldP then s.dropFill 1 else s
  s.pairWritten none (if s.getF Reg.SVL_HOT.HOTPOS ≠ oldH then some oldH else none)
def execSvlHotWrite (v : W32) (s : State) : Out := onHub (fun s => s.gated 0xE0034 (writeSvlHot v.toNat)) s

/-- R492: a write to SVL_CTRL starts the count of sealed points again. -/
def writeSvlCtrl (v : Nat) (s : State) : State :=
  { s.setFs [(Reg.SVL_CTRL.EN, v), (Reg.SVL_CTRL.EVERY, v / 2 ^ 8), (Reg.SVL_CTRL.FLASH_EVERY, v / 2 ^ 16)] with flashCount := 0 }
def execSvlCtrlWrite (v : W32) (s : State) : Out := onHub (fun s => s.gated 0xE0000 (writeSvlCtrl v.toNat)) s

/-! ### SNAPSHOT (R476, R488 to R491) -/

/-- R488: operands of SNAPSHOT. -/
def Req.snap (q : Req) : Nat × Nat × Nat × Nat := (wbits (q.word 1) 0 3, wbits (q.word 1) 3 1, wbits (q.word 1) 4 1, wbits (q.word 2) 0 48)

/-- A SNAPSHOT or HOST_COPY request completes; DETAIL holds the COURSE acted on. -/
def State.svlDone (s : State) (q : Option Req) (status course : Nat) : State :=
  match q with
  | some q => s.complete q status (course % 2 ^ 48)
  | none => s

/-- R490: a slot in use by another operation, a build or a fill. -/
def State.slotBusy (s : State) (a n : Nat) : Bool := decide (s.getF (Reg.SVL_SLOT.HOLD a n) ≠ 0 ∨ s.slotState a n = 1)

/-- A SNAPSHOT of ACTION `act` on ring `r`. -/
def State.onSnap (s : State) (r act : Nat) (f : Req → Nat → Nat → Nat → State → State) : State :=
  match s.nextReq r 0x11 with
  | none => s
  | some q => if q.snap.1 ≠ act then s else f q q.snap.2.1 q.snap.2.2.1 q.snap.2.2.2 (s.markStarted q)

/-- R129: the gate of the flash controller. -/
def State.flashGate (s : State) : Option Nat := s.gateStatus 0x31

/-- A flash request is accepted by its target, and leaves it. -/
def State.flashAccept (s : State) (q : Req) : State := s.acceptTag 0x31 (reqTag q)
def State.flashRelease (s : State) (q : Option Req) : State :=
  match q with
  | some q => s.releaseTag 0x31 (reqTag q)
  | none => s

/-- R490, R497: the status of a LOAD or HOST_COPY into the slot that holds the newest sealed point, which the manual does not give: one
of the block's codes that leave no effect (assumption 14); R17 has 0x79 and 0x7B leave the slot REJECTED or EMPTY. -/
def State.newestCode (s : State) : Nat := [0x08, 0x78, 0x7A, 0x7C, 0x7D].getD (Config.openStatus s.freeCtr).val 0x78

/-- R490, R491: SAVE of a sealed slot to flash. -/
def snapshotSave (r : Nat) (s : State) : State :=
  s.onSnap r 0 fun q a n c s =>
    match s.flashGate with
    | some st => s.svlDone (some q) st c
    | none =>
      if s.slotBusy a n then s.svlDone (some q) 0x08 c
      else if s.slotState a n ≠ 2 ∨ s.slotCourse a n ≠ c then s.svlDone (some q) 0x78 c
      else match s.startSave (some q) a n with
        | (some t, _) => t.flashAccept q
        | (none, t) => t.svlDone (some q) 0x7C c
def execSnapshotSave (r : Nat) (s : State) : Out := onHub (snapshotSave r) s

/-- R490: LOAD of a flash image into an own slot. The manual gives no status for a slot that holds the newest sealed point. -/
def snapshotLoad (r : Nat) (s : State) : State :=
  s.onSnap r 1 fun q _ n c s =>
    match s.flashGate with
    | some st => s.svlDone (some q) st c
    | none =>
      if s.slotBusy 0 n then s.svlDone (some q) 0x08 c else
      match s.flash.images.find? fun i => i.course = c with
      | none => s.svlDone (some q) 0x78 c
      | some i =>
        if s.newestSlot 0 = some n then (s.svlDone (some q) s.newestCode c).nextFree
        else if s.slotPages 0 < i.pages then s.svlDone (some q) 0x7D c
        else ((s.startOp ⟨some q, 1, 0, n, c, 0, 0, (s.slotState 0 n, s.slotCourse 0 n)⟩).setSlot 0 n 1 c).flashAccept q
def execSnapshotLoad (r : Nat) (s : State) : Out := onHub (snapshotLoad r) s

/-- R476: the recipe in force has the HSTATE_BASE, HSTATE_LEN and TENSORS of the point in a slot. -/
def State.sameRecipe (s : State) (a n : Nat) : Bool :=
  decide (bitsOf (s.recipeW s.recipe 0) 0 16 = bitsOf (s.headW a n 4) 0 16 ∧ (s.hState s.recipe).1 = bitsOf (s.headW a n 5) 0 48 ∧
    (s.hState s.recipe).2 = bitsOf (s.headW a n 6) 0 48)

/-- R476: no course runs and no admitted course waits. -/
def State.quiet (s : State) : Bool := s.waiting.isEmpty && (match s.course with | some c => c.failed | none => true)

/-- R476, R490: RESTORE of a sealed slot. -/
def snapshotRestore (r : Nat) (s : State) : State :=
  s.onSnap r 2 fun q a n c s =>
    if s.slotBusy a n then s.svlDone (some q) 0x08 c
    else if s.slotState a n ≠ 2 ∨ s.slotCourse a n ≠ c then s.svlDone (some q) 0x78 c
    else if !s.quiet || !s.sameRecipe a n then s.svlDone (some q) 0x7A c
    else (s.startOp ⟨some q, 2, a, n, c, 0, 0, (2, c)⟩).setF Reg.SVL_STAT.RESTORING 1
def execSnapshotRestore (r : Nat) (s : State) : Out := onCore (snapshotRestore r) s

/-- R488: DROP of the image of COURSE, or of every image. -/
def snapshotDrop (r : Nat) (s : State) : State :=
  s.onSnap r 3 fun q _ _ c s =>
    match s.flashGate with
    | some st => s.svlDone (some q) st c
    | none =>
      if c = 0 then (s.setImages []).svlDone (some q) 0 c
      else if s.flash.images.any (fun i => i.course = c) then
        (s.setImages (s.flash.images.filter fun i => i.course ≠ c)).svlDone (some q) 0 c
      else s.svlDone (some q) 0x78 c
def execSnapshotDrop (r : Nat) (s : State) : Out := onHub (snapshotDrop r) s

/-- The operation of a kind on a slot. -/
def State.opOn (s : State) (kind a n : Nat) : Option SvlOp := s.svlOps.find? fun o => decide (o.kind = kind ∧ o.area = a ∧ o.slot = n)

/-- An operation ends: it lets go of its slot. -/
def State.endOp (s : State) (o : SvlOp) (undo : Bool) : State :=
  ({ s with svlOps := s.svlOps.filter fun p => !(decide (p.kind = o.kind) && decide (p.area = o.area) && decide (p.slot = o.slot)) }.releaseSlot
    o undo).flashRelease o.req

/-- R491, R496: a SAVE ends: the image is in flash, where the oldest images have made room for it, unless the slot could not be read. -/
def snapshotSaveDone (a n : Nat) (s : State) : State :=
  match s.opOn 0 a n with
  | none => s
  | some o =>
    let bad := s.slotBad a n
    let bs := s.peek (s.slotAddr a n) (s.headBlocks a n * 4096)
    let i : FlashImage := ⟨o.course, s.headBlocks a n, Memory.write [] 0 bs⟩
    let s := (s.readSlotPoint a n).endOp o false
    if bad then s.svlDone o.req 0x79 o.course
    else if (s.roomFor o.course i.pages).2 then (s.setImages ((s.roomFor o.course i.pages).1 ++ [i])).svlDone o.req 0 o.course
    else (s.roomFails o.course i.pages).svlDone o.req 0x7C o.course
def execSnapshotSaveDone (a n : Nat) (s : State) : Out := onHub (snapshotSaveDone a n) s

/-- R490: a slot filled by LOAD or from the host is sealed, or rejected on a digest mismatch. -/
def State.endFill (s : State) (o : SvlOp) : State :=
  let good := !s.slotBad o.area o.slot && s.digestGood o.area o.slot
  let s := (s.readSlotPoint o.area o.slot).endOp o false
  if good then (s.sealFilled o.area o.slot).svlDone o.req 0 o.course
  else (s.rejectSlot o.area o.slot).svlDone o.req 0x79 o.course

/-- R491: a LOAD ends. -/
def snapshotLoadDone (n : Nat) (s : State) : State :=
  match s.opOn 1 0 n with
  | none => s
  | some o =>
    match s.flash.images.find? fun i => i.course = o.course with
    | none => (s.endOp o true).svlDone o.req 0x78 o.course
    | some i => (s.writeHbm (s.slotAddr 0 n) (i.bytes.bytes 0 (i.pages * 4096))).endFill o
def execSnapshotLoadDone (n : Nat) (s : State) : Out := onHub (snapshotLoadDone n) s

/-- R476 steps 2 to 5: the point of a slot becomes the module state, and awaits verification. The step of an own point that is restored
begins again (R470); of another point none does. -/
def State.restorePoint (s : State) (a n : Nat) : State :=
  let tensors := bitsOf (s.headW a n 4) 0 16
  let hbase := bitsOf (s.headW a n 5) 0 48
  let hlen := bitsOf (s.headW a n 6) 0 48
  let course := bitsOf (s.headW a n 1) 0 48
  let seed := s.headW a n 2
  let logpos := s.headW a n 3
  let s := s.writeHbm (s.ledgerAddr 0) (s.peek (s.blockAddr a n 2) ((tensors + 1) * 128))
  let s := s.writeHbm (hbase + s.getF Reg.CRS_NUM_STATE.PAR * hlen) (s.peek (s.blockAddr a n (2 + ledgerPages tensors)) hlen)
  let s := (s.setFs [(Reg.CRS_COURSE_COUNT.COURSES, course), (Reg.CRS_PLC_LOGPOS.POS, logpos), (Reg.SVL_STAT.VERIFY, 1),
    (Reg.SVL_STAT.VCOURSE, course)]).setSeed seed
  let s := if a = 0 then s.pointSince n s.stepsDone else s
  { s with seedBefore := BitVec.ofNat 64 seed, verifySlot := some (a, n) }

/-- R476: a RESTORE that a mismatch stops: an unstated part of the ledger and the state region has been written (assumption 35). -/
def State.restorePart (s : State) (a n : Nat) : State :=
  let tensors := bitsOf (s.headW a n 4) 0 16
  let hlen := bitsOf (s.headW a n 6) 0 48
  let ledger := s.peek (s.blockAddr a n 2) ((tensors + 1) * 128)
  let region := s.peek (s.blockAddr a n (2 + ledgerPages tensors)) hlen
  let k := Config.openPart s.freeCtr
  ((s.writeHbm (s.ledgerAddr 0) (ledger.take k)).writeHbm (bitsOf (s.headW a n 5) 0 48 + s.getF Reg.CRS_NUM_STATE.PAR * hlen)
    (region.take (k - ledger.length))).nextFree

/-- R476, R496: a RESTORE ends: the state is the point's, or the slot is rejected and VERIFY_FAIL set. -/
def restoreDone (a n : Nat) (s : State) : State :=
  match s.opOn 2 a n with
  | none => s
  | some o =>
    let good := !s.slotBad a n && s.digestGood a n
    let s := (s.readSlotPoint a n).endOp o false
    if good then (s.restorePoint a n).svlDone o.req 0 o.course
    else (((s.restorePart a n).rejectSlot a n).setF Reg.SVL_STAT.VERIFY_FAIL 1).countAck.svlDone o.req 0x79 o.course
def execRestoreDone (a n : Nat) (s : State) : Out := onCore (restoreDone a n) s

/-! ### HOST_COPY (R489, R490, R493) -/

/-- R489: operands of HOST_COPY: DIR, AREA, SLOT, ADDR, ROOM. -/
def Req.copyOps (q : Req) : Nat × Nat × Nat × Nat × Nat :=
  (wbits (q.word 1) 0 1, wbits (q.word 1) 1 1, wbits (q.word 1) 2 1, wbits (q.word 2) 0 42, wbits (q.word 3) 0 42)

/-- R490: a HOST_COPY of DIR 0 starts. -/
def hostCopyToHost (r : Nat) (s : State) : State :=
  match s.nextReq r 0x12 with
  | none => s
  | some q =>
    let o := q.copyOps
    if o.1 ≠ 0 then s else
    let a := o.2.1
    let n := o.2.2.1
    let s := s.markStarted q
    let c := s.slotCourse a n
    if s.slotBusy a n then s.svlDone (some q) 0x08 c
    else if s.slotState a n ≠ 2 then s.svlDone (some q) 0x78 c
    else if o.2.2.2.2 < s.headBlocks a n * 4096 then s.svlDone (some q) 0x7D c
    else s.startOp ⟨some q, 3, a, n, c, o.2.2.2.1, o.2.2.2.2, (2, c)⟩
def execHostCopyToHost (r : Nat) (s : State) : Out := onHub (hostCopyToHost r) s

/-- R490: a HOST_COPY of DIR 1 starts. The manual gives no status for a slot that holds the newest sealed point. -/
def hostCopyFromHost (r : Nat) (s : State) : State :=
  match s.nextReq r 0x12 with
  | none => s
  | some q =>
    let o := q.copyOps
    if o.1 ≠ 1 then s else
    let n := o.2.2.1
    let s := s.markStarted q
    let c := s.slotCourse 0 n
    if s.slotBusy 0 n then s.svlDone (some q) 0x08 c
    else if s.newestSlot 0 = some n then (s.svlDone (some q) s.newestCode c).nextFree
    else (s.startOp ⟨some q, 4, 0, n, c, o.2.2.2.1, o.2.2.2.2, (s.slotState 0 n, c)⟩).setF (Reg.SVL_SLOT.STATE 0 n) 1
def execHostCopyFromHost (r : Nat) (s : State) : Out := onHub (hostCopyFromHost r) s

/-- R490, R493: the bytes of a copy from host memory arrive in full, or its access failed. -/
def State.copyIn (s : State) (o : SvlOp) (far : FarAns) : State :=
  let lost := fun s : State => ((s.endOp o false).setF (Reg.SVL_SLOT.STATE 0 o.slot) 0).svlDone o.req 0x7B o.course
  match s.aptLoad o.addr 4096 far with
  | (none, s) => lost s
  | (some head, s) =>
    let w := fun i => leNat ((head.drop (8 * i)).take 8)
    let size := pointBlocks (bitsOf (w 4) 0 16) (bitsOf (w 6) 0 48) * 4096
    let o' : SvlOp := { o with course := bitsOf (w 1) 0 48 }
    if bitsOf (w 0) 0 16 ≠ 0x5A7E then
      ((s.endOp o false).rejectSlot 0 o.slot).svlDone o.req 0x79 o'.course
    else if o.room < size ∨ s.slotPages 0 * 4096 < size then (s.endOp o true).svlDone o.req 0x7D o'.course
    else
      let short := match far with | .data bs => decide (bs.length < size) | .error => true
      match s.aptLoad o.addr size (if short then .error else far) with
      | (none, s) => lost s
      | (some bs, s) => ((s.writeHbm (s.slotAddr 0 o.slot) bs).setF (Reg.SVL_SLOT.COURSE 0 o.slot) o'.course).endFill o'

/-- R489, R490: the bytes of a sealed point go out to the host: 0x79 where HBM could not be read, 0x7B where the host refused them. -/
def State.copyOut (s : State) (o : SvlOp) (bad : Bool) (bs : List Byte) (far : FarAns) : State :=
  if bad then (s.endOp o false).svlDone o.req 0x79 o.course
  else
    let r := s.aptStore o.addr bs far
    (r.2.endOp o false).svlDone o.req (if r.1 then 0 else 0x7B) o.course

/-- R490, R493: a host copy on a slot ends: `out` says whether it goes to host memory, `far` what the host answers. -/
def hostCopyDone (out : Bool) (a n : Nat) (far : FarAns) (s : State) : State :=
  match s.opOn (if out then 3 else 4) a n with
  | none => s
  | some o =>
    if out then
      (s.readSlotPoint a n).copyOut o (s.slotBad a n) (s.peek (s.slotAddr a n) (s.headBlocks a n * 4096)) far
    else s.copyIn o far
def execHostCopyDone (out : Bool) (a n : Nat) (far : FarAns) (s : State) : Out := onHub (hostCopyDone out a n far) s

/-! ### Faults and ridges -/

/-- R493: a fault of the flash controller: bit 35 rises, and a SAVE or LOAD in progress stops with 0xD0, nothing of it taking effect.
R555: a write of an offered image or manifest is abandoned: flash holds the manifest it held. -/
def flashFault (s : State) : State :=
  let ops := s.svlOps.filter fun o => decide (o.kind ≤ 1)
  let s := s.each ops fun s o => (s.endOp o true).svlDone o.req 0xD0 o.course
  let s := match s.boot.manOld with | some m => { s with flash := { s.flash with manifest := m } } | none => s
  { s with boot := { s.boot with cacheWrite := none, manOld := none } }.raiseLine 35
def execFlashFault (s : State) : Out := onHub flashFault s

/-- R495: at the opening of a course a fill whose source has failed is given up. -/
def State.dropLost (s : State) : State :=
  s.each [0, 1] fun s a => match s.fillOf a with | some f => if f.lost then s.dropFill a else s | none => s

/-- R496: a slot that a map-out leaves above HBM_CAP becomes EMPTY, with the fill it was taking. -/
def State.slotsInRange (s : State) : State :=
  (s.each [(0, 0), (0, 1), (1, 0), (1, 1)] fun s x =>
    if s.slotState x.1 x.2 ≠ 0 ∧ s.hbmCap < s.slotAddr x.1 x.2 + s.slotPages x.1 * 4096 then
      let s := if s.fills.any fun f => Nat.beq f.area x.1 && Nat.beq f.slot x.2 then s.dropFill x.1 else s
      s.setF (Reg.SVL_SLOT.STATE x.1 x.2) 0
    else s).countAck

end Sys2Proof.Machine
end

