-- ==== Sys2Proof/Machine/Slots.lean ====
section
/-! DEFINITION. The slots of the running course's link timetable (R444 to R457): sends, headers, receives, collectives, expert dispatch, the
vote, and the start of the commit reserve. -/

namespace Sys2Proof.Machine

/-! ### Slot entries of the running course -/

/-- The course in progress, before its commit reserve, with its slot entry `e` and that entry's progress. -/
def State.slotAt (s : State) (e : Nat) : Option (Course × SlotE × SlotSt) :=
  match s.working with
  | none => none
  | some c =>
    if !c.img.hasTt || decide (s.ttSlots c.img.ttIdx ≤ e) then none
    else some (c, s.slotE c.img.ttIdx e, c.slots.getD e SlotSt.fresh)

/-- Progress of a slot entry. -/
def State.setSlotSt (s : State) (e : Nat) (x : SlotSt) : State :=
  match s.course with
  | none => s
  | some c =>
    let c' : Course := { c with slots := c.slots.set e x }
    { s with course := some c' }

/-- The course fails or has failed. -/
def State.courseLost (s : State) : Bool := match s.course with | some c => c.failed | none => true

/-- R466: the first link course error is recorded, and the course fails with it. -/
def State.linkErr (s : State) (x : SlotE) (code : Nat) : State :=
  let s := if s.on Reg.CRS_LNK_ERR.VALID then s else
    s.setFs [(Reg.CRS_LNK_ERR.STATUS, code), (Reg.CRS_LNK_ERR.PORT, x.port), (Reg.CRS_LNK_ERR.VALID, 1), (Reg.CRS_LNK_ERR.XID, x.xid),
      (Reg.CRS_LNK_ERR.COURSE, match s.course with | some c => c.counter | none => 0)]
  s.failCourse code

/-- R447: an entry signals module counter 14 + SIG_EV; past 0xFFFF the course ends with 0x95 (R172). -/
def State.signalSlot (s : State) (x : SlotE) : State :=
  if !x.sigEn then s
  else
    let v := SMap.look 0 x.sigEv s.modEvents
    if 0xFFFF ≤ v then s.failCourse 0x95 else { s with modEvents := SMap.put 0 x.sigEv (v + 1) s.modEvents }

/-- R440: bytes at the local address of an entry: HBM, or the loft of the port's truss die; R174: an unwritten block ends the course with
0x94. -/
def State.slotRead (s : State) (x : SlotE) (n : Nat) : List Byte × State :=
  if x.tier = 2 then s.readHbm x.addr n
  else (s.loftRead (x.port / 8) x.addr n, if s.loftOk (x.port / 8) x.addr n then s else s.failCourse 0x94)
def State.slotWrite (s : State) (x : SlotE) (bs : List Byte) : State :=
  if x.tier = 2 then s.writeHbm x.addr bs else s.loftWrite (x.port / 8) x.addr bs

/-! ### Expert dispatch (R452 to R456) -/

/-- R452: experts of a rank, and the rank that owns an expert. -/
def Dsp.epm (d : Dsp) : Nat := d.e / d.g
def Dsp.experts (d : Dsp) (rank : Nat) : List Nat := (List.range d.epm).map (· + rank * d.epm)

/-- R452: address of capacity slot `k` of expert `e` on its owner. -/
def Dsp.slotAddr (d : Dsp) (e k : Nat) : Nat := d.exp + (e % d.epm * d.cap + k) * d.rowBytes

/-- R453: the entries of a routing list: EXPERT and ROW. -/
def routeList (bs : List Byte) : List (Nat × Nat) :=
  (chunks 4 bs (bs.length / 4)).map fun b => (bitsOf (leNat b) 0 12, bitsOf (leNat b) 16 16)

/-- R453: an entry is used and names expert `e`. -/
def routesTo (e : Nat) (r : Nat × Nat) : Bool := decide (r.1 = e ∧ e ≠ 0xFFF)

/-- R454: the counts of a rank's entries by expert. -/
def countVector (d : Dsp) (rs : List (Nat × Nat)) : List Nat := (List.range d.e).map fun e => (rs.filter (routesTo e)).length

/-- R453, R454: entry `j` of the routing list as the course counted it. -/
def Course.route (c : Course) (i j : Nat) : Nat × Nat :=
  ((c.routes.find? fun r => decide (r.1 = i)).map fun r => r.2.getD j (0xFFF, 0)).getD (0xFFF, 0)

/-- A count vector the course knows. -/
def Course.vector (c : Course) (i q : Nat) : Option (List Nat) := (c.counts.find? fun x => decide (x.1 = i ∧ x.2.1 = q)).map (·.2.2)

/-- The course in progress learns a count vector. -/
def State.learn (s : State) (i q : Nat) (v : List Nat) : State :=
  match s.course with
  | none => s
  | some c =>
    if (c.vector i q).isSome then s else
    let c' : Course := { c with counts := c.counts ++ [(i, q, v)] }
    { s with course := some c' }

/-- R454: the first DCOUNT entry of dispatch `i`. -/
def State.firstDcount (s : State) (c : Course) (i : Nat) : Option SlotE :=
  ((s.slotsOf c.img).filter fun x => decide (x.kind = 2 ∧ x.arg = i)).foldl
    (fun b x => match b with | none => some x | some y => if x.start < y.start then some x else some y) none

/-- R454: the routing list of a dispatch, held from its count on. -/
def State.holdRoutes (s : State) (i : Nat) (rs : List (Nat × Nat)) : State :=
  match s.course with
  | none => s
  | some c => let c' : Course := { c with routes := c.routes ++ [(i, rs)] }; { s with course := some c' }

/-- R453, R454: from the START of the dispatch's first DCOUNT entry the module counts its own entries; an EXPERT above E other than 0xFFF
fails the course with 0xAA. -/
def State.countOwn (s : State) (i : Nat) : State :=
  match s.working with
  | none => s
  | some c =>
    let d := s.dsp c.img.ttIdx i
    match s.firstDcount c i with
    | none => s
    | some x =>
      if (c.vector i d.rank).isSome ∨ s.now < s.beat.ridgeAt + x.start then s else
      let r := s.readHbm d.rt (4 * d.t)
      let rs := routeList r.1
      if r.2.courseLost then r.2
      else if rs.any fun y => decide (d.e ≤ y.1 ∧ y.1 ≠ 0xFFF) then r.2.linkErr x 0xAA
      else (r.2.holdRoutes i rs).learn i d.rank (countVector d rs)

/-- R454: the dispatches whose first DCOUNT entry has started count their entries, each once. -/
def State.countStarts (s : State) : State :=
  match s.working with
  | none => s
  | some c =>
    if !c.img.hasTt then s else
    s.each ((List.range (bitsOf (s.ttW c.img.ttIdx 1) 40 8)).filter fun i =>
      (s.firstDcount c i).any fun x => decide (s.beat.ridgeAt + x.start ≤ s.now)) State.countOwn

/-- R454: entries of rank `q` to expert `e`, those of lower ranks, and all. -/
def Course.count (c : Course) (i q e : Nat) : Nat := ((c.vector i q).getD []).getD e 0
def Course.before (c : Course) (i q e : Nat) : Nat := ((List.range q).map fun r => c.count i r e).sum
def Course.total (c : Course) (i : Nat) (d : Dsp) (e : Nat) : Nat := c.before i d.g e

/-- R454: keep and base of rank `q` for expert `e`. -/
def Course.keep (c : Course) (i : Nat) (d : Dsp) (q e : Nat) : Nat := min (c.count i q e) (d.cap - c.before i q e)
def Course.base (c : Course) (i : Nat) (d : Dsp) (q e : Nat) : Nat := min (c.before i q e) d.cap

/-- R454: this rank's kept entries to expert `e`, in increasing capacity slot: the entry and its slot. -/
def Course.kept (c : Course) (i : Nat) (d : Dsp) (e : Nat) : List (Nat × Nat) :=
  (((List.range d.t).filter fun j => routesTo e (c.route i j)).take (c.keep i d d.rank e)).zipIdx.map fun x =>
    (x.1, c.base i d d.rank e + x.2)

/-- R454: every count vector is known. -/
def Course.allKnown (c : Course) (i : Nat) (d : Dsp) : Bool := (List.range d.g).all fun q => (c.vector i q).isSome

/-- R456: the dispatch record. -/
def Course.dropped (c : Course) (i : Nat) (d : Dsp) (e : Nat) : Nat := c.total i d e - d.cap
def Course.dropTotal (c : Course) (i : Nat) (d : Dsp) : Nat := ((List.range d.e).map fun e => c.dropped i d e).sum
def dispatchRecord (c : Course) (i : Nat) (d : Dsp) : List Byte :=
  leBytes 8 (c.counter % 2 ^ 48) ++ leBytes 8 (c.dropTotal i d % 2 ^ 32) ++ List.replicate 48 0 ++
  (List.range d.e).flatMap fun e => leBytes 4 (c.total i d e) ++ leBytes 4 (c.dropped i d e)

/-- A row copied within HBM. -/
def State.copyRow (s : State) (d : Dsp) (dst src : Nat) : State := let r := s.readHbm src d.rowBytes; r.2.writeHbm dst r.1

/-- R455: rows of the module's own experts are copied locally, and slots that no kept entry fills are zero. -/
def State.fillOwn (s : State) (c : Course) (i : Nat) (d : Dsp) : State :=
  s.each (d.experts d.rank) fun s e =>
    let s := s.each (c.kept i d e) fun s x => s.copyRow d (d.slotAddr e x.2) (d.inA + (c.route i x.1).2 * d.rowBytes)
    s.each ((List.range d.cap).filter fun k => decide (min (c.total i d e) d.cap ≤ k)) fun s k =>
      s.writeHbm (d.slotAddr e k) (List.replicate d.rowBytes 0)

/-- R454 to R456: the plan of dispatch `i`, once every count vector is known. -/
def dispatchPlan (i : Nat) (s : State) : State :=
  match s.working with
  | none => s
  | some c0 =>
    if !c0.img.hasTt || decide (bitsOf (s.ttW c0.img.ttIdx 1) 40 8 ≤ i) then s else
    let s := s.countOwn i
    match s.working with
    | none => s
    | some c =>
      let d := s.dsp c.img.ttIdx i
      if c.planned.contains i || !c.allKnown i d then s else
      let c' : Course := { c with planned := c.planned ++ [i] }
      let s := { s with course := some c' }
      let s := (s.writeHbm d.rec_ (dispatchRecord c i d)).bump Reg.CRS_LNK_DROPS.COUNT (c.dropTotal i d)
      s.fillOwn c i d
def execDispatchPlan (i : Nat) (s : State) : Out := onCore (dispatchPlan i) s

/-- R455: the rows a DISPATCH send carries to rank `q`. -/
def Course.dispatchRows (c : Course) (i : Nat) (d : Dsp) (ret : Bool) (q : Nat) : List Nat :=
  if ret then
    (d.experts d.rank).flatMap fun e => (List.range (c.keep i d q e)).map fun m => d.slotAddr e (c.base i d q e + m)
  else (d.experts q).flatMap fun e => (c.kept i d e).map fun x => d.inA + (c.route i x.1).2 * d.rowBytes

/-- R455: where the rows of a DISPATCH receive from rank `q` are written. -/
def Course.dispatchPlaces (c : Course) (i : Nat) (d : Dsp) (ret : Bool) (q : Nat) : List Nat :=
  if ret then (d.experts q).flatMap fun e => (c.kept i d e).map fun x => d.ret + x.1 * d.rowBytes
  else (d.experts d.rank).flatMap fun e => (List.range (c.keep i d q e)).map fun m => d.slotAddr e (c.base i d q e + m)

/-- R455: the rows that the module's own experts return to it, and the zero rows of dropped and unused entries. -/
def State.returnOwn (s : State) (c : Course) (i : Nat) (d : Dsp) : State :=
  let s := s.each (d.experts d.rank) fun s e =>
    s.each (c.kept i d e) fun s x => s.copyRow d (d.ret + x.1 * d.rowBytes) (d.slotAddr e x.2)
  let held := (List.range d.e).flatMap fun e => (c.kept i d e).map (·.1)
  s.each ((List.range d.t).filter fun j => !held.contains j) fun s j => s.writeHbm (d.ret + j * d.rowBytes) (List.replicate d.rowBytes 0)

/-! ### The vote (R457) -/

/-- R457: the module's own bit and vote stand in its set. -/
def Course.ownVote (c : Course) (pos : Nat) (vote : Bool) : Course :=
  { c with known := insertSorted pos c.known, result := c.result || vote }

/-- R218: the module's vote: as it was sent, or as it stands while none has been sent; and whether a NONFIN count made it. -/
def State.voteOf (s : State) (c : Course) : Bool × Bool := c.sentVote.getD (s.stepVote, s.stepNonfin)

/-- R457: the vote set as sent. -/
def Course.voteBytes (c : Course) (modules : Nat) : List Byte :=
  leBytes 512 ((c.known.filter fun q => decide (q ≤ modules)).map fun q => 2 ^ q).sum ++ leBytes 8 (bit c.result)

/-- R457: a received set is merged. -/
def Course.mergeVote (c : Course) (modules : Nat) (bs : List Byte) : Course :=
  let m := leNat (bs.take 512)
  { c with
    known := ((List.range (modules + 1)).filter fun q => m.testBit q).foldl (fun l q => insertSorted q l) c.known
    result := c.result || (leNat ((bs.drop 512).take 8)).testBit 0 }

/-- R457, R79: when the last VOTE entry has completed, a position without its bit is a missing vote. R495: the missing vote of the partner
shows its failure (DEDUCED, assumption 82). -/
def State.voteCheck (s : State) : State :=
  match s.course with
  | none => s
  | some c =>
    let votes := (s.slotsOf c.img).zipIdx.filter fun x => decide (x.1.kind = 4)
    if c.failed || !votes.all fun x => (c.slots.getD x.2 SlotSt.fresh).completed then s
    else
      let c' := c.ownVote (s.ttPos c.img.ttIdx) (s.voteOf c).1
      let s := { s with course := some c' }
      let missing := (List.range (s.ttModules c.img.ttIdx + 1)).filter fun q => !c'.known.contains q
      if missing.isEmpty then s
      else (if s.partnerOn && missing.contains (s.getF Reg.SVL_PAIR.PARTNER) then s.partnerLost else s).failCourse 0x87

/-! ### Sending (R444, R447, R451, R454, R455) -/

/-- R444: the header flit of a transfer. -/
def headerBytes (ttId counter pos : Nat) (x : SlotE) (payload : Nat) : List Byte :=
  leBytes 4 ttId ++ leBytes 4 counter ++ leBytes 2 x.xid ++ leBytes 2 pos ++ leBytes 1 x.kind ++ leBytes 1 x.level ++ leBytes 2 x.index ++
  leBytes 8 payload ++ List.replicate 176 0

/-- The 200-byte pieces of a payload. -/
def flitPieces (bs : List Byte) : List (List Byte) := chunks 200 bs (ceilDiv bs.length 200)

/-- R441: what a send moves; none while it must wait for a count vector or a plan. -/
def State.slotPayload (s : State) (c : Course) (x : SlotE) : Option (List Byte) × State :=
  match x.kind with
  | 0 | 1 => let r := s.slotRead x (x.bytes - 200); (some r.1, r.2)
  | 2 =>
    let s := s.countOwn x.arg
    ((s.course.bind fun c => c.vector x.arg x.index).map fun v => v.flatMap (leBytes 4), s)
  | 3 =>
    if !c.planned.contains x.arg then (none, s) else
    let d := s.dsp c.img.ttIdx x.arg
    let s := if x.level = 1 then s.returnOwn c x.arg d else s
    let rows := c.dispatchRows x.arg d (decide (x.level = 1)) x.index
    (some (rows.flatMap fun a => s.peek a d.rowBytes), s.each rows fun s a => (s.readHbm a d.rowBytes).2)
  | 4 =>
    let s := s.atVote
    match s.course with
    | none => (none, s)
    | some c =>
      let c' : Course := { c.ownVote (s.ttPos c.img.ttIdx) (s.voteOf c).1 with sentVote := some (s.voteOf c) }
      (some (c'.voteBytes (s.ttModules c.img.ttIdx)), if c.failed then s else { s with course := some c' })
  | 5 => let r := s.sarkSend (s.ttPos c.img.ttIdx) x.peer (decide (x.level = 1)) (x.bytes - 200); (some r.1, r.2)
  | _ => (some [], s)

/-- R442, R444: an entry occupies port `p` in the send direction: a send, or an APERTURE or FORWARD entry, which occupies both directions. -/
def SlotE.sendsOn (x : SlotE) (p : Nat) : Bool :=
  (Nat.beq x.port p && (!x.recv || Nat.beq x.kind 6 || Nat.beq x.kind 7)) || (Nat.beq x.kind 7 && Nat.beq x.fwd p)

/-- R444, R448: the transfers before an entry on its port, in the send direction, have completed: one late by replays or by its WAIT delays
those after it. -/
def State.earlierDone (s : State) (c : Course) (x : SlotE) : Bool :=
  (s.slotsOf c.img).zipIdx.all fun y =>
    !(y.1.sendsOn x.port && Nat.blt y.1.start x.start) || (c.slots.getD y.2 SlotSt.fresh).completed

/-- R129, R444: a send entry may start now; a closed gate of its port takes no new transfer. -/
def State.mayStart (s : State) (c : Course) (x : SlotE) (st : SlotSt) : Bool :=
  !x.recv && !st.started && s.earlierDone c x && decide (s.beat.ridgeAt + x.start ≤ s.now) &&
  (!x.waitEn || decide (x.waitVal ≤ SMap.look 0 x.waitEv s.modEvents)) && s.on (Reg.LNK_STAT.UP x.port) && (s.port x.port).tx.isNone &&
  decide ((s.target (0x40 + x.port)).gate = .opened)

/-- R130: the tag under which a port holds the transfer of an entry, above those of ring and SEQ. -/
def transferTag (e : Nat) : Nat := 2 ^ 26 + e

/-- R444: a send entry starts: its header flit goes out, then its payload. -/
def slotSendStart (e : Nat) (s : State) : State :=
  match s.slotAt e with
  | none => s
  | some (c, x, st) =>
    if !s.mayStart c x st then s else
    match s.slotPayload c x with
    | (none, s) => s
    | (some bs, s) =>
      if s.courseLost then s else
      let s := s.sendFlit x.port 1 (headerBytes (s.ttId c.img.ttIdx) c.counter (s.ttPos c.img.ttIdx) x bs.length)
      let s := s.each (flitPieces bs) fun s b => s.sendFlit x.port 0 b
      let s := ((s.setPort x.port { s.port x.port with tx := some e }).acceptTag (0x40 + x.port) (transferTag e)).setSlotSt e
        { st with started := true }
      if x.kind = 6 then s.flushPeer x.peer else s
def execSlotSendStart (e : Nat) (s : State) : Out := onCore (slotSendStart e) s

/-- R447: an entry has completed: it signals, the last VOTE entry gives the result, and an APERTURE entry ends the waits for it (R460). -/
def State.slotDone (s : State) (e : Nat) (x : SlotE) (st : SlotSt) : State :=
  let s := (s.setSlotSt e { st with completed := true }).signalSlot x
  if x.kind = 4 then s.voteCheck else if x.kind = 6 then s.strandPeer x.peer else s

/-- R447: a send entry completes when every flit of its transfer is acknowledged. -/
def sendComplete (e : Nat) (s : State) : State :=
  match s.course with
  | none => s
  | some c =>
    if c.failed || !c.img.hasTt || decide (s.ttSlots c.img.ttIdx ≤ e) then s else
    let x := s.slotE c.img.ttIdx e
    let st := c.slots.getD e SlotSt.fresh
    let p := s.port x.port
    if !st.started || st.completed || decide (p.tx ≠ some e) || (p.replay.any fun f => decide (f.1.ftype ≤ 1)) ||
      (p.wait.any fun f => decide (f.ftype ≤ 1)) then s
    else ((s.setPort x.port { p with tx := none }).releaseTag (0x40 + x.port) (transferTag e)).slotDone e x st
def execSendComplete (e : Nat) (s : State) : Out := onCore (sendComplete e) s

/-! ### Receiving (R444 to R449) -/

/-- R445, R450: LEVEL and INDEX a receive entry expects in the header. A dispatch transfer carries the rank it goes to. -/
def State.expects (s : State) (c : Course) (x : SlotE) : Nat × Nat :=
  match x.kind with
  | 1 => (x.level - 1, x.index + 2 ^ (x.level - 1))
  | 3 => (x.level, (s.dsp c.img.ttIdx x.arg).rank)
  | _ => (x.level, x.index)

/-- R445: a header agrees with its receive entry; a FORWARD entry checks XID alone. -/
def State.headerGood (s : State) (c : Course) (x : SlotE) (h : List Byte) : Bool :=
  let f := fun a n => leNat ((h.drop a).take n)
  if x.kind = 7 then decide (f 8 2 = x.xid)
  else
    let w := s.expects c x
    decide (f 0 4 = s.ttId c.img.ttIdx ∧ f 4 4 = c.counter % 2 ^ 32 ∧ f 8 2 = x.xid ∧ f 10 2 = x.peer ∧ f 12 1 = x.kind ∧ f 13 1 = w.1 ∧
      f 14 2 = w.2 ∧ 200 + f 16 8 ≤ x.bytes)

/-- R444: receive entry `e` of the course in progress, until the start of its commit reserve: a START below 26,000 ns takes its header before
the ridge interval has ended. -/
def State.slotRecv (s : State) (e : Nat) : Option (Course × SlotE × SlotSt) :=
  match s.course with
  | none => none
  | some c =>
    if c.failed || c.reserve || !c.img.hasTt || decide (s.ttSlots c.img.ttIdx ≤ e) then none
    else some (c, s.slotE c.img.ttIdx e, c.slots.getD e SlotSt.fresh)

/-- R444 to R446, R449, R460: a header flit arrives for receive entry `e`, from START − 1 µs on; one for an entry that has completed is
discarded. An APERTURE entry lets the requests to its module go. -/
def transferHeader (e : Nat) (h : List Byte) (s : State) : State :=
  match s.slotRecv e with
  | none => s
  | some (c, x, st) =>
    if !x.recv || st.completed || st.header || decide (s.now + 1000 < s.beat.ridgeAt + x.start) then s
    else if !s.headerGood c x h then s.linkErr x 0xA8
    else
      let s := if x.kind = 7 then s.sendFlit x.fwd 1 h else s
      let s := { s.setSlotSt e { st with header := true, expect := leNat ((h.drop 16).take 8) } with
        sarkCut := if x.kind = 5 then s.sarkCut.filter (· ≠ x.peer) else s.sarkCut }
      if x.kind = 6 then s.flushPeer x.peer else s
def execTransferHeader (e : Nat) (h : List Byte) (s : State) : Out := onCore (transferHeader e h) s

/-- R450, R451: two tree nodes added element by element. -/
def addNodes (fmt : Nat) (a b : List Byte) : List Byte :=
  let n := fmtBytes fmt
  ((chunks n a (a.length / n)).zip (chunks n b (b.length / n))).flatMap fun x =>
    let p := leNat x.1
    let q := leNat x.2
    if fmt = 3 then leBytes 2 (bf2 fadd (BitVec.ofNat 16 p) (BitVec.ofNat 16 q)).toNat
    else leBytes 4 (fadd (BitVec.ofNat 32 p) (BitVec.ofNat 32 q)).toNat

/-- R441: what a receive does with its payload; none while it must wait for the plan of its dispatch. -/
def State.slotTake (s : State) (c : Course) (x : SlotE) (bs : List Byte) : Option State :=
  match x.kind with
  | 0 => some (s.slotWrite x bs)
  | 1 =>
    let fmt := (s.group c.img.ttIdx x.arg).2
    if bs.length % fmtBytes fmt ≠ 0 then some (s.linkErr x 0xA8)
    else
      let r := s.slotRead x bs.length
      some (if r.2.courseLost then r.2 else r.2.slotWrite x (addNodes fmt r.1 bs))
  | 2 => some (s.learn x.arg x.index ((chunks 4 bs (bs.length / 4)).map leNat))
  | 3 =>
    if !c.planned.contains x.arg then none else
    let d := s.dsp c.img.ttIdx x.arg
    let places := c.dispatchPlaces x.arg d (decide (x.level = 1)) x.index
    let s := s.each places.zipIdx fun s y => s.writeHbm y.1 ((bs.drop (y.2 * d.rowBytes)).take d.rowBytes)
    some (if x.level = 1 then s.returnOwn c x.arg d else s)
  | 4 =>
    let c' := c.mergeVote (s.ttModules c.img.ttIdx) bs
    some { s with course := some c' }
  | _ => some s

/-- R447: a receive entry completes when its bytes have arrived and are written. -/
def receiveComplete (e : Nat) (bs : List Byte) (s : State) : State :=
  match s.course with
  | none => s
  | some c =>
    if c.failed || !c.img.hasTt || decide (s.ttSlots c.img.ttIdx ≤ e) then s else
    let x := s.slotE c.img.ttIdx e
    let st := c.slots.getD e SlotSt.fresh
    if !st.header || st.completed || (decide (x.kind ≠ 7) && decide (bs.length ≠ st.expect)) then s
    else match s.slotTake c x bs with
      | none => s
      | some s => if s.courseLost then s else s.slotDone e x st
def execReceiveComplete (e : Nat) (bs : List Byte) (s : State) : Out := onCore (receiveComplete e bs) s

/-! ### The commit reserve (R56, R446) -/

/-- R446, R448: the first receive entry other than SARK that has received no header, or send entry that has not begun. -/
def State.missingEntry (s : State) (c : Course) : Option SlotE :=
  ((s.slotsOf c.img).zipIdx.find? fun x =>
    let st := c.slots.getD x.2 SlotSt.fresh
    !st.completed && if x.1.recv then decide (x.1.kind ≠ 5) && !st.header else !st.started).map (·.1)

/-- R446: a SARK receive entry that has received nothing completes. -/
def State.sarkEntriesEnd (s : State) (c : Course) : State :=
  s.each (s.slotsOf c.img).zipIdx fun s x =>
    let st := c.slots.getD x.2 SlotSt.fresh
    if x.1.recv && decide (x.1.kind = 5) && !st.header && !st.completed then s.slotDone x.2 x.1 st else s

/-- R56, R446: 15 µs before the closing ridge the commit reserve starts: no phase runs in it, and a transfer that has not begun is missing. -/
def commitReserveStart (s : State) : State :=
  match s.working with
  | none => s
  | some c =>
    match s.missingEntry c with
    | some x => s.linkErr x 0xA9
    | none =>
      let s := s.sarkEntriesEnd c
      match s.course with
      | none => s
      | some c => let c' : Course := { c with working := false, reserve := true }; { s with course := some c' }
def execCommitReserveStart (s : State) : Out := onCore commitReserveStart s

end Sys2Proof.Machine
end

