-- ==== Sys2Proof/Machine/Admission.lean ====
section
/-! DEFINITION. The checks made from HBM before anything runs: a swap request (R81, R209, R211, R360, R376, R442, R452, R585) and admission
(R33, R62 to R68, R85, R342, R362, R443, R587), with COURSE_RUN. -/

namespace Sys2Proof.Machine

/-! ### Reads that belong to no course (R342) -/

/-- R342: regions (address, length) are read to be checked: whether each lies below HBM_CAP and holds no uncorrectable sector. -/
def State.checkReads (s : State) (rs : List (Nat × Nat)) : Bool × State :=
  (rs.all fun r => Nat.ble (r.1 + r.2) s.hbmCap && (s.badStacks r.1 r.2).isEmpty, s.each rs fun s r => (s.readQuiet r.1 r.2).2.2)

/-- Words of a structure have zero reserved fields: (word, lowest bit, width). -/
def State.zeroAt (s : State) (a : Nat) (fs : List (Nat × Nat × Nat)) : Bool :=
  fs.all fun f => decide (bitsOf (s.peekW (a + 8 * f.1)) f.2.1 f.2.2 = 0)

/-! ### The configuration sets (R81 to R85) -/

/-- R82: the shadow set as the active set, with the next epoch. -/
def State.swapSets (s : State) : State :=
  s.setFs [(Reg.CRS_ACT_IMGTAB.COUNT, s.getF Reg.CRS_SET_IMGTAB.COUNT), (Reg.CRS_ACT_IMGTAB.BASE, s.getF Reg.CRS_SET_IMGTAB.BASE),
    (Reg.CRS_ACT_TTAB.COUNT, s.getF Reg.CRS_SET_TTAB.COUNT), (Reg.CRS_ACT_TTAB.BASE, s.getF Reg.CRS_SET_TTAB.BASE),
    (Reg.CRS_ACT_PLAN.BASE, s.getF Reg.CRS_SET_PLAN.BASE),
    (Reg.CRS_ACT_RECIPE.COUNT, s.getF Reg.CRS_SET_RECIPE.COUNT), (Reg.CRS_ACT_RECIPE.BASE, s.getF Reg.CRS_SET_RECIPE.BASE),
    (Reg.CRS_ACT_LEDGER.BASE, s.getF Reg.CRS_SET_LEDGER.BASE), (Reg.CRS_EPOCH.EPOCH, s.getF Reg.CRS_EPOCH.EPOCH + 1)]

/-- R585: an image table entry is valid. -/
def State.imgEntryOk (s : State) (i : Nat) : Bool :=
  let w := s.peekW (s.getF Reg.CRS_ACT_IMGTAB.BASE * 4096 + 8 * i)
  decide (bitsOf w 48 16 = 0 ∧ bitsOf w 0 48 % 64 = 0 ∧ bitsOf w 0 48 < s.hbmCap)

/-- R585: the course image table. -/
def State.imgTableOk (s : State) : Bool × State :=
  let n := s.getF Reg.CRS_ACT_IMGTAB.COUNT + 1
  let r := s.checkReads [(s.getF Reg.CRS_ACT_IMGTAB.BASE * 4096, 8 * n)]
  (r.1 && (List.range n).all s.imgEntryOk, r.2)

/-- R376: ranges of one tier that must not meet. -/
def rangesClear : List (Nat × Nat) → Bool
  | [] => true
  | r :: t => (t.all fun q => !overlaps r.1 r.2 q.1 q.2) && rangesClear t

/-- R376: a weight source entry is well formed, its ranges within their tiers. -/
def State.wsrcOk (s : State) (a : Nat) : Bool :=
  let w := wsrcOf (s.peekW a) (s.peekW (a + 8)) (s.peekW (a + 16))
  s.zeroAt a [(0, 46, 18), (1, 46, 18), (2, 42, 22), (3, 0, 64)] &&
  decide ((w.priTier = 3 ∨ w.priTier = 4) ∧ (w.altTier = 3 ∨ w.altTier = 4 ∨ w.altTier = 0xF) ∧ w.len % 64 = 0 ∧ w.pri + w.len ≤ 2 ^ 42 ∧
    (w.altTier = 0xF ∨ w.alt + w.len ≤ 2 ^ 42))

/-- R376: the ranges of a tier that the weight sources name. -/
def wsrcRanges (ws : List WSrc) (tier : Nat) : List (Nat × Nat) :=
  ws.flatMap fun w => (if w.priTier = tier then [(w.pri, w.len)] else []) ++ (if w.altTier = tier then [(w.alt, w.len)] else [])

/-- R360: the plan's alignments, and its ranges within their tiers. -/
def State.planRanges (s : State) : Bool :=
  decide (s.poolBase % 4096 = 0 ∧ s.poolLen % 4096 = 0 ∧ s.saveBase % 2 ^ 21 = 0 ∧ s.saveSpan % 2 ^ 21 = 0 ∧ s.peerBase % 2 ^ 21 = 0 ∧
    bitsOf (s.planW 5) 0 48 % 4096 = 0 ∧ bitsOf (s.planW 9) 0 48 % 64 = 0 ∧ s.poolBase + s.poolLen ≤ s.hbmCap ∧
    s.saveBase + s.saveSpan ≤ 2 ^ 42 ∧ s.peerBase + s.saveSpan ≤ 2 ^ 42 ∧
    bitsOf (s.planW 5) 0 48 + (bitsOf (s.planW 6) 0 16 + 1) * 0x11000 ≤ s.hbmCap)

/-- R360, R376: the placement plan. -/
def State.planOk (s : State) : Bool × State :=
  let wb := bitsOf (s.planW 9) 0 48
  let wn := bitsOf (s.planW 9) 48 12 + 1
  let r := s.checkReads [(s.planBase, 128), (wb, 32 * wn)]
  (r.1 && s.zeroAt s.planBase [(0, 48, 16), (1, 48, 16), (2, 42, 22), (3, 42, 22), (4, 42, 22), (5, 48, 16), (6, 20, 44), (7, 32, 32), (9, 60, 4),
      (10, 0, 64), (11, 0, 64), (12, 0, 64), (13, 0, 64), (14, 0, 64), (15, 32, 32)] &&
    s.planRanges && decide (crc32 (s.peek s.planBase 120 ++ s.peek wb (32 * wn)) = bitsOf (s.planW 15) 0 32) &&
    ((List.range wn).all fun i => s.wsrcOk (wb + 32 * i)) &&
    rangesClear ((s.saveBase, s.saveSpan) :: wsrcRanges s.wsrcs 3) && rangesClear (wsrcRanges s.wsrcs 4), r.2)

/-- R208, R209: a kind entry is valid. -/
def kindOk (j w : Nat) : Bool :=
  if 5 ≤ j then decide (w = 0)
  else decide (bitsOf w 0 3 ≤ 4 ∧ bitsOf w 3 1 = 0 ∧ bitsOf w 10 54 = 0) && (!w.testBit 9 || decide (j = 2 ∨ j = 3))

/-- R227: bytes of a watch slot. -/
def watchSlotLen (tensors : Nat) : Nat := ceilDiv (64 + 32 * (tensors + 1)) 4096 * 4096

/-- R207 to R209: recipe `r` of the active set. A state region of length 0 is none, and no bound holds for it. R207 gives bases and lengths in
multiples of 4 KiB; one that is not fails validation, which R209's own list does not name (DEDUCED, assumption 66). -/
def State.recipeOk (s : State) (r : Nat) : Bool :=
  let a := s.getF Reg.CRS_ACT_RECIPE.BASE * 4096 + r * 128
  let h := s.hState r
  let x := s.aState r
  s.zeroAt a [(0, 16, 48), (2, 48, 16), (3, 48, 16), (4, 42, 22), (5, 42, 22), (6, 0, 64), (7, 32, 32)] &&
  decide (crc32 (s.peek a 56 ++ s.peek (a + 64) 64) = bitsOf (s.recipeW r 7) 0 32) &&
  ((List.range 8).all fun j => kindOk j (s.recipeW r (8 + j))) &&
  decide (s.watchBase r % 4096 = 0 ∧ h.1 % 4096 = 0 ∧ h.2 % 4096 = 0 ∧ x.1 % 4096 = 0 ∧ x.2 % 4096 = 0 ∧ (h.2 = 0 ∨ h.1 + 2 * h.2 ≤ s.hbmCap) ∧
    (x.2 = 0 ∨ x.1 + 2 * x.2 ≤ 2 ^ 42) ∧ s.watchBase r + (s.watchSlots r + 1) * watchSlotLen (bitsOf (s.recipeW r 0) 0 16) ≤ s.hbmCap)

/-- R211: ledger entry `t` of the active set. -/
def State.ledgerOk (s : State) (t : Nat) : Bool :=
  let a := s.ledgerAddr t
  let x := s.ledger t
  s.zeroAt a ([(0, 11, 1), (0, 21, 43)] ++ (List.range 7).map fun i => (9 + i, 0, 64)) &&
  decide (-64 ≤ x.exp ∧ x.exp ≤ 64 ∧ x.kind ≤ 4 ∧ x.fill ≤ 16)

/-- R209, R211: every recipe, and the ledger over the identities any recipe can name. -/
def State.recipesOk (s : State) : Bool × State :=
  let n := s.getF Reg.CRS_ACT_RECIPE.COUNT + 1
  let r := s.checkReads [(s.getF Reg.CRS_ACT_RECIPE.BASE * 4096, 128 * n)]
  let top := ((List.range n).map fun i => bitsOf (s.recipeW i 0) 0 16).foldl max 0
  if r.1 && (List.range n).all s.recipeOk then
    let q := r.2.checkReads [(s.ledgerAddr 0, 128 * (top + 1))]
    (q.1 && (List.range (top + 1)).all s.ledgerOk, q.2)
  else (false, r.2)

/-! ### Timetables (R442) -/

/-- R442: the ports and directions an entry occupies: 2 × port for sends, 2 × port + 1 for receives. -/
def SlotE.occupies (x : SlotE) : List Nat :=
  if x.kind = 6 then [2 * x.port, 2 * x.port + 1]
  else if x.kind = 7 then [2 * x.port, 2 * x.port + 1, 2 * x.fwd, 2 * x.fwd + 1]
  else [2 * x.port + bit x.recv]

/-- R442: two entries do not overlap in one direction of one port. -/
def SlotE.apart (x y : SlotE) : Bool :=
  !(x.occupies.any fun p => y.occupies.contains p) || decide (x.stop ≤ y.start ∨ y.stop ≤ x.start)

/-- R442: no two entries overlap. -/
def slotsApart : List SlotE → Bool
  | [] => true
  | x :: t => (t.all fun y => x.apart y) && slotsApart t

/-- R439: addresses of the structures of timetable `i`, with their lengths: header and slots, groups, descriptors, peer map. -/
def State.ttRegions (s : State) (i : Nat) : List (Nat × Nat) :=
  let d := bitsOf (s.ttW i 1) 40 8
  let pm := bitsOf (s.ttW i 4) 0 48
  [(s.ttAddr i, 64 + 64 * s.ttSlots i), (bitsOf (s.ttW i 2) 0 48, 8 * (bitsOf (s.ttW i 1) 32 8 + 1))] ++
    (if d = 0 then [] else [(bitsOf (s.ttW i 3) 0 48, 64 * d)]) ++ (if pm = 0 then [] else [(pm, 32768)])

/-- R439: the CRC of a timetable covers words 0 to 6, the slot entries, the group table, the descriptors and the peer map. -/
def State.ttCrc (s : State) (i : Nat) : Nat :=
  crc32 (s.peek (s.ttAddr i) 56 ++ s.peek (s.ttAddr i + 64) (64 * s.ttSlots i) ++
    ((s.ttRegions i).drop 1).flatMap fun r => s.peek r.1 r.2)

/-- R452: a dispatch descriptor is valid. -/
def State.dspOk (s : State) (i j : Nat) : Bool :=
  let a := bitsOf (s.ttW i 3) 0 48 + 64 * j
  let d := s.dsp i j
  s.zeroAt a [(0, 52, 12), (1, 32, 32), (2, 48, 16), (3, 48, 16), (4, 48, 16), (5, 48, 16), (6, 48, 16), (7, 0, 64)] &&
  decide (d.e % d.g = 0 ∧ d.g ≠ 1 ∧ d.rank < d.g)

/-- R440 to R442: slot entry `e` of timetable `i` is valid. -/
def State.slotOk (s : State) (i e : Nat) : Bool :=
  let a := s.ttAddr i + 64 + 64 * e
  let x := s.slotE i e
  let top := if x.tier = 1 then loftSize else s.hbmCap
  s.zeroAt a [(0, 54, 10), (1, 56, 8), (3, 52, 12), (4, 29, 3), (4, 52, 12), (5, 0, 64), (6, 0, 64), (7, 0, 64)] &&
  decide (x.kind ≤ 7 ∧ 25000 ≤ x.start ∧ x.start < x.stop ∧ x.peer ≤ s.ttModules i ∧ x.peer ≠ s.ttPos i) &&
  (decide (2 ≤ x.kind) || decide ((x.tier = 1 ∨ x.tier = 2) ∧ x.addr + (x.bytes - 200) ≤ top)) &&
  (decide (x.kind ≠ 1) || decide (x.arg ≤ bitsOf (s.ttW i 1) 32 8)) &&
  (!decide (x.kind = 2 ∨ x.kind = 3) || decide (x.arg < bitsOf (s.ttW i 1) 40 8)) &&
  (decide (x.kind ≠ 4) || decide (720 ≤ x.bytes)) &&
  (!decide (x.kind = 3) || x.recv ||
    (let d := s.dsp i x.arg
     decide (200 + d.epm * d.cap * d.rowBytes ≤ x.bytes)))

/-- R439: a group table entry is valid: BF16 or FP32, reserved bits zero. R442's own list does not name FMT (DEDUCED, assumption 66). -/
def State.groupOk (s : State) (i g : Nat) : Bool :=
  let w := s.peekW (bitsOf (s.ttW i 2) 0 48 + 8 * g)
  decide (bitsOf w 15 49 = 0 ∧ (bitsOf w 12 3 = 3 ∨ bitsOf w 12 3 = 4))

/-- R442: timetable `i` of the active set. -/
def State.ttOk (s : State) (i : Nat) : Bool × State :=
  let r := s.checkReads (s.ttRegions i)
  let w := s.peekW (s.getF Reg.CRS_ACT_TTAB.BASE * 4096 + 8 * i)
  (decide (bitsOf w 48 16 = 0 ∧ s.ttAddr i % 4096 = 0) && r.1 &&
    s.zeroAt (s.ttAddr i) [(0, 56, 8), (1, 48, 16), (2, 48, 16), (3, 48, 16), (4, 48, 16), (5, 0, 64), (6, 0, 64), (7, 32, 32)] &&
    decide (bitsOf (s.ttW i 0) 0 16 = 0x7A7B ∧ s.ttPos i ≤ s.ttModules i ∧ s.ttCrc i = bitsOf (s.ttW i 7) 0 32) &&
    ((List.range (s.ttSlots i)).all fun e => s.slotOk i e) && slotsApart ((List.range (s.ttSlots i)).map fun e => s.slotE i e) &&
    ((List.range (bitsOf (s.ttW i 1) 32 8 + 1)).all fun g => s.groupOk i g) &&
    ((List.range (bitsOf (s.ttW i 1) 40 8)).all fun d => s.dspOk i d), r.2)

/-- R442: every timetable. -/
def State.ttsOk (s : State) : Bool × State :=
  let n := s.getF Reg.CRS_ACT_TTAB.COUNT + 1
  let r := s.checkReads [(s.getF Reg.CRS_ACT_TTAB.BASE * 4096, 8 * n)]
  if r.1 then
    (List.range n).foldl (fun x i => let q := x.2.ttOk i; (x.1 && q.1, q.2)) (true, r.2)
  else (false, r.2)

/-- A check made in the state that the checks before it left; the outcome is good when all are. -/
def thenCheck (x : Bool × State) (f : State → Bool × State) : Bool × State := (x.1 && (f x.2).1, (f x.2).2)

/-- R81: the shadow set, seen as the active one, is valid; the second part holds the counters of its reads. -/
def State.setOk (s : State) : Bool × State :=
  if s.getF Reg.CRS_ACT_IMGTAB.BASE = 0 ∨ s.getF Reg.CRS_ACT_TTAB.BASE = 0 ∨ s.getF Reg.CRS_ACT_PLAN.BASE = 0 ∨
      s.getF Reg.CRS_ACT_RECIPE.BASE = 0 ∨ s.getF Reg.CRS_ACT_LEDGER.BASE = 0 then (false, s)
  else
    thenCheck (thenCheck (thenCheck s.imgTableOk State.ttsOk) State.planOk) State.recipesOk

/-- R81: the fields of the active set and the epoch put back as they are in `s`. -/
def State.keepActive (t s : State) : State :=
  t.setFs [(Reg.CRS_ACT_IMGTAB.COUNT, s.getF Reg.CRS_ACT_IMGTAB.COUNT), (Reg.CRS_ACT_IMGTAB.BASE, s.getF Reg.CRS_ACT_IMGTAB.BASE),
    (Reg.CRS_ACT_TTAB.COUNT, s.getF Reg.CRS_ACT_TTAB.COUNT), (Reg.CRS_ACT_TTAB.BASE, s.getF Reg.CRS_ACT_TTAB.BASE),
    (Reg.CRS_ACT_PLAN.BASE, s.getF Reg.CRS_ACT_PLAN.BASE),
    (Reg.CRS_ACT_RECIPE.COUNT, s.getF Reg.CRS_ACT_RECIPE.COUNT), (Reg.CRS_ACT_RECIPE.BASE, s.getF Reg.CRS_ACT_RECIPE.BASE),
    (Reg.CRS_ACT_LEDGER.BASE, s.getF Reg.CRS_ACT_LEDGER.BASE), (Reg.CRS_EPOCH.EPOCH, s.getF Reg.CRS_EPOCH.EPOCH)]

/-- R81: a write to CRS_SWAP. -/
def writeSwap (v : Nat) (s : State) : State :=
  if !v.testBit 0 || s.on Reg.CRS_STATUS.SWAP_PEND then s
  else
    let r := s.swapSets.setOk
    let t := r.2.keepActive s
    if r.1 then { t.setFs [(Reg.CRS_STATUS.SWAP_PEND, 1), (Reg.CRS_SWAP.REQ, 1)] with swapAt := s.now }
    else t.setF Reg.CRS_STATUS.SWAP_ERR 1
def execCrsSwapReq (v : W32) (s : State) : Out := onHub (fun s => s.gated 0x10040 (writeSwap v.toNat)) s

/-! ### The course image (R62, R63) -/

/-- R585: address of image `idx` of the active set. -/
def State.imgAddr (s : State) (idx : Nat) : Nat := bitsOf (s.peekW (s.getF Reg.CRS_ACT_IMGTAB.BASE * 4096 + 8 * idx)) 0 48

/-- R63: one phase of a cost table. -/
structure Phase where
  cycles : Nat
  dep : Nat
  power : Nat
  stream : Nat
  sector : Nat
  host : Nat
  loft : Nat
  deriving DecidableEq, Repr

def phaseOf (w0 w1 w2 w3 : Nat) : Phase :=
  ⟨bitsOf w0 0 32, bitsOf w0 32 16, bitsOf w0 48 16, bitsOf w1 0 48, bitsOf w2 0 48, bitsOf w3 0 40, bitsOf w3 40 24⟩

/-- R62: phases of the image at `a`, and the address of its cost table. -/
def State.imgPhases (s : State) (a : Nat) : Nat := bitsOf (s.peekW a) 24 8 + 1
def State.imgCost (s : State) (a : Nat) : Nat := s.peekW (a + 8)

/-- R63: the phases of the image at `a`. -/
def State.phases (s : State) (a : Nat) : List Phase :=
  let b := s.imgCost a
  (List.range (s.imgPhases a)).map fun i =>
    phaseOf (s.peekW (b + 32 * i)) (s.peekW (b + 32 * i + 8)) (s.peekW (b + 32 * i + 16)) (s.peekW (b + 32 * i + 24))

/-- R62, R63: the header and the cost table are well formed. -/
def State.imgFormOk (s : State) (a : Nat) : Bool :=
  let b := s.imgCost a
  let n := s.imgPhases a
  s.zeroAt a [(0, 22, 2), (3, 48, 16), (4, 32, 32), (5, 0, 64), (6, 0, 64), (7, 32, 32)] && decide (b % 64 = 0) &&
  decide (crc32 (s.peek a 56 ++ s.peek b (32 * n)) = bitsOf (s.peekW (a + 56)) 0 32) &&
  (List.range n).all fun i => s.zeroAt (b + 32 * i) [(1, 48, 16), (2, 48, 16)]

/-- R62: the image at `a` as the module holds it, before its deadlines are known. -/
def State.imageAt (s : State) (a idx : Nat) (seed : W64) : Image :=
  let w := fun i => s.peekW (a + 8 * i)
  let ps := s.phases a
  { idx := idx, seed := seed.toNat, beats := bitsOf (w 0) 0 20 + 1, stepFirst := (w 0).testBit 20, stepLast := (w 0).testBit 21,
    epoch := bitsOf (w 0) 32 32, progAddr := w 2, ttIdx := bitsOf (w 3) 0 16, recipeIdx := bitsOf (w 3) 16 16, envIdx := bitsOf (w 3) 32 16,
    footprint := bitsOf (w 4) 0 32, starts := [], deadlines := [], hostBytes := ps.any fun p => decide (p.host ≠ 0), power := ps.map (·.power) }

/-! ### Admission (R67) -/

/-- R587: the program table is valid. -/
def State.programsOk (s : State) (i : Image) : Bool :=
  (List.range 32).all fun l =>
    let w := s.peekW (i.progAddr + 8 * l)
    decide (bitsOf w 48 16 = 0 ∧ (bitsOf w 0 48 = 0 ∨ (bitsOf w 0 48 % 16 = 0 ∧ bitsOf w 0 48 < s.hbmCap)))

/-- R361, R362: splice entry `e` is well formed: reserved fields, its segment aligned, its save point within the envelope. -/
def State.spliceOk (s : State) (i : Image) (e : Nat) : Bool :=
  let a := (s.spliceTable i).2 + 16 * e
  s.zeroAt a [(0, 17, 15), (1, 60, 4)] && decide (bitsOf (s.peekW (a + 8)) 0 48 % 16 = 0 ∧ bitsOf (s.peekW a) 0 12 < (s.saveTable i).1)

/-- R362: order of a splice entry: LRAFT, then PC. -/
def State.spliceKey (s : State) (i : Image) (e : Nat) : Nat :=
  let w := s.peekW ((s.spliceTable i).2 + 16 * e)
  bitsOf w 12 5 * 2 ^ 32 + bitsOf w 32 32

/-- R362: ALLOW of a save point, which has a splice entry when it may be discarded. -/
def EnvSave.allowOk (e : EnvSave) (spliced : Bool) : Bool :=
  decide (e.allow ≠ 0) && (!(e.allow.testBit 1 || e.allow.testBit 2) || e.allow.testBit 3) && (!e.allow.testBit 3 || spliced)

/-- R362: the checks of an envelope that give 0x46. -/
def State.envOk (s : State) (i : Image) : Bool :=
  let t := s.saveTable i
  let u := s.spliceTable i
  let es := s.envSaves i
  s.zeroAt i.envAddr [(0, 12, 4), (0, 32, 32), (1, 48, 16), (2, 48, 16), (4, 0, 64), (5, 0, 64), (6, 0, 64), (7, 32, 32)] &&
  decide (crc32 (s.peek i.envAddr 56 ++ s.peek t.2 (32 * t.1) ++ s.peek u.2 (16 * u.1)) = bitsOf (s.envW i 7) 0 32) &&
  decide (t.2 % 64 = 0 ∧ u.2 % 64 = 0) &&
  ((List.range t.1).all fun k => s.zeroAt (t.2 + 32 * k) [(0, 34, 30), (1, 40, 24), (2, 32, 32), (3, 32, 32)]) &&
  ((List.range u.1).all fun e => s.spliceOk i e) &&
  ((List.range (u.1 - 1)).all fun e => Nat.ble (s.spliceKey i e) (s.spliceKey i (e + 1))) &&
  (es.zipIdx.all fun x => x.1.allowOk ((List.range u.1).any fun e => Nat.beq (bitsOf (s.peekW (u.2 + 16 * e)) 0 12) x.2)) &&
  rangesClear (es.map fun e => (e.off, e.len)) && es.all fun e => Nat.ble (e.off + e.len) s.saveSpan

/-- R362: the checks of an envelope that give 0x42. -/
def State.envFits (s : State) (i : Image) : Bool :=
  Nat.ble (((s.envSaves i).filter fun e => e.keepOnly).map (·.len)).sum s.poolLen &&
  decide (s.poolBase + s.poolLen ≤ s.hbmCap ∧ bitsOf (s.planW 5) 0 48 + (bitsOf (s.planW 6) 0 16 + 1) * 0x11000 ≤ s.hbmCap)

/-- R33, R270, R438: the image uses a degraded group. -/
def State.usesDegraded (s : State) (i : Image) : Bool :=
  !s.hbmDegraded.isEmpty ||
  ((List.range 32).any fun l => decide (s.progOf i l ≠ 0) &&
    (!s.raftInService (l / 8) (l % 8) || (List.range 4).any fun e => !s.vecInService (l / 8) (s.raftPhys (l / 8) (l % 8)) e)) ||
  (s.slotsOf i).any fun x =>
    let out := fun p => !s.on (Reg.LNK_STAT.UP p) || s.on (Reg.LNK_STAT.DEGRADED p)
    out x.port || (decide (x.kind = 7) && out x.fwd)

/-- R67: an exact quotient; 0 over 0 is 0, anything else over 0 is never reached in time. -/
def timeOf (n d : Nat) : Option Rat := if n = 0 then some 0 else if d = 0 then none else some (mkRat n d)

/-- R66: lanes of the CXL link times bytes per ns and lane, in sixteenths. -/
def State.hostRate16 (s : State) : Nat := s.getF Reg.HIF_LINK.WIDTH * (if s.getF Reg.HIF_LINK.RATE = 2 then 100 else if s.getF Reg.HIF_LINK.RATE = 1 then 50 else 0)

/-- R66, R67: worst-case time of a phase in ns; none when it needs a link that is down. -/
def State.phaseTime (s : State) (p : Phase) : Option Rat :=
  let a := 640 - s.getF Reg.GEN_SPARES.CHAN_OUT
  match timeOf (p.cycles * 20) 21, timeOf (p.stream * 6400) (540672 * a), timeOf (p.sector * 640) (18432 * a), timeOf (p.host * 16) s.hostRate16,
      timeOf (p.loft * 655360) 172032 with
  | some c, some st, some se, some h, some l => some (max (max c (st + se)) (max h l))
  | _, _, _, _, _ => none

/-- R67: what the phase loop gives: a status, or the time reached and each phase's start and deadline. -/
inductive PhaseEnd where
  | refused (status : Nat)
  | late
  | ends (t : Rat) (times : List (Nat × Nat))

/-- R67, R68: the phase loop from time `t`. -/
def State.phaseLoop (s : State) (limit : Nat) (slots : List SlotE) : List Phase → Rat → List (Nat × Nat) → PhaseEnd
  | [], t, ds => .ends t ds
  | p :: ps, t, ds =>
    if limit < p.power then .refused 0x44
    else
      let t := if p.dep = 0xFFFF then t else match slots[p.dep]? with | some x => max t (mkRat x.stop 1) | none => t
      match s.phaseTime p with
      | none => if ps.any fun q => Nat.blt limit q.power then .refused 0x44 else .late
      | some d =>
        let u := t + d + 5000
        s.phaseLoop limit slots ps u (ds ++ [(t.floor.toNat, u.ceil.toNat)])

/-- R67: a slot ends too late for the window, or overfills its port. -/
def State.slotBad? (s : State) (w : Rat) (x : SlotE) : Bool :=
  !((mkRat x.stop 1 + 15000 : Rat) ≤ w) || decide ((x.stop - x.start) * s.getF (Reg.LNK_STAT.LANES x.port) * 25 < x.bytes)

/-- R68: the result of a check: status, image with its deadlines, END_NS, WIN_NS. -/
structure Verdict where
  status : Nat
  img : Image
  endNs : Nat
  winNs : Nat

/-- R67: the last part of the check, from the window W on; R66: the beat period admission uses is the locked period less 500 ppm. A phase that
needs a host link with no lanes has no worst-case end, and the manual gives END_NS no value then: it is free (assumption 62). -/
def State.timeCheck (s : State) (limit : Nat) (i : Image) (ps : List Phase) : Verdict :=
  let w : Rat := mkRat (i.beats * s.beat.period7 * 9995) 70000000
  let win := w.floor.toNat
  match s.phaseLoop limit (s.slotsOf i) ps 25000 [] with
  | .refused st => ⟨st, i, 0, win⟩
  | .late => ⟨0x40, i, Config.openEnd s.freeCtr, win⟩
  | .ends t ds =>
    let i : Image := { i with starts := ds.map Prod.fst, deadlines := ds.map Prod.snd }
    let e := (t + 15000).ceil.toNat
    if !((t + 15000 : Rat) ≤ w) then ⟨0x40, i, e, win⟩
    else if (s.slotsOf i).any fun x => s.slotBad? w x then ⟨0x41, i, e, win⟩
    else ⟨0, i, e, win⟩

/-- R62, R342, R362: the structures an image names, to be read for its check. -/
def State.imgRegions (s : State) (i : Image) : List (Nat × Nat) :=
  (if i.hasTt && Nat.ble i.ttIdx (s.getF Reg.CRS_ACT_TTAB.COUNT) then (s.ttRegions i.ttIdx).take 1 else []) ++
  [(i.progAddr, 256), (i.envAddr, 64), ((s.saveTable i).2, 32 * (s.saveTable i).1)] ++
  (if (s.spliceTable i).1 = 0 then [] else [((s.spliceTable i).2, 16 * (s.spliceTable i).1)])

/-- R67: the checks of the image and its structures that give 0x46. -/
def State.imgNamesOk (s : State) (i : Image) (ps : List Phase) : Bool :=
  (!i.hasTt || Nat.ble i.ttIdx (s.getF Reg.CRS_ACT_TTAB.COUNT)) && Nat.ble i.recipeIdx (s.getF Reg.CRS_ACT_RECIPE.COUNT) &&
  (ps.all fun p => decide (p.dep = 0xFFFF) || (i.hasTt && Nat.blt p.dep (s.ttSlots i.ttIdx))) && s.programsOk i && s.envOk i

/-- R67: the step check; `prev` is the course admitted just before. -/
def stepOk (first : Bool) (prev : Option PrevCourse) : Bool :=
  first || match prev with | some p => !p.stepLast && !p.endedBad | none => false

/-- R67: an image without its content, for a check that ends before it is read. -/
def Image.unread (idx : Nat) (seed : W64) : Image :=
  { idx := idx, seed := seed.toNat, beats := 0, stepFirst := false, stepLast := false, epoch := 0, progAddr := 0, ttIdx := 0xFFFF, recipeIdx := 0,
    envIdx := 0, footprint := 0, starts := [], deadlines := [], hostBytes := false, power := [] }

/-- R67: the checks made of an image and its tables once they have been read; `ok` says that the reads were good. -/
def State.admitVerdict (s : State) (i : Image) (ps : List Phase) (prev : Option PrevCourse) (ns : Nat) (ok : Bool) : Verdict :=
  let no := fun st : Nat => (⟨st, i, 0, 0⟩ : Verdict)
  if !(ok && s.imgNamesOk i ps) then no 0x46
  else if !stepOk i.stepFirst prev then no 0x49
  else if s.usesDegraded i || decide (s.hbmCap < i.footprint * 2 ^ 20) || !s.envFits i then no 0x42
  else if i.stepLast && i.hasTt && !(s.slotsOf i).any fun x => Nat.beq x.kind 4 then no 0x70
  else s.timeCheck (s.powerLimit ns) i ps

/-- R67: the checks made of an image whose tables have been read with the outcome `q`. -/
def State.admitTables (s : State) (a : Nat) (i : Image) (prev : Option PrevCourse) (ns : Nat) (q : Bool × State) : Verdict × State :=
  (s.admitVerdict i (s.phases a) prev ns q.1, q.2)

/-- R67: the check of the image at `a`, whose own words have been read with the outcome `r`. -/
def State.admitImage (s : State) (a idx : Nat) (seed : W64) (prev : Option PrevCourse) (ns : Nat) (r : Bool × State) : Verdict × State :=
  if !(r.1 && s.imgFormOk a) then (⟨0x46, Image.unread idx seed, 0, 0⟩, r.2)
  else
    let i := s.imageAt a idx seed
    if i.epoch ≠ s.getF Reg.CRS_EPOCH.EPOCH then (⟨0x43, i, 0, 0⟩, r.2)
    else s.admitTables a i prev ns (r.2.checkReads (s.imgRegions i))

/-- R67: the check of the image at `a`, which entry `idx` of the table names: its words are read first. -/
def State.admitAt (s : State) (a idx : Nat) (seed : W64) (prev : Option PrevCourse) (ns : Nat) : Verdict × State :=
  s.admitImage a idx seed prev ns
    (s.checkReads [(s.getF Reg.CRS_ACT_IMGTAB.BASE * 4096 + 8 * idx, 8), (a, 64), (s.imgCost a, 32 * s.imgPhases a)])

/-- R67: the check of an image of the active set for a window that opens in `ns`; `prev` is the course admitted just before. -/
def State.tryAdmit (s : State) (idx : Nat) (seed : W64) (prev : Option PrevCourse) (ns : Nat) : Verdict × State :=
  if !s.on Reg.CRS_STATUS.LOCKED then (⟨0x45, Image.unread idx seed, 0, 0⟩, s)
  else if s.getF Reg.CRS_ACT_IMGTAB.COUNT < idx then (⟨0x46, Image.unread idx seed, 0, 0⟩, s)
  else s.admitAt (s.imgAddr idx) idx seed prev ns

/-- R68: CRS_ADM_STATUS, CRS_ADM_END and CRS_ADM_WIN report a check. -/
def State.reportAdmission (s : State) (v : Verdict) : State :=
  (s.setFs [(Reg.CRS_ADM_STATUS.STATUS, v.status), (Reg.CRS_ADM_END.END_NS, v.endNs), (Reg.CRS_ADM_WIN.WIN_NS, v.winNs)]).nextFree

/-- R82, R85: the check made against the set that will be active in a window that opens in `ns`: the shadow set, when a swap is pending that
takes effect by then. -/
def State.admitNext (s : State) (idx : Nat) (seed : W64) (prev : Option PrevCourse) (ns : Nat) : Verdict × State :=
  if s.on Reg.CRS_STATUS.SWAP_PEND && Nat.ble (s.swapAt + 10000) (s.now + ns) then
    let r := s.swapSets.tryAdmit idx seed prev ns
    (r.1, r.2.keepActive s)
  else s.tryAdmit idx seed prev ns

/-- R64: the ridge at which a course admitted now is expected to open: the end of the last waiting course's window, or else of the window that
runs, and idle windows later when that is less than 25 µs away. -/
def State.nextOpening (s : State) : Nat := s.ridgeFrom (s.openings s.windowEnd s.waiting).2 (s.now + 25000)

/-- R64 to R68, R112: a COURSE_RUN is checked as it is read: refused with the status, or admitted for its window. On a ring that shuts down it is
withdrawn as it is admitted (R124). -/
def courseRun (r : Nat) (s : State) : State :=
  s.onReq r 0x01 fun q s =>
    if s.on Reg.CRS_STATUS.HELD || !s.on Reg.CRS_CTRL.ENABLE then s.finish q 0x48
    else
      let t := s.nextOpening
      let a := s.admitNext (wbits (q.word 1) 0 12) (q.word 2) s.prev (t - s.now)
      let v := a.1
      let s := a.2.reportAdmission v
      if v.status ≠ 0 then s.finish q v.status
      else if !s.on (Reg.HIF_RING_STAT.ACTIVE r) then { s with prev := some ⟨v.img.stepLast, true⟩ }.finish q 0x48
      else { s with
        waiting := s.waiting ++ [⟨q, v.img, s.now + 25000, s.prev⟩]
        prev := some ⟨v.img.stepLast, false⟩ }
def execCourseRun (r : Nat) (s : State) : Out := onHub (courseRun r) s

end Sys2Proof.Machine
end

