-- ==== Sys2Proof/Machine/Vector.lean ====
section
/-! DEFINITION. Kernels (R231 to R240), errors of vector engines (R267, R269), watch counters (R224 to R226) with the vote (R216), and the
image and detection commands (R258 to R265). -/

namespace Sys2Proof.Machine

/-! ### Watch counters and the vote -/

/-- R226: counters stop at 2^40 − 1. -/
def Watch.add (a b : Watch) : Watch :=
  let m := fun x y : Nat => min (x + y) (2 ^ 40 - 1)
  ⟨m a.elems b.elems, m a.zeros b.zeros, m a.sat b.sat, m a.nonfin b.nonfin⟩

/-- R224: one conversion's counts, for `n` elements. -/
def Conv.watch (c : Conv) (n : Nat) : Watch := ⟨n, c.zeros, c.sat, c.nonfin⟩

/-- R216: what a tensor's counts do to the module's vote. -/
def State.castVote (s : State) (c : Course) (tid : Nat) (w : Watch) : State :=
  let k := (s.ledger tid).kind
  if k = 2 ∨ k = 3 then
    let sat := decide (0 < w.sat) && (s.kind c.img.recipeIdx k).satVote
    { s with stepVote := s.stepVote || decide (0 < w.nonfin) || sat, stepNonfin := s.stepNonfin || decide (0 < w.nonfin) }
  else s

/-- R213, R216, R224: counters of identity `tid` take effect, with the largest AMAX. -/
def State.addWatch (s : State) (x : Nat × Watch × W32) : State :=
  match s.course with
  | none => s
  | some c =>
    let old := (SMap.look none x.1 s.amax).getD 0
    let s : State := { s with
      watch := SMap.put Watch.zero x.1 ((SMap.look Watch.zero x.1 s.watch).add x.2.1) s.watch
      amax := SMap.put none x.1 (some (amaxOf old x.2.2)) s.amax }
    s.castVote c x.1 x.2.1

/-- R199, R212: the scale exponent of an identity; 0xFFFF has none. -/
def State.scaleOf (s : State) (tid : Nat) : Int :=
  if tid = 0xFFFF then 0
  else match s.course with
    | some c => c.scales.getD tid (s.ledger tid).exp
    | none => (s.ledger tid).exp

/-- R257: an identity beyond the recipe's TENSORS. -/
def State.badTid (s : State) (c : Course) (tid : Nat) : Bool := decide (tid ≠ 0xFFFF ∧ s.tensors c < tid)

/-! ### Errors of a vector engine (R267, R269) -/

/-- The physical vector engine that holds logical engine `e` of physical rafter `u`. -/
def State.vecPhys (s : State) (u e : Nat) : Nat :=
  ((List.range 5).find? fun v =>
    decide (s.getF (Reg.TRS_VEC_STAT.STATE (u / 9) (u % 9) v) = 0 ∧ s.getF (Reg.TRS_VEC_STAT.LOGICAL (u / 9) (u % 9) v) = e)).getD 0

/-- R267: a corrected register-file error. -/
def State.vecCorrected (s : State) (x : Nat) : State := s.bump (Reg.TRS_VEC_ERR.CE_REG (x / 45) (x / 5 % 9) (x % 5)) 1

/-- R269: physical vector engine `x`, 5 × (9n + k) + v, is marked failed with a cause and reslated at the next ridge. -/
def State.failVec (s : State) (x cause : Nat) : State :=
  let n := x / 45
  let k := x / 5 % 9
  let v := x % 5
  (s.setFs [(Reg.TRS_VEC_STAT.STATE n k v, 2), (Reg.TRS_VEC_STAT.LOGICAL n k v, 7), (Reg.TRS_VEC_STAT.CAUSE n k v, cause)]).requestReslate 1 x
    false

/-- R267: an uncorrectable register-file or program-buffer error, and a parity error. -/
def State.vecUncorrectable (s : State) (x : Nat) : State :=
  ((s.bump (Reg.TRS_VEC_ERR.UE_REG (x / 45) (x / 5 % 9) (x % 5)) 1).failVec x 2).raiseLine (4 + x / 45)
def State.vecParity (s : State) (x : Nat) : State :=
  ((s.bump (Reg.TRS_VEC_ERR.PARITY (x / 45) (x / 5 % 9) (x % 5)) 1).failVec x 1).raiseLine (x / 45)

/-- R267, R518: register words with inverted check bits are read in engine `x`: one bit is corrected, all of them are uncorrectable. -/
def State.badRegs (s : State) (x : Nat) (ws : List (Nat × Nat × Bool)) : State :=
  s.each ws fun s w => if w.2.2 then s.vecUncorrectable x else s.vecCorrected x

/-! ### VX.KERNEL (R235 to R240) -/

/-- R233: registers per thread, and resident sheafs per quad, of a REGS code. -/
def regsOf (code : Nat) : Nat := 16 * 2 ^ code
def quadSlots (code : Nat) : Nat := 128 / 2 ^ code

/-- R236: a 64-bit word of a parameter block, and its fields. -/
def paramW (p : List Byte) (i : Nat) : Nat := leNat ((p.drop (8 * i)).take 8)
def paramTid (p : List Byte) (n : Nat) : Nat := bitsOf (paramW p 0) (16 * n) 16
def paramTidA (p : List Byte) : Nat := bitsOf (paramW p 1) 0 16
def paramTidB (p : List Byte) : Nat := bitsOf (paramW p 1) 16 16
def paramSlots (p : List Byte) : Nat := bitsOf (paramW p 1) 32 32
def paramRecs (p : List Byte) : Nat := bitsOf (paramW p 2) 38 16
def paramRd (p : List Byte) : Nat × Nat := (bitsOf (paramW p 2) 0 19 * 64, bitsOf (paramW p 2) 19 19 * 64)
def paramWr (p : List Byte) : Nat × Nat := (bitsOf (paramW p 3) 0 19 * 64, bitsOf (paramW p 3) 19 19 * 64)
/-- R176: its reserved fields are zero. -/
def paramOk (p : List Byte) : Bool := decide (bitsOf (paramW p 2) 54 10 = 0 ∧ bitsOf (paramW p 3) 38 26 = 0)

/-- A list of bytes as 64-bit words. -/
def words64 (n : Nat) (bs : List Byte) : List W64 := (List.range n).map fun i => BitVec.ofNat 64 (leNat ((bs.drop (8 * i)).take 8))

/-- VX.KERNEL: code and parameters are read and the kernel begins; the rafter's next instruction waits for its end. -/
def vxKernel (lr : Nat) (w0 w1 : W64) (s : State) : State :=
  let code := (wbits w1 0 19 * 64, 8 * (wbits w1 19 11 + 1))
  let par := (wbits w1 30 19 * 64, 256)
  let p := s.rsRead lr par.1 256
  s.issue lr 0x40 w0 w1 [code, par, paramRd p, paramWr p] [paramWr p] fun c s =>
    let readable := (broken (s.rangeCodes lr [par])).isEmpty
    checked (s.rangeCodes lr [code, par] ++
        [(readable && !paramOk p, 0x90), (readable && (s.badTid c (paramTidA p) || s.badTid c (paramTidB p)), 0x91)]) <|
      let k : Kernel := ⟨wbits w0 37 1 = 1, wbits w0 38 2, wbits w0 40 16, words64 (wbits w1 19 11 + 1) (s.rsRead lr code.1 code.2), p,
        List.range 16, 0, [], w0, []⟩
      .began (s.setRaft lr { s.raft lr with kernel := some k, sheafs := [] })
def execVxKernel (lr : Nat) (w0 w1 : W64) (s : State) : Out := onCore (vxKernel lr w0 w1) s

/-- R232: a sheaf as it becomes resident. -/
def Sheaf.fresh (g regs : Nat) : Sheaf := ⟨g, 0, List.replicate 64 (List.replicate regs 0), List.replicate 64 true, [], []⟩

/-- R238: sheaf `g` takes a free slot of its quad, when it is the next of that quad. -/
def sheafResident (lr g : Nat) (s : State) : State :=
  if s.working.isNone then s else
  let x := s.raft lr
  match x.kernel with
  | none => s
  | some k =>
    let used := (x.sheafs.filter fun h => h.g % 16 = g % 16).length
    if g ≤ k.sheafs ∧ k.nextG.getD (g % 16) 0 = g ∧ used < quadSlots k.regs then
      let k' : Kernel := { k with nextG := k.nextG.set (g % 16) (g + 16) }
      s.setRaft lr { x with kernel := some k', sheafs := x.sheafs ++ [Sheaf.fresh g (regsOf k.regs)] }
    else s
def execSheafResident (lr g : Nat) (s : State) : Out := onCore (sheafResident lr g) s

/-- R240: every sheaf has ended: the watch counters are added and the kernel takes effect. -/
def kernelDone (lr : Nat) (s : State) : State :=
  if s.working.isNone then s else
  let x := s.raft lr
  match x.kernel with
  | none => s
  | some k =>
    if k.ended = k.sheafs + 1 then
      let s := s.each k.watch State.addWatch
      (s.setRaft lr { x with kernel := none, sheafs := [] }).settle lr (sigOf k.w0)
    else s
def execKernelDone (lr : Nat) (s : State) : Out := onCore (kernelDone lr) s

/-! ### Tensors of the image and detection commands (R258, R259) -/

/-- R258: a tensor descriptor, its counts plus one. -/
structure Tensor where
  addr : Nat
  fmt : Nat
  c : Nat
  w : Nat
  h : Nat
  t : Nat
  tid : Nat
  reserved : Bool
  deriving DecidableEq, Repr

def tensorOf (w0 w1 : Nat) : Tensor :=
  ⟨bitsOf w0 0 19 * 64, bitsOf w0 19 3, bitsOf w0 32 16 + 1, bitsOf w1 0 16 + 1, bitsOf w1 16 16 + 1, bitsOf w1 32 16 + 1, bitsOf w0 48 16,
    decide (bitsOf w0 22 10 = 0 ∧ bitsOf w1 48 16 = 0)⟩

/-- R258: index of element (t, h, w, c), the element count, and the bytes it fills. -/
def Tensor.idx (x : Tensor) (t h w c : Nat) : Nat := ((t * x.h + h) * x.w + w) * x.c + c
def Tensor.size (x : Tensor) : Nat := x.t * x.h * x.w * x.c
def Tensor.range (x : Tensor) (n : Nat) : Nat × Nat := (x.addr, n * fmtBytes x.fmt)

/-- R199, R259: element `i` of a tensor, widened with its scale removed. -/
def State.elem (s : State) (lr : Nat) (x : Tensor) (i : Nat) : W32 :=
  let v := widen x.fmt (leNat (s.rsRead lr (x.addr + i * fmtBytes x.fmt) (fmtBytes x.fmt)))
  if x.fmt ≤ 1 then fscale v (-(s.scaleOf x.tid)) else v

/-- The counts of a list of conversions. -/
def convSum (xs : List Conv) : Watch × W32 :=
  xs.foldl (fun a c => (a.1.add (c.watch 1), amaxOf a.2 c.amax)) (Watch.zero, 0)

/-- R255, R259: the elements of OUT are converted, stored and, unless marked, counted. -/
def State.putTensor (s : State) (lr : Nat) (x : Tensor) (rmark : Bool) (vs : List W32) : State :=
  let cs := vs.map fun v => toStored x.fmt v (s.scaleOf x.tid)
  let s := if rmark || decide (x.tid = 0xFFFF) then s else s.addWatch (x.tid, convSum cs)
  s.rsWrite lr x.addr (cs.flatMap fun c => leBytes (fmtBytes x.fmt) c.code)

/-- The command block (*Image and detection commands*). -/
structure VBlock where
  inp : Tensor
  out : Tensor
  aux : Tensor
  w6 : Nat
  w7 : Nat
  reserved : Bool
  deriving DecidableEq, Repr

def vBlock (bs : List Byte) : VBlock :=
  let w := paramW bs
  ⟨tensorOf (w 0) (w 1), tensorOf (w 2) (w 3), tensorOf (w 4) (w 5), w 6, w 7, (bs.drop 64).all (· = 0)⟩

/-- R177, R257, R258: the codes of a tensor a command uses. -/
def State.tensorCodes (s : State) (c : Course) (x : Tensor) : List (Bool × Nat) :=
  [(!x.reserved, 0x90), (decide (5 ≤ x.fmt), 0x90), (!thFmt x.fmt, 0x91), (s.badTid c x.tid, 0x91)]

/-- What a command's own rules ask: tensors it uses, further codes, ranges it reads, bytes of OUT, and its effect. -/
structure VCmd where
  used : List Tensor
  codes : List (Bool × Nat)
  reads : List (Nat × Nat)
  writes : List (Nat × Nat)
  act : State → State

/-- R258, R259, R268: the frame of the image and detection commands. Bits of words 6 and 7 that no field of a command names, and that R263 to
R265 do not call reserved, are not looked at (DESIGN CHOICE, assumption 88). -/
def State.vCommand (s : State) (lr op : Nat) (w0 w1 : W64) (f : VBlock → Bool → VCmd) : State :=
  let par := (wbits w1 0 19 * 64, 128)
  let b := vBlock (s.rsRead lr par.1 128)
  let cmd := f b (wbits w0 37 1 = 1)
  s.issue lr op w0 w1 (par :: cmd.reads) cmd.writes fun c s =>
    let early := broken (s.rangeCodes lr [par])
    if !early.isEmpty then .bad early
    else checked ([(!b.reserved, 0x90)] ++ cmd.used.flatMap (s.tensorCodes c) ++ cmd.codes ++ s.rangeCodes lr cmd.reads ++
        [(!cmd.writes.all inStore, 0x92)]) (.done (cmd.act s))

/-! ### Convolution and pooling (R260 to R262) -/

/-- R260: taps, strides, dilations and padding of one axis. -/
structure Axis where
  k : Nat
  st : Nat
  d : Nat
  p : Nat
  deriving DecidableEq, Repr

def axisT (w : Nat) : Axis := ⟨bitsOf w 0 2 + 1, bitsOf w 8 2 + 1, bitsOf w 14 2 + 1, bitsOf w 20 3⟩
def axisH (w : Nat) : Axis := ⟨bitsOf w 2 3 + 1, bitsOf w 10 2 + 1, bitsOf w 16 2 + 1, bitsOf w 23 3⟩
def axisW (w : Nat) : Axis := ⟨bitsOf w 5 3 + 1, bitsOf w 12 2 + 1, bitsOf w 18 2 + 1, bitsOf w 26 3⟩

/-- R260: the output size of an axis is the one its window gives. -/
def Axis.fits (a : Axis) (i o : Nat) : Bool :=
  decide ((o : Int) = ((i : Int) + 2 * a.p - a.d * (a.k - 1) - 1) / a.st + 1)

/-- The input index of a tap of an axis, when it is real. -/
def Axis.at (a : Axis) (i o k : Nat) : Option Nat :=
  let x := o * a.st + k * a.d
  if a.p ≤ x ∧ x - a.p < i then some (x - a.p) else none

/-- The real taps of an output element in increasing tap order: input (t, h, w) and tap (kt, kh, kw). -/
def realTaps (inp : Tensor) (w6 ot oh ow : Nat) : List ((Nat × Nat × Nat) × (Nat × Nat × Nat)) :=
  (List.range (axisT w6).k).flatMap fun kt => (List.range (axisH w6).k).flatMap fun kh => (List.range (axisW w6).k).filterMap fun kw =>
    match (axisT w6).at inp.t ot kt, (axisH w6).at inp.h oh kh, (axisW w6).at inp.w ow kw with
    | some t, some h, some w => some ((t, h, w), (kt, kh, kw))
    | _, _, _ => none

/-- The output coordinates (t, h, w, c) of a tensor in storage order. -/
def outCoords (x : Tensor) : List (Nat × Nat × Nat × Nat) :=
  (List.range x.t).flatMap fun t => (List.range x.h).flatMap fun h => (List.range x.w).flatMap fun w => (List.range x.c).map fun c => (t, h, w, c)

/-- R260: the shape codes of a windowed command. -/
def windowCodes (b : VBlock) : List (Bool × Nat) :=
  [(decide (bitsOf b.w6 35 29 ≠ 0), 0x90), (decide (b.out.c ≠ b.inp.c), 0x91), (!(axisT b.w6).fits b.inp.t b.out.t, 0x91),
   (!(axisH b.w6).fits b.inp.h b.out.h, 0x91), (!(axisW b.w6).fits b.inp.w b.out.w, 0x91)]

/-- R261: one output element of a convolution. -/
def State.dwElem (s : State) (lr : Nat) (b : VBlock) (o : Nat × Nat × Nat × Nat) : W32 :=
  let gc := bitsOf b.w6 29 5 + 1
  let c := o.2.2.2
  let bias := if b.w6.testBit 34 then BitVec.ofNat 32 (leNat (s.rsRead lr (bitsOf b.w7 0 19 * 64 + 4 * c) 4)) else 0
  (realTaps b.inp b.w6 o.1 o.2.1 o.2.2.1).foldl (fun acc x =>
    (List.range gc).foldl (fun acc j =>
      let i := x.1
      let k := x.2
      let f := (((k.1 * (axisH b.w6).k + k.2.1) * (axisW b.w6).k + k.2.2) * b.inp.c + c) * gc + j
      ffma (s.elem lr b.inp (b.inp.idx i.1 i.2.1 i.2.2 (c / gc * gc + j))) (s.elem lr b.aux f) acc) acc) bias

/-- R261: what VX.DWCONV asks and does. -/
def dwconvCmd (lr : Nat) (b : VBlock) (rmark : Bool) : VCmd :=
  let gc := bitsOf b.w6 29 5 + 1
  let taps := (axisT b.w6).k * (axisH b.w6).k * (axisW b.w6).k
  { used := [b.inp, b.out, b.aux]
    codes := windowCodes b ++ [(decide (b.inp.c % gc ≠ 0), 0x91)]
    reads := [b.inp.range b.inp.size, b.aux.range (taps * b.inp.c * gc)] ++
      (if b.w6.testBit 34 then [(bitsOf b.w7 0 19 * 64, 4 * b.inp.c)] else [])
    writes := [b.out.range b.out.size]
    act := fun s => s.putTensor lr b.out rmark ((outCoords b.out).map (s.dwElem lr b)) }

def vxDwconv (lr : Nat) (w0 w1 : W64) (s : State) : State := s.vCommand lr 0x41 w0 w1 (dwconvCmd lr)
def execVxDwconv (lr : Nat) (w0 w1 : W64) (s : State) : Out := onCore (vxDwconv lr w0 w1) s

/-- R262: one output element of a pooling. -/
def State.poolElem (s : State) (lr : Nat) (b : VBlock) (o : Nat × Nat × Nat × Nat) : W32 :=
  let xs := (realTaps b.inp b.w6 o.1 o.2.1 o.2.2.1).map fun x => s.elem lr b.inp (b.inp.idx x.1.1 x.1.2.1 x.1.2.2 o.2.2.2)
  match bitsOf b.w7 0 2 with
  | 0 => (match xs with | [] => 0xFF800000 | x :: t => t.foldl fmax x)
  | 1 => fdiv (xs.foldl fadd 0) (ofNat32 ((axisT b.w6).k * (axisH b.w6).k * (axisW b.w6).k))
  | _ => if xs.isEmpty then 0 else fdiv (xs.foldl fadd 0) (ofNat32 xs.length)

/-- R262: what VX.POOL asks and does. It uses no AUX, nor does VX.RESAMP, and the manual does not say that their AUX descriptors are checked:
they are not (DESIGN CHOICE, assumption 88). -/
def poolCmd (lr : Nat) (b : VBlock) (rmark : Bool) : VCmd :=
  { used := [b.inp, b.out]
    codes := windowCodes b ++ [(decide (bitsOf b.w6 29 6 ≠ 0), 0x91), (decide (bitsOf b.w7 0 2 = 3), 0x90)]
    reads := [b.inp.range b.inp.size]
    writes := [b.out.range b.out.size]
    act := fun s => s.putTensor lr b.out rmark ((outCoords b.out).map (s.poolElem lr b)) }

def vxPool (lr : Nat) (w0 w1 : W64) (s : State) : State := s.vCommand lr 0x42 w0 w1 (poolCmd lr)
def execVxPool (lr : Nat) (w0 w1 : W64) (s : State) : Out := onCore (vxPool lr w0 w1) s

/-! ### Resampling (R263) -/

/-- FP32 constants: 0.5 and −0.5. -/
def half32 : W32 := 0x3F000000
def negHalf32 : W32 := 0xBF000000

/-- R263: the input coordinate of output index `o`. -/
def coordOf (align : Bool) (o i n : Nat) : W32 :=
  let v := if align then (if n = 1 then 0 else fmul (ofNat32 o) (fdiv (ofNat32 (i - 1)) (ofNat32 (n - 1))))
    else ffma (fadd (ofNat32 o) half32) (fdiv (ofNat32 i) (ofNat32 n)) negHalf32
  fmin (fmax v 0) (ofNat32 (i - 1))

/-- The integer part of a value at or above zero. -/
def floor32 (a : W32) : Nat := (cvti a).toNat

/-- R263: one output element. -/
def State.resampElem (s : State) (lr : Nat) (b : VBlock) (o : Nat × Nat × Nat × Nat) : W32 :=
  let align := b.w6.testBit 2
  let sh := coordOf align o.2.1 b.inp.h b.out.h
  let sw := coordOf align o.2.2.1 b.inp.w b.out.w
  let x := fun h w => s.elem lr b.inp (b.inp.idx o.1 h w o.2.2.2)
  if bitsOf b.w6 0 2 = 0 then x (floor32 (fadd sh half32)) (floor32 (fadd sw half32))
  else
    let h0 := floor32 sh
    let w0 := floor32 sw
    let h1 := min (h0 + 1) (b.inp.h - 1)
    let w1 := min (w0 + 1) (b.inp.w - 1)
    let ah := fsub sh (ofNat32 h0)
    let aw := fsub sw (ofNat32 w0)
    let top := ffma aw (fsub (x h0 w1) (x h0 w0)) (x h0 w0)
    let bot := ffma aw (fsub (x h1 w1) (x h1 w0)) (x h1 w0)
    ffma ah (fsub bot top) top

/-- R263: what VX.RESAMP asks and does. -/
def resampCmd (lr : Nat) (b : VBlock) (rmark : Bool) : VCmd :=
  { used := [b.inp, b.out]
    codes := [(decide (b.out.t ≠ b.inp.t ∨ b.out.c ≠ b.inp.c), 0x91), (decide (2 ≤ bitsOf b.w6 0 2), 0x90)]
    reads := [b.inp.range b.inp.size]
    writes := [b.out.range b.out.size]
    act := fun s => s.putTensor lr b.out rmark ((outCoords b.out).map (s.resampElem lr b)) }

def vxResamp (lr : Nat) (w0 w1 : W64) (s : State) : State := s.vCommand lr 0x43 w0 w1 (resampCmd lr)
def execVxResamp (lr : Nat) (w0 w1 : W64) (s : State) : Out := onCore (vxResamp lr w0 w1) s

/-! ### Boxes (R264, R265) -/

/-- R264: a list of N boxes: four channels, one row, one frame. -/
def Tensor.boxes (x : Tensor) : Bool := decide (x.c = 4 ∧ x.h = 1 ∧ x.t = 1)

/-- R264: one box. -/
def boxDec (clip xmax ymax dx dy dw dh acx acy aw ah : W32) : List W32 :=
  let log2e : W32 := 0x3FB8AA3B
  let cx := ffma dx aw acx
  let cy := ffma dy ah acy
  let w := fmul aw (exp2 (fmul (fmin dw clip) log2e))
  let h := fmul ah (exp2 (fmul (fmin dh clip) log2e))
  let lim := fun v m => fmin (fmax v 0) m
  [lim (fsub cx (fmul w half32)) xmax, lim (fsub cy (fmul h half32)) ymax, lim (fadd cx (fmul w half32)) xmax,
    lim (fadd cy (fmul h half32)) ymax]

def w32Of (n : Nat) : W32 := BitVec.ofNat 32 n

def State.boxOf (s : State) (lr : Nat) (b : VBlock) (i : Nat) : List W32 :=
  let d := fun j => s.elem lr b.inp (4 * i + j)
  let a := fun j => s.elem lr b.aux (4 * i + j)
  boxDec (w32Of (bitsOf b.w6 0 32)) (w32Of (bitsOf b.w7 0 32)) (w32Of (bitsOf b.w7 32 32)) (d 0) (d 1) (d 2) (d 3) (a 0) (a 1) (a 2) (a 3)

/-- R264: what VX.BOXDEC asks and does. -/
def boxdecCmd (lr : Nat) (b : VBlock) (rmark : Bool) : VCmd :=
  { used := [b.inp, b.out, b.aux]
    codes := [(!b.inp.boxes || !b.aux.boxes || !b.out.boxes, 0x91), (decide (b.inp.w ≠ b.aux.w ∨ b.inp.w ≠ b.out.w), 0x91),
      (decide (b.out.fmt ≠ 4), 0x91)]
    reads := [b.inp.range b.inp.size, b.aux.range b.aux.size]
    writes := [b.out.range b.out.size]
    act := fun s => s.putTensor lr b.out rmark ((List.range b.inp.w).flatMap (s.boxOf lr b)) }

def vxBoxdec (lr : Nat) (w0 w1 : W64) (s : State) : State := s.vCommand lr 0x44 w0 w1 (boxdecCmd lr)
def execVxBoxdec (lr : Nat) (w0 w1 : W64) (s : State) : Out := onCore (vxBoxdec lr w0 w1) s

/-- R265: a box and its area. -/
structure Box where
  x0 : W32
  y0 : W32
  x1 : W32
  y1 : W32
  deriving DecidableEq, Repr

def Box.area (b : Box) : W32 := fmul (fmax (fsub b.x1 b.x0) 0) (fmax (fsub b.y1 b.y0) 0)

/-- R265: the overlap of two boxes. -/
def iou (a b : Box) : W32 :=
  let ix := fmax (fsub (fmin a.x1 b.x1) (fmax a.x0 b.x0)) 0
  let iy := fmax (fsub (fmin a.y1 b.y1) (fmax a.y0 b.y0)) 0
  let inter := fmul ix iy
  let uni := fsub (fadd a.area b.area) inter
  if fle uni 0 then 0 else fdiv inter uni

/-- R265: a candidate into the order of scores, after those of an equal score. -/
def rankInsert (x : Nat × W32) : List (Nat × W32) → List (Nat × W32)
  | [] => [x]
  | y :: t => if ordKey y.2 < ordKey x.2 then x :: y :: t else y :: rankInsert x t
def ranked (xs : List (Nat × W32)) : List (Nat × W32) := xs.foldl (fun l x => rankInsert x l) []

/-- R265: the boxes kept, in order. -/
def nms (box : Nat → Box) (thr : W32) (kmax : Nat) : List Nat → List Nat → List Nat
  | [], keep => keep
  | i :: t, keep =>
    if keep.length = kmax then keep
    else nms box thr kmax t (if keep.all fun j => fle (iou (box i) (box j)) thr then keep ++ [i] else keep)

/-- R265: the indices VX.NMS writes, and their count. -/
def State.nmsOut (s : State) (lr : Nat) (b : VBlock) : List Nat :=
  let kmax := bitsOf b.w6 32 16 + 1
  let scores := (List.range b.inp.w).map fun i => (i, s.elem lr b.aux i)
  let cand := ranked (scores.filter fun x => fle (w32Of (bitsOf b.w7 0 32)) x.2)
  let box := fun i => let e := fun j => s.elem lr b.inp (4 * i + j); (⟨e 0, e 1, e 2, e 3⟩ : Box)
  nms box (w32Of (bitsOf b.w6 0 32)) kmax (cand.map (·.1)) []

/-- R265: what VX.NMS asks and does. The manual gives C, W, H and T of OUT no values: they are not looked at, and KMAX words go to its ADDR
(DESIGN CHOICE, assumption 88). -/
def nmsCmd (lr : Nat) (b : VBlock) (_rmark : Bool) : VCmd :=
  let kmax := bitsOf b.w6 32 16 + 1
  let cnt := bitsOf b.w7 32 19 * 64
  { used := [b.inp, b.out, b.aux]
    codes := [(!b.inp.boxes, 0x91), (decide (b.inp.fmt ≠ 4 ∨ b.aux.fmt ≠ 4), 0x91),
      (decide (b.aux.c ≠ 1 ∨ b.aux.w ≠ b.inp.w ∨ b.aux.h ≠ 1 ∨ b.aux.t ≠ 1), 0x91), (decide (b.out.fmt ≠ 4 ∨ b.out.tid ≠ 0xFFFF), 0x91)]
    reads := [b.inp.range b.inp.size, b.aux.range b.aux.size]
    writes := [(b.out.addr, 4 * kmax), (cnt, 4)]
    act := fun s =>
      let keep := s.nmsOut lr b
      let all := keep ++ List.replicate (kmax - keep.length) (2 ^ 32 - 1)
      (s.rsWrite lr b.out.addr (all.flatMap (leBytes 4))).rsWrite lr cnt (leBytes 4 keep.length) }

def vxNms (lr : Nat) (w0 w1 : W64) (s : State) : State := s.vCommand lr 0x45 w0 w1 (nmsCmd lr)
def execVxNms (lr : Nat) (w0 w1 : W64) (s : State) : Out := onCore (vxNms lr w0 w1) s

end Sys2Proof.Machine
end

