-- ==== Sys2Proof/Machine/Attn.lean ====
section
/-! DEFINITION. Training attention (R272 to R283): AT.FWD, AT.BWD, and the row procedures they share with AT.DEC. -/

namespace Sys2Proof.Machine

/-! ### Real keys and the forward row (R277, R279 to R281) -/

/-- The fields that fix the arithmetic of an attention command. -/
structure AtMath where
  /-- R279: format of Q, K and V, and whether it is an FP8 format. -/
  fmt : Nat
  mask : Nat
  frame : Nat
  cScale : W32
  eq : Int
  ek : Int
  ev : Int

def AtMath.fp8 (m : AtMath) : Bool := decide (m.fmt ≤ 1)
/-- R279: the split mode of the products. -/
def AtMath.split (m : AtMath) : Nat := if m.fp8 then 0 else 2

/-- R277: key `j` is real for the query at position `p`. -/
def AtMath.real (m : AtMath) (p : Int) (j : Nat) : Bool :=
  match m.mask with
  | 1 => decide ((j : Int) ≤ p)
  | 2 => decide ((j : Int) / m.frame ≤ p / m.frame)
  | _ => true

/-- R200: the raw sum of two rows of element codes of formats `fa` and `fb`. -/
def dotRaw (split fa fb : Nat) (a b : List Nat) : W32 := (refSum split false (a.map (decodeF fa)) (b.map (decodeF fb)) [] [] none).getD 0

/-- The largest of some values, by R195; −Inf of none. -/
def maxOf : List W32 → W32
  | [] => 0xFF800000
  | x :: t => t.foldl fmax x

/-- R280: the fixed pairwise sum of a block of at most 512 leaves. -/
def tree512 (xs : List W32) : W32 := pairTree fadd 0 9 (xs ++ List.replicate (512 - xs.length) 0)

/-- R279: P as stored: E4M3 with scale exponent 8, or BF16; its format. -/
def AtMath.pFmt (m : AtMath) : Nat := if m.fp8 then 0 else 3
def AtMath.pCode (m : AtMath) (p : W32) : Nat := if m.fp8 then (toFp8 0 p 8).code else (toWide 3 p).code
/-- The exponent of stored P. -/
def AtMath.pExp (m : AtMath) : Int := if m.fp8 then 8 else 0

/-- R280: x[j]. -/
def AtMath.score (m : AtMath) (q k : List Nat) : W32 := fmul (fscale (dotRaw m.split m.fmt m.fmt q k) (-(m.eq + m.ek))) m.cScale

/-- The running values of R280. -/
structure FwdAcc where
  m : W32
  l : W32
  o : List W32
  rises : Nat

/-- R280: one block: its keys and values in increasing key, `base` the first key. -/
def AtMath.fwdBlock (m : AtMath) (q : List Nat) (p : Int) (acc : FwdAcc) (base : Nat) (kvs : List (List Nat × List Nat)) : FwdAcc :=
  let real := fun i => m.real p (base + i)
  if !(List.range kvs.length).any real then acc
  else
    let xs := kvs.zipIdx.map fun x => if real x.2 then some (m.score q x.1.1) else none
    let mn := fmax acc.m (maxOf (xs.filterMap id))
    let up := decide (acc.m ≠ 0xFF800000) && flt acc.m mn
    let a := if up then exp2 (fsub acc.m mn) else 0x3F800000
    let ps := xs.map fun x => match x with | some v => exp2 (fsub v mn) | none => 0
    let codes := ps.map m.pCode
    let pv := fun d => fscale (dotRaw m.split m.pFmt m.fmt codes (kvs.map fun x => x.2.getD d 0)) (-(m.pExp + m.ev))
    ⟨mn, ffma acc.l a (tree512 ps), acc.o.zipIdx.map fun x => ffma x.1 a (pv x.2), acc.rises + bit (flt a 0x3F800000)⟩

/-- R280, R281: the row procedure: the outputs, the LSE, and the steps with a below 1. -/
def AtMath.fwdRow (m : AtMath) (d : Nat) (q : List Nat) (p : Int) (kvs : List (List Nat × List Nat)) : List W32 × W32 × Nat :=
  let r := ((chunks 512 kvs (kvs.length / 512 + 1)).zipIdx).foldl (fun acc b => m.fwdBlock q p acc (512 * b.2) b.1)
    ⟨0xFF800000, 0, List.replicate d 0, 0⟩
  if r.l = 0 then (List.replicate d 0, 0xFF800000, r.rises)
  else (r.o.map fun o => fdiv o r.l, fadd r.m (log2 r.l), r.rises)

/-- TRS_ATT_SKIP: key blocks with no real key for a whole query tile of at most 512 rows, the rows at positions `ps`. -/
def AtMath.skips (m : AtMath) (ps : List Int) (keys : Nat) : Nat :=
  ((chunks 512 ps (ps.length / 512 + 1)).map fun tile =>
    ((List.range (ceilDiv keys 512)).filter fun b =>
      !(tile.any fun p => (List.range (min 512 (keys - 512 * b))).any fun i => m.real p (512 * b + i))).length).sum

/-! ### The command block (R273 to R276) -/

/-- R274: the fields of the command block. -/
structure AtBlock where
  q : Nat
  k : Nat
  v : Nat
  fmt : Nat
  mask : Nat
  o : Nat
  lse : Nat
  lt : Nat
  dcode : Nat
  hq : Nat
  hkv : Nat
  nseq : Nat
  frame : Nat
  ofmt : Nat
  slotb : Nat
  cScale : W32
  cGrad : W32
  tidQ : Nat
  tidK : Nat
  tidV : Nat
  tidO : Nat
  scr : Nat
  dO : Nat
  dQ : Nat
  dK : Nat
  tidDO : Nat
  tidDQ : Nat
  tidDK : Nat
  tidDV : Nat
  dV : Nat
  tidDS : Nat
  /-- reserved fields are zero; the words AT.FWD asks to be zero are zero. -/
  reserved : Bool
  noGrad : Bool

def atBlock (bs : List Byte) : AtBlock :=
  let w := paramW bs
  let a := fun i lo => bitsOf (w i) lo 19 * 64
  let t := fun i n => bitsOf (w i) (16 * n) 16
  { q := a 0 0, k := a 0 19, v := a 0 38, fmt := bitsOf (w 0) 57 3, mask := bitsOf (w 0) 60 2, o := a 1 0, lse := a 1 19, lt := a 1 38,
    dcode := bitsOf (w 2) 0 2, hq := bitsOf (w 2) 2 8 + 1, hkv := bitsOf (w 2) 10 6 + 1, nseq := bitsOf (w 2) 16 10 + 1,
    frame := bitsOf (w 2) 26 16 + 1, ofmt := bitsOf (w 2) 42 3, slotb := bitsOf (w 2) 45 1, cScale := w32Of (bitsOf (w 3) 0 32),
    cGrad := w32Of (bitsOf (w 3) 32 32), tidQ := t 4 0, tidK := t 4 1, tidV := t 4 2, tidO := t 4 3, scr := a 5 0, dO := a 6 0, dQ := a 6 19,
    dK := a 6 38, tidDO := t 7 0, tidDQ := t 7 1, tidDK := t 7 2, tidDV := t 7 3, dV := a 8 0, tidDS := bitsOf (w 8) 19 16,
    reserved := decide (bitsOf (w 0) 62 2 = 0 ∧ bitsOf (w 1) 57 7 = 0 ∧ bitsOf (w 2) 46 18 = 0 ∧ bitsOf (w 5) 19 45 = 0 ∧ bitsOf (w 6) 57 7 = 0 ∧
      bitsOf (w 8) 35 29 = 0) && (bs.drop 72).all (· = 0),
    noGrad := decide (w 6 = 0 ∧ w 7 = 0 ∧ w 8 = 0) }

/-- R274: head dimension of a DCODE. -/
def headDim (code : Nat) : Nat := 64 * 2 ^ code

/-- R275: byte address of element (t, h, 0) of a tensor of `hs` heads. -/
def atElem (base hs d w t h : Nat) : Nat := base + (t * hs + h) * d * w

/-- R276: one length-table entry. -/
structure LtE where
  qs : Nat
  ql : Nat
  ks : Nat
  kl : Nat
  deriving DecidableEq, Repr

def State.ltEntry (s : State) (lr a i : Nat) : LtE :=
  let w0 := s.rsWord lr (a + 16 * i)
  let w1 := s.rsWord lr (a + 16 * i + 8)
  ⟨bitsOf w0 0 32, bitsOf w0 32 32, bitsOf w1 0 32, bitsOf w1 32 32⟩

/-- R276: the entries, and whether each Q_START is at least the end of the one before. -/
def State.ltEntries (s : State) (lr : Nat) (b : AtBlock) : List LtE := (List.range b.nseq).map (s.ltEntry lr b.lt)
def ltRising : List LtE → Bool
  | x :: y :: t => decide (x.qs + x.ql ≤ y.qs) && ltRising (y :: t)
  | _ => true

/-- The rafter-store ranges of the rows of an entry in a tensor of `hs` heads of `w` bytes an element. -/
def entryRange (base hs d w start len : Nat) : Nat × Nat := (base + start * hs * d * w, len * hs * d * w)

/-- The fields' arithmetic. -/
def State.atMath (s : State) (b : AtBlock) : AtMath :=
  ⟨b.fmt, b.mask, b.frame, b.cScale, s.scaleOf b.tidQ, s.scaleOf b.tidK, s.scaleOf b.tidV⟩

/-- Element codes of a row of a tensor. -/
def State.atRow (s : State) (lr base hs d f t h : Nat) : List Nat :=
  bytesElems f d (s.rsRead lr (atElem base hs d (fmtBytes f) t h) (d * fmtBytes f))

/-- R274, R177: the codes of a format field that takes E4M3, E5M2, BF16 and, when `wide`, FP32. -/
def fmtCodes (f : Nat) (wide : Bool) : List (Bool × Nat) :=
  [(decide (5 ≤ f), 0x90), (decide (f = 2) || (decide (f = 4) && !wide), 0x91)]

/-- R257, R274, R276: the codes of the block itself. -/
def State.atCodes (s : State) (c : Course) (b : AtBlock) : List (Bool × Nat) :=
  [(!b.reserved, 0x90), (decide (b.mask = 3), 0x90), (decide (b.dcode = 3), 0x91), (decide (b.hq % b.hkv ≠ 0), 0x91),
   ([b.tidQ, b.tidK, b.tidV, b.tidO].any (s.badTid c), 0x91)] ++ fmtCodes b.fmt false ++ fmtCodes b.ofmt true

/-- The ranges of Q, K and V, and of O and LSE, over the entries with queries. -/
def AtBlock.qRange (b : AtBlock) (base w : Nat) (e : LtE) : Nat × Nat := entryRange base b.hq (headDim b.dcode) w e.qs e.ql
def AtBlock.kRange (b : AtBlock) (base w : Nat) (e : LtE) : Nat × Nat := entryRange base b.hkv (headDim b.dcode) w e.ks e.kl
def AtBlock.lseRange (b : AtBlock) (e : LtE) : Nat × Nat := (b.lse + e.qs * b.hq * 4, e.ql * b.hq * 4)

/-- Values stored to a range in a format, converted and counted by R255. -/
def State.atStore (s : State) (lr f tid a : Nat) (rmark : Bool) (vs : List W32) : State :=
  s.putTensor lr ⟨a, f, 1, 1, 1, 1, tid, true⟩ rmark vs

/-! ### Scratch and accumulator units (R273, R274) -/

/-- A free byte of a command's scratch area. -/
def scratchBytes (ctr n : Nat) : List Byte := (List.range n).map fun i => Config.openByte ctr i

/-- R273, R274: the scratch area holds what the command left there, and the tiles of its accumulator units are gone. -/
def State.useScratch (s : State) (lr scr slotb : Nat) : State :=
  let x := s.raft lr
  let gone := fun k => match SMap.look none k x.slots with
    | some (t : SlotState) => overlaps k (shapeUnits t.shape) (16 * slotb) 16
    | none => false
  let m := ((List.range 32).filter gone).foldl (fun m k => SMap.put none k none m) x.slots
  ((s.setRaft lr { x with slots := m }).rsWrite lr scr (scratchBytes s.freeCtr 0x200000)).nextFree

/-! ### AT.FWD -/

/-- R280: the rows of one entry and head: outputs, LSE and rises of each query. -/
def State.fwdHead (s : State) (lr : Nat) (b : AtBlock) (e : LtE) (h : Nat) : List (List W32 × W32 × Nat) :=
  let d := headDim b.dcode
  let m := s.atMath b
  let kh := h / (b.hq / b.hkv)
  let kvs := (List.range e.kl).map fun j => (s.atRow lr b.k b.hkv d b.fmt (e.ks + j) kh, s.atRow lr b.v b.hkv d b.fmt (e.ks + j) kh)
  (List.range e.ql).map fun i => m.fwdRow d (s.atRow lr b.q b.hq d b.fmt (e.qs + i) h) ((e.kl : Int) - e.ql + i) kvs

/-- R275, R281: one row's outputs and LSE are stored. -/
def State.putRow (s : State) (lr o lse hs d f tid : Nat) (rmark : Bool) (t h : Nat) (r : List W32 × W32 × Nat) : State :=
  ((s.atStore lr f tid (atElem o hs d (fmtBytes f) t h) rmark r.1).rsWrite lr (lse + (t * hs + h) * 4) (leBytes 4 r.2.1.toNat)).bump
    (Reg.TRS_ATT_RISE.RISES (lr / 8)) r.2.2

/-- AT.FWD of one entry, on the inputs as they stood in `s0`. -/
def State.fwdEntry (s s0 : State) (lr : Nat) (b : AtBlock) (rmark : Bool) (e : LtE) : State :=
  let ps := (List.range e.ql).map fun i => ((e.kl : Int) - e.ql + i)
  s.each (List.range b.hq) fun s h =>
    (s.each (s0.fwdHead lr b e h).zipIdx fun s r => s.putRow lr b.o b.lse b.hq (headDim b.dcode) b.ofmt b.tidO rmark (e.qs + r.2) h r.1).bump
      (Reg.TRS_ATT_SKIP.SKIPS (lr / 8)) ((s0.atMath b).skips ps e.kl)

/-- A command has completed. -/
def State.attDone (s : State) (lr : Nat) : State := s.bump (Reg.TRS_ATT_CMDS.CMDS (lr / 8)) 1

/-- The frame AT.FWD and AT.BWD share. What the length table names is tested once the table can be read (R185). -/
def State.attend (s : State) (lr op : Nat) (w0 w1 : W64) (codes : Course → AtBlock → List (Bool × Nat)) (reads writes : AtBlock → LtE → List (Nat × Nat))
    (act : AtBlock → Bool → List LtE → State → State) : State :=
  let par := (wbits w1 0 19 * 64, 128)
  let b := atBlock (s.rsRead lr par.1 128)
  let es := (s.ltEntries lr b).filter fun e => e.ql ≠ 0
  let rd := [par, (b.lt, 16 * b.nseq)] ++ es.flatMap (reads b)
  let wr := (b.scr, 0x200000) :: es.flatMap (writes b)
  s.issue lr op w0 w1 rd wr fun c s =>
    let early := broken (s.rangeCodes lr [par])
    if !early.isEmpty then .bad early
    else
      let lt := s.rangeCodes lr [(b.lt, 16 * b.nseq)]
      checked (s.atCodes c b ++ codes c b ++ lt ++ [(!inStore (b.scr, 0x200000), 0x92)] ++
          (if (broken lt).isEmpty then [(!ltRising (s.ltEntries lr b), 0x91), (!wr.all inStore, 0x92)] ++ s.rangeCodes lr rd else [])) <|
        .done ((act b (wbits w0 37 1 = 1) es (s.useScratch lr b.scr b.slotb)).attDone lr)

def atFwd (lr : Nat) (w0 w1 : W64) (s : State) : State :=
  s.attend lr 0x80 w0 w1 (fun _ b => [(!b.noGrad, 0x90)])
    (fun b e => [b.qRange b.q (fmtBytes b.fmt) e, b.kRange b.k (fmtBytes b.fmt) e, b.kRange b.v (fmtBytes b.fmt) e])
    (fun b e => [b.qRange b.o (fmtBytes b.ofmt) e, b.lseRange e])
    (fun b rmark es t => t.each es fun t e => t.fwdEntry s lr b rmark e)
def execAtFwd (lr : Nat) (w0 w1 : W64) (s : State) : Out := onCore (atFwd lr w0 w1) s

/-! ### AT.BWD (R282, R283) -/

/-- R279, R282: dS as stored: E5M2 with the scale of TID_DS, or BF16; its format and exponent. -/
def AtMath.dsFmt (m : AtMath) : Nat := if m.fp8 then 1 else 3
def AtMath.dsConv (m : AtMath) (eds : Int) (v : W32) : Conv := toStored m.dsFmt v eds

/-- R282: one row's stored P codes and dS values over all keys of its entry; keys not real have +0 in both. -/
def State.bwdRow (s : State) (lr : Nat) (b : AtBlock) (e : LtE) (h i : Nat) (kvs : List (List Nat × List Nat)) : List (Nat × Option Conv) :=
  let d := headDim b.dcode
  let m := s.atMath b
  let q := s.atRow lr b.q b.hq d b.fmt (e.qs + i) h
  let dO := s.atRow lr b.dO b.hq d b.fmt (e.qs + i) h
  let lse := w32Of (leNat (s.rsRead lr (b.lse + ((e.qs + i) * b.hq + h) * 4) 4))
  let wide := fun (f tid : Nat) (c : Nat) => let v := widen f c; if f ≤ 1 then fscale v (-(s.scaleOf tid)) else v
  let o := s.atRow lr b.o b.hq d b.ofmt (e.qs + i) h
  let dlt := (dO.zip o).foldl (fun a x => ffma (wide b.fmt b.tidDO x.1) (wide b.ofmt b.tidO x.2) a) 0
  kvs.zipIdx.map fun x =>
    if m.real ((e.kl : Int) - e.ql + i) x.2 then
      let p := if lse = 0xFF800000 then 0 else exp2 (fsub (m.score q x.1.1) lse)
      let dp := fscale (dotRaw m.split b.fmt b.fmt dO x.1.2) (-(s.scaleOf b.tidDO + m.ev))
      (m.pCode p, some (m.dsConv (s.scaleOf b.tidDS) (fmul (fmul p (fsub dp dlt)) b.cGrad)))
    else (m.pCode 0, none)

/-- Rows padded to a multiple of 32 with +0. -/
def pad32 (xs : List Nat) : List Nat := xs ++ List.replicate ((32 - xs.length % 32) % 32) 0

/-- R283: one gradient element over the query rows of the heads of a group: factors `a` and `b` per head, in increasing head and row. -/
def gradSum (split fa fb : Nat) (heads : List (List Nat × List Nat)) : W32 :=
  dotRaw split fa fb (heads.flatMap fun x => pad32 x.1) (heads.flatMap fun x => pad32 x.2)

/-- The codes of a converted gradient, +0 where none was formed. -/
def dsCode (x : Nat × Option Conv) : Nat := match x.2 with | some c => c.code | none => 0

/-- AT.BWD of one entry, on the inputs as they stood in `s0`. -/
def State.bwdEntry (s s0 : State) (lr : Nat) (b : AtBlock) (rmark : Bool) (e : LtE) : State :=
  let d := headDim b.dcode
  let m := s0.atMath b
  let g := b.hq / b.hkv
  let eds := if m.fp8 then s0.scaleOf b.tidDS else 0
  let keyRow := fun base kh j => s0.atRow lr base b.hkv d b.fmt (e.ks + j) kh
  let qRow := fun base h i => s0.atRow lr base b.hq d b.fmt (e.qs + i) h
  let kvs := fun kh => (List.range e.kl).map fun j => (keyRow b.k kh j, keyRow b.v kh j)
  let rows := fun h => (List.range e.ql).map fun i => s0.bwdRow lr b e h i (kvs (h / g))
  let col := fun (base h c : Nat) => (List.range e.ql).map fun i => (qRow base h i).getD c 0
  let heads := fun kh => (List.range g).map (kh * g + ·)
  -- R283: dK and dV by key, then dQ by query
  let s := s.each (List.range b.hkv) fun s kh =>
    let rs := (heads kh).map fun h => (h, rows h)
    s.each (List.range e.kl) fun s j =>
      let dv := (List.range d).map fun c => fscale (gradSum m.split m.pFmt b.fmt
        (rs.map fun r => (r.2.map fun x => (x.getD j (0, none)).1, col b.dO r.1 c))) (-(m.pExp + s0.scaleOf b.tidDO))
      let dk := (List.range d).map fun c => fscale (gradSum m.split m.dsFmt b.fmt
        (rs.map fun r => (r.2.map fun x => dsCode (x.getD j (0, none)), col b.q r.1 c))) (-(eds + m.eq))
      (s.atStore lr b.ofmt b.tidDV (atElem b.dV b.hkv d (fmtBytes b.ofmt) (e.ks + j) kh) rmark dv).atStore lr b.ofmt b.tidDK
        (atElem b.dK b.hkv d (fmtBytes b.ofmt) (e.ks + j) kh) rmark dk
  s.each (List.range b.hq) fun s h =>
    s.each (rows h).zipIdx fun s r =>
      let cs := r.1.filterMap (·.2)
      let s := if rmark || decide (b.tidDS = 0xFFFF) || cs.isEmpty then s else s.addWatch (b.tidDS, convSum cs)
      let dq := (List.range d).map fun c => fscale (dotRaw m.split m.dsFmt b.fmt (r.1.map dsCode)
        ((kvs (h / g)).map fun x => x.1.getD c 0)) (-(eds + m.ek))
      s.atStore lr b.ofmt b.tidDQ (atElem b.dQ b.hq d (fmtBytes b.ofmt) (e.qs + r.2) h) rmark dq

def atBwd (lr : Nat) (w0 w1 : W64) (s : State) : State :=
  s.attend lr 0x81 w0 w1 (fun c b => [([b.tidDO, b.tidDQ, b.tidDK, b.tidDV, b.tidDS].any (s.badTid c), 0x91)])
    (fun b e => [b.qRange b.q (fmtBytes b.fmt) e, b.kRange b.k (fmtBytes b.fmt) e, b.kRange b.v (fmtBytes b.fmt) e,
      b.qRange b.o (fmtBytes b.ofmt) e, b.lseRange e, b.qRange b.dO (fmtBytes b.fmt) e])
    (fun b e => [b.qRange b.dQ (fmtBytes b.ofmt) e, b.kRange b.dK (fmtBytes b.ofmt) e, b.kRange b.dV (fmtBytes b.ofmt) e])
    (fun b rmark es t => t.each es fun t e => t.bwdEntry s lr b rmark e)
def execAtBwd (lr : Nat) (w0 w1 : W64) (s : State) : Out := onCore (atBwd lr w0 w1) s

end Sys2Proof.Machine
end

