-- ==== Sys2Proof/Machine/Media.lean ====
section
/-! DEFINITION. The media front end's decode side (R382 to R414, R423 to R427): MEDIA_JOB validation, alignment, decoding round the coding
standards, the picture transform, commit and substitution, picture buffers, source retries and pipeline faults. -/

namespace Sys2Proof.Machine

/-! ### Jobs (R386, R387, R404, R408, R426) -/

/-- R128: the targets of the pipelines in service. -/
def State.pipeTargets (s : State) (encode : Bool) : List Nat :=
  if encode then ((List.range 4).filter fun e => decide (s.getF (Reg.MED_ENC_STAT.STATE e) = 0)).map (0x20 + ·)
  else (List.range 24).filter s.decInService

/-- R129, R424: the status of a closed gate that a job meets: its front end's, its function's, or that of its pipelines when none in
service is open; a job runs on those that are. -/
def State.mediaGate (s : State) (encode : Bool) : Option Nat :=
  match (mediaTargets encode).findSome? s.gateStatus with
  | some st => some st
  | none =>
    if (s.pipeTargets encode).all fun t => (s.gateStatus t).isSome then (s.pipeTargets encode).findSome? s.gateStatus else none

/-- R423: the encode pipeline that takes a job: the first in service and open that has none, else the first of them (DESIGN CHOICE,
assumption 73: no output depends on it). -/
def State.encodePick (s : State) : Nat :=
  let free := ((s.pipeTargets true).filter fun t => (s.gateStatus t).isNone).map fun t => t - 0x20
  ((free.find? fun e => !s.jobs.any fun j => j.encode && Nat.beq j.pipe e).orElse fun _ => free.head?).getD 0

/-- R408, R426: MED_SEQ shows the decode job in progress, the one whose descriptor was read first. -/
def State.showSeq (s : State) : State :=
  match s.jobs.find? fun j => !j.encode with
  | some j => s.setFs [(Reg.MED_SEQ.COMMITTED, j.committed), (Reg.MED_SEQ.RING, j.req.ring), (Reg.MED_SEQ.SEQ, j.req.seq)]
  | none => s

/-- R408, R415: a validated job starts. -/
def State.startJob (s : State) (q : Req) (encode : Bool) : State :=
  let s := s.each (mediaTargets encode) fun s t => s.acceptTag t (reqTag q)
  let j : MJob := ⟨q, encode, 0, 0, [], false, s.encodePick, [], []⟩
  { s with jobs := s.jobs ++ [j] }.countJobs.showSeq

/-- The oldest job of a ring and kind. -/
def State.jobOf (s : State) (r : Nat) (encode : Bool) : Option MJob :=
  s.jobs.find? fun j => decide (j.req.ring = r) && j.encode = encode

/-- A job in place of the one of the same request. -/
def State.putJob (s : State) (j : MJob) : State :=
  { s with jobs := s.jobs.map fun o => if o.req.ring = j.req.ring ∧ o.req.seq = j.req.seq then j else o }

/-- A job ends: it leaves its targets, its buffers are given back, and its record falls due with the samples it committed; MED_ERR names the
stream that the error is of (R426). -/
def State.endJobAt (s : State) (j : MJob) (status stream : Nat) : State :=
  let s := s.each (mediaTargets j.encode) fun s t => s.releaseTag t (reqTag j.req)
  let s := { s with
    jobs := s.jobs.filter fun o => !(decide (o.req.ring = j.req.ring) && decide (o.req.seq = j.req.seq))
    bufs := if j.encode then s.bufs else s.bufs.filter fun b => b.ring ≠ j.req.ring }
  let s := if status = 0 then s else s.mediaErr j.req status false j.committed stream
  ((s.countJobs.showSeq).noteJob j.req status).complete j.req status (mediaDetail j.committed j.subst)

/-- A job ends for a reason that is of no one stream: MED_ERR shows stream 0. -/
def State.endJob (s : State) (j : MJob) (status : Nat) : State := s.endJobAt j status 0

/-- R404: an access of the job fails: it is retried once 1 ms later. -/
def State.jobRetry (s : State) (j : MJob) : State := s.putJob { j with retried := true }

/-! ### Decode job tables (R389 to R391) -/

/-- The header of a decode job table (R389); sizes and counts as numbers of things. -/
structure DecJob where
  samples : Nat
  streams : Nat
  tpoints : Nat
  strict : Bool
  outBase : Nat
  tStep : Nat
  /-- bytes of a sample region. -/
  region : Nat
  stAddr : Nat
  deriving DecidableEq, Repr

/-- A stream configuration (R390); sizes as numbers of things. -/
structure StreamCfg where
  kind : Nat
  codec : Nat
  ofmt : Nat
  flipH : Bool
  flipV : Bool
  rot : Nat
  arb : Bool
  nearest : Bool
  vlen : Nat
  tol : Nat
  ow : Nat
  oh : Nat
  cw : Nat
  ch : Nat
  cx : Nat
  cy : Nat
  fill : W32
  cos : W32
  sin : W32
  m : List W32
  off : List W32
  outOff : Nat
  deriving DecidableEq, Repr

/-- Words of a table at a byte address. -/
def State.tabW (s : State) (a i : Nat) : Nat := s.peekW (a + 8 * i)

/-- R386: JOB_ADDR. -/
def Req.jobAddr (q : Req) : Nat := wbits (q.word 1) 0 48

def State.decJob (s : State) (a : Nat) : DecJob :=
  let w := s.tabW a
  { samples := bitsOf (w 0) 16 16 + 1, streams := bitsOf (w 0) 32 4 + 1, tpoints := bitsOf (w 0) 36 12 + 1, strict := (w 0).testBit 48,
    outBase := bitsOf (w 1) 0 48, tStep := bitsOf (w 2) 0 32, region := bitsOf (w 2) 32 32 * 4096, stAddr := bitsOf (w 3) 0 48 }

/-- R390: the twelve FP32 numbers of words 4 to 9 (a job's) or 8 to 13 (an encode job's). -/
def State.tabM (s : State) (a i : Nat) : List W32 :=
  (List.range 12).map fun k => w32Of (bitsOf (s.tabW a (i + k / 2)) (32 * (k % 2)) 32)

def State.streamCfg (s : State) (a : Nat) : StreamCfg :=
  let w := s.tabW a
  let m := s.tabM a 4
  { kind := bitsOf (w 0) 0 2, codec := bitsOf (w 0) 2 3, ofmt := bitsOf (w 0) 5 3, flipH := (w 0).testBit 8, flipV := (w 0).testBit 9,
    rot := bitsOf (w 0) 10 2, arb := (w 0).testBit 12, nearest := (w 0).testBit 13, vlen := bitsOf (w 0) 16 16 + 1,
    tol := bitsOf (w 0) 32 32, ow := bitsOf (w 1) 0 16 + 1, oh := bitsOf (w 1) 16 16 + 1, cw := bitsOf (w 1) 32 16 + 1,
    ch := bitsOf (w 1) 48 16 + 1, cx := bitsOf (w 2) 0 16, cy := bitsOf (w 2) 16 16, fill := w32Of (bitsOf (w 2) 32 32),
    cos := w32Of (bitsOf (w 3) 0 32), sin := w32Of (bitsOf (w 3) 32 32), m := m.take 9, off := m.drop 9,
    outOff := bitsOf (w 10) 0 32 }

/-- Stream configurations of a job. -/
def State.streamCfgs (s : State) (a : Nat) : List StreamCfg :=
  (List.range (s.decJob a).streams).map fun k => s.streamCfg (a + 64 + 128 * k)

/-- R393: bytes of an element, and of a stream's tensor. -/
def StreamCfg.eb (c : StreamCfg) : Nat := fmtBytes c.ofmt
def StreamCfg.bytes (c : StreamCfg) (tpoints : Nat) : Nat :=
  (if c.kind = 0 then tpoints * c.oh * c.ow * 3 else tpoints * c.vlen) * c.eb

/-- R390: reserved fields and codes of a configuration at `a`; a sensor's camera fields are zero. -/
def State.cfgBad (s : State) (a : Nat) : Bool :=
  let w := s.tabW a
  let c := s.streamCfg a
  decide (c.kind = 3 ∨ (c.ofmt ≠ 3 ∧ c.ofmt ≠ 4) ∨ bitsOf (w 0) 14 2 ≠ 0 ∨ bitsOf (w 10) 32 32 ≠ 0) ||
  (List.range 5).any (fun i => decide (w (11 + i) ≠ 0)) ||
  (if c.kind = 0 then decide (4 ≤ c.codec)
   else decide (c.codec ≠ 0 ∨ bitsOf (w 0) 8 6 ≠ 0) || (List.range 9).any fun i => decide (w (1 + i) ≠ 0))

/-- R389: reserved fields and alignment of a job table's header. -/
def State.headBad (s : State) (a : Nat) : Bool :=
  let w := s.tabW a
  decide (bitsOf (w 0) 49 15 ≠ 0 ∨ bitsOf (w 1) 48 16 ≠ 0 ∨ bitsOf (w 3) 48 16 ≠ 0 ∨ w 4 ≠ 0 ∨ w 5 ≠ 0 ∨ w 6 ≠ 0 ∨
    bitsOf (w 7) 32 32 ≠ 0 ∨ bitsOf (w 1) 0 12 ≠ 0 ∨ bitsOf (w 3) 0 6 ≠ 0 ∨ a % 64 ≠ 0)

/-- Ranges of a list that meet pairwise. -/
def anyMeet : List (Nat × Nat) → Bool
  | [] => false
  | r :: t => t.any (fun q => overlaps r.1 r.2 q.1 q.2) || anyMeet t

/-- R394: the status validation ends a decode job with; 0 when it passes. -/
def State.decodeCheck (s : State) (q : Req) : Nat :=
  let a := q.jobAddr
  let j := s.decJob a
  let n := 64 + 128 * j.streams
  if s.hbmCap < a + n then 0x61 else
  let cfgs := s.streamCfgs a
  let tensors := cfgs.map fun c => (c.outOff * 64, c.bytes j.tpoints)
  let body := s.peek a 56 ++ s.peek (a + 64) (n - 64)
  if bitsOf (s.tabW a 0) 0 16 ≠ 0xDEC1 ∨ crc32 body ≠ bitsOf (s.tabW a 7) 0 32 then 0x60
  else if s.headBad a ∨ (List.range j.streams).any fun k => s.cfgBad (a + 64 + 128 * k) then 0x60
  else if anyMeet ((0, 64 + j.streams * j.tpoints) :: tensors) ∨ tensors.any fun t => decide (j.region < t.1 + t.2) then 0x60
  else if s.hbmCap < j.stAddr + 576 * j.samples ∨ s.hbmCap < j.outBase + j.samples * j.region then 0x61
  else if (cfgs.any fun c => decide (c.kind = 0)) ∧ s.getF Reg.MED_WORK_LEN.PAGES = 0 then 0x61
  else 0

/-- R386, R394, R414: a MEDIA_JOB of KIND decode is validated and starts. -/
def mediaDecodeJob (r : Nat) (s : State) : State :=
  match s.nextReq r 0x10 with
  | none => s
  | some q =>
    if wbits (q.word 1) 48 4 ≠ 0 then s else
    let s := s.markStarted q
    match s.mediaGate false with
    | some st => s.mediaReject q st
    | none =>
      let n := 64 + 128 * (s.decJob q.jobAddr).streams
      let bad := !(s.badStacks q.jobAddr n).isEmpty
      let s := if s.hbmCap < q.jobAddr + n then s else (s.readHbm q.jobAddr n).2
      if bad then s.mediaReject q 0x64
      else match s.decodeCheck q with
        | 0 => s.startJob q false
        | code => s.mediaReject q code
def execMediaDecodeJob (r : Nat) (s : State) : Out := onHub (mediaDecodeJob r) s

/-! ### Sources (R391, R392, R404) -/

/-- One stream's entry of a sample (R391). -/
structure SrcEntry where
  src : Nat
  tier : Nat
  len : Nat
  idx : Nat
  count : Nat
  reserved : Bool
  deriving DecidableEq, Repr

def State.srcEntry (s : State) (e k : Nat) : SrcEntry :=
  let w := fun i => s.tabW e (8 + 4 * k + i)
  { src := bitsOf (w 0) 0 42, tier := bitsOf (w 0) 42 4, len := bitsOf (w 1) 0 40, idx := bitsOf (w 2) 0 42, count := bitsOf (w 3) 0 16 + 1,
    reserved := decide (bitsOf (w 0) 46 18 ≠ 0 ∨ bitsOf (w 1) 40 24 ≠ 0 ∨ bitsOf (w 2) 42 22 ≠ 0 ∨ bitsOf (w 3) 16 48 ≠ 0) }

/-- R409: what the entry of a stream shows before its data is read: causes 0x01 and 0x02; 0 none. -/
def State.entryCause (s : State) (camera : Bool) (x : SrcEntry) : Nat :=
  if x.reserved ∨ ¬ (x.tier = 2 ∨ x.tier = 3 ∨ x.tier = 4) then 1
  else if x.len = 0 ∨ s.farBad x.tier x.src x.len ∨ (camera ∧ s.farBad x.tier x.idx (16 * x.count)) then 2
  else 0

/-- R404: bytes of a source: from HBM as stored, or from the host or a peer as they answer; none when the read fails. -/
def State.srcRead (s : State) (tier a n : Nat) (far : FarAns) : Option (List Byte) × State :=
  let short := match far with | .data bs => decide (bs.length < n) | .error => true
  match tier with
  | 2 =>
    let bad := !(s.badStacks a n).isEmpty
    let r := s.readHbm a n
    (if bad then none else some r.1, r.2)
  | 3 => s.aptLoad a n (if short then .error else far)
  | _ => (match far with | .data bs => if short then none else some (bs.take n) | .error => none, s)

/-! ### Alignment (R395 to R398) -/

/-- An index entry (R392). -/
structure IdxEntry where
  t : Nat
  off : Nat
  rap : Bool
  deriving DecidableEq, Repr

/-- The 64-bit word at byte `i` of a byte list. -/
def wordAt (bs : List Byte) (i : Nat) : Nat := leNat ((bs.drop i).take 8)

def indexOf (bs : List Byte) (n : Nat) : List IdxEntry :=
  (List.range n).map fun e => ⟨wordAt bs (16 * e), bitsOf (wordAt bs (16 * e + 8)) 0 40, (wordAt bs (16 * e + 8)).testBit 40⟩

/-- R409 0x05: OFF strictly rising and below LEN. -/
def indexGood (len : Nat) : List IdxEntry → Bool
  | [] => true
  | [e] => decide (e.off < len)
  | e :: f :: t => decide (e.off < f.off) && decide (e.off < len) && indexGood len (f :: t)

/-- Distance of two times. -/
def dist (a b : Nat) : Nat := (a - b) + (b - a)

/-- R395: the entry nearest in time; on equal distance the smaller T, then the lower index. -/
def nearestOf (t : Nat) : List (Nat × IdxEntry) → Option (Nat × IdxEntry)
  | [] => none
  | x :: xs =>
    match nearestOf t xs with
    | none => some x
    | some y =>
      if dist y.2.t t < dist x.2.t t ∨ (dist y.2.t t = dist x.2.t t ∧ y.2.t < x.2.t) then some y else some x

/-- R395: the frame chosen for a time point; none when it is masked. -/
def chosen (es : List IdxEntry) (tol t : Nat) : Option Nat :=
  match nearestOf t (es.zipIdx.map fun x => (x.2, x.1)) with
  | some x => if dist x.2.t t ≤ tol then some x.1 else none
  | none => none

/-- R396: where decoding starts for the lowest chosen index. -/
def decodeFrom (es : List IdxEntry) (lo : Nat) : Nat :=
  ((List.range (lo + 1)).reverse.find? fun i => match es[i]? with | some e => e.rap | none => false).getD 0

/-- Bytes of an access unit (R392). -/
def unitBytes (es : List IdxEntry) (len : Nat) (seg : List Byte) (i : Nat) : List Byte :=
  let o := match es[i]? with | some e => e.off | none => len
  let e := match es[i + 1]? with | some e => e.off | none => len
  (seg.drop o).take (e - o)

/-- A sensor record (R392): T and its values. -/
structure SRec where
  t : Nat
  v : List W32
  deriving DecidableEq, Repr

/-- Bytes of a sensor record. -/
def recBytes (vlen : Nat) : Nat := alignUp (8 + 4 * vlen) 8

def recordsOf (bs : List Byte) (vlen n : Nat) : List SRec :=
  (List.range n).map fun i =>
    ⟨wordAt bs (i * recBytes vlen), (List.range vlen).map fun j => w32Of (bitsOf (wordAt bs (i * recBytes vlen + 8 + 4 * j)) 0 32)⟩

/-- T never decreases. -/
def timesRise : List SRec → Bool
  | [] => true
  | [_] => true
  | a :: b :: t => decide (a.t ≤ b.t) && timesRise (b :: t)

/-- R397: the aligned values of a time point; none when it is masked. -/
def sensorAt (rs : List SRec) (tol vlen t : Nat) : Option (List W32) :=
  match rs.reverse.find? (fun r => decide (r.t ≤ t)), rs.find? (fun r => decide (t ≤ r.t)) with
  | some a, b =>
    if a.t = t then some a.v else
    match b with
    | none => none
    | some b =>
      if tol < t - a.t ∨ tol < b.t - t then none else
      let alpha := fdiv (ofNat32 (t - a.t)) (ofNat32 (b.t - a.t))
      some ((List.range vlen).map fun j => ffma alpha (fsub (b.v.getD j 0) (a.v.getD j 0)) (a.v.getD j 0))
  | none, _ => none

/-! ### Decoding (R385, R399 to R403) -/

/-- A decoded picture with its marks (R400 to R402). -/
structure Pic where
  planes : Planes
  concealed : Bool
  refSub : Bool
  inherited : Bool
  /-- R401: it could not be decoded at all and stands for a replacement. -/
  lost : Bool
  deriving DecidableEq, Repr

/-- R402: a picture that taints those predicted from it. -/
def Pic.marked (p : Pic) : Bool := p.concealed || p.refSub || p.inherited

/-- Width and height of a chroma plane. -/
def chromaW (p : Planes) : Nat := if p.chroma = 3 then p.pw else (p.pw + 1) / 2
def chromaH (p : Planes) : Nat := if p.chroma = 1 then (p.ph + 1) / 2 else p.ph

/-- R400: the mid-grey code. -/
def midCode (depth : Nat) : Nat := 2 ^ (depth - 1)

/-- R400, R401: a mid-grey picture. -/
def midGrey (h : SeqHeader) : Planes :=
  let p : Planes := ⟨h.pw, h.ph, h.depth, h.chroma, List.replicate (h.pw * h.ph) (midCode h.depth), [], []⟩
  let n := if h.chroma = 0 then 0 else chromaW p * chromaH p
  { p with cb := List.replicate n (midCode h.depth), cr := List.replicate n (midCode h.depth) }

/-- A plane as a grid: its samples, their number across and down, and the luma samples that one of them spans each way. -/
structure Grid where
  pl : List Nat
  w : Nat
  h : Nat
  sx : Nat
  sy : Nat

/-- The sample at a luma position; none outside the plane. -/
def Grid.at_ (g : Grid) (px py : Nat) : Option Nat :=
  if px / g.sx < g.w ∧ py / g.sy < g.h then g.pl[py / g.sy * g.w + px / g.sx]? else none

/-- R400: a plane with the samples that lie in damaged rectangles of luma samples taken from the co-located samples of another picture's
plane; where that picture has none, of another size or without chroma, mid-grey (DESIGN CHOICE, assumption 81). -/
def fillPlane (dst src : Grid) (rects : List (Nat × Nat × Nat × Nat)) (d : Nat) : List Nat :=
  dst.pl.zipIdx.map fun x =>
    let px := x.2 % dst.w * dst.sx
    let py := x.2 / dst.w * dst.sy
    if rects.any fun r => decide (r.1 ≤ px ∧ px < r.1 + r.2.2.1 ∧ r.2.1 ≤ py ∧ py < r.2.1 + r.2.2.2) then (src.at_ px py).getD d else x.1

/-- The grids of a picture's luma, and of a chroma plane of it. -/
def lumaGrid (p : Planes) : Grid := ⟨p.luma, p.pw, p.ph, 1, 1⟩
def chromaGrid (p : Planes) (pl : List Nat) : Grid :=
  ⟨pl, chromaW p, chromaH p, if p.chroma = 3 then 1 else 2, if p.chroma = 1 then 2 else 1⟩

/-- R400: one damaged area filled from a source picture. -/
def fillPicture (p src : Planes) (rects : List (Nat × Nat × Nat × Nat)) : Planes :=
  let d := midCode p.depth
  { p with
    luma := fillPlane (lumaGrid p) (lumaGrid src) rects d
    cb := fillPlane (chromaGrid p p.cb) (chromaGrid src src.cb) rects d
    cr := fillPlane (chromaGrid p p.cr) (chromaGrid src src.cr) rects d }

/-- R385: a decoded picture: the size, depth and chroma of its sequence header, and codes within its depth. -/
def conform (p : Planes) (h : SeqHeader) : Planes :=
  let top := 2 ^ h.depth - 1
  let q : Planes := ⟨h.pw, h.ph, h.depth, h.chroma, [], [], []⟩
  let plane := fun (n : Nat) (l : List Nat) => (List.range n).map fun i => min (l.getD i 0) top
  let n := if h.chroma = 0 then 0 else chromaW q * chromaH q
  { q with luma := plane (h.pw * h.ph) p.luma, cb := plane n p.cb, cr := plane n p.cr }

/-- R400: the blocks of a damaged unit: from its first to the block before the next boundary at which decoding restarts. -/
def extentOf (x : Decoded) (d : Damage) : List (Nat × Nat × Nat × Nat) :=
  let stop := ((x.starts.filter fun k => decide (d.first < k)).foldl min x.blocks.length)
  (x.blocks.take stop).drop d.first

/-- R401: the most recently decoded picture of the stream in decode order. -/
def latestPic (ps : List Pic) : Option Pic := ps.reverse.find? fun p => !p.lost

/-- R401: what replaces a picture: the most recently decoded one, mid-grey when there is none. -/
def latest (h : SeqHeader) (ps : List Pic) : Planes :=
  match latestPic ps with
  | some p => p.planes
  | none => midGrey h

/-- R401: a reference: received, or replaced. -/
def refPic (ps : List Pic) (r : Option Nat) : Option Pic :=
  match r with
  | some i => (ps[i]?).filter fun p => !p.lost
  | none => none

/-- R402: a reference is a marked picture, or is replaced by one: a picture that was itself a replacement is marked REF_SUB. -/
def refMarked (ps : List Pic) (r : Option Nat) : Bool :=
  (r.bind fun i => ps[i]?).any Pic.marked || ((refPic ps r).isNone && (latestPic ps).any Pic.marked)

/-- R400 to R402: one access unit is decoded under its sequence header: its picture, and the references replaced. Without a header it
cannot be decoded at all; `open_` then gives the mid-grey picture its size. -/
def decodeOne (codec : Nat) (h : Option SeqHeader) (open_ : SeqHeader) (units : List (List Byte)) (ps : List Pic) : Pic × Nat :=
  let rs := Config.unitRefs codec units
  let last := latest (h.getD open_) ps
  let missing := (rs.filter fun r => (refPic ps r).isNone).length
  let planes := rs.map fun r => match refPic ps r with | some p => p.planes | none => last
  match h, Config.decodeUnit codec units planes with
  | some h, some x =>
    let out := x.damage.foldl
      (fun p d => fillPicture p (match d.ref.bind fun i => planes[i]? with | some r => r | none => last) (extentOf x d)) (conform x.planes h)
    (⟨out, !x.damage.isEmpty, decide (missing ≠ 0), rs.any (refMarked ps), false⟩, missing)
  | _, _ => (⟨last, false, true, false, true⟩, missing)

/-- R396: the access units of the decode range in index order, each with its sequence header: the pictures, and the references replaced. -/
def decodeRun (codec : Nat) (open_ : SeqHeader) (done : List (List Byte)) (ps : List Pic) (n : Nat) :
    List (Option SeqHeader × List Byte) → List Pic × Nat
  | [] => (ps, n)
  | u :: us =>
    let r := decodeOne codec u.1 open_ (done ++ [u.2]) ps
    decodeRun codec open_ (done ++ [u.2]) (ps ++ [r.1]) (n + r.2) us

/-- R383: sizes supported. -/
def sizeGood (w h : Nat) : Bool := decide (16 ≤ w ∧ w ≤ 8192 ∧ 16 ≤ h ∧ h ≤ 4352)

/-- R383, R384: the profiles, levels, bit depths and chroma of a codec's row, and no other feature declared. H.265 Main has 8 bits. -/
def featuresGood (codec : Nat) (h : SeqHeader) : Bool :=
  !h.feature && match codec with
    | 0 => decide (h.profile = 0 ∧ h.level ≤ 52 ∧ h.depth = 8 ∧ h.chroma ≤ 1) && h.inLevel
    | 1 => decide (h.profile ≤ 1 ∧ h.level ≤ 61 ∧ (h.depth = 8 ∨ (h.depth = 10 ∧ h.profile = 1)) ∧ h.chroma = 1) && h.inLevel
    | 2 => decide (h.profile = 0 ∧ h.level ≤ 60 ∧ (h.depth = 8 ∨ h.depth = 10) ∧ h.chroma ≤ 1) && h.inLevel
    | _ => decide (h.profile = 0 ∧ h.depth = 8 ∧ h.chroma ≤ 3)

/-- R384, R399: the cause a sequence header rejects its stream with; 0 none. `rest` is the bytes from the header's first byte to LEN. -/
def headerCause (codec : Nat) (h : SeqHeader) (rest : Nat) : Nat :=
  if rest < ceilDiv h.pw 64 * ceilDiv h.ph 64 then 3 else if sizeGood h.pw h.ph && featuresGood codec h then 0 else 4

/-- R401: a header within R383 for a mid-grey picture whose stream holds none. -/
def headerWithin (h : SeqHeader) (codec : Nat) : SeqHeader :=
  { h with pw := 16 + h.pw % 8177, ph := 16 + h.ph % 4337, depth := if (codec = 1 ∨ codec = 2) ∧ h.depth = 10 then 10 else 8, chroma := 1 }

/-- The lowest cause that is not 0; 0 when there is none. -/
def lowestCause (cs : List Nat) : Nat := (cs.filter (· ≠ 0)).foldl (fun a c => if a = 0 then c else min a c) 0

/-- R403: pages of 4 KiB a stream holds while it decodes. -/
def bufPages (hs : List SeqHeader) : Nat := hs.foldl (fun n h => max n ((h.refs + 1) * ceilDiv (h.pw * h.ph * 3) 4096)) 0

/-! ### Transform (R405 to R407) -/

/-- R406: a sample of a plane of width `w` and height `h`. -/
def sampleAt (nearest : Bool) (pl : List Nat) (w h : Nat) (px py : W32) : W32 :=
  let code := fun x y => ofNat32 (pl.getD (y * w + x) 0)
  if nearest then code (floor32 (fadd px half32)) (floor32 (fadd py half32))
  else
    let x0 := floor32 px
    let y0 := floor32 py
    let x1 := min (x0 + 1) (w - 1)
    let y1 := min (y0 + 1) (h - 1)
    let ax := fsub px (ofNat32 x0)
    let ay := fsub py (ofNat32 y0)
    let top := ffma ax (fsub (code x1 y0) (code x0 y0)) (code x0 y0)
    let bot := ffma ax (fsub (code x1 y1) (code x0 y1)) (code x0 y1)
    ffma ay (fsub bot top) top

/-- R406: the chroma point of a luma point, clamped to the chroma plane; −0.25 is 0xBE80_0000. -/
def chromaPoint (codec : Nat) (p : Planes) (px py : W32) : W32 × W32 :=
  let sub := fun a : W32 => ffma a half32 0xBE800000
  let x := if p.chroma = 3 then px else if codec ≤ 1 then fmul px half32 else sub px
  let y := if p.chroma = 1 then sub py else py
  let clamp := fun (a : W32) (n : Nat) => fmin (fmax a 0) (ofNat32 (n - 1))
  (clamp x (chromaW p), clamp y (chromaH p))

/-- R405: the M and OFF chain. -/
def colour (m off : List W32) (a b c : W32) : List W32 :=
  (List.range 3).map fun i =>
    ffma (m.getD (3 * i + 2) 0) c (ffma (m.getD (3 * i + 1) 0) b (ffma (m.getD (3 * i) 0) a (off.getD i 0)))

/-- R405: quarter turns. -/
def turns : Nat → W32 × W32 → W32 × W32
  | 0, d => d
  | n + 1, d => turns n (fneg d.2, d.1)

/-- R405: the point of the picture an output element samples. -/
def pixelPoint (c : StreamCfg) (x y : Nat) : W32 × W32 :=
  let cw := ofNat32 (c.cw - 1)
  let ch := ofNat32 (c.ch - 1)
  let u := ffma (fadd (ofNat32 x) half32) (fdiv (ofNat32 c.cw) (ofNat32 c.ow)) negHalf32
  let v := ffma (fadd (ofNat32 y) half32) (fdiv (ofNat32 c.ch) (ofNat32 c.oh)) negHalf32
  let u := if c.flipH then fsub cw u else u
  let v := if c.flipV then fsub ch v else v
  let d := turns c.rot (fsub u (fmul cw half32), fsub v (fmul ch half32))
  let d := if c.arb then (ffma (fneg c.sin) d.2 (fmul c.cos d.1), ffma c.sin d.1 (fmul c.cos d.2)) else d
  (fadd (fadd (ofNat32 c.cx) (fmul cw half32)) d.1, fadd (fadd (ofNat32 c.cy) (fmul ch half32)) d.2)

/-- R405: one output element's three channels. -/
def pixel (c : StreamCfg) (p : Planes) (x y : Nat) : List W32 :=
  let pt := pixelPoint c x y
  if isNan pt.1 || isNan pt.2 || flt pt.1 0 || flt (ofNat32 (p.pw - 1)) pt.1 || flt pt.2 0 || flt (ofNat32 (p.ph - 1)) pt.2 then
    [c.fill, c.fill, c.fill]
  else
    let l := sampleAt c.nearest p.luma p.pw p.ph pt.1 pt.2
    let q := chromaPoint c.codec p pt.1 pt.2
    let grey := ofNat32 (midCode p.depth)
    let cb := if p.chroma = 0 then grey else sampleAt c.nearest p.cb (chromaW p) (chromaH p) q.1 q.2
    let cr := if p.chroma = 0 then grey else sampleAt c.nearest p.cr (chromaW p) (chromaH p) q.1 q.2
    colour c.m c.off l cb cr

/-- R407: values in the output format. -/
def outBytes (fmt : Nat) (vs : List W32) : List Byte := vs.flatMap fun v => leBytes (fmtBytes fmt) (toWide fmt v).code

/-- The elements of a chosen frame. -/
def frameOut (c : StreamCfg) (p : Planes) : List Byte :=
  outBytes c.ofmt ((List.range c.oh).flatMap fun y => (List.range c.ow).flatMap fun x => pixel c p x y)

/-! ### One stream of a sample -/

/-- What a stream gives its sample: its lowest cause, tensor, mask bytes, and what it adds to the counters of R426. -/
structure StreamOut where
  cause : Nat
  bytes : List Byte
  masks : List Nat
  frames : Nat
  conceal : Nat
  refsub : Nat
  masked : Nat
  deriving DecidableEq, Repr

def StreamOut.reject (c : Nat) : StreamOut := ⟨c, [], [], 0, 0, 0, 0⟩

/-- R402: the mask byte of a chosen frame. -/
def maskOf (p : Pic) : Nat := 1 + 2 * bit p.concealed + 4 * bit p.refSub + 8 * bit p.inherited

/-- R395: the time points of a sample. -/
def DecJob.times (j : DecJob) (tRef : Nat) : List Nat := (List.range j.tpoints).map fun p => tRef + p * j.tStep

/-- A camera stream before its pictures are decoded: chosen frames, where decoding starts, the highest chosen index, the headers it
meets with the bytes from each to LEN, and its cause (0x03, 0x04, 0x05). -/
structure CamPlan where
  es : List IdxEntry
  picks : List (Option Nat)
  start : Nat
  stop : Nat
  heads : List SeqHeader
  cause : Nat
  deriving DecidableEq, Repr

/-- R392, R395, R396, R399: a camera stream's plan. -/
def camPlan (c : StreamCfg) (len : Nat) (seg idx : List Byte) (count : Nat) (ts : List Nat) : CamPlan :=
  let es := indexOf idx count
  if !indexGood len es then ⟨es, [], 0, 0, [], 5⟩ else
  let picks := ts.map fun t => chosen es c.tol t
  match picks.filterMap id with
  | [] => ⟨es, picks, 0, 0, [], 0⟩
  | i :: is =>
    let lo := is.foldl min i
    let hi := is.foldl max i
    let start := decodeFrom es lo
    let o := match es[start]? with | some e => e.off | none => 0
    let stop := match es[hi + 1]? with | some e => e.off | none => len
    let heads := Config.seqHeaders c.codec ((seg.drop o).take (stop - o))
    ⟨es, picks, start, hi, heads, lowestCause (heads.map fun h => headerCause c.codec h (len - (o + h.off)))⟩

/-- The access units that a camera stream decodes, each with the last sequence header at or before its end. -/
def CamPlan.units (m : CamPlan) (len : Nat) (seg : List Byte) : List (Option SeqHeader × List Byte) :=
  let at_ := fun i => match m.es[i]? with | some e => e.off | none => len
  if m.picks.all Option.isNone then [] else
    (List.range (m.stop + 1 - m.start)).map fun i =>
      ((m.heads.filter fun h => decide (at_ m.start + h.off < at_ (m.start + i + 1))).getLast?, unitBytes m.es len seg (m.start + i))

/-- R393, R396, R398, R402: a camera stream decoded and transformed. -/
def cameraOut (c : StreamCfg) (len : Nat) (seg : List Byte) (m : CamPlan) : StreamOut :=
  let r := decodeRun c.codec (headerWithin (Config.openHeader c.codec seg) c.codec) [] [] 0 (m.units len seg)
  let pic := fun i : Nat => r.1[i - m.start]?
  let zero := List.replicate (c.oh * c.ow * 3 * c.eb) (0 : Byte)
  let one := fun k : Option Nat => match k.bind pic with | some p => (frameOut c p.planes, maskOf p) | none => (zero, 0)
  let outs := m.picks.map one
  let chosenLost := ((List.range r.1.length).filter fun i =>
    m.picks.contains (some (m.start + i)) && (match r.1[i]? with | some p => p.lost | none => false)).length
  { cause := 0, bytes := outs.flatMap (·.1), masks := outs.map (·.2), frames := (r.1.filter fun p => !p.lost).length,
    conceal := (r.1.filter fun p => p.concealed).length, refsub := r.2 + chosenLost,
    masked := (m.picks.filter Option.isNone).length }

/-- R393, R397, R398: a sensor stream aligned. -/
def sensorOut (c : StreamCfg) (len : Nat) (bs : List Byte) (ts : List Nat) : StreamOut :=
  if len % recBytes c.vlen ≠ 0 then StreamOut.reject 5 else
  let rs := recordsOf bs c.vlen (len / recBytes c.vlen)
  if !timesRise rs then StreamOut.reject 5 else
  let vs := ts.map fun t => sensorAt rs c.tol c.vlen t
  let one := fun v : Option (List W32) => match v with | some v => outBytes c.ofmt v | none => List.replicate (c.vlen * c.eb) 0
  { cause := 0, bytes := vs.flatMap one, masks := vs.map fun v => bit v.isSome, frames := 0, conceal := 0, refsub := 0,
    masked := (vs.filter Option.isNone).length }

/-! ### Pipelines (R412, R423) -/

/-- R423, R542: a decode pipeline corrects an error; at the limit it is reslated at the ridge after the next. -/
def State.decCorrected (s : State) (k : Nat) : State :=
  let s := s.bump (Reg.MED_PIPE_ERR.CE k) 1
  let lim := s.getF Reg.MED_CTRL.CE_LIMIT
  if lim ≠ 0 ∧ lim ≤ s.getF (Reg.MED_PIPE_ERR.CE k) then s.requestReslate 2 k true else s

/-- R412, R423: a decode pipeline fails: it is counted, marked failed and reslated at the next ridge, and bit 34 rises. -/
def State.decFailed (s : State) (k : Nat) (parity : Bool) : State :=
  let s := s.bump (if parity then Reg.MED_PIPE_ERR.PARITY k else Reg.MED_PIPE_ERR.UE k) 1
  let s := s.setFs [(Reg.MED_PIPE_STAT.STATE k, 2), (Reg.MED_PIPE_STAT.LOGICAL k, 0x1F),
    (Reg.MED_PIPE_STAT.CAUSE k, if parity then 1 else 2)]
  ((s.requestReslate 2 k false).countDec).raiseLine 34

/-- The faults counted under a key of a job. -/
def MJob.faults (j : MJob) (key : Nat) : Nat := match j.restarts.find? fun x => x.1 = key with | some x => x.2 | none => 0

/-- One more fault under a key. -/
def MJob.fault (j : MJob) (key : Nat) : MJob :=
  { j with restarts := (j.restarts.filter fun x => x.1 ≠ key) ++ [(key, j.faults key + 1)] }

/-- R412: the logical pipeline that decodes a stream of a job: the one it restarted on, else the one that took it. -/
def MJob.pipeOf (j : MJob) (key first : Nat) : Nat := match j.pipes.find? fun x => x.1 = key with | some x => x.2 | none => first

/-- R412: a stream of a job is on a pipeline from now on. -/
def MJob.moveTo (j : MJob) (key : Nat) (p : Option Nat) : MJob :=
  match p with
  | some l => { j with pipes := (j.pipes.filter fun x => x.1 ≠ key) ++ [(key, l)] }
  | none => j

/-- R129, R412: the next logical decode pipeline in service after `l` whose gate is open, in increasing order, wrapping. -/
def State.nextPipe (s : State) (l : Nat) : Option Nat :=
  ((List.range 24).map fun i => (l + 1 + i) % 24).find? fun t => s.decInService t && (s.gateStatus t).isNone

/-- R412: a pipeline fault hits the decode of a stream: it restarts on the next pipeline in service, at most twice. A fault in another
pipeline than the one the stream is on leaves it alone. -/
def State.streamFault (s : State) (j : MJob) (sample stream k : Nat) (parity : Bool) : State :=
  let key := 16 * sample + stream
  let l := s.getF (Reg.MED_PIPE_STAT.LOGICAL k)
  let s := s.decFailed k parity
  if j.pipeOf key l ≠ l then s
  else
    let s := if j.faults key < 2 then s.bump Reg.MED_RESTART.COUNT 1 else s
    let j := (j.fault key).moveTo key (s.nextPipe l)
    let s := { s with bufs := s.bufs.map fun (b : BufClaim) =>
      if b.ring = j.req.ring ∧ b.sample = sample ∧ b.stream = stream then { b with pipe := j.pipeOf key l } else b }
    s.putJob j

/-- R412, R423: decode pipeline `k` fails: the first stream that it decodes, if any, restarts. -/
def State.decHit (s : State) (k : Nat) (parity : Bool) : State :=
  match s.bufs.find? fun b => b.granted && decide (b.pages ≠ 0 ∧ b.pipe = s.getF (Reg.MED_PIPE_STAT.LOGICAL k)) with
  | none => s.decFailed k parity
  | some b =>
    match s.jobOf b.ring false with
    | none => s.decFailed k parity
    | some j => s.streamFault j b.sample b.stream k parity

/-- R412, R423: an uncorrectable or parity error in decode pipeline `k`, decoding a stream of a sample of ring `r`'s job. -/
def decodePipelineFault (k r sample stream : Nat) (parity : Bool) (s : State) : State :=
  if 26 ≤ k ∨ s.getF (Reg.MED_PIPE_STAT.STATE k) ≠ 0 then s else
  match s.jobOf r false with
  | some j => if sample < j.committed ∨ 16 ≤ stream then s.decFailed k parity else s.streamFault j sample stream k parity
  | none => s.decFailed k parity
def execDecodePipelineFault (k r sample stream : Nat) (parity : Bool) (s : State) : Out :=
  onHub (decodePipelineFault k r sample stream parity) s

/-! ### Picture buffers (R403) -/

/-- Waiting streams are granted buffers in increasing order of sample and stream, as far as the work area holds them. -/
def grantBufs (room : Nat) : List BufClaim → List BufClaim
  | [] => []
  | b :: t => if b.granted then b :: grantBufs room t else if b.pages ≤ room then { b with granted := true } :: grantBufs (room - b.pages) t
    else b :: t

/-- Order of sample and stream. -/
def BufClaim.before (a b : BufClaim) : Bool := decide (a.sample < b.sample ∨ (a.sample = b.sample ∧ a.stream < b.stream))

def insertClaim (x : BufClaim) : List BufClaim → List BufClaim
  | [] => [x]
  | y :: t => if x.before y then x :: y :: t else y :: insertClaim x t

/-- R403: the buffers in use. -/
def State.bufsUsed (s : State) : Nat := ((s.bufs.filter fun b => b.granted).map (·.pages)).sum

/-- The plan of a camera stream of a sample, its source read as the command delivers it. -/
def State.camOf (s : State) (j : DecJob) (c : StreamCfg) (e k : Nat) (src : MSrc) : Option (SrcEntry × List Byte × CamPlan) × State :=
  let x := s.srcEntry e k
  if s.entryCause true x ≠ 0 then (none, s) else
  match s.srcRead x.tier x.idx (16 * x.count) src.index with
  | (none, s) => (none, s)
  | (some ix, s) =>
    match s.srcRead x.tier x.src x.len src.data with
    | (none, s) => (none, s)
    | (some seg, s) => (some (x, seg, camPlan c x.len seg ix x.count (j.times (s.tabW e 0))), s)

/-- R129, R403: a camera stream of ring `r`'s job asks for its buffers, on its pipeline, or on the next that is open when the gate of that is
closed; with every gate closed it asks again later (DESIGN CHOICE, assumption 73); `done` are streams that have ended decoding and give theirs back;
what fits is granted. -/
def bufferGrant (r sample stream : Nat) (src : MSrc) (done : List (Nat × Nat)) (s : State) : State :=
  match s.jobOf r false with
  | none => s
  | some j =>
    let d := s.decJob j.req.jobAddr
    let cfg := s.streamCfg (j.req.jobAddr + 64 + 128 * stream)
    let back := fun b : BufClaim =>
      if b.ring = r ∧ b.granted ∧ done.contains (b.sample, b.stream) then { b with pages := 0 } else b
    let s := { s with bufs := s.bufs.map back }
    let own := j.pipeOf (16 * sample + stream) (s.getF (Reg.MED_PIPE_STAT.LOGICAL src.pipe))
    let pipe := if (s.gateStatus own).isNone then own else (s.nextPipe own).getD own
    let s : State :=
      if sample < j.committed ∨ d.samples ≤ sample ∨ d.streams ≤ stream ∨ cfg.kind ≠ 0 ∨ (s.gateStatus pipe).isSome ∨
          s.bufs.any (fun b => decide (b.ring = r ∧ b.sample = sample ∧ b.stream = stream)) then s
      else
        match s.camOf d cfg (d.stAddr + 576 * sample) stream src with
        | (some (_, _, m), s) =>
          let n := bufPages m.heads
          if m.cause ≠ 0 ∨ s.getF Reg.MED_WORK_LEN.PAGES < n then s
          else { s with bufs := insertClaim ⟨r, sample, stream, n, false, pipe⟩ s.bufs }
        | (none, s) => s
    { s with bufs := grantBufs (s.getF Reg.MED_WORK_LEN.PAGES - s.bufsUsed) s.bufs }
def execBufferGrant (r sample stream : Nat) (src : MSrc) (done : List (Nat × Nat)) (s : State) : Out :=
  onHub (bufferGrant r sample stream src done) s

/-! ### Commit (R393, R408 to R411) -/

/-- What one stream of a sample comes to. -/
inductive StreamRes where
  | out (o : StreamOut)
  /-- R404: a source read failed. -/
  | failed
  /-- R403: it has no buffers yet. -/
  | wait
  deriving DecidableEq, Repr

/-- R409, R412: stream `k` of a sample entry at `e`. -/
def State.streamRes (s : State) (j : MJob) (d : DecJob) (e k : Nat) (src : MSrc) : StreamRes × State :=
  let c := s.streamCfg (j.req.jobAddr + 64 + 128 * k)
  let x := s.srcEntry e k
  let cause := s.entryCause (decide (c.kind = 0)) x
  let lateFault := decide (3 ≤ j.faults (16 * j.committed + k))
  if cause ≠ 0 then (.out (StreamOut.reject cause), s)
  else if c.kind ≠ 0 then
    match s.srcRead x.tier x.src x.len src.data with
    | (none, s) => (.failed, s)
    | (some bs, s) => (.out (sensorOut c x.len bs (d.times (s.tabW e 0))), s)
  else
    match s.camOf d c e k src with
    | (none, s) => (.failed, s)
    | (some (x, seg, m), s) =>
      if m.cause ≠ 0 then (.out (StreamOut.reject m.cause), s)
      else if s.getF Reg.MED_WORK_LEN.PAGES < bufPages m.heads then (.out (StreamOut.reject 8), s)
      else if lateFault then (.out (StreamOut.reject 7), s)
      else if m.heads ≠ [] ∧ !(s.bufs.any fun b => decide (b.ring = j.req.ring ∧ b.sample = j.committed ∧ b.stream = k) && b.granted)
      then (.wait, s)
      else
        let o := cameraOut c x.len seg m
        (.out (if d.strict && o.masks.any fun b => decide (1 < b) then { o with cause := 6 } else o), s)

/-- The streams of a sample in turn; none when a source read failed or a stream still waits, and the stream that failed. -/
def State.streamsRes (s : State) (j : MJob) (d : DecJob) (e : Nat) (srcs : List MSrc) :
    List Nat → List StreamOut → Option (List StreamOut) × Option Nat × State
  | [], acc => (some acc, none, s)
  | k :: ks, acc =>
    match s.streamRes j d e k (srcs.getD k default) with
    | (.failed, s) => (none, some k, s)
    | (.wait, s) => (none, none, s)
    | (.out o, s) => s.streamsRes j d e srcs ks (acc ++ [o])

/-- R409: the entry's own reserved words: words 1 to 7. -/
def State.entryBad (s : State) (e : Nat) : Bool := (List.range 7).any fun i => decide (s.tabW e (1 + i) ≠ 0)

/-- R409: the cause of a sample, and the lowest stream that has it. -/
def sampleCause (entryBad : Bool) (os : List StreamOut) : Nat × Nat :=
  let c := lowestCause (bit entryBad :: os.map (·.cause))
  (c, if entryBad then 0 else (os.findIdx? fun o => o.cause = c).getD 0)

/-- R393, R410: the bytes of a sample's mask area and record; WEIGHT 1.0 is 0x3F80_0000. -/
def sampleRecord (cause tRef : Nat) : List Byte :=
  leBytes 8 (if cause = 0 then 0x3F800000 else 2 ^ 32 + cause * 2 ^ 33) ++ leBytes 8 tRef ++ List.replicate 48 0

/-- R411: an entry of the substitution log. -/
def subEntry (q : Req) (sample stream cause tRef t : Nat) : List Byte :=
  leBytes 8 (q.seq + q.ring * 2 ^ 16 + sample % 65536 * 2 ^ 32 + stream % 16 * 2 ^ 48 + cause % 256 * 2 ^ 52) ++ leBytes 8 tRef ++
  leBytes 8 t ++ leBytes 8 0

/-- R411: address of the substitution log's next entry. -/
def State.subSlot (s : State) : Nat :=
  s.getF Reg.MED_SUBLOG.BASE * 4096 + 32 * (s.getF Reg.MED_SUBPOS.POS % (s.getF Reg.MED_SUBLOG.SLOTS + 1))

/-- R410, R411: a corrupt sample is counted and logged. -/
def State.substitute (s : State) (q : Req) (sample stream cause tRef : Nat) : State :=
  let s := s.writeHbm s.subSlot (subEntry q sample stream cause tRef s.timeBase)
  ((s.bump Reg.MED_SUBPOS.POS 1).bump Reg.MED_SUBST.COUNT 1).mediaErr q cause true sample stream

/-- R393: a stream's tensor and mask bytes are written, zero when the sample is corrupt. -/
def State.writeStream (s : State) (d : DecJob) (base : Nat) (bad : Bool) (x : StreamCfg × StreamOut × Nat) : State :=
  let n := x.1.bytes d.tpoints
  let s := s.writeHbm (base + x.1.outOff * 64) (if bad then List.replicate n 0 else x.2.1.bytes)
  s.writeHbm (base + 64 + x.2.2 * d.tpoints) (if bad then List.replicate d.tpoints 0 else x.2.1.masks.map fun m => BitVec.ofNat 8 m)

/-- R426: the counters a stream adds to. -/
def State.countStream (s : State) (o : StreamOut) : State :=
  let s := (s.bump Reg.MED_FRAMES.COUNT o.frames).bump Reg.MED_CONCEAL.COUNT o.conceal
  let s := (s.bump Reg.MED_REFSUB.COUNT o.refsub).bump Reg.MED_MASKED.COUNT o.masked
  if o.cause = 3 ∨ o.cause = 4 then s.bump Reg.MED_REJECT.COUNT 1 else s

/-- R393, R410, R411: what the commit of a sample with region `base` writes: addresses and lengths. -/
def State.commitRanges (s : State) (j : MJob) (d : DecJob) (base : Nat) (bad : Bool) : List (Nat × Nat) :=
  (base, 64) :: (if bad then [(s.subSlot, 32)] else []) ++
    (s.streamCfgs j.req.jobAddr).zipIdx.flatMap fun x =>
      [(base + x.1.outOff * 64, x.1.bytes d.tpoints), (base + 64 + x.2 * d.tpoints, d.tpoints)]

/-- R408 to R411: the next sample of a job is committed from what its streams gave. -/
def State.commitSample (s : State) (j : MJob) (d : DecJob) (os : List StreamOut) : State :=
  let i := j.committed
  let e := d.stAddr + 576 * i
  let base := d.outBase + i * d.region
  let tRef := s.tabW e 0
  let c := sampleCause (s.entryBad e) os
  let old := (s.commitRanges j d base (decide (c.1 ≠ 0))).map fun x => (x.1, s.peek x.1 x.2)
  let s := s.each ((s.streamCfgs j.req.jobAddr).zip os.zipIdx) fun s x => s.writeStream d base (decide (c.1 ≠ 0)) x
  let s := s.writeHbm base (sampleRecord c.1 tRef)
  let s := s.each os State.countStream
  let s := if c.1 = 0 then s else s.substitute j.req i c.2 c.1 tRef
  let j : MJob := { j with committed := i + 1, subst := j.subst + bit (decide (c.1 ≠ 0)), undo := old ++ j.undo }
  let s := { s with bufs := s.bufs.filter fun b => !(decide (b.ring = j.req.ring) && decide (b.sample = i)) }
  let s := (s.putJob j).showSeq
  if i + 1 = d.samples then s.endJob j 0 else s

/-- R518, R519: an injection into a decode pipeline's buffers acts on the next word a stream writes there: corrected, or a fault of the
stream's decode. -/
def State.injectDec (s : State) (j : MJob) (srcs : List MSrc) : Option State :=
  match (srcs.zipIdx).find? fun x => (s.armed 10 x.1.pipe).isSome with
  | none => none
  | some x =>
    if s.armed 10 x.1.pipe = some 0 then some (s.useInject.decCorrected x.1.pipe)
    else some (s.useInject.streamFault j j.committed x.2 x.1.pipe false)

/-- R408: the stager commits the next sample of ring `r`'s oldest decode job; `srcs` says, by stream, what its host or peer source answers
and which pipeline decodes it. -/
def sampleCommit (r : Nat) (srcs : List MSrc) (s : State) : State :=
  match s.jobOf r false with
  | none => s
  | some j =>
    if j.retried then s else
    let d := s.decJob j.req.jobAddr
    let e := d.stAddr + 576 * j.committed
    let soft := (srcs.find? fun x => s.armed 10 x.pipe = some 0).isSome
    match s.injectDec j srcs with
    | some t => if soft then sampleGo t j d e else t
    | none => sampleGo s j d e
where
  sampleGo (s : State) (j : MJob) (d : DecJob) (e : Nat) : State :=
    if !(s.badStacks e 576).isEmpty then ((s.readHbm e 576).2).jobRetry j else
    match (s.readHbm e 576).2.streamsRes j d e srcs (List.range d.streams) [] with
    | (some os, _, s) => s.commitSample j d os
    | (none, some _, s) => s.jobRetry j
    | (none, none, s) => s
def execSampleCommit (r : Nat) (srcs : List MSrc) (s : State) : Out := onHub (sampleCommit r srcs) s

end Sys2Proof.Machine
end

