-- ==== Sys2Proof/Machine/Encode.lean ====
section
/-! DEFINITION. The media front end's encode side (R415 to R424): job validation, input conversion, motion search and candidate choice,
row budgets, output, pipeline faults, and the retry of failed accesses of either kind of job (R404). -/

namespace Sys2Proof.Machine

/-! ### Encode job tables (R415, R422) -/

/-- An encode job table (R415); sizes as numbers of things. -/
structure EncJob where
  codec : Nat
  ifmt : Nat
  frames : Nat
  w : Nat
  h : Nat
  qp0 : Nat
  qpMin : Nat
  qpMax : Nat
  target : Nat
  cap : Nat
  inAddr : Nat
  outAddr : Nat
  outTier : Nat
  room : Nat
  idxAddr : Nat
  m : List W32
  off : List W32
  deriving DecidableEq, Repr

def State.encJob (s : State) (a : Nat) : EncJob :=
  let w := s.tabW a
  let m := s.tabM a 8
  { codec := bitsOf (w 0) 16 2, ifmt := bitsOf (w 0) 18 3, frames := bitsOf (w 0) 32 16 + 1, w := bitsOf (w 1) 0 13 + 1,
    h := bitsOf (w 1) 16 13 + 1, qp0 := bitsOf (w 1) 32 8, qpMin := bitsOf (w 1) 40 8, qpMax := bitsOf (w 1) 48 8,
    target := bitsOf (w 2) 0 32, cap := bitsOf (w 2) 32 32, inAddr := bitsOf (w 3) 0 48, outAddr := bitsOf (w 4) 0 42,
    outTier := bitsOf (w 4) 42 4, room := bitsOf (w 5) 0 40, idxAddr := bitsOf (w 6) 0 42, m := m.take 9, off := m.drop 9 }

/-- R419, R421: block rows of a picture, and blocks of a row. -/
def EncJob.rows (j : EncJob) : Nat := ceilDiv j.h 64
def EncJob.cols (j : EncJob) : Nat := ceilDiv j.w 64
/-- R421: bits a row in the fixed manner takes at most. -/
def EncJob.fixedRow (j : EncJob) : Nat := 128 + 24 * j.cols
/-- R416: bytes of one input picture. -/
def EncJob.frameBytes (j : EncJob) : Nat := j.w * j.h * 3 * fmtBytes j.ifmt

/-- R415: reserved fields and codes, and alignment. -/
def State.encBad (s : State) (a : Nat) : Bool :=
  let w := s.tabW a
  let j := s.encJob a
  decide (bitsOf (w 0) 0 16 ≠ 0xE7C1 ∨ 2 ≤ j.codec ∨ (j.ifmt ≠ 3 ∧ j.ifmt ≠ 4) ∨ bitsOf (w 0) 21 11 ≠ 0 ∨ bitsOf (w 0) 48 16 ≠ 0 ∨
    bitsOf (w 1) 13 3 ≠ 0 ∨ bitsOf (w 1) 29 3 ≠ 0 ∨ bitsOf (w 1) 56 8 ≠ 0 ∨ bitsOf (w 3) 48 16 ≠ 0 ∨ bitsOf (w 4) 46 18 ≠ 0 ∨
    (j.outTier ≠ 2 ∧ j.outTier ≠ 3) ∨ bitsOf (w 5) 40 24 ≠ 0 ∨ bitsOf (w 6) 42 22 ≠ 0 ∨ bitsOf (w 7) 32 32 ≠ 0 ∨ w 14 ≠ 0 ∨ w 15 ≠ 0 ∨
    bitsOf (w 3) 0 6 ≠ 0 ∨ a % 64 ≠ 0)

/-- R415: a field outside its range. -/
def EncJob.outside (j : EncJob) : Bool :=
  let top := if j.codec = 0 then 51 else 255
  decide (j.w % 8 ≠ 0 ∨ j.h % 8 ≠ 0 ∨ j.w < 64 ∨ 8192 < j.w ∨ j.h < 64 ∨ 4352 < j.h ∨ j.qp0 < j.qpMin ∨ j.qpMax < j.qp0 ∨ top < j.qpMax)

/-- R422: CAP or ROOM below the minimum. Picture 0 asks for the most. -/
def EncJob.tight (j : EncJob) : Bool :=
  decide (j.cap < 1024 + j.rows * j.fixedRow + 2048 ∨ j.room < 4096 + j.frames * ceilDiv j.cap 8)

/-- R415, R422, R424: the status that ends an encode job before it encodes; 0 when it passes. NEED must be 0. -/
def State.encodeCheck (s : State) (q : Req) : Nat :=
  let a := q.jobAddr
  if s.hbmCap < a + 128 then 0x61 else
  let j := s.encJob a
  if crc32 (s.peek a 56 ++ s.peek (a + 64) 64) ≠ bitsOf (s.tabW a 7) 0 32 ∨ s.encBad a ∨ j.outside ∨ q.need then 0x60
  else if s.hbmCap < j.inAddr + j.frames * j.frameBytes ∨ s.farBad j.outTier j.outAddr j.room ∨
      s.farBad j.outTier j.idxAddr (16 * j.frames) then 0x61
  else if j.tight then 0x62
  else if s.getF Reg.MED_STAT.ENC_ACTIVE = 0 then 0x63
  else 0

/-- R386, R415, R424: a MEDIA_JOB of KIND encode is validated and starts. -/
def mediaEncodeJob (r : Nat) (s : State) : State :=
  match s.nextReq r 0x10 with
  | none => s
  | some q =>
    if wbits (q.word 1) 48 4 ≠ 1 then s else
    let s := s.markStarted q
    match s.mediaGate true with
    | some st => s.mediaReject q st
    | none =>
      let bad := !(s.badStacks q.jobAddr 128).isEmpty
      let s := if s.hbmCap < q.jobAddr + 128 then s else (s.readHbm q.jobAddr 128).2
      if bad then s.mediaReject q 0x64
      else match s.encodeCheck q with
        | 0 => s.startJob q true
        | code => s.mediaReject q code
def execMediaEncodeJob (r : Nat) (s : State) : Out := onHub (mediaEncodeJob r) s

/-! ### Input (R416) -/

/-- R416: a code: rounded to nearest even and clamped to 0 to 1,023; a NaN becomes 0. -/
def codeOf (a : W32) : Nat := if isNan a || flt a 0 then 0 else if flt 0x447FC000 a then 1023 else min 1023 (rneInt a)
where
  /-- A value at or above zero rounded to the nearest integer, ties to even. -/
  rneInt (a : W32) : Nat := match FV.of a with | .num _ m e => rne m e 0 | _ => 0

/-- The three converted values of an input pixel. -/
def State.encPixel (s : State) (j : EncJob) (f y x : Nat) : List W32 :=
  let eb := fmtBytes j.ifmt
  let at_ := fun c => widen j.ifmt (leNat (s.peek (j.inAddr + (((f * j.h + y) * j.w + x) * 3 + c) * eb) eb))
  colour j.m j.off (at_ 0) (at_ 1) (at_ 2)

/-- R416: picture `f` of the input as 10-bit 4:2:0 codes. -/
def State.encPicture (s : State) (j : EncJob) (f : Nat) : Planes :=
  let px := fun y x c => (s.encPixel j f y x).getD c 0
  let chroma := fun c => (List.range (j.h / 2)).flatMap fun y => (List.range (j.w / 2)).map fun x =>
    codeOf (fmul (fadd (fadd (px (2 * y) (2 * x) c) (px (2 * y) (2 * x + 1) c))
      (fadd (px (2 * y + 1) (2 * x) c) (px (2 * y + 1) (2 * x + 1) c))) 0x3E800000)
  { pw := j.w, ph := j.h, depth := 10, chroma := 1,
    luma := (List.range j.h).flatMap fun y => (List.range j.w).map fun x => codeOf (px y x 0), cb := chroma 1, cr := chroma 2 }

/-! ### Motion search (R418) -/

/-- A plane sample, the edge repeated outside the picture. -/
def edgeAt (pl : List Nat) (w h : Nat) (x y : Int) : Nat :=
  let cx := (max 0 (min x ((w : Int) - 1))).toNat
  let cy := (max 0 (min y ((h : Int) - 1))).toNat
  pl.getD (cy * w + cx) 0

/-- R418: a plane averaged over n × n squares, rounded: quarter scale n = 4, half scale n = 2. -/
def scaleDown (n : Nat) (pl : List Nat) (w h : Nat) : List Nat :=
  (List.range (ceilDiv h n)).flatMap fun y => (List.range (ceilDiv w n)).map fun x =>
    (((List.range n).flatMap fun dy => (List.range n).map fun dx => edgeAt pl w h (x * n + dx : Nat) (y * n + dy : Nat)).sum + n * n / 2)
      / (n * n)

/-- SAD of a block of `n` × `n` samples at (x, y) of `cur` against a sampled reference. -/
def sadOf (n : Nat) (cur : List Nat) (w h x y : Nat) (ref : Int → Int → Nat) : Nat :=
  ((List.range n).flatMap fun dy => (List.range n).map fun dx =>
    let a := edgeAt cur w h (x + dx : Nat) (y + dy : Nat)
    let b := ref dx dy
    dist a b).sum

/-- A candidate vector in quarter samples with its cost. -/
abbrev MvCost := Nat × Int × Int

/-- R418: `a` is taken before `b`: cost, then |mvx| + |mvy|, then mvy, then mvx. -/
def mvBefore (a b : MvCost) : Bool :=
  let la := a.2.1.natAbs + a.2.2.natAbs
  let lb := b.2.1.natAbs + b.2.2.natAbs
  decide (a.1 < b.1 ∨ (a.1 = b.1 ∧ (la < lb ∨ (la = lb ∧ (a.2.2 < b.2.2 ∨ (a.2.2 = b.2.2 ∧ a.2.1 < b.2.1))))))

/-- The best of a list of candidates. -/
def bestMv : List MvCost → MvCost
  | [] => (0, 0, 0)
  | [a] => a
  | a :: b :: t => let c := bestMv (b :: t); if mvBefore c a then c else a

/-- R418: λ. -/
def lambdaOf (q : Nat) : Nat := max 1 (q * q / 128)

/-- Vectors within ±rx, ±ry of a centre, in steps of `u`. -/
def aroundMv (c : Int × Int) (rx ry u : Nat) : List (Int × Int) :=
  (List.range (2 * ry + 1)).flatMap fun y => (List.range (2 * rx + 1)).map fun x =>
    (c.1 + ((x : Int) - rx) * u, c.2 + ((y : Int) - ry) * u)

/-- R418: one level: `sad` of each candidate (in quarter samples of the full picture), the cost against the vector to the left. -/
def searchLevel (lam : Nat) (left : Int × Int) (sad : Int × Int → Nat) (cs : List (Int × Int)) : MvCost :=
  bestMv (cs.map fun v => (sad v + lam * ((v.1 - left.1).natAbs + (v.2 - left.2).natAbs), v.1, v.2))

/-- R418: SAD of the block at (x, y) of a picture against its reference at a vector in quarter samples. -/
def blockSad (codec : Nat) (cur ref : Planes) (x y : Nat) (v : Int × Int) : Nat :=
  sadOf 16 cur.luma cur.pw cur.ph x y fun dx dy =>
    if v.1 % 4 = 0 ∧ v.2 % 4 = 0 then edgeAt ref.luma cur.pw cur.ph (x + dx + v.1 / 4) (y + dy + v.2 / 4)
    else Config.subSample codec ref.luma cur.pw cur.ph (4 * (x + dx) + v.1) (4 * (y + dy) + v.2)

/-- R418: the vector search of the 16 × 16 block at (x, y): `left` are the vectors the block to the left has at each of the three levels;
the vectors of this block at each level, and the final cost. -/
def searchBlock (codec lam : Nat) (cur ref : Planes) (x y : Nat) (left : List (Int × Int)) : List (Int × Int) × Nat :=
  let w := cur.pw
  let h := cur.ph
  let down := fun n (p : Planes) => scaleDown n p.luma w h
  let lvl := fun n (v : Int × Int) => sadOf (16 / n) (down n cur) (ceilDiv w n) (ceilDiv h n) (x / n) (y / n) fun dx dy =>
    edgeAt (down n ref) (ceilDiv w n) (ceilDiv h n) (x / n + dx + v.1 / (4 * n)) (y / n + dy + v.2 / (4 * n))
  let fine := blockSad codec cur ref x y
  let l := fun i => left.getD i (0, 0)
  let a := searchLevel lam (l 0) (lvl 4) (aroundMv (0, 0) 64 32 16)
  let b := searchLevel lam (l 1) (lvl 2) (aroundMv (a.2.1, a.2.2) 2 2 8)
  let c := searchLevel lam (l 2) fine (aroundMv (b.2.1, b.2.2) 2 2 4)
  let d := searchLevel lam (l 2) fine (aroundMv (c.2.1, c.2.2) 1 1 2)
  let e := searchLevel lam (l 2) fine (aroundMv (d.2.1, d.2.2) 1 1 1)
  ([(a.2.1, a.2.2), (b.2.1, b.2.2), (e.2.1, e.2.2)], e.1)

/-- R418: SAD of the block at (x, y) against its DC intra prediction. -/
def dcSad (codec : Nat) (cur ref : Planes) (done : List (Nat × Int × Int)) (x y : Nat) : Nat :=
  sadOf 16 cur.luma cur.pw cur.ph x y fun dx dy => Config.dcSample codec cur ref done (x, y) (dx.toNat, dy.toNat)

/-- R418: a coefficient `n` / (`d` + 1) quantiser steps large is quantised with rounding offset 1/3 in an intra block, 1/6 in an inter
block. -/
def quantLevel (c : Bool × Int × Nat) : Int :=
  let m : Nat := (6 * c.2.1.natAbs + (if c.1 then 2 else 1) * (c.2.2 + 1)) / (6 * (c.2.2 + 1))
  if c.2.1 < 0 then -(m : Int) else m

/-- R418: the candidate of one block: 0 skip, 1 the vector, 2 DC intra; ties in the order listed. Picture 0 has no reference. -/
def chooseBlock (codec lam : Nat) (cur ref : Planes) (intra : Bool) (done : List (Nat × Int × Int)) (x y : Nat) (left : List (Int × Int)) :
    (Nat × Int × Int) × List (Int × Int) :=
  if intra then ((2, 0, 0), []) else
  let v := searchBlock codec lam cur ref x y left
  let mv := v.1.getD 2 (0, 0)
  let skip := blockSad codec cur ref x y (Config.skipVector codec done x y)
  let vec := v.2 + 8 * lam
  let dc := dcSad codec cur ref done x y + 16 * lam
  if skip ≤ vec ∧ skip ≤ dc then ((0, 0, 0), v.1) else if vec ≤ dc then ((1, mv.1, mv.2), v.1) else ((2, 0, 0), v.1)

/-- The blocks of one line of 16 × 16 blocks, left to right. -/
def chooseLine (codec lam : Nat) (cur ref : Planes) (intra : Bool) (y : Nat) :
    List Nat → List (Int × Int) → List (Nat × Int × Int) → List (Nat × Int × Int)
  | [], _, done => done
  | i :: is, left, done =>
    let c := chooseBlock codec lam cur ref intra done (16 * i) y left
    chooseLine codec lam cur ref intra y is c.2 (done ++ [c.1])

/-- R418, R419: the choices of block row `r`. -/
def chooseRow (codec lam : Nat) (cur ref : Planes) (intra : Bool) (r : Nat) (done : List (Nat × Int × Int)) : List (Nat × Int × Int) :=
  let lines := (List.range 4).filter fun k => decide (64 * r + 16 * k < cur.ph)
  let all := lines.foldl (fun d k => chooseLine codec lam cur ref intra (64 * r + 16 * k) (List.range (ceilDiv cur.pw 16)) [] d) done
  all.drop done.length

/-! ### Rows and budgets (R420, R421) -/

/-- R420: the quantiser of row `r`, `used` bits into the picture; floors go toward minus infinity. A TARGET of 0 divides by zero: the
quantiser is then a free value. -/
def EncJob.quant (j : EncJob) (used r : Nat) : Nat :=
  if j.target = 0 then max j.qpMin (min j.qpMax (Config.openQuant used r)) else
  let step : Int := if j.codec = 0 then 8 else 32
  let v : Int := j.qp0 + (step * ((used : Int) - (j.target * r / j.rows : Nat))).fdiv j.target
  (max (j.qpMin : Int) (min (j.qpMax : Int) v)).toNat

/-- A coded row: its quantiser, whether it is in the fixed manner, and its choices. -/
abbrev CodedRow := Nat × Bool × List (Nat × Int × Int)

/-- R417: a NAL unit in an Annex B byte stream; the first of an access unit, and a parameter set, has the longer start code. -/
def annexB (first : Bool) (nal : List Byte) : List Byte := (if first then [0, 0, 0, 1] else [0, 0, 1]) ++ nal

/-- R417: the bytes of row `r`: one slice, or one tile in its own tile group. -/
def codedRowBytes (codec : Nat) (intra : Bool) (q : Nat) (fixed : Bool) (done ch : List (Nat × Int × Int)) (levels : List Int) (r : Nat) :
    List Byte :=
  let u := Config.rowUnit codec intra (q, fixed) done ch levels r
  if codec = 0 then annexB (Nat.beq r 0) u else u

/-- R417, R422: the parameter sets before picture 0: VPS, SPS and PPS, or the sequence header; at most 2,048 bits. -/
def paramBytes (j : EncJob) (f : Nat) : List Byte :=
  if f ≠ 0 then []
  else (if j.codec = 0 then [0, 1, 2].flatMap fun k => annexB true (Config.paramUnit 0 j.w j.h k) else Config.paramUnit j.codec j.w j.h 0).take 256

/-- R417, R422: what precedes and what follows the parameter sets among a picture's headers: the temporal delimiter of AV1's temporal unit,
and the picture's own headers; at most 1,024 bits together. -/
def delimiter (j : EncJob) : List Byte := if j.codec = 0 then [] else [0x12, 0x00]
def pictureHead (j : EncJob) (f : Nat) : List Byte := (Config.pictureUnit j.codec j.w j.h f).take 126

/-- R421: the choices of a row in the fixed manner, by 16 × 16 blocks as `chooseRow` gives them: skip with merge candidate 0 or GLOBALMV, or DC
intra in an intra picture. -/
def fixedChoices (cur : Planes) (intra : Bool) (r : Nat) : List (Nat × Int × Int) :=
  let lines := ((List.range 4).filter fun k => decide (64 * r + 16 * k < cur.ph)).length
  List.replicate (lines * ceilDiv cur.pw 16) (if intra then 2 else 0, 0, 0)

/-- R421: the rows of a picture in turn: its bytes so far, whether the fixed manner has begun, the rows coded. A fixed row takes at most
128 + 24N bits, so the picture never exceeds CAP. -/
def codeRows (j : EncJob) (cur ref : Planes) (intra : Bool) : List Nat → List Byte → Bool → List CodedRow → List Byte × List CodedRow
  | [], bs, _, rows => (bs, rows)
  | r :: rs, bs, fixed, rows =>
    let q := j.quant (8 * bs.length) r
    let done := rows.flatMap fun x => x.2.2
    let ch := chooseRow j.codec (lambdaOf q) cur ref intra r done
    let b := codedRowBytes j.codec intra q false done ch ((Config.rowCoeffs j.codec q cur ref done ch r).map quantLevel) r
    let rest := (j.rows - 1 - r) * j.fixedRow
    if fixed || decide (j.cap < 8 * bs.length + 8 * b.length + rest) then
      let top := if j.codec = 0 then 51 else 255
      let fx := fixedChoices cur intra r
      codeRows j cur ref intra rs (bs ++ (codedRowBytes j.codec intra top true done fx [] r).take (j.fixedRow / 8)) true (rows ++ [(top, true, fx)])
    else codeRows j cur ref intra rs (bs ++ b) false (rows ++ [(q, false, ch)])

/-- A coded picture: its bytes, and whether it is capped. -/
structure CodedPic where
  bytes : List Byte
  capped : Bool
  deriving DecidableEq, Repr

/-- R417, R421: the pictures of a job in turn, each with the reconstruction of the one before it as reference. -/
def State.codePics (s : State) (j : EncJob) : List Nat → Planes → List CodedPic → List CodedPic
  | [], _, acc => acc
  | f :: fs, ref, acc =>
    let cur := s.encPicture j f
    let r := codeRows j cur ref (decide (f = 0)) (List.range j.rows) (delimiter j ++ paramBytes j f ++ pictureHead j f) false []
    let out := conform (Config.reconstruct j.codec cur ref r.2) ⟨0, j.w, j.h, 10, 1, 1, 0, 0, true, false⟩
    s.codePics j fs out (acc ++ [⟨r.1, r.2.any fun x => x.2.1⟩])

/-- R417: the picture index. -/
def indexBytes : List CodedPic → Nat → Bool → List Byte
  | [], _, _ => []
  | p :: t, off, first =>
    leBytes 8 off ++ leBytes 8 (p.bytes.length % 2 ^ 32 + bit p.capped * 2 ^ 32 + bit first * 2 ^ 33) ++ indexBytes t (off + p.bytes.length) false

/-! ### The end of an encode job (R387, R404, R417) -/

/-- Bytes written to an output tier; false when the access fails. -/
def State.outStore (s : State) (tier a : Nat) (bs : List Byte) (far : FarAns) : Bool × State :=
  if tier = 2 then (true, s.writeHbm a bs) else s.aptStore a bs far

/-- The job's pictures are read, coded and written with their index. -/
def State.encodeOut (s : State) (j : EncJob) (far : FarAns) : Option (List CodedPic) × State :=
  let n := j.frames * j.frameBytes
  let bad := !(s.badStacks j.inAddr n).isEmpty
  let s := (s.readHbm j.inAddr n).2
  if bad then (none, s) else
  let ps := s.codePics j (List.range j.frames) default []
  match s.outStore j.outTier j.outAddr (ps.flatMap fun p => p.bytes) far with
  | (false, s) => (none, s)
  | (true, s) =>
    match s.outStore j.outTier j.idxAddr (indexBytes ps 0 true) far with
    | (false, s) => (none, s)
    | (true, s) => (some ps, s)

/-- The job ends with its pictures written and capped. -/
def State.encodeDone (s : State) (j : MJob) (ps : List CodedPic) : State :=
  let capped := (ps.filter fun p => p.capped).length
  let j : MJob := { j with committed := ps.length, subst := capped }
  ((s.bump Reg.MED_CAPPED.COUNT capped).putJob j).endJob j 0

/-- R387, R417: the encode job of ring `r` finishes its last picture; `far` is what the host answers to its writes. -/
def encodeJobComplete (r : Nat) (far : FarAns) (s : State) : State :=
  match s.jobOf r true with
  | none => s
  | some j =>
    if j.retried then s else
    match s.encodeOut (s.encJob j.req.jobAddr) far with
    | (some ps, s) => s.encodeDone j ps
    | (none, s) => s.jobRetry j
def execEncodeJobComplete (r : Nat) (far : FarAns) (s : State) : Out := onHub (encodeJobComplete r far) s

/-! ### Retries and faults (R404, R423) -/

/-- The retry of a decode job's reads for its next sample fails again: the stream whose source failed, 0 when it is the sample's entry. -/
def State.decodeFails (s : State) (j : MJob) (srcs : List MSrc) : Option Nat × State :=
  let d := s.decJob j.req.jobAddr
  let e := d.stAddr + 576 * j.committed
  let bad := !(s.badStacks e 576).isEmpty
  let r := (s.readHbm e 576).2.streamsRes j d e srcs (List.range d.streams) []
  (if bad then some 0 else r.2.1, r.2.2)

/-- R404: 1 ms after an access of ring `r`'s job failed it is tried again: the job goes on, or ends with 0x64. -/
def sourceReadRetry (r : Nat) (encode : Bool) (srcs : List MSrc) (s : State) : State :=
  match s.jobOf r encode with
  | none => s
  | some j =>
    if !j.retried then s
    else if encode then
      match s.encodeOut (s.encJob j.req.jobAddr) (srcs.headD default).data with
      | (some ps, s) => s.encodeDone j ps
      | (none, s) => s.endJob j 0x64
    else
      match s.decodeFails j srcs with
      | (some k, s) => s.endJobAt j 0x64 k
      | (none, s) => s.putJob { j with retried := false }
def execSourceReadRetry (r : Nat) (encode : Bool) (srcs : List MSrc) (s : State) : Out := onHub (sourceReadRetry r encode srcs) s

/-- R423: an encode pipeline fails: it is counted and marked, and bit 34 rises. -/
def State.encFailed (s : State) (e : Nat) (parity : Bool) : State :=
  let s := s.bump (if parity then Reg.MED_ENC_ERR.PARITY e else Reg.MED_ENC_ERR.UE e) 1
  let s := s.setF (Reg.MED_ENC_STAT.STATE e) 2
  (s.setF Reg.MED_STAT.ENC_ACTIVE ((List.range 4).filter fun e => s.getF (Reg.MED_ENC_STAT.STATE e) = 0).length).raiseLine 34

/-- R424: with no encode pipeline in service every encode job ends with 0x63. -/
def State.endEncodes (s : State) : State :=
  if s.getF Reg.MED_STAT.ENC_ACTIVE = 0 then s.each (s.jobs.filter fun j => j.encode) fun s j => s.endJob j 0x63 else s

/-- R423: the encode pipelines in service after `e`, in increasing order, wrapping. -/
def State.encAfter (s : State) (e : Nat) : List Nat :=
  ((List.range 4).map fun i => (e + 1 + i) % 4).filter fun k => decide (s.getF (Reg.MED_ENC_STAT.STATE k) = 0)

/-- R129, R423: the picture of a job restarts on the next encode pipeline in service whose gate is open; with every gate closed the job, of
which nothing has taken effect yet, completes with the status of the first. -/
def State.restartEnc (s : State) (j : MJob) (e : Nat) : State :=
  match (s.encAfter e).find? fun k => (s.gateStatus (0x20 + k)).isNone with
  | some k => (s.bump Reg.MED_RESTART.COUNT 1).putJob { j with pipe := k }
  | none => s.endJob j (((s.encAfter e).findSome? fun k => s.gateStatus (0x20 + k)).getD 0x63)

/-- R423: a correctable error in an encode pipeline. With no spare none can take its place: at CE_LIMIT it stays in service (DEDUCED,
assumption 74). -/
def State.encCorrected (s : State) (e : Nat) : State := s.bump (Reg.MED_ENC_ERR.CE e) 1

/-- R423, R424: encode pipeline `e` fails, at work on a picture of a job, if of any: the picture restarts on the next pipeline in service, at
most twice; a third fault ends the job with 0xC8, and with none in service every encode job ends with 0x63. -/
def State.encodePipeHit (s : State) (e : Nat) (job : Option MJob) (picture : Nat) (parity : Bool) : State :=
  let s := s.encFailed e parity
  match job with
  | none => s.endEncodes
  | some j =>
    if 2 ≤ j.faults picture then (s.endJob j 0xC8).endEncodes
    else if s.getF Reg.MED_STAT.ENC_ACTIVE = 0 then s.endEncodes
    else s.restartEnc (j.fault picture) e

/-- R423: an error in encode pipeline `e`, at work on a picture of a job of ring `r` that is on it, or of another ring's when none of that is. -/
def encodePipelineFault (e r picture : Nat) (parity : Bool) (s : State) : State :=
  if 4 ≤ e ∨ s.getF (Reg.MED_ENC_STAT.STATE e) ≠ 0 then s
  else
    let mine := s.jobs.filter fun j => j.encode && decide (j.pipe = e)
    s.encodePipeHit e ((mine.find? fun j => decide (j.req.ring = r)).or mine.head?) picture parity
def execEncodePipelineFault (e r picture : Nat) (parity : Bool) (s : State) : Out := onHub (encodePipelineFault e r picture parity) s

/-- R423: an internal fault of the alignment unit or the stager: the decode job in progress, the one that MED_SEQ shows, ends with 0xC8,
its committed samples stand, and bit 34 rises. -/
def State.stagerFault (s : State) : State :=
  match s.jobs.find? fun j => !j.encode with
  | some j => (s.endJob j 0xC8).raiseLine 34
  | none => s.raiseLine 34

end Sys2Proof.Machine
end

