-- ==== Sys2Proof/Machine/Gutters.lean ====
section
/-! DEFINITION. Gutters (R500 to R509), the rise of error lines from the module's own units (R23, R183, R267, R423, R510 to R516), the
merge window (R514) and fault injection (R518, R519). -/

namespace Sys2Proof.Machine

/-! ### Requests stopped by a fault (R506) -/

/-- A quiesce request leaves the queue of its target; one that runs gives the gate it closed back. -/
def Target.drop (x : Target) (q : Req) : Target :=
  let runs := match x.queue with | y :: _ => y.1.any q.same && y.2.2 | [] => false
  { x with queue := x.queue.filter fun y => !y.1.any q.same, gate := if runs && x.gate = .draining then .opened else x.gate }

/-- R131, R138: a quiesce stopped by a fault takes no effect, and the next one of its target starts. -/
def State.dropQuiesce (s : State) (q : Req) : State :=
  s.each ((s.targets.filter fun x => x.2.queue.any fun y => y.1.any q.same).map Prod.fst) fun s t =>
    (s.setTarget t ((s.target t).drop q)).pumpTarget t

/-- R138, R506: a media job leaves HBM as it found it: what it has replaced is put back, the newest first. -/
def State.undoJob (s : State) (j : MJob) : State := s.each j.undo fun s x => s.writeHbm x.1 x.2

/-- R67: waiting courses without the one of request `q`, which the course after it finds ended without completing. -/
def dropAdm (q : Req) : List Adm → List Adm
  | [] => []
  | a :: t =>
    if q.same a.req then (match t with | [] => [] | b :: u => { b with pred := b.pred.map PrevCourse.ended } :: u)
    else a :: dropAdm q t

/-- R64, R67: a waiting course is taken out of the queue; the course admitted next sees that it did not complete. -/
def State.dropWaiting (s : State) (q : Req) : State :=
  { s with
    prev := if s.waiting.getLast?.any fun a => q.same a.req then s.prev.map PrevCourse.ended else s.prev
    waiting := dropAdm q s.waiting }

/-- R16, R138, R506: a request ends with a status and nothing of it takes effect: what the module held for it is dropped, and it completes.
A media job's counters and its place in the metadata ring stand (DESIGN CHOICE, assumption 37). -/
def State.stopReq (s : State) (code : Nat) (q : Req) : State :=
  match s.jobs.find? fun j => q.same j.req with
  | some j => (s.undoJob j).endJob { j with committed := 0, subst := 0 } code
  | none =>
    match s.svlOps.find? fun o => o.req.any q.same with
    | some o => (s.endOp o true).svlDone (some q) code o.course
    | none =>
      let s := (s.each (s.biasJobs.filter fun b => q.same b.req) State.unbias).dropWaiting q
      let s := { s with
        biasJobs := s.biasJobs.filter fun b => !q.same b.req
        aptJobs := s.aptJobs.filter fun b => !q.same b.req }
      (((s.dropQuiesce q).markStarted q).noteJob q code).finish q code

/-- The requests that these rings and sequence numbers name, stopped; one that runs as a course ends with it (R73), and one whose record has
fallen due is complete. -/
def State.stopOwners (s : State) (code : Nat) (owners : List (Nat × Nat)) : State :=
  s.each owners fun s o =>
    match (s.ring o.1).outstanding.find? fun q => decide (q.seq = o.2) with
    | none => s
    | some q => if (s.course.any fun c => q.same c.req) || s.recordDue q then s else s.stopReq code q

/-- R73, HIF code 0xC0: an internal fault of H stopped these requests; bit 33 rises. -/
def State.hubFault (s : State) (owners : List (Nat × Nat)) : State := (s.raiseLine 33).stopOwners 0xC0 owners

/-- R423: an encode job whose coded words fail ends with 0xC8, or every encode job when the word names none. -/
def State.encodeFault (s : State) (owner : Option (Nat × Nat)) : State :=
  let js := s.jobs.filter fun j => j.encode && (match owner with | some o => decide (j.req.ring = o.1 ∧ j.req.seq = o.2) | none => true)
  (s.each js fun s j => s.endJob j 0xC8).raiseLine 34

/-! ### Gutters (R501) -/

/-- R503: the even-parity bit of a word. -/
def parityBit (w : W64) : Bool := (List.range 64).foldl (fun p i => p != w.toNat.testBit i) false

/-- R501: B, words of a bank. -/
def bankWords (i : Nat) : Nat := Gut.depth i / 2

/-- The bank being filled, and the bank the consumer reads. -/
def Gutter.fill (g : Gutter) : List GWord := if g.f then g.bank1 else g.bank0
def Gutter.fillClosed (g : Gutter) : Bool := if g.f then g.closed1 else g.closed0
def Gutter.bank (g : Gutter) (b : Bool) : List GWord := if b then g.bank1 else g.bank0
def Gutter.setBank (g : Gutter) (b : Bool) (ws : List GWord) : Gutter := if b then { g with bank1 := ws } else { g with bank0 := ws }
def Gutter.setClosed (g : Gutter) (b x : Bool) : Gutter := if b then { g with closed1 := x } else { g with closed0 := x }

/-- R501: the end of a cycle: a closed bank is handed over when the consumer has none. -/
def Gutter.handOver (g : Gutter) : Gutter :=
  if g.r.isNone && g.fillClosed then { g with r := some g.f, f := !g.f } else g

/-- R501: one word enters the bank being filled; none while it is closed or full. -/
def Gutter.write (g : Gutter) (b : Nat) (w : GWord) (last : Bool) : Option Gutter :=
  if g.fillClosed || decide (b ≤ g.fill.length) then none
  else
    let ws := g.fill ++ [w]
    some ((g.setBank g.f ws).setClosed g.f (decide (b ≤ ws.length) || last))

/-- R501: the next word leaves the bank the consumer reads; a drained bank is given back. -/
def Gutter.read (g : Gutter) : Option (GWord × Gutter) :=
  match g.r with
  | none => none
  | some r =>
    match g.bank r with
    | [] => none
    | w :: ws =>
      let g := { g.setBank r ws with lastval := w.val }
      some (w, if ws.isEmpty then { g.setClosed r false with r := none } else g)

/-- R502: a stale expiry with no bank handed over closes a bank that holds a word. -/
def Gutter.stale (g : Gutter) : Gutter := if g.r.isNone && !g.fill.isEmpty then g.setClosed g.f true else g

/-- Words a gutter holds. -/
def Gutter.occ (g : Gutter) : Nat := g.bank0.length + g.bank1.length

/-- R523: a gutter in a new state, with its registers. -/
def State.putGutter (s : State) (i : Nat) (g : Gutter) : State :=
  (s.setGutter i g).setFs [(Reg.GUT_STAT.OCC i, g.occ), (Reg.GUT_STAT.FILL i, bit g.f), (Reg.GUT_STAT.READY i, bit g.r.isSome)]

/-- R509, R188: the unit of a gutter is powered down: its target is, or its physical rafter or pipeline is not in service. -/
def State.gutterOff (s : State) (i : Nat) : Bool :=
  (s.targets.any fun x => decide (x.2.gate = .off) && (s.targetGutters x.1).contains i) ||
  (decide (i ≤ 0x8F) && decide (s.getF (Reg.TRS_RAFT_STAT.STATE (i / 36) (i / 4 % 9)) ≠ 0)) ||
  (decide (0x150 ≤ i ∧ i ≤ 0x169) && decide (s.getF (Reg.MED_PIPE_STAT.STATE (i - 0x150)) ≠ 0)) ||
  (decide (0x16A ≤ i ∧ i ≤ 0x16D) && decide (s.getF (Reg.MED_ENC_STAT.STATE (i - 0x16A)) ≠ 0))

/-- A gutter that moves words now. -/
def State.gutterLive (s : State) (i : Nat) : Bool := Gut.defined i && !s.gutterOff i

/-- R507: an empty read, or one that a pointer mismatch of its cycle makes one (R508), is counted. -/
def State.countUnderrun (s : State) (i : Nat) : State :=
  ((s.setF (Reg.GUT_STAT.UNDERRUN i) 1).bump (Reg.GUT_CNT.UNDERRUNS i) 1).bump Reg.GUT_SUM_UNDER.COUNT 1

/-- R508: the read of this cycle, if there was one. -/
def Gutter.readNow (g : Gutter) (now : Nat) : Option GutRead := g.got.filter fun x => decide (x.at_ = now)

/-- R508: a gutter that a mismatch at `now` resets. Its latest read, when it fell in that cycle, returned lastval as it stood before. -/
def Gutter.reset (g : Gutter) (now : Nat) : Gutter :=
  match g.readNow now with
  | some x => { Gutter.fresh with resetAt := some now, got := some ⟨now, none, x.before, false, x.before⟩ }
  | none => { Gutter.fresh with resetAt := some now, got := g.got.map fun x => { x with before := g.lastval } }

/-- R505, R506, R508: a pointer mismatch: the gutter is reset, its requests end with 0xD8, that of a word read in the cycle among them, bit 37
rises and fails the course. -/
def State.gutterMismatch (s : State) (i : Nat) : State :=
  let g := s.gutter i
  let read := g.readNow s.now
  let owners := (g.bank0 ++ g.bank1).filterMap (·.owner) ++ (read.bind (·.owner)).toList
  let s := ((s.putGutter i (g.reset s.now)).bump (Reg.GUT_CNT.RESETS i) 1).bump Reg.GUT_SUM_RST.COUNT 1
  let s := if read.isSome then s.countUnderrun i else s
  (s.raiseLine 37).stopOwners 0xD8 owners

/-- R505, R508: the gutter has been reset in this cycle. -/
def State.gutterResetNow (s : State) (i : Nat) : Bool := decide ((s.gutter i).resetAt = some s.now)

/-- R518: the bridge a gutter belongs to: 0 to 5, or 6 + n. -/
def gutterBridge (i : Nat) : Option Nat :=
  if 0x90 ≤ i ∧ i ≤ 0x9B then some ((i - 0x90) / 2) else if 0x9C ≤ i ∧ i ≤ 0xA3 then some (6 + (i - 0x9C) / 2) else none

/-- R22, R518: an armed bridge injection acts on the bridge's next transfer, which is replayed and changes no data. -/
def State.injectBridge (s : State) (i : Nat) : State :=
  match gutterBridge i with
  | none => s
  | some b => if (s.armed 8 b).isSome then s.useInject else s

/-- R501, R503: the word as the gutter stores it; R518: an armed parity injection inverts its parity bit. -/
def State.storedWord (s : State) (i : Nat) (w : W64) (poison : Bool) (owner : Option (Nat × Nat)) : GWord × State :=
  if Gut.cls i = 1 then (⟨w, false, false, owner⟩, s)
  else
    let p := parityBit w
    if (s.armed 1 i).isSome then (⟨w, poison, !p, owner⟩, s.useInject) else (⟨w, poison, p, owner⟩, s)

/-- R501, R505, R508, R519: a producer writes one word; it stalls while the bank is closed. In a control gutter with its pointer-copy
injection armed the write finds a mismatch, and is discarded with the rest; so is a word written in the cycle of a reset. -/
def gutterWrite (i : Nat) (w : W64) (poison last : Bool) (owner : Option (Nat × Nat)) (s : State) : State :=
  if !s.gutterLive i then s else
  if s.gutterResetNow i then s.stopOwners 0xD8 owner.toList else
  let r := s.storedWord i w poison owner
  match (s.gutter i).write (bankWords i) r.1 last with
  | none => s
  | some g =>
    let s := r.2.injectBridge i
    if Gut.cls i = 1 && (s.armed 2 i).isSome then (s.useInject.setGutter i g).gutterMismatch i
    else s.putGutter i { g.handOver with timer := if (s.gutter i).occ = 0 then s.now else g.timer }
def execGutterWrite (i : Nat) (w : W64) (poison last : Bool) (owner : Option (Nat × Nat)) (s : State) : Out :=
  onCore (gutterWrite i w poison last owner) s

/-- R341, R504: a poisoned word that its consumer writes to HBM is stored poisoned. -/
def State.storePoison (s : State) (dst : Option Nat) : State :=
  match dst with
  | some a => if a < s.hbmCap then { s with poison := insertSorted (a / 64) s.poison } else s
  | none => s

/-- R504: what a poisoned word does to the consumer of gutter `i`. -/
def State.gutterPoison (s : State) (i : Nat) (owner : Option (Nat × Nat)) (dst : Option Nat) : State :=
  let s := s.storePoison dst
  if i ≤ 0x8F then s.raiseLine (i / 36)
  else if i ≤ 0x9B then
    let hi := [1, 2, 3, 2, 3, 3]
    let lo := [0, 0, 0, 1, 1, 2]
    s.raiseLine ((if i % 2 = 0 then hi else lo).getD ((i - 0x90) / 2) 0)
  else if i ≤ 0xA3 then (if i % 2 = 0 then s.hubFault owner.toList else s.raiseLine ((i - 0x9C) / 2))
  else if i ≤ 0xD7 then s.raiseLine ((i - 0xB0) / 2 / 5)
  else if i ≤ 0x13F then (if i % 2 = 0 then s.raiseLine (28 + (i - 0x100) / 16) else s.raiseLine ((i - 0x100) / 16))
  else if i ≤ 0x143 then s.hubFault owner.toList
  else if i ≤ 0x169 then s.stagerFault
  else if i ≤ 0x16D then s.encodeFault owner
  else if i = 0x171 then flashFault s
  else s.hubFault owner.toList

/-- The latest read of a gutter returned a word, and the stale-tail timer restarts (R502). -/
def Gutter.noteRead (g : Gutter) (x : GutRead) : Gutter := { g with timer := x.at_, got := some x }

/-- R507: an empty read: the last word again, poisoned in a data gutter, a mismatch in a control gutter. -/
def State.gutterUnderrun (s : State) (i : Nat) (dst : Option Nat) : State :=
  let g := s.gutter i
  let s := s.countUnderrun i
  if Gut.cls i = 1 then
    let s := s.gutterMismatch i
    s.setGutter i ((s.gutter i).noteRead ⟨s.now, none, g.lastval, false, g.lastval⟩)
  else (s.setGutter i (g.noteRead ⟨s.now, none, g.lastval, true, g.lastval⟩)).gutterPoison i none dst

/-- R508: a read in the cycle of a reset returns lastval as it stood before the reset, and counts as an empty one; the reset is one. -/
def State.readInReset (s : State) (i : Nat) : State :=
  let g := s.gutter i
  let v := match g.got with | some x => x.before | none => 0
  (s.setGutter i (g.noteRead ⟨s.now, none, v, false, v⟩)).countUnderrun i

/-- R501, R503, R504, R507: the consumer reads one word; `dst` is the HBM address it writes the word to, if any. -/
def gutterRead (i : Nat) (dst : Option Nat) (s : State) : State :=
  if !s.gutterLive i then s else
  if s.gutterResetNow i then s.readInReset i else
  match (s.gutter i).read with
  | none => s.gutterUnderrun i dst
  | some (w, g) =>
    let bad := decide (w.parity ≠ parityBit w.val)
    let s := s.putGutter i (g.handOver.noteRead ⟨s.now, w.owner, w.val, decide (Gut.cls i ≠ 1) && (bad || w.poison), (s.gutter i).lastval⟩)
    if Gut.cls i = 1 then s
    else
      let s := if bad then (s.bump (Reg.GUT_CNT.PARITY i) 1).bump Reg.GUT_SUM_PAR.COUNT 1 else s
      if bad || w.poison then s.gutterPoison i w.owner dst else s
def execGutterRead (i : Nat) (dst : Option Nat) (s : State) : Out := onCore (gutterRead i dst) s

/-- R502, R522: the stale-tail timer of a gutter that holds a word has reached STALE_NS, of which values below 64 act as 64. -/
def State.staleDue (s : State) (i : Nat) : Bool := decide ((s.gutter i).timer + max 64 (s.getF Reg.GUT_STALE.STALE_NS) ≤ s.now)

/-- R502, R508: a stale expiry: a notice, the tail closed, and the timer restarted; a read has restarted the timer, so none follows it at once. -/
def gutterStale (i : Nat) (s : State) : State :=
  let g := s.gutter i
  if !s.gutterLive i || g.occ = 0 || !s.staleDue i then s
  else (s.putGutter i { g.stale.handOver with timer := s.now }).bump (Reg.GUT_STALECNT.STALE i) 1
def execGutterStale (i : Nat) (s : State) : Out := onCore (gutterStale i) s

/-- R505, R508: the copies of a control gutter's pointers differ; one reset in a cycle stands for all of that cycle. -/
def gutterPointerMismatch (i : Nat) (s : State) : State :=
  if s.gutterLive i && decide (Gut.cls i = 1) && !s.gutterResetNow i then s.gutterMismatch i else s
def execGutterPointerMismatch (i : Nat) (s : State) : Out := onCore (gutterPointerMismatch i) s

/-! ### Error lines (R510 to R516) -/

/-- The sources of R510 that are events. -/
def isEventSource (b : Nat) : Bool := decide (b ≤ 46) && !isCondition b

/-- R23, R183, R267, R423, R510, R524: a unit of the module finds an error. -/
def errorLineRise (e : ErrSource) (s : State) : State :=
  match e with
  | .rafter u ev =>
    if 36 ≤ u ∨ s.getF (Reg.TRS_RAFT_STAT.STATE (u / 9) (u % 9)) ≠ 0 then s else
    match ev with
    | 0 => s.storeCorrected u false
    | 1 => s.storeCorrected u true
    | 2 => s.storeUncorrectable u false
    | 3 => s.storeUncorrectable u true
    | 4 => s.arrayParity u
    | 5 => s.sequencerError u
    | _ => s
  | .vector x ev =>
    if 180 ≤ x ∨ s.getF (Reg.TRS_VEC_STAT.STATE (x / 45) (x / 5 % 9) (x % 5)) ≠ 0 then s else
    match ev with
    | 0 => s.vecCorrected x
    | 1 => s.vecUncorrectable x
    | 2 => s.vecParity x
    | _ => s
  | .decode k ev =>
    if 26 ≤ k ∨ s.getF (Reg.MED_PIPE_STAT.STATE k) ≠ 0 then s else
    match ev with
    | 0 => s.decCorrected k
    | 1 => s.decHit k false
    | 2 => s.decHit k true
    | _ => s
  | .encode k ev pic =>
    if 4 ≤ k ∨ s.getF (Reg.MED_ENC_STAT.STATE k) ≠ 0 then s else
    match ev with
    | 0 => s.encCorrected k
    | 1 => s.encodePipeHit k (s.jobs.find? fun j => j.encode && Nat.beq j.pipe k) pic false
    | 2 => s.encodePipeHit k (s.jobs.find? fun j => j.encode && Nat.beq j.pipe k) pic true
    | _ => s
  | .stager => s.stagerFault
  | .crcReplay st p => s.crcReplay st p
  | .deadChannel st p => s.channelDies st p
  | .sectorError sec n => s.symbolErrors sec n
  | .hub stopped => s.hubFault stopped
  | .line b =>
    if b = 35 then flashFault s
    else if isEventSource b then (if b = 44 then s.setF Reg.PPT_STAT.SELF_OK 0 else s).raiseLine b else s

/-- The rails that the unit of an error source needs: the parapet's own check none but standby, H and the media front end those of the hub,
and every other unit all. -/
def errorRails : ErrSource → (State → State) → State → Out
  | .line b => if b = 44 then onStandby else if 32 ≤ b ∧ b ≠ 36 then onHub else onCore
  | .decode _ _ | .encode _ _ _ | .stager | .hub _ => onHub
  | _ => onCore

def execErrorLineRise (e : ErrSource) (s : State) : Out := errorRails e (errorLineRise e) s

/-- R514: WIN_US after it opened, the merge window closes. -/
def mergeWindowClose (s : State) : State := { s with mergeAt := none }
def execMergeWindowClose (s : State) : Out := onHub mergeWindowClose s

/-- R511: a write to FLT_STATUS clears the bits it holds at 1; a condition that still holds sets its bit again. -/
def writeFltStatus (v : Nat) (s : State) : State :=
  let old := s.getF Reg.FLT_STATUS.STATUS
  let s := s.setF Reg.FLT_STATUS.STATUS (old - (old &&& v))
  s.each ((List.range 48).filter fun b => isCondition b && old.testBit b && v.testBit b && (s.getF Reg.FLT_LINES.LINES).testBit b) State.latchFault
def execFltStatusClear (v : W64) (s : State) : Out := onHub (fun s => s.gated 0x40000 (writeFltStatus v.toNat)) s

/-! ### Injection (R518, R519) -/

/-- R518: UNIT lies in the range of a checker, and names a gutter of its class. -/
def injectUnitOk (checker unit : Nat) : Bool :=
  match checker with
  | 1 => Gut.defined unit && decide (Gut.cls unit = 0)
  | 2 => Gut.defined unit && decide (Gut.cls unit = 1)
  | 3 | 4 | 6 | 7 => decide (unit < 36)
  | 5 => decide (unit < 180)
  | 8 => decide (unit < 10)
  | 9 => decide (unit < 32)
  | 10 => decide (unit < 26)
  | _ => false

/-- R519: a write to FLT_INJECT. -/
def writeFltInject (v : Nat) (s : State) : State :=
  let mode := bitsOf v 3 1
  let checker := bitsOf v 4 5
  let unit := bitsOf v 9 9
  let s := s.setFs [(Reg.FLT_INJECT.MODE, mode), (Reg.FLT_INJECT.CHECKER, checker), (Reg.FLT_INJECT.UNIT, unit)]
  let s := if v.testBit 2 then s.setF Reg.FLT_INJECT.REFUSED 0 else s
  if v.testBit 1 then { s.setF Reg.FLT_INJECT.ARM 0 with inj := none }
  else if v.testBit 0 then
    if s.on Reg.FLT_INJECT.ARM || !injectUnitOk checker unit then s.setF Reg.FLT_INJECT.REFUSED 1
    else { s.setF Reg.FLT_INJECT.ARM 1 with inj := some (checker, mode, unit) }
  else s
def execFltInjectArm (v : W64) (s : State) : Out := onHub (fun s => s.gated 0x40040 (writeFltInject v.toNat)) s
def execFltInjectDisarm (v : W64) (s : State) : Out := onHub (fun s => s.gated 0x40040 (writeFltInject v.toNat)) s

end Sys2Proof.Machine
end

