-- ==== Sys2Proof/Machine/Kv.lean ====
section
/-! DEFINITION. The rollout cache (R285 to R299): KV.CONF, KV.EDIT, KV.APPEND, AT.DEC with its walker, reclaim and the end of a rollback. -/

namespace Sys2Proof.Machine

/-! ### Places (R286) -/

/-- Bytes of one token's keys, and of a page. -/
def KvConf.tokBytes (c : KvConf) : Nat := c.hkv * headDim c.dcode * fmtBytes c.fmt
def KvConf.pageBytes (c : KvConf) : Nat := ceilDiv (256 * c.tokBytes) 4096 * 4096
def KvConf.pageAddr (c : KvConf) (n : Nat) : Nat := c.poolBase + n * c.pageBytes
def KvConf.keyAddr (c : KvConf) (n t : Nat) : Nat := c.pageAddr n + t % 128 * c.tokBytes
def KvConf.valAddr (c : KvConf) (n t : Nat) : Nat := c.keyAddr n t + c.pageBytes / 2
def KvConf.mapAddr (c : KvConf) (q l b : Nat) : Nat := c.mapBase + ((q * c.layers + l) * c.maxBlocks + b) * 4
def KvConf.refAddr (c : KvConf) (n : Nat) : Nat := c.refBase + 2 * n

/-- The page of (sequence, layer, block), and a page's count. -/
def State.kvPage (s : State) (c : KvConf) (q l b : Nat) : Nat := leNat (s.peek (c.mapAddr q l b) 4)
def State.kvRef (s : State) (c : KvConf) (n : Nat) : Nat := leNat (s.peek (c.refAddr n) 2)

/-- R341: the tables that a change looks up are read from HBM: map words and counts. -/
def State.kvLook (s : State) (rs : List (Nat × Nat)) : State := s.each rs fun s r => (s.readHbm r.1 r.2).2

/-- R298: table bytes in HBM replaced, the old ones kept for the undo log. -/
def State.kvPut (s : State) (a : Nat) (bs : List Byte) : State :=
  { s with kvUndoMem := (a, s.peek a bs.length) :: s.kvUndoMem }.writeHbm a bs
def State.setKvPage (s : State) (c : KvConf) (q l b n : Nat) : State := s.kvPut (c.mapAddr q l b) (leBytes 4 n)
def State.setKvRef (s : State) (c : KvConf) (n v : Nat) : State := s.kvPut (c.refAddr n) (leBytes 2 v)

/-- A sequence entry. -/
def State.kvSeq (s : State) (q : Nat) : KvSeq := SMap.look KvSeq.fresh q s.kv.seqs
def State.setKvSeq (s : State) (q : Nat) (x : KvSeq) : State :=
  let kv : KvTabs := { s.kv with seqs := SMap.put KvSeq.fresh q x s.kv.seqs }
  { s with kv := kv }

/-- R298: one more record fits in the undo log. -/
def State.kvRoom (s : State) : Bool := decide (s.kvLog < 65536)
/-- R298: the record of a change is written: of an edit, of a block that an append adds or copies, of a configuration. -/
def State.kvRecord (s : State) (c : KvConf) : State :=
  { s.writeHbm (c.logBase + 16 * s.kvLog) ((Config.undoRecord s.freeCtr).take 16) with kvLog := s.kvLog + 1, freeCtr := s.freeCtr + 1 }

/-- R288: the version moves on. -/
def State.kvBump (s : State) : State :=
  let kv : KvTabs := { s.kv with ver := (s.kv.ver + 1) % 2 ^ 48 }
  { s with kv := kv }

/-! ### The page pool (R289, R296) -/

def State.kvPend (s : State) (x : Pend) : State :=
  let kv : KvTabs := { s.kv with pend := s.kv.pend ++ [(x, s.kv.ver)] }
  { s with kv := kv }

/-- R289: a page's count falls by 1; at 0 it becomes pending reclaim as of the present version. -/
def State.kvRelease (s : State) (c : KvConf) (n : Nat) : State :=
  let r := s.kvRef c n - 1
  let s := s.setKvRef c n r
  if r = 0 then s.kvPend (.page n) else s

/-- R296: free pages, and pages pending. -/
def State.kvFree (s : State) (c : KvConf) : Nat := c.pages - s.kv.nextPage + s.kv.freed.length
def State.kvPendPages (s : State) : Nat := (s.kv.pend.filter fun x => match x.1 with | .page _ => true | .seq _ => false).length

/-- R296: the lowest free page is taken. -/
def State.kvTake (s : State) : Nat × State :=
  match s.kv.freed with
  | n :: t => let kv : KvTabs := { s.kv with freed := t }; (n, { s with kv := kv })
  | [] => let kv : KvTabs := { s.kv with nextPage := s.kv.nextPage + 1 }; (s.kv.nextPage, { s with kv := kv })

/-- R293: the active walkers. -/
def State.kvWalkers (s : State) : List (Nat × List Nat × W64) := s.rafts.filterMap fun x => x.2.walker

/-- R296: a pending page or sequence becomes free. -/
def State.kvFreed (s : State) (x : Pend) : State :=
  match x with
  | .page n => let kv : KvTabs := { s.kv with freed := insertSorted n s.kv.freed }; { s with kv := kv }
  | .seq q => s.setKvSeq q KvSeq.fresh

/-- R296: reclaim. -/
def State.kvReclaim (s : State) : State :=
  let ok := fun v : Nat => s.kvWalkers.all fun w => decide (v ≤ w.1)
  let kv : KvTabs := { s.kv with pend := s.kv.pend.filter fun x : Pend × Nat => !ok x.2 }
  { s with kv := kv }.each (s.kv.pend.filter fun x : Pend × Nat => ok x.2) fun s (x : Pend × Nat) => s.kvFreed x.1

/-! ### Edits (R289) -/

/-- What a step of a list answers. -/
inductive KvAns where
  | result (code : Nat) (s : State)
  | wait

/-- R289: an edit entry. -/
structure KvEdit where
  op : Nat
  q : Nat
  src : Nat
  arg : Nat
  reserved : Bool
  deriving DecidableEq, Repr

def kvEditOf (w : Nat) : KvEdit := ⟨bitsOf w 0 4, bitsOf w 4 12, bitsOf w 16 12, bitsOf w 32 32, decide (bitsOf w 28 4 = 0)⟩

/-- The pages of blocks [lo, hi) of a sequence in every layer. -/
def State.kvPages (s : State) (c : KvConf) (q lo hi : Nat) : List Nat :=
  (List.range c.layers).flatMap fun l => (List.range (hi - lo)).map fun b => s.kvPage c q l (lo + b)

/-- R286: the map words of blocks [lo, hi) of a sequence in every layer, with the counts of their pages. -/
def State.kvWords (s : State) (c : KvConf) (q lo hi : Nat) : List (Nat × Nat) :=
  ((List.range c.layers).flatMap fun l => (List.range (hi - lo)).map fun b => (c.mapAddr q l (lo + b), 4)) ++
    (s.kvPages c q lo hi).map fun p => (c.refAddr p, 2)

/-- R289: the words an edit looks up: those of the shared blocks of a FORK, and of the blocks a TRUNC or FREE releases. -/
def State.kvEditReads (s : State) (c : KvConf) (e : KvEdit) : List (Nat × Nat) :=
  let x := s.kvSeq e.q
  let src := s.kvSeq e.src
  match e.op with
  | 1 => if x.st = .free ∧ src.st = .live ∧ e.arg ≤ src.len then s.kvWords c e.src 0 (ceilDiv e.arg 128) else []
  | 3 => if x.st = .live ∧ e.arg ≤ x.len then s.kvWords c e.q (ceilDiv e.arg 128) x.nb else []
  | 4 => if x.st = .live then s.kvWords c e.q 0 x.nb else []
  | _ => []

/-- An edit that takes effect: its record, its version, its change; without room in the undo log it fails with 0x04. -/
def State.kvApply (s : State) (c : KvConf) (f : State → State) : KvAns :=
  if s.kvRoom then .result 0 (f (s.kvRecord c).kvBump) else .result 4 s

/-- R289: OPEN. -/
def State.kvOpen (s : State) (c : KvConf) (e : KvEdit) : KvAns :=
  match (s.kvSeq e.q).st with
  | .pendingReclaim => .wait
  | .live => .result 1 s
  | .free => s.kvApply c fun s => s.setKvSeq e.q ⟨.live, 0, 0, false, 0⟩

/-- R289: FORK. -/
def State.kvFork (s : State) (c : KvConf) (e : KvEdit) : KvAns :=
  match (s.kvSeq e.q).st with
  | .pendingReclaim => .wait
  | .live => .result 1 s
  | .free =>
    let src := s.kvSeq e.src
    let nb := ceilDiv e.arg 128
    if src.st ≠ .live then .result 1 s
    else if src.len < e.arg then .result 2 s
    else
      let ps := s.kvPages c e.src 0 nb
      if ps.any fun p => decide (65535 ≤ s.kvRef c p) then .result 3 s
      else s.kvApply c fun s =>
        let s := s.each (List.range c.layers) fun s l => s.each (List.range nb) fun s b => s.setKvPage c e.q l b (s.kvPage c e.src l b)
        (s.each ps fun s p => s.setKvRef c p (s.kvRef c p + 1)).setKvSeq e.q ⟨.live, e.arg, nb, false, nb⟩

/-- R289: ADVANCE. -/
def State.kvAdvance (s : State) (c : KvConf) (e : KvEdit) : KvAns :=
  let x := s.kvSeq e.q
  if x.st ≠ .live then .result 1 s
  else if x.nb * 128 < x.len + e.arg then .result 2 s
  else s.kvApply c fun s => s.setKvSeq e.q { x with len := x.len + e.arg }

/-- R289: TRUNC. -/
def State.kvTrunc (s : State) (c : KvConf) (e : KvEdit) : KvAns :=
  let x := s.kvSeq e.q
  let nb := ceilDiv e.arg 128
  if x.st ≠ .live then .result 1 s
  else if x.len < e.arg then .result 2 s
  else
    let ps := s.kvPages c e.q nb x.nb
    s.kvApply c fun s =>
      (s.each ps fun s p => s.kvRelease c p).setKvSeq e.q { x with len := e.arg, nb := nb, wp := decide (e.arg % 128 ≠ 0) }

/-- R289: FREE. -/
def State.kvFreeSeq (s : State) (c : KvConf) (e : KvEdit) : KvAns :=
  let x := s.kvSeq e.q
  if x.st ≠ .live then .result 1 s
  else
    let ps := s.kvPages c e.q 0 x.nb
    s.kvApply c fun s =>
      ((s.each ps fun s p => s.kvRelease c p).setKvSeq e.q ⟨.pendingReclaim, 0, 0, false, 0⟩).kvPend (.seq e.q)

/-- R289: one edit. -/
def State.kvEditOne (s : State) (c : KvConf) (e : KvEdit) : KvAns :=
  match e.op with
  | 0 => s.kvOpen c e
  | 1 => s.kvFork c e
  | 2 => s.kvAdvance c e
  | 3 => s.kvTrunc c e
  | _ => s.kvFreeSeq c e

/-! ### Appends (R290, R291, R295) -/

/-- R290: an append entry. -/
structure KvApp where
  q : Nat
  n : Nat
  off : Nat
  src : Nat
  reserved : Bool
  deriving DecidableEq, Repr

def kvAppOf (w : Nat) : KvApp := ⟨bitsOf w 0 12, bitsOf w 12 4 + 1, bitsOf w 16 16, bitsOf w 32 19 * 64, decide (bitsOf w 51 13 = 0)⟩

/-- R290: where an entry's values start in the rafter store. -/
def KvConf.valSrc (c : KvConf) (a : KvApp) : Nat := a.src + ceilDiv (a.n * c.tokBytes) 64 * 64

/-- R290: the result of an entry before its first position: none when it may go on. -/
def State.kvAppCheck (s : State) (c : KvConf) (a : KvApp) : Option Nat :=
  let x := s.kvSeq a.q
  if x.st ≠ .live then some 1
  else if x.nb < (x.len + a.off) / 128 ∨ c.maxBlocks * 128 < x.len + a.off + a.n then some 2 else none

/-- R288: the version of an append that allocates, raised once an entry. -/
def State.kvAppVer (s : State) (bumped : Bool) : State := if bumped then s else s.kvBump

/-- R295: an active walker that lists the sequence has a start version below the current VER. -/
def State.kvBusy (s : State) (q : Nat) : Bool := s.kvWalkers.any fun w => w.2.1.contains q && Nat.blt w.1 s.kv.ver

/-- R291: what happens to a block before a position of it is written. -/
inductive KvBlock where
  /-- ready; whether the version moved. -/
  | ready (s : State) (bumped : Bool)
  | wait
  | fail (code : Nat)

/-- R296: n pages can be taken, must be waited for, or cannot be had. -/
def State.kvCan (s : State) (c : KvConf) (n : Nat) : Option KvBlock :=
  if n ≤ s.kvFree c then none else if n ≤ s.kvFree c + s.kvPendPages then some .wait else some (.fail 3)

/-- R291 case 1: a page for block NB in every layer. -/
def State.kvGrow (s : State) (c : KvConf) (q : Nat) (bumped : Bool) : KvBlock :=
  let x := s.kvSeq q
  if decide (x.nb < x.top) && s.kvBusy q then .wait
  else match s.kvCan c c.layers with
    | some r => r
    | none =>
      if !s.kvRoom then .fail 4
      else
        let s := (s.kvRecord c).kvAppVer bumped
        let s := s.each (List.range c.layers) fun s l =>
          let t := s.kvTake
          (t.2.setKvPage c q l x.nb t.1).setKvRef c t.1 1
        .ready (s.setKvSeq q { x with nb := x.nb + 1, wp := false, top := max x.top (x.nb + 1) }) true

/-- R291 case 2: the page of (layer, block) is copied up to a position before it is written. -/
def State.kvCopy (s : State) (c : KvConf) (q l b pos : Nat) (bumped : Bool) : KvBlock :=
  let x := s.kvSeq q
  if s.kvBusy q then .wait
  else match s.kvCan c 1 with
    | some r => r
    | none =>
      if !s.kvRoom then .fail 4
      else
        let old := s.kvPage c q l b
        let n := (pos - 128 * b) * c.tokBytes
        let s := (s.kvRecord c).kvAppVer bumped
        let t := s.kvTake
        let k := t.2.readHbm (c.pageAddr old) n
        let v := k.2.readHbm (c.pageAddr old + c.pageBytes / 2) n
        let s := (v.2.writeHbm (c.pageAddr t.1) k.1).writeHbm (c.pageAddr t.1 + c.pageBytes / 2) v.1
        let s := ((s.setKvPage c q l b t.1).setKvRef c t.1 1).kvRelease c old
        .ready ((s.setKvSeq q { x with wp := false }).bump Reg.CRS_KV_COPIES.COPIES 1) true

/-- R291: the words that the block of a position looks up: none for a new block. -/
def State.kvReadyReads (s : State) (c : KvConf) (q l pos : Nat) : List (Nat × Nat) :=
  if pos / 128 = (s.kvSeq q).nb then [] else [(c.mapAddr q l (pos / 128), 4), (c.refAddr (s.kvPage c q l (pos / 128)), 2)]

/-- R291: the block of a position made ready. -/
def State.kvReady (s : State) (c : KvConf) (q l pos : Nat) (bumped : Bool) : KvBlock :=
  let x := s.kvSeq q
  let b := pos / 128
  if b = x.nb then s.kvGrow c q bumped
  else if 1 < s.kvRef c (s.kvPage c q l b) ∨ (x.wp ∧ b + 1 = x.nb) then s.kvCopy c q l b pos bumped
  else .ready s bumped

/-- R286, R290: token `i` of an entry is written at a position of a ready block. -/
def State.kvWriteTok (s : State) (lr : Nat) (c : KvConf) (a : KvApp) (l pos i : Nat) : State :=
  let p := s.kvPage c a.q l (pos / 128)
  (s.writeHbm (c.keyAddr p pos) (s.rsRead lr (a.src + i * c.tokBytes) c.tokBytes)).writeHbm (c.valAddr p pos)
    (s.rsRead lr (c.valSrc a + i * c.tokBytes) c.tokBytes)

/-! ### Running a list -/

/-- The command block of a KV.EDIT or KV.APPEND: its word 0. -/
def State.kvWord (s : State) (lr : Nat) (w1 : W64) : Nat := s.rsWord lr (wbits w1 0 19 * 64)
/-- R289, R290: list address, entries, result address, layer. -/
def kvList (w : Nat) : Nat := bitsOf w 0 19 * 64
def kvCount (edit : Bool) (w : Nat) : Nat := if edit then bitsOf w 19 16 + 1 else bitsOf w 19 12 + 1
def kvRes (edit : Bool) (w : Nat) : Nat := if edit then bitsOf w 35 19 * 64 else bitsOf w 31 19 * 64
def kvLayer (w : Nat) : Nat := bitsOf w 50 8

/-- One step of a list: the state and the job after it, none in the job's place when it waits. -/
def State.kvStep (s : State) (lr : Nat) (c : KvConf) (j : KvJob) : State × Option KvJob :=
  let w := s.kvWord lr j.w1
  let e := s.rsWord lr (kvList w + 8 * j.entry)
  let res := fun (s : State) (code : Nat) =>
    (s.rsWrite lr (kvRes j.edit w + j.entry) [BitVec.ofNat 8 code], some { j with entry := j.entry + 1, pos := 0, bumped := false })
  if j.edit then
    let s := s.kvLook (s.kvEditReads c (kvEditOf e))
    if s.working.isNone then (s, some j) else
    match s.kvEditOne c (kvEditOf e) with
    | .wait => (s, none)
    | .result code t => res t code
  else
    let a := kvAppOf e
    match (if j.pos = 0 then s.kvAppCheck c a else none) with
    | some code => res s code
    | none =>
      if a.n ≤ j.pos then res s 0
      else
        let pos := (s.kvSeq a.q).len + a.off + j.pos
        let s := s.kvLook (s.kvReadyReads c a.q (kvLayer w) pos)
        if s.working.isNone then (s, some j) else
        match s.kvReady c a.q (kvLayer w) pos j.bumped with
        | .wait => (s, none)
        | .fail code => res s code
        | .ready t b => (t.kvWriteTok lr c a (kvLayer w) pos j.pos, some { j with pos := j.pos + 1, bumped := b })

/-- A rafter's list runs until it ends, waits, or the course fails; `fuel` bounds its steps. -/
def State.kvRun (lr : Nat) : Nat → State → State
  | 0, s => s
  | n + 1, s =>
    match s.working, s.kv.conf, (s.raft lr).kvJob with
    | some _, some c, some j =>
      let x := s.raft lr
      if kvCount j.edit (s.kvWord lr j.w1) ≤ j.entry then ((s.setRaft lr { x with kvJob := none }).attDone lr).settle lr (sigOf j.w0)
      else
        let r := s.kvStep lr c j
        match r.2 with
        | none => s
        | some j' => if r.1.working.isNone then r.1 else State.kvRun lr n (r.1.setRaft lr { r.1.raft lr with kvJob := some j' })
    | _, _, _ => s

/-- Steps a list can take. -/
def State.kvFuel (s : State) (lr : Nat) : Nat :=
  match (s.raft lr).kvJob with
  | some j => 18 * (kvCount j.edit (s.kvWord lr j.w1) + 1)
  | none => 0

/-- R170: what a rafter does in HBM changes bytes that one of its loads in flight reads. -/
def State.disturbs (s t : State) (lr : Nat) : Bool :=
  (s.raft lr).ahead.any fun l => !l.ended && l.pieces.any fun p => decide (p.tier = 2 ∧ s.peek p.far p.len ≠ t.peek p.far p.len)

/-- R170, R289, R295, R296: lists that wait go on, by rafter; one that would write what a load in flight reads waits for the load. -/
def State.kvResume (s : State) : State :=
  (s.each (List.range 32) fun s lr => let t := State.kvRun lr (s.kvFuel lr) s; if s.disturbs t lr then s else t).kvReport

/-- R273: reserved bits of a command block: word 0 above `n` bits, and every other word. -/
def kvBlockOk (bs : List Byte) (w0 : Nat) : Bool := decide (w0 = 0) && (bs.drop 8).all (· = 0)

/-- The list entries as words. -/
def State.kvEntries (s : State) (edit : Bool) (lr w : Nat) : List Nat :=
  (List.range (kvCount edit w)).map fun i => s.rsWord lr (kvList w + 8 * i)

/-- R185, R289, R290, R299: the codes a list command breaks, its command block readable: what the list names is tested once the list can
be read, and what the cache fixes once there is one. -/
def State.kvListCodes (s : State) (edit : Bool) (lr w : Nat) (bs : List Byte) (list wr : Nat × Nat) (srcs : List (Nat × Nat))
    (entryBad : Nat → Bool) (codes : List (Bool × Nat)) : List (Bool × Nat) :=
  let seen := (broken (s.rangeCodes lr [list])).isEmpty
  [(!kvBlockOk bs (if edit then bitsOf w 54 10 else bitsOf w 58 6), 0x90), (s.kv.conf.isNone, 0x91), (!inStore wr, 0x92),
    (seen && (s.kvEntries edit lr w).any entryBad, 0x90)] ++ codes ++ s.rangeCodes lr [list] ++ (if seen then s.rangeCodes lr srcs else [])

/-- The frame of the two list commands. -/
def State.kvListCmd (s : State) (edit : Bool) (lr op : Nat) (w0 w1 : W64) (entryBad : Nat → Bool) (codes : KvConf → Nat → List (Bool × Nat))
    (reads : KvConf → Nat → List (Nat × Nat)) : State :=
  let par := (wbits w1 0 19 * 64, 128)
  let w := s.kvWord lr w1
  let list := (kvList w, 8 * kvCount edit w)
  let wr := (kvRes edit w, kvCount edit w)
  let srcs := match s.kv.conf with | some c => reads c w | none => []
  s.issue lr op w0 w1 ([par, list] ++ srcs) [wr] fun _ s =>
    if !(broken (s.rangeCodes lr [par])).isEmpty then .bad (broken ((s.kv.conf.isNone, 0x91) :: s.rangeCodes lr [par]))
    else
      checked (s.kvListCodes edit lr w (s.rsRead lr par.1 128) list wr srcs entryBad (match s.kv.conf with | some c => codes c w | none => [])) <|
        let t := s.setRaft lr { s.raft lr with kvJob := some ⟨edit, w0, w1, 0, 0, false⟩ }
        let u := State.kvRun lr (t.kvFuel lr) t
        if s.disturbs u lr then .hold else .began u.kvReport

def kvEdit (lr : Nat) (w0 w1 : W64) (s : State) : State :=
  s.kvListCmd true lr 0x84 w0 w1
    (fun e => decide (5 ≤ (kvEditOf e).op) || !(kvEditOf e).reserved) (fun _ _ => []) (fun _ _ => [])
def execKvEdit (lr : Nat) (w0 w1 : W64) (s : State) : Out := onCore (kvEdit lr w0 w1) s

def kvAppend (lr : Nat) (w0 w1 : W64) (s : State) : State :=
  s.kvListCmd false lr 0x83 w0 w1
    (fun e => !(kvAppOf e).reserved) (fun c w => [(decide (c.layers ≤ kvLayer w), 0x91)])
    (fun c w => (s.kvEntries false lr w).flatMap fun e =>
      let a := kvAppOf e
      [(a.src, a.n * c.tokBytes), (c.valSrc a, a.n * c.tokBytes)])
def execKvAppend (lr : Nat) (w0 w1 : W64) (s : State) : Out := onCore (kvAppend lr w0 w1) s

/-! ### KV.CONF (R285) -/

/-- R285: the cache descriptor. -/
def kvConfOf (bs : List Byte) : KvConf :=
  let w := paramW bs
  ⟨bitsOf (w 0) 0 48, bitsOf (w 1) 0 22 + 1, bitsOf (w 2) 0 48, bitsOf (w 3) 0 48, bitsOf (w 4) 0 48, bitsOf (w 5) 0 3, bitsOf (w 5) 3 2,
    bitsOf (w 5) 5 6 + 1, bitsOf (w 5) 11 8 + 1, bitsOf (w 5) 19 10 + 1, bitsOf (w 6) 0 16, bitsOf (w 6) 16 16⟩

def kvConfReserved (bs : List Byte) : Bool :=
  let w := paramW bs
  decide (bitsOf (w 0) 48 16 = 0 ∧ bitsOf (w 1) 22 42 = 0 ∧ bitsOf (w 2) 48 16 = 0 ∧ bitsOf (w 3) 48 16 = 0 ∧ bitsOf (w 4) 48 16 = 0 ∧
    bitsOf (w 5) 29 35 = 0 ∧ bitsOf (w 6) 32 32 = 0) && (bs.drop 56).all (· = 0)

/-- R285: a region reaches past HBM_CAP. -/
def State.kvPast (s : State) (c : KvConf) : Bool :=
  [(c.poolBase, c.pages * c.pageBytes), (c.mapBase, 4096 * c.layers * c.maxBlocks * 4), (c.refBase, 2 * c.pages), (c.logBase, 2 ^ 20)].any fun r =>
    decide (s.hbmCap < r.1 + r.2)

/-- R285: the cache is configured and clear: every count is 0. -/
def State.kvConfigure (s : State) (c : KvConf) : State :=
  ({ s.kvPut c.refBase (List.replicate (2 * c.pages) 0) with kv := { KvTabs.fresh with conf := some c } }.kvRecord c).kvReport

def kvConf (lr : Nat) (w0 w1 : W64) (s : State) : State :=
  let par := (wbits w1 0 19 * 64, 128)
  s.issue lr 0x85 w0 w1 [par] [] fun c s =>
    let busy := s.kv.seqs.any (fun x => decide (x.2.st ≠ .free)) || !s.kvWalkers.isEmpty
    if !(broken (s.rangeCodes lr [par])).isEmpty then .bad (broken ((busy, 0x91) :: s.rangeCodes lr [par]))
    else
      let bs := s.rsRead lr par.1 128
      let k := kvConfOf bs
      checked ([(!kvConfReserved bs, 0x90), (decide (k.poolBase % 4096 ≠ 0), 0x91), (decide (k.dcode = 3), 0x91),
          (s.badTid c k.tidK || s.badTid c k.tidV, 0x91),
          (busy, 0x91), (s.kvPast k, 0x92)] ++ fmtCodes k.fmt false) <|
        if s.disturbs (s.kvConfigure k) lr then .hold else .done ((s.kvConfigure k).attDone lr)
def execKvConf (lr : Nat) (w0 w1 : W64) (s : State) : Out := onCore (kvConf lr w0 w1) s

/-! ### AT.DEC (R292 to R294) -/

/-- R292: the command block. -/
structure DecBlock where
  q : Nat
  o : Nat
  list : Nat
  mask : Nat
  lse : Nat
  count : Nat
  layer : Nat
  ofmt : Nat
  slotb : Nat
  cScale : W32
  frame : Nat
  hq : Nat
  tidQ : Nat
  tidO : Nat
  scr : Nat
  reserved : Bool
  deriving DecidableEq, Repr

def decBlock (bs : List Byte) : DecBlock :=
  let w := paramW bs
  let a := fun i lo => bitsOf (w i) lo 19 * 64
  ⟨a 0 0, a 0 19, a 0 38, bitsOf (w 0) 57 2, a 1 0, bitsOf (w 1) 19 8 + 1, bitsOf (w 1) 27 8, bitsOf (w 1) 35 3, bitsOf (w 1) 38 1,
    w32Of (bitsOf (w 2) 0 32), bitsOf (w 2) 32 16 + 1, bitsOf (w 2) 48 8 + 1, bitsOf (w 3) 0 16, bitsOf (w 3) 16 16, a 4 0,
    decide (bitsOf (w 0) 59 5 = 0 ∧ bitsOf (w 1) 39 25 = 0 ∧ bitsOf (w 2) 56 8 = 0 ∧ bitsOf (w 3) 32 32 = 0 ∧ bitsOf (w 4) 19 45 = 0) &&
      (bs.drop 40).all (· = 0)⟩

/-- R292: a batch-list entry: sequence, queries, extra keys. -/
structure DecE where
  q : Nat
  nq : Nat
  extra : Nat
  reserved : Bool
  deriving DecidableEq, Repr

def decEntry (w : Nat) : DecE := ⟨bitsOf w 0 12, bitsOf w 12 4 + 1, bitsOf w 16 16, decide (bitsOf w 32 32 = 0)⟩

/-- R293: the keys an entry reads. -/
def State.decKeys (s : State) (e : DecE) : Nat := (s.kvSeq e.q).len + e.extra

/-- The key and value bytes of the first `n` tokens of a sequence in a layer, page by page. -/
def State.decPages (s : State) (c : KvConf) (q l n : Nat) : (List Byte × List Byte) × State :=
  (List.range (ceilDiv n 128)).foldl (fun r b =>
    let m := r.2.readHbm (c.mapAddr q l b) 4
    let p := leNat m.1
    let len := min 128 (n - 128 * b) * c.tokBytes
    let k := m.2.readHbm (c.pageAddr p) len
    let v := k.2.readHbm (c.pageAddr p + c.pageBytes / 2) len
    ((r.1.1 ++ k.1, r.1.2 ++ v.1), v.2)) (([], []), s)

/-- Element codes of the row of token `j`, head `h`. -/
def KvConf.row (c : KvConf) (bs : List Byte) (j h : Nat) : List Nat :=
  let n := headDim c.dcode * fmtBytes c.fmt
  bytesElems c.fmt (headDim c.dcode) ((bs.drop (j * c.tokBytes + h * n)).take n)

/-- R294: one entry, its queries from row `r0` on. -/
def State.decOne (s : State) (lr : Nat) (c : KvConf) (b : DecBlock) (rmark : Bool) (e : DecE) (r0 : Nat) : State :=
  let d := headDim c.dcode
  let n := s.decKeys e
  let kv := s.decPages c e.q b.layer n
  let m : AtMath := ⟨c.fmt, b.mask, b.frame, b.cScale, s.scaleOf b.tidQ, s.scaleOf c.tidK, s.scaleOf c.tidV⟩
  kv.2.each (List.range b.hq) fun t h =>
    let kh := h / (b.hq / c.hkv)
    let kvs := (List.range n).map fun j => (c.row kv.1.1 j kh, c.row kv.1.2 j kh)
    t.each (List.range e.nq) fun t i =>
      t.putRow lr b.o b.lse b.hq d b.ofmt b.tidO rmark (r0 + i) h
        (m.fwdRow d (s.atRow lr b.q b.hq d c.fmt (r0 + i) h) ((n : Int) - e.nq + i) kvs)

/-- R294: every entry of the batch list in order. -/
def State.decAll (s : State) (lr : Nat) (c : KvConf) (b : DecBlock) (rmark : Bool) : List DecE → Nat → State
  | [], _ => s
  | e :: t, r => (s.decOne lr c b rmark e r).decAll lr c b rmark t (r + e.nq)

/-- R292, R293, R299: the codes of the command block of an AT.DEC, with those that the cache fixes once there is one. -/
def State.decCodes (s : State) (cr : Course) (b : DecBlock) : List (Bool × Nat) :=
  [(!b.reserved, 0x90), (decide (b.mask = 3), 0x90), ([b.tidQ, b.tidO].any (s.badTid cr), 0x91), (s.kv.conf.isNone, 0x91),
   (!inStore (b.scr, 0x200000), 0x92)] ++ fmtCodes b.ofmt true ++
  (match s.kv.conf with
  | some c => [(decide (c.layers ≤ b.layer), 0x91), (decide (b.hq % c.hkv ≠ 0), 0x91), ([c.tidK, c.tidV].any (s.badTid cr), 0x91)]
  | none => [])

/-- R292, R293: the codes of its list. -/
def State.decListCodes (s : State) (es : List DecE) : List (Bool × Nat) :=
  [(es.any fun e => !e.reserved, 0x90), (es.any fun e => decide ((s.kvSeq e.q).st ≠ .live), 0x91),
   (es.any fun e => decide ((s.kvSeq e.q).nb * 128 < s.decKeys e), 0x94)]

/-- AT.DEC: its outputs are those of the tokens as they stand at issue; its walker stays until WALKER_END. -/
def atDec (lr : Nat) (w0 w1 : W64) (s : State) : State :=
  let par := (wbits w1 0 19 * 64, 128)
  let b := decBlock (s.rsRead lr par.1 128)
  let list := (b.list, 8 * b.count)
  let es := (List.range b.count).map fun i => decEntry (s.rsWord lr (b.list + 8 * i))
  let rows := (es.map (·.nq)).sum
  let q := match s.kv.conf with | some c => [(b.q, rows * b.hq * headDim c.dcode * fmtBytes c.fmt)] | none => []
  let wr := match s.kv.conf with
    | some c => [(b.scr, 0x200000), (b.o, rows * b.hq * headDim c.dcode * fmtBytes b.ofmt), (b.lse, rows * b.hq * 4)]
    | none => []
  s.issue lr 0x82 w0 w1 ([par, list] ++ q) wr fun cr s =>
    if !(broken (s.rangeCodes lr [par])).isEmpty then .bad (broken ((s.kv.conf.isNone, 0x91) :: s.rangeCodes lr [par]))
    else
      checked (s.decCodes cr b ++ s.rangeCodes lr [list] ++
          (if (broken (s.rangeCodes lr [list])).isEmpty then s.decListCodes es ++ (!wr.all inStore, 0x92) :: s.rangeCodes lr q else [])) <|
        match s.kv.conf with
        | none => .bad [0x91]
        | some c =>
          let t := (s.useScratch lr b.scr b.slotb).decAll lr c b (wbits w0 37 1 = 1) es 0
          if t.working.isNone then .done t
          else .began (t.setRaft lr { t.raft lr with walker := some (s.kv.ver, es.map (·.q), w0) }).kvReport
def execAtDec (lr : Nat) (w0 w1 : W64) (s : State) : Out := onCore (atDec lr w0 w1) s

/-- R295, R296: a walker ends: reclaim runs, its AT.DEC takes effect, and lists that waited go on. -/
def walkerEnd (lr : Nat) (s : State) : State :=
  if s.working.isNone then s else
  let x := s.raft lr
  match x.walker with
  | none => s
  | some w => ((((s.setRaft lr { x with walker := none }).kvReclaim).attDone lr).settle lr (sigOf w.2.2)).kvResume
def execWalkerEnd (lr : Nat) (s : State) : Out := onCore (walkerEnd lr) s

/-- R296: reclaim, and lists that waited go on. -/
def reclaim (s : State) : State := s.kvReclaim.kvResume
def execReclaim (s : State) : Out := onCore reclaim s

/-- R76, R298: the restore ends; a resume that waited for it takes effect. -/
def kvRollbackDone (s : State) : State :=
  if s.on Reg.CRS_KV_STAT.ROLLBACK then
    let s := s.setF Reg.CRS_KV_STAT.ROLLBACK 0
    if s.resumePend then { s.setF Reg.CRS_STATUS.HELD 0 with resumePend := false } else s
  else s
def execKvRollbackDone (s : State) : Out := onCore kvRollbackDone s

end Sys2Proof.Machine
end

