-- ==== Sys2Proof/Machine/Ridge.lean ====
section
/-! DEFINITION. Ridges (R55 to R61, R69 to R75, R82): how a course closes (R212 to R230, R378, R379, R473, R477), the actions every ridge
carries, and how the next course opens (R174, R249, R364, R413, R470). -/

namespace Sys2Proof.Machine

/-! ### The scale ledger (R213, R214) -/

/-- `floor (log2 x)` of a positive finite FP32 code. -/
def expOf (x : W32) : Int :=
  let e : Nat := x.toNat / 2 ^ 23 % 256
  let f : Nat := x.toNat % 2 ^ 23
  if e = 0 then (Nat.log2 f : Int) - 149 else (e : Int) - 127

/-- R213: the largest of the valid history entries; the codes of positive numbers order as they do. -/
def LedgerE.top (x : LedgerE) : Nat := ((List.range x.fill).map fun i => x.hist.getD ((x.head + 16 - i % 16) % 16) 0).foldl max 0

/-- R213: the history takes a step's AMAX. -/
def LedgerE.push (x : LedgerE) (a : W32) : LedgerE :=
  let h := (x.head + 1) % 16
  { x with head := h, hist := x.hist.set h a.toNat, fill := min (x.fill + 1) 16 }

/-- R213: the scale exponent from the history, for an FP8 kind. -/
def LedgerE.rescale (x : LedgerE) (k : KindE) : LedgerE :=
  if 1 < k.fmt ∨ x.top = 0 then x
  else
    let emax : Int := if k.fmt = 0 then 8 else 15
    { x with exp := max (-64) (min 64 (emax - expOf (BitVec.ofNat 32 x.top) - 1 - k.margin)) }

/-- R213: an entry at the commit of a step. -/
def LedgerE.commit (x : LedgerE) (k : KindE) (a : Option W32) : LedgerE :=
  (match a with | some v => x.push v | none => x).rescale k

/-- R214: an entry of a suppressed step. -/
def LedgerE.skip (x : LedgerE) (k : KindE) : LedgerE :=
  if k.skipHalve && decide (k.fmt ≤ 1) then { x with exp := max (x.exp - 1) (-64) } else x

/-- R213, R214: every entry of the ledger is updated; the kinds whose scales a suppressed step lowered. -/
def State.updateLedger (s : State) (c : Course) (committed : Bool) : Nat × State :=
  (List.range (s.tensors c + 1)).foldl (fun r t =>
    let s := r.2
    let x := s.ledger t
    let k := s.kind c.img.recipeIdx x.kind
    let y := if committed then x.commit k (SMap.look none t s.amax) else x.skip k
    let lowered := if !committed && decide (y.exp < x.exp) then r.1 ||| 2 ^ x.kind else r.1
    (lowered, if y = x then s else s.writeHbm (s.ledgerAddr t) y.bytes)) (0, s)

/-! ### The watch record (R227, R228) -/

/-- R228: an entry of the watch record. -/
def watchEntry (tid kind fmt : Nat) (w : Watch) : List Byte :=
  leBytes 8 (tid % 2 ^ 16 + kind % 8 * 2 ^ 16 + fmt % 8 * 2 ^ 19 + w.elems % 2 ^ 40 * 2 ^ 24) ++ leBytes 8 (w.zeros % 2 ^ 40) ++
  leBytes 8 (w.sat % 2 ^ 40) ++ leBytes 8 (w.nonfin % 2 ^ 40)

/-- R228: the watch record of a course that completes. -/
def State.watchRecord (s : State) (c : Course) (result : Bool) : List Byte :=
  let es := s.watch.filter fun x => decide (0 < x.2.elems)
  let last := c.img.stepLast
  leBytes 8 (c.counter % 2 ^ 48 + bit last * 2 ^ 48 + bit (last && (s.voteOf c).1) * 2 ^ 49 + bit (last && result) * 2 ^ 50 +
    bit (last && !result) * 2 ^ 51 + bit (last && result) * 2 ^ 52) ++ leBytes 8 es.length ++ List.replicate 48 0 ++
  es.flatMap fun x =>
    let k := (s.ledger x.1).kind
    watchEntry x.1 k (s.kind c.img.recipeIdx k).fmt x.2

/-- R227: address of the course's slot of the watch buffer. -/
def State.watchAddr (s : State) (c : Course) : Nat :=
  let r := c.img.recipeIdx
  s.watchBase r + c.counter % (s.watchSlots r + 1) * watchSlotLen (s.tensors c)

/-! ### A course closes -/

/-- R169: a rafter has nothing left to take effect. -/
def Raft.quiet (x : Raft) : Bool :=
  x.kernel.isNone && x.walker.isNone && x.kvJob.isNone && x.down.isEmpty && x.ahead.all RunAhead.ended

/-- R169: every program has ended and every instruction has taken effect. -/
def State.programsDone (s : State) (c : Course) : Bool := c.running.isEmpty && s.rafts.all fun x => Raft.quiet x.2

/-- R447: every entry of the timetable has completed. -/
def State.slotsDone (s : State) (c : Course) : Bool :=
  (s.slotsOf c.img).zipIdx.all fun x => (c.slots.getD x.2 SlotSt.fresh).completed

/-- R217, R457: the vote result. -/
def State.voteResult (s : State) (c : Course) : Bool :=
  if (s.slotsOf c.img).any fun x => Nat.beq x.kind 4 then c.result else (s.voteOf c).1

/-- R219, R221, R229: what the end of a step does; the course's ledger is updated. -/
def State.endStep (s : State) (c : Course) (result : Bool) : State :=
  let u := s.updateLedger c (!result)
  let s := u.2.setFs [(Reg.CRS_NUM_VOTE.VOTE, bit (s.voteOf c).1), (Reg.CRS_NUM_VOTE.RESULT, bit result), (Reg.CRS_NUM_VOTE.VALID, 1),
    (Reg.CRS_NUM_VOTE.HALVED, u.1)]
  let s := if result then s.bump Reg.CRS_NUM_SKIPS.SKIPS 1 else s.setF Reg.CRS_NUM_STATE.PAR (1 - s.getF Reg.CRS_NUM_STATE.PAR)
  if (s.voteOf c).1 && !(s.voteOf c).2 then s.bump Reg.CRS_NUM_SAT.SAT_TRIPS 1 else s

/-- R466: TT_ID and POS of the course's timetable. -/
def State.courseTt (s : State) (c : Course) : Option (Nat × Nat) :=
  if c.img.hasTt then some (s.ttId c.img.ttIdx, s.ttPos c.img.ttIdx) else none

/-- R470, R473, R477: the step's point is sealed, the steps since the newest one are counted, and a verification step is accepted. -/
def State.endPoint (s : State) (c : Course) (result : Bool) : State :=
  let verified := s.verifying
  let s := ({ s with stepsDone := s.stepsDone + 1 }).sealBuild (some (!result)) (s.courseTt c)
  if verified then { s.setF Reg.SVL_STAT.VERIFY 0 with verifySlot := none } else s

/-- R59, R75, R219, R227, R378, R379: a course completes: its records, its counters and its completion. -/
def State.completeCourse (s : State) (c : Course) : State :=
  let last := c.img.stepLast
  let result := s.voteResult c
  let record := s.watchRecord c result
  let s := if last then s.endStep c result else s
  let s := (s.writeHbm (s.watchAddr c) record).bump Reg.CRS_NUM_WATCH.RECORDS 1
  let s := (s.writeHbm s.logSlot (placementLog c s.saves 0)).bump Reg.CRS_PLC_LOGPOS.POS 1
  let s := (s.measure c).bump Reg.CRS_COURSE_COUNT.COURSES 1
  let s := if last then s.endPoint c result else s
  let s := if last then { s.releaseSaves with amax := [], stepVote := false, stepNonfin := false } else s
  let s := { s with jobsDone := s.jobsDone.filter fun j => decide (j.1 ≠ c.counter % 2 ^ 48) }
  (s.setLast 0 c.counter (last && !result) (last && result)).complete c.req 0 (courseDetail c.counter (last && !result) (last && result))

/-- R342: the ledger is read for its update; an uncorrectable sector fails the course first. -/
def State.readLedger (s : State) (c : Course) : State := (s.readHbm (s.ledgerAddr 0) (128 * (s.tensors c + 1))).2

/-- R212, R342: the ledger is read at the opening ridge, and its scale exponents stand for the course; an uncorrectable sector fails it. -/
def State.holdScales (s : State) (c : Course) : State :=
  let r := s.readHbm (s.ledgerAddr 0) (128 * (s.tensors c + 1))
  match r.2.course with
  | none => r.2
  | some d =>
    let d' : Course := { d with scales := (chunks 128 r.1 (s.tensors c + 1)).map fun b => scaleByte (b.headD 0).toNat }
    { r.2 with course := some d' }

/-- The course in progress, not failed. -/
def State.alive (s : State) : Option Course :=
  match s.course with
  | some c => if c.failed then none else some c
  | none => none

/-- R56: the commit reserve, when the window closes without its command. -/
def State.reserved (s : State) : State := if (s.working).isSome then commitReserveStart s else s

/-- R71, R72: a course that reaches its closing ridge completes, or fails with bit 45. -/
def State.settleCourse (s : State) : State :=
  let s := s.reserved
  match s.alive with
  | none => s
  | some c =>
    if !(s.programsDone c && s.slotsDone c) then s.raiseLine 45
    else
      let s := if c.img.stepLast then s.readLedger c else s
      match s.alive with
      | none => s
      | some c => s.completeCourse c

/-- R74, R473: the window closes: a point whose step failed is given up, and the course is gone. -/
def State.dropCourse (s : State) : State :=
  let failed := match s.course with | some c => c.failed | none => false
  let s := if failed then s.sealBuild none none else s
  { s with course := none, rafts := [], power := { s.power with windowClosedAt := s.now } }

/-- R55, R60: the closing ridge of the window that runs. -/
def State.closeWindow (s : State) : State :=
  match s.course with
  | none => s
  | some _ => s.settleCourse.dropCourse

/-! ### Ridge actions (R57) -/

/-- R82: a pending swap takes effect at a ridge at least 10 µs after it was validated. -/
def State.takeSwap (s : State) : State :=
  if s.on Reg.CRS_STATUS.SWAP_PEND && Nat.ble (s.swapAt + 10000) s.now then
    (s.swapSets.setFs [(Reg.CRS_STATUS.SWAP_PEND, 0), (Reg.CRS_SWAP.REQ, 0)]).reportRates
  else s

/-- R183, R189, R267: units whose corrected errors have reached TRS_CE_LIMIT are reslated at the following ridge. -/
def State.ceLimits (s : State) : State :=
  let hit : Nat → Nat → Bool := fun n c =>
    decide (s.getF (Reg.TRS_CE_LIMIT.LIMIT n) ≠ 0 ∧ s.getF (Reg.TRS_CE_LIMIT.LIMIT n) ≤ c)
  let rs := (List.range 36).filter fun u =>
    decide (s.getF (Reg.TRS_RAFT_STAT.STATE (u / 9) (u % 9)) = 0) &&
      hit (u / 9) (s.getF (Reg.TRS_RAFT_CE.CE_STORE (u / 9) (u % 9)) + s.getF (Reg.TRS_RAFT_CE.CE_ACC (u / 9) (u % 9)))
  let vs := (List.range 180).filter fun x =>
    decide (s.getF (Reg.TRS_VEC_STAT.STATE (x / 45) (x / 5 % 9) (x % 5)) = 0) &&
      hit (x / 45) (s.getF (Reg.TRS_VEC_ERR.CE_REG (x / 45) (x / 5 % 9) (x % 5)))
  (s.each rs fun s u => s.requestReslate 0 u false).each vs fun s x => s.requestReslate 1 x false

/-- R509: the gutters of units out of service hold no words. -/
def State.emptyGutters (s : State) : State := s.each (s.gutters.map Prod.fst) fun s i => if s.gutterOff i then s.putGutter i Gutter.fresh else s

/-- R436: lane repairs, at a ridge at which the module is locked; `closes`: it closes a window. -/
def State.ridgeLanes (s : State) (closes : Bool) : State :=
  let b := s.getF Reg.CRS_BEAT_COUNT.BEATS % 2 ^ 32
  let s := s.each (List.range 32) fun s p => s.repairPort b p
  s.each (List.range 576) fun s i => s.judgeLane closes (i / 18) (i % 18)

/-- R132: quiesces that waited for the closing ridge start. -/
def State.ridgeQuiesces (s : State) : State := s.each (s.targets.map Prod.fst) State.pumpTarget

/-- What sort of ridge: a free one, the one at which the module locks, or one that closes a window (R49, R55, R58). -/
inductive RidgeSort where
  | free | first | closing
  deriving DecidableEq, Repr

/-- R84, R542: however many maps a ridge has changed, SPARE_VER has risen by one from `v`. -/
def State.oneVersion (s : State) (v : Nat) : State :=
  if s.getF Reg.CRS_ACT_SPARE.SPARE_VER = v then s
  else s.setFs [(Reg.CRS_ACT_SPARE.SPARE_VER, v + 1), (Reg.CRS_SET_SPARE.SPARE_VER, v + 1)]

/-- R39, R57, R58, R84, R101, R296, R347, R349, R542: what every ridge carries. A map-out shrinks the capacity before a window move is
checked (R103). -/
def State.ridgeActions (s : State) (sort : RidgeSort) : State :=
  let v := s.getF Reg.CRS_ACT_SPARE.SPARE_VER
  let closes := decide (sort = .closing)
  let s := s.takeSwap.commitSpares.ceLimits
  let s := if sort = .free then s else (s.ridgeLanes closes).closeChannelCounts closes
  let s := (s.each (List.range 32) State.ridgeUp).oneVersion v
  let s := s.takeMapOuts.moveWindow.slotsInRange
  s.startRetrains.kvReclaim.kvReport.emptyGutters.ridgeQuiesces

/-! ### A course opens -/

/-- R174: on-die content of the course before is gone; every counter is 0. -/
def State.clearDie (s : State) : State :=
  { s with rafts := [], dieEvents := [], modEvents := [], rstore := [], rsWritten := [], loft := [], loftWritten := [], acc := [], watch := [] }

/-- R413: needed media jobs due at course counter `c`: the status with which they refuse it. -/
def State.batchStatus (s : State) (c : Nat) : Option Nat :=
  if s.rings.any fun x => x.2.outstanding.any fun q => q.need && Nat.beq q.due c then some 0xA0
  else if s.jobsDone.any fun j => Nat.beq j.1 c && !Nat.beq j.2 0 then some 0xA1
  else none

/-- R56, R169: the record of a course that opens. -/
def State.newCourse (s : State) (q : Req) (img : Image) (failed : Bool) : Course :=
  let n := if img.hasTt then s.ttSlots img.ttIdx else 0
  { req := q, img := img, beatsLeft := img.beats, counter := s.getF Reg.CRS_COURSE_COUNT.COURSES, working := false, reserve := false, failed := failed,
    running := if failed then [] else (List.range 32).filter fun l => decide (s.progOf img l ≠ 0),
    ports := ((s.slotsOf img).flatMap fun x => if x.kind = 7 then [x.port, x.fwd] else [x.port]).eraseDups,
    slots := List.replicate n SlotSt.fresh, known := [], result := false, counts := [], planned := [], hostMoved := 0, peerMoved := 0,
    hostBusy := 0, peerBusy := 0, hostSince := none, peerSince := none, rateH := 0, rateP := 0, poolUsed := 0,
    scales := [], sentVote := none, routes := [], relayed := false }

/-- R69, R76, R413: a course refused at its opening ridge does not run: its completion carries the status, its window runs idle, and it counts
as a failed course. -/
def State.refuseCourse (s : State) (q : Req) (img : Image) (code : Nat) : State :=
  let n := s.getF Reg.CRS_COURSE_COUNT.COURSES
  let s := { s with course := some (s.newCourse q img true), prev := some ⟨img.stepLast, true⟩ }
  let s := { s.releaseSaves with
    amax := [], stepVote := false, stepNonfin := false
    jobsDone := if code = 0xA1 then s.jobsDone.filter fun j => decide (j.1 ≠ n % 2 ^ 48) else s.jobsDone }
  let s := (s.setF Reg.CRS_STATUS.IDLE 1).setLast code n false false
  let s := if img.stepFirst then s else s.setSeed s.seedBefore.toNat
  (s.complete q code (courseDetail n false false)).hold

/-- R249, R365, R477: a step starts at its first course. -/
def State.startStep (s : State) (img : Image) (n : Nat) : State :=
  if !img.stepFirst then s
  else
    let s := { s.releaseSaves with
      amax := [], stepVote := false, stepNonfin := false, stepCourse := n
      seedBefore := BitVec.ofNat 64 (s.getF (Reg.TRS_VEC_SEED.SEED 0)) }
    s.setSeed img.seed

/-- R466: CRS_LNK_TT names the timetable of the course. -/
def State.nameTt (s : State) (c : Course) : State :=
  let t := (s.courseTt c).getD (0, 0)
  s.setFs [(Reg.CRS_LNK_TT.TT_ID, t.1), (Reg.CRS_LNK_TT.POS, t.2)]

/-- R67, R69: the course admitted next finds before it the course of this image, as its last check read it. -/
def State.passStep (s : State) (img : Image) : State :=
  let p : Option PrevCourse := some ⟨img.stepLast, false⟩
  match s.waiting with
  | [] => { s with prev := p }
  | a :: t => { s with waiting := { a with pred := p } :: t }

/-- R56, R174, R249, R298, R342, R364, R470: a course that passed its recheck opens. -/
def State.startCourse (s : State) (q : Req) (img : Image) : State :=
  let s := s.passStep img
  let n := s.getF Reg.CRS_COURSE_COUNT.COURSES
  let s := (s.clearDie).startStep img n
  let c := s.newCourse q img false
  let s := { s with course := some c, recipe := img.recipeIdx, kvUndo := s.kv, kvUndoMem := [], kvLog := 0 }
  let s := ((s.setF Reg.CRS_STATUS.IDLE 0).nameTt c).dropLost
  ((s.plan img).buildDecision c).holdScales c

/-- R69, R413: the course at the head of the queue is checked again, its media jobs are examined, and it opens or is refused. -/
def State.openCourse (s : State) (a : Adm) : State :=
  let r := s.tryAdmit a.img.idx (a.req.word 2) a.pred 0
  let s := r.2.reportAdmission r.1
  if r.1.status ≠ 0 then s.refuseCourse a.req a.img 0x47
  else match s.batchStatus (s.getF Reg.CRS_COURSE_COUNT.COURSES % 2 ^ 48) with
    | some code => s.refuseCourse a.req a.img code
    | none => s.startCourse a.req r.1.img

/-- R57, R64: at an opening ridge the course at the head of the queue opens if its time has come; else the window is idle. -/
def State.openWindow (s : State) : State :=
  match s.waiting with
  | a :: t =>
    if a.notBefore ≤ s.now && !s.on Reg.CRS_STATUS.HELD && s.on Reg.CRS_STATUS.LOCKED then { s with waiting := t }.openCourse a
    else s.setF Reg.CRS_STATUS.IDLE 1
  | [] => s.setF Reg.CRS_STATUS.IDLE 1

/-- R436: ports with a repair pending announce the ridge after this one. -/
def State.announceAll (s : State) : State := s.each (List.range 32) State.proposePort

/-- R55, R57: a ridge at which the module is locked. -/
def State.ridge (s : State) (sort : RidgeSort) : State :=
  let s := s.closeWindow.bump Reg.CRS_RIDGE_COUNT.RIDGES 1
  let s := ({ s with beat := { s.beat with ridgeAt := s.now } }).ridgeActions sort
  s.openWindow.announceAll

/-- R58: a free ridge, while the module is not locked. -/
def freeRidge (s : State) : State :=
  if !s.ready || s.on Reg.CRS_STATUS.LOCKED then s
  else { s with beat := { s.beat with ridgeAt := s.now } }.ridgeActions .free
def execFreeRidge (s : State) : Out := onCore freeRidge s

/-! ### Within a window -/

/-- R56, R436: 25 µs after the opening ridge the phases begin; the dispatches whose START that moment is count (R454), and with no program
the last phase has ended (R472). -/
def ridgeIntervalEnd (s : State) : State :=
  let s := s.repairsEnd
  match s.alive with
  | none => s
  | some c =>
    if c.working || c.reserve then s
    else
      let c' : Course := { c with working := true }
      let s := { s with course := some c' }.countStarts
      if c.running.isEmpty then s.lastPhaseEnds else s
def execRidgeIntervalEnd (s : State) : Out := onCore ridgeIntervalEnd s

/-- R72: a phase still runs at its deadline: bit 45 rises, and the course fails with 0x81. -/
def phaseDeadline (p : Nat) (s : State) : State :=
  match s.alive with
  | none => s
  | some c =>
    match c.img.deadlines[p]? with
    | none => s
    | some d =>
      if s.now < s.beat.ridgeAt + d || s.programsDone c && s.slotsDone c then s else s.raiseLine 45
def execPhaseDeadline (p : Nat) (s : State) : Out := onCore (phaseDeadline p) s

/-- R77: a write to CRS_ABORT. -/
def writeAbort (v : Nat) (s : State) : State := if v.testBit 0 then s.failCourse 0x86 else s
def execCrsAbort (v : W32) (s : State) : Out := onHub (fun s => s.gated 0x1004C (writeAbort v.toNat)) s

/-- R76, R298: a write to CRS_RESUME clears HELD, once a rollback has ended. -/
def writeResume (v : Nat) (s : State) : State :=
  if !v.testBit 0 then s
  else if s.on Reg.CRS_KV_STAT.ROLLBACK then { s with resumePend := true }
  else s.setF Reg.CRS_STATUS.HELD 0
def execCrsResume (v : W32) (s : State) : Out := onHub (fun s => s.gated 0x10048 (writeResume v.toNat)) s

end Sys2Proof.Machine
end

