-- ==== Sys2Proof/Machine/Beat.lean ====
section
/-! DEFINITION. The beat (R47 to R55, R432): edges, lock, glitches and missing edges, holdover, loss, internal beats, and writes to
CRS_CTRL (R78). -/

namespace Sys2Proof.Machine

/-! ### Conditions of R48; times in ps, `sum` the seven intervals together -/

/-- R48: each of the intervals lies within ±100 ppm of the mean. -/
def evenEdges : List Nat → Nat → Bool
  | a :: b :: t, sum => decide ((7 * ((a : Int) - b) - sum).natAbs * 1000000 ≤ 100 * sum) && evenEdges (b :: t) sum
  | _, _ => true

/-- R48: the mean interval lies between 100 µs and 10 ms. -/
def periodInRange (sum : Nat) : Bool := decide (700000000 ≤ sum ∧ sum ≤ 70000000000)

/-- R48: the mean interval lies within ±500 ppm of NOM_NS. -/
def nearNominal (sum nom : Nat) : Bool := decide (((sum : Int) - 7000 * nom).natAbs * 1000000 ≤ 500 * (7000 * nom))

/-- R86: outside 100,000 to 10,000,000 ns nothing locks. -/
def nominalOk (nom : Nat) : Bool := decide (100000 ≤ nom ∧ nom ≤ 10000000)

/-- R54: two periods lie within 500 ppm of each other. -/
def samePeriod (new old : Nat) : Bool := decide (((new : Int) - old).natAbs * 1000000 ≤ 500 * old)

/-- R48, R51: a number divided, to the nearest integer, ties to even. -/
def roundEven (n d : Nat) : Nat :=
  let q := n / d
  let r := n % d
  if d < 2 * r then q + 1 else if 2 * r = d ∧ q % 2 = 1 then q + 1 else q

/-! ### Ridges and beats -/

/-- R432: ports with BEAT_OUT send the beat number of an internal beat. -/
def State.sendBeats (s : State) : State :=
  let n := s.getF Reg.CRS_BEAT_COUNT.BEATS % 2 ^ 32
  s.each (s.upPorts.filter fun p => s.on (Reg.LNK_CTRL.BEAT_OUT p)) fun s p => s.sendFlit p 5 ([1, 0, 0, 0] ++ leBytes 4 n)

/-- R55, R57: an internal beat ends the window that runs, or brings its end one beat nearer. -/
def State.beatWindow (s : State) : State :=
  match s.course with
  | none => s.ridge .closing
  | some c =>
    if c.beatsLeft ≤ 1 then s.ridge .closing
    else
      let c' : Course := { c with beatsLeft := c.beatsLeft - 1 }
      { s with course := some c' }

/-- R53, R58: the beat is lost: bit 41 is held, the course in progress fails with 0x82 and its window is over. -/
def State.loseBeat (s : State) : State :=
  let s := s.setFs [(Reg.CRS_STATUS.LOCKED, 0), (Reg.CRS_STATUS.HOLDOVER, 0)]
  let s := (s.holdLine 41).failCourse 0x82
  let b : Beat := { s.beat with edges := [], missed := 0, holdBeats := 0, pulling := false }
  let s := if s.course.isSome then s.dropCourse else s
  { s.setF Reg.CRS_STATUS.IDLE 1 with beat := b }

/-- R52, R53: the module enters holdover; a HOLD_BEATS of 0 loses the beat at once. -/
def State.enterHoldover (s : State) : State :=
  let b : Beat := { s.beat with edges := [], missed := 0, holdBeats := 0, pulling := false }
  let s : State := { s.setF Reg.CRS_STATUS.HOLDOVER 1 with beat := b }
  if s.getF Reg.CRS_HOLDMAX.HOLD_BEATS = 0 then s.loseBeat else s

/-- R53: the next holdover beat is the one that is not made. -/
def State.atLoss (s : State) : Bool :=
  s.on Reg.CRS_STATUS.HOLDOVER && decide (s.getF Reg.CRS_HOLDMAX.HOLD_BEATS ≤ s.beat.holdBeats + 1)

/-- R53: the moment at which holdover beat HOLD_BEATS would fall. -/
def beatLoss (s : State) : State := if s.ready && s.atLoss then s.loseBeat else s
def execBeatLoss (s : State) : Out := onCore beatLoss s

/-- R54: an internal beat within 500 ppm of the returned train ends the pull. -/
def State.pulled (s : State) : Bool :=
  let p := s.beat.period7
  let d := (7000 * s.now + p / 2 - s.beat.lastEdge) % p
  decide (p = 0 ∨ ((d : Int) - p / 2).natAbs * 1000000 ≤ 500 * p)

/-- R49, R52, R55: an internal beat; the holdover beat that would lose the beat is not made. -/
def internalBeat (s : State) : State :=
  if !s.ready || !s.on Reg.CRS_STATUS.LOCKED then s
  else if s.atLoss then s.loseBeat
  else
    let b : Beat := { s.beat with
      holdBeats := if s.on Reg.CRS_STATUS.HOLDOVER then s.beat.holdBeats + 1 else 0
      pulling := s.beat.pulling && !s.pulled }
    let s := { s with beat := b }
    (s.bump Reg.CRS_BEAT_COUNT.BEATS 1).sendBeats.beatWindow
def execInternalBeat (s : State) : Out := onCore internalBeat s

/-! ### Edges -/

/-- The last eight edges, newest first, with a new one; times in ps. -/
def Beat.see (b : Beat) (t : Nat) : Beat := { b with edges := (t :: b.edges).take 8 }

/-- R48: the sum of the seven intervals, when eight edges meet the first two conditions. -/
def Beat.train (b : Beat) : Option Nat :=
  if b.edges.length < 8 then none
  else
    let sum := b.edges.headD 0 - b.edges.getLastD 0
    if periodInRange sum && evenEdges b.edges sum then some sum else none

/-- R48: the locked period, and PERIOD_NS. -/
def State.setPeriod (s : State) (sum : Nat) : State :=
  let b : Beat := { s.beat with period7 := sum }
  { s.setF Reg.CRS_BEAT_PERIOD.PERIOD_NS (roundEven sum 7000) with beat := b }

/-- R49, R51: the module locks at an edge: its beat number is loaded, bit 41 falls, and the first internal beat carries a ridge. -/
def State.lock (s : State) (t sum : Nat) (beat : Option Nat) : State :=
  let nom := s.getF Reg.CRS_BEAT_NOM.NOM_NS
  let n := match beat with | some n => n % 2 ^ 32 | none => roundEven s.timeBase nom
  let s := (s.setPeriod sum).setFs [(Reg.CRS_STATUS.LOCKED, 1), (Reg.CRS_BEAT_COUNT.BEATS, n)]
  let b : Beat := { s.beat with edges := [], lastEdge := 7 * t, missed := 0, holdBeats := 0, pulling := false }
  ({ s with beat := b }.dropLine 41).sendBeats.ridge .first

/-- R54, R85: courses waiting for their windows, with the ridges expected for them, are checked again against a new period, the set each
window will find active, and the course before each as it was checked itself. -/
def State.recheckWaiting (s : State) : List (Adm × Nat) → State
  | [] => s
  | (a, o) :: t =>
    let pred := match s.waiting.getLast? with | some b => some ⟨b.img.stepLast, false⟩ | none => a.pred
    let r := s.admitNext a.img.idx (a.req.word 2) pred (o - s.now)
    let s := r.2.reportAdmission r.1
    if r.1.status = 0 then
      let a' : Adm := { a with img := r.1.img, pred := pred }
      State.recheckWaiting { s with waiting := s.waiting ++ [a'], prev := some ⟨r.1.img.stepLast, false⟩ } t
    else
      let s := { s with waiting := s.waiting ++ t.map Prod.fst, prev := s.prev.map PrevCourse.ended }
      (s.finish a.req 0x47).hold

/-- R54: edges return in holdover: the beat is pulled in, or a changed period fails the course. -/
def State.leaveHoldover (s : State) (t sum : Nat) : State :=
  let old := s.beat.period7
  let b : Beat := { s.beat with edges := [], lastEdge := 7 * t, missed := 0, holdBeats := 0, pulling := true }
  let s := ({ s.setF Reg.CRS_STATUS.HOLDOVER 0 with beat := b }).setPeriod sum
  if samePeriod sum old then s
  else
    let s := (s.raiseLine 41).failCourse 0x82
    State.recheckWaiting { s with waiting := [] } (s.openings s.windowEnd s.waiting).1

/-- R48, R54: an edge while the module looks for a beat: unlocked, or in holdover. -/
def State.seekEdge (s : State) (t : Nat) (beat : Option Nat) : State :=
  let s := { s with beat := s.beat.see t }
  let nom := s.getF Reg.CRS_BEAT_NOM.NOM_NS
  match s.beat.train with
  | none => s
  | some sum =>
    if !nearNominal sum nom then s.setF Reg.CRS_STATUS.LOCK_ERR 1
    else if !nominalOk nom then s
    else if s.on Reg.CRS_STATUS.HOLDOVER then s.leaveHoldover t sum
    else s.lock t sum beat

/-- R50: an edge lies within 2 % of the locked period of the expected one. -/
def Beat.expected (b : Beat) (t : Nat) : Bool := decide (((7 * t : Nat) - (b.lastEdge + b.period7 : Nat) : Int).natAbs * 50 ≤ b.period7)

/-- R48, R50: an edge of the beat in force at `t` ps. The manual does not say whether edges that come before READY count toward lock: they do
not (DESIGN CHOICE, assumption 43). -/
def State.beatEdge (s : State) (t : Nat) (beat : Option Nat) : State :=
  if !s.ready then s
  else if s.on Reg.CRS_STATUS.LOCKED && !s.on Reg.CRS_STATUS.HOLDOVER then
    if s.beat.expected t then
      let b : Beat := { s.beat with lastEdge := 7 * t, missed := 0 }
      { s with beat := b }
    else s
  else s.seekEdge t beat

/-- R47: an edge on the BEAT pin, `frac` ps after the present ns. -/
def beatEdge (frac : Nat) (s : State) : State :=
  if s.getF Reg.CRS_CTRL.BEAT_SRC = 0 then s.beatEdge (s.now * 1000 + frac % 1000) none else s
def execBeatEdge (frac : Nat) (s : State) : Out := onCore (beatEdge frac) s

/-- R47, R432: a BEAT flit arrives: on the port that carries the beat it is an edge, earlier by ONEWAY_NS, with its beat number. -/
def beatFlit (p beat frac : Nat) (s : State) : State :=
  if p < 32 ∧ s.getF Reg.CRS_CTRL.BEAT_SRC = 1 ∧ s.getF Reg.CRS_CTRL.BEAT_PORT = p ∧ s.on (Reg.LNK_STAT.UP p) then
    s.beatEdge ((s.now - s.getF (Reg.LNK_LAT.ONEWAY_NS p)) * 1000 + frac % 1000) (some beat)
  else s
def execBeatFlit (p beat frac : Nat) (s : State) : Out := onCore (beatFlit p beat frac) s

/-- R50, R52: the window of an expected edge closes without one; the third in a row enters holdover. -/
def missingEdge (s : State) : State :=
  if !s.ready || !s.on Reg.CRS_STATUS.LOCKED || s.on Reg.CRS_STATUS.HOLDOVER then s
  else if 2 ≤ s.beat.missed then s.enterHoldover
  else
    let b : Beat := { s.beat with missed := s.beat.missed + 1, lastEdge := s.beat.lastEdge + s.beat.period7 }
    { s with beat := b }
def execMissingEdge (s : State) : Out := onCore missingEdge s

/-! ### CRS_CTRL (R78) -/

/-- R78: the beat source changes: every later edge of the old one is lost. -/
def State.changeSource (s : State) : State :=
  if s.on Reg.CRS_STATUS.LOCKED && !s.on Reg.CRS_STATUS.HOLDOVER then s.enterHoldover
  else
    let b : Beat := { s.beat with edges := [] }
    { s with beat := b }

/-- R78, R86: a write to CRS_CTRL. -/
def writeCrsCtrl (v : Nat) (s : State) : State :=
  let src := s.getF Reg.CRS_CTRL.BEAT_SRC
  let port := s.getF Reg.CRS_CTRL.BEAT_PORT
  let was := s.on Reg.CRS_CTRL.ENABLE
  let s := if was then s else s.setF Reg.CRS_CTRL.TIMED_RING (bitsOf v 16 10)
  let s := s.setFs [(Reg.CRS_CTRL.ENABLE, bitsOf v 0 1), (Reg.CRS_CTRL.BEAT_SRC, bitsOf v 1 2), (Reg.CRS_CTRL.BEAT_PORT, bitsOf v 3 5)]
  let s := if was && !v.testBit 0 then s.withdraw else s
  if bitsOf v 1 2 ≠ src ∨ (src = 1 ∧ bitsOf v 3 5 ≠ port) then s.changeSource else s
def execTimedEnable (v : W32) (s : State) : Out := onHub (fun s => s.gated 0x10000 (writeCrsCtrl v.toNat)) s
def execTimedDisable (v : W32) (s : State) : Out := onHub (fun s => s.gated 0x10000 (writeCrsCtrl v.toNat)) s
def execBeatSrcChange (v : W32) (s : State) : Out := onHub (fun s => s.gated 0x10000 (writeCrsCtrl v.toNat)) s

end Sys2Proof.Machine
end

