-- ==== Sys2Proof/Machine/RegWrite.lean ====
section
/-! DEFINITION. Host writes to the set-up registers (R6 to R13): the access codes for the registers without a rule of their own, and the
registers whose write has one. -/

namespace Sys2Proof.Machine

/-! ### The shadow set (R13, R83, R87) -/

/-- R10, R83: an RWS register stores into the shadow set, or, while a swap is pending, ignores the write and sets SHADOW_WERR. -/
def writeShadow (r : RegRow) (v : Nat) (s : State) : State :=
  if s.on Reg.CRS_STATUS.SWAP_PEND then s.setF Reg.CRS_STATUS.SHADOW_WERR 1
  else s.each r.fields fun s af => s.setF af.2 (bitsOf v (af.2.key % 64) af.2.w)

/-- A register with an RWS field. -/
def RegRow.shadow (r : RegRow) : Bool := r.fields.any fun af => decide (af.1 = Acc.RWS)

/-! ### Rows of their own that are register writes -/

/-- R331: a write to THC_INJECT: TARGET is stored, a 1 in ARM arms. -/
def writeThcInject (v : Nat) (s : State) : State :=
  let s := s.setF Reg.THC_INJECT.TARGET (bitsOf v 1 1)
  if v.testBit 0 then s.setF Reg.THC_INJECT.ARM 1 else s
def execThcInjectArm (v : W32) (s : State) : Out := onHub (fun s => s.gated 0xC0000 (writeThcInject v.toNat)) s

/-- A write to register `a` of stack `st`, where the stack exists. -/
def State.gatedStack (s : State) (st a : Nat) (f : State → State) : State :=
  if st < 20 then s.gated (0x2000000 + st * 0x100000 + a) f else s

def execPeakClr (st : Nat) (v : W32) (s : State) : Out := onCore (fun s => s.gatedStack st 4 (writeMemTemp st v.toNat)) s
def execLoopbackStart (st : Nat) (v : W64) (s : State) : Out := onCore (fun s => s.gatedStack st 0x10 (writeMemLoop st v.toNat)) s
def execMemInjectArm (st : Nat) (v : W32) (s : State) : Out := onCore (fun s => s.gatedStack st 0x18 (writeMemInject st v.toNat)) s
def execChannelRetrainRequest (st c : Nat) (v : W32) (s : State) : Out :=
  onCore (fun s => if c < 32 then s.gatedStack st (0x100 + c * 0x10) (writeLchStat st c v.toNat) else s) s

def execShadowSetWrite (addr : Nat) (v : W64) (s : State) : Out :=
  onHub (fun s => match findReg addr with
    | some r => if r.shadow then s.gated addr (writeShadow r v.toNat) else s
    | none => s) s

/-! ### The MSI-X table and the CXL component registers (R92, R139) -/

/-- R92, R139: `a` lies in the MSI-X table, in its pending-bit array or among the CXL component registers, whose layout is PCI Express's and
CXL's own (PRESUMED, assumption 19). -/
def rawArea (a : Nat) : Bool := decide ((0x22000 ≤ a ∧ a < 0x26080) ∨ (0x27000 ≤ a ∧ a < 0x27088) ∨ (0x30000 ≤ a ∧ a < 0x40000))

/-- PRESUMED (assumption 19): the reset value of the word at `a`: an MSI-X vector masked, and at 0x3_1000 the CXL capability list, which names
the RAS capability (ID 2, at 0x3_1100) and the HDM decoder capability (ID 5, at 0x3_1200) with one decoder. -/
def rawReset (a : Nat) : Nat :=
  if a < 0x26080 ∧ a % 16 = 12 then 1
  else if a = 0x31000 then 0x02110001 else if a = 0x31004 then 0x10010002 else if a = 0x31008 then 0x20010005 else 0

/-- The 32-bit word at `a` of such an area. -/
def rawWord (a : Nat) : Fld := ⟨a * 64, 32, rawReset a⟩

/-- PRESUMED (assumption 19): the HDM decoder's control word as stored: COMMITTED, bit 10, follows COMMIT, bit 9. -/
def hdmControl (v : Nat) : Nat := bitsOf v 0 10 + bitsOf v 9 1 * 2 ^ 10

/-- PRESUMED (assumption 19): what a write of `v` leaves in the word at `a`, which held `old`: MSI-X entries, the RAS masks and severity, and
the decoder's range and control store it, the RAS status words clear, and the pending bits, the capability list and reserved words keep
their value. -/
def rawStore (a v old : Nat) : Nat :=
  if a < 0x26080 then v
  else match a with
    | 0x31100 | 0x3110C => old - (old &&& v)
    | 0x31104 | 0x31108 | 0x31110 | 0x31210 | 0x31214 | 0x31218 | 0x3121C => v
    | 0x31204 => bitsOf v 0 2
    | 0x31220 => hdmControl v
    | _ => old

/-- R8: a write of `width` bytes to such an area, whose words are 32 bits wide: a write of another width is ignored. -/
def writeRaw (a width v : Nat) (s : State) : State :=
  if width = 4 then s.setF (rawWord a) (rawStore a v (s.getF (rawWord a))) else s

/-! ### The general write (R8 to R13) -/

/-- Writes whose register has a rule of its own, other than those of one HBM stack, port or ring. -/
def writeSingle (a v : Nat) (s : State) : Option State :=
  match a with
  | 0x10000 => some (writeCrsCtrl v s)
  | 0x10040 => some (writeSwap v s)
  | 0x10048 => some (writeResume v s)
  | 0x1004C => some (writeAbort v s)
  | 0x20000 => some (writeHifCtrl v s)
  | 0x20010 => some (writeHdm v s)
  | 0x20044 => some (writeFuncEn v s)
  | 0x20064 => some (writeAttach v s)
  | 0x40000 => some (writeFltStatus v s)
  | 0x40040 => some (writeFltInject v s)
  | 0x60014 => some (writeBootCtrl v s)
  | 0xC0000 => some (writeThcInject v s)
  | 0xE0000 => some (writeSvlCtrl v s)
  | 0xE0030 => some (writeSvlPair v s)
  | 0xE0034 => some (writeSvlHot v s)
  | _ => none

/-- The same for the registers of a ring. -/
def writeRingReg (a v : Nat) (s : State) : Option State :=
  let r := (a - 0x28000) / 0x20
  if a < 0x28000 ∨ 0x30000 ≤ a then none
  else match a % 0x20 with
    | 0 => some (writeRingBase r (Reg.HIF_RING_SQ.BASE r) v s)
    | 8 => some (writeRingBase r (Reg.HIF_RING_CQ.BASE r) v s)
    | 0x10 => some (writeRingCfg r v s)
    | _ => none

/-- The same for the registers of an HBM stack. -/
def writeStackReg (a v : Nat) (s : State) : Option State :=
  let st := (a - 0x2000000) / 0x100000
  let o := a % 0x100000
  if a < 0x2000000 ∨ 0x3400000 ≤ a then none
  else if o = 4 then some (writeMemTemp st v s)
  else if o = 0x10 then some (writeMemLoop st v s)
  else if o = 0x18 then some (writeMemInject st v s)
  else if 0x100 ≤ o ∧ o < 0x300 ∧ o % 0x10 = 0 then some (writeLchStat st ((o - 0x100) / 0x10) v s)
  else none

/-- The same for LNK_CTRL of a port. -/
def writePortReg (a v : Nat) (s : State) : Option State :=
  if a < 0x3800000 ∨ 0x3A00000 ≤ a ∨ a % 0x10000 ≠ 0 then none
  else some (writeLnkCtrl ((a - 0x3800000) / 0x10000) [] v s)

/-- R8, R10: a write of the right width to register `r`. -/
def writeReg (r : RegRow) (v : Nat) (s : State) : State :=
  if r.shadow then writeShadow r v s
  else match (writeSingle r.addr v s).or ((writeRingReg r.addr v s).or ((writeStackReg r.addr v s).or (writePortReg r.addr v s))) with
    | some t => t
    | none => s.writeFields v r.fields

/-- R8, R9: a host write of `width` bytes at BAR0 address `a`: ignored where it is not 32 or 64 bits wide and naturally aligned, at an
address no register has, or of another width than the register. The blocks of the truss dies, the stacks and the ports need the
main rails. -/
def registerWrite (a width v : Nat) (s : State) : State :=
  if (width ≠ 4 ∧ width ≠ 8) ∨ a % width ≠ 0 then s
  else if 0x1000000 ≤ a ∧ ¬ s.power.coreRails then s
  else if rawArea a then s.gated a (writeRaw a width v)
  else match findReg a with
    | some r => if r.width = 8 * width then s.gated a (writeReg r v) else s
    | none => s

def execRegisterWrite (addr width : Nat) (v : W64) (s : State) : Out := onHub (registerWrite addr width v.toNat) s

end Sys2Proof.Machine
end

