-- ==== Sys2Proof/Machine/Thread.lean ====
section
/-! DEFINITION. Thread instructions (R242 to R245, R248 to R257): one definition per opcode over one frame. -/

namespace Sys2Proof.Machine

/-! ### The frame of a thread instruction (R232, R242, R244) -/

/-- R242, R243: what an opcode uses: registers D, A, B, C, its highest SUB, and how it reads IMM as operand B (0 not, 1 FP32, 2 integer). -/
structure ThUse where
  d : Bool
  a : Bool
  b : Bool
  c : Bool
  subMax : Nat
  imm : Nat
  deriving DecidableEq, Repr

/-- R242, R243, R253, R256: the uses of an opcode; none for a reserved one. -/
def thUse (op : Nat) (w : W64) : Option ThUse :=
  match op with
  | 0x00 | 0x01 | 0x03 | 0x06 | 0x07 => some ⟨false, false, false, false, 0, 0⟩
  | 0x02 => some ⟨true, false, false, false, 4, 0⟩
  | 0x04 | 0x05 => some ⟨false, true, false, false, 0, 0⟩
  | 0x10 | 0x11 | 0x12 | 0x14 | 0x15 | 0x16 => some ⟨true, true, true, false, 0, 1⟩
  | 0x13 => some ⟨true, true, true, true, 0, 1⟩
  | 0x17 => some ⟨true, true, true, false, 3, 1⟩
  | 0x18 | 0x19 | 0x3B | 0x41 | 0x48 | 0x49 | 0x4A | 0x4B => some ⟨true, true, false, false, 0, 0⟩
  | 0x20 | 0x21 | 0x23 | 0x24 | 0x50 => some ⟨true, true, true, false, 0, 0⟩
  | 0x22 => some ⟨true, true, true, true, 0, 0⟩
  | 0x30 | 0x31 | 0x32 | 0x33 | 0x34 | 0x35 | 0x36 | 0x37 | 0x38 | 0x58 => some ⟨true, true, true, false, 0, 2⟩
  | 0x39 => some ⟨true, true, true, false, 3, 2⟩
  | 0x3A => some ⟨true, true, true, true, 0, 2⟩
  | 0x40 => some ⟨true, true, false, false, 1, 0⟩
  | 0x59 => some ⟨true, true, false, false, 2, 0⟩
  | 0x60 => some ⟨true, true, false, decide (thSub w = 0 ∧ thC w % 8 = 2), 3, 0⟩
  | 0x61 => some ⟨false, true, true, decide (thSub w = 2), 4, 0⟩
  | _ => none

/-- R242, R243, R252: the codes the word itself breaks. -/
def thCodes (regs op : Nat) (w : W64) : List (Bool × Nat) :=
  match thUse op w with
  | none => [(true, 0x90)]
  | some u =>
    let usesB := u.b && !(thImmB w && decide (u.imm ≠ 0))
    [(decide (u.subMax < thSub w), 0x90), (decide (op = 0x60 ∧ thSub w = 0 ∧ 4 < thC w % 8), 0x90), (thImmB w && decide (u.imm = 0), 0x91),
     ((u.d && decide (regs ≤ thD w)) || (u.a && decide (regs ≤ thA w)) || (usesB && decide (regs ≤ thB w)) ||
      (u.c && decide (regs ≤ thC w)), 0x91)]

/-- What a thread instruction does. -/
inductive ThEff where
  /-- the sheaf goes on at instruction `pc`. -/
  | go (s : State) (k : Kernel) (sh : Sheaf) (pc : Nat)
  /-- R238: the sheaf leaves its slot. -/
  | leave
  | bad (codes : List Nat)

/-- The kernel and the resident sheaf whose next instruction is `w`, of opcode `op`. -/
def State.threadAt (s : State) (lr g op : Nat) (w : W64) : Option (Course × Kernel × Sheaf) :=
  match s.working, (s.raft lr).kernel, (s.raft lr).sheafs.find? (fun h => h.g = g) with
  | some c, some k, some sh => if thOp w = op ∧ k.code[sh.pc]? = some w then some (c, k, sh) else none
  | _, _, _ => none

/-- A sheaf and its kernel are replaced. -/
def State.putSheaf (s : State) (lr : Nat) (k : Kernel) (sh : Sheaf) : State :=
  let x := s.raft lr
  s.setRaft lr { x with kernel := some k, sheafs := x.sheafs.map fun h => if h.g = sh.g then sh else h }

/-- A sheaf has executed END. -/
def State.dropSheaf (s : State) (lr : Nat) (k : Kernel) (g : Nat) : State :=
  let x := s.raft lr
  let k' : Kernel := { k with ended := k.ended + 1 }
  s.setRaft lr { x with kernel := some k', sheafs := x.sheafs.filter fun h => h.g ≠ g }

/-! ### Registers -/

/-- Register `i` of thread `t`. -/
def Sheaf.reg (sh : Sheaf) (t i : Nat) : W32 := (sh.regs.getD t []).getD i 0
def Sheaf.live (sh : Sheaf) (t : Nat) : Bool := sh.active.getD t false
/-- The active threads. -/
def Sheaf.lives (sh : Sheaf) : List Nat := (List.range 64).filter sh.live

/-- R232: register `d` is written in the active threads. -/
def Sheaf.write (sh : Sheaf) (d : Nat) (f : Nat → W32) : Sheaf :=
  { sh with
    regs := sh.regs.zipIdx.map fun x => if sh.live x.2 then x.1.set d (f x.2) else x.1
    bad := sh.bad.filter fun b => !(sh.live b.1 && Nat.beq b.2.1 d) }

/-- Operand B of a thread: register B, or IMM in the form the opcode reads it. -/
def opB (op : Nat) (w : W64) (sh : Sheaf) (t : Nat) : W32 :=
  if thImmB w then (match thUse op w with | some u => if u.imm = 1 then immFloat w else immInt w | none => 0) else sh.reg t (thB w)

/-- R243, R245: an opcode reads register `i` of thread `t`: A, B and C of the active threads, and SHFL the A of the thread it names. -/
def Sheaf.reads (sh : Sheaf) (op : Nat) (w : W64) (t i : Nat) : Bool :=
  match thUse op w with
  | none => false
  | some u =>
    (u.a && Nat.beq i (thA w) &&
      (if op = 0x58 then sh.lives.any fun l => decide ((opB op w sh l).toNat % 64 = t) else sh.live t)) ||
    (sh.live t && ((u.b && !thImmB w && Nat.beq i (thB w)) || (u.c && Nat.beq i (thC w))))

/-- The physical vector engine of a sheaf: that of its quad. -/
def State.engineOf (s : State) (lr : Nat) (sh : Sheaf) : Nat := 5 * s.unitOf lr + s.vecPhys (s.unitOf lr) (sh.g % 4)

/-- R267, R518: the words of the register file that an instruction reads: those with inverted check bits show, and a corrected one is
written back. -/
def State.regCheck (s : State) (lr op : Nat) (w : W64) (sh : Sheaf) : State × Sheaf :=
  let hit := sh.bad.filter fun b => sh.reads op w b.1 b.2.1
  (s.badRegs (s.engineOf lr sh) hit, { sh with bad := sh.bad.filter fun b => b.2.2 || !sh.reads op w b.1 b.2.1 })

/-- R242 to R244, R268: the next instruction `w` of sheaf `g` of rafter `lr` issues. -/
def State.threadNow (s : State) (lr g op : Nat) (w : W64) (body : Course → Kernel → Sheaf → State → ThEff) : State :=
  match s.threadAt lr g op w with
  | none => s
  | some (c, k, sh0) =>
    let early := broken (thCodes (regsOf k.regs) op w)
    if !early.isEmpty then s.progError lr (lowest early)
    else
      let r := s.regCheck lr op w sh0
      let s := r.1
      let sh := r.2
      if s.working.isNone then s else
      match body c k sh s with
      | .bad cs => s.progError lr (lowest cs)
      | .leave => s.dropSheaf lr k g
      | .go t k' sh' pc =>
        if t.working.isNone then t
        else if k.code.length ≤ pc then t.progError lr 0x91
        else t.putSheaf lr k' { sh' with pc := pc }

/-- R185: a thread instruction issues, or its error counts among those of the cycle in which the course failed. -/
def State.thread (s : State) (lr g op : Nat) (w : W64) (body : Course → Kernel → Sheaf → State → ThEff) : State :=
  s.progTie lr fun s => s.threadNow lr g op w body

/-- Register D is written in every active thread. R518: an armed injection into the register file of the sheaf's physical engine acts on the
first word written, which is stored with one check bit inverted or all of them. -/
def writeD (lr : Nat) (w : W64) (k : Kernel) (sh : Sheaf) (s : State) (f : Nat → W32) : ThEff :=
  let sh' := sh.write (thD w) f
  match s.armed 5 (s.engineOf lr sh), sh.lives with
  | some m, t :: _ => .go s.useInject k { sh' with bad := sh'.bad ++ [(t, thD w, decide (m ≠ 0))] } (sh.pc + 1)
  | _, _ => .go s k sh' (sh.pc + 1)

/-- An instruction that computes D from A, B and C in each active thread. -/
def State.alu (s : State) (lr g op : Nat) (w : W64) (f : W32 → W32 → W32 → W32) : State :=
  s.thread lr g op w fun _ k sh s => writeD lr w k sh s fun t => f (sh.reg t (thA w)) (opB op w sh t) (sh.reg t (thC w))

/-! ### Control (0x00 to 0x07) -/

def execThreadNop (lr g : Nat) (w : W64) (s : State) : Out :=
  onCore (fun s => s.thread lr g 0x00 w fun _ k sh s => .go s k sh (sh.pc + 1)) s
def execThreadEnd (lr g : Nat) (w : W64) (s : State) : Out := onCore (fun s => s.thread lr g 0x01 w fun _ _ _ _ => .leave) s

/-- R243: SPEC. -/
def specOf (lr : Nat) (k : Kernel) (sh : Sheaf) (sub t : Nat) : W32 :=
  BitVec.ofNat 32 (match sub with | 0 => t | 1 => sh.g | 2 => k.sheafs | 3 => sh.g % 4 | _ => lr)
def execSpec (lr g : Nat) (w : W64) (s : State) : Out :=
  onCore (fun s => s.thread lr g 0x02 w fun _ k sh s => writeD lr w k sh s (specOf lr k sh (thSub w))) s

/-- R243: the target of a jump. -/
def jumpTo (w : W64) : Nat := thImm w % 2048
def execBra (lr g : Nat) (w : W64) (s : State) : Out := onCore (fun s => s.thread lr g 0x03 w fun _ k sh s => .go s k sh (jumpTo w)) s
def execBrany (lr g : Nat) (w : W64) (s : State) : Out :=
  onCore (fun s => s.thread lr g 0x04 w fun _ k sh s =>
    .go s k sh (if sh.lives.any fun t => decide (sh.reg t (thA w) ≠ 0) then jumpTo w else sh.pc + 1)) s

/-- R244: IF, ELSE and ENDIF over the IF stack. -/
def Sheaf.ifPush (sh : Sheaf) (w : W64) : Sheaf :=
  { sh with stack := sh.active :: sh.stack, active := (List.range 64).map fun t => sh.live t && decide (sh.reg t (thA w) ≠ 0) }
def execIfBegin (lr g : Nat) (w : W64) (s : State) : Out :=
  onCore (fun s => s.thread lr g 0x05 w fun _ k sh s =>
    if 16 ≤ sh.stack.length then .bad [0x91] else .go s k (sh.ifPush w) (sh.pc + 1)) s
def execElseFlip (lr g : Nat) (w : W64) (s : State) : Out :=
  onCore (fun s => s.thread lr g 0x06 w fun _ k sh s =>
    match sh.stack with
    | [] => .bad [0x91]
    | a :: _ => .go s k { sh with active := (a.zip sh.active).map fun x => x.1 && !x.2 } (sh.pc + 1)) s
def execEndIf (lr g : Nat) (w : W64) (s : State) : Out :=
  onCore (fun s => s.thread lr g 0x07 w fun _ k sh s =>
    match sh.stack with
    | [] => .bad [0x91]
    | a :: t => .go s k { sh with active := a, stack := t } (sh.pc + 1)) s


/-! ### FP32 operations (0x10 to 0x19; R194, R195) -/

def execFadd (lr g : Nat) (w : W64) (s : State) : Out := onCore (fun s => s.alu lr g 0x10 w fun a b _ => fadd a b) s
def execFsub (lr g : Nat) (w : W64) (s : State) : Out := onCore (fun s => s.alu lr g 0x11 w fun a b _ => fsub a b) s
def execFmul (lr g : Nat) (w : W64) (s : State) : Out := onCore (fun s => s.alu lr g 0x12 w fun a b _ => fmul a b) s
def execFfma (lr g : Nat) (w : W64) (s : State) : Out := onCore (fun s => s.alu lr g 0x13 w fun a b c => ffma a b c) s
def execFdiv (lr g : Nat) (w : W64) (s : State) : Out := onCore (fun s => s.alu lr g 0x14 w fun a b _ => fdiv a b) s
def execFmax (lr g : Nat) (w : W64) (s : State) : Out := onCore (fun s => s.alu lr g 0x15 w fun a b _ => fmax a b) s
def execFmin (lr g : Nat) (w : W64) (s : State) : Out := onCore (fun s => s.alu lr g 0x16 w fun a b _ => fmin a b) s

/-- R243: FCMP; NaN compares false except under SUB 3. -/
def fcmp (sub : Nat) (a b : W32) : W32 :=
  if (match sub with | 0 => feq a b | 1 => flt a b | 2 => fle a b | _ => !feq a b) then 1 else 0
def execFcmp (lr g : Nat) (w : W64) (s : State) : Out := onCore (fun s => s.alu lr g 0x17 w fun a b _ => fcmp (thSub w) a b) s
def execFabs (lr g : Nat) (w : W64) (s : State) : Out := onCore (fun s => s.alu lr g 0x18 w fun a _ _ => fabs a) s
def execFneg (lr g : Nat) (w : W64) (s : State) : Out := onCore (fun s => s.alu lr g 0x19 w fun a _ _ => fneg a) s

/-! ### BF16 operations on both halves (0x20 to 0x24; R194) -/

def execHadd (lr g : Nat) (w : W64) (s : State) : Out := onCore (fun s => s.alu lr g 0x20 w fun a b _ => pair2 fadd a b) s
def execHmul (lr g : Nat) (w : W64) (s : State) : Out := onCore (fun s => s.alu lr g 0x21 w fun a b _ => pair2 fmul a b) s
def execHfma (lr g : Nat) (w : W64) (s : State) : Out := onCore (fun s => s.alu lr g 0x22 w fun a b c => pair3 ffma a b c) s
def execHmax (lr g : Nat) (w : W64) (s : State) : Out := onCore (fun s => s.alu lr g 0x23 w fun a b _ => pair2 fmax a b) s
def execHmin (lr g : Nat) (w : W64) (s : State) : Out := onCore (fun s => s.alu lr g 0x24 w fun a b _ => pair2 fmin a b) s

/-! ### Integer operations (0x30 to 0x3B) -/

def execIadd (lr g : Nat) (w : W64) (s : State) : Out := onCore (fun s => s.alu lr g 0x30 w fun a b _ => a + b) s
def execIsub (lr g : Nat) (w : W64) (s : State) : Out := onCore (fun s => s.alu lr g 0x31 w fun a b _ => a - b) s
def execImul (lr g : Nat) (w : W64) (s : State) : Out := onCore (fun s => s.alu lr g 0x32 w fun a b _ => a * b) s
def execAndBits (lr g : Nat) (w : W64) (s : State) : Out := onCore (fun s => s.alu lr g 0x33 w fun a b _ => a &&& b) s
def execOrBits (lr g : Nat) (w : W64) (s : State) : Out := onCore (fun s => s.alu lr g 0x34 w fun a b _ => a ||| b) s
def execXorBits (lr g : Nat) (w : W64) (s : State) : Out := onCore (fun s => s.alu lr g 0x35 w fun a b _ => a ^^^ b) s
def execShl (lr g : Nat) (w : W64) (s : State) : Out := onCore (fun s => s.alu lr g 0x36 w fun a b _ => a <<< (b.toNat % 32)) s
def execShr (lr g : Nat) (w : W64) (s : State) : Out := onCore (fun s => s.alu lr g 0x37 w fun a b _ => a >>> (b.toNat % 32)) s
def execSar (lr g : Nat) (w : W64) (s : State) : Out := onCore (fun s => s.alu lr g 0x38 w fun a b _ => a.sshiftRight (b.toNat % 32)) s

/-- R243: ICMP. -/
def icmp (sub : Nat) (a b : W32) : W32 :=
  if (match sub with | 0 => decide (a = b) | 1 => a.slt b | 2 => a.ult b | _ => decide (a ≠ b)) then 1 else 0
def execIcmp (lr g : Nat) (w : W64) (s : State) : Out := onCore (fun s => s.alu lr g 0x39 w fun a b _ => icmp (thSub w) a b) s
def execSelc (lr g : Nat) (w : W64) (s : State) : Out := onCore (fun s => s.alu lr g 0x3A w fun a b c => if c ≠ 0 then a else b) s
def execMov (lr g : Nat) (w : W64) (s : State) : Out := onCore (fun s => s.alu lr g 0x3B w fun a _ _ => a) s

/-! ### Conversions and special functions (0x40 to 0x4B; R248) -/

def execCvtf (lr g : Nat) (w : W64) (s : State) : Out := onCore (fun s => s.alu lr g 0x40 w fun a _ _ => cvtf (decide (thSub w = 1)) a) s
def execCvti (lr g : Nat) (w : W64) (s : State) : Out := onCore (fun s => s.alu lr g 0x41 w fun a _ _ => cvti a) s
def execExp2 (lr g : Nat) (w : W64) (s : State) : Out := onCore (fun s => s.alu lr g 0x48 w fun a _ _ => exp2 a) s
def execLog2 (lr g : Nat) (w : W64) (s : State) : Out := onCore (fun s => s.alu lr g 0x49 w fun a _ _ => log2 a) s
def execRcp (lr g : Nat) (w : W64) (s : State) : Out := onCore (fun s => s.alu lr g 0x4A w fun a _ _ => rcp a) s
def execRsqrt (lr g : Nat) (w : W64) (s : State) : Out := onCore (fun s => s.alu lr g 0x4B w fun a _ _ => rsqrt a) s

/-! ### Random words, shuffles and reductions (0x50 to 0x59) -/

/-- R250: one round of rand32. -/
def randRound (xy : W64 × W64) : W64 × W64 :=
  let x := (xy.1 ^^^ xy.2) * 0x7F4B2D91C36EA8B3
  (x ^^^ (x >>> 29), xy.2 + 0x6A1D8E53B4F70C29)

/-- R250: rand32. -/
def rand32 (seed : W64) (tid coord draw : Nat) : W32 :=
  let x : W64 := BitVec.ofNat 64 (coord + draw * 2 ^ 48)
  let y : W64 := seed ^^^ (BitVec.ofNat 64 tid * 0xA5C31B27E94D6F05)
  BitVec.ofNat 32 ((randRound (randRound (randRound (randRound (randRound (randRound (x, y))))))).1.toNat / 2 ^ 32)

/-- R236: the identity TIDn that IMM[23:22] selects. -/
def tidOf (k : Kernel) (w : W64) : Nat := paramTid k.param (thImm w / 2 ^ 22)

def execRand (lr g : Nat) (w : W64) (s : State) : Out :=
  onCore (fun s => s.thread lr g 0x50 w fun c k sh s =>
    if s.badTid c (tidOf k w) then .bad [0x91]
    else writeD lr w k sh s fun t =>
      rand32 (BitVec.ofNat 64 (s.getF (Reg.TRS_VEC_SEED.SEED (lr / 8)))) (tidOf k w)
        ((sh.reg t (thA w)).toNat + (sh.reg t (thB w)).toNat % 2 ^ 16 * 2 ^ 32) (thImm w % 256)) s

def execShfl (lr g : Nat) (w : W64) (s : State) : Out :=
  onCore (fun s => s.thread lr g 0x58 w fun _ k sh s => writeD lr w k sh s fun t => sh.reg ((opB 0x58 w sh t).toNat % 64) (thA w)) s

/-- R245: the reduction of a sheaf. -/
def sredOf (sh : Sheaf) (w : W64) : W32 :=
  let f := match thSub w with | 0 => fadd | 1 => fmax | _ => fmin
  let pad : W32 := if thSub w = 0 then 0x80000000 else 0x7FC00000
  pairTree f 0 6 ((List.range 64).map fun t => if sh.live t then sh.reg t (thA w) else pad)
def execSred (lr g : Nat) (w : W64) (s : State) : Out :=
  onCore (fun s => s.thread lr g 0x59 w fun _ k sh s => writeD lr w k sh s fun _ => sredOf sh w) s

/-! ### Bytes that threads share (R241) -/

/-- R241: a thread touches a byte: a byte that two threads touch, at least one writing, becomes undefined, a free value. -/
def touchByte (lr t : Nat) (write : Bool) (x : State × Kernel) (b : Nat) : State × Kernel :=
  match SMap.look none b x.2.seen with
  | none => (x.1, { x.2 with seen := SMap.put none b (some ⟨some t, write⟩) x.2.seen })
  | some o =>
    let other := decide (o.thread ≠ some t)
    let o' : Touch := ⟨if other then none else o.thread, o.wrote || write⟩
    (if other && o'.wrote then
        { x.1 with rstore := x.1.rstore.write (lr * rsSize + b) [Config.openByte x.1.freeCtr b], freeCtr := x.1.freeCtr + 1 }
      else x.1, { x.2 with seen := SMap.put none b (some o') x.2.seen })

/-- R241: the bytes that a thread instruction touches: thread, first byte and length of each access. -/
def State.touch (s : State) (lr : Nat) (k : Kernel) (write : Bool) (xs : List (Nat × Nat × Nat)) : State × Kernel :=
  xs.foldl (fun a x => (List.range x.2.2).foldl (fun a i => touchByte lr x.1 write a (x.2.1 + i)) a) (s, k)

/-! ### Loads (0x60; R252 to R254) -/

/-- R252, R255: the address A + IMM[21:0], IMM sign-extended. The manual does not say that the sum wraps: it is taken as it stands, so that one
below 0 or past 2^32 lies outside every space (DESIGN CHOICE, assumption 88). -/
def thAddr (w : W64) (a : W32) : Int := a.toNat + signed (thImm w % 2 ^ 22) 22

/-- R236, R252: `n` bytes at an address lie in the space and in a declared range. -/
def inRange (rs : List (Nat × Nat)) (a : Int) (n : Nat) : Bool :=
  decide (0 ≤ a ∧ a + n ≤ rsSize) && rs.any fun r => decide ((r.1 : Int) ≤ a ∧ a + n ≤ r.1 + r.2)
def Kernel.readable (k : Kernel) : List (Nat × Nat) := [paramRd k.param, paramWr k.param]

/-- What a load answers: a word, or the codes it breaks. -/
abbrev LdAns := Except (List Nat) W32

/-- A load whose checks pass answers `v`. -/
def ldIf (cs : List (Bool × Nat)) (v : W32) : LdAns := if (broken cs).isEmpty then .ok v else .error (broken cs)

/-- R252: space 0, a rafter-store element of `n` bytes. -/
def State.ldElem (s : State) (lr : Nat) (c : Course) (k : Kernel) (w : W64) (a : Int) : LdAns :=
  let f := thC w % 8
  let n := fmtBytes f
  let v := widen f (leNat (s.rsRead lr a.toNat n))
  ldIf [(decide (a % n ≠ 0) || s.badTid c (tidOf k w), 0x91), (!inRange k.readable a n, 0x92), (!s.rsOk lr a.toNat n, 0x94)]
    (if f ≤ 1 then fscale v (-(s.scaleOf (tidOf k w))) else v)

/-- R252, R253: space 0, an E2M1 element with its block scale at address `sc`. -/
def State.ldFp4 (s : State) (lr : Nat) (c : Course) (k : Kernel) (w : W64) (e : Int) (sc : Nat) : LdAns :=
  let a := e / 2
  let byte := (s.rstore.byte (lr * rsSize + a.toNat)).toNat
  let code := if e % 2 = 0 then byte % 16 else byte / 16
  let scale := (s.rstore.byte (lr * rsSize + sc)).toNat
  ldIf [(s.badTid c (tidOf k w), 0x91), (!inRange k.readable a 1 || !inRange k.readable sc 1, 0x92),
      (!s.rsOk lr a.toNat 1 || !s.rsOk lr sc 1, 0x94)] ((decodeF 2 code).mul (e8m0 scale)).to32

/-- The tile that holds unit `u`, with its first unit. -/
def State.tileAt (s : State) (lr u : Nat) : Option (Nat × SlotState) :=
  ((List.range 4).filterMap fun d => if d ≤ u then (s.tile lr (u - d)).map fun t => (u - d, t) else none).find? fun x =>
    decide (u < x.1 + shapeUnits x.2.shape)

/-- R236, R252: the exponents ea + eb that accumulator reads remove. -/
def State.accExp (s : State) (k : Kernel) : Int := s.scaleOf (paramTidA k.param) + s.scaleOf (paramTidB k.param)

/-- R252: the word of accumulator memory that an address of space 1 names in the tile that holds its unit. -/
def State.accKeyAt (s : State) (lr : Nat) (a : Int) : Option Nat :=
  (s.tileAt lr (a / 262144).toNat).map fun x =>
    let i := (a.toNat - x.1 * 262144) / 4
    accKey lr x.1 x.2.ncols (i / shapeCols x.2.shape) (i % shapeCols x.2.shape)

/-- R252, R254: space 1, accumulator memory. N of the address is the columns of the tile's shape (R154; DEDUCED, assumption 68: with the
tile's own NCOLS no address could name a column at or above the column count). -/
def State.ldAcc (s : State) (lr : Nat) (k : Kernel) (a : Int) : LdAns :=
  let u := (a / 262144).toNat
  if a % 4 ≠ 0 then .error [0x91]
  else if a < 0 ∨ 32 ≤ u ∨ !(paramSlots k.param).testBit u then .error [0x92]
  else match s.tileAt lr u with
    | none => .error [0x94]
    | some (v, t) =>
      let i := (a.toNat - v * 262144) / 4
      let n := shapeCols t.shape
      if t.mrows ≤ i / n ∨ t.ncols ≤ i % n then .error [0x94]
      else .ok (fscale (SMap.look 0 (accKey lr v t.ncols (i / n) (i % n)) s.acc) (-(s.accExp k)))

/-- R252, R254: space 2, the statistics buffer. -/
def State.ldStat (s : State) (lr : Nat) (k : Kernel) (a : Int) : LdAns :=
  let r := (a / 16384).toNat
  let o := (a % 16384).toNat
  if a % 4 ≠ 0 then .error [0x91]
  else if a < 0 ∨ 16 ≤ r ∨ !(paramRecs k.param).testBit r ∨ 8200 ≤ o then .error [0x92]
  else match s.statRec lr r with
    | none => .error [0x94]
    | some x =>
      if o = 8192 then .ok (BitVec.ofNat 32 x.count)
      else if o = 8196 then .ok (BitVec.ofNat 32 x.dir)
      else if x.s.length ≤ o / 16 then .error [0x94]
      else
        let e := o / 16
        .ok (match o % 16 / 4 with
          | 0 => fscale (x.s.getD e 0) (-(s.accExp k))
          | 1 => fscale (x.q.getD e 0) (-2 * s.accExp k)
          | 2 => fscale (x.mean.getD e 0) (-(s.accExp k))
          | _ => fscale (x.var.getD e 0) (-2 * s.accExp k))

/-- R252: space 3, the parameter block. -/
def ldParam (k : Kernel) (a : Int) : LdAns :=
  if a % 4 ≠ 0 then .error [0x91]
  else if a < 0 ∨ 252 < a then .error [0x92]
  else .ok (BitVec.ofNat 32 (leNat ((k.param.drop a.toNat).take 4)))

/-- R252: the load of one thread. -/
def State.ldThread (s : State) (lr : Nat) (c : Course) (k : Kernel) (sh : Sheaf) (w : W64) (t : Nat) : LdAns :=
  let a := thAddr w (sh.reg t (thA w))
  match thSub w with
  | 0 => if thC w % 8 = 2 then s.ldFp4 lr c k w a (sh.reg t (thC w)).toNat else s.ldElem lr c k w a
  | 1 => s.ldAcc lr k a
  | 2 => s.ldStat lr k a
  | _ => ldParam k a

/-- The codes of several answers. -/
def ldCodes (xs : List LdAns) : List Nat := xs.flatMap fun x => match x with | .error cs => cs | .ok _ => []
def ldValue (x : LdAns) : W32 := match x with | .ok v => v | .error _ => 0

/-- R241, R252, R253: the rafter-store bytes a load of one thread reads. -/
def ldBytes (g : Nat) (sh : Sheaf) (w : W64) (t : Nat) : List (Nat × Nat × Nat) :=
  let a := thAddr w (sh.reg t (thA w))
  if thSub w ≠ 0 then []
  else if thC w % 8 = 2 then [(64 * g + t, (a / 2).toNat, 1), (64 * g + t, (sh.reg t (thC w)).toNat, 1)]
  else [(64 * g + t, a.toNat, fmtBytes (thC w % 8))]

/-- R257: the identity that an access to space 0 names, whatever threads are active. -/
def State.tidCodes (s : State) (c : Course) (k : Kernel) (w : W64) : List Nat := broken [(s.badTid c (tidOf k w), 0x91)]

/-- R183, R252: the memories that a load reads: words of the rafter store, or of accumulator memory, with inverted check bits show. -/
def State.ldCheck (s : State) (lr g : Nat) (sh : Sheaf) (w : W64) : State :=
  match thSub w with
  | 0 => s.storeCheck lr ((sh.lives.flatMap (ldBytes g sh w)).map fun x => (x.2.1, x.2.2))
  | 1 => s.each sh.lives fun s t => match s.accKeyAt lr (thAddr w (sh.reg t (thA w))) with | some a => s.accCheck lr a 1 | none => s
  | _ => s

/-- LD in every active thread. -/
def State.ldInstr (s : State) (lr g : Nat) (c : Course) (k : Kernel) (sh : Sheaf) (w : W64) : ThEff :=
  let bad := (if thSub w = 0 then s.tidCodes c k w else []) ++ ldCodes (sh.lives.map (s.ldThread lr c k sh w))
  if !bad.isEmpty then .bad bad else
  let v := s.ldCheck lr g sh w
  if v.working.isNone then .go v k sh (sh.pc + 1) else
  let u := v.touch lr k false (sh.lives.flatMap (ldBytes g sh w))
  writeD lr w u.2 sh u.1 fun t => ldValue (u.1.ldThread lr c k sh w t)

def execLd (lr g : Nat) (w : W64) (s : State) : Out :=
  onCore (fun s => s.thread lr g 0x60 w fun c k sh s => s.ldInstr lr g c k sh w) s

/-! ### Stores (0x61; R255, R256) -/

/-- R240: counts of one identity join those a kernel has gathered. -/
def gather (tid : Nat) (x : Watch × W32) : List (Nat × Watch × W32) → List (Nat × Watch × W32)
  | [] => [(tid, x)]
  | y :: t => if y.1 = tid then (tid, y.2.1.add x.1, amaxOf y.2.2 x.2) :: t else y :: gather tid x t

/-- R225, R255: the counts of a store, unless it names no identity or carries the recompute mark. -/
def Kernel.count (k : Kernel) (w : W64) (x : Watch × W32) : Kernel :=
  if k.rmark || decide (tidOf k w = 0xFFFF) then k else { k with watch := gather (tidOf k w) x k.watch }

/-- R255: the codes of one thread's store. -/
def State.stCodes (s : State) (c : Course) (k : Kernel) (w : W64) (a : Int) (n : Nat) : List (Bool × Nat) :=
  [(decide (a % n ≠ 0) || s.badTid c (tidOf k w), 0x91), (!inRange [paramWr k.param] a n, 0x92)]

/-- R255: ST of every active thread in a format other than E2M1. -/
def State.stPlain (s : State) (lr g : Nat) (c : Course) (k : Kernel) (sh : Sheaf) (w : W64) : ThEff :=
  let f := thSub w
  let n := fmtBytes f
  let bad := s.tidCodes c k w ++ sh.lives.flatMap fun t => broken (s.stCodes c k w (thAddr w (sh.reg t (thA w))) n)
  if !bad.isEmpty then .bad bad
  else
    let cs := sh.lives.map fun t => (thAddr w (sh.reg t (thA w)), toStored f (sh.reg t (thB w)) (s.scaleOf (tidOf k w)))
    let u := (s.each cs fun s x => s.rsWrite lr x.1.toNat (leBytes n x.2.code)).touch lr k true
      (sh.lives.map fun t => (64 * g + t, (thAddr w (sh.reg t (thA w))).toNat, n))
    .go u.1 (if cs.isEmpty then u.2 else u.2.count w (convSum (cs.map (·.2)))) sh (sh.pc + 1)

/-- R192: element codes packed two to a byte. -/
def packNibbles : List Nat → List Byte
  | a :: b :: t => BitVec.ofNat 8 (a % 16 + b % 16 * 16) :: packNibbles t
  | [a] => [BitVec.ofNat 8 (a % 16)]
  | [] => []

/-- R256: the block of half-sheaf `j`. -/
def halfBlock (sh : Sheaf) (w : W64) (j : Nat) : Nat × List Nat × Conv :=
  toFp4Block ((List.range 32).map fun i => sh.reg (32 * j + i) (thB w))

/-- R256: the codes of the collective store of half-sheaf `j`. -/
def State.fp4Codes (s : State) (c : Course) (k : Kernel) (sh : Sheaf) (w : W64) (j : Nat) : List (Bool × Nat) :=
  [(!((List.range 32).all fun i => sh.live (32 * j + i)) || s.badTid c (tidOf k w), 0x91),
   (!inRange [paramWr k.param] (thAddr w (sh.reg (32 * j) (thA w))) 16 ||
    !inRange [paramWr k.param] ((sh.reg (32 * j) (thC w)).toNat : Int) 1, 0x92)]

/-- R256: ST in E2M1. -/
def State.stFp4 (s : State) (lr g : Nat) (c : Course) (k : Kernel) (sh : Sheaf) (w : W64) : ThEff :=
  let bad := [0, 1].flatMap fun j => broken (s.fp4Codes c k sh w j)
  if !bad.isEmpty then .bad bad
  else
    let s := s.each [0, 1] fun s j =>
      let b := halfBlock sh w j
      (s.rsWrite lr (thAddr w (sh.reg (32 * j) (thA w))).toNat (packNibbles b.2.1)).rsWrite lr (sh.reg (32 * j) (thC w)).toNat
        [BitVec.ofNat 8 b.1]
    let u := s.touch lr k true ([0, 32].flatMap fun t =>
      [(64 * g + t, (thAddr w (sh.reg t (thA w))).toNat, 16), (64 * g + t, (sh.reg t (thC w)).toNat, 1)])
    let n := fun j => let b := (halfBlock sh w j).2.2; (b.watch 32, b.amax)
    .go u.1 ((u.2.count w (n 0)).count w (n 1)) sh (sh.pc + 1)

def execSt (lr g : Nat) (w : W64) (s : State) : Out :=
  onCore (fun s => s.thread lr g 0x61 w fun c k sh s => if thSub w = 2 then s.stFp4 lr g c k sh w else s.stPlain lr g c k sh w) s

/-! ### Reserved opcodes -/

/-- R243: a reserved thread opcode ends the course with 0x90. -/
def reservedThread (lr g : Nat) (w : W64) (s : State) : State :=
  if (thUse (thOp w) w).isSome then s else s.thread lr g (thOp w) w fun _ _ _ _ => .bad [0x90]
def execReservedThreadOpcode (lr g : Nat) (w : W64) (s : State) : Out := onCore (reservedThread lr g w) s

end Sys2Proof.Machine
end

