-- ==== Sys2Proof/Machine/Dispatch.lean ====
section
/-! DEFINITION. The meaning of every command: one arm per constructor of Instr, each a direct call. -/

namespace Sys2Proof.Machine
open Sys2Proof

/-- The command's effect on everything but the queue. -/
def exec (i : Instr) (s : State) : Host.Outcome State Fault Refusal :=
  match i with
  | .registerWrite addr width v => Sys2Proof.Machine.execRegisterWrite addr width v s
  | .beatEdge frac => Sys2Proof.Machine.execBeatEdge frac s
  | .missingEdge => Sys2Proof.Machine.execMissingEdge s
  | .beatLoss => Sys2Proof.Machine.execBeatLoss s
  | .internalBeat => Sys2Proof.Machine.execInternalBeat s
  | .freeRidge => Sys2Proof.Machine.execFreeRidge s
  | .reclaim => Sys2Proof.Machine.execReclaim s
  | .phaseDeadline phase => Sys2Proof.Machine.execPhaseDeadline phase s
  | .kvRollbackDone => Sys2Proof.Machine.execKvRollbackDone s
  | .crsResume v => Sys2Proof.Machine.execCrsResume v s
  | .crsAbort v => Sys2Proof.Machine.execCrsAbort v s
  | .crsSwapReq v => Sys2Proof.Machine.execCrsSwapReq v s
  | .shadowSetWrite addr v => Sys2Proof.Machine.execShadowSetWrite addr v s
  | .timedEnable v => Sys2Proof.Machine.execTimedEnable v s
  | .timedDisable v => Sys2Proof.Machine.execTimedDisable v s
  | .beatSrcChange v => Sys2Proof.Machine.execBeatSrcChange v s
  | .descriptorFetch ring ans => Sys2Proof.Machine.execDescriptorFetch ring ans s
  | .descriptorReread ring ans => Sys2Proof.Machine.execDescriptorReread ring ans s
  | .nop ring => Sys2Proof.Machine.execNop ring s
  | .courseRun ring => Sys2Proof.Machine.execCourseRun ring s
  | .biasSet ring => Sys2Proof.Machine.execBiasSet ring s
  | .biasSetDone => Sys2Proof.Machine.execBiasSetDone s
  | .aptInval ring => Sys2Proof.Machine.execAptInval ring s
  | .aptInvalDone => Sys2Proof.Machine.execAptInvalDone s
  | .quiesceReset ring => Sys2Proof.Machine.execQuiesceReset ring s
  | .quiescePowerDown ring => Sys2Proof.Machine.execQuiescePowerDown ring s
  | .quiescePowerUp ring => Sys2Proof.Machine.execQuiescePowerUp ring s
  | .quiesceDrainLimit target => Sys2Proof.Machine.execQuiesceDrainLimit target s
  | .targetReply target tag gen => Sys2Proof.Machine.execTargetReply target tag gen s
  | .cqWriteFail record => Sys2Proof.Machine.execCqWriteFail record s
  | .interruptCoalesceTimeout ring => Sys2Proof.Machine.execInterruptCoalesceTimeout ring s
  | .sqDoorbell off width v => Sys2Proof.Machine.execSqDoorbell off width v s
  | .cqDoorbell off width v => Sys2Proof.Machine.execCqDoorbell off width v s
  | .ringEnable ring v => Sys2Proof.Machine.execRingEnable ring v s
  | .ringDisable ring v => Sys2Proof.Machine.execRingDisable ring v s
  | .ringShutdownDone ring => Sys2Proof.Machine.execRingShutdownDone ring s
  | .funcPowerDown v => Sys2Proof.Machine.execFuncPowerDown v s
  | .funcPowerUp v => Sys2Proof.Machine.execFuncPowerUp v s
  | .cohModeWrite v => Sys2Proof.Machine.execCohModeWrite v s
  | .hdmMoveRequest v => Sys2Proof.Machine.execHdmMoveRequest v s
  | .hdmHostAccess off access => Sys2Proof.Machine.execHdmHostAccess off access s
  | .linkTrained offer => Sys2Proof.Machine.execLinkTrained offer s
  | .linkLeaveL0 => Sys2Proof.Machine.execLinkLeaveL0 s
  | .linkDownTimeout => Sys2Proof.Machine.execLinkDownTimeout s
  | .hostrstAssert => Sys2Proof.Machine.execHostrstAssert s
  | .viralReceived => Sys2Proof.Machine.execViralReceived s
  | .hostLossSelfReset => Sys2Proof.Machine.execHostLossSelfReset s
  | .reattach => Sys2Proof.Machine.execReattach s
  | .attachResume v => Sys2Proof.Machine.execAttachResume v s
  | .endProgram lr w0 w1 => Sys2Proof.Machine.execEndProgram lr w0 w1 s
  | .rafterNop lr w0 w1 => Sys2Proof.Machine.execRafterNop lr w0 w1 s
  | .mxLdb lr w0 w1 => Sys2Proof.Machine.execMxLdb lr w0 w1 s
  | .mxMm lr w0 w1 => Sys2Proof.Machine.execMxMm lr w0 w1 s
  | .stLoad lr w0 w1 far => Sys2Proof.Machine.execStLoad lr w0 w1 far s
  | .stLoadRunahead lr w0 w1 => Sys2Proof.Machine.execStLoadRunahead lr w0 w1 s
  | .runaheadLoadEnd lr near far => Sys2Proof.Machine.execRunaheadLoadEnd lr near far s
  | .stStore lr w0 w1 far => Sys2Proof.Machine.execStStore lr w0 w1 far s
  | .stStoreDownpipe lr w0 w1 => Sys2Proof.Machine.execStStoreDownpipe lr w0 w1 s
  | .stStoreComp lr w0 w1 far => Sys2Proof.Machine.execStStoreComp lr w0 w1 far s
  | .stDrain lr w0 w1 far => Sys2Proof.Machine.execStDrain lr w0 w1 far s
  | .stDrainComp lr w0 w1 far => Sys2Proof.Machine.execStDrainComp lr w0 w1 far s
  | .downpipeAck lr => Sys2Proof.Machine.execDownpipeAck lr s
  | .lowerTierAccessFail lr access => Sys2Proof.Machine.execLowerTierAccessFail lr access s
  | .atSplice lr => Sys2Proof.Machine.execAtSplice lr s
  | .spliceLateTimeout late => Sys2Proof.Machine.execSpliceLateTimeout late s
  | .programFetch lr => Sys2Proof.Machine.execProgramFetch lr s
  | .vxKernel lr w0 w1 => Sys2Proof.Machine.execVxKernel lr w0 w1 s
  | .sheafResident lr g => Sys2Proof.Machine.execSheafResident lr g s
  | .kernelDone lr => Sys2Proof.Machine.execKernelDone lr s
  | .vxDwconv lr w0 w1 => Sys2Proof.Machine.execVxDwconv lr w0 w1 s
  | .vxPool lr w0 w1 => Sys2Proof.Machine.execVxPool lr w0 w1 s
  | .vxResamp lr w0 w1 => Sys2Proof.Machine.execVxResamp lr w0 w1 s
  | .vxBoxdec lr w0 w1 => Sys2Proof.Machine.execVxBoxdec lr w0 w1 s
  | .vxNms lr w0 w1 => Sys2Proof.Machine.execVxNms lr w0 w1 s
  | .threadNop lr g w => Sys2Proof.Machine.execThreadNop lr g w s
  | .threadEnd lr g w => Sys2Proof.Machine.execThreadEnd lr g w s
  | .spec lr g w => Sys2Proof.Machine.execSpec lr g w s
  | .bra lr g w => Sys2Proof.Machine.execBra lr g w s
  | .brany lr g w => Sys2Proof.Machine.execBrany lr g w s
  | .ifBegin lr g w => Sys2Proof.Machine.execIfBegin lr g w s
  | .elseFlip lr g w => Sys2Proof.Machine.execElseFlip lr g w s
  | .endIf lr g w => Sys2Proof.Machine.execEndIf lr g w s
  | .fadd lr g w => Sys2Proof.Machine.execFadd lr g w s
  | .fsub lr g w => Sys2Proof.Machine.execFsub lr g w s
  | .fmul lr g w => Sys2Proof.Machine.execFmul lr g w s
  | .ffma lr g w => Sys2Proof.Machine.execFfma lr g w s
  | .fdiv lr g w => Sys2Proof.Machine.execFdiv lr g w s
  | .fmax lr g w => Sys2Proof.Machine.execFmax lr g w s
  | .fmin lr g w => Sys2Proof.Machine.execFmin lr g w s
  | .fcmp lr g w => Sys2Proof.Machine.execFcmp lr g w s
  | .fabs lr g w => Sys2Proof.Machine.execFabs lr g w s
  | .fneg lr g w => Sys2Proof.Machine.execFneg lr g w s
  | .hadd lr g w => Sys2Proof.Machine.execHadd lr g w s
  | .hmul lr g w => Sys2Proof.Machine.execHmul lr g w s
  | .hfma lr g w => Sys2Proof.Machine.execHfma lr g w s
  | .hmax lr g w => Sys2Proof.Machine.execHmax lr g w s
  | .hmin lr g w => Sys2Proof.Machine.execHmin lr g w s
  | .iadd lr g w => Sys2Proof.Machine.execIadd lr g w s
  | .isub lr g w => Sys2Proof.Machine.execIsub lr g w s
  | .imul lr g w => Sys2Proof.Machine.execImul lr g w s
  | .andBits lr g w => Sys2Proof.Machine.execAndBits lr g w s
  | .orBits lr g w => Sys2Proof.Machine.execOrBits lr g w s
  | .xorBits lr g w => Sys2Proof.Machine.execXorBits lr g w s
  | .shl lr g w => Sys2Proof.Machine.execShl lr g w s
  | .shr lr g w => Sys2Proof.Machine.execShr lr g w s
  | .sar lr g w => Sys2Proof.Machine.execSar lr g w s
  | .icmp lr g w => Sys2Proof.Machine.execIcmp lr g w s
  | .selc lr g w => Sys2Proof.Machine.execSelc lr g w s
  | .mov lr g w => Sys2Proof.Machine.execMov lr g w s
  | .cvtf lr g w => Sys2Proof.Machine.execCvtf lr g w s
  | .cvti lr g w => Sys2Proof.Machine.execCvti lr g w s
  | .exp2 lr g w => Sys2Proof.Machine.execExp2 lr g w s
  | .log2 lr g w => Sys2Proof.Machine.execLog2 lr g w s
  | .rcp lr g w => Sys2Proof.Machine.execRcp lr g w s
  | .rsqrt lr g w => Sys2Proof.Machine.execRsqrt lr g w s
  | .rand lr g w => Sys2Proof.Machine.execRand lr g w s
  | .shfl lr g w => Sys2Proof.Machine.execShfl lr g w s
  | .sred lr g w => Sys2Proof.Machine.execSred lr g w s
  | .ld lr g w => Sys2Proof.Machine.execLd lr g w s
  | .st lr g w => Sys2Proof.Machine.execSt lr g w s
  | .atFwd lr w0 w1 => Sys2Proof.Machine.execAtFwd lr w0 w1 s
  | .atBwd lr w0 w1 => Sys2Proof.Machine.execAtBwd lr w0 w1 s
  | .atDec lr w0 w1 => Sys2Proof.Machine.execAtDec lr w0 w1 s
  | .walkerEnd lr => Sys2Proof.Machine.execWalkerEnd lr s
  | .kvAppend lr w0 w1 => Sys2Proof.Machine.execKvAppend lr w0 w1 s
  | .kvEdit lr w0 w1 => Sys2Proof.Machine.execKvEdit lr w0 w1 s
  | .kvConf lr w0 w1 => Sys2Proof.Machine.execKvConf lr w0 w1 s
  | .thcInjectArm v => Sys2Proof.Machine.execThcInjectArm v s
  | .dramTempSample st t => Sys2Proof.Machine.execDramTempSample st t s
  | .scrubRead sec => Sys2Proof.Machine.execScrubRead sec s
  | .channelRetrainRequest st c v => Sys2Proof.Machine.execChannelRetrainRequest st c v s
  | .channelRetrainEnd st p result => Sys2Proof.Machine.execChannelRetrainEnd st p result s
  | .migrationGranuleCopy st c => Sys2Proof.Machine.execMigrationGranuleCopy st c s
  | .loopbackStart st v => Sys2Proof.Machine.execLoopbackStart st v s
  | .loopbackDone st errs => Sys2Proof.Machine.execLoopbackDone st errs s
  | .memInjectArm st v => Sys2Proof.Machine.execMemInjectArm st v s
  | .peakClr st v => Sys2Proof.Machine.execPeakClr st v s
  | .mediaDecodeJob ring => Sys2Proof.Machine.execMediaDecodeJob ring s
  | .mediaEncodeJob ring => Sys2Proof.Machine.execMediaEncodeJob ring s
  | .bufferGrant ring sample stream src ended => Sys2Proof.Machine.execBufferGrant ring sample stream src ended s
  | .sourceReadRetry ring encode srcs => Sys2Proof.Machine.execSourceReadRetry ring encode srcs s
  | .sampleCommit ring srcs => Sys2Proof.Machine.execSampleCommit ring srcs s
  | .decodePipelineFault k ring sample stream parity => Sys2Proof.Machine.execDecodePipelineFault k ring sample stream parity s
  | .encodePipelineFault e ring picture parity => Sys2Proof.Machine.execEncodePipelineFault e ring picture parity s
  | .portBringUp p v far => Sys2Proof.Machine.execPortBringUp p v far s
  | .bringUpStepTimeout p step => Sys2Proof.Machine.execBringUpStepTimeout p step s
  | .bringUpDone p => Sys2Proof.Machine.execBringUpDone p s
  | .hello p id port pwrdom found => Sys2Proof.Machine.execHello p id port pwrdom found s
  | .flitReceive p f => Sys2Proof.Machine.execFlitReceive p f s
  | .beatFlit p beat frac => Sys2Proof.Machine.execBeatFlit p beat frac s
  | .failNotice p ttId counter pos => Sys2Proof.Machine.execFailNotice p ttId counter pos s
  | .lanePropose p version beat lanes => Sys2Proof.Machine.execLanePropose p version beat lanes s
  | .laneAccept p version beat lanes => Sys2Proof.Machine.execLaneAccept p version beat lanes s
  | .laneRepairTimeout p => Sys2Proof.Machine.execLaneRepairTimeout p s
  | .portDown p lane => Sys2Proof.Machine.execPortDown p lane s
  | .slotSendStart e => Sys2Proof.Machine.execSlotSendStart e s
  | .transferHeader e header => Sys2Proof.Machine.execTransferHeader e header s
  | .sendComplete e => Sys2Proof.Machine.execSendComplete e s
  | .receiveComplete e payload => Sys2Proof.Machine.execReceiveComplete e payload s
  | .dispatchPlan d => Sys2Proof.Machine.execDispatchPlan d s
  | .commitReserveStart => Sys2Proof.Machine.execCommitReserveStart s
  | .peerApertureRequest p addr len store => Sys2Proof.Machine.execPeerApertureRequest p addr len store s
  | .peerApertureReply tag ans => Sys2Proof.Machine.execPeerApertureReply tag ans s
  | .sarkBlocks rec_ => Sys2Proof.Machine.execSarkBlocks rec_ s
  | .sarkSeal rec_ => Sys2Proof.Machine.execSarkSeal rec_ s
  | .sarkAck rec_ => Sys2Proof.Machine.execSarkAck rec_ s
  | .snapshotSave ring => Sys2Proof.Machine.execSnapshotSave ring s
  | .snapshotLoad ring => Sys2Proof.Machine.execSnapshotLoad ring s
  | .snapshotRestore ring => Sys2Proof.Machine.execSnapshotRestore ring s
  | .snapshotDrop ring => Sys2Proof.Machine.execSnapshotDrop ring s
  | .hostCopyToHost ring => Sys2Proof.Machine.execHostCopyToHost ring s
  | .hostCopyFromHost ring => Sys2Proof.Machine.execHostCopyFromHost ring s
  | .snapshotSaveDone area slot => Sys2Proof.Machine.execSnapshotSaveDone area slot s
  | .snapshotLoadDone slot => Sys2Proof.Machine.execSnapshotLoadDone slot s
  | .restoreDone area slot => Sys2Proof.Machine.execRestoreDone area slot s
  | .hostCopyDone out area slot far => Sys2Proof.Machine.execHostCopyDone out area slot far s
  | .flashFault => Sys2Proof.Machine.execFlashFault s
  | .svlPairWrite v => Sys2Proof.Machine.execSvlPairWrite v s
  | .svlHotWrite v => Sys2Proof.Machine.execSvlHotWrite v s
  | .svlCtrlWrite v => Sys2Proof.Machine.execSvlCtrlWrite v s
  | .gutterWrite g w poison last owner => Sys2Proof.Machine.execGutterWrite g w poison last owner s
  | .gutterRead g dst => Sys2Proof.Machine.execGutterRead g dst s
  | .gutterStale g => Sys2Proof.Machine.execGutterStale g s
  | .gutterPointerMismatch g => Sys2Proof.Machine.execGutterPointerMismatch g s
  | .errorLineRise e => Sys2Proof.Machine.execErrorLineRise e s
  | .mergeWindowClose => Sys2Proof.Machine.execMergeWindowClose s
  | .fltStatusClear v => Sys2Proof.Machine.execFltStatusClear v s
  | .fltInjectArm v => Sys2Proof.Machine.execFltInjectArm v s
  | .fltInjectDisarm v => Sys2Proof.Machine.execFltInjectDisarm v s
  | .aliveToggle => Sys2Proof.Machine.execAliveToggle s
  | .setLimit via ws => Sys2Proof.Machine.execSetLimit via ws s
  | .setRamp via ws => Sys2Proof.Machine.execSetRamp via ws s
  | .setTarget via ws => Sys2Proof.Machine.execSetTarget via ws s
  | .setCool via ws => Sys2Proof.Machine.execSetCool via ws s
  | .setTherm via ws => Sys2Proof.Machine.execSetTherm via ws s
  | .setFatal via ws => Sys2Proof.Machine.execSetFatal via ws s
  | .setCal via ws => Sys2Proof.Machine.execSetCal via ws s
  | .drawSample meas joules short => Sys2Proof.Machine.execDrawSample meas joules short s
  | .overdrawStep above => Sys2Proof.Machine.execOverdrawStep above s
  | .valveUpdate tin tout flow => Sys2Proof.Machine.execValveUpdate tin tout flow s
  | .coolantCondition cause holds => Sys2Proof.Machine.execCoolantCondition cause holds s
  | .thermalSample truss hub dram pstage => Sys2Proof.Machine.execThermalSample truss hub dram pstage s
  | .hardwareTrip => Sys2Proof.Machine.execHardwareTrip s
  | .vbatSample mv => Sys2Proof.Machine.execVbatSample mv s
  | .refCheck good => Sys2Proof.Machine.execRefCheck good s
  | .powerOn osc => Sys2Proof.Machine.execPowerOn osc s
  | .standbyGood => Sys2Proof.Machine.execStandbyGood s
  | .selfTestPass mv pwrdom slot => Sys2Proof.Machine.execSelfTestPass mv pwrdom slot s
  | .railSequence => Sys2Proof.Machine.execRailSequence s
  | .railFail => Sys2Proof.Machine.execRailFail s
  | .railRetry => Sys2Proof.Machine.execRailRetry s
  | .powerGood => Sys2Proof.Machine.execPowerGood s
  | .j1Overvoltage => Sys2Proof.Machine.execJ1Overvoltage s
  | .j1Undervoltage => Sys2Proof.Machine.execJ1Undervoltage s
  | .standbyLoss => Sys2Proof.Machine.execStandbyLoss s
  | .modrstAssert => Sys2Proof.Machine.execModrstAssert s
  | .bootIdentity puf => Sys2Proof.Machine.execBootIdentity puf s
  | .bootManifest => Sys2Proof.Machine.execBootManifest s
  | .bootCache => Sys2Proof.Machine.execBootCache s
  | .offer v => Sys2Proof.Machine.execOffer v s
  | .requestUpdate => Sys2Proof.Machine.execRequestUpdate s
  | .offerVerify obj => Sys2Proof.Machine.execOfferVerify obj s
  | .offerWindowClose => Sys2Proof.Machine.execOfferWindowClose s
  | .bootLoad => Sys2Proof.Machine.execBootLoad s
  | .cacheWriteDone => Sys2Proof.Machine.execCacheWriteDone s
  | .bootConfig tests => Sys2Proof.Machine.execBootConfig tests s
  | .bootAlias => Sys2Proof.Machine.execBootAlias s
  | .ready => Sys2Proof.Machine.execReady s
  | .watchdogExpiry => Sys2Proof.Machine.execWatchdogExpiry s
  | .getVersion => Sys2Proof.Machine.execGetVersion s
  | .getCapabilities => Sys2Proof.Machine.execGetCapabilities s
  | .negotiateAlgorithms => Sys2Proof.Machine.execNegotiateAlgorithms s
  | .getDigests => Sys2Proof.Machine.execGetDigests s
  | .getCertificate off len => Sys2Proof.Machine.execGetCertificate off len s
  | .challenge nonce => Sys2Proof.Machine.execChallenge nonce s
  | .getMeasurements index nonce => Sys2Proof.Machine.execGetMeasurements index nonce s
  | .keyAdd via edit => Sys2Proof.Machine.execKeyAdd via edit s
  | .keyRevoke via edit => Sys2Proof.Machine.execKeyRevoke via edit s
  | .keyClear via edit => Sys2Proof.Machine.execKeyClear via edit s
  | .firmwareUpdate obj => Sys2Proof.Machine.execFirmwareUpdate obj s
  | .activateFirmware => Sys2Proof.Machine.execActivateFirmware s
  | .ptpMessage offset time => Sys2Proof.Machine.execPtpMessage offset time s
  | .ppsEdge => Sys2Proof.Machine.execPpsEdge s
  | .modrstRelease => Sys2Proof.Machine.execModrstRelease s
  | .ridgeIntervalEnd => Sys2Proof.Machine.execRidgeIntervalEnd s
  | .encodeJobComplete ring far => Sys2Proof.Machine.execEncodeJobComplete ring far s
  | .hostSnoop line => Sys2Proof.Machine.execHostSnoop line s
  | .reservedRafterOpcode lr w0 w1 => Sys2Proof.Machine.execReservedRafterOpcode lr w0 w1 s
  | .reservedThreadOpcode lr g w => Sys2Proof.Machine.execReservedThreadOpcode lr g w s
  | .reservedParapetOpcode via ws => Sys2Proof.Machine.execReservedParapetOpcode via ws s
  | .spdmUnsupportedRequest code => Sys2Proof.Machine.execSpdmUnsupportedRequest code s

end Sys2Proof.Machine
end

