-- ==== Sys2Proof/Machine/Step.lean ====
section
/-! DEFINITION. One step of the block: the command at the front of the queue, or a tick of the reference clock. -/

namespace Sys2Proof.Machine

/-- R454, R543, R586: what an empty queue lets happen: a nanosecond passes, and the dispatches whose time has come count their entries. -/
def idle (s : State) : State := (tick s).countStarts

/-- The command at the front of the queue is carried out on the state with the queue's rest; an empty queue lets a nanosecond pass. -/
def step (s : State) : Host.Outcome State Fault Refusal :=
  match s.pending with
  | [] => .next (idle s)
  | c :: rest => exec c { s with pending := rest }

/-- The table gives no row bits, so no word spells a command, and the state stands (assumption 1). -/
def State.withFetchWord (s : State) (nbits w : Nat) : State :=
  match Sys2Proof.decodeTableWord nbits w with
  | some c => { s with pending := c :: s.pending }
  | none => s

end Sys2Proof.Machine
end

