-- ==== Sys2Proof/Machine/RegRead.lean ====
section
/-! DEFINITION. Host reads of the set-up registers (R8, R9, R10, R12, R551): what a read of BAR0 returns in a state. A read changes no
state; the host's reads of a register are no command of the table. -/

namespace Sys2Proof.Machine

/-- R10: the value a field reads as. CRS_TIME, PPT_CAL and HIF_STATUS.DB_ERR show state the module keeps elsewhere, and rate_h of
CRS_PLC_RATE is 0 while the host is lost or the link is down (R364, R381). -/
def State.readField (s : State) (f : Fld) : Nat :=
  if f = Reg.CRS_TIME.TIME_NS then s.timeBase
  else if f = Reg.PPT_CAL.TIME then s.calendar
  else if f = Reg.HIF_STATUS.DB_ERR then
    bit s.dbErr
  else if f = Reg.CRS_PLC_RATE.HOST_MBS then s.hostUp * s.getF f
  else s.getF f

/-- R10, R12: the fields of a register at their places; reserved bits read as zero. -/
def State.readFields (s : State) : List (Acc × Fld) → Nat
  | [] => 0
  | af :: t => s.readField af.2 % 2 ^ af.2.w * 2 ^ (af.2.key % 64) + s.readFields t

/-- All ones of `width` bytes. -/
def allOnes (width : Nat) : Nat := 2 ^ (8 * width) - 1

/-- R8: an aligned access of `width` bytes at `a`, where no register starts, falls on part of one: the upper half of a 64-bit register, or a
32-bit register in its own upper half. -/
def meetsReg (a width : Nat) : Bool :=
  if width = 8 then (findReg (a + 4)).isSome
  else Nat.beq (a % 8) 4 && (match findReg (a - 4) with | some r => Nat.beq r.width 64 | none => false)

/-- R8, R9, R551: a host read of `width` bytes at BAR0 address `a`: all ones where its width or alignment is wrong, zero at an address no
register has or whose block does not respond yet. -/
def State.readReg (s : State) (a width : Nat) : Nat :=
  if (width ≠ 4 ∧ width ≠ 8) ∨ a % width ≠ 0 then allOnes width
  else if !s.answers a || (decide (0x1000000 ≤ a) && !s.power.coreRails) then 0
  else if rawArea a then (if width = 4 then s.getF (rawWord a) else allOnes width)
  else match findReg a with
    | some r => if r.width = 8 * width then s.readFields r.fields else allOnes width
    | none => if meetsReg a width then allOnes width else 0

/-- R8, R10, R117, R118, R551: a host read of `width` bytes at BAR2 offset `off`: a doorbell reads as the value of its last accepted write,
other offsets as zero, an access that is not 64 bits wide on a doorbell as all ones (DEDUCED from R8 and R117, assumption 63), and before
READY everything as zero. -/
def State.readBar2 (s : State) (off width : Nat) : Nat :=
  if (width ≠ 4 ∧ width ≠ 8) ∨ off % width ≠ 0 then allOnes width
  else if !s.ready ∨ 0x400000 ≤ off then 0
  else if off % 0x1000 < 16 then
    if width = 4 then allOnes width
    else if off % 0x1000 = 0 then (s.ring (off / 0x1000)).sqDoorbell.toNat else (s.ring (off / 0x1000)).cqDoorbell.toNat
  else 0

end Sys2Proof.Machine
end

