-- ==== Sys2Proof/WellFormed.lean ====
section
/-! DEFINITION. Well-formed commands: operands that name something the module has. A command that is not well-formed is one no sender
sends; the machine leaves its state as it is, or ignores the access, by the rule of the register it would reach. -/

namespace Sys2Proof

/-- R107: a ring id. -/
def ringOk (r : Nat) : Bool := decide (r < 1024)

/-- R24: a logical rafter. -/
def rafterOk (lr : Nat) : Bool := decide (lr < 32)

/-- R428: a port. -/
def portOk (p : Nat) : Bool := decide (p < 32)

/-- R428: a physical lane of a port. -/
def laneOk (l : Nat) : Bool := decide (l < 18)

/-- R332: an HBM stack. -/
def stackOk (s : Nat) : Bool := decide (s < 20)

/-- R500: a gutter identity. -/
def gutterOk (i : Nat) : Bool :=
  decide (i ≤ 0xA3 ∨ (0xB0 ≤ i ∧ i ≤ 0xD7) ∨ (0x100 ≤ i ∧ i ≤ 0x143) ∨ (0x150 ≤ i ∧ i ≤ 0x16E) ∨ (0x170 ≤ i ∧ i ≤ 0x172))

/-- R510: an FLT_STATUS bit. -/
def bitOk (b : Nat) : Bool := decide (b < 48)

/-- An access to registers or doorbells: 1 to 8 bytes. -/
def accessOk (width : Nat) : Bool := decide (1 ≤ width ∧ width ≤ 8)

/-- R128: a target of a quiesce. -/
def targetOk (t : Nat) : Bool :=
  decide (t ≤ 0x17 ∨ (0x20 ≤ t ∧ t ≤ 0x23) ∨ t = 0x30 ∨ t = 0x31 ∨ (0x40 ≤ t ∧ t ≤ 0x5F) ∨ t = 0x100 ∨ t = 0x101 ∨ t = 0x103)

/-- The places an error source can have. -/
def ErrSource.wf : ErrSource → Bool
  | .rafter u ev => decide (u < 36 ∧ ev < 6)
  | .vector x ev => decide (x < 180 ∧ ev < 3)
  | .decode k ev => decide (k < 26 ∧ ev < 3)
  | .encode k ev _ => decide (k < 4 ∧ ev < 3)
  | .stager | .sectorError _ _ => true
  | .crcReplay st p | .deadChannel st p => stackOk st && decide (p < 34)
  | .hub reqs => reqs.all fun q => ringOk q.1
  | .line b => bitOk b

/-- R110: an answer to a descriptor read is one descriptor of eight words. -/
def descOk : Option (List W64) → Bool
  | some ws => decide (ws.length = 8)
  | none => true

/-- The command's operands name rings, rafters, ports, stacks, channels and gutters that exist. -/
def Instr.wf : Instr → Bool
  | .registerWrite _ width _ | .sqDoorbell _ width _ | .cqDoorbell _ width _ => accessOk width
  | .descriptorFetch r ans | .descriptorReread r ans => ringOk r && descOk ans
  | .nop r | .courseRun r | .biasSet r | .aptInval r | .quiesceReset r | .quiescePowerDown r | .quiescePowerUp r | .cqWriteFail ⟨r, _⟩
  | .interruptCoalesceTimeout r | .ringEnable r _ | .ringDisable r _ | .ringShutdownDone r | .mediaDecodeJob r | .mediaEncodeJob r
  | .sourceReadRetry r _ _ | .sampleCommit r _ | .snapshotSave r | .snapshotLoad r | .snapshotRestore r | .snapshotDrop r
  | .hostCopyToHost r | .hostCopyFromHost r | .encodeJobComplete r _ | .bufferGrant r _ _ _ _ => ringOk r
  | .decodePipelineFault k r _ _ _ => ringOk r && decide (k < 26)
  | .encodePipelineFault e r _ _ => ringOk r && decide (e < 4)
  | .quiesceDrainLimit t | .targetReply t _ _ => targetOk t
  | .endProgram lr _ _ | .rafterNop lr _ _ | .mxLdb lr _ _ | .mxMm lr _ _ | .stLoad lr _ _ _ | .stLoadRunahead lr _ _
  | .runaheadLoadEnd lr _ _ | .stStore lr _ _ _ | .stStoreDownpipe lr _ _ | .stStoreComp lr _ _ _ | .stDrain lr _ _ _
  | .stDrainComp lr _ _ _ | .downpipeAck lr | .lowerTierAccessFail lr _ | .atSplice lr | .spliceLateTimeout ⟨lr, _⟩ | .programFetch lr
  | .vxKernel lr _ _ | .sheafResident lr _ | .kernelDone lr | .vxDwconv lr _ _ | .vxPool lr _ _ | .vxResamp lr _ _ | .vxBoxdec lr _ _
  | .vxNms lr _ _ | .threadNop lr _ _ | .threadEnd lr _ _ | .spec lr _ _ | .bra lr _ _ | .brany lr _ _ | .ifBegin lr _ _
  | .elseFlip lr _ _ | .endIf lr _ _ | .fadd lr _ _ | .fsub lr _ _ | .fmul lr _ _ | .ffma lr _ _ | .fdiv lr _ _ | .fmax lr _ _
  | .fmin lr _ _ | .fcmp lr _ _ | .fabs lr _ _ | .fneg lr _ _ | .hadd lr _ _ | .hmul lr _ _ | .hfma lr _ _ | .hmax lr _ _
  | .hmin lr _ _ | .iadd lr _ _ | .isub lr _ _ | .imul lr _ _ | .andBits lr _ _ | .orBits lr _ _ | .xorBits lr _ _ | .shl lr _ _
  | .shr lr _ _ | .sar lr _ _ | .icmp lr _ _ | .selc lr _ _ | .mov lr _ _ | .cvtf lr _ _ | .cvti lr _ _ | .exp2 lr _ _
  | .log2 lr _ _ | .rcp lr _ _ | .rsqrt lr _ _ | .rand lr _ _ | .shfl lr _ _ | .sred lr _ _ | .ld lr _ _ | .st lr _ _
  | .atFwd lr _ _ | .atBwd lr _ _ | .atDec lr _ _ | .walkerEnd lr | .kvAppend lr _ _ | .kvEdit lr _ _ | .kvConf lr _ _
  | .reservedRafterOpcode lr _ _ | .reservedThreadOpcode lr _ _ => rafterOk lr
  | .dramTempSample q t => stackOk q && decide (t < 256)
  | .loopbackStart q _ | .loopbackDone q _ | .memInjectArm q _ | .peakClr q _ => stackOk q
  | .channelRetrainRequest q c _ | .migrationGranuleCopy q c => stackOk q && decide (c < 32)
  | .channelRetrainEnd q p result => stackOk q && decide (p < 34 ∧ result < 3)
  | .portBringUp p _ far => portOk p && far.all laneOk
  | .hello p _ _ _ x => portOk p && x.lanes.all laneOk
  | .bringUpStepTimeout p _ | .bringUpDone p | .beatFlit p _ _ | .failNotice p _ _ _ | .laneRepairTimeout p
  | .peerApertureRequest p _ _ _ => portOk p
  | .flitReceive p f => portOk p && laneOk f.lane && decide (f.payload.length = 200)
  | .lanePropose p _ _ lanes | .laneAccept p _ _ lanes => portOk p && lanes.all laneOk
  | .portDown p lane => portOk p && (match lane with | some l => laneOk l | none => true)
  | .gutterWrite i _ _ _ _ | .gutterRead i _ | .gutterStale i | .gutterPointerMismatch i => gutterOk i
  | .errorLineRise e => e.wf
  | .coolantCondition cause _ => decide (1 ≤ cause ∧ cause ≤ 3)
  | .beatEdge _ | .missingEdge | .beatLoss | .internalBeat | .freeRidge | .reclaim | .phaseDeadline _ | .kvRollbackDone
  | .crsResume _ | .crsAbort _ | .crsSwapReq _ | .shadowSetWrite _ _ | .timedEnable _ | .timedDisable _ | .beatSrcChange _
  | .biasSetDone | .aptInvalDone | .funcPowerDown _ | .funcPowerUp _ | .cohModeWrite _ | .hdmMoveRequest _ | .hdmHostAccess _ _
  | .linkTrained _ | .linkLeaveL0 | .linkDownTimeout | .hostrstAssert | .viralReceived | .hostLossSelfReset | .reattach
  | .attachResume _ | .thcInjectArm _ | .scrubRead _ | .slotSendStart _ | .transferHeader _ _ | .sendComplete _
  | .receiveComplete _ _ | .dispatchPlan _ | .commitReserveStart | .peerApertureReply _ _ | .sarkBlocks _ | .sarkSeal _ | .sarkAck _
  | .snapshotSaveDone _ _ | .snapshotLoadDone _ | .restoreDone _ _ | .hostCopyDone _ _ _ _ | .flashFault | .svlPairWrite _
  | .svlHotWrite _ | .svlCtrlWrite _ | .mergeWindowClose | .fltStatusClear _ | .fltInjectArm _ | .fltInjectDisarm _ | .aliveToggle
  | .setLimit _ _ | .setRamp _ _ | .setTarget _ _ | .setCool _ _ | .setTherm _ _ | .setFatal _ _ | .setCal _ _ | .drawSample _ _ _
  | .overdrawStep _ | .valveUpdate _ _ _ | .thermalSample _ _ _ _ | .hardwareTrip | .vbatSample _ | .refCheck _ | .powerOn _
  | .standbyGood | .selfTestPass _ _ _ | .railSequence | .railFail | .railRetry | .powerGood | .j1Overvoltage | .j1Undervoltage
  | .standbyLoss | .modrstAssert | .bootIdentity _ | .bootManifest | .bootCache | .offer _ | .requestUpdate | .offerVerify _
  | .offerWindowClose | .bootLoad | .cacheWriteDone | .bootConfig _ | .bootAlias | .ready | .watchdogExpiry | .getVersion
  | .getCapabilities | .negotiateAlgorithms | .getDigests | .getCertificate _ _ | .challenge _ | .getMeasurements _ _ | .keyAdd _ _
  | .keyRevoke _ _ | .keyClear _ _ | .firmwareUpdate _ | .activateFirmware | .ptpMessage _ _ | .ppsEdge | .modrstRelease
  | .ridgeIntervalEnd | .hostSnoop _ | .reservedParapetOpcode _ _ | .spdmUnsupportedRequest _ => true

end Sys2Proof
end

