-- ==== Sys2Proof/Safety.lean ====
section
/-! DEFINITION. What counts as a safe state and a safe step of the block, in the terms the claims use. -/

namespace Sys2Proof.Machine

/-- The keys of a sparse map rise strictly. -/
def SMap.rising {α : Type} : SMap α → Bool
  | [] => true
  | (k, _) :: t => SMap.above k t && SMap.rising t

/-- Every memory the module addresses is in its canonical form (HBM, the lofts, the rafter stores and accumulator memory), and the
register file lists no field twice. -/
structure State.Canon (s : State) : Prop where
  hbm : Memory.wf s.hbm = true
  loft : Memory.wf s.loft = true
  rstore : Memory.wf s.rstore = true
  acc : SMap.wf (0 : W32) s.acc = true
  regs : SMap.rising s.regs = true

/-- The hub rails are up and boot has reported ready: every register and command of the hub die answers. -/
def State.hubUp (s : State) : Prop := s.power.hubRails = true ∧ s.ready = true

/-- Every main rail is up and boot has reported ready. -/
def State.coreUp (s : State) : Prop := s.power.hubRails = true ∧ s.power.coreRails = true ∧ s.ready = true

/-- Every register field that `fs` does not name reads in `t` as in `s`. -/
def State.fieldsKept (s t : State) (fs : List Fld) : Prop := ∀ f : Fld, (∀ g ∈ fs, f.key ≠ g.key) → t.getF f = s.getF f

/-- `t` differs from `s` in the register fields `fs` and in nothing else. -/
def State.onlyFields (s t : State) (fs : List Fld) : Prop := s.fieldsKept t fs ∧ { t with regs := s.regs } = s

/-- Sheaf `g` of rafter `lr` is resident in the kernel of the running course as `sh`, its next instruction is `w` of opcode `op`, which
breaks no rule of its own (R242, R243), every thread holds its registers, no fault injection waits, and no word of the rafter stores, of
accumulator memory or of the sheaf's registers holds inverted check bits. -/
structure State.ThreadRuns (s : State) (lr g op : Nat) (w : W64) (k : Kernel) (sh : Sheaf) : Prop where
  core : s.coreUp
  rafts : SMap.rising s.rafts = true
  next : ∃ c : Course, s.threadAt lr g op w = some (c, k, sh)
  sound : broken (thCodes (regsOf k.regs) op w) = []
  threads : sh.regs.length = 64 ∧ ∀ r ∈ sh.regs, r.length = regsOf k.regs
  bits : sh.active.length = 64
  quiet : s.inj = none
  good : s.badStore = [] ∧ s.badAcc = [] ∧ sh.bad = []

/-- `sh'` is `sh` past one instruction that wrote register `d` of every active thread `t` with `f t`. -/
def Sheaf.wrote (sh sh' : Sheaf) (d : Nat) (f : Nat → W32) : Prop :=
  sh'.g = sh.g ∧ sh'.pc = sh.pc + 1 ∧ sh'.active = sh.active ∧ sh'.stack = sh.stack ∧ sh'.bad = sh.bad ∧
    ∀ t i : Nat, t < 64 → sh'.reg t i = if sh.live t = true ∧ i = d then f t else sh.reg t i

/-- Operand B of thread `t` of `sh` in instruction `w`: IMM as `imm` reads it where IMMB is set, else register B (R242). -/
def Sheaf.operandB (sh : Sheaf) (w : W64) (imm : W64 → W32) (t : Nat) : W32 := if thImmB w = true then imm w else sh.reg t (thB w)

/-- R501: the words of a gutter in the order in which its consumer reads them. -/
def Gutter.words (g : Gutter) : List GWord := (match g.r with | some r => g.bank r | none => []) ++ g.fill

/-- R501: a closed bank holds a word; the bank the consumer reads holds one too and is not the one being filled; with none, the bank
that is not filled is empty and open. -/
def Gutter.ok (g : Gutter) : Prop :=
  (g.fillClosed = true → g.fill ≠ []) ∧
    match g.r with
    | some r => r = !g.f ∧ g.bank r ≠ []
    | none => g.bank (!g.f) = [] ∧ (if g.f then g.closed0 else g.closed1) = false

/-- The registers whose write does more than its fields' access codes say, each by a rule of its own: CRS_CTRL, CRS_SWAP, CRS_RESUME,
CRS_ABORT, HIF_CTRL, HIF_HDM, HIF_FUNC_EN, HIF_ATTACH, FLT_STATUS, FLT_INJECT, SEC_BOOT_CTRL, THC_INJECT, SVL_CTRL, SVL_PAIR, SVL_HOT, the
rings' HIF_RING_SQ, HIF_RING_CQ and HIF_RING_CFG, the stacks' MEM_TEMP, MEM_LOOP, MEM_INJECT and MEM_LCH_STAT, and the ports' LNK_CTRL. -/
def ownRule (a : Nat) : Bool :=
  decide (a ∈ [0x10000, 0x10040, 0x10048, 0x1004C, 0x20000, 0x20010, 0x20044, 0x20064, 0x40000, 0x40040, 0x60014, 0xC0000, 0xE0000, 0xE0030,
      0xE0034] ∨
    (0x28000 ≤ a ∧ a < 0x30000 ∧ a % 0x20 ∈ [0, 8, 0x10]) ∨
    (0x2000000 ≤ a ∧ a < 0x3400000 ∧ (a % 0x100000 ∈ [4, 0x10, 0x18] ∨
      (0x100 ≤ a % 0x100000 ∧ a % 0x100000 < 0x300 ∧ a % 0x10 = 0))) ∨
    (0x3800000 ≤ a ∧ a < 0x3A00000 ∧ a % 0x10000 = 0))

/-- A step that goes on: neither a fault nor a refusal. -/
def goesOn (o : Out) : Prop := ∃ t, o = .next t

end Sys2Proof.Machine
end

