-- ==== Sys2Proof/Certificates/Slice0/Obligations.lean ====
section
/-! DEFINITION. The statements for the provers. Each docstring says what its statement says and which rule of the manual it formalises; the
list with titles, tiers and citations is OBLIGATIONS.json. -/

open Sys2Proof Sys2Proof.Machine

/-- A step runs the command at the front of the queue (95_what_each_step_holds.md). -/
def Obligations.StepRunsTheFrontCommand : Prop :=
  ∀ (c : Instr) (rest : List Instr) (s : State), step { s with pending := c :: rest } = exec c { s with pending := rest }

/-- On an empty queue a step lets one nanosecond pass (the model's choice, log entry 2): the time base counts it, faster or slower by one
every 10,000 ns while a PTP offset is slewed off; with J1 off the calendar alone counts (R565, R575, R586, 02_beat_and_courses.md). -/
def Obligations.EmptyQueueTicks : Prop :=
  ∀ s : State, s.pending = [] →
    (s.working = none → s.power.step = .off → step s = .next { s with now := s.now + 1, calNs := s.calNs + 1 }) ∧
    (s.working = none → s.power.step ≠ .off → step s = .next { s with
      now := s.now + 1
      timeBase := (s.timeBase + (if s.now % 10000 ≠ 0 ∨ s.boot.slew = 0 then 1 else if 0 < s.boot.slew then 2 else 0)) % 2 ^ 64
      calNs := s.calNs + 1
      boot := { s.boot with slew := if s.now % 10000 ≠ 0 ∨ s.boot.slew = 0 then s.boot.slew
        else if 0 < s.boot.slew then s.boot.slew - 1 else s.boot.slew + 1 } }) ∧
    (s.Canon → ∃ t, step s = .next t ∧ t.now = s.now + 1 ∧ t.pending = [])

/-- Reset leaves every register field at its reset value, HBM all zero and no command waiting (R10, R353, 17_module_interface.md). That no
course runs or waits, the rings are fresh and no command waits is the model's (log entry 49), and that the main rails are down, before step 3
of power-on, its reading (log entry 5). -/
def Obligations.ResetLeaves : Prop :=
  (∀ f : Fld, State.reset.getF f = f.reset) ∧ (∀ a : Nat, State.reset.hbm.byte a = 0) ∧
  State.reset.pending = [] ∧ State.reset.course = none ∧ State.reset.waiting = [] ∧ (∀ r : Nat, State.reset.ring r = Ring.fresh) ∧
  State.reset.power.hubRails = false ∧ State.reset.power.coreRails = false

/-- The state after reset is canonical (R24, R353). -/
def Obligations.ResetIsCanonical : Prop :=
  State.reset.Canon

/-- Every step keeps the canonical form of the memories and of the register file (R24, R10, 01_organisation.md). -/
def Obligations.StepKeepsCanonical : Prop :=
  ∀ s t : State, s.Canon → step s = .next t → t.Canon

/-- No command touches the queue or the model clock (R586, 95_what_each_step_holds.md). That a command takes no time of its own is the
model's choice (log entry 2). -/
def Obligations.CommandsKeepQueueAndClock : Prop :=
  ∀ (i : Instr) (s t : State), s.Canon → exec i s = .next t → t.pending = s.pending ∧ t.now = s.now

/-- No command stops the block (95_what_each_step_holds.md). -/
def Obligations.NoCommandStops : Prop :=
  ∀ (i : Instr) (s : State), goesOn (exec i s)

/-- A write of 1 to CRS_RESUME.RESUME clears HELD, at once or, while a rollback runs, when it ends (R76, R298, 02_beat_and_courses.md). -/
def Obligations.ResumeClearsHeld : Prop :=
  ∀ (s : State) (v : W32), s.hubUp → s.Canon →
    (v.getLsbD 0 = true → s.getF Reg.CRS_KV_STAT.ROLLBACK = 0 →
      ∃ t, exec (.crsResume v) s = .next t ∧ t.getF Reg.CRS_STATUS.HELD = 0 ∧ s.onlyFields t [Reg.CRS_STATUS.HELD]) ∧
    (v.getLsbD 0 = true → s.getF Reg.CRS_KV_STAT.ROLLBACK ≠ 0 → exec (.crsResume v) s = .next { s with resumePend := true } ∧
      (s.power.coreRails = true → ∃ t, exec .kvRollbackDone { s with resumePend := true } = .next t ∧ t.getF Reg.CRS_STATUS.HELD = 0 ∧
        t.getF Reg.CRS_KV_STAT.ROLLBACK = 0 ∧ t.resumePend = false)) ∧
    (v.getLsbD 0 = false → exec (.crsResume v) s = .next s)

/-- A write of 1 to CRS_ABORT.ABORT fails the course in progress with status 0x86 (R74, R76, R77, R59, R86). That the step's vote is dropped
at the failure is the model's reading (log entry 56). -/
def Obligations.AbortFailsTheCourse : Prop :=
  ∀ (s : State) (v : W32), s.hubUp → s.Canon → v.getLsbD 0 = true →
    (∀ c : Course, s.course = some c → c.failed = false → ∃ t, exec (.crsAbort v) s = .next t ∧
      t.course = some { c with failed := true, working := false, running := [] } ∧ t.rafts = [] ∧ t.waiting = [] ∧ t.kv = s.kvUndo ∧
      t.stepVote = false ∧ t.getF Reg.CRS_STATUS.HELD = 1 ∧ t.getF Reg.CRS_STATUS.IDLE = 1 ∧ t.getF Reg.CRS_LAST.STATUS = 0x86 ∧
      t.getF Reg.CRS_LAST.COMMITTED = 0 ∧ t.getF Reg.CRS_LAST.SUPPRESSED = 0 ∧ t.getF Reg.CRS_LAST.COURSE = c.counter % 2 ^ 48 ∧
      t.getF Reg.CRS_COURSE_COUNT.COURSES = s.getF Reg.CRS_COURSE_COUNT.COURSES) ∧
    (s.course = none → exec (.crsAbort v) s = .next s) ∧
    (∀ c : Course, s.course = some c → c.failed = true → exec (.crsAbort v) s = .next s)

/-- CRS_SWAP.REQ validates the shadow set and leaves the active set alone (R81, 02_beat_and_courses.md). -/
def Obligations.SwapRequestIsValidated : Prop :=
  ∀ (s : State) (v : W32), s.hubUp → s.Canon → v.getLsbD 0 = true →
    (s.getF Reg.CRS_STATUS.SWAP_PEND ≠ 0 → exec (.crsSwapReq v) s = .next s) ∧
    (s.getF Reg.CRS_STATUS.SWAP_PEND = 0 → ∃ t, exec (.crsSwapReq v) s = .next t ∧
      (if s.swapSets.setOk.1 = true then
        t.getF Reg.CRS_STATUS.SWAP_PEND = 1 ∧ t.getF Reg.CRS_SWAP.REQ = 1 ∧ t.swapAt = s.now
      else t.getF Reg.CRS_STATUS.SWAP_ERR = 1 ∧ t.getF Reg.CRS_STATUS.SWAP_PEND = 0) ∧
      ∀ f ∈ [Reg.CRS_ACT_IMGTAB.COUNT, Reg.CRS_ACT_IMGTAB.BASE, Reg.CRS_ACT_TTAB.COUNT, Reg.CRS_ACT_TTAB.BASE, Reg.CRS_ACT_PLAN.BASE,
        Reg.CRS_ACT_RECIPE.COUNT, Reg.CRS_ACT_RECIPE.BASE, Reg.CRS_ACT_LEDGER.BASE, Reg.CRS_EPOCH.EPOCH],
        t.getF f % 2 ^ f.w = s.getF f % 2 ^ f.w)

/-- While SWAP_PEND is set, writes to RWS fields are ignored and set SHADOW_WERR (R83). -/
def Obligations.PendingSwapGuardsTheShadowSet : Prop :=
  ∀ (s : State) (v : W64) (a : Nat), s.hubUp → s.Canon → a ∈ [0x10100, 0x10108, 0x10110, 0x10118, 0x10128] →
    s.getF Reg.CRS_STATUS.SWAP_PEND ≠ 0 → ∃ t, exec (.shadowSetWrite a v) s = .next t ∧ exec (.registerWrite a 8 v) s = .next t ∧
      t.getF Reg.CRS_STATUS.SHADOW_WERR = 1 ∧ s.onlyFields t [Reg.CRS_STATUS.SHADOW_WERR]

/-- A write to the shadow set stores its RWS fields and changes nothing else (R10, R13, R87). -/
def Obligations.ShadowSetWriteStores : Prop :=
  ∀ (s : State) (v : W64), s.hubUp → s.Canon → s.getF Reg.CRS_STATUS.SWAP_PEND = 0 →
    (∀ x ∈ [(0x10100, Reg.CRS_SET_IMGTAB.COUNT, Reg.CRS_SET_IMGTAB.BASE), (0x10108, Reg.CRS_SET_TTAB.COUNT, Reg.CRS_SET_TTAB.BASE),
        (0x10118, Reg.CRS_SET_RECIPE.COUNT, Reg.CRS_SET_RECIPE.BASE)],
      ∃ t, exec (.shadowSetWrite x.1 v) s = .next t ∧ t.getF x.2.1 = v.toNat % 2 ^ 12 ∧ t.getF x.2.2 = v.toNat / 2 ^ 12 ∧
        s.onlyFields t [x.2.1, x.2.2]) ∧
    (∀ x ∈ [(0x10110, Reg.CRS_SET_PLAN.BASE), (0x10128, Reg.CRS_SET_LEDGER.BASE)],
      ∃ t, exec (.shadowSetWrite x.1 v) s = .next t ∧ t.getF x.2 = v.toNat / 2 ^ 12 ∧ s.onlyFields t [x.2])

/-- What a write to CRS_CTRL does (R78, R52, R76). -/
def Obligations.TimedControl : Prop :=
  ∀ (s : State) (v : W32), s.hubUp → s.Canon → s.getF Reg.CRS_HOLDMAX.HOLD_BEATS ≠ 0 →
    ∀ c ∈ [Instr.timedEnable v, Instr.timedDisable v, Instr.beatSrcChange v], ∃ t, exec c s = .next t ∧
      t.getF Reg.CRS_CTRL.ENABLE = v.toNat % 2 ∧ t.getF Reg.CRS_CTRL.BEAT_SRC = v.toNat / 2 % 4 ∧
      t.getF Reg.CRS_CTRL.BEAT_PORT = v.toNat / 8 % 32 ∧
      t.getF Reg.CRS_CTRL.TIMED_RING =
        (if s.getF Reg.CRS_CTRL.ENABLE = 0 then v.toNat / 65536 % 1024 else s.getF Reg.CRS_CTRL.TIMED_RING) ∧
      t.course = s.course ∧
      t.waiting = (if s.getF Reg.CRS_CTRL.ENABLE ≠ 0 ∧ v.toNat % 2 = 0 then [] else s.waiting) ∧
      t.getF Reg.CRS_STATUS.LOCKED = s.getF Reg.CRS_STATUS.LOCKED ∧
      (s.getF Reg.CRS_STATUS.LOCKED ≠ 0 → s.getF Reg.CRS_CTRL.BEAT_SRC ≠ v.toNat / 2 % 4 → t.getF Reg.CRS_STATUS.HOLDOVER ≠ 0)

/-- An edge within 2 % of the expected one is accepted, any other is a glitch, and the third missing edge begins holdover (R47, R50, R52, R432). -/
def Obligations.BeatEdgesWhileLocked : Prop :=
  ∀ s : State, s.coreUp → s.Canon → s.getF Reg.CRS_STATUS.LOCKED ≠ 0 → s.getF Reg.CRS_STATUS.HOLDOVER = 0 →
    (∀ frac : Nat, s.getF Reg.CRS_CTRL.BEAT_SRC = 0 →
      exec (.beatEdge frac) s = .next (if s.beat.expected (s.now * 1000 + frac % 1000) = true
        then { s with beat := { s.beat with lastEdge := 7 * (s.now * 1000 + frac % 1000), missed := 0 } } else s)) ∧
    (∀ frac : Nat, s.getF Reg.CRS_CTRL.BEAT_SRC ≠ 0 → exec (.beatEdge frac) s = .next s) ∧
    (∀ p n frac : Nat, p < 32 → s.getF Reg.CRS_CTRL.BEAT_SRC = 1 → s.getF Reg.CRS_CTRL.BEAT_PORT = p → s.getF (Reg.LNK_STAT.UP p) ≠ 0 →
      ∃ e, e = (s.now - s.getF (Reg.LNK_LAT.ONEWAY_NS p)) * 1000 + frac % 1000 ∧
        exec (.beatFlit p n frac) s = .next (if s.beat.expected e = true
          then { s with beat := { s.beat with lastEdge := 7 * e, missed := 0 } } else s)) ∧
    (s.beat.missed < 2 → exec .missingEdge s = .next
      { s with beat := { s.beat with missed := s.beat.missed + 1, lastEdge := s.beat.lastEdge + s.beat.period7 } }) ∧
    (2 ≤ s.beat.missed → s.getF Reg.CRS_HOLDMAX.HOLD_BEATS ≠ 0 → ∃ t, exec .missingEdge s = .next t ∧
      t.getF Reg.CRS_STATUS.HOLDOVER = 1 ∧ t.getF Reg.CRS_STATUS.LOCKED = s.getF Reg.CRS_STATUS.LOCKED ∧ t.course = s.course ∧
      t.beat.holdBeats = 0 ∧ t.beat.period7 = s.beat.period7)

/-- The module locks at the eighth even edge near the nominal period, and otherwise not. The lock holds the mean period, loads the beat
number the time base or the BEAT flit gives, and makes the first ridge (R48, R49, R51, R86, R432). -/
def Obligations.LockAtTheEighthEdge : Prop :=
  ∀ (s : State) (frac : Nat), s.coreUp → s.Canon → s.getF Reg.CRS_STATUS.LOCKED = 0 → s.getF Reg.CRS_STATUS.HOLDOVER = 0 →
    ∀ (c : Instr) (e : Nat) (loaded : Option Nat),
      ((s.getF Reg.CRS_CTRL.BEAT_SRC = 0 ∧ c = .beatEdge frac ∧ e = s.now * 1000 + frac % 1000 ∧ loaded = none) ∨
        ∃ p n : Nat, p < 32 ∧ s.getF Reg.CRS_CTRL.BEAT_SRC = 1 ∧ s.getF Reg.CRS_CTRL.BEAT_PORT = p ∧ s.getF (Reg.LNK_STAT.UP p) ≠ 0 ∧
          c = .beatFlit p n frac ∧ e = (s.now - s.getF (Reg.LNK_LAT.ONEWAY_NS p)) * 1000 + frac % 1000 ∧ loaded = some n) →
      ∀ (edges : List Nat) (sum nom : Nat), edges = (e :: s.beat.edges).take 8 → sum = edges.headD 0 - edges.getLastD 0 →
        nom = s.getF Reg.CRS_BEAT_NOM.NOM_NS →
      ∀ even : Bool, (even = true ↔ edges.length = 8 ∧ 700000000 ≤ sum ∧ sum ≤ 70000000000 ∧
        ∀ i < 7, ((7 * ((edges.getD i 0 : Int) - edges.getD (i + 1) 0) - sum).natAbs * 10000 ≤ sum)) →
      (even = false → exec c s = .next { s with beat := { s.beat with edges := edges } }) ∧
      (even = true → 500 * (7000 * nom) < ((sum : Int) - 7000 * nom).natAbs * 1000000 → ∃ t, exec c s = .next t ∧
        t.getF Reg.CRS_STATUS.LOCK_ERR = 1 ∧ s.onlyFields { t with beat := s.beat } [Reg.CRS_STATUS.LOCK_ERR] ∧
        t.beat = { s.beat with edges := edges }) ∧
      (even = true → ((sum : Int) - 7000 * nom).natAbs * 1000000 ≤ 500 * (7000 * nom) → (nom < 100000 ∨ 10000000 < nom) →
        exec c s = .next { s with beat := { s.beat with edges := edges } }) ∧
      (even = true → ((sum : Int) - 7000 * nom).natAbs * 1000000 ≤ 500 * (7000 * nom) → 100000 ≤ nom → nom ≤ 10000000 →
        ∃ (t : State) (k m : Nat), exec c s = .next t ∧ t.getF Reg.CRS_STATUS.LOCKED = 1 ∧ t.beat.period7 = sum ∧
          t.getF Reg.CRS_BEAT_PERIOD.PERIOD_NS = k % 2 ^ 24 ∧ 2 * (7000 * (k : Int) - sum).natAbs ≤ 7000 ∧
          (2 * (7000 * (k : Int) - sum).natAbs = 7000 → k % 2 = 0) ∧
          t.getF Reg.CRS_BEAT_COUNT.BEATS = (match loaded with | some n => n % 2 ^ 32 | none => m % 2 ^ 64) ∧
          2 * ((nom : Int) * m - s.timeBase).natAbs ≤ nom ∧ (2 * ((nom : Int) * m - s.timeBase).natAbs = nom → m % 2 = 0) ∧
          t.getF Reg.CRS_RIDGE_COUNT.RIDGES = (s.getF Reg.CRS_RIDGE_COUNT.RIDGES + 1) % 2 ^ 64 ∧ t.beat.ridgeAt = s.now ∧
          t.beat.lastEdge = 7 * e ∧ t.beat.edges = [] ∧ t.beat.missed = 0 ∧ (t.getF Reg.FLT_LINES.LINES).testBit 41 = false)

/-- An internal beat counts; at the last beat of a window, or with no course, it carries a ridge: the window closes, the ridge's actions take
place and the next window opens (`Obligations.RidgesAndWindows` says what each of these two does). What closing a window does: a course
whose work has ended completes, with its watch record, its record of the placement log, the scale ledger, PAR, CRS_LAST and its completion
record; one whose work has not ended fails with 0x81 (R49, R51, R55, R57, R59, R60, R71, R72, R75, R113, R213, R214, R219, R221, R227, R378). -/
def Obligations.InternalBeats : Prop :=
  (∀ s : State, s.coreUp → s.Canon → s.getF Reg.CRS_STATUS.LOCKED ≠ 0 → s.getF Reg.CRS_STATUS.HOLDOVER = 0 →
    s.beat.pulling = false → s.beat.holdBeats = 0 → (∀ p < 32, s.getF (Reg.LNK_CTRL.BEAT_OUT p) = 0) →
    (∀ c : Course, s.course = some c → 1 < c.beatsLeft →
      ∃ t, exec .internalBeat s = .next t ∧
        t.getF Reg.CRS_BEAT_COUNT.BEATS = (s.getF Reg.CRS_BEAT_COUNT.BEATS + 1) % 2 ^ 64 ∧
        s.fieldsKept t [Reg.CRS_BEAT_COUNT.BEATS] ∧
        t = { s with regs := t.regs, course := some { c with beatsLeft := c.beatsLeft - 1 } }) ∧
    ((∀ c : Course, s.course = some c → c.beatsLeft ≤ 1) → ∃ t v : State, exec .internalBeat s = .next t ∧
      v = (s.bump Reg.CRS_BEAT_COUNT.BEATS 1).closeWindow.bump Reg.CRS_RIDGE_COUNT.RIDGES 1 ∧
      t = ({ v with beat := { v.beat with ridgeAt := s.now } }.ridgeActions .closing).openWindow.announceAll ∧
      t.getF Reg.CRS_BEAT_COUNT.BEATS = (s.getF Reg.CRS_BEAT_COUNT.BEATS + 1) % 2 ^ 64 ∧
      t.getF Reg.CRS_RIDGE_COUNT.RIDGES = (s.getF Reg.CRS_RIDGE_COUNT.RIDGES + 1) % 2 ^ 64 ∧ t.beat.ridgeAt = s.now ∧
      (s.waiting = [] → t.course = none ∧ t.waiting = [] ∧ t.getF Reg.CRS_STATUS.IDLE = 1))) ∧
  (∀ u : State, u.course = none → u.closeWindow = u) ∧
  (∀ (u : State) (c : Course), u.Canon → u.course = some c → c.failed = false → c.working = false → u.programsDone c = true →
    u.slotsDone c = true → u.build = none →
    ∀ (last result : Bool) (q : Req) (n : Nat) (watch log : List Byte), last = c.img.stepLast → result = u.voteResult c → q = c.req → n = u.tensors c →
      watch = u.watchRecord c result → log = placementLog c u.saves 0 →
      (last = true → ∀ x ∈ sectorsOf (u.ledgerAddr 0) (128 * (n + 1)), u.sectorState x = .clean) →
      rangesClear [(u.ledgerAddr 0, 128 * (n + 1)), (u.getF Reg.CRS_ACT_RECIPE.BASE * 4096 + c.img.recipeIdx * 128, 128), (u.planBase, 128),
        (u.watchAddr c, watch.length), (u.logSlot, log.length)] = true →
      u.watchAddr c + watch.length ≤ u.hbmCap → u.logSlot + log.length ≤ u.hbmCap → u.ledgerAddr 0 + 128 * (n + 1) ≤ u.hbmCap →
      ∃ t, u.closeWindow = t ∧ t.course = none ∧ t.rafts = [] ∧
        t.getF Reg.CRS_COURSE_COUNT.COURSES = (u.getF Reg.CRS_COURSE_COUNT.COURSES + 1) % 2 ^ 64 ∧
        t.getF Reg.CRS_LAST.STATUS = 0 ∧ t.getF Reg.CRS_LAST.COURSE = c.counter % 2 ^ 48 ∧
        t.getF Reg.CRS_LAST.COMMITTED = bit (last && !result) ∧ t.getF Reg.CRS_LAST.SUPPRESSED = bit (last && result) ∧
        t.getF Reg.CRS_STATUS.HELD = u.getF Reg.CRS_STATUS.HELD ∧
        t.getF Reg.CRS_NUM_WATCH.RECORDS = (u.getF Reg.CRS_NUM_WATCH.RECORDS + 1) % 2 ^ 64 ∧ t.hbm.bytes (u.watchAddr c) watch.length = watch ∧
        t.getF Reg.CRS_PLC_LOGPOS.POS = (u.getF Reg.CRS_PLC_LOGPOS.POS + 1) % 2 ^ 64 ∧ t.hbm.bytes u.logSlot log.length = log ∧
        (last = false → t.getF Reg.CRS_NUM_STATE.PAR = u.getF Reg.CRS_NUM_STATE.PAR ∧
          t.hbm.bytes (u.ledgerAddr 0) (128 * (n + 1)) = u.hbm.bytes (u.ledgerAddr 0) (128 * (n + 1)) ∧ t.saves = u.saves) ∧
        (last = true → t.saves = [] ∧ t.amax = [] ∧ t.stepVote = false ∧ t.stepsDone = u.stepsDone + 1 ∧
          t.getF Reg.CRS_NUM_VOTE.VALID = 1 ∧ t.getF Reg.CRS_NUM_VOTE.RESULT = bit result ∧
          t.getF Reg.CRS_NUM_STATE.PAR = (if result then u.getF Reg.CRS_NUM_STATE.PAR else 1 - u.getF Reg.CRS_NUM_STATE.PAR) ∧
          t.getF Reg.CRS_NUM_SKIPS.SKIPS = (if result then (u.getF Reg.CRS_NUM_SKIPS.SKIPS + 1) % 2 ^ 64 else u.getF Reg.CRS_NUM_SKIPS.SKIPS) ∧
          ∀ i ≤ n, ∀ k : KindE, k = u.kind c.img.recipeIdx (u.ledger i).kind →
            t.ledger i = if result then (u.ledger i).skip k else (u.ledger i).commit k (SMap.look none i u.amax)) ∧
        (∀ r : Nat, q.ring = r → SMap.rising u.rings = true → (u.ring r).outstanding = [q] → (u.ring r).waitingRecs = [] →
          (u.ring r).endRec = none → (u.ring r).cqDead = false → u.suspended = false → u.hostReachable = true →
          u.getF (Reg.HIF_RING_CFG.IRQ_EN r) = 0 →
          t.hostOut = u.hostOut ++ [⟨u.getF (Reg.HIF_RING_CQ.BASE r) * 4096 + u.getF (Reg.HIF_RING_PTR.CQ_TAIL r) * 32,
            (CRec.mk r 0 q.seq q.tag q.opcode (c.counter % 2 ^ 48 + bit (last && !result) * 2 ^ 48 + bit (last && result) * 2 ^ 49)).bytes
              (u.ring r).cqPhase (u.getF (Reg.HIF_RING_PTR.SQ_HEAD r)) u.timeBase⟩])) ∧
  (∀ (u : State) (c : Course), u.Canon → u.course = some c → c.failed = false → c.working = false →
    (u.programsDone c && u.slotsDone c) = false → (u.getF Reg.FLT_FATAL.FATAL).testBit 45 = false →
    ∃ t, u.closeWindow = t ∧ t.course = none ∧ t.rafts = [] ∧ t.waiting = [] ∧ t.getF Reg.CRS_LAST.STATUS = 0x81 ∧
      t.getF Reg.CRS_LAST.COURSE = c.counter % 2 ^ 48 ∧ t.getF Reg.CRS_STATUS.HELD = 1 ∧
      t.getF Reg.CRS_COURSE_COUNT.COURSES = u.getF Reg.CRS_COURSE_COUNT.COURSES ∧
      (u.mergeAt = none → (t.getF Reg.FLT_STATUS.STATUS).testBit 45 = true)) ∧
  (∀ (u : State) (c : Course), u.Canon → u.course = some c → c.failed = true →
    ∃ t, u.closeWindow = t ∧ t.course = none ∧ t.rafts = [] ∧ t.waiting = u.waiting ∧
      t.getF Reg.CRS_COURSE_COUNT.COURSES = u.getF Reg.CRS_COURSE_COUNT.COURSES ∧ t.getF Reg.CRS_LAST.STATUS = u.getF Reg.CRS_LAST.STATUS)

/-- At the loss of the beat the module unlocks, latches bit 41, fails the course with 0x82, withdraws the courses that wait, and makes no
beat (R53, R58, R73, R75, R76). -/
def Obligations.BeatIsLost : Prop :=
  ∀ s : State, s.coreUp → s.Canon → s.getF Reg.CRS_STATUS.LOCKED ≠ 0 → s.getF Reg.CRS_STATUS.HOLDOVER ≠ 0 →
    s.getF Reg.CRS_HOLDMAX.HOLD_BEATS ≤ s.beat.holdBeats + 1 →
    ∃ t, exec .beatLoss s = .next t ∧ exec .internalBeat s = .next t ∧
      t.getF Reg.CRS_STATUS.LOCKED = 0 ∧ t.getF Reg.CRS_STATUS.HOLDOVER = 0 ∧ t.getF Reg.CRS_STATUS.IDLE = 1 ∧ t.course = none ∧
      t.getF Reg.CRS_BEAT_COUNT.BEATS = s.getF Reg.CRS_BEAT_COUNT.BEATS ∧
      t.getF Reg.CRS_RIDGE_COUNT.RIDGES = s.getF Reg.CRS_RIDGE_COUNT.RIDGES ∧ (t.getF Reg.FLT_LINES.LINES).testBit 41 = true ∧
      (s.mergeAt = none → (s.getF Reg.FLT_LINES.LINES).testBit 41 = false → (t.getF Reg.FLT_STATUS.STATUS).testBit 41 = true) ∧
      ((s.getF Reg.FLT_FATAL.FATAL).testBit 41 = false → ∀ c : Course, s.course = some c → c.failed = false →
        t.getF Reg.CRS_LAST.STATUS = 0x82 ∧ t.getF Reg.CRS_LAST.COURSE = c.counter % 2 ^ 48 ∧ t.getF Reg.CRS_STATUS.HELD = 1 ∧ t.waiting = [])

/-- The events of a window: free ridge, end of the ridge interval, deadline; the actions of a ridge (a swap, spare maps, map-outs, a window
move); and the opening of the course at the head of the queue, checked again first (R31, R32, R49, R55, R56, R57, R58, R69, R72, R82, R84,
R102, R174, R335, R349, R413, R540, R542). -/
def Obligations.RidgesAndWindows : Prop :=
  (∀ s : State, s.coreUp → s.Canon →
    (s.getF Reg.CRS_STATUS.LOCKED = 0 →
      exec .freeRidge s = .next ({ s with beat := { s.beat with ridgeAt := s.now } }.ridgeActions .free) ∧
      ∃ t, exec .freeRidge s = .next t ∧ t.getF Reg.CRS_RIDGE_COUNT.RIDGES = s.getF Reg.CRS_RIDGE_COUNT.RIDGES ∧
        t.getF Reg.CRS_BEAT_COUNT.BEATS = s.getF Reg.CRS_BEAT_COUNT.BEATS ∧ t.beat.ridgeAt = s.now ∧
        (s.course = none → t.course = none)) ∧
    (s.getF Reg.CRS_STATUS.LOCKED ≠ 0 → exec .freeRidge s = .next s) ∧
    (∀ c : Course, s.repairsEnd.alive = some c → c.working = false → c.reserve = false → c.running ≠ [] →
      exec .ridgeIntervalEnd s = .next { s.repairsEnd with course := some { c with working := true } }.countStarts) ∧
    (∀ (c : Course) (p d : Nat), s.alive = some c → c.img.deadlines[p]? = some d → s.beat.ridgeAt + d ≤ s.now →
      (s.programsDone c && s.slotsDone c) = false → exec (.phaseDeadline p) s = .next (s.raiseLine 45) ∧
        ((s.getF Reg.FLT_FATAL.FATAL).testBit 45 = false → ∃ t, exec (.phaseDeadline p) s = .next t ∧ t.working = none ∧
          t.getF Reg.CRS_LAST.STATUS = 0x81 ∧ t.getF Reg.CRS_LAST.COURSE = c.counter % 2 ^ 48 ∧ t.getF Reg.CRS_STATUS.HELD = 1 ∧
          t.waiting = [] ∧ (s.mergeAt = none → (t.getF Reg.FLT_STATUS.STATUS).testBit 45 = true))) ∧
    (∀ (c : Course) (p d : Nat), s.alive = some c → c.img.deadlines[p]? = some d →
      (s.now < s.beat.ridgeAt + d ∨ (s.programsDone c && s.slotsDone c) = true) → exec (.phaseDeadline p) s = .next s)) ∧
  (∀ (s t : State) (sort : RidgeSort), s.Canon → t = s.ridgeActions sort →
    (s.getF Reg.CRS_STATUS.SWAP_PEND ≠ 0 → s.swapAt + 10000 ≤ s.now →
      t.getF Reg.CRS_STATUS.SWAP_PEND = 0 ∧ t.getF Reg.CRS_SWAP.REQ = 0 ∧
      t.getF Reg.CRS_EPOCH.EPOCH = (s.getF Reg.CRS_EPOCH.EPOCH + 1) % 2 ^ 32 ∧
      ∀ x ∈ [(Reg.CRS_ACT_IMGTAB.COUNT, Reg.CRS_SET_IMGTAB.COUNT), (Reg.CRS_ACT_IMGTAB.BASE, Reg.CRS_SET_IMGTAB.BASE),
        (Reg.CRS_ACT_TTAB.COUNT, Reg.CRS_SET_TTAB.COUNT), (Reg.CRS_ACT_TTAB.BASE, Reg.CRS_SET_TTAB.BASE),
        (Reg.CRS_ACT_PLAN.BASE, Reg.CRS_SET_PLAN.BASE), (Reg.CRS_ACT_RECIPE.COUNT, Reg.CRS_SET_RECIPE.COUNT),
        (Reg.CRS_ACT_RECIPE.BASE, Reg.CRS_SET_RECIPE.BASE), (Reg.CRS_ACT_LEDGER.BASE, Reg.CRS_SET_LEDGER.BASE)],
        t.getF x.1 = s.getF x.2 % 2 ^ x.1.w) ∧
    ((s.getF Reg.CRS_STATUS.SWAP_PEND = 0 ∨ s.now < s.swapAt + 10000) →
      s.getF Reg.CRS_EPOCH.EPOCH = t.getF Reg.CRS_EPOCH.EPOCH ∧ t.getF Reg.CRS_STATUS.SWAP_PEND = s.getF Reg.CRS_STATUS.SWAP_PEND ∧
      ∀ f ∈ [Reg.CRS_ACT_IMGTAB.COUNT, Reg.CRS_ACT_IMGTAB.BASE, Reg.CRS_ACT_TTAB.COUNT, Reg.CRS_ACT_TTAB.BASE, Reg.CRS_ACT_PLAN.BASE,
        Reg.CRS_ACT_RECIPE.COUNT, Reg.CRS_ACT_RECIPE.BASE, Reg.CRS_ACT_LEDGER.BASE], t.getF f = s.getF f) ∧
    (s.power.fatal ≠ none → t.getF Reg.CRS_ACT_SPARE.SPARE_VER = s.getF Reg.CRS_ACT_SPARE.SPARE_VER ∧ t.mapOutDue = s.mapOutDue ∧ t.lam = s.lam ∧
      ∀ n < 4, t.getF (raftMapFld n) = s.getF (raftMapFld n)) ∧
    (∀ n i k d : Nat, n < 4 → i < 8 → k < 9 → d < 9 → s.power.fatal = none → s.reslate = [(0, 9 * n + k, false)] → s.raftPhys n i = k →
      s.getF (Reg.TRS_RAFT_STAT.STATE n k) = 2 → s.getF (Reg.TRS_RAFT_STAT.STATE n d) = 1 →
      (∀ m < d, s.getF (Reg.TRS_RAFT_STAT.STATE n m) ≠ 1) →
      (∀ l < 32, l ≠ 8 * n + i → s.raftInService (l / 8) (l % 8) = true) → (∀ p < 24, s.decInService p = true) →
      (∀ m < 4, s.getF (Reg.TRS_CE_LIMIT.LIMIT m) = 0) →
      t.getF (Reg.TRS_RAFT_STAT.STATE n d) = 0 ∧ t.getF (Reg.TRS_RAFT_STAT.LOGICAL n d) = i ∧ t.raftPhys n i = d ∧ t.raftInService n i = true ∧
      t.getF (Reg.TRS_RAFT_STAT.STATE n k) = 2 ∧ t.reslate = [] ∧
      t.getF Reg.CRS_ACT_SPARE.SPARE_VER = (s.getF Reg.CRS_ACT_SPARE.SPARE_VER + 1) % 2 ^ 32 ∧
      t.getF Reg.CRS_SET_SPARE.SPARE_VER = (s.getF Reg.CRS_ACT_SPARE.SPARE_VER + 1) % 2 ^ 32) ∧
    (s.mapOutDue = [] → s.getF Reg.HIF_HDM.MOVE_PEND ≠ 0 → t.getF Reg.HIF_HDM.MOVE_PEND = 0 ∧
      (s.getF Reg.HIF_CTRL.COH_MODE = 0 → s.shared = [] → s.getF Reg.HIF_HDM.BASE_GIB + 16 ≤ s.hbmCap / 2 ^ 30 →
        t.hdmBase = s.getF Reg.HIF_HDM.BASE_GIB) ∧
      ((s.getF Reg.HIF_CTRL.COH_MODE ≠ 0 ∨ s.shared ≠ [] ∨ s.hbmCap / 2 ^ 30 < s.getF Reg.HIF_HDM.BASE_GIB + 16) → t.hdmBase = s.hdmBase ∧
        t.getF Reg.HIF_HDM.BASE_GIB = s.hdmBase % 2 ^ 10 ∧ t.getF Reg.HIF_STATUS.HDM_ERR ≠ 0)) ∧
    (∀ (lam : Nat) (dead : Bool), s.mapOutDue = [(lam, dead)] → s.power.fatal = none → (∀ b < 32, (s.getF Reg.FLT_FATAL.FATAL).testBit b = false) →
      lam < 640 →
      t.mapOutDue = [] ∧
      (s.getF (Reg.MEM_STAT.OUT (lam % 20)) < 16 → t.lam = s.lam ++ [lam] ∧
        t.getF Reg.GEN_SPARES.CHAN_OUT = (s.getF Reg.GEN_SPARES.CHAN_OUT + 1) % 2 ^ 10 ∧
        t.getF Reg.GEN_SPARES.HBM_CAP = (s.getF Reg.GEN_SPARES.HBM_CAP - 3) % 2 ^ 12 ∧
        t.getF (Reg.MEM_STAT.OUT (lam % 20)) = s.getF (Reg.MEM_STAT.OUT (lam % 20)) + 1 ∧
        t.getF (Reg.MEM_LCH_STAT.STATE (lam % 20) (lam / 20)) = 3 ∧
        t.getF (Reg.MEM_LCH_STAT.OUT_SEQ (lam % 20) (lam / 20)) = (s.lam.length + 1) % 2 ^ 10) ∧
      (16 ≤ s.getF (Reg.MEM_STAT.OUT (lam % 20)) → t.lam = s.lam ∧ t.getF Reg.GEN_SPARES.HBM_CAP = s.getF Reg.GEN_SPARES.HBM_CAP ∧
        t.getF Reg.GEN_SPARES.CHAN_OUT = s.getF Reg.GEN_SPARES.CHAN_OUT ∧ lam % 20 ∈ t.hbmDegraded))) ∧
  (∀ s t : State, s.Canon → t = s.openWindow →
    ((s.waiting = [] ∨ (∃ (a : Adm) (rest : List Adm), s.waiting = a :: rest ∧ s.now < a.notBefore) ∨ s.getF Reg.CRS_STATUS.HELD ≠ 0) →
      t.getF Reg.CRS_STATUS.IDLE = 1 ∧ t.course = s.course ∧ t.waiting = s.waiting ∧ s.onlyFields t [Reg.CRS_STATUS.IDLE]) ∧
    (∀ (a : Adm) (rest : List Adm) (r : Verdict × State), s.waiting = a :: rest → a.notBefore ≤ s.now → s.getF Reg.CRS_STATUS.HELD = 0 →
      s.getF Reg.CRS_STATUS.LOCKED ≠ 0 → r = { s with waiting := rest }.tryAdmit a.img.idx (a.req.word 2) a.pred 0 →
      (∀ code : Nat, ((r.1.status ≠ 0 ∧ code = 0x47) ∨ (r.1.status = 0 ∧
          s.batchStatus (s.getF Reg.CRS_COURSE_COUNT.COURSES % 2 ^ 48) = some code ∧ (code = 0xA0 ∨ code = 0xA1))) →
        t.getF Reg.CRS_LAST.STATUS = code ∧ t.getF Reg.CRS_LAST.COURSE = s.getF Reg.CRS_COURSE_COUNT.COURSES % 2 ^ 48 ∧
        t.getF Reg.CRS_LAST.COMMITTED = 0 ∧ t.getF Reg.CRS_STATUS.HELD = 1 ∧ t.getF Reg.CRS_STATUS.IDLE = 1 ∧ t.waiting = [] ∧ t.working = none ∧
        t.getF Reg.CRS_COURSE_COUNT.COURSES = s.getF Reg.CRS_COURSE_COUNT.COURSES ∧
        ∃ d : Course, t.course = some d ∧ d.failed = true ∧ d.img = a.img ∧ d.beatsLeft = a.img.beats ∧ d.req = a.req) ∧
      (r.1.status = 0 → s.batchStatus (s.getF Reg.CRS_COURSE_COUNT.COURSES % 2 ^ 48) = none →
        t.rstore = [] ∧ t.rsWritten = [] ∧ t.loft = [] ∧ t.acc = [] ∧ t.dieEvents = [] ∧ t.modEvents = [] ∧ (∀ lr : Nat, t.raft lr = Raft.fresh) ∧
        t.getF Reg.CRS_COURSE_COUNT.COURSES = s.getF Reg.CRS_COURSE_COUNT.COURSES ∧
        ∃ d : Course, t.course = some d ∧ d.img = r.1.img ∧ d.req = a.req ∧ d.counter = s.getF Reg.CRS_COURSE_COUNT.COURSES ∧
          d.beatsLeft = r.1.img.beats ∧ d.working = false ∧
          (d.failed = false → t.getF Reg.CRS_STATUS.IDLE = 0 ∧ t.waiting.map Adm.req = rest.map Adm.req ∧ t.kvUndo = s.kv ∧
            d.running = (List.range 32).filter (fun l => decide (s.progOf r.1.img l ≠ 0)) ∧
            (r.1.img.stepFirst = true → t.getF (Reg.TRS_VEC_SEED.SEED 0) = r.1.img.seed % 2 ^ 64)))))

/-- A COURSE_RUN is checked as it is read: refused with the status of the check, or it waits for its window. What the check finds in its
order, and CRS_ADM_STATUS, CRS_ADM_END and CRS_ADM_WIN after it (R64, R67, R68, R82, R85, R112, R124). That one read while HELD is set or
ENABLE is 0, or from a ring that shuts down, ends with 0x48 is the model's reading (log entry 38). -/
def Obligations.CourseRunIsAdmittedOrRefused : Prop :=
  (∀ (s : State) (r : Nat) (q : Req), s.hubUp → s.nextReq r 0x01 = some q →
    (((s.markStarted q).getF Reg.CRS_STATUS.HELD ≠ 0 ∨ (s.markStarted q).getF Reg.CRS_CTRL.ENABLE = 0) →
      exec (.courseRun r) s = .next ((s.markStarted q).finish q 0x48)) ∧
    ((s.markStarted q).getF Reg.CRS_STATUS.HELD = 0 → (s.markStarted q).getF Reg.CRS_CTRL.ENABLE ≠ 0 →
      ∃ (u : State) (a : Verdict × State), u = s.markStarted q ∧
        a = u.admitNext (wbits (q.word 1) 0 12) (q.word 2) u.prev (u.nextOpening - u.now) ∧
        (a.1.status ≠ 0 → exec (.courseRun r) s = .next ((a.2.reportAdmission a.1).finish q a.1.status)) ∧
        (a.1.status = 0 → s.Canon → s.getF (Reg.HIF_RING_STAT.ACTIVE r) ≠ 0 → ∃ t, exec (.courseRun r) s = .next t ∧
          t.waiting = s.waiting ++ [⟨q, a.1.img, s.now + 25000, s.prev⟩] ∧
          t.prev = some ⟨a.1.img.stepLast, false⟩ ∧ t.regs = (a.2.reportAdmission a.1).regs) ∧
        (a.1.status = 0 → s.Canon → s.getF (Reg.HIF_RING_STAT.ACTIVE r) = 0 → exec (.courseRun r) s =
          .next ({ a.2.reportAdmission a.1 with prev := some ⟨a.1.img.stepLast, true⟩ }.finish q 0x48)))) ∧
  (∀ (s t : State) (v : Verdict), s.Canon → t = s.reportAdmission v → t.getF Reg.CRS_ADM_STATUS.STATUS = v.status % 2 ^ 8 ∧
    t.getF Reg.CRS_ADM_END.END_NS = v.endNs % 2 ^ 64 ∧ t.getF Reg.CRS_ADM_WIN.WIN_NS = v.winNs % 2 ^ 64 ∧
    s.fieldsKept t [Reg.CRS_ADM_STATUS.STATUS, Reg.CRS_ADM_END.END_NS, Reg.CRS_ADM_WIN.WIN_NS]) ∧
  (∀ (s : State) (idx : Nat) (seed : W64) (prev : Option PrevCourse) (ns : Nat), s.Canon →
    (s.getF Reg.CRS_STATUS.SWAP_PEND ≠ 0 → s.swapAt + 10000 ≤ s.now + ns →
      (s.admitNext idx seed prev ns).1 = (s.swapSets.tryAdmit idx seed prev ns).1 ∧
      ∀ f ∈ [Reg.CRS_ACT_IMGTAB.BASE, Reg.CRS_ACT_PLAN.BASE, Reg.CRS_ACT_RECIPE.BASE, Reg.CRS_ACT_TTAB.BASE, Reg.CRS_ACT_LEDGER.BASE],
        (s.admitNext idx seed prev ns).2.getF f % 2 ^ f.w = s.getF f % 2 ^ f.w) ∧
    ((s.getF Reg.CRS_STATUS.SWAP_PEND = 0 ∨ s.now + ns < s.swapAt + 10000) → s.admitNext idx seed prev ns = s.tryAdmit idx seed prev ns) ∧
    (s.getF Reg.CRS_STATUS.LOCKED = 0 → (s.tryAdmit idx seed prev ns).1.status = 0x45) ∧
    (s.getF Reg.CRS_STATUS.LOCKED ≠ 0 → s.getF Reg.CRS_ACT_IMGTAB.COUNT < idx → (s.tryAdmit idx seed prev ns).1.status = 0x46) ∧
    (s.getF Reg.CRS_STATUS.LOCKED ≠ 0 → idx ≤ s.getF Reg.CRS_ACT_IMGTAB.COUNT →
      ∀ (a : Nat) (i : Image) (ps : List Phase) (read1 read2 : List (Nat × Nat)) (v : Verdict), a = s.imgAddr idx → i = s.imageAt a idx seed →
      ps = s.phases a → v = (s.tryAdmit idx seed prev ns).1 →
      read1 = [(s.getF Reg.CRS_ACT_IMGTAB.BASE * 4096 + 8 * idx, 8), (a, 64), (s.imgCost a, 32 * s.imgPhases a)] → read2 = s.imgRegions i →
      ((∃ x ∈ read1, s.hbmCap < x.1 + x.2) → v.status = 0x46) ∧
      ((∃ x ∈ read1, ∃ q ∈ sectorsOf x.1 x.2, s.sectorState q = .bad) → v.status = 0x46) ∧
      (s.imgFormOk a = false → v.status = 0x46) ∧
      ((∀ x ∈ read1, x.1 + x.2 ≤ s.hbmCap ∧ ∀ q ∈ sectorsOf x.1 x.2, s.sectorState q = .clean) → s.imgFormOk a = true →
        (i.epoch ≠ s.getF Reg.CRS_EPOCH.EPOCH → v.status = 0x43) ∧
        (i.epoch = s.getF Reg.CRS_EPOCH.EPOCH →
          ((∃ x ∈ read2, s.hbmCap < x.1 + x.2 ∨ ∃ q ∈ sectorsOf x.1 x.2, s.sectorState q = .bad) → v.status = 0x46) ∧
          (s.imgNamesOk i ps = false → v.status = 0x46) ∧
          ((∀ x ∈ read2, x.1 + x.2 ≤ s.hbmCap ∧ ∀ q ∈ sectorsOf x.1 x.2, s.sectorState q ≠ .bad) → s.imgNamesOk i ps = true →
            (i.stepFirst = false → (∀ p : PrevCourse, prev = some p → p.stepLast = true ∨ p.endedBad = true) → v.status = 0x49) ∧
            ((i.stepFirst = true ∨ ∃ p : PrevCourse, prev = some p ∧ p.stepLast = false ∧ p.endedBad = false) →
              ((s.usesDegraded i = true ∨ s.hbmCap < i.footprint * 2 ^ 20 ∨ s.envFits i = false) → v.status = 0x42) ∧
              (s.usesDegraded i = false → i.footprint * 2 ^ 20 ≤ s.hbmCap → s.envFits i = true →
                (i.stepLast = true → i.hasTt = true → (∀ x ∈ s.slotsOf i, x.kind ≠ 4) → v.status = 0x70) ∧
                ((i.stepLast = false ∨ i.hasTt = false ∨ ∃ x ∈ s.slotsOf i, x.kind = 4) →
                  ((∀ p ∈ ps, (s.phaseTime p).isSome = true) → (∃ p ∈ ps, s.powerLimit ns < p.power) → v.status = 0x44) ∧
                  (∀ p : Phase, ps = [p] → p.power ≤ s.powerLimit ns → p.dep = 0xFFFF → ∀ d : Rat, s.phaseTime p = some d →
                    ∀ w : Rat, w = mkRat (i.beats * s.beat.period7 * 9995) 70000000 →
                    (w < 25000 + d + 5000 + 15000 → v.status = 0x40 ∧ v.endNs = (25000 + d + 5000 + 15000 : Rat).ceil.toNat) ∧
                    (25000 + d + 5000 + 15000 ≤ w → (∃ x ∈ s.slotsOf i, w < mkRat x.stop 1 + 15000) → v.status = 0x41) ∧
                    (25000 + d + 5000 + 15000 ≤ w → (s.slotsOf i).any (s.slotBad? w) = false → v.status = 0 ∧
                      v.endNs = (25000 + d + 5000 + 15000 : Rat).ceil.toNat ∧ v.winNs = w.floor.toNat ∧
                      v.img = { i with starts := [25000], deadlines := [(25000 + d + 5000 : Rat).ceil.toNat] }))))))))))

/-- REGISTER_WRITE stores, ignores or clears by the access code of each field (R8, R9, R10, R12, 00_scope.md). -/
def Obligations.RegisterWritesFollowTheirAccessCode : Prop :=
  ∀ (s : State) (a n : Nat) (v : W64), s.hubUp → s.Canon →
    (((n ≠ 4 ∧ n ≠ 8) ∨ a % n ≠ 0) → exec (.registerWrite a n v) s = .next s) ∧
    (rawArea a = false → findReg a = none → exec (.registerWrite a n v) s = .next s) ∧
    (∀ r : RegRow, rawArea a = false → findReg a = some r → r.width ≠ 8 * n → exec (.registerWrite a n v) s = .next s) ∧
    (∀ r : RegRow, rawArea a = false → findReg a = some r → r.width = 8 * n → n = 4 ∨ n = 8 → a % n = 0 →
      (a < 0x1000000 ∨ s.power.coreRails = true) → (r.fields.map fun x => x.2.key).Nodup →
      (r.shadow = false → ownRule a = false → ∃ t, exec (.registerWrite a n v) s = .next t ∧
        s.onlyFields t ((r.fields.filter fun x => decide (x.1 = .RW ∨ x.1 = .W1C)).map fun x => x.2) ∧
        ∀ x ∈ r.fields,
          (x.1 = .RW → t.getF x.2 = bitsOf v.toNat (x.2.key % 64) x.2.w) ∧
          (x.1 = .W1C → s.getF x.2 < 2 ^ x.2.w → ∀ b : Nat,
            (t.getF x.2).testBit b = ((s.getF x.2).testBit b && !(bitsOf v.toNat (x.2.key % 64) x.2.w).testBit b)) ∧
          (x.1 ≠ .RW → x.1 ≠ .W1C → t.getF x.2 = s.getF x.2)) ∧
      (r.shadow = true → s.getF Reg.CRS_STATUS.SWAP_PEND = 0 → ∃ t, exec (.registerWrite a n v) s = .next t ∧
        s.onlyFields t (r.fields.map fun x => x.2) ∧ ∀ x ∈ r.fields, t.getF x.2 = bitsOf v.toNat (x.2.key % 64) x.2.w)) ∧
    exec (.registerWrite 0 4 v) s = .next s ∧
    (∃ t, exec (.registerWrite 0x10004 4 v) s = .next t ∧ t.getF Reg.CRS_BEAT_NOM.NOM_NS = v.toNat % 2 ^ 24 ∧
      s.onlyFields t [Reg.CRS_BEAT_NOM.NOM_NS]) ∧
    (∃ t, exec (.registerWrite 0x10008 4 v) s = .next t ∧ t.getF Reg.CRS_HOLDMAX.HOLD_BEATS = v.toNat % 2 ^ 16 ∧
      s.onlyFields t [Reg.CRS_HOLDMAX.HOLD_BEATS]) ∧
    (∃ t, exec (.registerWrite 0x1000C 4 v) s = .next t ∧
      s.onlyFields t [Reg.CRS_STATUS.SWAP_ERR, Reg.CRS_STATUS.SHADOW_WERR, Reg.CRS_STATUS.LOCK_ERR] ∧
      (∀ x ∈ [(4, Reg.CRS_STATUS.SWAP_ERR), (5, Reg.CRS_STATUS.SHADOW_WERR), (6, Reg.CRS_STATUS.LOCK_ERR)],
        s.getF x.2 ≤ 1 → t.getF x.2 = if v.toNat.testBit x.1 then 0 else s.getF x.2))

/-- The checks of a submission doorbell and what it moves (R117, R118, R120, R122). -/
def Obligations.SubmissionDoorbell : Prop :=
  ∀ (s : State) (r : Nat) (v : W64), s.hubUp → s.Canon → r < 1024 →
    (∀ (n : Nat) (i : Instr), n ≠ 8 → (i = .sqDoorbell (r * 0x1000) n v ∨ i = .cqDoorbell (r * 0x1000 + 8) n v) → ∃ t, exec i s = .next t ∧
      t.getF Reg.HIF_DB_ERR.BADPAGE = 1 ∧ t.getF Reg.HIF_DB_ERR.RING = r ∧ { t with regs := s.regs, msiOut := s.msiOut } = s) ∧
    ∃ t, exec (.sqDoorbell (r * 0x1000) 8 v) s = .next t ∧
    (if s.getF (Reg.HIF_RING_STAT.ACTIVE r) = 0 ∨ s.getF (Reg.HIF_RING_STAT.BUSY r) ≠ 0 ∨ s.getF (Reg.HIF_RING_STAT.ERR r) ≠ 0 then
      t.getF Reg.HIF_DB_ERR.DISCARD = 1 ∧ t.getF Reg.HIF_DB_ERR.RING = r ∧
      s.fieldsKept t [Reg.HIF_DB_ERR.DISCARD, Reg.HIF_DB_ERR.RING] ∧ { t with regs := s.regs, msiOut := s.msiOut } = s
    else if wbits v 32 10 ≠ r ∨ wbits v 42 22 ≠ 0 ∨ s.ringSize r ≤ wbits v 0 16 then
      t.getF Reg.HIF_DB_ERR.BADPAGE = 1 ∧ t.getF Reg.HIF_DB_ERR.RING = r ∧
      s.fieldsKept t [Reg.HIF_DB_ERR.BADPAGE, Reg.HIF_DB_ERR.RING] ∧ { t with regs := s.regs, msiOut := s.msiOut } = s
    else if (wbits v 16 16 + 65536 - (s.ring r).lastSeq) % 65536 ≠
        (wbits v 0 16 + s.ringSize r - s.getF (Reg.HIF_RING_PTR.SQ_TAIL r)) % s.ringSize r then
      t.getF Reg.HIF_DB_ERR.MISMATCH = 1 ∧ t.getF (Reg.HIF_RING_STAT.ERR r) = 1 ∧
      (s.hostReachable = true ∨ s.suspended = true → t.getF (Reg.HIF_RING_STAT.ERR_CODE r) = 0x56) ∧
      t.getF (Reg.HIF_RING_PTR.SQ_TAIL r) = s.getF (Reg.HIF_RING_PTR.SQ_TAIL r)
    else
      t.getF (Reg.HIF_RING_PTR.SQ_TAIL r) = wbits v 0 16 ∧ s.fieldsKept t [Reg.HIF_RING_PTR.SQ_TAIL r] ∧
      t = { s with regs := t.regs, rings := (s.setRing r { s.ring r with lastSeq := wbits v 16 16, sqDoorbell := v }).rings })

/-- The checks of a completion-head doorbell, and its head after an enable (R119). -/
def Obligations.CompletionHeadDoorbell : Prop :=
  ∀ (s : State) (r : Nat) (v : W64), s.hubUp → s.Canon → r < 1024 →
    (∃ t, exec (.cqDoorbell (r * 0x1000 + 8) 8 v) s = .next t ∧
    (if s.getF (Reg.HIF_RING_STAT.ACTIVE r) = 0 ∧ s.getF (Reg.HIF_RING_STAT.BUSY r) = 0 then
      t.getF Reg.HIF_DB_ERR.DISCARD = 1 ∧ s.fieldsKept t [Reg.HIF_DB_ERR.DISCARD, Reg.HIF_DB_ERR.RING] ∧
      { t with regs := s.regs, msiOut := s.msiOut } = s
    else if wbits v 32 10 ≠ r ∨ wbits v 16 16 ≠ 0 ∨ wbits v 42 22 ≠ 0 ∨ s.ringSize r ≤ wbits v 0 16 then
      t.getF Reg.HIF_DB_ERR.BADPAGE = 1 ∧ s.fieldsKept t [Reg.HIF_DB_ERR.BADPAGE, Reg.HIF_DB_ERR.RING] ∧
      { t with regs := s.regs, msiOut := s.msiOut } = s
    else if (s.ring r).unconsumed < (wbits v 0 16 + s.ringSize r - (s.ring r).cqHead) % s.ringSize r then
      t.getF Reg.HIF_DB_ERR.CQHEAD = 1 ∧ s.fieldsKept t [Reg.HIF_DB_ERR.CQHEAD, Reg.HIF_DB_ERR.RING] ∧
      { t with regs := s.regs, msiOut := s.msiOut } = s
    else t = s.setRing r { s.ring r with
      cqHead := wbits v 0 16, cqDoorbell := v,
      unconsumed := (s.ring r).unconsumed - (wbits v 0 16 + s.ringSize r - (s.ring r).cqHead) % s.ringSize r })) ∧
    (∀ w : W32, SMap.rising s.rings = true → s.getF (Reg.HIF_RING_CFG.ENABLE r) = 0 → s.getF (Reg.HIF_RING_STAT.ACTIVE r) = 0 →
      s.getF (Reg.HIF_RING_STAT.BUSY r) = 0 → w.getLsbD 0 = true → s.getF (Reg.HIF_RING_SQ.BASE r) ≠ 0 → s.getF (Reg.HIF_RING_CQ.BASE r) ≠ 0 →
      4 ≤ bitsOf w.toNat 3 4 → bitsOf w.toNat 1 2 ≠ 3 → ∃ t, exec (.ringEnable r w) s = .next t ∧
        t.getF (Reg.HIF_RING_STAT.ACTIVE r) = 1 ∧ (t.ring r).cqHead = 0)

/-- A fresh descriptor is taken; a stale or failed read is counted, and the 65th ends the ring with 0x52 (R110, R114, R121, R122). -/
def Obligations.DescriptorReads : Prop :=
  ∀ (s : State) (r : Nat) (ans : Option (List W64)), s.hubUp → s.Canon → s.canFetch r = true →
    ∀ (c : Instr) (u : State), (c = .descriptorFetch r ans ∧ s.pickRing = some r ∧ u = s.noteRead r) ∨
      (c = .descriptorReread r ans ∧ (s.ring r).tries ≠ 0 ∧ u = s) →
    (∀ d : List W64, ans = some d → s.fresh r d = true → s.hostReachable = true →
      ((u.askSlot r).takeDescriptor r d).getF (Reg.HIF_RING_PTR.SQ_HEAD r) =
        (s.getF (Reg.HIF_RING_PTR.SQ_HEAD r) + 1) % s.ringSize r % 2 ^ 16 ∧ exec c s = .next ((u.askSlot r).takeDescriptor r d)) ∧
    (∀ d : List W64, ans = some d → s.fresh r d = true → s.hostReachable = true → s.rejectStatus ⟨r, d, false⟩ = none →
      ∃ t, exec c s = .next t ∧ t.getF (Reg.HIF_RING_PTR.EXP_SEQ r) = (s.getF (Reg.HIF_RING_PTR.EXP_SEQ r) + 1) % 2 ^ 16 ∧
        s.fieldsKept t [Reg.HIF_RING_PTR.SQ_HEAD r, Reg.HIF_RING_PTR.EXP_SEQ r] ∧
        t.cxlOut = s.cxlOut ++
          [⟨.rdCurr, s.getF (Reg.HIF_RING_SQ.BASE r) * 64 + s.getF (Reg.HIF_RING_PTR.SQ_HEAD r), 1⟩] ∧
        t = { u with regs := t.regs, cxlOut := t.cxlOut, rings := (s.setRing r { s.ring r with
          tries := 0, outstanding := (s.ring r).outstanding ++ [⟨r, d, false⟩],
          expPhase := if (s.getF (Reg.HIF_RING_PTR.SQ_HEAD r) + 1) % s.ringSize r = 0 then !(s.ring r).expPhase
            else (s.ring r).expPhase }).rings }) ∧
    (ans.filter (fun d => s.hostReachable && s.fresh r d) = none → (s.ring r).tries < 64 →
      ∃ t, exec c s = .next t ∧ t.getF Reg.HIF_REREADS.REREADS = (s.getF Reg.HIF_REREADS.REREADS + 1) % 2 ^ 64 ∧
        s.fieldsKept t [Reg.HIF_REREADS.REREADS] ∧
        t = { u with regs := t.regs, cxlOut := t.cxlOut, rings := (s.setRing r { s.ring r with tries := (s.ring r).tries + 1 }).rings }) ∧
    (ans.filter (fun d => s.hostReachable && s.fresh r d) = none → (s.ring r).tries = 64 →
      ∃ t, exec c s = .next t ∧ t.getF (Reg.HIF_RING_STAT.ERR r) = 1 ∧
        (s.hostReachable = true → t.getF (Reg.HIF_RING_STAT.ERR_CODE r) = 0x52))

/-- A NOP completes with 0x00: one 32-byte record at the next completion slot (R111, R113, R114, R115, R116).
The free DETAIL is the model's (log entry 7). -/
def Obligations.CompletionRecord : Prop :=
  ∀ (s : State) (r : Nat) (q : Req), s.hubUp → s.Canon → q.ring = r → q.opcode = 0 → q.started = false →
    (s.ring r).outstanding = [q] → (s.ring r).waitingRecs = [] → (s.ring r).endRec = none → (s.ring r).cqDead = false →
    s.suspended = false → s.hostReachable = true → s.getF (Reg.HIF_RING_CFG.IRQ_EN r) = 0 → SMap.rising s.rings = true →
    ∃ t, exec (.nop r) s = .next t ∧
      t.hostOut = s.hostOut ++ [⟨s.getF (Reg.HIF_RING_CQ.BASE r) * 4096 + s.getF (Reg.HIF_RING_PTR.CQ_TAIL r) * 32,
        (CRec.mk r 0 q.seq q.tag 0 (Config.openDetail s.freeCtr)).bytes (s.ring r).cqPhase (s.getF (Reg.HIF_RING_PTR.SQ_HEAD r)) s.timeBase⟩] ∧
      t.getF (Reg.HIF_RING_PTR.CQ_TAIL r) = (s.getF (Reg.HIF_RING_PTR.CQ_TAIL r) + 1) % s.ringSize r % 2 ^ 16 ∧
      t.cxlOut = s.cxlOut ++ [⟨.wrCur, s.getF (Reg.HIF_RING_CQ.BASE r) * 64 + s.getF (Reg.HIF_RING_PTR.CQ_TAIL r) / 2, 1⟩] ∧
      s.fieldsKept t [Reg.HIF_RING_PTR.CQ_TAIL r] ∧ (t.ring r).outstanding = [] ∧ (t.ring r).unconsumed = (s.ring r).unconsumed + 1 ∧
      { t with regs := s.regs, rings := s.rings, hostOut := s.hostOut, cxlOut := s.cxlOut, freeCtr := s.freeCtr } = s

/-- Enabling a ring, disabling it, signalling when IRQ_EN is set, and the end of its shut-down (R123, R124, R125, R126). -/
def Obligations.RingEnableAndShutdown : Prop :=
  ∀ (s : State) (r : Nat) (v : W32), s.hubUp → s.Canon → r < 1024 →
    (s.getF (Reg.HIF_RING_CFG.ENABLE r) = 0 → s.getF (Reg.HIF_RING_STAT.ACTIVE r) = 0 → s.getF (Reg.HIF_RING_STAT.BUSY r) = 0 →
      v.getLsbD 0 = true → (v.getLsbD 7 = false ∨ (s.ring r).unsignalled ≤ bitsOf v.toNat 24 8) →
      ∃ t, exec (.ringEnable r v) s = .next t ∧ t.getF (Reg.HIF_RING_CFG.ENABLE r) = 1 ∧
        t.getF (Reg.HIF_RING_CFG.SIZE_LOG2 r) = bitsOf v.toNat 3 4 ∧ t.getF (Reg.HIF_RING_CFG.CLASS r) = bitsOf v.toNat 1 2 ∧
        (if s.getF (Reg.HIF_RING_SQ.BASE r) = 0 ∨ s.getF (Reg.HIF_RING_CQ.BASE r) = 0 ∨ bitsOf v.toNat 3 4 < 4 ∨ bitsOf v.toNat 1 2 = 3 then
          t.getF (Reg.HIF_RING_STAT.ERR r) = 1 ∧ t.getF (Reg.HIF_RING_STAT.ERR_CODE r) = 0x50 ∧ t.getF (Reg.HIF_RING_STAT.ACTIVE r) = 0 ∧
            t.rings = s.rings
        else t.getF (Reg.HIF_RING_STAT.ACTIVE r) = 1 ∧ t.getF (Reg.HIF_RING_PTR.SQ_HEAD r) = 0 ∧ t.getF (Reg.HIF_RING_PTR.SQ_TAIL r) = 0 ∧
          t.getF (Reg.HIF_RING_PTR.CQ_TAIL r) = 0 ∧ t.getF (Reg.HIF_RING_PTR.EXP_SEQ r) = 0 ∧
          t.rings = (s.setRing r (s.ring r).restart).rings)) ∧
    (s.getF (Reg.HIF_RING_CFG.ENABLE r) ≠ 0 → s.getF (Reg.HIF_RING_STAT.ACTIVE r) ≠ 0 → s.getF (Reg.HIF_RING_STAT.BUSY r) = 0 →
      v.getLsbD 0 = false → r ≠ s.getF Reg.CRS_CTRL.TIMED_RING →
      (v.getLsbD 7 = false ∨ (s.ring r).unsignalled ≤ s.getF (Reg.HIF_RING_CFG.COAL r)) → ∃ t, exec (.ringDisable r v) s = .next t ∧
        t.getF (Reg.HIF_RING_CFG.ENABLE r) = 0 ∧ t.getF (Reg.HIF_RING_STAT.ACTIVE r) = 0 ∧ t.getF (Reg.HIF_RING_STAT.BUSY r) = 1 ∧
        s.onlyFields t [Reg.HIF_RING_CFG.ENABLE r, Reg.HIF_RING_CFG.IRQ_EN r, Reg.HIF_RING_STAT.ACTIVE r, Reg.HIF_RING_STAT.BUSY r]) ∧
    (s.getF (Reg.HIF_RING_CFG.ENABLE r) ≠ 0 → s.getF (Reg.HIF_RING_STAT.ACTIVE r) ≠ 0 → v.getLsbD 0 = true → v.getLsbD 7 = true →
      SMap.rising s.rings = true → s.getF (Reg.HIF_RING_CFG.COAL r) < (s.ring r).unsignalled →
      ∃ t, exec (.ringEnable r v) s = .next t ∧ t.msiOut = s.msiOut ++ [s.getF (Reg.HIF_RING_CFG.VECTOR r)] ∧
        (t.ring r).unsignalled = 0 ∧ t.getF (Reg.HIF_RING_CFG.IRQ_EN r) = 1 ∧
        { t with regs := s.regs, msiOut := s.msiOut, rings := s.rings } = s) ∧
    (s.getF (Reg.HIF_RING_STAT.BUSY r) ≠ 0 → s.recordsOut r = true → s.getF (Reg.HIF_RING_CFG.ENABLE r) = 0 →
      ∃ t, exec (.ringShutdownDone r) s = .next t ∧ t.getF (Reg.HIF_RING_STAT.BUSY r) = 0 ∧ t.getF (Reg.HIF_RING_STAT.ERR r) = 0 ∧
        t.getF (Reg.HIF_RING_PTR.SQ_HEAD r) = 0 ∧ t.getF (Reg.HIF_RING_PTR.SQ_TAIL r) = 0 ∧ t.getF (Reg.HIF_RING_PTR.CQ_TAIL r) = 0 ∧
        { t with regs := s.regs, rings := s.rings } = s ∧ t.rings = (s.setRing r (s.ring r).restart).rings)

/-- A record write the host refuses ends the ring with 0x59; the coalescing limit signals the ring's vector (R115, R122, R140). That the
command names the record by its place before the ring's latest, and that CQ_TAIL stays past a lost record, are the model's reading (log
entry 75). -/
def Obligations.CompletionWriteFailsAndCoalescing : Prop :=
  ∀ (s : State) (r : Nat), s.hubUp → s.Canon → SMap.rising s.rings = true →
    (∀ k : Nat, k < (s.ring r).unconsumed → k < (s.ring r).unsignalled → (s.ring r).cqDead = false → s.suspended = false →
      (∃ w ∈ s.hostOut, w.addr = s.getF (Reg.HIF_RING_CQ.BASE r) * 4096 +
        (s.getF (Reg.HIF_RING_PTR.CQ_TAIL r) + s.ringSize r - (k + 1) % s.ringSize r) % s.ringSize r * 32) →
      ∃ t, exec (.cqWriteFail ⟨r, k⟩) s = .next t ∧ t.getF (Reg.HIF_RING_STAT.ERR r) = 1 ∧ t.getF (Reg.HIF_RING_STAT.ERR_CODE r) = 0x59 ∧
        (t.ring r).cqDead = true ∧ (t.ring r).unsignalled + 1 = (s.ring r).unsignalled ∧ t.hostOut.length + 1 = s.hostOut.length ∧
        t.msiOut = s.msiOut) ∧
    (s.getF (Reg.HIF_RING_CFG.IRQ_EN r) ≠ 0 → (s.ring r).unsignalled ≠ 0 →
      ∃ t, exec (.interruptCoalesceTimeout r) s = .next t ∧ t.msiOut = s.msiOut ++ [s.getF (Reg.HIF_RING_CFG.VECTOR r)] ∧
        (t.ring r).unsignalled = 0 ∧ { t with msiOut := s.msiOut, rings := s.rings } = s) ∧
    (s.getF (Reg.HIF_RING_CFG.IRQ_EN r) = 0 → exec (.interruptCoalesceTimeout r) s = .next s)

/-- BIAS_SET and APT_INVAL: what they change at once, what their end changes, and their range errors (R95, R96, R98, R106, R112, R138). -/
def Obligations.BiasAndAperture : Prop :=
  ∀ s : State, s.hubUp →
    (∀ (r : Nat) (q : Req), s.nextReq r 0x20 = some q →
      if 4194304 < wbits (q.word 1) 0 22 + (wbits (q.word 1) 32 22 + 1) ∨ s.getF Reg.HIF_CTRL.COH_MODE ≠ 0 then
        exec (.biasSet r) s = .next ((s.markStarted q).finish q 0x55)
      else ∃ t, exec (.biasSet r) s = .next t ∧ t.biasJobs.length = s.biasJobs.length + 1 ∧ t.rings = (s.markStarted q).rings ∧
        { t with biasJobs := s.biasJobs, shared := s.shared, rings := s.rings } = s ∧
        (∀ p : Nat, p ∈ t.shared ↔ p ∈ s.shared ∨ (wbits (q.word 1) 63 1 = 1 ∧ wbits (q.word 1) 0 22 ≤ p ∧
          p < wbits (q.word 1) 0 22 + (wbits (q.word 1) 32 22 + 1)))) ∧
    (∀ (j : RangeJob) (rest : List RangeJob), s.biasJobs = j :: rest → ∃ sh wl : List Nat,
      exec .biasSetDone s = .next ({ s with
        biasJobs := rest, shared := sh, winLines := wl
        cxlOut := s.cxlOut ++ if j.bias then [] else j.pages.map fun p => CxlReq.mk .rdOwnNoData (64 * p) 64 }.finish j.req 0) ∧
      (∀ p : Nat, p ∈ sh ↔ if j.has p = true then j.bias = true else p ∈ s.shared) ∧
      (∀ l : Nat, l ∈ wl ↔ l ∈ s.winLines ∧ (j.bias = true ∨ j.has (l / 64) = false))) ∧
    (∀ (r : Nat) (q : Req), s.nextReq r 0x21 = some q →
      if s.getF Reg.HIF_APT_CFG.COUNT + 1 < wbits (q.word 1) 0 21 + (wbits (q.word 1) 32 21 + 1) then
        exec (.aptInval r) s = .next ((s.markStarted q).finish q 0x57)
      else ∃ t, exec (.aptInval r) s = .next t ∧ t.aptJobs.length = s.aptJobs.length + 1 ∧
        { t with aptJobs := s.aptJobs, rings := s.rings } = s) ∧
    (∀ (j : RangeJob) (rest : List RangeJob), s.aptJobs = j :: rest →
      (s.aptInFlight.any j.has = true → exec .aptInvalDone s = .next s) ∧
      (s.aptInFlight.any j.has = false → ∃ cache : List (Nat × W64),
        exec .aptInvalDone s = .next ({ s with aptJobs := rest, aptCache := cache }.finish j.req 0) ∧
        (∀ e, e ∈ cache ↔ e ∈ s.aptCache ∧ ¬ (j.first ≤ e.1 ∧ e.1 < j.first + j.count))))

/-- COH_MODE, the window base, host accesses of the window and host snoops (R94, R98, R99, R100, R101, R104). -/
def Obligations.WindowAndCoherence : Prop :=
  ∀ s : State, s.coreUp → s.Canon →
    (∀ v : W32, bitsOf v.toNat 1 1 = s.getF Reg.HIF_CTRL.COH_MODE → s.getF Reg.CRS_CTRL.ENABLE = 0 → s.anyRing = false →
      ∃ t, exec (.cohModeWrite v) s = .next t ∧ t.getF Reg.HIF_CTRL.HL_MODE = v.toNat % 2 ∧ s.onlyFields t [Reg.HIF_CTRL.HL_MODE]) ∧
    (∀ v : W32, (s.getF Reg.CRS_CTRL.ENABLE ≠ 0 ∨ s.anyRing = true) →
      ∃ t, exec (.cohModeWrite v) s = .next t ∧ t.getF Reg.HIF_STATUS.MODE_ERR ≠ 0 ∧ t.getF Reg.HIF_CTRL.HL_MODE = v.toNat % 2 ∧
        s.fieldsKept t [Reg.HIF_STATUS.MODE_ERR, Reg.HIF_CTRL.HL_MODE]) ∧
    (∀ v : W32, bitsOf v.toNat 1 1 ≠ s.getF Reg.HIF_CTRL.COH_MODE → s.getF Reg.CRS_CTRL.ENABLE = 0 → s.anyRing = false →
      ∃ t, exec (.cohModeWrite v) s = .next t ∧ t.getF Reg.HIF_CTRL.COH_MODE = v.toNat / 2 % 2 ∧ t.getF Reg.HIF_CTRL.HL_MODE = v.toNat % 2 ∧
        t.hostLines = [] ∧ s.fieldsKept t [Reg.HIF_CTRL.COH_MODE, Reg.HIF_CTRL.HL_MODE]) ∧
    (∀ v : W64, bitsOf v.toNat 0 10 + 16 ≤ s.hbmCap / 2 ^ 30 → ∃ t, exec (.hdmMoveRequest v) s = .next t ∧
      t.getF Reg.HIF_HDM.BASE_GIB = bitsOf v.toNat 0 10 ∧ t.getF Reg.HIF_HDM.MOVE_PEND = 1 ∧ t.hdmBase = s.hdmBase ∧
      s.onlyFields t [Reg.HIF_HDM.BASE_GIB, Reg.HIF_HDM.MOVE_PEND]) ∧
    (∀ v : W64, s.hbmCap / 2 ^ 30 < bitsOf v.toNat 0 10 + 16 → ∃ t, exec (.hdmMoveRequest v) s = .next t ∧
      t.getF Reg.HIF_STATUS.HDM_ERR ≠ 0 ∧ s.fieldsKept t [Reg.HIF_STATUS.HDM_ERR] ∧ t.hdmBase = s.hdmBase) ∧
    (∀ off : Nat, off % 64 = 0 → off + 64 ≤ 16 * 2 ^ 30 → s.getF Reg.HIF_STATUS.LINK_UP ≠ 0 → s.hdmBase * 2 ^ 30 + off + 64 ≤ s.hbmCap →
      s.sectorState ((s.hdmBase * 2 ^ 30 + off) / 64) = .clean → s.pageShared (off / 4096) = false →
      ∃ t, exec (.hdmHostAccess off (.read 64)) s = .next t ∧
        t.hostReads = s.hostReads ++ [(s.hbm.bytes (s.hdmBase * 2 ^ 30 + off) 64, false)] ∧ t.pageShared (off / 4096) = true ∧
        t.getF Reg.HIF_BIAS_FLIPS.FLIPS = (s.getF Reg.HIF_BIAS_FLIPS.FLIPS + 1) % 2 ^ 64 ∧ s.fieldsKept t [Reg.HIF_BIAS_FLIPS.FLIPS] ∧
        (s.hdmDb = false → t.winLines = s.winLines) ∧
        { t with regs := s.regs, hostReads := s.hostReads, shared := s.shared, winLines := s.winLines } = s) ∧
    (∀ line : Nat, (s.getF Reg.HIF_CTRL.COH_MODE = 0 → exec (.hostSnoop line) s = .next s) ∧
      (s.getF Reg.HIF_CTRL.COH_MODE ≠ 0 → ∃ t, exec (.hostSnoop line) s = .next t ∧
        (∀ x : HostLine, x ∈ t.hostLines ↔ x ∈ s.hostLines ∧ x.line ≠ line) ∧
        ((∀ x ∈ s.hostLines, x.line = line → ∀ y ∈ x.data, ∀ b : Byte, y ≠ some (b, true)) → t.hostOut = s.hostOut) ∧
        { t with hostLines := s.hostLines, hostOut := s.hostOut } = s))

/-- Quiesce: the fence, the abort at the drain limit, the reopening, and discarded replies (R127, R128, R129, R130, R131, R132).
That the generation moves on at a power-down too is the model's choice (log entry 64). -/
def Obligations.QuiesceSteps : Prop :=
  ∀ s : State, s.hubUp → s.Canon → SMap.rising s.targets = true →
    (∀ (r : Nat) (q : Req), s.nextReq r 0x22 = some q →
      ∀ c ∈ [(Instr.quiesceReset r, 0), (Instr.quiescePowerDown r, 1), (Instr.quiescePowerUp r, 2)], wbits (q.word 1) 8 2 = c.2 →
      (targetDefined (wbits (q.word 1) 0 8) = false → exec c.1 s = .next ((s.markStarted q).finish q 0x58)) ∧
      (targetDefined (wbits (q.word 1) 0 8) = true → (s.target (wbits (q.word 1) 0 8)).queue = [] →
        s.targetInUse (wbits (q.word 1) 0 8) = true → wbits (q.word 1) 10 1 = 0 →
        exec c.1 s = .next ((s.markStarted q).setTarget (wbits (q.word 1) 0 8)
          { s.target (wbits (q.word 1) 0 8) with queue := [(some q, c.2, false)] })) ∧
      (targetDefined (wbits (q.word 1) 0 8) = true → (s.target (wbits (q.word 1) 0 8)).queue = [] →
        s.targetInUse (wbits (q.word 1) 0 8) = true → wbits (q.word 1) 10 1 = 1 → s.getF Reg.HIF_QUI_DRAIN.DRAIN_US ≠ 0 →
        ∃ u, exec c.1 s = .next u ∧ u.getF Reg.CRS_LAST.STATUS = 0x86 ∧ u.getF Reg.CRS_STATUS.HELD = 1 ∧
          (u.target (wbits (q.word 1) 0 8)).queue = [(some q, c.2, true)]) ∧
      (targetDefined (wbits (q.word 1) 0 8) = true → (s.target (wbits (q.word 1) 0 8)).queue = [] →
        s.targetInUse (wbits (q.word 1) 0 8) = false → s.getF Reg.HIF_QUI_DRAIN.DRAIN_US ≠ 0 →
        exec c.1 s = .next ((s.markStarted q).setTarget (wbits (q.word 1) 0 8)
          { s.target (wbits (q.word 1) 0 8) with
            gate := if (s.target (wbits (q.word 1) 0 8)).gate = .off then .off else .draining, queue := [(some q, c.2, true)] })) ∧
      (targetDefined (wbits (q.word 1) 0 8) = true → (s.target (wbits (q.word 1) 0 8)).queue = [] →
        s.targetInUse (wbits (q.word 1) 0 8) = false → s.getF Reg.HIF_QUI_DRAIN.DRAIN_US = 0 →
        ∃ u, exec c.1 s = .next u ∧ (u.target (wbits (q.word 1) 0 8)).queue = [] ∧ (u.target (wbits (q.word 1) 0 8)).tags = [] ∧
          (u.target (wbits (q.word 1) 0 8)).gate = (if c.2 = 1 then .off else .opened) ∧
          (u.target (wbits (q.word 1) 0 8)).gen = ((s.target (wbits (q.word 1) 0 8)).gen + 1) % 4)) ∧
    (∀ (t : Nat) (p : Option Req) (a : Nat), (s.target t).queue = [(p, a, true)] →
      (p ≠ none ∨ a ≠ 1) → ∃ u, exec (.quiesceDrainLimit t) s = .next u ∧ (u.target t).queue = [] ∧ (u.target t).tags = [] ∧
        (u.target t).gate = (if a = 1 then .off else .opened) ∧ (u.target t).gen = ((s.target t).gen + 1) % 4) ∧
    (∀ i < 4, (s.target (funcTarget i)).queue = [(none, 1, true)] →
      ∃ u, exec (.quiesceDrainLimit (funcTarget i)) s = .next u ∧ (u.target (funcTarget i)).queue = [] ∧
        (u.target (funcTarget i)).tags = [] ∧ (u.getF Reg.HIF_FUNC_BUSY.BUSY).testBit i = false ∧
        (u.target (funcTarget i)).gate = (if (s.getF Reg.HIF_FUNC_EN.EN).testBit i then .opened else .off)) ∧
    (∀ (t tag gen : Nat), gen ≠ (s.target t).gen ∨ tag ∈ (s.target t).dead ∨ tag ∉ s.heldTags t →
      exec (.targetReply t tag gen) s = .next ((s.setTarget t { s.target t with dead := (s.target t).dead.filter (· ≠ tag) }).bump
        Reg.HIF_QUI_DISCARD.DISCARDS 1)) ∧
    (∀ (t tag : Nat), tag ∉ (s.target t).dead → tag ∈ s.heldTags t →
      exec (.targetReply t tag (s.target t).gen) s = .next (s.setTarget t { s.target t with tags := (s.target t).tags.filter (· ≠ tag) }))

/-- HIF_FUNC_EN powers functions down and up (R127, R129). -/
def Obligations.FunctionPower : Prop :=
  ∀ (s : State) (i : Nat) (v : W32), s.hubUp → s.Canon → i < 4 → SMap.rising s.targets = true → (s.target (funcTarget i)).queue = [] →
    s.getF Reg.HIF_QUI_DRAIN.DRAIN_US ≠ 0 → s.getF Reg.HIF_FUNC_EN.EN < 16 → s.getF Reg.HIF_FUNC_BUSY.BUSY = 0 →
    (∀ j < 4, j ≠ i → v.toNat.testBit j = (s.getF Reg.HIF_FUNC_EN.EN).testBit j) →
    ((s.getF Reg.HIF_FUNC_EN.EN).testBit i = true → v.toNat.testBit i = false →
      ∃ t, exec (.funcPowerDown v) s = .next t ∧ t.getF Reg.HIF_FUNC_EN.EN = v.toNat % 16 ∧ t.getF Reg.HIF_FUNC_BUSY.BUSY = 2 ^ i ∧
        (t.target (funcTarget i)).gate = (if (s.target (funcTarget i)).gate = .off then .off else .draining)) ∧
    ((s.getF Reg.HIF_FUNC_EN.EN).testBit i = false → v.toNat.testBit i = true →
      ∃ t, exec (.funcPowerUp v) s = .next t ∧ t.getF Reg.HIF_FUNC_EN.EN = v.toNat % 16 ∧
        (t.target (funcTarget i)).gate = .opened ∧ (t.target (funcTarget i)).gen = ((s.target (funcTarget i)).gen + 1) % 4)

/-- Training, loss of the host, and its return (R89, R90, R133, R134, R135, R136). That LINK_LEAVE_L0 leaves RATE and WIDTH as trained is the
model's choice (log entry 64), and that LINK_TRAINED does nothing while a self-reset is due, and HOSTRST_N is no loss of the host while boot
reads a host offer, its reading (log entries 3 and 57). -/
def Obligations.LossOfTheHost : Prop :=
  ∀ s : State, s.hubUp → s.Canon →
    (∀ o : LinkOffer, s.selfReset = true → exec (.linkTrained o) s = .next s) ∧
    (∀ (o : LinkOffer) (rate width : Nat), bestLink o = some (rate, width) → s.selfReset = false → ∃ t, exec (.linkTrained o) s = .next t ∧
      t.getF Reg.HIF_LINK.RATE = rate ∧ t.getF Reg.HIF_LINK.WIDTH = width ∧
      (s.getF Reg.HIF_STATUS.HOST_LOST = 0 → t.getF Reg.HIF_STATUS.LINK_UP = 1)) ∧
    (s.getF Reg.HIF_STATUS.LINK_UP ≠ 0 → ∃ t, exec .linkLeaveL0 s = .next t ∧ t.getF Reg.HIF_STATUS.LINK_UP = 0 ∧ t.l0Left = some s.now ∧
      s.fieldsKept t [Reg.HIF_STATUS.LINK_UP]) ∧
    (∀ c : Instr, (c = .viralReceived ∨ (c = .linkDownTimeout ∧ s.l0Left ≠ none) ∨ (c = .hostrstAssert ∧ s.boot.reading ≠ some 2) ∨
        ∃ o, c = .linkTrained o ∧ bestLink o = none) → s.getF Reg.HIF_STATUS.HOST_LOST = 0 → s.selfReset = false →
      ∃ t, exec c s = .next t ∧ t.suspended = true ∧ t.getF Reg.HIF_STATUS.LINK_UP = 0 ∧ t.getF Reg.HIF_LINK.WIDTH = 0 ∧
        t.getF Reg.HIF_LINK.RATE = 0 ∧
        (s.getF Reg.HIF_CTRL.HL_MODE ≠ 0 → t.getF Reg.HIF_STATUS.HOST_LOST = 1 ∧ t.shared = [] ∧ t.aptCache = [] ∧ t.selfReset = false) ∧
        (s.getF Reg.HIF_CTRL.HL_MODE = 0 → t.selfReset = true ∧ t.getF Reg.HIF_STATUS.HOST_LOST = 0) ∧
        t.svlOps = s.svlOps.filter (fun o => !decide (o.kind = 3 ∨ o.kind = 4)) ∧
        ((∀ o ∈ s.svlOps, o.area < 2 ∧ o.slot < 2) → ∀ o ∈ s.svlOps, o.kind = 4 → t.slotState o.area o.slot = 0)) ∧
    (s.selfReset = true → exec .hostLossSelfReset s = .next (s.moduleReset 3)) ∧
    (s.getF Reg.HIF_STATUS.HOST_LOST ≠ 0 → s.getF Reg.HIF_LINK.WIDTH ≠ 0 → ∃ t, exec .reattach s = .next t ∧
      t.getF Reg.HIF_STATUS.HOST_LOST = 0 ∧ t.getF Reg.HIF_STATUS.LINK_UP = 1 ∧ t.getF Reg.HIF_STATUS.REATTACH ≠ 0 ∧
      t.suspended = s.suspended) ∧
    (∀ v : W32, v.getLsbD 0 = true → s.suspended = true → s.getF Reg.HIF_STATUS.HOST_LOST = 0 → s.selfReset = false →
      ∃ t, exec (.attachResume v) s = .next t ∧ t.suspended = false ∧ t.heldRecs = [])

/-- NOP, END and reserved opcodes: waiting, signalling, ending, and the program errors 0x90 and 0x95 (R169, R171, R172, R176, R190). The last
clause says what every program error leaves: the course failed with its code, the hold, and TRS_PROG_ERR of the rafter's die, which keeps the
first error since VALID was cleared (R185, R190, R76). That word 0 [63:37] and word 1 of NOP and END must be zero is the model's choice (log
entry 88). -/
def Obligations.RafterProgramsSignalWaitAndEnd : Prop :=
  ∀ (s : State) (lr : Nat) (w0 w1 : W64) (c : Course), s.coreUp →
    (s.mayIssue lr w0 w1 = some c → opcodeOf w0 = 0x00 → wellFormedWords 0x00 w0 w1 = true →
      (sigEn w0 = false → exec (.rafterNop lr w0 w1) s = .next (s.advance lr)) ∧
      (sigEn w0 = true → s.event lr (sigEv w0) < 0xFFFF →
        exec (.rafterNop lr w0 w1) s = .next ((s.setEvent lr (sigEv w0) (s.event lr (sigEv w0) + 1)).advance lr)) ∧
      (sigEn w0 = true → s.event lr (sigEv w0) = 0xFFFF → exec (.rafterNop lr w0 w1) s = .next (s.progError lr 0x95))) ∧
    (s.mayIssue lr w0 w1 = some c → opcodeOf w0 = 0x00 → wellFormedWords 0x00 w0 w1 = false →
      exec (.rafterNop lr w0 w1) s = .next (s.progError lr 0x90)) ∧
    (s.mayIssue lr w0 w1 = some c → opcodeOf w0 = 0x01 → wellFormedWords 0x01 w0 w1 = true → sigEn w0 = false →
      (∀ g : Segment, (s.raft lr).seg = some g →
        exec (.endProgram lr w0 w1) s = .next (s.setRaft lr { s.raft lr with seg := none })) ∧
      ((s.raft lr).seg = none → exec (.endProgram lr w0 w1) s =
        .next { s with course := some { c with running := c.running.filter (· ≠ lr) } }.lastPhaseEnds)) ∧
    (s.mayIssue lr w0 w1 = some c → reservedOf (opcodeOf w0) = none →
      exec (.reservedRafterOpcode lr w0 w1) s = .next (s.progError lr 0x90)) ∧
    (waitEn w0 = true → s.event lr (waitEv w0) < waitVal w0 →
      (s.fellNow = none → exec (.rafterNop lr w0 w1) s = .next s ∧ exec (.endProgram lr w0 w1) s = .next s ∧
        exec (.vxKernel lr w0 w1) s = .next s ∧ exec (.atFwd lr w0 w1) s = .next s) ∧
      ((∀ c' : Course, s.course = some c' → c'.failed = false) →
        exec (.mxLdb lr w0 w1) s = .next s ∧ exec (.mxMm lr w0 w1) s = .next s)) ∧
    (∀ (code n : Nat) (t : State), s.Canon → s.course = some c → c.failed = false → lr < 32 → n = lr / 8 → code < 256 →
      t = s.progError lr code →
      t.course = some { c with failed := true, working := false, running := [] } ∧ t.working = none ∧ t.rafts = [] ∧ t.waiting = [] ∧
        t.getF Reg.CRS_LAST.STATUS = code ∧ t.getF Reg.CRS_LAST.COMMITTED = 0 ∧ t.getF Reg.CRS_LAST.COURSE = c.counter % 2 ^ 48 ∧
        t.getF Reg.CRS_STATUS.HELD = 1 ∧ t.getF (Reg.TRS_PROG_ERR.VALID n) ≠ 0 ∧
        (s.getF (Reg.TRS_PROG_ERR.VALID n) = 0 →
          t.getF (Reg.TRS_PROG_ERR.STATUS n) = code ∧ t.getF (Reg.TRS_PROG_ERR.LRAFT n) = lr % 8 ∧
            t.getF (Reg.TRS_PROG_ERR.PC n) = (s.raft lr).pc % 2 ^ (Reg.TRS_PROG_ERR.PC n).w ∧
            t.getF (Reg.TRS_PROG_ERR.COURSE n) = c.counter % 2 ^ (Reg.TRS_PROG_ERR.COURSE n).w) ∧
        (s.getF (Reg.TRS_PROG_ERR.VALID n) ≠ 0 →
          ∀ f ∈ [Reg.TRS_PROG_ERR.STATUS n, Reg.TRS_PROG_ERR.LRAFT n, Reg.TRS_PROG_ERR.PC n, Reg.TRS_PROG_ERR.COURSE n],
            t.getF f = s.getF f))

/-- MX.LDB fills the standby buffer with the stored rows, transposed when TRANS is set (R144, R150, R151, R165, R174, R178). That the scale row
of a last E2M1 group of fewer than 32 rows follows its last data row is the model's choice (log entry 88). -/
def Obligations.BlockLoad : Prop :=
  ∀ (s : State) (lr : Nat) (w0 w1 : W64) (c : Course) (f trans split kr nc a p : Nat), s.coreUp → s.mayIssue lr w0 w1 = some c →
    s.badStore = [] → s.inj = none → opcodeOf w0 = 0x10 → wellFormedWords 0x10 w0 w1 = true → (s.raft lr).ahead = [] →
    f = wbits w0 37 3 → trans = wbits w0 40 1 → split = wbits w0 41 2 → kr = wbits w0 43 10 + 1 → nc = wbits w0 53 9 + 1 →
    a = wbits w1 0 19 * 64 → p = wbits w1 19 19 * 64 → f < 5 →
    (f = 2 → trans = 0 → split = 0 → p ≠ 0 → sigEn w0 = false →
      broken (s.rangeCodes lr (((List.range kr).map fun k => (a + (k + k / 32) * p, rowBytes 2 nc)) ++
        (List.range (ceilDiv kr 32)).map fun i => (a + (min (32 * (i + 1)) kr + i) * p, nc))) = [] →
      ∃ b : Block, exec (.mxLdb lr w0 w1) s = .next ((s.setRaft lr { s.raft lr with standby := some b }).advance lr) ∧
        b.fmt = 2 ∧ b.krows = kr ∧ b.ncols = nc ∧
        (∀ i < ceilDiv kr 32, b.scales.getD i [] = s.rsRead lr (a + (min (32 * (i + 1)) kr + i) * p) nc) ∧
        ∀ k < kr, ∀ n < nc, (b.elems.getD k []).getD n 0 =
          BitVec.ofNat 32 ((rowElems 2 nc (s.rsRead lr (a + (k + k / 32) * p) (rowBytes 2 nc))).getD n 0)) ∧
    (f ≠ 2 → 512 < kr → exec (.mxLdb lr w0 w1) s = .next (s.progError lr 0x91)) ∧
    (f ≠ 2 → broken (ldbCodes f trans split kr) = [] → p ≠ 0 → sigEn w0 = false →
      broken (s.rangeCodes lr ((List.range (if trans = 1 then nc else kr)).map
        fun j => (a + j * p, rowBytes f (if trans = 1 then kr else nc)))) = [] →
      ∃ b : Block, exec (.mxLdb lr w0 w1) s = .next ((s.setRaft lr { s.raft lr with standby := some b }).advance lr) ∧
        b.fmt = f ∧ b.split = split ∧ b.krows = kr ∧ b.ncols = nc ∧ b.scales = [] ∧
        ∀ k < kr, ∀ n < nc, (b.elems.getD k []).getD n 0 =
          BitVec.ofNat 32 (if trans = 1 then (rowElems f kr (s.rsRead lr (a + n * p) (rowBytes f kr))).getD k 0
            else (rowElems f nc (s.rsRead lr (a + k * p) (rowBytes f nc))).getD n 0))

/-- MX.MM writes each element of its tile by the reference order, and the tile's state moves on: its shape, rows, columns, next k-block and
LAST are recorded, the tiles it overlaps are gone, and the block it used is the active one (R143, R144, R154, R155, R157, R179, R200). -/
def Obligations.TileProduct : Prop :=
  ∀ (s : State) (lr : Nat) (w0 w1 : W64) (c : Course) (x : MmF) (b : Block), s.coreUp → s.Canon → s.mayIssue lr w0 w1 = some c →
    opcodeOf w0 = 0x11 → wellFormedWords 0x11 w0 w1 = true → (s.raft lr).ahead = [] → x = mmFields w0 w1 → (s.raft lr).block = some b →
    x.fa < 5 → x.fa ≠ 2 → x.stat = 0 → x.pitch ≠ 0 → sigEn w0 = false → s.inj = none → broken (s.mmCodes lr x (some b)) = [] →
    (s.raft lr).seg = none → s.badStore = [] → s.badAcc = [] →
    broken (s.rangeCodes lr ((List.range (if x.trans = 1 then b.krows else x.m)).map
      fun j => (x.a + j * x.pitch, rowBytes x.fa (if x.trans = 1 then x.m else b.krows)))) = [] →
    ∃ t, exec (.mxMm lr w0 w1) s = .next t ∧ t.hbm = s.hbm ∧ t.rstore = s.rstore ∧ t.loft = s.loft ∧ t.regs = s.regs ∧
      t.tile lr x.slot = some ⟨x.shape, x.m, b.ncols, if x.acc then x.kblk + 1 else 1, x.last⟩ ∧
      (t.raft lr).active = some b ∧ (t.raft lr).standby = none ∧ (t.raft lr).pc = (s.raft lr).pc + 1 ∧
      (SMap.rising (s.raft lr).slots = true → ∀ k < 32, k ≠ x.slot → t.tile lr k = (s.tile lr k).filter fun o =>
        !overlaps k (shapeUnits o.shape) x.slot (shapeUnits x.shape)) ∧
      (∀ r < x.m, ∀ k < b.ncols, SMap.look 0 (accKey lr x.slot b.ncols r k) t.acc =
        mmElem b ((if x.trans = 1
            then (List.range b.krows).map fun i => (rowElems x.fa x.m (s.rsRead lr (x.a + i * x.pitch) (rowBytes x.fa x.m))).getD r 0
            else rowElems x.fa b.krows (s.rsRead lr (x.a + r * x.pitch) (rowBytes x.fa b.krows))).map (decodeF x.fa)) []
          (b.elems.map fun e => decodeF b.fmt (e.getD k 0).toNat) (b.scales.map fun e => (e.getD k 0).toNat)
          (if x.acc then some (SMap.look 0 (accKey lr x.slot b.ncols r k) s.acc) else none)) ∧
      (∀ i : Nat, (i < accKey lr x.slot b.ncols 0 0 ∨ accKey lr x.slot b.ncols x.m 0 ≤ i) → SMap.look 0 i t.acc = SMap.look 0 i s.acc)

/-- FP32, BF16, conversion and special-function thread instructions write D in the active threads and nothing else (R232, R242, R243, R193, R194, R195, R248). -/
def Obligations.ThreadArithmetic : Prop :=
  ∀ (s : State) (lr g : Nat) (w : W64) (k : Kernel) (sh : Sheaf),
    ∀ x ∈ ([(0x10, .fadd lr g w, fun a b _ => fadd a b), (0x11, .fsub lr g w, fun a b _ => fadd a (fneg b)),
        (0x12, .fmul lr g w, fun a b _ => fmul a b), (0x13, .ffma lr g w, fun a b c => ffma a b c),
        (0x14, .fdiv lr g w, fun a b _ => fdiv a b), (0x15, .fmax lr g w, fun a b _ => fmax a b), (0x16, .fmin lr g w, fun a b _ => fmin a b),
        (0x17, .fcmp lr g w, fun a b _ => fcmp (thSub w) a b), (0x18, .fabs lr g w, fun a _ _ => a &&& 0x7FFFFFFF),
        (0x19, .fneg lr g w, fun a _ _ => a ^^^ 0x80000000), (0x20, .hadd lr g w, fun a b _ => pair2 fadd a b),
        (0x21, .hmul lr g w, fun a b _ => pair2 fmul a b), (0x22, .hfma lr g w, fun a b c => pair3 ffma a b c),
        (0x23, .hmax lr g w, fun a b _ => pair2 fmax a b), (0x24, .hmin lr g w, fun a b _ => pair2 fmin a b),
        (0x40, .cvtf lr g w, fun a _ _ => cvtf (decide (thSub w = 1)) a), (0x41, .cvti lr g w, fun a _ _ => cvti a),
        (0x48, .exp2 lr g w, fun a _ _ => exp2 a), (0x49, .log2 lr g w, fun a _ _ => log2 a), (0x4A, .rcp lr g w, fun a _ _ => fdiv 0x3F800000 a),
        (0x4B, .rsqrt lr g w, fun a _ _ => rsqrt a)] : List (Nat × Instr × (W32 → W32 → W32 → W32))),
      s.ThreadRuns lr g x.1 w k sh → sh.pc + 1 < k.code.length →
      ∃ sh' : Sheaf, sh.wrote sh' (thD w) (fun t => x.2.2 (sh.reg t (thA w)) (sh.operandB w immFloat t) (sh.reg t (thC w))) ∧
        exec x.2.1 s = .next (s.putSheaf lr k sh')

/-- Integer thread instructions write D in the active threads and nothing else (R232, R242, R243). -/
def Obligations.ThreadIntegers : Prop :=
  ∀ (s : State) (lr g : Nat) (w : W64) (k : Kernel) (sh : Sheaf),
    ∀ x ∈ ([(0x30, .iadd lr g w, fun a b _ => BitVec.ofNat 32 (a.toNat + b.toNat)), (0x31, .isub lr g w, fun a b _ => BitVec.ofInt 32 (a.toNat - b.toNat)),
        (0x32, .imul lr g w, fun a b _ => BitVec.ofNat 32 (a.toNat * b.toNat)), (0x33, .andBits lr g w, fun a b _ => a &&& b),
        (0x34, .orBits lr g w, fun a b _ => a ||| b), (0x35, .xorBits lr g w, fun a b _ => a ^^^ b),
        (0x36, .shl lr g w, fun a b _ => BitVec.ofNat 32 (a.toNat * 2 ^ (b.toNat % 32))),
        (0x37, .shr lr g w, fun a b _ => BitVec.ofNat 32 (a.toNat / 2 ^ (b.toNat % 32))),
        (0x38, .sar lr g w, fun a b _ => BitVec.ofInt 32 (a.toInt / 2 ^ (b.toNat % 32))),
        (0x39, .icmp lr g w, fun a b _ => if (thSub w = 0 ∧ a = b) ∨ (thSub w = 1 ∧ a.toInt < b.toInt) ∨ (thSub w = 2 ∧ a.toNat < b.toNat) ∨
          (thSub w = 3 ∧ a ≠ b) then 1 else 0),
        (0x3A, .selc lr g w, fun a b c => if c = 0 then b else a), (0x3B, .mov lr g w, fun a _ _ => a)] :
        List (Nat × Instr × (W32 → W32 → W32 → W32))),
      s.ThreadRuns lr g x.1 w k sh → sh.pc + 1 < k.code.length →
      ∃ sh' : Sheaf, sh.wrote sh' (thD w) (fun t => x.2.2 (sh.reg t (thA w)) (sh.operandB w immInt t) (sh.reg t (thC w))) ∧
        exec x.2.1 s = .next (s.putSheaf lr k sh')

/-- Special values of FP32 arithmetic and the exactness of widening (R193, R195, R198). -/
def Obligations.ArithmeticSpecialValues : Prop :=
  (∀ a b : W32, isNan b = true → isNan a = false → fmax a b = a ∧ fmax b a = a ∧ fmin a b = a ∧ fmin b a = a) ∧
  (∀ a b : W32, isNan a = true → isNan b = true → fmax a b = 0x7FC00000 ∧ fmin a b = 0x7FC00000) ∧
  fmax 0 0x80000000 = 0 ∧ fmax 0x80000000 0 = 0 ∧ fmin 0 0x80000000 = 0x80000000 ∧ fmin 0x80000000 0 = 0x80000000 ∧
  (∀ a : W32, isFin a = true → isZero a = false → fadd a (fneg a) = 0) ∧
  fadd 0x80000000 0x80000000 = 0x80000000 ∧ fadd 0 0x80000000 = 0 ∧ fadd 0x80000000 0 = 0 ∧
  (∀ a b : W32, isInf a = true → isInf b = true → fadd a (fneg a) = 0x7FC00000 ∧ fdiv a b = 0x7FC00000) ∧
  (∀ a b : W32, isInf a = true → isZero b = true → fmul a b = 0x7FC00000 ∧ fmul b a = 0x7FC00000 ∧ fdiv b b = 0x7FC00000) ∧
  (∀ a b r : W32, r = fadd a b ∨ r = fmul a b ∨ r = fdiv a b → isNan r = true → r = 0x7FC00000) ∧
  (∀ a b r : W32, r = fmul a b ∨ r = fdiv a b → isNan r = false → r.getLsbD 31 = (a.getLsbD 31 != b.getLsbD 31)) ∧
  (∀ h : W16, isNan (bfWide h) = false → bfNarrow (bfWide h) = h)

/-- Control instructions of a sheaf, its end, and the program errors of its flow (R232, R238, R243, R244, R268). -/
def Obligations.ThreadControlFlow : Prop :=
  ∀ (s : State) (lr g : Nat) (w : W64) (k : Kernel) (sh : Sheaf),
    (s.ThreadRuns lr g 0x00 w k sh → exec (.threadNop lr g w) s = .next (if sh.pc + 1 < k.code.length
      then s.putSheaf lr k { sh with pc := sh.pc + 1 } else s.progError lr 0x91)) ∧
    (s.ThreadRuns lr g 0x01 w k sh → exec (.threadEnd lr g w) s = .next (s.setRaft lr { s.raft lr with
      kernel := some { k with ended := k.ended + 1 }, sheafs := (s.raft lr).sheafs.filter fun h => h.g ≠ g })) ∧
    (s.ThreadRuns lr g 0x03 w k sh → exec (.bra lr g w) s = .next (if thImm w % 2048 < k.code.length
      then s.putSheaf lr k { sh with pc := thImm w % 2048 } else s.progError lr 0x91)) ∧
    (s.ThreadRuns lr g 0x04 w k sh → (∃ t < 64, sh.live t = true ∧ sh.reg t (thA w) ≠ 0) → thImm w % 2048 < k.code.length →
      exec (.brany lr g w) s = .next (s.putSheaf lr k { sh with pc := thImm w % 2048 })) ∧
    (s.ThreadRuns lr g 0x04 w k sh → (∀ t < 64, sh.live t = true → sh.reg t (thA w) = 0) → sh.pc + 1 < k.code.length →
      exec (.brany lr g w) s = .next (s.putSheaf lr k { sh with pc := sh.pc + 1 })) ∧
    (s.ThreadRuns lr g 0x05 w k sh → sh.pc + 1 < k.code.length → (sh.stack.length < 16 → ∃ sh' : Sheaf,
        exec (.ifBegin lr g w) s = .next (s.putSheaf lr k sh') ∧ sh'.stack = sh.active :: sh.stack ∧ sh'.regs = sh.regs ∧ sh'.pc = sh.pc + 1 ∧
        sh'.g = sh.g ∧ ∀ t < 64, sh'.live t = (sh.live t && decide (sh.reg t (thA w) ≠ 0))) ∧
      (16 ≤ sh.stack.length → exec (.ifBegin lr g w) s = .next (s.progError lr 0x91))) ∧
    (s.ThreadRuns lr g 0x06 w k sh → sh.pc + 1 < k.code.length → (∀ (a : List Bool) (rest : List (List Bool)), sh.stack = a :: rest →
        a.length = 64 → ∃ sh' : Sheaf, exec (.elseFlip lr g w) s = .next (s.putSheaf lr k sh') ∧ sh'.stack = sh.stack ∧ sh'.regs = sh.regs ∧
        sh'.pc = sh.pc + 1 ∧ sh'.g = sh.g ∧ ∀ t < 64, sh'.live t = (a.getD t false && !sh.live t)) ∧
      (sh.stack = [] → exec (.elseFlip lr g w) s = .next (s.progError lr 0x91))) ∧
    (s.ThreadRuns lr g 0x07 w k sh → sh.pc + 1 < k.code.length → (∀ (a : List Bool) (rest : List (List Bool)), sh.stack = a :: rest →
        exec (.endIf lr g w) s = .next (s.putSheaf lr k { sh with active := a, stack := rest, pc := sh.pc + 1 })) ∧
      (sh.stack = [] → exec (.endIf lr g w) s = .next (s.progError lr 0x91))) ∧
    (∀ c : Course, s.coreUp → s.threadAt lr g (thOp w) w = some (c, k, sh) → thUse (thOp w) w = none →
      exec (.reservedThreadOpcode lr g w) s = .next (s.progError lr 0x90))

/-- SPEC, RAND, SHFL, SRED, LD and ST: what they write, and the lowest code of those that the active threads' accesses break (R243, R245, R250,
R252 to R257, R268). That a byte which two threads touch is a free value at each touch (R241), by the record of the kernel's touches, is the
model's choice (log entry 70); so are an address A + IMM that does not wrap and a NaN that loses its payload (log entry 88), and N of an address
of accumulator memory is its reading (log entry 68). -/
def Obligations.ThreadExchangeAndMemory : Prop :=
  ∀ (s : State) (lr g : Nat) (w : W64) (k : Kernel) (sh : Sheaf) (c : Course), sh.pc + 1 < k.code.length → s.working = some c →
    (s.ThreadRuns lr g 0x02 w k sh → ∃ sh' : Sheaf, exec (.spec lr g w) s = .next (s.putSheaf lr k sh') ∧
      sh.wrote sh' (thD w) (fun t => if thSub w = 0 then BitVec.ofNat 32 t else if thSub w = 1 then BitVec.ofNat 32 g else if thSub w = 2 then BitVec.ofNat 32 k.sheafs
        else if thSub w = 3 then BitVec.ofNat 32 (g % 4) else BitVec.ofNat 32 lr)) ∧
    (s.ThreadRuns lr g 0x50 w k sh → (s.badTid c (tidOf k w) = true → exec (.rand lr g w) s = .next (s.progError lr 0x91)) ∧
      (s.badTid c (tidOf k w) = false → ∃ sh' : Sheaf, exec (.rand lr g w) s = .next (s.putSheaf lr k sh') ∧
        sh.wrote sh' (thD w) (fun t => rand32 (BitVec.ofNat 64 (s.getF (Reg.TRS_VEC_SEED.SEED (lr / 8)))) (tidOf k w)
          ((sh.reg t (thA w)).toNat + (sh.reg t (thB w)).toNat % 2 ^ 16 * 2 ^ 32) (thImm w % 256)))) ∧
    (s.ThreadRuns lr g 0x58 w k sh → ∃ sh' : Sheaf, exec (.shfl lr g w) s = .next (s.putSheaf lr k sh') ∧
      sh.wrote sh' (thD w) (fun t => sh.reg ((sh.operandB w immInt t).toNat % 64) (thA w))) ∧
    (s.ThreadRuns lr g 0x59 w k sh → ∃ sh' : Sheaf, exec (.sred lr g w) s = .next (s.putSheaf lr k sh') ∧
      sh.wrote sh' (thD w) (fun _ => sredOf sh w)) ∧
    (s.ThreadRuns lr g 0x60 w k sh → (thSub w = 0 → s.badTid c (tidOf k w) = false) →
      (∀ t < 64, sh.live t = true → ∃ y, s.ldThread lr c k sh w t = .ok y) →
      ∀ u : State × Kernel, u = s.touch lr k false (sh.lives.flatMap (ldBytes g sh w)) →
      { u.1 with rstore := s.rstore, freeCtr := s.freeCtr } = s ∧ { u.2 with seen := k.seen } = k ∧ (thSub w ≠ 0 → u = (s, k)) ∧
      ((∀ x ∈ sh.lives.flatMap (ldBytes g sh w), ∀ i < x.2.2, ∀ o : Touch, SMap.look none (x.2.1 + i) k.seen = some o → o.wrote = false) →
        u.1 = s) ∧
      ∃ (v : Nat → W32) (sh' : Sheaf), exec (.ld lr g w) s = .next (u.1.putSheaf lr u.2 sh') ∧ sh.wrote sh' (thD w) v ∧
        ∀ t < 64, sh.live t = true → u.1.ldThread lr c k sh w t = .ok (v t)) ∧
    (s.ThreadRuns lr g 0x60 w k sh → thSub w = 3 → ∀ t < 64, sh.live t = true →
      (thAddr w (sh.reg t (thA w)) % 4 = 0 → 0 ≤ thAddr w (sh.reg t (thA w)) → thAddr w (sh.reg t (thA w)) ≤ 252 →
        s.ldThread lr c k sh w t = .ok (BitVec.ofNat 32 (leNat ((k.param.drop (thAddr w (sh.reg t (thA w))).toNat).take 4)))) ∧
      (thAddr w (sh.reg t (thA w)) % 4 ≠ 0 → exec (.ld lr g w) s = .next (s.progError lr 0x91))) ∧
    (s.ThreadRuns lr g 0x60 w k sh → ∀ (a : Nat → Int) (codes : Nat → List Nat), (∀ t, a t = thAddr w (sh.reg t (thA w))) →
      (∀ t, codes t = match thSub w with
        | 0 => if thC w % 8 = 2 then
            broken [(!inRange k.readable (a t / 2) 1 || !inRange k.readable ((sh.reg t (thC w)).toNat : Int) 1, 0x92),
              (!s.rsOk lr (a t / 2).toNat 1 || !s.rsOk lr (sh.reg t (thC w)).toNat 1, 0x94)]
          else broken [(decide (a t % fmtBytes (thC w % 8) ≠ 0), 0x91), (!inRange k.readable (a t) (fmtBytes (thC w % 8)), 0x92),
            (!s.rsOk lr (a t).toNat (fmtBytes (thC w % 8)), 0x94)]
        | 1 => if a t % 4 ≠ 0 then [0x91]
          else if a t < 0 ∨ 32 ≤ (a t / 262144).toNat ∨ (paramSlots k.param).testBit (a t / 262144).toNat = false then [0x92]
          else match s.tileAt lr (a t / 262144).toNat with
            | none => [0x94]
            | some (v, y) => if y.mrows ≤ ((a t).toNat - v * 262144) / 4 / shapeCols y.shape ∨
                y.ncols ≤ ((a t).toNat - v * 262144) / 4 % shapeCols y.shape then [0x94] else []
        | 2 => if a t % 4 ≠ 0 then [0x91]
          else if a t < 0 ∨ 16 ≤ (a t / 16384).toNat ∨ (paramRecs k.param).testBit (a t / 16384).toNat = false ∨ 8200 ≤ (a t % 16384).toNat then
            [0x92]
          else match s.statRec lr (a t / 16384).toNat with
            | none => [0x94]
            | some x => if (a t % 16384).toNat < 8192 ∧ x.s.length ≤ (a t % 16384).toNat / 16 then [0x94] else []
        | _ => if a t % 4 ≠ 0 then [0x91] else if a t < 0 ∨ 252 < a t then [0x92] else []) →
      ∀ bad : List Nat, bad = broken [(decide (thSub w = 0) && s.badTid c (tidOf k w), 0x91)] ++ sh.lives.flatMap codes → bad ≠ [] →
        exec (.ld lr g w) s = .next (s.progError lr (lowest bad))) ∧
    (s.ThreadRuns lr g 0x60 w k sh → thSub w = 0 → s.badTid c (tidOf k w) = false → ∀ (t n : Nat) (a : Int), n = fmtBytes (thC w % 8) →
      a = thAddr w (sh.reg t (thA w)) → thC w % 8 ≠ 2 → a % n = 0 → inRange k.readable a n = true → s.rsOk lr a.toNat n = true →
        s.ldThread lr c k sh w t = .ok (if thC w % 8 ≤ 1 then fscale (widen (thC w % 8) (leNat (s.rsRead lr a.toNat n))) (-(s.scaleOf (tidOf k w)))
          else widen (thC w % 8) (leNat (s.rsRead lr a.toNat n)))) ∧
    (s.ThreadRuns lr g 0x61 w k sh → thSub w ≠ 2 → ∀ n : Nat, n = fmtBytes (thSub w) → ∀ bad : List Nat,
      bad = broken [(s.badTid c (tidOf k w), 0x91)] ++ sh.lives.flatMap (fun t =>
        broken [(decide (thAddr w (sh.reg t (thA w)) % n ≠ 0), 0x91), (!inRange [paramWr k.param] (thAddr w (sh.reg t (thA w))) n, 0x92)]) →
      bad ≠ [] → exec (.st lr g w) s = .next (s.progError lr (lowest bad))) ∧
    (s.ThreadRuns lr g 0x61 w k sh → thSub w = 2 → ∀ bad : List Nat,
      bad = [0, 1].flatMap (fun j => broken [(!((List.range 32).all fun i => sh.live (32 * j + i)) || s.badTid c (tidOf k w), 0x91),
        (!inRange [paramWr k.param] (thAddr w (sh.reg (32 * j) (thA w))) 16 ||
          !inRange [paramWr k.param] ((sh.reg (32 * j) (thC w)).toNat : Int) 1, 0x92)]) →
      bad ≠ [] → exec (.st lr g w) s = .next (s.progError lr (lowest bad))) ∧
    (s.ThreadRuns lr g 0x61 w k sh → thSub w ≠ 2 → s.badTid c (tidOf k w) = false →
      ∀ n : Nat, n = fmtBytes (thSub w) → ∀ at_ : Nat → Int, (∀ t, at_ t = thAddr w (sh.reg t (thA w))) →
      (∀ t < 64, sh.live t = true → at_ t % n = 0 ∧ inRange [paramWr k.param] (at_ t) n = true) →
      ∃ u, exec (.st lr g w) s = .next u ∧ (u.raft lr).pc = (s.raft lr).pc ∧
        (∀ b : Nat, (∀ t < 64, sh.live t = true → ¬ (lr * rsSize + at_ t ≤ b ∧ (b : Int) < lr * rsSize + at_ t + n)) → u.rstore.byte b = s.rstore.byte b) ∧
        (∀ t < 64, sh.live t = true → (∀ t' < 64, sh.live t' = true → t' ≠ t → at_ t + n ≤ at_ t' ∨ at_ t' + n ≤ at_ t) →
          (∀ i < n, ∀ o : Touch, SMap.look none ((at_ t).toNat + i) k.seen = some o → o.thread = some (64 * g + t)) →
          u.rstore.bytes (lr * rsSize + (at_ t).toNat) n = leBytes n (toStored (thSub w) (sh.reg t (thB w)) (s.scaleOf (tidOf k w))).code) ∧
        { u with rafts := s.rafts, rstore := s.rstore, rsWritten := s.rsWritten, freeCtr := s.freeCtr } = s) ∧
    (s.ThreadRuns lr g 0x61 w k sh → thSub w = 2 → (∀ t < 64, sh.live t = true) → s.badTid c (tidOf k w) = false →
      ∀ ds ss : Nat → Int, (∀ j, ds j = thAddr w (sh.reg (32 * j) (thA w))) → (∀ j, ss j = (sh.reg (32 * j) (thC w)).toNat) →
      (∀ j < 2, inRange [paramWr k.param] (ds j) 16 = true ∧ inRange [paramWr k.param] (ss j) 1 = true) →
      ∃ u, exec (.st lr g w) s = .next u ∧ (u.raft lr).pc = (s.raft lr).pc ∧
        (∀ b : Nat, (∀ j < 2, ¬ (lr * rsSize + ds j ≤ b ∧ (b : Int) < lr * rsSize + ds j + 16) ∧ (b : Int) ≠ lr * rsSize + ss j) →
          u.rstore.byte b = s.rstore.byte b) ∧
        { u with rafts := s.rafts, rstore := s.rstore, rsWritten := s.rsWritten, freeCtr := s.freeCtr } = s) ∧
    (s.ThreadRuns lr g 0x61 w k sh → thSub w = 2 → (∃ t < 64, sh.live t = false) → exec (.st lr g w) s = .next (s.progError lr 0x91))

/-- VX.KERNEL reads its code and parameters, sheafs become resident in order, and the kernel ends with its last sheaf (R232, R233, R235, R236, R238, R240). -/
def Obligations.KernelsRunTheirSheafs : Prop :=
  ∀ (s : State) (lr : Nat), s.coreUp → SMap.rising s.rafts = true →
    (∀ (w0 w1 : W64) (c : Course), s.mayIssue lr w0 w1 = some c → s.badStore = [] → opcodeOf w0 = 0x40 → wellFormedWords 0x40 w0 w1 = true →
      (s.raft lr).ahead = [] →
      ∀ p : List Byte, p = s.rsRead lr (wbits w1 30 19 * 64) 256 →
      wbits w1 0 19 * 64 + 8 * (wbits w1 19 11 + 1) ≤ rsSize → wbits w1 30 19 * 64 + 256 ≤ rsSize →
      s.rsOk lr (wbits w1 0 19 * 64) (8 * (wbits w1 19 11 + 1)) = true → s.rsOk lr (wbits w1 30 19 * 64) 256 = true → paramOk p = true →
      s.badTid c (paramTidA p) = false → s.badTid c (paramTidB p) = false →
      ∃ (t : State) (k : Kernel), exec (.vxKernel lr w0 w1) s = .next t ∧ t.raft lr = { s.raft lr with kernel := some k, sheafs := [] } ∧
        { t with rafts := s.rafts } = s ∧ k.param = p ∧ k.sheafs = wbits w0 40 16 ∧ k.regs = wbits w0 38 2 ∧ k.ended = 0 ∧ k.watch = [] ∧ k.seen = [] ∧
        (k.rmark = true ↔ wbits w0 37 1 = 1) ∧ k.code.length = wbits w1 19 11 + 1 ∧
        ∀ i ≤ wbits w1 19 11, k.code[i]? = some (BitVec.ofNat 64 (leNat (s.rsRead lr (wbits w1 0 19 * 64 + 8 * i) 8)))) ∧
    (∀ (k : Kernel) (g : Nat) (c : Course), s.working = some c → (s.raft lr).kernel = some k → k.nextG.length = 16 →
      if g ≤ k.sheafs ∧ k.nextG.getD (g % 16) 0 = g ∧ ((s.raft lr).sheafs.filter fun h => h.g % 16 = g % 16).length < 128 / 2 ^ k.regs then
        exec (.sheafResident lr g) s = .next (s.setRaft lr { s.raft lr with
          kernel := some { k with nextG := k.nextG.set (g % 16) (g + 16) }
          sheafs := (s.raft lr).sheafs ++ [⟨g, 0, List.replicate 64 (List.replicate (16 * 2 ^ k.regs) 0), List.replicate 64 true, [], []⟩] })
      else exec (.sheafResident lr g) s = .next s) ∧
    (∀ (k : Kernel) (c : Course), s.working = some c → (s.raft lr).kernel = some k →
      (k.ended ≠ k.sheafs + 1 → exec (.kernelDone lr) s = .next s) ∧
      (k.ended = k.sheafs + 1 → sigEn k.w0 = false → (s.raft lr).seg = none → ∃ t, exec (.kernelDone lr) s = .next t ∧
        t.raft lr = { s.raft lr with kernel := none, sheafs := [], pc := (s.raft lr).pc + 1, spliced := [] } ∧
        t.watch = (s.each k.watch State.addWatch).watch ∧ t.amax = (s.each k.watch State.addWatch).amax ∧
        t.rstore = s.rstore ∧ t.regs = s.regs))

/-- VX.DWCONV, VX.POOL, VX.RESAMP, VX.BOXDEC and VX.NMS: what they write, and the codes they end with (R234, R258, R259, R260, R261, R262, R263,
R264, R265). That a wrong shape of VX.BOXDEC or VX.NMS ends with 0x91 is the model's reading (log entry 27); that VX.POOL and VX.RESAMP do not
check AUX, that VX.NMS does not check the counts of OUT, and which bits of words 6 and 7 are not checked are its choices (log entry 88). -/
def Obligations.ImageCommands : Prop :=
  (∀ (s : State) (lr : Nat) (w0 w1 : W64) (c : Course), s.coreUp → s.inj = none → s.badStore = [] → SMap.rising s.rafts = true →
    Memory.wf s.rstore = true →
    s.mayIssue lr w0 w1 = some c → sigEn w0 = false → (s.raft lr).ahead = [] → (s.raft lr).seg = none →
    wbits w1 0 19 * 64 + 128 ≤ rsSize → s.rsOk lr (wbits w1 0 19 * 64) 128 = true →
    ∀ b : VBlock, b = vBlock (s.rsRead lr (wbits w1 0 19 * 64) 128) →
    ∀ x ∈ ([(0x41, .vxDwconv lr w0 w1, dwconvCmd lr b (decide (wbits w0 37 1 = 1)), (outCoords b.out).map (s.dwElem lr b)),
        (0x42, .vxPool lr w0 w1, poolCmd lr b (decide (wbits w0 37 1 = 1)), (outCoords b.out).map (s.poolElem lr b)),
        (0x43, .vxResamp lr w0 w1, resampCmd lr b (decide (wbits w0 37 1 = 1)), (outCoords b.out).map (s.resampElem lr b)),
        (0x44, .vxBoxdec lr w0 w1, boxdecCmd lr b (decide (wbits w0 37 1 = 1)), (List.range b.inp.w).flatMap (s.boxOf lr b)),
        (0x45, .vxNms lr w0 w1, nmsCmd lr b (decide (wbits w0 37 1 = 1)), [])] : List (Nat × Instr × VCmd × List W32)),
      opcodeOf w0 = x.1 → wellFormedWords x.1 w0 w1 = true →
      ∀ bad : List Nat, bad = broken ([(!b.reserved, 0x90)] ++ x.2.2.1.used.flatMap (s.tensorCodes c) ++ x.2.2.1.codes ++
        s.rangeCodes lr x.2.2.1.reads ++ [(!x.2.2.1.writes.all inStore, 0x92)]) →
      (bad ≠ [] → exec x.2.1 s = .next (s.progError lr (lowest bad))) ∧
      (bad = [] → ∃ t, exec x.2.1 s = .next t ∧ t.raft lr = { s.raft lr with pc := (s.raft lr).pc + 1, spliced := [] } ∧ t.regs = s.regs ∧
        (∀ a : Nat, (∀ r ∈ x.2.2.1.writes, ¬ (lr * rsSize + r.1 ≤ a ∧ a < lr * rsSize + r.1 + r.2)) → t.rstore.byte a = s.rstore.byte a) ∧
        (x.1 ≠ 0x45 → ∀ (i : Nat) (v : W32), x.2.2.2[i]? = some v →
          t.rstore.bytes (lr * rsSize + b.out.addr + i * fmtBytes b.out.fmt) (fmtBytes b.out.fmt) =
            leBytes (fmtBytes b.out.fmt) (toStored b.out.fmt v (s.scaleOf b.out.tid)).code) ∧
        (x.1 = 0x45 → ∀ (kmax cnt : Nat) (keep : List Nat), kmax = bitsOf b.w6 32 16 + 1 → cnt = bitsOf b.w7 32 19 * 64 →
          keep = nms (fun i => ⟨s.elem lr b.inp (4 * i), s.elem lr b.inp (4 * i + 1), s.elem lr b.inp (4 * i + 2), s.elem lr b.inp (4 * i + 3)⟩)
            (w32Of (bitsOf b.w6 0 32)) kmax ((ranked (((List.range b.inp.w).map fun i => (i, s.elem lr b.aux i)).filter fun y =>
              fle (w32Of (bitsOf b.w7 0 32)) y.2)).map Prod.fst) [] →
          t.rstore.bytes (lr * rsSize + cnt) 4 = leBytes 4 keep.length ∧
          (overlaps b.out.addr (4 * kmax) cnt 4 = false → ∀ i < kmax,
            t.rstore.bytes (lr * rsSize + b.out.addr + 4 * i) 4 = leBytes 4 (keep.getD i (2 ^ 32 - 1)))))) ∧
  (∀ xs : List (Nat × W32), (ranked xs).Perm xs ∧ (xs.Pairwise (fun x y => x.1 < y.1) →
    (ranked xs).Pairwise fun x y => ordKey y.2 < ordKey x.2 ∨ (ordKey y.2 = ordKey x.2 ∧ x.1 < y.1))) ∧
  (∀ (box : Nat → Box) (thr : W32) (kmax : Nat) (cand : List Nat),
    (nms box thr kmax cand []).Sublist cand ∧ (nms box thr kmax cand []).length ≤ kmax ∧
      (nms box thr kmax cand []).Pairwise (fun j i => fle (iou (box i) (box j)) thr = true))

/-- AT.FWD and AT.BWD store O and LSE, or dQ, dK and dV, by row, each formed by its reference, and change no other byte but their scratch
area's; the row of one block of keys, and a block with no real key, which is no step; P and dS of a row (R273, R275, R276, R277, R279, R280,
R281, R282, R283, R301). -/
def Obligations.AttentionOverABatch : Prop :=
  (∀ (s : State) (lr : Nat) (w0 w1 : W64) (c : Course) (b : AtBlock) (es : List LtE), s.coreUp → s.Canon → s.mayIssue lr w0 w1 = some c →
    s.badStore = [] → (s.raft lr).ahead = [] → SMap.rising s.rafts = true → wbits w1 0 19 * 64 + 128 ≤ rsSize → s.rsOk lr (wbits w1 0 19 * 64) 128 = true →
    b = atBlock (s.rsRead lr (wbits w1 0 19 * 64) 128) → es = (s.ltEntries lr b).filter (fun e => e.ql ≠ 0) →
    ∀ x ∈ ([(0x80, .atFwd lr w0 w1, [(!b.noGrad, 0x90)],
          fun e => [b.qRange b.q (fmtBytes b.fmt) e, b.kRange b.k (fmtBytes b.fmt) e, b.kRange b.v (fmtBytes b.fmt) e],
          fun e => [b.qRange b.o (fmtBytes b.ofmt) e, b.lseRange e],
          fun t => t.each es fun t e => t.fwdEntry s lr b (decide (wbits w0 37 1 = 1)) e),
        (0x81, .atBwd lr w0 w1, [([b.tidDO, b.tidDQ, b.tidDK, b.tidDV, b.tidDS].any (s.badTid c), 0x91)],
          fun e => [b.qRange b.q (fmtBytes b.fmt) e, b.kRange b.k (fmtBytes b.fmt) e, b.kRange b.v (fmtBytes b.fmt) e,
            b.qRange b.o (fmtBytes b.ofmt) e, b.lseRange e, b.qRange b.dO (fmtBytes b.fmt) e],
          fun e => [b.qRange b.dQ (fmtBytes b.ofmt) e, b.kRange b.dK (fmtBytes b.ofmt) e, b.kRange b.dV (fmtBytes b.ofmt) e],
          fun t => t.each es fun t e => t.bwdEntry s lr b (decide (wbits w0 37 1 = 1)) e)] :
        List (Nat × Instr × List (Bool × Nat) × (LtE → List (Nat × Nat)) × (LtE → List (Nat × Nat)) × (State → State))),
      opcodeOf w0 = x.1 → wellFormedWords x.1 w0 w1 = true →
      ∀ bad : List Nat, bad = broken (s.atCodes c b ++ x.2.2.1 ++ s.rangeCodes lr [(b.lt, 16 * b.nseq)] ++
        [(!inStore (b.scr, 0x200000), 0x92)] ++ (if broken (s.rangeCodes lr [(b.lt, 16 * b.nseq)]) = [] then
          [(!ltRising (s.ltEntries lr b), 0x91), (!(es.flatMap x.2.2.2.2.1).all inStore, 0x92)] ++ s.rangeCodes lr (es.flatMap x.2.2.2.1)
          else [])) →
      (bad ≠ [] → exec x.2.1 s = .next (s.progError lr (lowest bad))) ∧
      (bad = [] →
        exec x.2.1 s = .next (((x.2.2.2.2.2 (s.useScratch lr b.scr b.slotb)).attDone lr).settle lr (sigOf w0))) ∧
      (bad = [] → sigEn w0 = false → (s.raft lr).seg = none → ∃ t, exec x.2.1 s = .next t ∧
        (t.raft lr).pc = (s.raft lr).pc + 1 ∧
        t.getF (Reg.TRS_ATT_CMDS.CMDS (lr / 8)) =
          (s.getF (Reg.TRS_ATT_CMDS.CMDS (lr / 8)) + 1) % 2 ^ (Reg.TRS_ATT_CMDS.CMDS (lr / 8)).w ∧
        (∀ a : Nat, (∀ r ∈ (b.scr, 0x200000) :: es.flatMap x.2.2.2.2.1, ¬ (lr * rsSize + r.1 ≤ a ∧ a < lr * rsSize + r.1 + r.2)) →
          t.rstore.byte a = s.rstore.byte a) ∧
        ∀ (m : AtMath) (d w g : Nat) (kvs : LtE → Nat → List (List Nat × List Nat)), m = s.atMath b → d = headDim b.dcode →
          w = fmtBytes b.ofmt → g = b.hq / b.hkv →
          (∀ e kh, kvs e kh = (List.range e.kl).map fun j =>
            (s.atRow lr b.k b.hkv d b.fmt (e.ks + j) kh, s.atRow lr b.v b.hkv d b.fmt (e.ks + j) kh)) →
          (x.1 = 0x80 → (∀ e ∈ es, ∀ f ∈ es, overlaps (b.qRange b.o w e).1 (b.qRange b.o w e).2 (b.lseRange f).1 (b.lseRange f).2 = false) →
            ∀ e ∈ es, ∀ i < e.ql, ∀ h < b.hq, ∀ r : List W32 × W32 × Nat,
              r = m.fwdRow d (s.atRow lr b.q b.hq d b.fmt (e.qs + i) h) ((e.kl : Int) - e.ql + i) (kvs e (h / g)) →
              (∀ n < d, t.rstore.bytes (lr * rsSize + b.o + (((e.qs + i) * b.hq + h) * d + n) * w) w =
                leBytes w (toStored b.ofmt (r.1.getD n 0) (s.scaleOf b.tidO)).code) ∧
              t.rstore.bytes (lr * rsSize + b.lse + ((e.qs + i) * b.hq + h) * 4) 4 = leBytes 4 r.2.1.toNat) ∧
          (x.1 = 0x81 → (∀ e ∈ es, ∀ f ∈ es, [(b.qRange b.dQ w e, b.kRange b.dK w f), (b.qRange b.dQ w e, b.kRange b.dV w f),
              (b.kRange b.dK w e, b.kRange b.dV w f)].all (fun y => !overlaps y.1.1 y.1.2 y.2.1 y.2.2) = true) →
            es.Pairwise (fun e f => e.ks + e.kl ≤ f.ks ∨ f.ks + f.kl ≤ e.ks) →
            ∀ (rows : LtE → Nat → List (List (Nat × Option Conv))) (eds : Int), eds = (if b.fmt ≤ 1 then s.scaleOf b.tidDS else 0) →
            (∀ e h, rows e h = (List.range e.ql).map fun i => s.bwdRow lr b e h i (kvs e (h / g))) → ∀ e ∈ es,
              (∀ i < e.ql, ∀ h < b.hq, ∀ n < d, t.rstore.bytes (lr * rsSize + b.dQ + (((e.qs + i) * b.hq + h) * d + n) * w) w =
                leBytes w (toStored b.ofmt (fscale (dotRaw m.split m.dsFmt b.fmt (((rows e h).getD i []).map dsCode)
                  ((kvs e (h / g)).map fun y => y.1.getD n 0)) (-(eds + m.ek))) (s.scaleOf b.tidDQ)).code) ∧
              (∀ j < e.kl, ∀ kh < b.hkv, ∀ n < d,
                t.rstore.bytes (lr * rsSize + b.dV + (((e.ks + j) * b.hkv + kh) * d + n) * w) w =
                  leBytes w (toStored b.ofmt (fscale (gradSum m.split m.pFmt b.fmt ((List.range g).map fun q =>
                    ((rows e (kh * g + q)).map fun y => (y.getD j (0, none)).1,
                      (List.range e.ql).map fun i => (s.atRow lr b.dO b.hq d b.fmt (e.qs + i) (kh * g + q)).getD n 0)))
                    (-(m.pExp + s.scaleOf b.tidDO))) (s.scaleOf b.tidDV)).code ∧
                t.rstore.bytes (lr * rsSize + b.dK + (((e.ks + j) * b.hkv + kh) * d + n) * w) w =
                  leBytes w (toStored b.ofmt (fscale (gradSum m.split m.dsFmt b.fmt ((List.range g).map fun q =>
                    ((rows e (kh * g + q)).map fun y => dsCode (y.getD j (0, none)),
                      (List.range e.ql).map fun i => (s.atRow lr b.q b.hq d b.fmt (e.qs + i) (kh * g + q)).getD n 0)))
                    (-(eds + m.eq))) (s.scaleOf b.tidDK)).code)))) ∧
  (∀ (s : State) (lr h i j : Nat) (b : AtBlock) (e : LtE) (kvs : List (List Nat × List Nat)) (m : AtMath) (d : Nat) (q dO o : List Nat)
      (lse : W32) (x : List Nat × List Nat), m = s.atMath b → d = headDim b.dcode → kvs[j]? = some x →
    q = s.atRow lr b.q b.hq d b.fmt (e.qs + i) h → dO = s.atRow lr b.dO b.hq d b.fmt (e.qs + i) h →
    o = s.atRow lr b.o b.hq d b.ofmt (e.qs + i) h → lse = w32Of (leNat (s.rsRead lr (b.lse + ((e.qs + i) * b.hq + h) * 4) 4)) →
    (m.real ((e.kl : Int) - e.ql + i) j = false → (s.bwdRow lr b e h i kvs)[j]? = some (m.pCode 0, none)) ∧
    (m.real ((e.kl : Int) - e.ql + i) j = true → ∀ p dp dlt : W32,
      p = (if lse = 0xFF800000 then 0 else exp2 (fadd (m.score q x.1) (fneg lse))) →
      dp = fscale (dotRaw m.split b.fmt b.fmt dO x.2) (-(s.scaleOf b.tidDO + m.ev)) →
      dlt = (dO.zip o).foldl (fun a y => ffma (if b.fmt ≤ 1 then fscale (widen b.fmt y.1) (-(s.scaleOf b.tidDO)) else widen b.fmt y.1)
        (if b.ofmt ≤ 1 then fscale (widen b.ofmt y.2) (-(s.scaleOf b.tidO)) else widen b.ofmt y.2) a) 0 →
      (s.bwdRow lr b e h i kvs)[j]? =
        some (m.pCode p, some (m.dsConv (s.scaleOf b.tidDS) (fmul (fmul p (fadd dp (fneg dlt))) b.cGrad))))) ∧
  (∀ (m : AtMath) (d : Nat) (q : List Nat) (p : Int) (kvs : List (List Nat × List Nat)) (xs : List (Option W32)) (ps : List W32) (mn l : W32)
      (o : List W32), 0 < kvs.length → kvs.length ≤ 512 → (∃ j < kvs.length, m.real p j = true) →
    xs = (List.range kvs.length).map (fun j => if m.real p j = true then
      some (fmul (fscale (dotRaw m.split m.fmt m.fmt q (kvs.getD j ([], [])).1) (-(m.eq + m.ek))) m.cScale) else none) →
    mn = fmax 0xFF800000 (maxOf (xs.filterMap id)) →
    ps = xs.map (fun x => match x with | some v => exp2 (fadd v (fneg mn)) | none => 0) → l = ffma 0 0x3F800000 (tree512 ps) →
    o = (List.range d).map (fun n => ffma 0 0x3F800000 (fscale (dotRaw m.split m.pFmt m.fmt (ps.map m.pCode) (kvs.map fun x => x.2.getD n 0))
      (-(m.pExp + m.ev)))) →
    m.fwdRow d q p kvs = if l = 0 then (List.replicate d 0, 0xFF800000, 0) else (o.map fun v => fdiv v l, fadd mn (log2 l), 0)) ∧
  (∀ (m : AtMath) (d : Nat) (q : List Nat) (p : Int) (kvs more : List (List Nat × List Nat)), kvs.length % 512 = 0 →
    (∀ i < more.length, m.real p (kvs.length + i) = false) → m.fwdRow d q p (kvs ++ more) = m.fwdRow d q p kvs) ∧
  (∀ (m : AtMath) (d : Nat) (q : List Nat) (p : Int) (kvs : List (List Nat × List Nat)), (∀ i < kvs.length, m.real p i = false) →
    m.fwdRow d q p kvs = (List.replicate d 0, 0xFF800000, 0))

/-- KV.CONF, KV.EDIT with each of its edits, KV.APPEND with its blocks, AT.DEC, the end of a walker, reclaim and the end of a rollback (R286, R285, R287, R288, R289, R290, R291, R293, R295, R296, R298, R299). -/
def Obligations.RolloutCache : Prop :=
  ∀ s : State, s.coreUp → s.Canon → SMap.rising s.rafts = true → SMap.rising s.kv.seqs = true → s.badStore = [] →
    (∀ (lr : Nat) (w0 w1 : W64) (c : Course), s.mayIssue lr w0 w1 = some c → (s.raft lr).ahead = [] → s.kv.conf = none →
      ∀ x ∈ [(0x82, Instr.atDec lr w0 w1), (0x83, .kvAppend lr w0 w1), (0x84, .kvEdit lr w0 w1)], opcodeOf w0 = x.1 →
        wellFormedWords x.1 w0 w1 = true → ∃ code : Nat, exec x.2 s = .next (s.progError lr code) ∧ (code = 0x90 ∨ code = 0x91) ∧
          (s.rsOk lr (wbits w1 0 19 * 64) 128 = false → code = 0x91)) ∧
    (∀ (lr : Nat) (w0 w1 : W64) (c : Course) (k : KvConf), s.mayIssue lr w0 w1 = some c → (s.raft lr).ahead = [] → opcodeOf w0 = 0x85 →
      wellFormedWords 0x85 w0 w1 = true → wbits w1 0 19 * 64 + 128 ≤ rsSize → s.rsOk lr (wbits w1 0 19 * 64) 128 = true →
      k = kvConfOf (s.rsRead lr (wbits w1 0 19 * 64) 128) → kvConfReserved (s.rsRead lr (wbits w1 0 19 * 64) 128) = true →
      k.poolBase % 4096 = 0 → k.dcode ≠ 3 → (k.fmt = 0 ∨ k.fmt = 1 ∨ k.fmt = 3) → s.badTid c k.tidK = false → s.badTid c k.tidV = false →
      s.kvPast k = false →
      ((s.kv.seqs.any (fun x => decide (x.2.st ≠ .free)) || !s.kvWalkers.isEmpty) = true →
        exec (.kvConf lr w0 w1) s = .next (s.progError lr 0x91)) ∧
      ((s.kv.seqs.any (fun x => decide (x.2.st ≠ .free)) || !s.kvWalkers.isEmpty) = false → sigEn w0 = false → ∃ t,
        exec (.kvConf lr w0 w1) s = .next t ∧ t.kv = ⟨some k, [], 0, [], [], 0⟩ ∧ t.rstore = s.rstore ∧
        t.getF Reg.CRS_KV_STAT.CONF = 1 ∧ t.getF Reg.CRS_KV_STAT.LIVE = 0 ∧ t.getF Reg.CRS_KV_VER.VER = 0 ∧
        t.getF Reg.CRS_KV_PAGES.FREE = k.pages % 2 ^ 23)) ∧
    (∀ (lr : Nat) (w0 w1 : W64) (c : Course) (k : KvConf) (w : Nat), s.mayIssue lr w0 w1 = some c → (s.raft lr).ahead = [] → s.kv.conf = some k →
      w = s.kvWord lr w1 → wbits w1 0 19 * 64 + 128 ≤ rsSize → s.rsOk lr (wbits w1 0 19 * 64) 128 = true →
      ∀ x ∈ [(0x83, false, Instr.kvAppend lr w0 w1), (0x84, true, .kvEdit lr w0 w1)], opcodeOf w0 = x.1 → wellFormedWords x.1 w0 w1 = true →
        kvBlockOk (s.rsRead lr (wbits w1 0 19 * 64) 128) (if x.2.1 then bitsOf w 54 10 else bitsOf w 58 6) = true →
        inStore (kvRes x.2.1 w, kvCount x.2.1 w) = true → broken (s.rangeCodes lr [(kvList w, 8 * kvCount x.2.1 w)]) = [] →
        (x.2.1 = true → ∀ e ∈ s.kvEntries true lr w, (kvEditOf e).op < 5 ∧ (kvEditOf e).reserved = true) →
        (x.2.1 = false → kvLayer w < k.layers ∧ ∀ e ∈ s.kvEntries false lr w, (kvAppOf e).reserved = true ∧
          broken (s.rangeCodes lr [((kvAppOf e).src, (kvAppOf e).n * k.tokBytes), (k.valSrc (kvAppOf e), (kvAppOf e).n * k.tokBytes)]) = []) →
        ∃ t : State, t = s.setRaft lr { s.raft lr with kvJob := some ⟨x.2.1, w0, w1, 0, 0, false⟩ } ∧
          exec x.2.2 s = .next (State.kvRun lr (18 * (kvCount x.2.1 w + 1)) t).kvReport) ∧
    (∀ (k : KvConf) (e : KvEdit), e.q < 4096 → s.kvLog < 65536 →
      ((s.kvSeq e.q).st = .free → ∃ t, s.kvOpen k e = .result 0 t ∧ t.kvSeq e.q = ⟨.live, 0, 0, false, 0⟩ ∧
        t.kv.ver = (s.kv.ver + 1) % 2 ^ 48 ∧ ∀ q : Nat, q ≠ e.q → t.kvSeq q = s.kvSeq q) ∧
      ((s.kvSeq e.q).st = .live → s.kvOpen k e = .result 1 s ∧ s.kvFork k e = .result 1 s) ∧
      ((s.kvSeq e.q).st = .pendingReclaim → s.kvOpen k e = .wait ∧ s.kvFork k e = .wait) ∧
      ((s.kvSeq e.q).st ≠ .live → s.kvAdvance k e = .result 1 s ∧ s.kvTrunc k e = .result 1 s ∧ s.kvFreeSeq k e = .result 1 s) ∧
      ((s.kvSeq e.q).st = .live → (s.kvSeq e.q).nb * 128 < (s.kvSeq e.q).len + e.arg → s.kvAdvance k e = .result 2 s) ∧
      ((s.kvSeq e.q).st = .live → (s.kvSeq e.q).len + e.arg ≤ (s.kvSeq e.q).nb * 128 → ∃ t, s.kvAdvance k e = .result 0 t ∧
        t.kvSeq e.q = { s.kvSeq e.q with len := (s.kvSeq e.q).len + e.arg } ∧ t.kv.ver = (s.kv.ver + 1) % 2 ^ 48)) ∧
    (∀ (k : KvConf) (e : KvEdit) (nb : Nat) (ps : List Nat), e.q < 4096 → e.src < 4096 → s.kvLog < 65536 → s.kvPast k = false →
      overlaps k.mapBase (4096 * k.layers * k.maxBlocks * 4) k.refBase (2 * k.pages) = false →
      overlaps k.mapBase (4096 * k.layers * k.maxBlocks * 4) k.logBase (2 ^ 20) = false →
      overlaps k.refBase (2 * k.pages) k.logBase (2 ^ 20) = false → nb = ceilDiv e.arg 128 → ps.Nodup → (∀ p ∈ ps, p < k.pages) →
      ((s.kvSeq e.q).st = .free → (s.kvSeq e.src).st = .live → e.arg ≤ (s.kvSeq e.src).len → nb ≤ k.maxBlocks →
        ps = s.kvPages k e.src 0 nb → (∀ p ∈ ps, s.kvRef k p < 65535) → ∃ t, s.kvFork k e = .result 0 t ∧
          t.kvSeq e.q = ⟨.live, e.arg, nb, false, nb⟩ ∧ t.kv.ver = (s.kv.ver + 1) % 2 ^ 48 ∧ t.kvLog = s.kvLog + 1 ∧
          (∀ q : Nat, q ≠ e.q → t.kvSeq q = s.kvSeq q) ∧ (∀ l < k.layers, ∀ b < nb, t.kvPage k e.q l b = s.kvPage k e.src l b) ∧
          ∀ p < k.pages, t.kvRef k p = s.kvRef k p + if p ∈ ps then 1 else 0) ∧
      ((s.kvSeq e.q).st = .live → e.arg ≤ (s.kvSeq e.q).len → ps = s.kvPages k e.q nb (s.kvSeq e.q).nb → ∃ t, s.kvTrunc k e = .result 0 t ∧
          t.kvSeq e.q = { s.kvSeq e.q with len := e.arg, nb := nb, wp := decide (e.arg % 128 ≠ 0) } ∧
          t.kv.ver = (s.kv.ver + 1) % 2 ^ 48 ∧ t.kvLog = s.kvLog + 1 ∧ (∀ q : Nat, q ≠ e.q → t.kvSeq q = s.kvSeq q) ∧
          (∀ p < k.pages, t.kvRef k p = s.kvRef k p - if p ∈ ps then 1 else 0) ∧
          t.kv.pend = s.kv.pend ++ (ps.filter fun p => decide (s.kvRef k p ≤ 1)).map fun p => (Pend.page p, (s.kv.ver + 1) % 2 ^ 48)) ∧
      ((s.kvSeq e.q).st = .live → ps = s.kvPages k e.q 0 (s.kvSeq e.q).nb → ∃ t, s.kvFreeSeq k e = .result 0 t ∧
          t.kvSeq e.q = ⟨.pendingReclaim, 0, 0, false, 0⟩ ∧ t.kv.ver = (s.kv.ver + 1) % 2 ^ 48 ∧ t.kvLog = s.kvLog + 1 ∧
          (∀ q : Nat, q ≠ e.q → t.kvSeq q = s.kvSeq q) ∧ (∀ p < k.pages, t.kvRef k p = s.kvRef k p - if p ∈ ps then 1 else 0) ∧
          t.kv.pend = s.kv.pend ++ ((ps.filter fun p => decide (s.kvRef k p ≤ 1)).map fun p => (Pend.page p, (s.kv.ver + 1) % 2 ^ 48)) ++
            [(.seq e.q, (s.kv.ver + 1) % 2 ^ 48)])) ∧
    (∀ (k : KvConf) (q l pos : Nat) (bumped : Bool), s.kvLog < 65536 →
      (pos / 128 = (s.kvSeq q).nb → (decide ((s.kvSeq q).nb < (s.kvSeq q).top) && s.kvBusy q) = false → k.layers ≤ s.kvFree k →
        ∃ t, s.kvReady k q l pos bumped = .ready t true ∧ t.kvLog = s.kvLog + 1 ∧
          t.kv.ver = (if bumped = true then s.kv.ver else (s.kv.ver + 1) % 2 ^ 48) ∧
          t.kvSeq q = { s.kvSeq q with
            nb := (s.kvSeq q).nb + 1, wp := false, top := max (s.kvSeq q).top ((s.kvSeq q).nb + 1) }) ∧
      (pos / 128 ≠ (s.kvSeq q).nb → (1 < s.kvRef k (s.kvPage k q l (pos / 128)) ∨ ((s.kvSeq q).wp = true ∧ pos / 128 + 1 = (s.kvSeq q).nb)) →
        s.kvBusy q = false → 1 ≤ s.kvFree k → ∃ t, s.kvReady k q l pos bumped = .ready t true ∧ t.kvLog = s.kvLog + 1 ∧
          t.kv.ver = (if bumped = true then s.kv.ver else (s.kv.ver + 1) % 2 ^ 48) ∧ t.kvSeq q = { s.kvSeq q with wp := false } ∧
          t.getF Reg.CRS_KV_COPIES.COPIES = (s.getF Reg.CRS_KV_COPIES.COPIES + 1) % 2 ^ Reg.CRS_KV_COPIES.COPIES.w)) ∧
    (∀ (k : KvConf) (q l pos : Nat) (bumped : Bool), pos / 128 < (s.kvSeq q).nb → s.kvRef k (s.kvPage k q l (pos / 128)) ≤ 1 →
      ((s.kvSeq q).wp = false ∨ pos / 128 + 1 ≠ (s.kvSeq q).nb) → s.kvReady k q l pos bumped = .ready s bumped) ∧
    (∀ (lr : Nat) (w0 w1 : W64) (c : Course) (k : KvConf) (b : DecBlock) (es : List DecE), s.mayIssue lr w0 w1 = some c → (s.raft lr).ahead = [] →
      s.kv.conf = some k → s.inj = none → opcodeOf w0 = 0x82 → wellFormedWords 0x82 w0 w1 = true →
      wbits w1 0 19 * 64 + 128 ≤ rsSize → s.rsOk lr (wbits w1 0 19 * 64) 128 = true → b = decBlock (s.rsRead lr (wbits w1 0 19 * 64) 128) →
      es = (List.range b.count).map (fun i => decEntry (s.rsWord lr (b.list + 8 * i))) →
      broken (s.rangeCodes lr [(b.list, 8 * b.count)]) = [] → broken (s.decCodes c b ++ s.decListCodes es) = [] →
      ([(b.scr, 0x200000), (b.o, (es.map (·.nq)).sum * b.hq * headDim k.dcode * fmtBytes b.ofmt), (b.lse, (es.map (·.nq)).sum * b.hq * 4)].all inStore) = true →
      broken (s.rangeCodes lr [(b.q, (es.map (·.nq)).sum * b.hq * headDim k.dcode * fmtBytes k.fmt)]) = [] →
      ∀ u : State, u = (s.useScratch lr b.scr b.slotb).decAll lr k b (decide (wbits w0 37 1 = 1)) es 0 → u.working ≠ none →
      ∃ t, exec (.atDec lr w0 w1) s = .next t ∧ (t.raft lr).walker = some (s.kv.ver, es.map (·.q), w0) ∧ (t.raft lr).pc = (u.raft lr).pc ∧
        t.rstore = u.rstore ∧ t.kv = u.kv) ∧
    (∀ (lr : Nat) (c : Course) (w : Nat × List Nat × W64), s.working = some c → (s.raft lr).walker = some w →
      exec (.walkerEnd lr) s = .next
        ((((s.setRaft lr { s.raft lr with walker := none }).kvReclaim).attDone lr).settle lr (sigOf w.2.2)).kvResume) ∧
    (exec .reclaim s = .next s.kvReclaim.kvResume ∧ ∀ x : Pend × Nat, x ∈ s.kvReclaim.kv.pend ↔ x ∈ s.kv.pend ∧
      ∃ w ∈ s.kvWalkers, w.1 < x.2) ∧
    (s.getF Reg.CRS_KV_STAT.ROLLBACK ≠ 0 → ∃ t, exec .kvRollbackDone s = .next t ∧ t.getF Reg.CRS_KV_STAT.ROLLBACK = 0 ∧
      t.resumePend = false ∧ (s.resumePend = true → t.getF Reg.CRS_STATUS.HELD = 0) ∧
      (s.resumePend = false → t.getF Reg.CRS_STATUS.HELD = s.getF Reg.CRS_STATUS.HELD))

/-- Accesses to addresses no register has, and of any other width or alignment (R8, R9), and reads of the doorbells (R117, R118). That an access
to part of a doorbell reads as all ones is the model's reading (log entry 63). -/
def Obligations.RegisterAccessesOutsideTheMap : Prop :=
  ∀ (s : State) (a n : Nat) (v : W64), s.coreUp →
    ((n = 4 ∨ n = 8) → a % n = 0 → rawArea a = false → findReg a = none →
      s.readReg a n = (if meetsReg a n = true then 2 ^ (8 * n) - 1 else 0) ∧ exec (.registerWrite a n v) s = .next s) ∧
    (((n ≠ 4 ∧ n ≠ 8) ∨ a % n ≠ 0) → s.readReg a n = 2 ^ (8 * n) - 1 ∧ exec (.registerWrite a n v) s = .next s) ∧
    (∀ r < 1024, s.readBar2 (r * 0x1000) 8 = (s.ring r).sqDoorbell.toNat ∧ s.readBar2 (r * 0x1000 + 8) 8 = (s.ring r).cqDoorbell.toNat) ∧
    ((n = 4 ∨ n = 8) → a % n = 0 → 16 ≤ a % 0x1000 → s.readBar2 a n = 0)

/-- Temperature rows, scrub, injections, the loop-back test, retraining and migration of an HBM stack. That rows fall one at a time (log entry
20), that PEAK_CLR stores 0 (21), that the retrains of a stack take effect when the last has ended (22) and that a granule another map-out still
serves keeps its bytes (85) are the model's reading; that the counters wrap is its choice (25) (R338, R343, R344, R345, R346, R348, R350, R351, R331, R354). -/
def Obligations.HbmTemperatureScrubAndRetraining : Prop :=
  ∀ (s : State) (st : Nat), s.coreUp → s.Canon → st < 20 →
    (∀ t : Nat, t < 256 → ∃ u, exec (.dramTempSample st t) s = .next u ∧ u.getF (Reg.MEM_TEMP.TEMP st) = t ∧
      u.getF (Reg.MEM_TEMP.TPEAK st) = max t (s.getF (Reg.MEM_TEMP.TPEAK st)) % 256 ∧
      s.onlyFields u [Reg.MEM_TEMP.TEMP st, Reg.MEM_TEMP.TPEAK st, Reg.MEM_TEMP.REFRESH st, Reg.MEM_TEMP.THROTTLE st] ∧
      (s.dramRowOf st ≤ dramRow t → u.getF (Reg.MEM_TEMP.REFRESH st) = min (dramRow t) 2 ∧ u.getF (Reg.MEM_TEMP.THROTTLE st) = dramRow t - 2) ∧
      (dramRow t < s.dramRowOf st → s.dramRowOf st ≤ 4 →
        (dramLow (s.dramRowOf st) < t + 3 → u.getF (Reg.MEM_TEMP.REFRESH st) = min (s.dramRowOf st) 2 ∧
          u.getF (Reg.MEM_TEMP.THROTTLE st) = s.dramRowOf st - 2) ∧
        (t + 3 ≤ dramLow (s.dramRowOf st) → dramRow t ≤ u.dramRowOf st ∧ u.dramRowOf st < s.dramRowOf st))) ∧
    (∀ (sec p : Nat), st = stackOf (s.placeOf (sec * 64)).1 → p = s.physOf st (chanOf (s.placeOf (sec * 64)).1) (s.placeOf (sec * 64)).2 →
      (s.getF (Reg.MEM_SCRUB.EN st) = 0 → exec (.scrubRead sec) s = .next s) ∧
      (s.sectorState sec = .clean → exec (.scrubRead sec) s = .next s) ∧
      (s.getF (Reg.MEM_SCRUB.EN st) ≠ 0 → s.sectorState sec = .corrected → ∃ u, exec (.scrubRead sec) s = .next u ∧
        u.getF (Reg.MEM_PCH_CE.CE st p) = (s.getF (Reg.MEM_PCH_CE.CE st p) + 1) % 2 ^ 32 ∧ s.fieldsKept u [Reg.MEM_PCH_CE.CE st p] ∧
        u.poison = s.poison ∧ u.hbm = s.hbm ∧ (SMap.rising s.symErr = true → SMap.look 0 sec u.symErr = 0)) ∧
      (s.getF (Reg.MEM_SCRUB.EN st) ≠ 0 → s.sectorState sec = .bad → s.poison.contains sec = false → ∃ u, exec (.scrubRead sec) s = .next u ∧
        u.getF (Reg.MEM_PCH_UE.UE_SCRUB st p) = (s.getF (Reg.MEM_PCH_UE.UE_SCRUB st p) + 1) % 2 ^ 16 ∧
        s.fieldsKept u [Reg.MEM_PCH_UE.UE_SCRUB st p] ∧ u.poison.contains sec = true ∧ u.hbm = s.hbm ∧ u.course = s.course)) ∧
    (∀ (c : Nat) (v : W32), c < 32 →
      (v.toNat.testBit 19 = false → exec (.channelRetrainRequest st c v) s = .next s) ∧
      (v.toNat.testBit 19 = true → ∃ u, exec (.channelRetrainRequest st c v) s = .next u ∧
        (34 * st + s.getF (Reg.MEM_LCH_STAT.PHYS st c)) ∈ u.retrainPend ∧ s.fieldsKept u [Reg.MEM_LCH_STAT.STATE st c] ∧
        u.getF (Reg.MEM_LCH_STAT.STATE st c) = if s.getF (Reg.MEM_LCH_STAT.STATE st c) = 0 then 1 else s.getF (Reg.MEM_LCH_STAT.STATE st c))) ∧
    (∀ (p c : Nat), p < 34 → c < 32 → c = s.getF (Reg.MEM_PCH_STAT.LOGICAL st p) → s.getF (Reg.MEM_PCH_STAT.STATE st p) = 4 →
      s.migOf st c = none → s.power.fatal = none →
      (s.retraining.contains (34 * st + p) = false → ∀ r : Nat, exec (.channelRetrainEnd st p r) s = .next s) ∧
      (s.retraining.contains (34 * st + p) = true → (∃ i ∈ s.retraining, i / 34 = st ∧ i ≠ 34 * st + p) →
        ∀ r : Nat, exec (.channelRetrainEnd st p r) s = .next { s with
          retraining := s.retraining.filter (· ≠ 34 * st + p), deadChans := s.deadChans.filter (· ≠ 34 * st + p)
          retrained := s.retrained ++ [(34 * st + p, r)] }) ∧
      (s.retraining.contains (34 * st + p) = true → (∀ i ∈ s.retraining, i / 34 = st → i = 34 * st + p) →
        (∀ x ∈ s.retrained, x.1 / 34 ≠ st) →
        (∃ u, exec (.channelRetrainEnd st p 0) s = .next u ∧ u.getF (Reg.MEM_PCH_STAT.STATE st p) = 0 ∧ u.migs = s.migs ∧
          u.retraining = s.retraining.filter (· ≠ 34 * st + p) ∧ u.mapOutDue = s.mapOutDue ∧
          s.fieldsKept u [Reg.MEM_PCH_STAT.STATE st p, Reg.MEM_LCH_STAT.STATE st c] ∧
          (s.getF (Reg.MEM_LCH_STAT.STATE st c) ≤ 1 → u.getF (Reg.MEM_LCH_STAT.STATE st c) = 0)) ∧
        (∀ d : Nat, s.freeChannel st = some d → ∃ u, exec (.channelRetrainEnd st p 1) s = .next u ∧
          u.migs = s.migs ++ [⟨st, c, p, some d, 0, false⟩] ∧ u.mapOutDue = s.mapOutDue ∧ u.course = s.course ∧
          u.getF (Reg.MEM_LCH_STAT.STATE st c) = 2 ∧ u.getF (Reg.MEM_LCH_STAT.PHYS st c) = p ∧ u.getF (Reg.MEM_PCH_STAT.STATE st p) = 2 ∧
          u.getF (Reg.MEM_PCH_STAT.LOGICAL st d) = c ∧ u.getF (Reg.MEM_PCH_STAT.STATE st d) = 0 ∧
          u.getF (Reg.MEM_LCH_MIG.DONE st c) = 0 ∧ u.getF (Reg.MEM_LCH_MIG.TOTAL st c) = 393216 ∧
          u.getF Reg.FLT_STATUS.STATUS = s.getF Reg.FLT_STATUS.STATUS ∧
          (0 < s.getF Reg.GEN_SPARES.CHAN_FREE → s.getF Reg.GEN_SPARES.CHAN_FREE < 64 →
            u.getF Reg.GEN_SPARES.CHAN_FREE + 1 = s.getF Reg.GEN_SPARES.CHAN_FREE)) ∧
        (s.freeChannel st = none → s.course = none → ∃ u, exec (.channelRetrainEnd st p 1) s = .next u ∧
          u.mapOutDue = s.mapOutDue ++ [(20 * c + st, false)] ∧ u.migs = s.migs))) ∧
    (∀ (c i g : Nat) (m : Mig), c < 32 → s.migOf st c = some m → i = s.getF (Reg.MEM_LCH_MIG.DONE st c) → g = s.migGranule m i →
      (m.dead = false → (∀ q ∈ sectorsOf (g * 4096) 4096, s.sectorState q = .clean) →
        (i + 1 ≠ s.getF (Reg.MEM_LCH_MIG.TOTAL st c) →
          exec (.migrationGranuleCopy st c) s = .next (s.setF (Reg.MEM_LCH_MIG.DONE st c) (i + 1))) ∧
        (∀ d : Nat, i + 1 = s.getF (Reg.MEM_LCH_MIG.TOTAL st c) → m.dst = some d → m.src < 34 → d < 34 → d ≠ m.src →
          ∃ u, exec (.migrationGranuleCopy st c) s = .next u ∧ u.migs = s.migs.filter (· ≠ m) ∧ u.getF (Reg.MEM_LCH_STAT.STATE st c) = 0 ∧
            u.getF (Reg.MEM_LCH_STAT.PHYS st c) = d ∧ u.getF (Reg.MEM_PCH_STAT.STATE st m.src) = 3 ∧
            u.getF (Reg.MEM_PCH_STAT.LOGICAL st m.src) = 0x3F ∧ u.poison = s.poison ∧ u.hbm = s.hbm)) ∧
      (m.dead = true → i + 1 ≠ s.getF (Reg.MEM_LCH_MIG.TOTAL st c) → ∃ u, exec (.migrationGranuleCopy st c) s = .next u ∧
        u.getF (Reg.MEM_LCH_MIG.DONE st c) = (i + 1) % 2 ^ 32 ∧
        ((s.placeOf (g * 4096)).1 = 20 * c + st → ∀ j : Nat, j < 64 → g * 64 + j ∈ u.poison) ∧
        ((s.placeOf (g * 4096)).1 ≠ 20 * c + st → u.poison = s.poison) ∧ u.course = s.course)) ∧
    (∀ v : W64,
      (v.toNat.testBit 0 = true → s.getF Reg.CRS_CTRL.ENABLE = 0 → s.getF (Reg.MEM_STAT.MIG st) = 0 →
        ∃ u, exec (.loopbackStart st v) s = .next u ∧ u.getF (Reg.MEM_LOOP.START st) = 1 ∧ u.getF (Reg.MEM_LOOP.DONE st) = 0 ∧
          u.getF (Reg.MEM_LOOP.ERRS st) = 0 ∧ u.getF (Reg.MEM_LOOP.DUR_US st) = wbits v 16 16 ∧ u.hbm = s.hbm) ∧
      (v.toNat.testBit 0 = true → (s.getF Reg.CRS_CTRL.ENABLE ≠ 0 ∨ s.getF (Reg.MEM_STAT.MIG st) ≠ 0) →
        ∃ u, exec (.loopbackStart st v) s = .next u ∧ u.getF (Reg.MEM_LOOP.REFUSED st) = 1 ∧
          s.onlyFields u [Reg.MEM_LOOP.REFUSED st, Reg.MEM_LOOP.DUR_US st])) ∧
    (∀ errs : Nat, (s.getF (Reg.MEM_LOOP.START st) = 0 → exec (.loopbackDone st errs) s = .next s) ∧
      (s.getF (Reg.MEM_LOOP.START st) ≠ 0 → ∃ u, exec (.loopbackDone st errs) s = .next u ∧ u.getF (Reg.MEM_LOOP.START st) = 0 ∧
        u.getF (Reg.MEM_LOOP.DONE st) = 1 ∧ u.getF (Reg.MEM_LOOP.ERRS st) = errs % 2 ^ 32 ∧
        s.onlyFields u [Reg.MEM_LOOP.START st, Reg.MEM_LOOP.DONE st, Reg.MEM_LOOP.ERRS st])) ∧
    (∀ v : W32,
      exec (.peakClr st v) s = .next (if v.toNat.testBit 20 then s.setF (Reg.MEM_TEMP.TPEAK st) 0 else s) ∧
      (∃ u, exec (.memInjectArm st v) s = .next u ∧ u.getF (Reg.MEM_INJECT.LCH st) = bitsOf v.toNat 1 5 ∧
        u.getF (Reg.MEM_INJECT.MODE st) = bitsOf v.toNat 6 1 ∧
        u.getF (Reg.MEM_INJECT.ARM st) = (if v.toNat.testBit 0 then 1 else s.getF (Reg.MEM_INJECT.ARM st)) ∧
        s.onlyFields u [Reg.MEM_INJECT.LCH st, Reg.MEM_INJECT.MODE st, Reg.MEM_INJECT.ARM st]) ∧
      (∃ u, exec (.thcInjectArm v) s = .next u ∧ u.getF Reg.THC_INJECT.TARGET = bitsOf v.toNat 1 1 ∧
        u.getF Reg.THC_INJECT.ARM = (if v.toNat.testBit 0 then 1 else s.getF Reg.THC_INJECT.ARM) ∧
        s.onlyFields u [Reg.THC_INJECT.TARGET, Reg.THC_INJECT.ARM]))

/-- A yelm that the encoder writes passes every check of the leggett and expands to the elements that went in (R304, R308, R309, R310, R313, R314, R315, R326). -/
def Obligations.ThatchIsLossless : Prop :=
  ∀ (f : Nat) (lens xs : List Nat) (rest : List Byte), thFmt f = true → lens.length = thZ f + 5 → (∀ l ∈ lens, l ≤ 15) → tableOk lens = true →
    1 ≤ xs.length → xs.length ≤ 256 → (∀ x ∈ xs, x < 2 ^ fmtBits f) →
    checkYelm f (canon lens) xs.length ((encodeYelm f (canon lens) xs false).bytes ++ rest) =
      .ok (xs, (encodeYelm f (canon lens) xs false).bytes.length)

/-- Normal-class loads, stores and drains move the bytes they name and no others, signal where SIG_EN is set, and count in the THC counters what
they compress (R164, R165, R167, R171, R174, R180, R181, R185, R306, R318, R330). -/
def Obligations.StreamerMovesBytes : Prop :=
  ∀ (s : State) (lr : Nat) (w0 w1 : W64) (c : Course) (x : StF) (far : FarAns), s.coreUp → s.Canon → s.inj = none → s.mayIssue lr w0 w1 = some c →
    (s.raft lr).ahead = [] → (s.raft lr).down = [] → (s.raft lr).seg = none → SMap.rising s.rafts = true →
    (sigEn w0 = true → s.event lr (sigEv w0) < 0xFFFF ∧ (12 ≤ sigEv w0 ∨ sigEv w0 < (s.raft lr).events.length)) → x = stFields w0 w1 →
    s.badStore = [] → s.badAcc = [] → s.inSave x.tier x.far = false → x.cls = 0 → lr < 32 →
    (opcodeOf w0 = 0x20 → wellFormedWords 0x20 w0 w1 = true → inStore (x.near, x.n) = true → s.farBad x.tier x.far x.n = false →
      (∀ a : Nat, x.tier = 2 → s.pieces c 2 x.far x.n false = [⟨2, a, x.n⟩] → (∀ q ∈ sectorsOf a x.n, s.sectorState q = .clean) →
        ∃ t, exec (.stLoad lr w0 w1 far) s = .next t ∧ t.rstore.bytes (lr * rsSize + x.near) x.n = s.hbm.bytes a x.n ∧
          (∀ b : Nat, (b < lr * rsSize + x.near ∨ lr * rsSize + x.near + x.n ≤ b) → t.rstore.byte b = s.rstore.byte b) ∧
          t.hbm = s.hbm ∧ t.rsOk lr x.near x.n = true ∧ (t.raft lr).pc = (s.raft lr).pc + 1 ∧
          (sigEn w0 = true → t.event lr (sigEv w0) = s.event lr (sigEv w0) + 1)) ∧
      (x.tier = 1 → s.loftOk (lr / 8) x.far x.n = true →
        ∃ t, exec (.stLoad lr w0 w1 far) s = .next t ∧
          t.rstore.bytes (lr * rsSize + x.near) x.n = s.loft.bytes (lr / 8 * loftSize + x.far) x.n ∧
          (∀ b : Nat, (b < lr * rsSize + x.near ∨ lr * rsSize + x.near + x.n ≤ b) → t.rstore.byte b = s.rstore.byte b) ∧
          t.loft = s.loft ∧ t.hbm = s.hbm ∧ t.rsOk lr x.near x.n = true ∧ (t.raft lr).pc = (s.raft lr).pc + 1 ∧
          (sigEn w0 = true → t.event lr (sigEv w0) = s.event lr (sigEv w0) + 1)) ∧
      (∀ (a : Nat) (bs : List Byte), x.tier = 3 → s.pieces c 3 x.far x.n false = [⟨3, a, x.n⟩] → far = .data bs → bs.length = x.n →
        s.getF Reg.HIF_CTRL.COH_MODE = 0 → (s.aptAccess false false (aptPieces a x.n) []).1 ≠ none →
        ∃ t, exec (.stLoad lr w0 w1 far) s = .next t ∧ t.rstore.bytes (lr * rsSize + x.near) x.n = bs ∧
          (∀ b : Nat, (b < lr * rsSize + x.near ∨ lr * rsSize + x.near + x.n ≤ b) → t.rstore.byte b = s.rstore.byte b) ∧
          t.hbm = s.hbm ∧ (t.raft lr).pc = (s.raft lr).pc + 1) ∧
      (∀ a : Nat, x.tier = 3 → s.pieces c 3 x.far x.n false = [⟨3, a, x.n⟩] → s.weightSource 3 x.far x.n = none →
        ∃ t, exec (.stLoad lr w0 w1 .error) s = .next t ∧ t.working = none ∧ t.getF Reg.CRS_LAST.STATUS = 0x83)) ∧
    (opcodeOf w0 = 0x21 → wellFormedWords 0x21 w0 w1 = true → x.tier = 1 → x.comp = false → inStore (x.near, x.n) = true →
      s.rsOk lr x.near x.n = true → s.farBad 1 x.far x.n = false → ∃ t, exec (.stStore lr w0 w1 far) s = .next t ∧
        t.loft.bytes (lr / 8 * loftSize + x.far) x.n = s.rstore.bytes (lr * rsSize + x.near) x.n ∧
        (∀ b : Nat, (b < lr / 8 * loftSize + x.far ∨ lr / 8 * loftSize + x.far + x.n ≤ b) → t.loft.byte b = s.loft.byte b) ∧
        t.hbm = s.hbm ∧ t.rstore = s.rstore ∧ (t.raft lr).pc = (s.raft lr).pc + 1) ∧
    (opcodeOf w0 = 0x21 → wellFormedWords 0x21 w0 w1 = true → x.tier = 2 →
      (∀ a : Nat, x.comp = false → inStore (x.near, x.n) = true → s.rsOk lr x.near x.n = true → s.farBad 2 x.far x.n = false →
        s.pieces c 2 x.far x.n true = [⟨2, a, x.n⟩] → a + x.n ≤ s.hbmCap →
        ∃ t, exec (.stStore lr w0 w1 far) s = .next t ∧ t.hbm.bytes a x.n = s.rstore.bytes (lr * rsSize + x.near) x.n ∧
          (∀ b : Nat, (b < a ∨ a + x.n ≤ b) → t.hbm.byte b = s.hbm.byte b) ∧ t.rstore = s.rstore ∧ (t.raft lr).pc = (s.raft lr).pc + 1 ∧
          (sigEn w0 = true → t.event lr (sigEv w0) = s.event lr (sigEv w0) + 1)) ∧
      (∀ (a : Nat) (d : ThD), x.comp = true → inStore (x.near, 64) = true → s.rsOk lr x.near 64 = true → d = thDesc (s.rsRead lr x.near 64) →
        inStore (x.near + 64, x.n) = true → s.rsOk lr (x.near + 64) x.n = true → broken (s.compCodes lr x d) = [] →
        ∀ sec : List Byte, sec = (s.compress lr d (rawRows d (s.rsRead lr (x.near + 64) x.n)) true).1 →
        s.pieces c 2 x.far 64 true ≠ [] → s.pieces c 2 x.far sec.length true = [⟨2, a, sec.length⟩] →
        a + sec.length ≤ s.hbmCap →
        ∃ t, exec (.stStoreComp lr w0 w1 far) s = .next t ∧ t.hbm.bytes a sec.length = sec ∧
          (∀ b : Nat, (b < a ∨ a + sec.length ≤ b) → t.hbm.byte b = s.hbm.byte b) ∧ t.rstore = s.rstore ∧
          t.getF Reg.THC_RAW.BYTES = (s.getF Reg.THC_RAW.BYTES +
            (rawRows d (s.rsRead lr (x.near + 64) x.n)).length * d.elems * fmtBytes d.fmt) % 2 ^ 64 ∧
          t.getF Reg.THC_STORED.BYTES = (s.getF Reg.THC_STORED.BYTES + sec.length) % 2 ^ 64 ∧
          t.getF Reg.THC_TPASS.PASSES = (if d.tmode = 2 then s.getF Reg.THC_TPASS.PASSES else (s.getF Reg.THC_TPASS.PASSES + 1) % 2 ^ 64) ∧
          t.getF Reg.THC_INJECT.ARM = 0 ∧ (t.raft lr).pc = (s.raft lr).pc + 1)) ∧
    (opcodeOf w0 = 0x22 → wellFormedWords 0x22 w0 w1 = true → x.tier = 2 →
      (s.tile lr (wbits w0 40 5) = none → s.farBad 2 x.far 64 = false → exec (if x.comp then .stDrainComp lr w0 w1 far else .stDrain lr w0 w1 far) s = .next (s.progError lr 0x94)) ∧
      (∀ (g : SlotState) (a : Nat) (bs : List Byte), s.tile lr (wbits w0 40 5) = some g → g.shape = wbits w0 45 2 →
        s.farBad 2 x.far (if x.comp then worstSize 4 g.mrows g.ncols else g.mrows * drainPitch g.ncols) = false →
        bs = (if x.comp then (s.compress lr ⟨4, 0, 0, g.ncols, 0, true⟩ ((s.tileRows lr (wbits w0 40 5) g).map fun r => r.map BitVec.toNat) true).1
          else drainBytes g.ncols (s.tileRows lr (wbits w0 40 5) g)) →
        s.pieces c 2 x.far 64 true ≠ [] → s.pieces c 2 x.far bs.length true = [⟨2, a, bs.length⟩] →
        a + bs.length ≤ s.hbmCap → ∃ t, exec (if x.comp then .stDrainComp lr w0 w1 far else .stDrain lr w0 w1 far) s = .next t ∧ t.hbm.bytes a bs.length = bs ∧
          (∀ b : Nat, (b < a ∨ a + bs.length ≤ b) → t.hbm.byte b = s.hbm.byte b) ∧ t.acc = s.acc ∧ t.rstore = s.rstore ∧
          (t.raft lr).pc = (s.raft lr).pc + 1 ∧ (sigEn w0 = true → t.event lr (sigEv w0) = s.event lr (sigEv w0) + 1) ∧
          (x.comp = true → t.getF Reg.THC_RAW.BYTES = (s.getF Reg.THC_RAW.BYTES + g.mrows * g.ncols * 4) % 2 ^ 64 ∧
            t.getF Reg.THC_STORED.BYTES = (s.getF Reg.THC_STORED.BYTES + bs.length) % 2 ^ 64 ∧
            t.getF Reg.THC_TPASS.PASSES = (s.getF Reg.THC_TPASS.PASSES + 1) % 2 ^ 64 ∧ t.getF Reg.THC_INJECT.ARM = 0)) ∧
      (∀ g : SlotState, s.tile lr (wbits w0 40 5) = some g → g.shape ≠ wbits w0 45 2 →
        s.farBad 2 x.far (if x.comp then worstSize 4 g.mrows g.ncols else g.mrows * drainPitch g.ncols) = false →
        exec (if x.comp then .stDrainComp lr w0 w1 far else .stDrain lr w0 w1 far) s = .next (s.progError lr 0x93)))

/-- Posted stores, run-ahead loads, their ends and failures, and the splices that depend on them (R358, R366, R368, R371, R373, R374, R375, R378,
R587). How far a cancelled reload had come is the command's operand: the manual leaves it open (the model's choice, log entry 71). -/
def Obligations.PostedAccessesAndSplices : Prop :=
  ∀ (s : State) (lr : Nat) (c : Course), s.coreUp → s.Canon → s.inj = none → s.working = some c → lr < 32 → SMap.rising s.rafts = true →
    s.badStore = [] →
    (∀ (w0 w1 : W64) (x : StF), s.mayIssue lr w0 w1 = some c → (s.raft lr).ahead = [] → (s.raft lr).seg = none → x = stFields w0 w1 →
      s.inSave x.tier x.far = false →
      (∀ a : Nat, opcodeOf w0 = 0x21 → wellFormedWords 0x21 w0 w1 = true → x.cls = 1 → x.comp = false → x.tier = 3 → (s.raft lr).down = [] →
        inStore (x.near, x.n) = true → s.rsOk lr x.near x.n = true → s.farBad 3 x.far x.n = false → s.pieces c 3 x.far x.n true = [⟨3, a, x.n⟩] →
        ∃ t, exec (.stStoreDownpipe lr w0 w1) s = .next t ∧
          (t.raft lr).down = [⟨none, [⟨3, a, x.n⟩], s.rsRead lr x.near x.n, sigOf w0, false, 0⟩] ∧ (t.raft lr).pc = (s.raft lr).pc + 1 ∧
          t.hbm = s.hbm ∧ t.rstore = s.rstore ∧ t.hostOut = s.hostOut) ∧
      (opcodeOf w0 = 0x20 → wellFormedWords 0x20 w0 w1 = true → x.cls = 2 → x.tier = 2 → (s.raft lr).down = [] → inStore (x.near, x.n) = true →
        s.farBad 2 x.far x.n = false →
        ∃ (t : State) (l : RunAhead), exec (.stLoadRunahead lr w0 w1) s = .next t ∧ (t.raft lr).ahead = [l] ∧ l.near = x.near ∧ l.len = x.n ∧
          l.pieces = s.pieces c 2 x.far x.n false ∧ l.ended = false ∧ l.save = none ∧ (t.raft lr).pc = (s.raft lr).pc + 1 ∧ t.rstore = s.rstore)) ∧
    (∀ (d : Downpipe) (rest : List Downpipe) (a n : Nat), (s.raft lr).down = d :: rest → d.pieces = [⟨3, a, n⟩] → d.sig = none →
      (∃ t, exec (.downpipeAck lr) s = .next t ∧ (t.working ≠ none → (t.raft lr).down = rest)) ∧
      (∀ i : Nat, d.save = some i → i < s.saves.length →
        ∃ t, exec (.lowerTierAccessFail lr (.downpipe 0)) s = .next t ∧ (t.working ≠ none → (t.raft lr).down = rest ∧
          (t.saves.map SavePt.lost)[i]? = some true)) ∧
      (d.save = none → ∃ t, exec (.lowerTierAccessFail lr (.downpipe 0)) s = .next t ∧ t.working = none ∧ t.getF Reg.CRS_LAST.STATUS = 0x83)) ∧
    (∀ (l : RunAhead) (a : Nat), (s.raft lr).ahead = [l] → l.ended = false → l.normal = false → l.sig = none → l.pieces = [⟨2, a, l.len⟩] →
      (∀ q ∈ sectorsOf a l.len, s.sectorState q = .clean) →
      ∃ t, exec (.runaheadLoadEnd lr l.near .error) s = .next t ∧ (t.raft lr).ahead = [{ l with ended := true, whole := true }] ∧
        t.rstore.bytes (lr * rsSize + l.near) l.len = s.hbm.bytes a l.len ∧ (t.raft lr).pc = (s.raft lr).pc) ∧
    (∀ (l : RunAhead) (a n : Nat), (s.raft lr).ahead = [l] → l.ended = false → l.normal = false → l.pieces = [⟨4, a, n⟩] → 0 < n → l.sig = none →
      ∃ t, exec (.lowerTierAccessFail lr (.runAhead 0)) s = .next t ∧ t.working.isSome = true ∧
        (t.raft lr).ahead = [{ l with ended := true, failed := true }] ∧ t.rstore = s.rstore) ∧
    (∀ (e : Splice) (p : SavePt) (rs : List RunAhead), c.running.contains lr = true → s.nextSplice c lr = some e → s.saveAt e.save = some p →
      rs = (s.raft lr).ahead.filter (fun l => l.reloads e.save) →
      (∀ v : Nat, ((p.dec = .discard ∧ v = 4) ∨ (p.dec ≠ .discard ∧ p.lost = true ∧ v = 3) ∨ (p.dec ≠ .discard ∧ p.lost = false ∧ rs = [] ∧ v = 1)) →
        ∃ t, exec (.atSplice lr) s = .next t ∧ (t.raft lr).seg = some ⟨(s.raft lr).pc, e.addr, e.len, 0, []⟩ ∧
          (t.raft lr).spliced = (s.raft lr).spliced ++ [e.idx] ∧ (t.raft lr).pc = (s.raft lr).pc ∧
          (t.saves.map SavePt.outcome)[e.save]? = some (if p.outcome = 5 then v else max p.outcome v)) ∧
      (p.dec ≠ .discard → p.lost = false → rs ≠ [] → (∀ l ∈ rs, l.ended = true ∧ l.whole = true) → ∃ t, exec (.atSplice lr) s = .next t ∧
        (t.raft lr).seg = (s.raft lr).seg ∧ (t.raft lr).spliced = (s.raft lr).spliced ++ [e.idx]) ∧
      (p.dec ≠ .discard → p.lost = false → (∃ l ∈ rs, l.ended = false) → exec (.atSplice lr) s = .next s ∧
        ∀ got : List (Nat × List Byte), ∃ t, exec (.spliceLateTimeout ⟨lr, got⟩) s = .next t ∧
          (t.working ≠ none → (t.raft lr).seg = some ⟨(s.raft lr).pc, e.addr, e.len, 0, []⟩ ∧
            ∀ l ∈ (t.raft lr).ahead, l.reloads e.save = true → l.ended = true) ∧
          (got = [] → (∀ l ∈ rs, l.sig = none) → t.working ≠ none)) ∧
      (∀ (l : RunAhead) (a n : Nat), p.dec ≠ .discard → p.lost = false → rs = [l] → l.ended = false → l.sig = none →
        l.pieces = [⟨2, a, l.len⟩] → 0 < n → n ≤ l.len → (∀ q ∈ sectorsOf a n, s.sectorState q = .clean) →
        ∃ t, exec (.spliceLateTimeout ⟨lr, [(n, [])]⟩) s = .next t ∧
          t.rstore.bytes (lr * rsSize + l.near) n = s.hbm.bytes a n ∧
          (∀ b : Nat, (b < lr * rsSize + l.near ∨ lr * rsSize + l.near + n ≤ b) → t.rstore.byte b = s.rstore.byte b) ∧
          (t.raft lr).seg = some ⟨(s.raft lr).pc, e.addr, e.len, 0, []⟩)) ∧
    (∀ (g : Segment) (a : Nat), c.running.contains lr = true → (s.raft lr).seg = some g → endsInEnd g.buf = false →
      g.buf.length ≤ g.len → a = g.addr + 16 * g.buf.length →
      (s.hbmCap < a + 16 → exec (.programFetch lr) s = .next (s.progError lr 0x92)) ∧
      (a + 16 ≤ s.hbmCap → (∀ q ∈ sectorsOf a 16, s.sectorState q = .clean) →
        exec (.programFetch lr) s = .next ((s.viaHost a 16 false).setRaft lr { (s.raft lr).window with seg := some { g with
          buf := g.buf ++ [(BitVec.ofNat 64 (leNat (s.hbm.bytes a 8)), BitVec.ofNat 64 (leNat (s.hbm.bytes (a + 8) 8)))] } }))) ∧
    (∀ a : Nat, c.running.contains lr = true → (s.raft lr).seg = none → (s.raft lr).buf = [] → (s.raft lr).bufBase = (s.raft lr).pc →
      a = s.progOf c.img lr + 16 * (s.raft lr).pc →
      (s.hbmCap < a + 16 → exec (.programFetch lr) s = .next (s.progError lr 0x92)) ∧
      (a + 16 ≤ s.hbmCap → (∀ q ∈ sectorsOf a 16, s.sectorState q = .clean) → exec (.programFetch lr) s = .next ((s.viaHost a 16 false).setRaft lr { s.raft lr with
        bufBase := (s.raft lr).pc, buf := [(BitVec.ofNat 64 (leNat (s.hbm.bytes a 8)), BitVec.ofNat 64 (leNat (s.hbm.bytes (a + 8) 8)))] })))

/-- Decode jobs: validation, buffers, the commit of a sample, retries and pipeline faults (R386, R394, R403, R404, R408, R409, R410, R411, R412, R423, R426).
MED_SEQ follows the oldest decode job (log entry 24, DEDUCED). That a stream whose pipeline's gate is closed is granted on the next pipeline with
an open gate, and asks again later where none has one, is the model's choice (log entry 73). -/
def Obligations.MediaDecodeJobs : Prop :=
  ∀ (s : State) (r : Nat), s.hubUp → s.Canon → SMap.rising s.rings = true → s.inj = none →
    (∀ (q : Req) (n : Nat), s.nextReq r 0x10 = some q → wbits (q.word 1) 48 4 = 0 → n = 64 + 128 * (s.decJob q.jobAddr).streams →
      (∀ st : Nat, s.mediaGate false = some st → ∃ t, exec (.mediaDecodeJob r) s = .next t ∧ t = (s.markStarted q).mediaReject q st ∧
        t.jobs = s.jobs ∧ t.hbm = s.hbm) ∧
      (s.mediaGate false = none → q.jobAddr + n ≤ s.hbmCap → (∀ x ∈ sectorsOf q.jobAddr n, s.sectorState x = .clean) →
        (s.decodeCheck q = 0 → ∃ t, exec (.mediaDecodeJob r) s = .next t ∧ (∃ k : Nat, t.jobs = s.jobs ++ [⟨q, false, 0, 0, [], false, k, [], []⟩]) ∧
          t.getF Reg.MED_STAT.BUSY = 1 ∧ t.hbm = s.hbm ∧ t.hostOut = s.hostOut) ∧
        (s.decodeCheck q ≠ 0 → ∃ t, exec (.mediaDecodeJob r) s = .next t ∧
          t = ((s.markStarted q).viaHost q.jobAddr n false).mediaReject q (s.decodeCheck q) ∧
          t.jobs = s.jobs ∧ t.hbm = s.hbm ∧
          (s.getF Reg.MED_ERR.VALID = 0 → t.getF Reg.MED_ERR.VALID = 1 ∧ t.getF Reg.MED_ERR.CODE = s.decodeCheck q ∧
            t.getF Reg.MED_ERR.RING = q.ring % 1024)) ∧
        (bitsOf (s.tabW q.jobAddr 0) 0 16 ≠ 0xDEC1 → s.decodeCheck q = 0x60))) ∧
    (s.jobOf r false = none → (∀ srcs : List MSrc, exec (.sampleCommit r srcs) s = .next s) ∧
      (∀ (a b : Nat) (x : MSrc) (l : List (Nat × Nat)), exec (.bufferGrant r a b x l) s = .next s) ∧
      (∀ srcs : List MSrc, exec (.sourceReadRetry r false srcs) s = .next s)) ∧
    (∀ (j : MJob) (d : DecJob) (e : Nat), s.jobOf r false = some j → d = s.decJob j.req.jobAddr → e = d.stAddr + 576 * j.committed →
      j.req.ring = r ∧
      (∀ (stream n own pipe : Nat) (src : MSrc) (x : SrcEntry) (seg : List Byte) (m : CamPlan), s.bufs = [] → j.committed < d.samples → stream < d.streams →
        (s.streamCfg (j.req.jobAddr + 64 + 128 * stream)).kind = 0 → m.cause = 0 → n = bufPages m.heads →
        own = j.pipeOf (16 * j.committed + stream) (s.getF (Reg.MED_PIPE_STAT.LOGICAL src.pipe)) →
        pipe = (if s.gateStatus own = none then own else (s.nextPipe own).getD own) →
        s.camOf d (s.streamCfg (j.req.jobAddr + 64 + 128 * stream)) e stream src = (some (x, seg, m), s) →
        (s.gateStatus pipe ≠ none → exec (.bufferGrant r j.committed stream src []) s = .next s) ∧
        (s.gateStatus pipe = none → n ≤ s.getF Reg.MED_WORK_LEN.PAGES → exec (.bufferGrant r j.committed stream src []) s =
          .next { s with bufs := [⟨r, j.committed, stream, n, true, pipe⟩] }) ∧
        (s.getF Reg.MED_WORK_LEN.PAGES < n → exec (.bufferGrant r j.committed stream src []) s = .next s)) ∧
      (j.retried = false → (∀ x ∈ sectorsOf e 576, s.sectorState x = .clean) → ∀ (srcs : List MSrc) (k : Nat) (f : Option Nat) (u : State),
        ((s.viaHost e 576 false).streamsRes j d e srcs (List.range d.streams) [] = (none, none, u) → exec (.sampleCommit r srcs) s = .next u) ∧
        ((s.viaHost e 576 false).streamsRes j d e srcs (List.range d.streams) [] = (none, some k, u) → exec (.sampleCommit r srcs) s = .next (u.jobRetry j)) ∧
        (∀ os : List StreamOut, (s.viaHost e 576 false).streamsRes j d e srcs (List.range d.streams) [] = (some os, f, u) → u.Canon →
          u.jobs = s.jobs →
          ∃ t, exec (.sampleCommit r srcs) s = .next t ∧
            ((sampleCause (u.entryBad e) os).1 = 0 → d.outBase + j.committed * d.region + 64 ≤ u.hbmCap →
              t.hbm.bytes (d.outBase + j.committed * d.region) 64 = leBytes 8 0x3F800000 ++ leBytes 8 (u.tabW e 0) ++ List.replicate 48 0 ∧
              t.getF Reg.MED_SUBST.COUNT = u.getF Reg.MED_SUBST.COUNT) ∧
            ((sampleCause (u.entryBad e) os).1 ≠ 0 →
              t.getF Reg.MED_SUBST.COUNT = (u.getF Reg.MED_SUBST.COUNT + 1) % 2 ^ 64 ∧
              t.getF Reg.MED_SUBPOS.POS = (u.getF Reg.MED_SUBPOS.POS + 1) % 2 ^ 64) ∧
            (j.committed + 1 ≠ d.samples → (t.jobOf r false).map MJob.committed = some (j.committed + 1) ∧
              (s.jobs.find? (fun o => !o.encode) = some j → t.getF Reg.MED_SEQ.COMMITTED = (j.committed + 1) % 2 ^ 17)) ∧
            (j.committed + 1 = d.samples → t.jobs = s.jobs.filter fun o => !(decide (o.req.ring = r) && decide (o.req.seq = j.req.seq))))) ∧
      (∀ srcs : List MSrc, (j.retried = false → exec (.sourceReadRetry r false srcs) s = .next s) ∧
        (j.retried = true → ∀ (u : State) (k : Nat), (s.decodeFails j srcs = (some k, u) → ∃ t, exec (.sourceReadRetry r false srcs) s = .next t ∧
            t = u.endJobAt j 0x64 k ∧ t.jobs = u.jobs.filter (fun o => !(decide (o.req.ring = r) && decide (o.req.seq = j.req.seq))) ∧
            (u.Canon → u.getF Reg.MED_ERR.VALID = 0 → t.getF Reg.MED_ERR.CODE = 0x64 ∧ t.getF Reg.MED_ERR.STREAM = k % 16)) ∧
          (s.decodeFails j srcs = (none, u) → exec (.sourceReadRetry r false srcs) s = .next (u.putJob { j with retried := false })))) ∧
      (∀ (k sample stream : Nat) (parity : Bool), k < 26 → s.getF (Reg.MED_PIPE_STAT.STATE k) = 0 → j.committed ≤ sample → stream < 16 →
        s.mergeAt = none → (s.getF Reg.FLT_FATAL.FATAL).testBit 34 = false →
        ∃ t, exec (.decodePipelineFault k r sample stream parity) s = .next t ∧ t.getF (Reg.MED_PIPE_STAT.STATE k) = 2 ∧
          t.getF (Reg.MED_PIPE_STAT.LOGICAL k) = 0x1F ∧ t.getF (Reg.MED_PIPE_STAT.CAUSE k) = (if parity then 1 else 2) ∧
          (t.getF Reg.FLT_STATUS.STATUS).testBit 34 = true ∧ t.course = s.course ∧ t.hbm = s.hbm ∧
          ∀ l : Nat, l = s.getF (Reg.MED_PIPE_STAT.LOGICAL k) →
          (j.pipeOf (16 * sample + stream) l ≠ l → t.getF Reg.MED_RESTART.COUNT = s.getF Reg.MED_RESTART.COUNT ∧ t.jobs = s.jobs) ∧
          (j.pipeOf (16 * sample + stream) l = l → t.getF Reg.MED_RESTART.COUNT =
              (if j.faults (16 * sample + stream) < 2 then (s.getF Reg.MED_RESTART.COUNT + 1) % 2 ^ 64 else s.getF Reg.MED_RESTART.COUNT) ∧
            (t.jobOf r false).map (fun o => o.faults (16 * sample + stream)) = some (j.faults (16 * sample + stream) + 1) ∧
            (t.jobOf r false).map (fun o => o.pipeOf (16 * sample + stream) l) = some (((s.decFailed k parity).nextPipe l).getD l))))

/-- Encode jobs: validation, output, the failed retry and pipeline faults (R387, R404, R415, R417, R421, R422, R423, R424).
Which pipeline takes a job is the model's choice (log entry 73); NEED set ends an encode job with 0x60 (log entry 34, DEDUCED). -/
def Obligations.MediaEncodeJobs : Prop :=
  ∀ (s : State) (r : Nat), s.hubUp → s.Canon → SMap.rising s.rings = true → s.inj = none →
    (∀ q : Req, s.nextReq r 0x10 = some q → wbits (q.word 1) 48 4 = 1 →
      (∀ st : Nat, s.mediaGate true = some st → exec (.mediaEncodeJob r) s = .next ((s.markStarted q).mediaReject q st)) ∧
      (s.mediaGate true = none → q.jobAddr + 128 ≤ s.hbmCap → (∀ x ∈ sectorsOf q.jobAddr 128, s.sectorState x = .clean) →
        (s.encodeCheck q = 0 → ∃ t, exec (.mediaEncodeJob r) s = .next t ∧ t.jobs = s.jobs ++ [⟨q, true, 0, 0, [], false, s.encodePick, [], []⟩] ∧
          t.getF Reg.MED_STAT.BUSY = 1 ∧ t.hbm = s.hbm) ∧
        (s.encodeCheck q ≠ 0 → exec (.mediaEncodeJob r) s =
          .next (((s.markStarted q).viaHost q.jobAddr 128 false).mediaReject q (s.encodeCheck q))) ∧
        (q.need = true → s.encodeCheck q = 0x60))) ∧
    (∀ (j : MJob) (e : EncJob) (ps : List CodedPic), s.jobOf r true = some j → e = s.encJob j.req.jobAddr →
      ps = s.codePics e (List.range e.frames) default [] →
      (∀ far : FarAns, j.retried = false → e.outTier = 2 → (∀ x ∈ sectorsOf e.inAddr (e.frames * e.frameBytes), s.sectorState x = .clean) →
        ∃ t, exec (.encodeJobComplete r far) s = .next t ∧
          (e.idxAddr + (indexBytes ps 0 true).length ≤ s.hbmCap →
            t.hbm.bytes e.idxAddr (indexBytes ps 0 true).length = indexBytes ps 0 true) ∧
          (∀ n : Nat, n = (ps.flatMap fun p => p.bytes).length → e.outAddr + n ≤ s.hbmCap →
            (e.idxAddr + (indexBytes ps 0 true).length ≤ e.outAddr ∨ e.outAddr + n ≤ e.idxAddr) →
            t.hbm.bytes e.outAddr n = ps.flatMap fun p => p.bytes) ∧
          t.getF Reg.MED_CAPPED.COUNT = (s.getF Reg.MED_CAPPED.COUNT + (ps.filter fun p => p.capped).length) % 2 ^ 64 ∧
          t.jobs = s.jobs.filter fun o => !(decide (o.req.ring = j.req.ring) && decide (o.req.seq = j.req.seq))) ∧
      (∀ (srcs : List MSrc) (u : State), j.retried = true → s.encodeOut e (srcs.headD default).data = (none, u) →
        exec (.sourceReadRetry r true srcs) s = .next (u.endJob j 0x64)) ∧
      (∀ far : FarAns, j.retried = true → exec (.encodeJobComplete r far) s = .next s) ∧
      (∀ (srcs : List MSrc) (u : State) (qs : List CodedPic), j.retried = true → s.encodeOut e (srcs.headD default).data = (some qs, u) →
        exec (.sourceReadRetry r true srcs) s = .next (u.encodeDone j qs))) ∧
    (∀ (k p n : Nat) (parity : Bool) (mine : List MJob), k < 4 → s.getF (Reg.MED_ENC_STAT.STATE k) = 0 →
      n = ((List.range 4).filter fun i => s.getF (Reg.MED_ENC_STAT.STATE i) = 0).length →
      mine = s.jobs.filter (fun o => o.encode && decide (o.pipe = k)) →
      ∃ t, exec (.encodePipelineFault k r p parity) s = .next t ∧ t.getF (Reg.MED_ENC_STAT.STATE k) = 2 ∧
        t.getF Reg.MED_STAT.ENC_ACTIVE = n - 1 ∧
        (mine = [] → 1 < n → t.jobs = s.jobs ∧ t.getF Reg.MED_RESTART.COUNT = s.getF Reg.MED_RESTART.COUNT) ∧
        (n = 1 → t.jobs = s.jobs.filter fun o => !(s.jobs.any fun x =>
          x.encode && decide (o.req.ring = x.req.ring) && decide (o.req.seq = x.req.seq))) ∧
        ∀ j : MJob, (mine.find? fun o => decide (o.req.ring = r)).or mine.head? = some j → 1 < n →
          (2 ≤ j.faults p → t.jobs = s.jobs.filter fun o => !(decide (o.req.ring = j.req.ring) && decide (o.req.seq = j.req.seq))) ∧
          (j.faults p < 2 → ∀ k' : Nat, ((s.encAfter k).find? fun i => decide (i ≠ k) && (s.gateStatus (0x20 + i)).isNone) = some k' →
            t.getF Reg.MED_RESTART.COUNT = (s.getF Reg.MED_RESTART.COUNT + 1) % 2 ^ 64 ∧
            t.jobs = s.jobs.map fun o => if o.req.ring = j.req.ring ∧ o.req.seq = j.req.seq then { j.fault p with pipe := k' } else o))

/-- A port is brought up step by step, fails its steps, and goes down (R433, R434, R435, R437, R438, R464, R73).
The module's own HELLO as one idle flit with bytes 5, 0, 0, 0 first is log entry 53 (DEDUCED); DOWNS and LOS wrap at 16 bits by log entry 25
(DESIGN CHOICE). -/
def Obligations.LinkBringUpAndLoss : Prop :=
  ∀ (s : State) (p : Nat), s.coreUp → s.Canon → SMap.rising s.ports = true → p < 32 →
    (∀ (v : W32) (far : List Nat),
      (v.toNat % 2 = 1 → s.getF (Reg.LNK_STAT.UP p) = 0 → (s.port p).step = 0 → (s.target (0x40 + p)).gate = .opened →
        ∃ t, exec (.portBringUp p v far) s = .next t ∧ t.getF (Reg.LNK_CTRL.EN p) = 1 ∧ t.getF (Reg.LNK_STAT.TRAINING p) = 1 ∧
          t.getF (Reg.LNK_STAT.UP p) = 0 ∧ (t.port p).step = 1 ∧ (t.port p).fails = 0 ∧ (∀ l ∈ far, l ∈ (t.port p).failed) ∧
          t.course = s.course) ∧
      (v.toNat % 2 = 1 → s.getF (Reg.LNK_STAT.UP p) ≠ 0 → ∃ t, exec (.portBringUp p v far) s = .next t ∧
        s.onlyFields t [Reg.LNK_CTRL.EN p, Reg.LNK_CTRL.BEAT_OUT p, Reg.LNK_CTRL.UCW_LIMIT p, Reg.LNK_CTRL.CSYM_LIMIT p]) ∧
      (v.toNat % 2 = 0 → s.getF (Reg.LNK_CTRL.EN p) ≠ 0 → ∃ t, exec (.portBringUp p v far) s = .next t ∧ t.getF (Reg.LNK_STAT.UP p) = 0 ∧
        t.getF (Reg.LNK_STAT.TRAINING p) = 0 ∧ (t.port p).step = 0 ∧ t.getF Reg.FLT_STATUS.STATUS = s.getF Reg.FLT_STATUS.STATUS ∧
        t.course = s.course)) ∧
    (∀ step : Nat, 1 ≤ step → step ≤ 5 →
      (((s.port p).step = 0 ∨ 7 ≤ (s.port p).step) → exec (.bringUpStepTimeout p step) s = .next s) ∧
      ((s.port p).step ≠ 0 → (s.port p).step < 7 → ∃ t, exec (.bringUpStepTimeout p step) s = .next t ∧
        t.getF (Reg.LNK_STAT.TRAIN_ERR p) = 1 ∧ t.getF (Reg.LNK_STAT.TRAIN_STEP p) = step ∧
        t.getF (Reg.LNK_STAT.TRAINING p) = (if (s.port p).fails < 2 then 1 else 0) ∧
        (t.port p).step = (if (s.port p).fails < 2 then 1 else 0) ∧
        t.getF Reg.FLT_STATUS.STATUS = s.getF Reg.FLT_STATUS.STATUS ∧ t.course = s.course)) ∧
    (∀ (id : W64) (port pwrdom latency : Nat) (lanes failed : List Nat) (u : State), (s.port p).step = 1 →
      (∀ l : Nat, l ∈ failed ↔ l ∈ (s.port p).failed ∨ (l ∈ lanes ∧ l < 18)) → u = s.setPort p { s.port p with failed := failed } →
      (u.lanesTrained p < 8 → ∃ t, exec (.hello p id port pwrdom ⟨latency, lanes⟩) s = .next t ∧ t.getF (Reg.LNK_STAT.TRAIN_ERR p) = 1 ∧
        t.getF (Reg.LNK_STAT.TRAIN_STEP p) = 3 ∧ (t.port p).step ≠ 6 ∧ t.flitOut = s.flitOut) ∧
      (8 ≤ u.lanesTrained p → latency ≤ 2000 → ∃ t, exec (.hello p id port pwrdom ⟨latency, lanes⟩) s = .next t ∧ (t.port p).step = 6 ∧
        (t.port p).mapDue = true ∧ (∀ l : Nat, l ∈ (t.port p).failed ↔ l ∈ failed) ∧
        t.getF (Reg.LNK_PARTNER.PARTNER_ID p) = id.toNat ∧ t.getF (Reg.LNK_PARTNER2.PORT p) = port % 32 ∧
        t.getF (Reg.LNK_PARTNER2.PWRDOM p) = pwrdom % 16 ∧ t.getF (Reg.LNK_LAT.ONEWAY_NS p) = latency % 2 ^ (Reg.LNK_LAT.ONEWAY_NS p).w ∧
        s.fieldsKept t [Reg.LNK_PARTNER.PARTNER_ID p, Reg.LNK_PARTNER2.PORT p, Reg.LNK_PARTNER2.PWRDOM p, Reg.LNK_LAT.ONEWAY_NS p] ∧
        ∃ f : Flit, t.flitOut = s.flitOut ++ [(p, f)] ∧ f.ftype = 5 ∧ f.payload.take 4 = leBytes 4 5) ∧
      (8 ≤ u.lanesTrained p → 2000 < latency → ∃ t, exec (.hello p id port pwrdom ⟨latency, lanes⟩) s = .next t ∧
        t.getF (Reg.LNK_STAT.TRAIN_ERR p) = 1 ∧ t.getF (Reg.LNK_STAT.TRAIN_STEP p) = 5 ∧ (t.port p).step ≠ 6)) ∧
    ((s.port p).step = 7 → (s.port p).mapDue = true → s.power.fatal = none →
      (s.ridgeUp p).getF (Reg.LNK_STAT.UP p) = 1 ∧ ((s.ridgeUp p).port p).mapDue = false ∧
      (∀ l ∈ (s.port p).adopted, l < 18 → (s.ridgeUp p).getF (Reg.LNK_LANE_STAT.STATE p l) = 2) ∧
      ∀ l : Nat, l < 18 → l ∉ (s.port p).adopted → s.getF (Reg.LNK_LANE_STAT.STATE p l) = 0 →
        (s.ridgeUp p).getF (Reg.LNK_LANE_STAT.STATE p l) = 0) ∧
    ((s.port p).step = 7 → (s.port p).mapDue = true → s.power.fatal ≠ none → s.ridgeUp p = s) ∧
    ((s.port p).step = 6 →
      (s.getF Reg.CRS_CTRL.ENABLE ≠ 0 → exec (.bringUpDone p) s = .next (s.setPort p { s.port p with step := 7 })) ∧
      (s.getF Reg.CRS_CTRL.ENABLE = 0 → ∃ t, exec (.bringUpDone p) s = .next t ∧ t.getF (Reg.LNK_STAT.UP p) = 1 ∧
        t.getF (Reg.LNK_STAT.TRAINING p) = 0 ∧ t.getF (Reg.LNK_STAT.LANES p) = min 16 (s.lanesTrained p) ∧
        t.getF (Reg.LNK_STAT.DEGRADED p) = bit (decide (s.lanesTrained p < 16)) ∧ (t.port p).step = 0)) ∧
    (s.getF (Reg.LNK_STAT.UP p) ≠ 0 → ∀ lane : Option Nat, (∀ l : Nat, lane = some l → l < 18) →
      ∃ t, exec (.portDown p lane) s = .next t ∧ t.getF (Reg.LNK_STAT.UP p) = 0 ∧ (t.port p).step = 1 ∧
        t.getF (Reg.LNK_DOWN.DOWNS p) = (s.getF (Reg.LNK_DOWN.DOWNS p) + 1) % 2 ^ 16 ∧
        t.getF (Reg.LNK_DOWN.CAUSE p) = (if lane.isSome then 1 else 3) ∧
        (∀ l : Nat, lane = some l → t.getF (Reg.LNK_LANE_STAT.STATE p l) = 2 ∧
          t.getF (Reg.LNK_LANE_ERR.LOS p l) = (s.getF (Reg.LNK_LANE_ERR.LOS p l) + 1) % 2 ^ 16) ∧
        (∀ c : Course, s.course = some c → c.failed = false → t.working = none ∧ t.getF Reg.CRS_LAST.STATUS = 0x80) ∧
        (s.mergeAt = none → (t.getF Reg.FLT_STATUS.STATUS).testBit (28 + p / 8) = true)) ∧
    (s.getF (Reg.LNK_STAT.UP p) = 0 → ∀ lane : Option Nat, exec (.portDown p lane) s = .next s)

/-- What an up port does with flits, lane repairs, fail notices and peer requests (R429, R430, R431, R436, R437, R458, R466, R460).
That the version proposed is the port's plus 1, and that only bad flits are answered with a NAK, is log entry 31 (DEDUCED); the one idle flit that
acknowledges an accepted flit stands for the endless run of them (log entry 83, DESIGN CHOICE). -/
def Obligations.FlitsRepairsAndNotices : Prop :=
  ∀ (s : State) (p : Nat), s.coreUp → s.Canon → SMap.rising s.ports = true → p < 32 → s.inj = none → s.getF (Reg.LNK_STAT.UP p) ≠ 0 →
    (∀ f : RxFlit, f.lane < 18 →
      (f.codeword = false → rxGood f = false) ∧
      (rxGood f = false → ∃ t, exec (.flitReceive p f) s = .next t ∧
        t.getF (Reg.LNK_LANE_ERR.CSYM p f.lane) = (s.getF (Reg.LNK_LANE_ERR.CSYM p f.lane) + f.csym) % 2 ^ 32 ∧
        t.getF (Reg.LNK_LANE_ERR.UCW p f.lane) = (s.getF (Reg.LNK_LANE_ERR.UCW p f.lane) + bit !f.codeword) % 2 ^ 16 ∧
        t.flitOut = s.flitOut ++ (if (s.port p).replay.length < 2048 ∧ (s.port p).wait = []
          then [(p, ⟨(s.port p).lane, 5, (s.port p).txSeq, (s.port p).rxSeq, true, false, List.replicate 200 0⟩)] else []) ∧
        (t.port p).replay.length ≤ max 2048 (s.port p).replay.length ∧
        (t.port p).rxSeq = (s.port p).rxSeq ∧ t.course = s.course) ∧
      (rxGood f = true → (s.port p).wait = [] → rxNak f = false → rxFseq f ≠ ((s.port p).rxSeq + 1) % 4096 →
        ∃ t, exec (.flitReceive p f) s = .next t ∧ (t.port p).rxSeq = (s.port p).rxSeq ∧
          (t.port p).replay = acked (rxAck f) (s.port p).replay ∧ t.flitOut = s.flitOut ∧ t.course = s.course) ∧
      (∀ idle : Flit, idle = ⟨(s.port p).lane, 5, (s.port p).txSeq, rxFseq f, false, false, List.replicate 200 0⟩ →
        rxGood f = true → (s.port p).wait = [] → rxFtype f = 5 → rxFseq f = ((s.port p).rxSeq + 1) % 4096 →
        (rxNak f = false → (acked (rxAck f) (s.port p).replay).length < 2048 → ∃ t, exec (.flitReceive p f) s = .next t ∧
          (t.port p).rxSeq = rxFseq f ∧
          (t.port p).replay = acked (rxAck f) (s.port p).replay ++ (if f.payload.headD 0 = 0 then [] else [(idle, 0)]) ∧
          t.flitOut = s.flitOut ++ (if f.payload.headD 0 = 0 then [] else [(p, idle)]) ∧ t.course = s.course ∧
          t.getF (Reg.LNK_IDLEDROP.COUNT p) = if 6 ≤ (f.payload.headD 0).toNat then (s.getF (Reg.LNK_IDLEDROP.COUNT p) + 1) % 2 ^ 64
            else s.getF (Reg.LNK_IDLEDROP.COUNT p)) ∧
        (rxNak f = true → (∀ e ∈ acked (rxAck f) (s.port p).replay, e.2 + 1 < 8) → ∃ t, exec (.flitReceive p f) s = .next t ∧
          t.flitOut = s.flitOut ++ (acked (rxAck f) (s.port p).replay).mapIdx (fun i e =>
            (p, { e.1 with lane := ((s.port p).lane + i) % 16, badCrc := false })) ++
            (if acked (rxAck f) (s.port p).replay = [] ∧ f.payload.headD 0 ≠ 0 then [(p, { idle with lane := (s.port p).lane % 16 })] else []) ∧
          t.getF (Reg.LNK_RETRY.REPLAYS p) =
            (s.getF (Reg.LNK_RETRY.REPLAYS p) + (acked (rxAck f) (s.port p).replay).length) % 2 ^ 64 ∧
          t.getF (Reg.LNK_STAT.UP p) ≠ 0))) ∧
    (∀ (version beat : Nat) (lanes : List Nat),
      (∃ (t : State) (f : Flit), exec (.lanePropose p version beat lanes) s = .next t ∧ t.getF (Reg.LNK_STAT.REPAIR_PEND p) = 1 ∧
        (t.port p).recv = some (version, beat) ∧ (t.port p).sent = some ((s.port p).mapVer + 1, s.nextRidgeBeat) ∧
        (∀ l ∈ lanes, l < 18 → l ∈ (t.port p).failed) ∧ ((s.port p).replay.length < 2048 → (s.port p).wait = [] →
          t.flitOut = s.flitOut ++ [(p, f)]) ∧ f.ftype = 5 ∧
        f.payload.take 12 = leBytes 4 4 ++ leBytes 4 ((s.port p).mapVer + 1) ++ leBytes 4 s.nextRidgeBeat) ∧
      ((s.port p).sent ≠ none → ∃ t, exec (.laneAccept p version beat lanes) s = .next t ∧ (t.port p).recv = some (version, beat) ∧
        t.flitOut = s.flitOut) ∧
      ((s.port p).sent = none → exec (.laneAccept p version beat lanes) s = .next s)) ∧
    (∀ b : Nat, s.power.fatal ≠ none → s.repairPort b p = s) ∧
    (∀ b : Nat, s.power.fatal = none → (s.port p).sent.map Prod.snd = some b → (s.port p).recv.map Prod.snd = some b →
      (∀ l ∈ (s.port p).failed, l < 18 → (s.repairPort b p).getF (Reg.LNK_LANE_STAT.STATE p l) = 2) ∧
      ((s.repairPort b p).port p).step = 8 ∧ (s.repairPort b p).getF (Reg.LNK_STAT.REPAIR_PEND p) = 0 ∧
      (s.repairPort b p).getF (Reg.LNK_STAT.TRAINING p) = 1) ∧
    ((s.port p).step ≠ 8 → exec (.laneRepairTimeout p) s = .next s) ∧
    ((s.port p).step = 8 → ∃ t, exec (.laneRepairTimeout p) s = .next t ∧ t.getF (Reg.LNK_STAT.UP p) = 0 ∧
      t.getF (Reg.LNK_DOWN.CAUSE p) = 3 ∧ (t.port p).step = 1) ∧
    (∀ (c : Course) (tt counter pos : Nat), s.course = some c →
      (c.img.hasTt = true → s.ttId c.img.ttIdx = tt → c.counter % 2 ^ 32 = counter → c.relayed = false →
        ∃ t, exec (.failNotice p tt counter pos) s = .next t ∧
        (∀ q : Nat, q < 32 → q ≠ p → s.getF (Reg.LNK_STAT.UP q) ≠ 0 → (s.port q).replay.length < 2048 → (s.port q).wait = [] →
          ∃ fl : Flit, (q, fl) ∈ t.flitOut.drop s.flitOut.length ∧ fl.ftype = 5 ∧
            fl.payload = failPayload tt counter pos ++ List.replicate (200 - (failPayload tt counter pos).length) 0) ∧
        (t.course.map Course.relayed = some true) ∧
        (c.failed = true → t.getF Reg.CRS_LAST.STATUS = s.getF Reg.CRS_LAST.STATUS ∧ t.course = some { c with relayed := true } ∧
          t.getF Reg.CRS_LNK_NOTICE.VALID = s.getF Reg.CRS_LNK_NOTICE.VALID) ∧
        (c.failed = false → t.working = none ∧ t.getF Reg.CRS_LAST.STATUS = 0x87 ∧ t.getF Reg.CRS_LNK_NOTICE.VALID = 1 ∧
          t.getF Reg.CRS_LNK_NOTICE.POS = pos % 4096 ∧ t.getF Reg.CRS_LNK_NOTICE.COURSE = counter)) ∧
      (c.relayed = true → exec (.failNotice p tt counter pos) s = .next s) ∧
      ((c.img.hasTt = false ∨ s.ttId c.img.ttIdx ≠ tt ∨ c.counter % 2 ^ 32 ≠ counter) → exec (.failNotice p tt counter pos) s = .next s)) ∧
    (∀ (addr len : Nat) (bs : List Byte),
      (s.exposed addr len = true → (∀ q ∈ sectorsOf addr len, s.sectorState q = .clean) →
        exec (.peerApertureRequest p addr len none) s = .next { s.viaHost addr len false with
          peerOut := s.peerOut ++ [.served p (s.hbm.bytes addr len)] }) ∧
      (s.exposed addr len = false →
        exec (.peerApertureRequest p addr len none) s = .next { s with peerOut := s.peerOut ++ [.refused p] }) ∧
      (s.exposed addr bs.length = true → ∃ t, exec (.peerApertureRequest p addr len (some bs)) s = .next t ∧
        t.hbm.bytes addr bs.length = bs ∧ (∀ a : Nat, (a < addr ∨ addr + bs.length ≤ a) → t.hbm.byte a = s.hbm.byte a) ∧
        t.peerOut = s.peerOut ++ [.served p []]))

/-- How slot entries start, take their headers and payloads, and complete (R444, R445, R446, R447, R448, R450, R451, R454, R456, R460).
The tag that the port gives back is log entry 34, the cut that a SARK header clears log entry 72, and a send not begun at the reserve counting
as missing, with peer requests waiting for an APERTURE slot, log entry 33 (all DEDUCED). -/
def Obligations.TimetableSlots : Prop :=
  ∀ (s : State) (c : Course), s.coreUp → s.Canon → SMap.rising s.ports = true → SMap.rising s.modEvents = true → SMap.rising s.rafts = true →
    s.inj = none → s.working = some c → s.course = some c →
    (∀ (e : Nat) (x : SlotE) (st : SlotSt), s.slotAt e = some (c, x, st) → e < c.slots.length →
      (s.mayStart c x st = false → exec (.slotSendStart e) s = .next s) ∧
      (s.mayStart c x st = true → x.kind = 3 → c.planned.contains x.arg = false → exec (.slotSendStart e) s = .next s) ∧
      (∀ bs : List Byte, s.mayStart c x st = true → x.kind = 0 → x.tier = 2 → bs = s.hbm.bytes x.addr (x.bytes - 200) →
        (∀ q ∈ sectorsOf x.addr (x.bytes - 200), s.sectorState q = .clean) → (s.port x.port).wait = [] →
        (s.port x.port).replay.length + 1 + ceilDiv bs.length 200 ≤ 2048 → ∃ t, exec (.slotSendStart e) s = .next t ∧
        (t.flitOut.drop s.flitOut.length).map (fun y => (y.1, y.2.ftype, y.2.payload)) =
          (x.port, 1, headerBytes (s.ttId c.img.ttIdx) c.counter (s.ttPos c.img.ttIdx) x bs.length) ::
            (flitPieces bs).map (fun b => (x.port, 0, b ++ List.replicate (200 - b.length) 0)) ∧
        t.flitOut.take s.flitOut.length = s.flitOut ∧ (t.port x.port).tx = some e ∧
        t.course = some { c with slots := c.slots.set e { st with started := true } } ∧ t.hbm = s.hbm) ∧
      (st.started = true → st.completed = false → (s.port x.port).tx = some e → x.kind ≠ 4 → x.kind ≠ 6 →
        ((s.port x.port).replay.any fun f => decide (f.1.ftype ≤ 1)) = false →
        ((s.port x.port).wait.any fun f => decide (f.ftype ≤ 1)) = false →
        (x.sigEn = false → exec (.sendComplete e) s = .next {
          (s.setPort x.port { s.port x.port with tx := none }).releaseTag (0x40 + x.port) (transferTag e) with
          course := some { c with slots := c.slots.set e { st with completed := true } } }) ∧
        (x.sigEn = true → SMap.look 0 x.sigEv s.modEvents < 0xFFFF → ∃ t, exec (.sendComplete e) s = .next t ∧
          SMap.look 0 x.sigEv t.modEvents = SMap.look 0 x.sigEv s.modEvents + 1 ∧
          t.course = some { c with slots := c.slots.set e { st with completed := true } })) ∧
      (∀ h : List Byte, x.recv = true → c.reserve = false → st.completed = false → st.header = false → s.beat.ridgeAt + x.start ≤ s.now + 1000 →
        (s.headerGood c x h = false → exec (.transferHeader e h) s = .next (s.linkErr x 0xA8)) ∧
        (s.headerGood c x h = true → x.kind ≠ 7 → ∀ u : State, u = { s with
            course := some { c with slots := c.slots.set e { st with header := true, expect := leNat ((h.drop 16).take 8) } }
            sarkCut := if x.kind = 5 then s.sarkCut.filter (· ≠ x.peer) else s.sarkCut } →
          (x.kind ≠ 6 → exec (.transferHeader e h) s = .next u) ∧
          (x.kind = 6 → exec (.transferHeader e h) s = .next (u.flushPeer x.peer)))) ∧
      (∀ bs : List Byte, st.header = true → st.completed = false → bs.length = st.expect → x.tier = 2 → x.sigEn = true →
        0xFFFF ≤ SMap.look 0 x.sigEv s.modEvents → x.kind = 0 → ∃ t, exec (.receiveComplete e bs) s = .next t ∧ t.working = none ∧
          t.getF Reg.CRS_LAST.STATUS = 0x95) ∧
      (∀ bs : List Byte, st.header = true → st.completed = false → bs.length = st.expect → x.tier = 2 →
        (x.sigEn = true → SMap.look 0 x.sigEv s.modEvents < 0xFFFF) →
        (x.kind = 0 → x.addr + bs.length ≤ s.hbmCap → ∃ t, exec (.receiveComplete e bs) s = .next t ∧ t.hbm.bytes x.addr bs.length = bs ∧
          (∀ a : Nat, (a < x.addr ∨ x.addr + bs.length ≤ a) → t.hbm.byte a = s.hbm.byte a) ∧
          t.modEvents = (if x.sigEn then SMap.put 0 x.sigEv (SMap.look 0 x.sigEv s.modEvents + 1) s.modEvents else s.modEvents) ∧
          t.course = some { c with slots := c.slots.set e { st with completed := true } }) ∧
        (x.kind = 1 → (s.group c.img.ttIdx x.arg).2 = 3 →
          (bs.length % 2 ≠ 0 → exec (.receiveComplete e bs) s = .next (s.linkErr x 0xA8)) ∧
          (bs.length % 2 = 0 → x.addr + bs.length ≤ s.hbmCap → (∀ q ∈ sectorsOf x.addr bs.length, s.sectorState q = .clean) →
            ∃ t, exec (.receiveComplete e bs) s = .next t ∧
            (∀ i : Nat, 2 * i + 2 ≤ bs.length → t.hbm.bytes (x.addr + 2 * i) 2 =
              leBytes 2 (bf2 fadd (BitVec.ofNat 16 (leNat (s.hbm.bytes (x.addr + 2 * i) 2))) (BitVec.ofNat 16 (leNat ((bs.drop (2 * i)).take 2)))).toNat) ∧
            t.modEvents = (if x.sigEn then SMap.put 0 x.sigEv (SMap.look 0 x.sigEv s.modEvents + 1) s.modEvents else s.modEvents) ∧
            t.course = some { c with slots := c.slots.set e { st with completed := true } })) ∧
        (x.kind = 1 → (s.group c.img.ttIdx x.arg).2 = 4 →
          (bs.length % 4 ≠ 0 → exec (.receiveComplete e bs) s = .next (s.linkErr x 0xA8)) ∧
          (bs.length % 4 = 0 → x.addr + bs.length ≤ s.hbmCap → (∀ q ∈ sectorsOf x.addr bs.length, s.sectorState q = .clean) → ∃ t, exec (.receiveComplete e bs) s = .next t ∧
            (∀ i : Nat, 4 * i + 4 ≤ bs.length → t.hbm.bytes (x.addr + 4 * i) 4 =
              leBytes 4 (fadd (BitVec.ofNat 32 (leNat (s.hbm.bytes (x.addr + 4 * i) 4))) (BitVec.ofNat 32 (leNat ((bs.drop (4 * i)).take 4)))).toNat) ∧
            t.course = some { c with slots := c.slots.set e { st with completed := true } })))) ∧
    (∀ (i : Nat) (d : Dsp), d = s.dsp c.img.ttIdx i → c.img.hasTt = true → i < bitsOf (s.ttW c.img.ttIdx 1) 40 8 →
      (c.vector i d.rank).isSome = true →
      (c.allKnown i d = false → exec (.dispatchPlan i) s = .next s) ∧
      (c.planned.contains i = true → exec (.dispatchPlan i) s = .next s) ∧
      (c.allKnown i d = true → c.planned.contains i = false → ∃ t, exec (.dispatchPlan i) s = .next t ∧
        t.getF Reg.CRS_LNK_DROPS.COUNT = (s.getF Reg.CRS_LNK_DROPS.COUNT + c.dropTotal i d) % 2 ^ 64 ∧
        t.course.map Course.planned = some (c.planned ++ [i]) ∧
        (d.cap = 0 ∨ d.rowBytes = 0 ∨ d.epm = 0 ∨ d.rec_ + (64 + 8 * d.e) ≤ d.exp ∨ d.exp + d.epm * d.cap * d.rowBytes ≤ d.rec_ →
          d.rec_ + (64 + 8 * d.e) ≤ s.hbmCap → t.working ≠ none → t.hbm.bytes d.rec_ (64 + 8 * d.e) = dispatchRecord c i d))) ∧
    (∀ x : SlotE, s.missingEntry c = some x → exec .commitReserveStart s = .next (s.linkErr x 0xA9)) ∧
    (s.missingEntry c = none → (∀ x ∈ s.slotsOf c.img, x.kind ≠ 5) →
      exec .commitReserveStart s = .next { s with course := some { c with working := false, reserve := true } }) ∧
    (∀ (tag : Nat) (far : FarAns), (∃ m ∈ s.peerWait, m.target.map Prod.fst = some tag) → exec (.peerApertureReply tag far) s = .next s) ∧
    (∀ (lr : Nat) (l : RunAhead) (bs : List Byte), lr < 32 → s.peerWait = [] → s.rafts = [(lr, { s.raft lr with down := [], ahead := [l] })] → l.ended = false →
      0 < l.tag → l.sig = none → l.normal = false → l.pieces = [⟨4, 0, l.len⟩] → bs.length = l.len → 0 < l.len →
      ∃ t, exec (.peerApertureReply l.tag (.data bs)) s = .next t ∧
        (t.raft lr).ahead = [{ l with ended := true, whole := true }] ∧ t.rstore.bytes (lr * rsSize + l.near) l.len = bs)

/-- Pairing registers, and what becomes of the sark records that arrive (R479, R480, R481, R482, R484, R485, R492, R496, R498).
That SPOS tells whose transfer the rest discarded belongs to is log entry 72 (DEDUCED). -/
def Obligations.SarkStreamAndPairing : Prop :=
  ∀ s : State, s.coreUp → s.Canon →
    (∀ v : W32, ∃ t, exec (.svlPairWrite v) s = .next t ∧ t.getF Reg.SVL_PAIR.PARTNER = v.toNat % 4096 ∧
      t.getF Reg.SVL_PAIR.PEN = bit (v.toNat.testBit 12) ∧ t.getF Reg.SVL_PAIR.FORCE = bit (v.toNat.testBit 13) ∧
      t.getF Reg.SVL_PSTAT.SHARED = 0 ∧ t.refusedSrc = [] ∧
      (v.toNat % 4096 ≠ s.getF Reg.SVL_PAIR.PARTNER → t.ackPartner = 0 ∧ t.pushCursor = none ∧ t.ackHot = s.ackHot ∧
        t.cursors = s.cursors.filter (fun c => decide (c.1 ≠ s.getF Reg.SVL_PAIR.PARTNER)) ∧
        t.fills = s.fills.filter fun f => decide (f.area ≠ 1 ∧ f.area ≠ 0)) ∧
      (v.toNat % 4096 = s.getF Reg.SVL_PAIR.PARTNER → t.ackPartner = s.ackPartner ∧ t.cursors = s.cursors ∧ t.fills = s.fills)) ∧
    (∀ v : W32, ∃ t, exec (.svlHotWrite v) s = .next t ∧ t.getF Reg.SVL_HOT.PROTECTS = v.toNat % 4096 ∧
      t.getF Reg.SVL_HOT.HEN = bit (v.toNat.testBit 12) ∧ t.getF Reg.SVL_HOT.HOTPOS = v.toNat / 2 ^ 16 % 4096 ∧
      t.getF Reg.SVL_HOT.HOTEN = bit (v.toNat.testBit 28) ∧ t.getF Reg.SVL_PSTAT.SHARED = 0 ∧ t.refusedSrc = [] ∧
      (v.toNat / 2 ^ 16 % 4096 ≠ s.getF Reg.SVL_HOT.HOTPOS → t.ackHot = 0 ∧
        t.cursors = s.cursors.filter fun c => decide (c.1 ≠ s.getF Reg.SVL_HOT.HOTPOS)) ∧
      (v.toNat / 2 ^ 16 % 4096 = s.getF Reg.SVL_HOT.HOTPOS → t.ackHot = s.ackHot ∧ t.cursors = s.cursors) ∧
      t.fills = (if v.toNat % 4096 = s.getF Reg.SVL_HOT.PROTECTS then s.fills else s.fills.filter fun f => decide (f.area ≠ 1)) ∧
      t.ackPartner = s.ackPartner ∧ t.pushCursor = s.pushCursor) ∧
    (∀ v : W32, ∃ t, exec (.svlCtrlWrite v) s = .next t ∧ t.getF Reg.SVL_CTRL.EN = v.toNat % 2 ∧
      t.getF Reg.SVL_CTRL.EVERY = v.toNat / 2 ^ 8 % 256 ∧ t.getF Reg.SVL_CTRL.FLASH_EVERY = v.toNat / 2 ^ 16 % 256 ∧ t.flashCount = 0 ∧
      s.fieldsKept t [Reg.SVL_CTRL.EN, Reg.SVL_CTRL.EVERY, Reg.SVL_CTRL.FLASH_EVERY]) ∧
    (∀ (bs : List Byte) (h : SarkHdr) (i : Instr) (rt : Nat), h = sarkOf bs →
      ((i = .sarkBlocks bs ∧ rt = 1) ∨ (i = .sarkSeal bs ∧ rt = 2) ∨ (i = .sarkAck bs ∧ rt = 3)) →
      (((s.getF Reg.HIF_FUNC_EN.EN).testBit 3 = false ∨ s.gateStatus 0x103 ≠ none) → exec i s = .next s) ∧
      ((s.getF Reg.HIF_FUNC_EN.EN).testBit 3 = true → s.gateStatus 0x103 = none →
        (s.sarkCut.contains h.spos = true → exec i s = .next (s.bump Reg.SVL_DISCARD.COUNT 1)) ∧
        (s.sarkCut.contains h.spos = false → sarkGood bs = false → ∃ t, exec i s = .next t ∧
          t.getF Reg.SVL_DISCARD.COUNT = (s.getF Reg.SVL_DISCARD.COUNT + 1) % 2 ^ 64 ∧ t.sarkCut.contains h.spos = true ∧
          s.fieldsKept t [Reg.SVL_DISCARD.COUNT] ∧ { t with regs := s.regs, sarkCut := s.sarkCut } = s) ∧
        (s.sarkCut.contains h.spos = false → sarkGood bs = true → h.rtype = rt →
          ((s.sarkArea h = none ∨ s.refusedSrc.contains h.spos = true) → exec i s = .next (s.bump Reg.SVL_DISCARD.COUNT 1)) ∧
          (s.sarkArea h ≠ none → s.refusedSrc.contains h.spos = false → h.dom = s.getF Reg.SVL_PSTAT.OWN_DOM →
            s.getF Reg.SVL_PAIR.FORCE = 0 → s.getF Reg.SVL_HOT.FORCE = 0 → ∃ t, exec i s = .next t ∧ t.getF Reg.SVL_PSTAT.REFUSED = 1 ∧
              h.spos ∈ t.refusedSrc ∧ t.getF Reg.SVL_DISCARD.COUNT = (s.getF Reg.SVL_DISCARD.COUNT + 1) % 2 ^ 64 ∧ t.hbm = s.hbm ∧
              t.ackPartner = s.ackPartner ∧ t.fills = s.fills)))) ∧
    (∀ (bs : List Byte) (h : SarkHdr), h = sarkOf bs → (s.getF Reg.HIF_FUNC_EN.EN).testBit 3 = true → s.gateStatus 0x103 = none →
      s.sarkCut.contains h.spos = false → sarkGood bs = true → s.refusedSrc.contains h.spos = false →
      h.dom ≠ s.getF Reg.SVL_PSTAT.OWN_DOM → s.getF Reg.SVL_HOT.HOTEN ≠ 0 → h.spos = s.getF Reg.SVL_HOT.HOTPOS →
      (s.getF Reg.SVL_PAIR.PEN = 0 ∨ h.spos ≠ s.getF Reg.SVL_PAIR.PARTNER) → s.getF Reg.SVL_HOT.HEN = 0 →
      (h.rtype = 3 → ∃ t, exec (.sarkAck bs) s = .next t ∧ t.ackHot = h.ack ∧ t.ackPartner = s.ackPartner ∧
        t.getF Reg.SVL_PSTAT.PAIRED = s.getF Reg.SVL_PSTAT.PAIRED ∧
        t.getF Reg.SVL_SARK_RX.BYTES = (s.getF Reg.SVL_SARK_RX.BYTES + bs.length) % 2 ^ 64 ∧
        t.getF Reg.SVL_ACK.ACKED = (if s.getF Reg.SVL_PAIR.PEN = 0 then h.ack else min s.ackPartner h.ack) ∧ t.hbm = s.hbm ∧ t.fills = s.fills) ∧
      (h.rtype = 1 → exec (.sarkBlocks bs) s = .next (s.bump Reg.SVL_DISCARD.COUNT 1)) ∧
      (h.rtype = 2 → exec (.sarkSeal bs) s = .next (s.bump Reg.SVL_DISCARD.COUNT 1))) ∧
    (∀ (bs : List Byte) (h : SarkHdr), h = sarkOf bs → (s.getF Reg.HIF_FUNC_EN.EN).testBit 3 = true → s.gateStatus 0x103 = none →
      s.sarkCut.contains h.spos = false → sarkGood bs = true → s.refusedSrc.contains h.spos = false →
      h.dom ≠ s.getF Reg.SVL_PSTAT.OWN_DOM →
      ((s.getF Reg.SVL_PAIR.PEN ≠ 0 ∧ s.getF Reg.SVL_HOT.HEN = 0 ∧ h.spos = s.getF Reg.SVL_PAIR.PARTNER) ∨
        (s.getF Reg.SVL_HOT.HEN ≠ 0 ∧ h.spos = s.getF Reg.SVL_HOT.PROTECTS)) →
      (h.rtype = 3 → s.getF Reg.SVL_HOT.HEN = 0 → ∃ t, exec (.sarkAck bs) s = .next t ∧ t.ackPartner = h.ack ∧ t.getF Reg.SVL_PSTAT.PAIRED = 1 ∧
        t.getF Reg.SVL_PSTAT.PART_DOM = h.dom ∧ t.getF Reg.SVL_SARK_RX.BYTES = (s.getF Reg.SVL_SARK_RX.BYTES + bs.length) % 2 ^ 64 ∧
        (s.getF Reg.SVL_HOT.HOTEN = 0 → t.getF Reg.SVL_ACK.ACKED = h.ack) ∧ t.hbm = s.hbm ∧ t.fills = s.fills) ∧
      (∀ n : Nat, h.rtype = 1 → h.push = false → h.base = 0xFFFFFFFFFFFF → s.fillOf 1 = none → n = s.otherSlot 1 →
        s.getF (Reg.SVL_SLOT.HOLD 1 n) = 0 → s.slotStreams 1 n = false → bs.length = 128 + 4096 * (bitmapBlocks h.first ((bs.drop 64).take 64)).length →
        ∃ t, exec (.sarkBlocks bs) s = .next t ∧ t.slotState 1 n = 1 ∧ t.slotCourse 1 n = h.course ∧
          (∀ k i : Nat, (bitmapBlocks h.first ((bs.drop 64).take 64))[k]? = some i → i < s.slotPages 1 →
            s.blockAddr 1 n i + 4096 ≤ s.hbmCap → t.hbm.bytes (s.blockAddr 1 n i) 4096 = (bs.drop (128 + 4096 * k)).take 4096) ∧
          (∀ a : Nat, (a < s.slotAddr 1 n ∨ s.slotAddr 1 n + s.slotPages 1 * 4096 ≤ a) → t.hbm.byte a = s.hbm.byte a)) ∧
      (∀ (f : Fill) (u : State), h.rtype = 2 → h.push = false → s.fills = [f] → f.area = 1 → f.slot < 2 → f.course = h.course →
        (if f.slot = 0 then s.partSrc0 else s.partSrc1) = some h.spos →
        f.base = none → h.base = 0xFFFFFFFFFFFF → f.push = false → 8256 ≤ bs.length →
        u = s.writeHbm (s.slotAddr 1 f.slot) ((bs.drop 64).take 8192) →
        (∀ i : Nat, 2 ≤ i → i < u.headBlocks 1 f.slot → i ∈ f.blocks) →
        (u.headBlocks 1 f.slot ≤ u.slotPages 1 → u.slotBad 1 f.slot = false → u.digestGood 1 f.slot = true →
          ∃ t, exec (.sarkSeal bs) s = .next t ∧ t.slotState 1 f.slot = 2 ∧ t.fills = [] ∧ t.hbm = u.hbm) ∧
        ((u.slotPages 1 < u.headBlocks 1 f.slot ∨ u.slotBad 1 f.slot = true ∨ u.digestGood 1 f.slot = false) →
          ∃ t, exec (.sarkSeal bs) s = .next t ∧ t.slotState 1 f.slot = 3 ∧ t.fills = [] ∧
            t.getF Reg.SVL_REJECT.COUNT = (s.getF Reg.SVL_REJECT.COUNT + 1) % 2 ^ 64)))

/-- SAVE, LOAD, RESTORE, DROP and HOST_COPY start, end and stop (R476, R488, R489, R490, R491, R493, R497, R498, R499).
A BUILDING slot as busy, 0x08 before the image is looked for, SVL_REJECT counting a rejected LOAD, and the 7 TiB of flashPages are log entry 35
(DEDUCED); that a RESTORE that fails keeps the course counter and the seed is log entry 76 (DESIGN CHOICE). -/
def Obligations.SnapshotsAndHostCopies : Prop :=
  ∀ (s : State) (r : Nat), s.coreUp → s.Canon → SMap.rising s.rings = true →
    (∀ (q : Req) (a n c : Nat), s.nextReq r 0x11 = some q → s.flashGate = none →
      (q.snap = (0, a, n, c) →
        (s.slotBusy a n = true → exec (.snapshotSave r) s = .next ((s.markStarted q).svlDone (some q) 0x08 c)) ∧
        (s.slotBusy a n = false → (s.slotState a n ≠ 2 ∨ s.slotCourse a n ≠ c) →
          exec (.snapshotSave r) s = .next ((s.markStarted q).svlDone (some q) 0x78 c)) ∧
        (s.slotBusy a n = false → s.slotState a n = 2 → s.slotCourse a n = c → s.flash.images = [] → s.headBlocks a n ≤ flashPages →
          ∃ t, exec (.snapshotSave r) s = .next t ∧ t.svlOps = s.svlOps ++ [⟨some q, 0, a, n, c, 0, 0, (2, c)⟩] ∧
            t.getF (Reg.SVL_SLOT.HOLD a n) = 2 ∧ t.hostOut = s.hostOut ∧ t.flash.images = [])) ∧
      (q.snap = (1, a, n, c) →
        (s.slotBusy 0 n = true → exec (.snapshotLoad r) s = .next ((s.markStarted q).svlDone (some q) 0x08 c)) ∧
        (s.slotBusy 0 n = false → s.flash.images.find? (fun i => i.course = c) = none →
          exec (.snapshotLoad r) s = .next ((s.markStarted q).svlDone (some q) 0x78 c)) ∧
        (∀ i : FlashImage, s.flash.images.find? (fun i => i.course = c) = some i → s.slotBusy 0 n = false → s.newestSlot 0 ≠ some n →
          (s.slotPages 0 < i.pages → exec (.snapshotLoad r) s = .next ((s.markStarted q).svlDone (some q) 0x7D c)) ∧
          (i.pages ≤ s.slotPages 0 → ∃ t, exec (.snapshotLoad r) s = .next t ∧ t.slotState 0 n = 1 ∧ t.slotCourse 0 n = c ∧
            t.svlOps = s.svlOps ++ [⟨some q, 1, 0, n, c, 0, 0, (s.slotState 0 n, s.slotCourse 0 n)⟩]))) ∧
      (q.snap = (2, a, n, c) → s.slotBusy a n = false → s.slotState a n = 2 → s.slotCourse a n = c →
        ((s.quiet = false ∨ s.sameRecipe a n = false) → exec (.snapshotRestore r) s = .next ((s.markStarted q).svlDone (some q) 0x7A c)) ∧
        (s.quiet = true → s.sameRecipe a n = true → ∃ t, exec (.snapshotRestore r) s = .next t ∧ t.getF Reg.SVL_STAT.RESTORING = 1 ∧
          t.svlOps = s.svlOps ++ [⟨some q, 2, a, n, c, 0, 0, (2, c)⟩] ∧ t.hbm = s.hbm)) ∧
      (q.snap = (3, a, n, c) →
        (c = 0 → ∃ t, exec (.snapshotDrop r) s = .next t ∧ t.flash.images = [] ∧ t.getF Reg.SVL_FLASH.IMAGES = 0) ∧
        (c ≠ 0 → (∃ i ∈ s.flash.images, i.course = c) → ∃ t, exec (.snapshotDrop r) s = .next t ∧
          t.flash.images = s.flash.images.filter (fun i => i.course ≠ c)) ∧
        (c ≠ 0 → (∀ i ∈ s.flash.images, i.course ≠ c) → exec (.snapshotDrop r) s = .next ((s.markStarted q).svlDone (some q) 0x78 c)))) ∧
    (∀ (o : SvlOp) (a n : Nat), a < 2 → n < 2 →
      (s.opOn 0 a n = some o →
        (s.slotBad a n = false → ((s.flash.images.filter fun j => j.course ≠ o.course).map (·.pages)).sum + s.headBlocks a n ≤ flashPages →
          ∃ t, exec (.snapshotSaveDone a n) s = .next t ∧ t.flash.images = (s.flash.images.filter fun j => j.course ≠ o.course) ++
            [⟨o.course, s.headBlocks a n, Memory.write [] 0 (s.hbm.bytes (s.slotAddr a n) (s.headBlocks a n * 4096))⟩] ∧
          t.opOn 0 a n = none ∧ t.hbm = s.hbm) ∧
        (s.slotBad a n = false → (s.roomFor o.course (s.headBlocks a n)).2 = false → ∃ t, exec (.snapshotSaveDone a n) s = .next t ∧
          (∀ i : FlashImage, i ∈ t.flash.images ↔ i ∈ s.flash.images ∧
            (i.course = o.course ∨ ∃ k ∈ (s.roomFor o.course (s.headBlocks a n)).1, k.course = i.course)) ∧
          t.opOn 0 a n = none ∧ t.hbm = s.hbm) ∧
        (s.slotBad a n = true → ∃ t, exec (.snapshotSaveDone a n) s = .next t ∧ t.flash.images = s.flash.images ∧ t.opOn 0 a n = none)) ∧
      (∀ (i : FlashImage) (u : State), a = 0 → s.opOn 1 0 n = some o → s.flash.images.find? (fun i => i.course = o.course) = some i →
        u = s.writeHbm (s.slotAddr 0 n) (i.bytes.bytes 0 (i.pages * 4096)) →
        (u.slotBad 0 n = false → u.digestGood 0 n = true → ∃ t, exec (.snapshotLoadDone n) s = .next t ∧ t.slotState 0 n = 2 ∧
          t.opOn 1 0 n = none ∧ t.hbm = u.hbm) ∧
        ((u.slotBad 0 n = true ∨ u.digestGood 0 n = false) → ∃ t, exec (.snapshotLoadDone n) s = .next t ∧ t.slotState 0 n = 3 ∧
          t.getF Reg.SVL_REJECT.COUNT = (s.getF Reg.SVL_REJECT.COUNT + 1) % 2 ^ 64)) ∧
      (s.opOn 2 a n = some o →
        (s.slotBad a n = false → s.digestGood a n = true → ∃ t, exec (.restoreDone a n) s = .next t ∧
          t.getF Reg.CRS_COURSE_COUNT.COURSES = bitsOf (s.headW a n 1) 0 48 ∧ t.getF (Reg.TRS_VEC_SEED.SEED 0) = s.headW a n 2 ∧
          t.getF Reg.CRS_PLC_LOGPOS.POS = s.headW a n 3 ∧ t.getF Reg.SVL_STAT.VERIFY = 1 ∧
          t.getF Reg.SVL_STAT.VCOURSE = bitsOf (s.headW a n 1) 0 48 ∧ t.getF Reg.SVL_STAT.RESTORING = 0 ∧
          t.getF Reg.CRS_NUM_STATE.PAR = s.getF Reg.CRS_NUM_STATE.PAR) ∧
        ((s.slotBad a n = true ∨ s.digestGood a n = false) → ∃ t, exec (.restoreDone a n) s = .next t ∧ t.slotState a n = 3 ∧
          t.getF Reg.SVL_STAT.VERIFY_FAIL = 1 ∧ t.getF Reg.SVL_STAT.RESTORING = 0 ∧
          t.getF (Reg.TRS_VEC_SEED.SEED 0) = s.getF (Reg.TRS_VEC_SEED.SEED 0) ∧ t.getF Reg.CRS_COURSE_COUNT.COURSES = s.getF Reg.CRS_COURSE_COUNT.COURSES)) ∧
      (∀ far : FarAns, s.opOn 3 a n = some o → s.slotBad a n = false → ∀ (b : Bool) (u : State),
        (s.readSlotPoint a n).aptStore o.addr (s.hbm.bytes (s.slotAddr a n) (s.headBlocks a n * 4096)) far = (b, u) →
        exec (.hostCopyDone true a n far) s = .next ((u.endOp o false).svlDone o.req (if b then 0 else 0x7B) o.course)) ∧
      (∀ (far : FarAns) (u : State), s.opOn 4 a n = some o → o.slot = n → o.area = 0 → s.aptLoad o.addr 4096 far = (none, u) →
        ∃ t, exec (.hostCopyDone false a n far) s = .next t ∧ t.slotState 0 n = 0 ∧ t.opOn 4 0 n = none)) ∧
    (∀ (q : Req) (n a addr room : Nat), s.nextReq r 0x12 = some q →
      (q.copyOps = (0, a, n, addr, room) → s.slotBusy a n = false →
        (s.slotState a n ≠ 2 → exec (.hostCopyToHost r) s = .next ((s.markStarted q).svlDone (some q) 0x78 (s.slotCourse a n))) ∧
        (s.slotState a n = 2 → room < s.headBlocks a n * 4096 →
          exec (.hostCopyToHost r) s = .next ((s.markStarted q).svlDone (some q) 0x7D (s.slotCourse a n))) ∧
        (s.slotState a n = 2 → s.headBlocks a n * 4096 ≤ room → ∃ t, exec (.hostCopyToHost r) s = .next t ∧
          t.svlOps = s.svlOps ++ [⟨some q, 3, a, n, s.slotCourse a n, addr, room, (2, s.slotCourse a n)⟩] ∧
          t.getF (Reg.SVL_SLOT.HOLD a n) = 4 ∧ t.hostOut = s.hostOut)) ∧
      (q.copyOps = (1, a, n, addr, room) → s.slotBusy 0 n = false → s.newestSlot 0 ≠ some n →
        ∃ t, exec (.hostCopyFromHost r) s = .next t ∧ t.slotState 0 n = 1 ∧
          t.svlOps = s.svlOps ++ [⟨some q, 4, 0, n, s.slotCourse 0 n, addr, room, (s.slotState 0 n, s.slotCourse 0 n)⟩]) ∧
      (q.copyOps = (1, a, n, addr, room) → s.slotBusy 0 n = true →
        exec (.hostCopyFromHost r) s = .next ((s.markStarted q).svlDone (some q) 0x08 (s.slotCourse 0 n)))) ∧
    (s.mergeAt = none → (s.getF Reg.FLT_FATAL.FATAL).testBit 35 = false → ∃ t, exec .flashFault s = .next t ∧
      t.svlOps = s.svlOps.filter (fun o => decide (1 < o.kind)) ∧ (t.getF Reg.FLT_STATUS.STATUS).testBit 35 = true ∧
      t.course = s.course ∧ t.flash.images = s.flash.images)

/-- Gutters keep their words in order; how faults are latched, merged, cleared and injected; ALIVE (R501, R502, R503, R505, R507, R509, R511, R512, R513, R514, R516, R519).
The stale-tail timer and the words of a cycle follow the model clock, of which one nanosecond stands for a cycle (log entry 51). -/
def Obligations.GuttersAndFaultFlags : Prop :=
  ∀ s : State, s.coreUp → s.Canon → SMap.rising s.gutters = true → s.inj = none →
    (∀ i : Nat, s.gutterLive i = true → (s.gutter i).ok →
      (∀ (w : W64) (poison last : Bool) (owner : Option (Nat × Nat)),
        ((s.gutter i).resetAt = some s.now → exec (.gutterWrite i w poison last owner) s = .next (s.stopOwners 0xD8 owner.toList)) ∧
        ((s.gutter i).resetAt ≠ some s.now → ((s.gutter i).fillClosed = true ∨ bankWords i ≤ (s.gutter i).fill.length) →
          exec (.gutterWrite i w poison last owner) s = .next s) ∧
        ((s.gutter i).resetAt ≠ some s.now → (s.gutter i).fillClosed = false → (s.gutter i).fill.length < bankWords i → ∃ t, exec (.gutterWrite i w poison last owner) s = .next t ∧
          (t.gutter i).words = (s.gutter i).words ++
            [⟨w, decide (Gut.cls i = 0) && poison, decide (Gut.cls i = 0) && parityBit w, owner⟩] ∧ (t.gutter i).ok ∧
          ((s.gutter i).r = none → (last = true ∨ bankWords i = (s.gutter i).fill.length + 1) →
            (t.gutter i).r = some (s.gutter i).f ∧ (t.gutter i).f = !(s.gutter i).f))) ∧
      (∀ dst : Option Nat,
        ((s.gutter i).resetAt = some s.now → ∃ t, exec (.gutterRead i dst) s = .next t ∧
          t.getF (Reg.GUT_CNT.UNDERRUNS i) = (s.getF (Reg.GUT_CNT.UNDERRUNS i) + 1) % 2 ^ 16 ∧
          t.getF (Reg.GUT_CNT.RESETS i) = s.getF (Reg.GUT_CNT.RESETS i) ∧ (t.gutter i).words = (s.gutter i).words ∧
          ∀ x : GutRead, (s.gutter i).got = some x → (t.gutter i).got = some ⟨s.now, none, x.before, false, x.before⟩) ∧
        ((s.gutter i).resetAt ≠ some s.now → (s.gutter i).readNow s.now = none → (s.gutter i).r = none →
          ∃ t, exec (.gutterRead i dst) s = .next t ∧
          t.getF (Reg.GUT_CNT.UNDERRUNS i) = (s.getF (Reg.GUT_CNT.UNDERRUNS i) + 1) % 2 ^ 16 ∧ t.getF (Reg.GUT_STAT.UNDERRUN i) = 1 ∧
          ((∀ x ∈ s.targets, x.2.queue = []) →
            (t.gutter i).got = some ⟨s.now, none, (s.gutter i).lastval, decide (Gut.cls i ≠ 1), (s.gutter i).lastval⟩) ∧
          (Gut.cls i = 1 → (∀ x ∈ s.targets, x.2.queue = []) →
            { t.gutter i with got := none, timer := 0 } = { Gutter.fresh with resetAt := some s.now }) ∧
          (Gut.cls i ≠ 1 → (t.gutter i).words = (s.gutter i).words ∧
            (i ≤ 0x8F → s.course = none → ∀ a : Nat, dst = some a → a < s.hbmCap → a / 64 ∈ t.poison))) ∧
        (∀ (x : GWord) (xs : List GWord), (s.gutter i).resetAt ≠ some s.now → (s.gutter i).r ≠ none → (s.gutter i).words = x :: xs →
          (Gut.cls i = 1 ∨ (x.poison = false ∧ x.parity = parityBit x.val)) → ∃ t, exec (.gutterRead i dst) s = .next t ∧
          (t.gutter i).words = xs ∧ (t.gutter i).lastval = x.val ∧ (t.gutter i).ok ∧
          t.getF Reg.FLT_STATUS.STATUS = s.getF Reg.FLT_STATUS.STATUS ∧ t.course = s.course)) ∧
      ((s.gutter i).occ = 0 → exec (.gutterStale i) s = .next s) ∧
      (s.now < (s.gutter i).timer + max 64 (s.getF Reg.GUT_STALE.STALE_NS) → exec (.gutterStale i) s = .next s) ∧
      ((s.gutter i).occ ≠ 0 → (s.gutter i).timer + max 64 (s.getF Reg.GUT_STALE.STALE_NS) ≤ s.now → ∃ t, exec (.gutterStale i) s = .next t ∧
        t.getF (Reg.GUT_STALECNT.STALE i) = (s.getF (Reg.GUT_STALECNT.STALE i) + 1) % 2 ^ 64 ∧ (t.gutter i).words = (s.gutter i).words ∧
        (t.gutter i).r ≠ none ∧ (t.gutter i).timer = s.now) ∧
      (Gut.cls i = 0 → exec (.gutterPointerMismatch i) s = .next s) ∧
      ((s.gutter i).resetAt = some s.now → exec (.gutterPointerMismatch i) s = .next s) ∧
      (Gut.cls i = 1 → (s.gutter i).resetAt ≠ some s.now → ∃ t, exec (.gutterPointerMismatch i) s = .next t ∧
        (t.gutter i).words = [] ∧
        ((∀ x ∈ s.targets, x.2.queue = []) → { t.gutter i with got := none } = { Gutter.fresh with resetAt := some s.now }) ∧
        (∀ x : GutRead, (s.gutter i).readNow s.now = some x →
          ((∀ y ∈ s.targets, y.2.queue = []) → (t.gutter i).got = some ⟨s.now, none, x.before, false, x.before⟩) ∧
          t.getF (Reg.GUT_CNT.UNDERRUNS i) = (s.getF (Reg.GUT_CNT.UNDERRUNS i) + 1) % 2 ^ 16) ∧
        t.getF (Reg.GUT_CNT.RESETS i) = (s.getF (Reg.GUT_CNT.RESETS i) + 1) % 2 ^ 16 ∧
        (s.mergeAt = none → (t.getF Reg.FLT_STATUS.STATUS).testBit 37 = true) ∧
        (∀ c : Course, s.course = some c → c.failed = false → t.working = none ∧ t.getF Reg.CRS_LAST.STATUS = 0x80))) ∧
    (∀ b : Nat, isEventSource b = true → (b = 44 → s.power.step ≠ .off) → (s.getF Reg.FLT_FATAL.FATAL).testBit b = false → ∃ t, exec (.errorLineRise (.line b)) s = .next t ∧
      (s.mergeAt = none → (t.getF Reg.FLT_STATUS.STATUS).testBit b = true ∧
        t.mergeAt = (if (s.getF Reg.FLT_STATUS.STATUS).testBit b = true ∨ s.getF Reg.FLT_MERGE.WIN_US = 0 then none else some s.now)) ∧
      (∀ m : Nat, s.mergeAt = some m → m < s.now → t.getF Reg.FLT_STATUS.STATUS = s.getF Reg.FLT_STATUS.STATUS ∧
        t.getF Reg.FLT_MERGED.COUNT = (s.getF Reg.FLT_MERGED.COUNT + 1) % 2 ^ 64 ∧ (t.getF Reg.FLT_MERGED_SRC.SRC).testBit b = true ∧
        t.mergeAt = s.mergeAt) ∧
      (∀ (c : Course) (code : Nat), s.course = some c → c.failed = false → faultStatus b false c.img.hostBytes = some code →
        t.working = none ∧ t.getF Reg.CRS_LAST.STATUS = code) ∧
      (s.course = none → t.course = none)) ∧
    (∀ (u : State) (b : Nat), isEventSource b = true → u.Canon → u.mergeAt = none →
      ((b = 44 ∧ u.power.step ≠ .off) ∨ (32 ≤ b ∧ b ≠ 36 ∧ b ≠ 44 ∧ u.power.hubRails = true)) →
      ∃ t, exec (.errorLineRise (.line b)) u = .next t ∧ (t.getF Reg.FLT_STATUS.STATUS).testBit b = true ∧
        (b = 44 → t.getF Reg.PPT_STAT.SELF_OK = 0)) ∧
    exec .mergeWindowClose s = .next { s with mergeAt := none } ∧
    (∀ v : W64, ∃ t, exec (.fltStatusClear v) s = .next t ∧ ∀ b : Nat, b < 48 → (t.getF Reg.FLT_STATUS.STATUS).testBit b =
      ((s.getF Reg.FLT_STATUS.STATUS).testBit b &&
        (!v.toNat.testBit b || (isCondition b && (s.getF Reg.FLT_LINES.LINES).testBit b)))) ∧
    (∀ (v : W64) (i : Instr), (i = .fltInjectArm v ∨ i = .fltInjectDisarm v) → ∃ t, exec i s = .next t ∧
      t.getF Reg.FLT_INJECT.MODE = wbits v 3 1 ∧ t.getF Reg.FLT_INJECT.CHECKER = wbits v 4 5 ∧ t.getF Reg.FLT_INJECT.UNIT = wbits v 9 9 ∧
      (v.toNat.testBit 1 = true → t.getF Reg.FLT_INJECT.ARM = 0 ∧ t.inj = none) ∧
      (v.toNat.testBit 1 = false → v.toNat.testBit 0 = true →
        ((s.getF Reg.FLT_INJECT.ARM = 0 ∧ injectUnitOk (wbits v 4 5) (wbits v 9 9) = true) →
          t.getF Reg.FLT_INJECT.ARM = 1 ∧ t.inj = some (wbits v 4 5, wbits v 3 1, wbits v 9 9)) ∧
        ((s.getF Reg.FLT_INJECT.ARM ≠ 0 ∨ injectUnitOk (wbits v 4 5) (wbits v 9 9) = false) →
          t.getF Reg.FLT_INJECT.REFUSED = 1 ∧ t.inj = s.inj ∧ t.getF Reg.FLT_INJECT.ARM = s.getF Reg.FLT_INJECT.ARM))) ∧
    (s.getF Reg.FLT_ALIVE.RUN ≠ 0 → s.power.step ≠ .off → exec .aliveToggle s = .next (s.setF Reg.FLT_ALIVE.LEVEL (1 - s.getF Reg.FLT_ALIVE.LEVEL))) ∧
    (s.getF Reg.FLT_ALIVE.RUN = 0 → exec .aliveToggle s = .next s)

/-- Parapet commands are checked, recorded and applied; the floor, the clock, the valve and the temperatures are governed (R526, R527, R528, R531, R532, R534, R537, R538, R539, R540, R545).
The model's choices are those of log entries 60 and 80 (the pulses of the last second as the measured flow); that DRAM warns at the 105 °C of R338 is
log entry 20 (DEDUCED). -/
def Obligations.ParapetCommandsAndGovernance : Prop :=
  ∀ s : State, s.power.hubRails = true → s.bolyelUp = true → s.power.step ≠ .off → s.Canon →
    (∀ (via op : Nat) (ws : List W64) (i : Instr),
      (op, i) ∈ [(1, .setLimit via ws), (2, .setRamp via ws), (3, .setTarget via ws), (4, .setCool via ws), (5, .setTherm via ws),
        (6, .setFatal via ws), (7, .setCal via ws)] →
      (wbits (ws.getD 0 0) 16 8 ≠ op → exec i s = .next s) ∧
      (wbits (ws.getD 0 0) 16 8 = op →
        (via = 1 → s.ppCheck via ws = 1) ∧ (via ≠ 1 → wbits (ws.getD 0 0) 0 16 ≠ 0x9A7E → s.ppCheck via ws = 2) ∧
        (s.ppCheck via ws = 0 → via ≠ 1 ∧ (ws.getD 2 0).toNat = s.getF Reg.SEC_ID.IDHASH ∧
          s.getF Reg.PPT_CMD.SEQ < wbits (ws.getD 1 0) 0 48 ∧ s.ppSigned ws = true ∧
          s.ppOperandsOk op (ws.getD 3 0) (ws.getD 4 0) = true) ∧
        (s.ppCheck via ws ≠ 0 → exec i s = .next
          { s.setFs [(Reg.PPT_CMD.RESULT, s.ppCheck via ws), (Reg.PPT_CMD.OPCODE, op)] with
            mgmtOut := s.mgmtOut ++ [.parapet op (s.ppCheck via ws)] }) ∧
        (s.ppCheck via ws = 0 → ∃ t, exec i s = .next t ∧ t.mgmtOut = s.mgmtOut ++ [.parapet op 0] ∧
          t.getF Reg.PPT_CMD.RESULT = 0 ∧ t.getF Reg.PPT_CMD.OPCODE = op ∧ t.getF Reg.PPT_CMD.SEQ = wbits (ws.getD 1 0) 0 48 ∧
          t.flash = { s.flash with cmdSeq := wbits (ws.getD 1 0) 0 48 } ∧ t.power = s.power ∧ (op ≠ 7 → t.calNs = s.calNs) ∧
          s.fieldsKept t ([Reg.PPT_CMD.RESULT, Reg.PPT_CMD.OPCODE, Reg.PPT_CMD.SEQ] ++
            (if op = 1 then [Reg.PPT_LIMIT.LIMIT_W, Reg.PPT_LIMIT.DERATE_W] else if op = 2 then [Reg.PPT_RAMP.SLOPE, Reg.PPT_RAMP.BAND_W]
             else if op = 3 then [Reg.PPT_TARGET.TARGET_W, Reg.PPT_TARGET.HOLD_MS]
             else if op = 4 then [Reg.PPT_VALVE.LEAD_MS, Reg.PPT_VALVE.DT_SET, Reg.PPT_VALVE.CP, Reg.PPT_VALVE.FLOW_FULL, Reg.PPT_FLOWK.FLOW_K]
             else if op = 5 then [Reg.PPT_THERM.JT_WARN] else if op = 6 then [Reg.FLT_FATAL.FATAL]
             else [Reg.PPT_CAL_STAT.INVALID, Reg.PPT_CAL_STAT.SRC, Reg.FLT_LINES.LINES])) ∧
          (op = 1 → t.getF Reg.PPT_LIMIT.LIMIT_W = wbits (ws.getD 3 0) 0 13 ∧ t.getF Reg.PPT_LIMIT.DERATE_W = wbits (ws.getD 3 0) 16 13) ∧
          (op = 2 → t.getF Reg.PPT_RAMP.SLOPE = wbits (ws.getD 3 0) 0 8 ∧ t.getF Reg.PPT_RAMP.BAND_W = wbits (ws.getD 3 0) 8 12) ∧
          (op = 3 → t.getF Reg.PPT_TARGET.TARGET_W = wbits (ws.getD 3 0) 0 13 ∧ t.getF Reg.PPT_TARGET.HOLD_MS = wbits (ws.getD 3 0) 16 16) ∧
          (op = 4 → t.getF Reg.PPT_VALVE.LEAD_MS = wbits (ws.getD 3 0) 0 16 ∧ t.getF Reg.PPT_VALVE.DT_SET = wbits (ws.getD 3 0) 16 8 ∧
            t.getF Reg.PPT_VALVE.CP = wbits (ws.getD 3 0) 24 16 ∧ t.getF Reg.PPT_VALVE.FLOW_FULL = wbits (ws.getD 3 0) 40 12 ∧
            t.getF Reg.PPT_FLOWK.FLOW_K = wbits (ws.getD 4 0) 0 16) ∧
          (op = 5 → t.getF Reg.PPT_THERM.JT_WARN = wbits (ws.getD 3 0) 0 8) ∧
          (op = 6 → t.getF Reg.FLT_FATAL.FATAL = wbits (ws.getD 3 0) 0 48 ||| 0x90C000000000) ∧
          (op = 7 → t.calNs = calToNs (ws.getD 3 0).toNat ∧ t.getF Reg.PPT_CAL_STAT.INVALID = 0 ∧ t.getF Reg.PPT_CAL_STAT.SRC = 2)))) ∧
    (∀ (via : Nat) (ws : List W64), (wbits (ws.getD 0 0) 16 8 = 0 ∨ 8 ≤ wbits (ws.getD 0 0) 16 8) →
      exec (.reservedParapetOpcode via ws) s = .next
        { s.setFs [(Reg.PPT_CMD.RESULT, if via = 1 then 1 else 2), (Reg.PPT_CMD.OPCODE, wbits (ws.getD 0 0) 16 8)] with
          mgmtOut := s.mgmtOut ++ [.parapet (wbits (ws.getD 0 0) 16 8) (if via = 1 then 1 else 2)] }) ∧
    (∀ (meas joules : Nat) (short : Bool), ∃ t, exec (.drawSample meas joules short) s = .next t ∧
      t.getF Reg.PPT_DRAW.MEAS_W = meas % 2 ^ 13 ∧ t.getF Reg.PPT_FLASH.ENERGY_J = (s.getF Reg.PPT_FLASH.ENERGY_J + joules) % 2 ^ 64 ∧
      ((s.power.floorOn = false ∨ s.valveForced = true) → t.power = s.power) ∧
      (s.power.floorOn = true → s.valveForced = false →
        (s.power.floorCw ≤ s.floorTarget → t.power.floorCw = min s.floorTarget (s.power.floorCw + s.getF Reg.PPT_RAMP.SLOPE)) ∧
        (s.floorTarget < s.power.floorCw → s.fallAllowed = true →
          t.power.floorCw = max s.floorTarget (s.power.floorCw - s.getF Reg.PPT_RAMP.SLOPE) ∧ t.getF Reg.PPT_STAT.HOLDING = 0) ∧
        (s.floorTarget < s.power.floorCw → (s.getF Reg.CRS_STATUS.IDLE = 0 ∨ s.course ≠ none) → s.power.fatal = none →
          t.power.floorCw = s.power.floorCw ∧ t.getF Reg.PPT_STAT.HOLDING = 1) ∧
        t.getF Reg.PPT_DRAW.FLOOR_W = t.power.floorCw / 100 % 2 ^ 13 ∧
        t.getF Reg.PPT_DRAW.CEIL_W = (t.power.floorCw / 100 + s.getF Reg.PPT_RAMP.BAND_W) % 2 ^ 13 ∧
        t.getF Reg.PPT_STAT.FLASH_SHORT = bit short ∧
        t.getF Reg.PPT_STAT.AT_TARGET = bit (decide (t.power.floorCw = s.floorTarget)))) ∧
    (∃ t, exec (.overdrawStep true) s = .next t ∧ t.power.clockSteps = s.power.clockSteps + 1 ∧
      t.getF Reg.PPT_OVER.COUNT = (s.getF Reg.PPT_OVER.COUNT + 1) % 2 ^ 64 ∧ t.getF Reg.PPT_STAT.OVERDRAW = 1) ∧
    (∃ t, exec (.overdrawStep false) s = .next t ∧ t.power.clockSteps = s.power.clockSteps - 1 ∧
      t.getF Reg.PPT_OVER.COUNT = s.getF Reg.PPT_OVER.COUNT ∧ (t.getF Reg.PPT_STAT.OVERDRAW = 0 ↔ s.power.clockSteps ≤ 1)) ∧
    (∀ tin tout pulses : Nat, ∃ t, exec (.valveUpdate tin tout pulses) s = .next t ∧
      t.getF Reg.PPT_COOL.TIN = tin % 2 ^ 12 ∧ t.getF Reg.PPT_COOL.TOUT = tout % 2 ^ 12 ∧
      t.getF Reg.PPT_COOL.FLOW = min 0xFFFF (pulses * 6000 / s.getF Reg.PPT_FLOWK.FLOW_K) ∧
      t.power.trim = min 640 (max (-640) (s.power.trim + ((tout : Int) - tin - 16 * (s.getF Reg.PPT_VALVE.DT_SET : Int)))) ∧
      t.getF Reg.PPT_COOL.DUTY ≤ 100 ∧
      ((s.getF Reg.PPT_STAT.TWARN ≠ 0 ∨ s.valveForced = true) → t.getF Reg.PPT_COOL.DUTY = 100) ∧
      (∀ cd den num : Int, s.getF Reg.PPT_STAT.TWARN = 0 → s.valveForced = false →
        cd = (s.getF Reg.PPT_VALVE.CP : Int) * s.getF Reg.PPT_VALVE.DT_SET → den = 320 * cd * s.getF Reg.PPT_VALVE.FLOW_FULL → 0 < den →
        num = 10000 * (19200 * (s.plannedDraw : Int) + t.power.trim * cd) →
        (t.getF Reg.PPT_COOL.DUTY = 100 ∨ num ≤ t.getF Reg.PPT_COOL.DUTY * den) ∧
        (t.getF Reg.PPT_COOL.DUTY = 0 ∨ ((t.getF Reg.PPT_COOL.DUTY : Int) - 1) * den < num))) ∧
    (∀ (cause : Nat) (holds : Bool), (cause = 0 ∨ 3 < cause) → exec (.coolantCondition cause holds) s = .next s) ∧
    (∀ cause : Nat, 1 ≤ cause → cause ≤ 3 →
      (∃ t, exec (.coolantCondition cause true) s = .next t ∧ cause ∈ t.power.coolCauses ∧ (∀ c ∈ s.power.coolCauses, c ∈ t.power.coolCauses) ∧
        (s.power.coolCauses = [] → t.getF Reg.PPT_COOL.CAUSE = cause) ∧ (t.getF Reg.FLT_LINES.LINES).testBit 40 = true ∧
        t.getF Reg.PPT_STAT.DERATED = 1) ∧
      (∃ t, exec (.coolantCondition cause false) s = .next t ∧ cause ∉ t.power.coolCauses ∧
        (t.power.coolCauses = [] → t.getF Reg.PPT_COOL.CAUSE = 0 ∧ (t.getF Reg.FLT_LINES.LINES).testBit 40 = false ∧
          t.getF Reg.PPT_STAT.DERATED = bit (s.on Reg.PPT_STAT.TWARN)))) ∧
    (∀ truss hub dram pstage : Nat, truss < 256 → hub < 256 → dram < 256 → pstage < 256 →
      ∃ t, exec (.thermalSample truss hub dram pstage) s = .next t ∧
        t.getF Reg.PPT_THERM.TRUSS = truss ∧ t.getF Reg.PPT_THERM.HUB = hub ∧ t.getF Reg.PPT_THERM.DRAM = dram ∧
        t.getF Reg.PPT_THERM.PSTAGE = pstage ∧
        ((s.getF Reg.PPT_THERM.JT_WARN ≤ truss ∨ 95 ≤ hub ∨ 105 ≤ dram ∨ 110 ≤ pstage) →
          t.getF Reg.PPT_STAT.TWARN = 1 ∧ t.getF Reg.PPT_STAT.DERATED = 1) ∧
        (truss + 5 ≤ s.getF Reg.PPT_THERM.JT_WARN → hub ≤ 90 → dram ≤ 100 → pstage ≤ 105 → t.getF Reg.PPT_STAT.TWARN = 0 ∧
          t.getF Reg.PPT_STAT.DERATED = bit (!s.power.coolCauses.isEmpty)) ∧
        (s.power.step = .good → (115 ≤ truss ∨ 110 ≤ hub ∨ 115 ≤ dram ∨ 125 ≤ pstage) →
          (t.getF Reg.FLT_LINES.LINES).testBit 39 = true ∧
          ((s.getF Reg.FLT_LINES.LINES).testBit 39 = false → (s.getF Reg.FLT_FATAL.FATAL).testBit 39 = true →
            t.power.thermtripN = false ∧ t.power.coreRails = false ∧ t.power.hubRails = true ∧ t.getF Reg.PPT_COOL.DUTY = 100 ∧
            t.getF Reg.FLT_ALIVE.RUN = 0)) ∧
        (s.power.step = .good → truss < 115 → hub < 110 → dram < 115 → pstage < 125 → (t.getF Reg.FLT_LINES.LINES).testBit 39 = false))

/-- Boot goes stage by stage from identity to ready, with the offer window and the cache; a watchdog expiry silences management (R516, R531, R549, R550, R552, R553, R554, R555, R556, R557, R564, R567).
The model's choices are those of log entries 10, 15 and 57. -/
def Obligations.BootStages : Prop :=
  ∀ s : State, s.power.hubRails = true → s.Canon →
    (∀ h p p' x x' : List Byte, extractSeed h p = some x → extractSeed h p' = some x' → x = x') ∧
    (∀ seed img man : List Byte, 1 ≤ idScalar seed ∧ idScalar seed < n384 ∧ 1 ≤ aliasScalar seed img man ∧ aliasScalar seed img man < n384) ∧
    (∀ puf : List Byte, ((s.inStage 1 = false ∨ s.boot.idFail = true) → exec (.bootIdentity puf) s = .next s) ∧
      (s.inStage 1 = true → s.boot.idFail = false → ∃ t, exec (.bootIdentity puf) s = .next t ∧ t.getF Reg.FLS_STAT.HELPER = bit s.flash.helper.isSome ∧
        ((s.flash.helper.bind fun h => extractSeed h puf) = none → t.getF Reg.SEC_BOOT_STAT.STAGE = 1 ∧ t.boot.idFail = true ∧
          t.getF Reg.SEC_BOOT_STAT.ERR_VALID ≠ 0 ∧ (s.getF Reg.SEC_BOOT_STAT.ERR_VALID = 0 → t.getF Reg.SEC_BOOT_STAT.ERR = 1) ∧
          (s.mergeAt = none → (t.getF Reg.FLT_STATUS.STATUS).testBit 43 = true)) ∧
        (∀ seed : List Byte, (s.flash.helper.bind fun h => extractSeed h puf) = some seed →
          t.getF Reg.SEC_BOOT_STAT.STAGE = 2 ∧ t.boot.seed = seed ∧ t.boot.idKey = true ∧
          t.getF Reg.SEC_ID.IDHASH = beNat (sha384 (ecPublic (idScalar seed))) % 2 ^ 64))) ∧
    (s.inStage 2 = false → exec .bootManifest s = .next s) ∧
    (s.inStage 2 = true → ∃ t, exec .bootManifest s = .next t ∧ t.getF Reg.SEC_BOOT_STAT.STAGE = 3 ∧
      (∀ m : List Byte, s.flash.manifest = some m → s.verifyObj m 2 = 0 → t.boot.manifest = some m ∧ t.getF Reg.FLS_STAT.MAN_VALID = 1 ∧
        t.getF Reg.SEC_MAN.MVER = manMver m % 2 ^ 32 ∧ t.getF Reg.SEC_MAN.MIN_SVN = manMinSvn m % 2 ^ 32) ∧
      ((∀ m : List Byte, s.flash.manifest = some m → s.verifyObj m 2 ≠ 0) → t.boot.manifest = s.boot.manifest ∧ t.boot.unlimited = true)) ∧
    (s.inStage 3 = false → exec .bootCache s = .next s) ∧
    (s.inStage 3 = true → s.boot.chosen = none → ∃ t, exec .bootCache s = .next t ∧ t.getF Reg.SEC_BOOT_STAT.STAGE = 4 ∧ t.boot.window = true ∧
      t.getF Reg.SEC_BOOT_STAT.WAITING = bit t.boot.unlimited ∧
      (s.cacheImage 0 = none → s.cacheImage 1 = none → t.boot.chosen = none ∧ t.boot.unlimited = true) ∧
      (∀ (n : Nat) (o : List Byte), n < 2 → s.cacheImage n = some o → s.verifyObj o 1 = 0 →
        (∀ x : List Byte, s.cacheImage (1 - n) = some x → objSvn x < objSvn o ∨ (objSvn x = objSvn o ∧ n = 0)) →
        t.boot.chosen = some o ∧ t.getF Reg.SEC_BOOT_STAT.SRC = n ∧ t.boot.unlimited = s.boot.unlimited ∧
        t.getF (if n = 0 then Reg.FLS_CACHE0.VALID else Reg.FLS_CACHE1.VALID) = 1)) ∧
    (∀ v : W32, ((v.toNat.testBit 0 = false ∨ s.boot.window = false) → exec (.offer v) s = .next s) ∧
      (v.toNat.testBit 0 = true → s.boot.window = true →
        (s.boot.reading ≠ none → ∃ t, exec (.offer v) s = .next t ∧ t.boot = s.boot ∧
          (s.getF Reg.SEC_BOOT_STAT.ERR_VALID = 0 → t.getF Reg.SEC_BOOT_STAT.ERR = 9) ∧
          t.getF Reg.FLT_STATUS.STATUS = s.getF Reg.FLT_STATUS.STATUS) ∧
        (s.boot.reading = none → (s.getF Reg.SEC_BOOT_LEN.PAGES < 2 ∨ 16385 < s.getF Reg.SEC_BOOT_LEN.PAGES) →
          ∃ t, exec (.offer v) s = .next t ∧ t.boot = s.boot ∧ (s.getF Reg.SEC_BOOT_STAT.ERR_VALID = 0 → t.getF Reg.SEC_BOOT_STAT.ERR = 0x0B)) ∧
        (s.boot.reading = none → 2 ≤ s.getF Reg.SEC_BOOT_LEN.PAGES → s.getF Reg.SEC_BOOT_LEN.PAGES ≤ 16385 → exec (.offer v) s = .next
          { s.setF Reg.SEC_BOOT_CTRL.OFFER 1 with boot := { s.boot with reading := some 2 } }))) ∧
    (s.boot.window = false → s.bolyelUp = false → exec .requestUpdate s = .next s) ∧
    (s.boot.window = false → s.bolyelUp = true → exec .requestUpdate s = .next { s with mgmtOut := s.mgmtOut ++ [.pldm 0] }) ∧
    (s.boot.window = true → s.boot.reading = none → exec .requestUpdate s = .next
      { s with boot := { s.boot with reading := some 3 }, mgmtOut := s.mgmtOut ++ [.pldm 0] }) ∧
    (s.boot.window = true → s.boot.reading ≠ none → ∃ t, exec .requestUpdate s = .next t ∧ t.boot = s.boot ∧ t.mgmtOut = s.mgmtOut ++ [.pldm 1]) ∧
    (∀ obj : Option (List Byte), (s.boot.reading = none → exec (.offerVerify obj) s = .next s) ∧
      (∀ src : Nat, s.boot.reading = some src → src < 4 → ∃ t, exec (.offerVerify obj) s = .next t ∧ t.getF Reg.SEC_BOOT_CTRL.OFFER = 0 ∧
        t.boot.reading = none ∧
        (obj = none → s.offered src obj = none) ∧
        (∀ x : List Byte, src = 2 → obj = some x → x.length < s.getF Reg.SEC_BOOT_LEN.PAGES * 4096 → s.offered src obj = none) ∧
        (∀ x : List Byte, src = 2 → obj = some x → s.getF Reg.SEC_BOOT_LEN.PAGES * 4096 ≤ x.length →
          s.offered src obj = some (x.take (s.getF Reg.SEC_BOOT_LEN.PAGES * 4096))) ∧
        (s.offered src obj = none → t.boot = { s.boot with reading := none } ∧ t.flash = s.flash ∧
          (s.getF Reg.SEC_BOOT_STAT.ERR_VALID = 0 → t.getF Reg.SEC_BOOT_STAT.ERR = 0x0A)) ∧
        (∀ o : List Byte, s.offered src obj = some o → objPurpose o ≠ 2 →
          (s.verifyObj o 1 ≠ 0 → t.boot = { s.boot with reading := none } ∧ t.flash = s.flash) ∧
          (s.verifyObj o 1 = 0 → t.getF Reg.SEC_BOOT_STAT.SRC = src ∧ t.getF Reg.SEC_BOOT_STAT.STAGE = 5 ∧
            t.getF Reg.SEC_BOOT_STAT.WAITING = 0 ∧ t.flash = s.flash ∧
            t.boot = { s.boot with chosen := some o, window := false, unlimited := false, reading := none, manOld := none })) ∧
        (∀ o : List Byte, s.offered src obj = some o → objPurpose o = 2 →
          (s.verifyObj o 2 ≠ 0 → t.boot = { s.boot with reading := none } ∧ t.flash = s.flash) ∧
          (s.verifyObj o 2 = 0 → (∀ m : List Byte, s.flash.manifest = some m → manMver m ≤ manMver o) →
            t.boot = { s.boot with manifest := some o, reading := none, manOld := some s.flash.manifest } ∧
            t.flash = { s.flash with manifest := some o } ∧ t.getF Reg.SEC_MAN.MVER = manMver o % 2 ^ 32) ∧
          (∀ m : List Byte, s.verifyObj o 2 = 0 → s.flash.manifest = some m → manMver o < manMver m →
            t.boot = { s.boot with reading := none } ∧ t.flash = s.flash)))) ∧
    ((s.boot.window = false ∨ s.boot.unlimited = true ∨ s.boot.reading ≠ none ∨ s.boot.chosen = none) → exec .offerWindowClose s = .next s) ∧
    (s.boot.window = true → s.boot.unlimited = false → s.boot.reading = none → s.boot.chosen ≠ none →
      ∃ t, exec .offerWindowClose s = .next t ∧ t.getF Reg.SEC_BOOT_STAT.STAGE = 5 ∧ t.boot = { s.boot with window := false, manOld := none }) ∧
    (∀ m : Option (List Byte), s.boot.manOld = some m → ∃ t, exec .flashFault s = .next t ∧ t.flash.manifest = m ∧
      t.boot = { s.boot with cacheWrite := none, manOld := none }) ∧
    (s.boot.reading = some 2 → ∃ t, exec .hostrstAssert s = .next t ∧ t.boot = { s.boot with reading := none } ∧ t.flash = s.flash ∧
      t.selfReset = s.selfReset ∧ t.getF Reg.HIF_STATUS.LINK_UP = 0 ∧ t.getF Reg.SEC_BOOT_CTRL.OFFER = 0 ∧
      (s.getF Reg.SEC_BOOT_STAT.ERR_VALID = 0 → t.getF Reg.SEC_BOOT_STAT.ERR = 0x0A)) ∧
    (s.inStage 5 = false → exec .bootLoad s = .next s) ∧
    (∀ o : List Byte, s.inStage 5 = true → s.boot.chosen = some o → ∃ t, exec .bootLoad s = .next t ∧ t.getF Reg.SEC_BOOT_STAT.STAGE = 6 ∧
      t.getF Reg.SEC_BOOT_STAT.SVN = objSvn o % 2 ^ 32 ∧
      ((s.getF Reg.SEC_BOOT_STAT.SRC < 2 ∨ s.cacheSlotFor o = none) → t.flash = s.flash ∧ t.boot = s.boot) ∧
      (∀ n : Nat, 2 ≤ s.getF Reg.SEC_BOOT_STAT.SRC → s.cacheSlotFor o = some n → t.boot = { s.boot with cacheWrite := some n } ∧
        t.flash = (if n = 0 then { s.flash with cache0 := some (o, false) } else { s.flash with cache1 := some (o, false) }))) ∧
    (s.boot.cacheWrite = none → exec .cacheWriteDone s = .next { s with boot := { s.boot with manOld := none } }) ∧
    (∀ (n : Nat) (o : List Byte) (b : Bool), s.boot.cacheWrite = some n → (if n = 0 then s.flash.cache0 else s.flash.cache1) = some (o, b) →
      ∃ t, exec .cacheWriteDone s = .next t ∧ t.boot = { s.boot with cacheWrite := none, manOld := none } ∧
        t.flash = (if n = 0 then { s.flash with cache0 := some (o, true) } else { s.flash with cache1 := some (o, true) }) ∧
        t.getF (if n = 0 then Reg.FLS_CACHE0.VALID else Reg.FLS_CACHE1.VALID) = 1 ∧
        t.getF (if n = 0 then Reg.FLS_CACHE0.SVN else Reg.FLS_CACHE1.SVN) = objSvn o % 2 ^ 32) ∧
    (∀ x : BootTests, (s.inStage 6 = false → exec (.bootConfig x) s = .next s) ∧
      (s.inStage 6 = true → s.power.coreRails = true → ∃ t, exec (.bootConfig x) s = .next t ∧ t.getF Reg.SEC_BOOT_STAT.STAGE = 7 ∧
        t.getF Reg.PPT_CMD.SEQ = s.flash.cmdSeq % 2 ^ 48 ∧ t.getF Reg.PPT_IDLE.IDLE_W = x.idleW % 2 ^ 13 ∧ t.hbm = [] ∧ t.poison = [] ∧
        t.getF Reg.SEC_KS.KSEQ = s.flash.kseq % 2 ^ 48 ∧ t.flash = s.flash)) ∧
    ((s.inStage 7 = false ∨ s.boot.idKey = false) → exec .bootAlias s = .next s) ∧
    (∀ img man : List Byte, s.inStage 7 = true → s.boot.idKey = true → s.boot.chosen = some img → s.boot.manifest = some man →
      exec .bootAlias s = .next { s with boot := { s.boot with
        idKey := false, seed := [], alias_ := beBytes 48 (aliasScalar s.boot.seed img man),
        aliasCert := Sys2Proof.Machine.aliasCert (ecPublic (aliasScalar s.boot.seed img man)) (s.getF Reg.SEC_BOOT_STAT.SVN)
          (s.getF Reg.SEC_MAN.MVER) (idScalar s.boot.seed) } }) ∧
    ((s.inStage 7 = false ∨ s.boot.idKey = true ∨ s.boot.alias_ = []) → exec .ready s = .next s) ∧
    (s.inStage 7 = true → s.boot.idKey = false → s.boot.alias_ ≠ [] → ∃ t, exec .ready s = .next t ∧ t.getF Reg.SEC_BOOT_STAT.STAGE = 8 ∧
      t.getF Reg.SEC_BOOT_STAT.READY = 1 ∧ t.getF Reg.FLT_ALIVE.RUN = bit s.power.fatal.isNone ∧ t.boot = { s.boot with bolyel := true } ∧
      t.power = { s.power with floorOn := true, floorCw := s.getF Reg.PPT_IDLE.IDLE_W * 100 }) ∧
    (s.ready = false → exec .watchdogExpiry s = .next s) ∧
    (s.ready = true → ∃ t, exec .watchdogExpiry s = .next t ∧ t.getF Reg.SEC_WDOG.EXPIRIES = (s.getF Reg.SEC_WDOG.EXPIRIES + 1) % 2 ^ 16 ∧
      t.bolyelUp = false ∧ s.now < t.boot.bolyelBack ∧ t.boot.bolyelBack ≤ s.now + 200000000 ∧
      (s.mergeAt = none → (t.getF Reg.FLT_STATUS.STATUS).testBit 46 = true) ∧
      ((s.getF Reg.FLT_FATAL.FATAL).testBit 46 = false → t.course = s.course ∧ t.power = s.power))

/-- Attestation, the key store, firmware updates and PTP answer as they are said to, and only while Bolyel runs (R42, R551, R557, R558, R559, R560, R561, R563, R564, R565).
The model's choices are those of log entries 10, 12, 45, 58, 59 and 89. -/
def Obligations.TrustAndTime : Prop :=
  ∀ s : State, s.power.hubRails = true → s.Canon →
    (s.pldmSensors = if s.bolyelUp then some (numericFields.map s.getF, (List.range 48).map fun b => (s.getF Reg.FLT_STATUS.STATUS).testBit b) else none) ∧
    (∀ (i : Instr) (x : List Byte) (a b : Nat) (o : PtpOffset), s.bolyelUp = false →
      i ∈ [.getVersion, .getCapabilities, .negotiateAlgorithms, .getDigests, .getCertificate a b, .challenge x, .getMeasurements a x,
        .spdmUnsupportedRequest a, .keyAdd a x, .keyRevoke a x, .keyClear a x, .firmwareUpdate x, .activateFirmware, .ptpMessage o a] →
      exec i s = .next s) ∧
    (s.bolyelUp = true →
      exec .getVersion s = .next { s with mgmtOut := s.mgmtOut ++ [.spdm 0x04 [0x12]] } ∧
      exec .getCapabilities s = .next { s with mgmtOut := s.mgmtOut ++ [.spdm 0x61 [0x16, 0, 0, 0]] } ∧
      exec .negotiateAlgorithms s = .next
        { s with mgmtOut := s.mgmtOut ++ [.spdm 0x63 [0x80, 0, 0, 0, 0x02, 0, 0, 0, 0x04, 0, 0, 0]] } ∧
      exec .getDigests s = .next { s with mgmtOut := s.mgmtOut ++ [.spdm 0x01 (1 :: sha384 (s.flash.certs.flatten ++ s.boot.aliasCert))] } ∧
      (∀ off len : Nat, exec (.getCertificate off len) s = .next
        { s with mgmtOut := s.mgmtOut ++ [.spdm 0x02 (((s.flash.certs.flatten ++ s.boot.aliasCert).drop off).take len)] }) ∧
      (∀ nonce b : List Byte, b = sha384 (s.flash.certs.flatten ++ s.boot.aliasCert) ++ Config.nonce s.freeCtr ++ leBytes 8 s.stamp →
        exec (.challenge nonce) s = .next { s with
          freeCtr := s.freeCtr + 1, mgmtOut := s.mgmtOut ++ [.spdm 0x03 (b ++ ecSign (beNat s.boot.alias_) (b ++ nonce) s.freeCtr)] }) ∧
      (∀ (index : Nat) (nonce m b : List Byte),
        (index, m) ∈ [(1, sha384 Config.romContent), (2, sha384 ((s.boot.chosen.getD []).take 0x1000)),
          (3, sha384 ((s.boot.manifest.getD []).drop 0x1000)), (4, sha384 (s.flash.keys.flatMap KeyEntry.bytes)),
          (5, leBytes 4 (s.getF Reg.SEC_BOOT_STAT.SVN) ++ leBytes 4 (s.getF Reg.SEC_MAN.MVER) ++ leBytes 8 s.flash.kseq),
          (6, leBytes 1 (s.getF Reg.SEC_BOOT_STAT.SRC))] → b = m ++ Config.nonce s.freeCtr ++ leBytes 8 s.stamp →
        exec (.getMeasurements index nonce) s = .next { s with
          freeCtr := s.freeCtr + 1, mgmtOut := s.mgmtOut ++ [.spdm 0x60 (b ++ ecSign (beNat s.boot.alias_) (b ++ nonce) s.freeCtr)] }) ∧
      (∀ code : Nat, (code ∈ [0x81, 0x82, 0x83, 0x84, 0xE0, 0xE1, 0xE3] → exec (.spdmUnsupportedRequest code) s = .next s) ∧
        (code ∉ [0x81, 0x82, 0x83, 0x84, 0xE0, 0xE1, 0xE3] → exec (.spdmUnsupportedRequest code) s = .next
          { s with mgmtOut := s.mgmtOut ++ [.spdmError 0x07] })) ∧
      exec .activateFirmware s = .next { s with mgmtOut := s.mgmtOut ++ [.pldm 3] } ∧
      (∀ (via : Nat) (e : List Byte),
        (s.flash.keys = [] → keyFormOk e = true → via = 0 → leNat (objAt e 2 1) = 0 → leNat (objAt e 3 1) % 2 = 1 → leNat (objAt e 4 1) = 0 →
          s.flash.kseq < leNat (objAt e 8 8) → leNat (objAt e 16 8) = s.getF Reg.SEC_ID.IDHASH →
          sigVerify (objAt e 24 97) (e.take 160) (objAt e 160 96) = true →
          ∃ t, exec (.keyAdd via e) s = .next t ∧ t.flash = { s.flash with keys := [readKeyEntry e], kseq := leNat (objAt e 8 8) } ∧
            t.getF Reg.SEC_KS.ENTRIES = 1 ∧ t.getF Reg.SEC_KS.KSEQ = leNat (objAt e 8 8) % 2 ^ 48 ∧ t.mgmtOut = s.mgmtOut ++ [.keyEdit true]) ∧
        (s.flash.keys ≠ [] → s.editOk via e = true → (∀ k ∈ s.flash.keys, k.index ≠ leNat (objAt e 2 1)) →
          ∃ t, exec (.keyAdd via e) s = .next t ∧ t.flash = { s.flash with
            keys := insertKey (readKeyEntry e) s.flash.keys, kseq := leNat (objAt e 8 8) } ∧ t.mgmtOut = s.mgmtOut ++ [.keyEdit true]) ∧
        (s.editOk via e = true → (∃ k ∈ s.flash.keys, k.index = leNat (objAt e 2 1)) →
          adminLeft (s.flash.keys.filter fun k => decide (k.index ≠ leNat (objAt e 2 1))) = true →
          ∃ t, exec (.keyRevoke via e) s = .next t ∧ t.flash = { s.flash with
            keys := s.flash.keys.filter fun k => decide (k.index ≠ leNat (objAt e 2 1)), kseq := leNat (objAt e 8 8) } ∧
            t.mgmtOut = s.mgmtOut ++ [.keyEdit true]) ∧
        (s.editOk via e = true → ∃ t, exec (.keyClear via e) s = .next t ∧
          t.flash = { s.flash with keys := [], kseq := leNat (objAt e 8 8) } ∧ t.getF Reg.SEC_KS.ENTRIES = 0 ∧
          t.mgmtOut = s.mgmtOut ++ [.keyEdit true]) ∧
        (s.editOk via e = true → via ≠ 1 ∧ s.flash.kseq < leNat (objAt e 8 8) ∧ ∃ k ∈ s.flash.keys, k.index = leNat (objAt e 4 1) ∧
          k.auth.testBit 0 = true ∧ sigVerify k.key (e.take 160) (objAt e 160 96) = true) ∧
        (s.editOk via e = false → (s.flash.keys ≠ [] ∨ via ≠ 0) → ∀ i ∈ [Instr.keyAdd via e, .keyRevoke via e, .keyClear via e],
          exec i s = .next { s with mgmtOut := s.mgmtOut ++ [.keyEdit false] }) ∧
        (s.editOk via e = true → adminLeft (s.flash.keys.filter fun k => decide (k.index ≠ leNat (objAt e 2 1))) = false →
          exec (.keyRevoke via e) s = .next { s with mgmtOut := s.mgmtOut ++ [.keyEdit false] })) ∧
      (∀ o : List Byte, (s.getF Reg.FLT_FATAL.FATAL).testBit 43 = false → ∃ t, exec (.firmwareUpdate o) s = .next t ∧ t.course = s.course ∧
        (objPurpose o ≠ 2 → s.verifyObj o 1 ≠ 0 → t.flash = s.flash) ∧
        (objPurpose o ≠ 2 → s.verifyObj o 1 = 0 → t.mgmtOut = s.mgmtOut ++ [.pldm 0] ∧ (s.cacheSlotFor o = none → t.flash = s.flash) ∧
          (∀ n : Nat, s.cacheSlotFor o = some n → t.boot = { s.boot with cacheWrite := some n } ∧
            t.flash = (if n = 0 then { s.flash with cache0 := some (o, false) } else { s.flash with cache1 := some (o, false) }))) ∧
        (objPurpose o = 2 → s.verifyObj o 2 ≠ 0 → t.flash = s.flash) ∧
        (objPurpose o = 2 → s.verifyObj o 2 = 0 → (∀ m : List Byte, s.flash.manifest = some m → manMver m ≤ manMver o) →
          t.flash = { s.flash with manifest := some o } ∧ t.boot = { s.boot with manOld := some s.flash.manifest })) ∧
      (∀ (m : PtpOffset) (time : Nat), m.domain ≠ s.getF Reg.SEC_PTP.DOMAIN → exec (.ptpMessage m time) s = .next s) ∧
      (∀ (o : Int) (time : Nat), ∃ t, exec (.ptpMessage ⟨s.getF Reg.SEC_PTP.DOMAIN, o⟩ time) s = .next t ∧ t.beat = s.beat ∧
        (-(2 ^ 31) ≤ o → o < 2 ^ 31 → (t.getF Reg.SEC_PTP.OFFSET_NS : Int) = o % 2 ^ 32) ∧
        t.boot = { s.boot with ptpGood := if o.natAbs ≤ 1000 then s.boot.ptpGood + 1 else 0, slew := t.boot.slew } ∧
        (s.getF Reg.SEC_PTP.LOCKED = 0 → (1000 < o.natAbs ∨ s.boot.ptpGood < 15) →
          t.getF Reg.SEC_PTP.LOCKED = 0 ∧ t.timeBase = s.timeBase ∧ t.calNs = s.calNs ∧ t.boot.slew = s.boot.slew) ∧
        (s.getF Reg.SEC_PTP.LOCKED = 0 → o.natAbs ≤ 1000 → 15 ≤ s.boot.ptpGood → t.getF Reg.SEC_PTP.LOCKED = 1 ∧
          (s.stepAllowed = true → t.timeBase = time ∧ t.getF Reg.SEC_PTP.STEP_PEND = 0 ∧ t.boot.slew = 0) ∧
          (s.stepAllowed = false → t.timeBase = s.timeBase ∧ t.getF Reg.SEC_PTP.STEP_PEND = 1 ∧ t.boot.slew = (time : Int) - s.timeBase)) ∧
        (s.boot.ppsAt = none → s.ptpTarget time = time) ∧
        (s.ppsPresent = true → 1000000000 ≤ time → ((s.ptpTarget time : Int) - s.timeBase - s.boot.slew) % 1000000000 = 0 ∧
          s.ptpTarget time ≤ time + 500000000 ∧ time ≤ s.ptpTarget time + 500000000) ∧
        (s.getF Reg.SEC_PTP.LOCKED ≠ 0 →
          (o.natAbs < 1000000 → s.getF Reg.SEC_PTP.STEP_PEND = 0 → t.timeBase = s.timeBase ∧ t.getF Reg.SEC_PTP.STEP_PEND = 0 ∧
            t.boot.slew = (s.ptpTarget time : Int) - s.timeBase) ∧
          ((1000000 ≤ o.natAbs ∨ s.getF Reg.SEC_PTP.STEP_PEND ≠ 0) → s.stepAllowed = true →
            t.timeBase = s.ptpTarget time ∧ t.getF Reg.SEC_PTP.STEP_PEND = 0 ∧ t.boot.slew = 0) ∧
          ((1000000 ≤ o.natAbs ∨ s.getF Reg.SEC_PTP.STEP_PEND ≠ 0) → s.stepAllowed = false →
            t.timeBase = s.timeBase ∧ t.getF Reg.SEC_PTP.STEP_PEND = 1 ∧ t.boot.slew = (s.ptpTarget time : Int) - s.timeBase) ∧
          (s.calNs + 1000000 < time ∨ time + 1000000 < s.calNs → t.calNs = time ∧ t.getF Reg.PPT_CAL_STAT.SRC = 1 ∧
            t.getF Reg.PPT_CAL_STAT.INVALID = 0)))) ∧
    (s.getF Reg.SEC_PTP.LOCKED = 0 → exec .ppsEdge s = .next { s with boot := { s.boot with ppsAt := some s.now } }) ∧
    (s.getF Reg.SEC_PTP.LOCKED ≠ 0 → ∃ (t : State) (b : Nat), exec .ppsEdge s = .next t ∧
      t = { s with regs := t.regs, timeBase := t.timeBase, boot := { s.boot with ppsAt := some s.now, slew := t.boot.slew } } ∧
      s.fieldsKept t [Reg.SEC_PTP.STEP_PEND] ∧ b % 1000000000 = 0 ∧ b ≤ s.timeBase + 500000000 ∧ s.timeBase < b + 500000000 ∧
      (((b : Int) - s.timeBase).natAbs < 1000000 → s.getF Reg.SEC_PTP.STEP_PEND = 0 →
        t.timeBase = s.timeBase ∧ t.getF Reg.SEC_PTP.STEP_PEND = 0 ∧ t.boot.slew = (b : Int) - s.timeBase) ∧
      ((1000000 ≤ ((b : Int) - s.timeBase).natAbs ∨ s.getF Reg.SEC_PTP.STEP_PEND ≠ 0) →
        (s.stepAllowed = true → t.timeBase = b ∧ t.getF Reg.SEC_PTP.STEP_PEND = 0 ∧ t.boot.slew = 0) ∧
        (s.stepAllowed = false → t.timeBase = s.timeBase ∧ t.getF Reg.SEC_PTP.STEP_PEND = 1 ∧ t.boot.slew = (b : Int) - s.timeBase)))

/-- Each step of the power-on sequence happens from the step before it; rail failures, J1 faults, trips and resets do what they are said to (R544, R573, R575, R577, R578, R579, R580, R581, R582, R583).
J1 back in its range by POWER_ON, and the end of step 5 by a second RAIL_SEQUENCE, are the model's choices (log entry 79). -/
def Obligations.PowerSequenceAndModuleReset : Prop :=
  ∀ s : State, s.Canon →
    (s.power.step ≠ .off → ∀ osc : Bool, exec (.powerOn osc) s = .next ({ s with power := { s.power with j1Ok := true } }.dropLine 38)) ∧
    (s.power.step = .off → ∀ osc : Bool, ∃ t, exec (.powerOn osc) s = .next t ∧ t.power.step = .standby ∧ t.power.j1Ok = true ∧ t.getF Reg.GEN_RESET.CAUSE = 1 ∧
      t.getF Reg.GEN_RESET.RAILFAIL = 0 ∧ t.getF Reg.GEN_RESET.COUNT = 0 ∧
      (osc = true → t.calNs = 0 ∧ t.getF Reg.PPT_CAL_STAT.INVALID = 1) ∧
      (osc = false → t.calNs = s.calNs ∧ t.getF Reg.PPT_CAL_STAT.INVALID = s.getF Reg.PPT_CAL_STAT.INVALID)) ∧
    (s.power.step ≠ .standby → exec .standbyGood s = .next s) ∧
    (s.power.step = .standby → exec .standbyGood s = .next
      { s.setF Reg.PPT_COOL.DUTY 100 with power := { s.power with step := .parapet, clkreqLow := true, thermtripN := true } }) ∧
    (∀ mv dom slot : Nat, (s.power.step ≠ .parapet → exec (.selfTestPass mv dom slot) s = .next s) ∧
      (s.power.step = .parapet → ∃ t, exec (.selfTestPass mv dom slot) s = .next t ∧ t.power.step = .wait ∧
        t.getF Reg.GEN_STRAP.PWRDOM = dom % 16 ∧ t.getF Reg.GEN_STRAP.SLOT = slot % 64 ∧ t.getF Reg.SVL_PSTAT.OWN_DOM = dom % 16 ∧
        t.getF Reg.PPT_CAL_STAT.VBAT_MV = mv % 4096 ∧ t.getF Reg.PPT_CAL_STAT.VLOW = bit (decide (mv < 2500)) ∧
        (t.getF Reg.FLT_LINES.LINES).testBit 42 = (decide (mv < 2500) || s.on Reg.PPT_CAL_STAT.INVALID)) ∧
      (s.power.step ≠ .off → ∃ t, exec (.vbatSample mv) s = .next t ∧ t.getF Reg.PPT_CAL_STAT.VBAT_MV = mv % 4096 ∧
        t.getF Reg.PPT_CAL_STAT.VLOW = bit (decide (mv < 2500)) ∧
        (t.getF Reg.FLT_LINES.LINES).testBit 42 = (decide (mv < 2500) || s.on Reg.PPT_CAL_STAT.INVALID) ∧ t.course.isSome = s.course.isSome)) ∧
    (∀ good : Bool, ((s.power.step = .standby ∨ s.power.step = .parapet ∨ s.power.step = .wait ∨ s.power.step = .retry) →
        exec (.refCheck good) s = .next { s with power := { s.power with refOk := good } }) ∧
      (s.power.step = .rails → exec (.refCheck good) s = .next { s with power := if good then { s.power with refOk := true }
        else { s.power with refOk := false, step := .wait, coreRails := false, hubRails := false } }) ∧
      ((s.power.step = .good ∨ s.power.step = .plls) → ∃ t, exec (.refCheck good) s = .next t ∧ t.power.refOk = good ∧ (t.getF Reg.FLT_LINES.LINES).testBit 47 = !good ∧
        (good = false → (s.getF Reg.FLT_LINES.LINES).testBit 47 = false → (s.getF Reg.FLT_FATAL.FATAL).testBit 47 = true →
          t.power.hubRails = false ∧ t.power.coreRails = false ∧ t.power.thermtripN = s.power.thermtripN ∧
          t.getF Reg.PPT_COOL.DUTY = 100 ∧ t.getF Reg.FLT_ALIVE.RUN = 0 ∧ t.working = none))) ∧
    (s.power.step ≠ .wait → s.power.step ≠ .rails → exec .railSequence s = .next s) ∧
    (s.power.step = .wait → (s.power.j1Ok = false ∨ s.power.refOk = false ∨ s.power.thermtripN = false ∨ 3 ≤ s.power.fails ∨
      s.belowTrips 1 = false) → exec .railSequence s = .next s) ∧
    (s.power.step = .wait → s.power.j1Ok = true → s.power.refOk = true → s.power.thermtripN = true → s.power.fails < 3 →
      s.belowTrips 1 = true → exec .railSequence s = .next
      { s with power := { s.power with step := .rails, coreRails := true, hubRails := true } }) ∧
    (s.power.step = .rails → exec .railSequence s = .next { s with power := { s.power with step := .plls } }) ∧
    (s.power.step ≠ .rails → exec .railFail s = .next s) ∧
    ((s.power.hubRails = false ∨ (s.power.step ≠ .rails ∧ s.power.step ≠ .plls)) → exec .powerGood s = .next s) ∧
    (s.power.step = .rails → ∃ t, exec .railFail s = .next t ∧ t.power.step = .retry ∧ t.power.coreRails = false ∧ t.power.hubRails = false ∧
        t.power.fails = s.power.fails + 1 ∧ t.getF Reg.GEN_RESET.RAILFAIL = min 31 (s.getF Reg.GEN_RESET.RAILFAIL + 1)) ∧
    ((s.power.step = .rails ∨ s.power.step = .plls) → s.power.hubRails = true →
      (s.power.modrstN = true → exec .powerGood s = .next
        { s.setF Reg.SEC_BOOT_STAT.STAGE 1 with timeBase := 0, power := { s.power with step := .good } }) ∧
      (s.power.modrstN = false → exec .powerGood s = .next { s with power := { s.power with step := .good } })) ∧
    (s.power.step ≠ .retry → exec .railRetry s = .next s) ∧
    (s.power.step = .retry → exec .railRetry s = .next { s with power := { s.power with step := .wait } }) ∧
    (∀ i : Instr, (i = .j1Overvoltage ∨ i = .j1Undervoltage) →
      ((s.power.step = .standby ∨ s.power.step = .parapet ∨ s.power.step = .wait ∨ s.power.step = .retry) →
        exec i s = .next { s with power := { s.power with j1Ok := false } }) ∧
      ((s.power.step = .rails ∨ s.power.step = .plls ∨ (s.power.step = .good ∧ s.power.modrstN = false)) →
        exec i s = .next { s with power := { s.power with j1Ok := false, step := .wait, coreRails := false, hubRails := false } }) ∧
      (s.power.step = .good → s.power.modrstN = true → ∃ t, exec i s = .next t ∧ (t.getF Reg.FLT_LINES.LINES).testBit 38 = true ∧
        ((s.getF Reg.FLT_LINES.LINES).testBit 38 = false → (s.getF Reg.FLT_FATAL.FATAL).testBit 38 = true →
          t.power.hubRails = false ∧ t.power.coreRails = false ∧ t.getF Reg.PPT_COOL.DUTY = 100 ∧ t.getF Reg.FLT_ALIVE.RUN = 0))) ∧
    (s.power.step ≠ .off → ∃ t, exec .hardwareTrip s = .next t ∧ t.power.thermtripN = false ∧ t.power.coreRails = false ∧
      t.power.hubRails = false ∧ t.power.step = (if s.rising then .wait else s.power.step) ∧ t.flash = s.flash ∧ t.regs = s.regs) ∧
    (s.power.step ≠ .off → ∃ t, exec .standbyLoss s = .next t ∧ t.power.step = .off ∧ t.power.coreRails = false ∧ t.power.hubRails = false ∧
      t.flash = s.flash ∧ t.calNs = s.calNs ∧ t.course = none ∧ t.hbm = [] ∧ t.pending = s.pending ∧
      ∀ f : Fld, (∀ g ∈ keptFields, f.key ≠ g.key) → t.getF f = f.reset) ∧
    ((s.power.step = .wait ∨ s.power.step = .retry ∨ s.power.step = .rails ∨ s.power.step = .plls ∨ s.power.step = .good) →
      ∃ t, exec .modrstAssert s = .next t ∧ t.power.step = .parapet ∧ t.power.modrstN = false ∧ t.power.coreRails = false ∧
        t.power.hubRails = false ∧ t.power.fails = 0 ∧ t.power.fatal = none ∧ t.power.thermtripN = s.power.thermtripN ∧
        t.power.tripReset = (!s.power.thermtripN) ∧ t.flash = s.flash ∧ t.calNs = s.calNs ∧ t.course = none ∧ t.hbm = [] ∧ t.pending = s.pending ∧
        t.getF Reg.GEN_RESET.CAUSE = 2 ∧ t.getF Reg.GEN_RESET.COUNT = min 0xFFFF (s.getF Reg.GEN_RESET.COUNT + 1) ∧
        t.getF Reg.GEN_RESET.RAILFAIL = s.getF Reg.GEN_RESET.RAILFAIL % 32 ∧
        (∀ f ∈ [Reg.PPT_CAL_STAT.VBAT_MV, Reg.PPT_CAL_STAT.VLOW, Reg.PPT_CAL_STAT.INVALID, Reg.PPT_CAL_STAT.SRC, Reg.SVL_FLASH.NEWEST,
          Reg.SVL_FLASH.IMAGES], t.getF f = s.getF f % 2 ^ f.w) ∧
        ∀ f : Fld, (∀ g ∈ keptFields, f.key ≠ g.key) → t.getF f = f.reset) ∧
    ((s.power.step = .off ∨ s.power.step = .standby) → exec .modrstAssert s = .next { s with power := { s.power with modrstN := false } }) ∧
    (s.power.step = .parapet → ∃ t, exec .modrstAssert s = .next t ∧ t.power = { s.power with modrstN := false } ∧
      (s.getF Reg.GEN_RESET.CAUSE = 3 → s.now ≤ s.power.resetAt + 100000 → t.getF Reg.GEN_RESET.CAUSE = 2)) ∧
    (s.power.modrstN = true → exec .modrstRelease s = .next s) ∧
    (s.power.modrstN = false → (s.power.step ≠ .good ∨ s.power.hubRails = false) →
      exec .modrstRelease s = .next { s with power := { s.power with modrstN := true } }) ∧
    (s.power.modrstN = false → s.power.step = .good → s.power.hubRails = true → exec .modrstRelease s = .next
      { s.setF Reg.SEC_BOOT_STAT.STAGE 1 with timeBase := 0, power := { s.power with modrstN := true } })
end

