-- ==== Sys2Proof/Laws/Memory.lean ====
section
/-! SUPPORT. The canonical form of sparse maps and memories, and that every operation on them keeps it. -/

namespace Sys2Proof.Machine

/-! ### The canonical form of a sparse map -/

theorem SMap.above_mono {α : Type} {k k' : Nat} (h : k' ≤ k) (m : SMap α) (a : SMap.above k m = true) : SMap.above k' m = true := by
  induction m with
  | nil => rfl
  | cons x t ih =>
    simp only [SMap.above, Bool.and_eq_true, decide_eq_true_eq] at a ⊢
    exact ⟨by omega, ih a.2⟩
theorem SMap.put_above {α : Type} [DecidableEq α] (d : α) {k j : Nat} (h : k < j) (v : α) (m : SMap α) (a : SMap.above k m = true) :
    SMap.above k (SMap.put d j v m) = true := by
  induction m with
  | nil => unfold SMap.put; split <;> simp [SMap.above, h]
  | cons x t ih =>
    simp only [SMap.above, Bool.and_eq_true, decide_eq_true_eq] at a
    unfold SMap.put
    split_ifs <;> simp [SMap.above, h, a.1, a.2, ih a.2]
theorem SMap.put_wf {α : Type} [DecidableEq α] (d : α) (k : Nat) (v : α) (m : SMap α) (w : SMap.wf d m = true) :
    SMap.wf d (SMap.put d k v m) = true := by
  induction m with
  | nil => unfold SMap.put; split <;> simp_all [SMap.wf, SMap.above]
  | cons x t ih =>
    have w' := w
    simp only [SMap.wf, Bool.and_eq_true, decide_eq_true_eq] at w'
    unfold SMap.put
    split_ifs with h1 h2 h3 h4
    · exact w
    · simp [SMap.wf, SMap.above, h2, w'.1.1, w'.1.2, w'.2, h1, SMap.above_mono (Nat.le_of_lt h1) t w'.1.2]
    · exact w'.2
    · simp [SMap.wf, h4, w'.2]
      exact h3 ▸ w'.1.2
    · simp [SMap.wf, w'.1.1, ih w'.2, SMap.put_above d (show x.1 < k by omega) v t w'.1.2]
theorem SMap.filter_above {α : Type} (p : Nat × α → Bool) (k : Nat) (m : SMap α) (a : SMap.above k m = true) :
    SMap.above k (m.filter p) = true := by
  induction m with
  | nil => rfl
  | cons x t ih =>
    simp only [SMap.above, Bool.and_eq_true, decide_eq_true_eq] at a
    rw [List.filter_cons]
    split <;> simp [SMap.above, a.1, ih a.2]
theorem SMap.filter_wf {α : Type} [DecidableEq α] (d : α) (p : Nat × α → Bool) (m : SMap α) (w : SMap.wf d m = true) :
    SMap.wf d (m.filter p) = true := by
  induction m with
  | nil => rfl
  | cons x t ih =>
    simp only [SMap.wf, Bool.and_eq_true, decide_eq_true_eq] at w
    rw [List.filter_cons]
    split <;> simp [SMap.wf, w.1.1, ih w.2, SMap.filter_above p x.1 t w.1.2]
theorem Memory.write_wf (m : Memory) (a : Nat) (bs : List Byte) (w : Memory.wf m = true) : Memory.wf (m.write a bs) = true := by
  induction bs generalizing m a with
  | nil => exact w
  | cons b t ih => exact ih _ _ (SMap.put_wf 0 a b m w)
theorem accPut_wf (m : SMap W32) (k : Nat) (vs : List W32) (w : SMap.wf 0 m = true) : SMap.wf 0 (accPut m k vs) = true := by
  induction vs generalizing m k with
  | nil => exact w
  | cons b t ih => exact ih _ _ (SMap.put_wf 0 k b m w)

theorem SMap.put_rising {α : Type} [DecidableEq α] (d : α) (k : Nat) (v : α) (m : SMap α) (w : SMap.rising m = true) :
    SMap.rising (SMap.put d k v m) = true := by
  induction m with
  | nil => unfold SMap.put; split <;> simp [SMap.rising, SMap.above]
  | cons x t ih =>
    have w' := w
    simp only [SMap.rising, Bool.and_eq_true] at w'
    unfold SMap.put
    split_ifs with h1 h2 h3 h4
    · exact w
    · simp [SMap.rising, SMap.above, w'.1, w'.2, h1, SMap.above_mono (Nat.le_of_lt h1) t w'.1]
    · exact w'.2
    · simp [SMap.rising, w'.2]
      exact h3 ▸ w'.1
    · simp [SMap.rising, ih w'.2, SMap.put_above d (show x.1 < k by omega) v t w'.1]
theorem SMap.filter_rising {α : Type} (p : Nat × α → Bool) (m : SMap α) (w : SMap.rising m = true) :
    SMap.rising (m.filter p) = true := by
  induction m with
  | nil => rfl
  | cons x t ih =>
    simp only [SMap.rising, Bool.and_eq_true] at w
    rw [List.filter_cons]
    split <;> simp [SMap.rising, ih w.2, SMap.filter_above p x.1 t w.1]

end Sys2Proof.Machine
end

