-- ==== Sys2Proof/Laws/Kept.lean ====
section
/-! SUPPORT. What every command keeps: the canonical form of the memories and of the register file, the queue of waiting commands
and the clock. `Kept q n s` says it of a state; one lemma per operation says that the operation keeps it. -/

namespace Sys2Proof.Machine

/-- The state is canonical, its queue is `q` and its clock stands at `n`. -/
structure Kept (q : List Instr) (n : Nat) (s : State) : Prop where
  canon : s.Canon
  queue : s.pending = q
  clock : s.now = n

/-- An update of other fields. -/
theorem Kept.keep {q : List Instr} {n : Nat} {t : State} (h : Kept q n t)
{f2 f3 f5 f6 f7 f8 f9 f10 f11 f12 f13 f14 f15 f16 f17 f18 f19 f20 f21 f22 f23 f24 f25 f26 f27 f28 f29 f30 f31 f32 f33 f34 f35 f36 f38 f40
      f43 f44 f45 f46 f47 f48 f49 f50 f51 f52 f53 f54 f55 f56 f57 f58 f59 f60 f61 f62 f63 f64 f65 f66 f67 f68 f69 f70 f71 f72 f73 f74 f75
      f76 f77 f78 f79 f80 f81 f82 f83 f84 f85 f86 f87 f88 f89 f90 f91 f92 f93 f94 f95 f96 f97 f98 f99 f100 f101 f102 f103 f104 f105} :
Kept q n ⟨t.pending, t.now, f2, f3, t.regs, f5, f6, f7, f8, f9, f10, f11, f12, f13, f14, f15, f16, f17, f18, f19, f20, f21, f22, f23, f24,
      f25, f26, f27, f28, f29, f30, f31, f32, f33, f34, f35, f36, t.rstore, f38, t.loft, f40, t.acc, t.hbm, f43, f44, f45, f46, f47, f48,
      f49, f50, f51, f52, f53, f54, f55, f56, f57, f58, f59, f60, f61, f62, f63, f64, f65, f66, f67, f68, f69, f70, f71, f72, f73, f74, f75,
      f76, f77, f78, f79, f80, f81, f82, f83, f84, f85, f86, f87, f88, f89, f90, f91, f92, f93, f94, f95, f96, f97, f98, f99, f100, f101,
      f102, f103, f104, f105⟩ :=
  ⟨⟨h.canon.hbm, h.canon.loft, h.canon.rstore, h.canon.acc, h.canon.regs⟩, h.queue, h.clock⟩

/-- An update of any fields. -/
theorem Kept.upd {q : List Instr} {n : Nat}
{f0 f1 f2 f3 f4 f5 f6 f7 f8 f9 f10 f11 f12 f13 f14 f15 f16 f17 f18 f19 f20 f21 f22 f23 f24 f25 f26 f27 f28 f29 f30 f31 f32 f33 f34 f35 f36
      f37 f38 f39 f40 f41 f42 f43 f44 f45 f46 f47 f48 f49 f50 f51 f52 f53 f54 f55 f56 f57 f58 f59 f60 f61 f62 f63 f64 f65 f66 f67 f68 f69
      f70 f71 f72 f73 f74 f75 f76 f77 f78 f79 f80 f81 f82 f83 f84 f85 f86 f87 f88 f89 f90 f91 f92 f93 f94 f95 f96 f97 f98 f99 f100 f101 f102
      f103 f104 f105}
    (b : Memory.wf f42 = true) (l : Memory.wf f39 = true) (r : Memory.wf f37 = true)
    (a : SMap.wf (0 : W32) f41 = true) (g : SMap.rising f4 = true) (e : f0 = q) (c : f1 = n) :
Kept q n ⟨f0, f1, f2, f3, f4, f5, f6, f7, f8, f9, f10, f11, f12, f13, f14, f15, f16, f17, f18, f19, f20, f21, f22, f23, f24, f25, f26, f27,
      f28, f29, f30, f31, f32, f33, f34, f35, f36, f37, f38, f39, f40, f41, f42, f43, f44, f45, f46, f47, f48, f49, f50, f51, f52, f53, f54,
      f55, f56, f57, f58, f59, f60, f61, f62, f63, f64, f65, f66, f67, f68, f69, f70, f71, f72, f73, f74, f75, f76, f77, f78, f79, f80, f81,
      f82, f83, f84, f85, f86, f87, f88, f89, f90, f91, f92, f93, f94, f95, f96, f97, f98, f99, f100, f101, f102, f103, f104, f105⟩ :=
  ⟨⟨b, l, r, a, g⟩, e, c⟩

/-! ### The other answers of an operation: the state one leaves, where it leaves one -/

def Eff.left : Eff → Option State
  | .done s | .posted s | .began s | .fail s _ => some s
  | .hold | .bad _ => none
def ThEff.left : ThEff → Option State
  | .go s _ _ _ => some s
  | .leave | .bad _ => none
def KvAns.left : KvAns → Option State
  | .result _ s => some s
  | .wait => none
def KvBlock.left : KvBlock → Option State
  | .ready s _ => some s
  | .wait | .fail _ => none

def OutOk (q : List Instr) (n : Nat) (o : Out) : Prop := ∀ t, o = .next t → Kept q n t
def OptOk (q : List Instr) (n : Nat) (o : Option State) : Prop := ∀ t, o = some t → Kept q n t
abbrev EffOk (q : List Instr) (n : Nat) (e : Eff) : Prop := OptOk q n e.left
abbrev ThOk (q : List Instr) (n : Nat) (e : ThEff) : Prop := OptOk q n e.left
abbrev AnsOk (q : List Instr) (n : Nat) (a : KvAns) : Prop := OptOk q n a.left
abbrev BlkOk (q : List Instr) (n : Nat) (b : KvBlock) : Prop := OptOk q n b.left

section
variable {q : List Instr} {n : Nat} {t : State}

theorem OptOk.some (h : Kept q n t) : OptOk q n (some t) := fun u e => by cases e; exact h
theorem OptOk.none : OptOk q n none := fun u e => by cases e
theorem OptOk.use {o : Option State} (h : OptOk q n o) (e : o = .some t) : Kept q n t := h t e
theorem OptOk.or {a b : Option State} (h : OptOk q n a) (k : OptOk q n b) : OptOk q n (a.or b) := by
  cases a with
  | none => simpa using k
  | some s => simpa using h
theorem OutOk.next (h : Kept q n t) : OutOk q n (.next t) := fun u e => by cases e; exact h
theorem kvCan_ok {s : State} {c : KvConf} {m : Nat} {b : KvBlock} (e : s.kvCan c m = some b) : BlkOk q n b := by
  unfold State.kvCan at e
  split_ifs at e <;> cases e <;> exact OptOk.none
/-- A pair's state, by the equation a match leaves. -/
theorem snd_use {α : Type} {p : α × State} {a : α} (h : Kept q n p.2) (e : p = (a, t)) : Kept q n t :=
  (show p.2 = t from congrArg Prod.snd e) ▸ h
theorem fst_use {α : Type} {p : State × α} {a : α} (h : Kept q n p.1) (e : p = (t, a)) : Kept q n t :=
  (show p.1 = t from congrArg Prod.fst e) ▸ h
theorem snd2_use {α β : Type} {p : α × β × State} {a : α} {b : β} (h : Kept q n p.2.2) (e : p = (a, b, t)) : Kept q n t :=
  (show p.2.2 = t from congrArg (·.2.2) e) ▸ h

theorem State.each_kept {α : Type} (s : State) (xs : List α) (f : State → α → State) (h : Kept q n s)
    (hf : ∀ s x, Kept q n s → Kept q n (f s x)) : Kept q n (s.each xs f) := by
  unfold State.each
  induction xs generalizing s with
  | nil => exact h
  | cons x t ih => exact ih _ (hf s x h)
theorem foldl_kept {α : Type} (f : State → α → State) (s : State) (xs : List α) (h : Kept q n s)
    (hf : ∀ s x, Kept q n s → Kept q n (f s x)) : Kept q n (xs.foldl f s) := State.each_kept s xs f h hf
theorem foldl_snd_kept {α β : Type} (f : β × State → α → β × State) (p : β × State) (xs : List α) (h : Kept q n p.2)
    (hf : ∀ p x, Kept q n p.2 → Kept q n (f p x).2) : Kept q n (xs.foldl f p).2 := by
  induction xs generalizing p with
  | nil => exact h
  | cons x t ih => exact ih _ (hf p x h)
theorem foldl_fst_kept {α β : Type} (f : State × β → α → State × β) (p : State × β) (xs : List α) (h : Kept q n p.1)
    (hf : ∀ p x, Kept q n p.1 → Kept q n (f p x).1) : Kept q n (xs.foldl f p).1 := by
  induction xs generalizing p with
  | nil => exact h
  | cons x t ih => exact ih _ (hf p x h)
theorem ite_kept {c : Prop} [Decidable c] {a b : State} (h1 : Kept q n a) (h2 : Kept q n b) : Kept q n (if c then a else b) := by
  split <;> assumption

end

end Sys2Proof.Machine
end

