-- ==== Sys2Proof/Laws/KeptHub.lean ====
section
/-! SUPPORT. That every operation keeps what `Kept` says: the registers, HBM, power, boot, management and the host. -/

namespace Sys2Proof.Machine

variable {Q : List Instr} {T : Nat}

theorem State.setF_kept (s : State) (f : Fld) (v : ℕ) (hs : Kept Q T s) : Kept Q T (State.setF s f v) := by
  unfold State.setF
  refine Kept.upd ?_ ?_ ?_ ?_ ?_ ?_ ?_
  · exact (Kept.canon hs).hbm
  · exact (Kept.canon hs).loft
  · exact (Kept.canon hs).rstore
  · exact (Kept.canon hs).acc
  · refine SMap.put_rising _ _ _ _ ?_
    exact (Kept.canon hs).regs
  · exact Kept.queue hs
  · exact Kept.clock hs
theorem State.bump_kept (s : State) (f : Fld) (n : ℕ) (hs : Kept Q T s) : Kept Q T (State.bump s f n) := by
  unfold State.bump
  exact (State.setF_kept _ _ _ hs)
theorem State.setBit_kept (s : State) (f : Fld) (b : ℕ) (hs : Kept Q T s) : Kept Q T (State.setBit s f b) := by
  unfold State.setBit
  exact (State.setF_kept _ _ _ hs)
theorem State.setRing_kept (s : State) (r : ℕ) (a2 : Ring) (hs : Kept Q T s) : Kept Q T (State.setRing s r a2) := by
  unfold State.setRing
  exact (Kept.keep hs)
theorem State.setFs_kept (s : State) (fs : List (Fld × Nat)) (hs : Kept Q T s) : Kept Q T (s.setFs fs) := by
  induction fs generalizing s with
  | nil => exact hs
  | cons x t ih => exact ih _ (State.setF_kept _ _ _ hs)
theorem State.setPort_kept (s : State) (p : ℕ) (a2 : Port) (hs : Kept Q T s) : Kept Q T (State.setPort s p a2) := by
  unfold State.setPort
  exact (Kept.keep hs)
theorem State.nextFree_kept (s : State) (hs : Kept Q T s) : Kept Q T (State.nextFree s) := by
  unfold State.nextFree
  exact (Kept.keep hs)
theorem State.setTarget_kept (s : State) (t1 : ℕ) (a2 : Target) (hs : Kept Q T s) : Kept Q T (State.setTarget s t1 a2) := by
  unfold State.setTarget
  exact (Kept.keep hs)
theorem State.clrBit_kept (s : State) (f : Fld) (b : ℕ) (hs : Kept Q T s) : Kept Q T (State.clrBit s f b) := by
  unfold State.clrBit
  exact (ite_kept (State.setF_kept _ _ _ hs) hs)
theorem State.setGutter_kept (s : State) (i : ℕ) (a2 : Gutter) (hs : Kept Q T s) : Kept Q T (State.setGutter s i a2) := by
  unfold State.setGutter
  exact (Kept.keep hs)
theorem State.setRaft_kept (s : State) (l : ℕ) (a2 : Raft) (hs : Kept Q T s) : Kept Q T (State.setRaft s l a2) := by
  unfold State.setRaft
  exact (Kept.keep hs)
theorem State.writeField_kept (s : State) (v : ℕ) (af : Acc × Fld) (hs : Kept Q T s) : Kept Q T (State.writeField s v af) := by
  unfold State.writeField
  extract_lets +onlyGivenNames x0
  split
  · rename_i y1 y2
    exact (State.setF_kept _ _ _ hs)
  · rename_i y3 y4
    exact (State.setF_kept _ _ _ hs)
  · rename_i y5 y6
    exact hs
  · rename_i y7 y8
    exact hs
  · rename_i y9 y10
    exact hs
  · rename_i y11 y12
    exact hs
theorem State.writeFields_kept (s : State) (v : ℕ) (fs : List (Acc × Fld)) (hs : Kept Q T s) : Kept Q T (State.writeFields s v fs) := by
  unfold State.writeFields
  exact (foldl_kept _ _ _ hs (fun _ _ k9_2 => (State.writeField_kept _ _ _ k9_2)))
theorem State.msi_kept (s : State) (v : ℕ) (hs : Kept Q T s) : Kept Q T (State.msi s v) := by
  unfold State.msi
  exact (Kept.keep hs)
theorem State.sendCxl_kept (s : State) (kind : CxlKind) (a : ℕ) (n : ℕ) (hs : Kept Q T s) : Kept Q T (State.sendCxl s kind a n) := by
  unfold State.sendCxl
  exact (ite_kept hs (Kept.keep hs))
theorem State.signalRing_kept (s : State) (r : ℕ) (hs : Kept Q T s) : Kept Q T (State.signalRing s r) := by
  unfold State.signalRing
  exact (State.msi_kept _ _ (State.setRing_kept _ _ _ hs))
theorem State.coalesce_kept (s : State) (r : ℕ) (hs : Kept Q T s) : Kept Q T (State.coalesce s r) := by
  unfold State.coalesce
  exact (ite_kept (State.signalRing_kept _ _ hs) hs)
theorem State.writeRec_kept (s : State) (c : CRec) (hs : Kept Q T s) : Kept Q T (State.writeRec s c) := by
  unfold State.writeRec
  extract_lets +onlyGivenNames x0
  extract_lets +onlyGivenNames x1
  extract_lets +onlyGivenNames x2
  extract_lets +onlyGivenNames x3
  extract_lets +onlyGivenNames x4
  extract_lets +onlyGivenNames x5
  have hx5 : Kept Q T x5 := (State.sendCxl_kept _ _ _ _ (Kept.keep hs))
  clear_value x5
  extract_lets +onlyGivenNames x6
  have hx6 : Kept Q T x6 := (State.setF_kept _ _ _ hx5)
  clear_value x6
  extract_lets +onlyGivenNames x7
  have hx7 : Kept Q T x7 := (State.setRing_kept _ _ _ hx6)
  clear_value x7
  exact (State.coalesce_kept _ _ hx7)
theorem State.killCq_kept (s : State) (r : ℕ) (hs : Kept Q T s) : Kept Q T (State.killCq s r) := by
  unfold State.killCq
  exact (State.setRing_kept _ _ _ (State.setFs_kept _ _ hs))
theorem State.post_kept (s : State) (c : CRec) (hs : Kept Q T s) : Kept Q T (State.post s c) := by
  unfold State.post
  exact (ite_kept (State.bump_kept _ _ _ hs) (ite_kept (ite_kept (Kept.keep hs) (State.bump_kept _ _ _ hs)) (ite_kept (State.writeRec_kept _ _ hs) (State.killCq_kept _ _ hs))))
theorem State.flushEnd_kept (s : State) (r : ℕ) (hs : Kept Q T s) : Kept Q T (State.flushEnd s r) := by
  unfold State.flushEnd
  extract_lets +onlyGivenNames x0
  split
  · rename_i y1 y2 y3
    exact (ite_kept (State.post_kept _ _ (State.setRing_kept _ _ _ hs)) hs)
  · rename_i y4 y5
    exact hs
theorem State.flushRecs_kept (s : State) (r : Nat) (qs : List Req) (hs : Kept Q T s) : Kept Q T (s.flushRecs r qs) := by
  induction qs generalizing s with
  | nil => exact hs
  | cons x t ih =>
    unfold State.flushRecs
    split
    · exact hs
    · exact ih _ (State.post_kept _ _ (State.setRing_kept _ _ _ hs))
theorem State.complete_kept (s : State) (q : Req) (status : ℕ) (detail : ℕ) (hs : Kept Q T s) : Kept Q T (State.complete s q status detail)
    := by
  unfold State.complete
  extract_lets +onlyGivenNames x0
  exact (ite_kept (State.flushEnd_kept _ _ (State.flushRecs_kept _ _ _ (State.setRing_kept _ _ _ hs))) hs)
theorem State.endRing_kept (s : State) (r : ℕ) (code : ℕ) (seq : ℕ) (hs : Kept Q T s) : Kept Q T (State.endRing s r code seq) := by
  unfold State.endRing
  extract_lets +onlyGivenNames x0
  have hx0 : Kept Q T x0 := (State.setFs_kept _ _ hs)
  clear_value x0
  refine ite_kept ?_ ?_
  · exact hx0
  · extract_lets +onlyGivenNames x1
    extract_lets +onlyGivenNames x2
    have hx2 : Kept Q T x2 := (State.nextFree_kept _ hx0)
    clear_value x2
    exact (ite_kept (State.post_kept _ _ hx2) (State.flushEnd_kept _ _ (State.setRing_kept _ _ _ hx2)))
theorem State.markStarted_kept (s : State) (q : Req) (hs : Kept Q T s) : Kept Q T (State.markStarted s q) := by
  unfold State.markStarted
  extract_lets +onlyGivenNames x0
  exact (State.setRing_kept _ _ _ hs)
theorem State.viaHost_kept (s : State) (a : ℕ) (n : ℕ) (store : Bool) (hs : Kept Q T s) : Kept Q T (State.viaHost s a n store) := by
  unfold State.viaHost
  refine ite_kept ?_ ?_
  · exact hs
  · extract_lets +onlyGivenNames x0
    exact (ite_kept (ite_kept (Kept.keep hs) hs) (ite_kept (Kept.keep hs) hs))
theorem State.storeSector_kept (s : State) (sec : ℕ) (hs : Kept Q T s) : Kept Q T (State.storeSector s sec) := by
  unfold State.storeSector
  extract_lets +onlyGivenNames x0
  extract_lets +onlyGivenNames x1
  refine ite_kept ?_ ?_
  · extract_lets +onlyGivenNames x2
    extract_lets +onlyGivenNames x3
    have hx3 : Kept Q T x3 := (State.setF_kept _ _ _ hs)
    clear_value x3
    exact (Kept.keep hx3)
  · exact (Kept.keep hs)
theorem State.writeHbm_kept (s : State) (a : ℕ) (all : List Byte) (hs : Kept Q T s) : Kept Q T (State.writeHbm s a all) := by
  unfold State.writeHbm
  extract_lets +onlyGivenNames x0
  extract_lets +onlyGivenNames x1
  have hx1 : Kept Q T x1 := (State.each_kept _ _ _ (State.viaHost_kept _ _ _ _ hs) (fun _ _ k11_2 => (State.storeSector_kept _ _ k11_2)))
  clear_value x1
  refine Kept.upd ?_ ?_ ?_ ?_ ?_ ?_ ?_
  · refine Memory.write_wf _ _ _ ?_
    exact (Kept.canon hx1).hbm
  · exact (Kept.canon hx1).loft
  · exact (Kept.canon hx1).rstore
  · exact (Kept.canon hx1).acc
  · exact (Kept.canon hx1).regs
  · exact Kept.queue hx1
  · exact Kept.clock hx1
theorem State.retrainNext_kept (s : State) (i : ℕ) (hs : Kept Q T s) : Kept Q T (State.retrainNext s i) := by
  unfold State.retrainNext
  extract_lets +onlyGivenNames x0
  extract_lets +onlyGivenNames x1
  have hx1 : Kept Q T x1 := (ite_kept (State.setF_kept _ _ _ hs) hs)
  clear_value x1
  exact (Kept.keep hx1)
theorem State.targetFails_kept (s : State) (sec : ℕ) (hs : Kept Q T s) : Kept Q T (State.targetFails s sec) := by
  unfold State.targetFails
  exact (ite_kept (State.retrainNext_kept _ _ hs) hs)
theorem State.readSector_kept (s : State) (sec : ℕ) (hs : Kept Q T s) : Kept Q T (State.readSector s sec) := by
  unfold State.readSector
  extract_lets +onlyGivenNames x0
  extract_lets +onlyGivenNames x1
  extract_lets +onlyGivenNames x2
  split
  · rename_i y3 y4
    exact hs
  · rename_i y5 y6
    extract_lets +onlyGivenNames x7
    have hx7 : Kept Q T x7 := (State.bump_kept _ _ _ hs)
    clear_value x7
    exact (Kept.keep hx7)
  · rename_i y8 y9
    exact (State.targetFails_kept _ _ (State.bump_kept _ _ _ hs))
theorem State.readRaw_kept (s : State) (a : ℕ) (n : ℕ) (hs : Kept Q T s) : Kept Q T (State.readRaw s a n).2.2 := by
  unfold State.readRaw
  dsimp only
  exact (State.each_kept _ _ _ hs (fun _ _ k9_2 => (State.readSector_kept _ _ k9_2)))
theorem State.readQuiet_kept (s : State) (a : ℕ) (n : ℕ) (hs : Kept Q T s) : Kept Q T (State.readQuiet s a n).2.2 := by
  unfold State.readQuiet
  exact (State.readRaw_kept _ _ _ (State.viaHost_kept _ _ _ _ hs))
theorem State.mergeHbm_kept (s : State) (a : ℕ) (bs : List Byte) (hs : Kept Q T s) : Kept Q T (State.mergeHbm s a bs) := by
  unfold State.mergeHbm
  extract_lets +onlyGivenNames x0
  extract_lets +onlyGivenNames x1
  extract_lets +onlyGivenNames x2
  have hx2 : Kept Q T x2 := (State.each_kept _ _ _ hs (fun _ _ k12_2 => (State.readSector_kept _ _ k12_2)))
  clear_value x2
  extract_lets +onlyGivenNames x3
  have hx3 : Kept Q T x3 := (State.each_kept _ _ _ hx2 (fun _ _ k14_2 => (State.storeSector_kept _ _ k14_2)))
  clear_value x3
  refine Kept.upd ?_ ?_ ?_ ?_ ?_ ?_ ?_
  · refine Memory.write_wf _ _ _ ?_
    exact (Kept.canon hx3).hbm
  · exact (Kept.canon hx3).loft
  · exact (Kept.canon hx3).rstore
  · exact (Kept.canon hx3).acc
  · exact (Kept.canon hx3).regs
  · exact Kept.queue hx3
  · exact Kept.clock hx3
theorem State.amendRecord_kept (s : State) (q : Req) (code : ℕ) (hs : Kept Q T s) : Kept Q T (State.amendRecord s q code) := by
  unfold State.amendRecord
  extract_lets +onlyGivenNames x0
  extract_lets +onlyGivenNames x1
  extract_lets +onlyGivenNames x2
  extract_lets +onlyGivenNames x3
  have hx3 : Kept Q T x3 := (State.setRing_kept _ _ _ hs)
  clear_value x3
  exact (Kept.keep hx3)
theorem State.amendStatus_kept (s : State) (c : Course) (code : ℕ) (hs : Kept Q T s) : Kept Q T (State.amendStatus s c code) := by
  unfold State.amendStatus
  exact (State.amendRecord_kept _ _ _ (State.writeHbm_kept _ _ _ (State.setF_kept _ _ _ hs)))
theorem State.withdrawProg_kept (s : State) (t1 : Fall) (hs : Kept Q T s) : Kept Q T (State.withdrawProg s t1) := by
  unfold State.withdrawProg
  extract_lets +onlyGivenNames x0
  exact (ite_kept (State.setFs_kept _ _ hs) hs)
theorem State.useInject_kept (s : State) (hs : Kept Q T s) : Kept Q T (State.useInject s) := by
  unfold State.useInject
  extract_lets +onlyGivenNames x0
  have hx0 : Kept Q T x0 := (State.bump_kept _ _ _ (State.setF_kept _ _ _ hs))
  clear_value x0
  exact (Kept.keep hx0)
theorem State.putFlit_kept (s : State) (p : ℕ) (q : FlitReq) (hs : Kept Q T s) : Kept Q T (State.putFlit s p q) := by
  unfold State.putFlit
  extract_lets +onlyGivenNames x0
  extract_lets +onlyGivenNames x1
  extract_lets +onlyGivenNames x2
  extract_lets +onlyGivenNames x3
  have hx3 : Kept Q T x3 := (ite_kept (State.useInject_kept _ hs) hs)
  clear_value x3
  extract_lets +onlyGivenNames x4
  have hx4 : Kept Q T x4 := (State.setPort_kept _ _ _ hx3)
  clear_value x4
  exact (Kept.keep hx4)
theorem State.sendFlitN_kept (s : State) (nak : Bool) (p : ℕ) (ftype : ℕ) (payload : List Byte) (hs : Kept Q T s) : Kept Q T
    (State.sendFlitN s nak p ftype payload) := by
  unfold State.sendFlitN
  extract_lets +onlyGivenNames x0
  exact (ite_kept (State.putFlit_kept _ _ _ hs) (State.setPort_kept _ _ _ hs))
theorem State.sendFlit_kept (s : State) (p : ℕ) (ftype : ℕ) (payload : List Byte) (hs : Kept Q T s) : Kept Q T (State.sendFlit s p ftype
    payload) := by
  unfold State.sendFlit
  exact (State.sendFlitN_kept _ _ _ _ _ hs)
theorem State.sendFail_kept (s : State) (counter : ℕ) (hs : Kept Q T s) : Kept Q T (State.sendFail s counter) := by
  unfold State.sendFail
  exact (State.each_kept _ _ _ hs (fun _ _ k8_2 => (State.sendFlit_kept _ _ _ _ k8_2)))
theorem State.setLast_kept (s : State) (status : ℕ) (counter : ℕ) (committed : Bool) (suppressed : Bool) (hs : Kept Q T s) : Kept Q T
    (State.setLast s status counter committed suppressed) := by
  unfold State.setLast
  exact (State.setFs_kept _ _ hs)
theorem State.setSeed_kept (s : State) (v : ℕ) (hs : Kept Q T s) : Kept Q T (State.setSeed s v) := by
  unfold State.setSeed
  exact (State.each_kept _ _ _ hs (fun _ _ k8_2 => (State.setF_kept _ _ _ k8_2)))
theorem State.kvReport_kept (s : State) (hs : Kept Q T s) : Kept Q T (State.kvReport s) := by
  unfold State.kvReport
  extract_lets +onlyGivenNames x0
  extract_lets +onlyGivenNames x1
  exact (State.setFs_kept _ _ hs)
theorem State.kvRollback_kept (s : State) (hs : Kept Q T s) : Kept Q T (State.kvRollback s) := by
  unfold State.kvRollback
  extract_lets +onlyGivenNames x0
  have hx0 : Kept Q T x0 := (State.each_kept _ _ _ hs (fun _ _ k8_2 => (State.writeHbm_kept _ _ _ k8_2)))
  clear_value x0
  extract_lets +onlyGivenNames x1
  have hx1 : Kept Q T x1 := (ite_kept hx0 (State.setF_kept _ _ _ hx0))
  clear_value x1
  exact (State.kvReport_kept _ (Kept.keep hx1))
theorem State.finish_kept (s : State) (q : Req) (status : ℕ) (hs : Kept Q T s) : Kept Q T (State.finish s q status) := by
  unfold State.finish
  exact (State.nextFree_kept _ (State.complete_kept _ _ _ _ hs))
theorem State.withdraw_kept (s : State) (hs : Kept Q T s) : Kept Q T (State.withdraw s) := by
  unfold State.withdraw
  exact (ite_kept hs (State.each_kept _ _ _ (Kept.keep hs) (fun _ _ k7_2 => (State.finish_kept _ _ _ k7_2))))
theorem State.hold_kept (s : State) (hs : Kept Q T s) : Kept Q T (State.hold s) := by
  unfold State.hold
  exact (State.withdraw_kept _ (State.setF_kept _ _ _ hs))
theorem State.failCourse_kept (s : State) (code : ℕ) (hs : Kept Q T s) : Kept Q T (State.failCourse s code) := by
  unfold State.failCourse
  split
  · rename_i y0 y1
    exact hs
  · rename_i y2 y3 y4
    refine ite_kept ?_ ?_
    · exact hs
    · extract_lets +onlyGivenNames x5
      have hx5 : Kept Q T x5 := (State.writeHbm_kept _ _ _ hs)
      clear_value x5
      extract_lets +onlyGivenNames x6
      have hx6 : Kept Q T x6 := (State.sendFail_kept _ _ hx5)
      clear_value x6
      extract_lets +onlyGivenNames x7
      have hx7 : Kept Q T x7 := (Kept.keep hx6)
      clear_value x7
      extract_lets +onlyGivenNames x8
      have hx8 : Kept Q T x8 := (State.setLast_kept _ _ _ _ _ (State.setF_kept _ _ _ hx7))
      clear_value x8
      extract_lets +onlyGivenNames x9
      have hx9 : Kept Q T x9 := (State.setSeed_kept _ _ hx8)
      clear_value x9
      extract_lets +onlyGivenNames x10
      have hx10 : Kept Q T x10 := (State.complete_kept _ _ _ _ hx9)
      clear_value x10
      exact (State.kvRollback_kept _ (State.hold_kept _ hx10))
theorem State.failByFault_kept (s : State) (code : ℕ) (hs : Kept Q T s) : Kept Q T (State.failByFault s code) := by
  unfold State.failByFault
  split
  · rename_i y0 y1 y2 y3 y4 y5
    extract_lets +onlyGivenNames x6
    have hx6 : Kept Q T x6 := (State.amendStatus_kept _ _ _ (State.withdrawProg_kept _ _ hs))
    clear_value x6
    exact (Kept.keep hx6)
  · rename_i y7 y8 y9
    exact (State.failCourse_kept _ _ hs)
theorem State.drainFlits_kept (s : State) (p : Nat) (qs : List FlitReq) (hs : Kept Q T s) : Kept Q T (s.drainFlits p qs) := by
  induction qs generalizing s with
  | nil => exact hs
  | cons q t ih =>
    unfold State.drainFlits
    split
    · exact ih _ (State.putFlit_kept _ _ _ (State.setPort_kept _ _ _ hs))
    · exact hs
theorem State.platformEvent_kept (s : State) (b : ℕ) (hs : Kept Q T s) : Kept Q T (State.platformEvent s b) := by
  unfold State.platformEvent
  exact (ite_kept (Kept.keep hs) hs)
theorem State.openMerge_kept (s : State) (hs : Kept Q T s) : Kept Q T (State.openMerge s) := by
  unfold State.openMerge
  exact (ite_kept (Kept.keep hs) hs)
theorem State.faultIrq_kept (s : State) (b : ℕ) (hs : Kept Q T s) : Kept Q T (State.faultIrq s b) := by
  unfold State.faultIrq
  refine ite_kept ?_ ?_
  · extract_lets +onlyGivenNames x0
    have hx0 : Kept Q T x0 := (State.msi_kept _ _ hs)
    clear_value x0
    exact (Kept.keep hx0)
  · exact hs
theorem State.latchFault_kept (s : State) (b : ℕ) (hs : Kept Q T s) : Kept Q T (State.latchFault s b) := by
  unfold State.latchFault
  exact (ite_kept hs (State.platformEvent_kept _ _ (State.openMerge_kept _ (State.faultIrq_kept _ _ (State.setBit_kept _ _ _ hs)))))
theorem State.faultCourse_kept (s : State) (b : ℕ) (fatal : Bool) (hs : Kept Q T s) : Kept Q T (State.faultCourse s b fatal) := by
  unfold State.faultCourse
  split
  · rename_i y0 y1
    exact hs
  · rename_i y2 y3 y4
    split
    · rename_i y5 y6
      exact hs
    · rename_i y7 y8 y9
      exact (State.failByFault_kept _ _ hs)
theorem State.stopAlive_kept (s : State) (hs : Kept Q T s) : Kept Q T (State.stopAlive s) := by
  unfold State.stopAlive
  exact (State.setF_kept _ _ _ hs)
theorem State.fatalReaction_kept (s : State) (b : ℕ) (hs : Kept Q T s) : Kept Q T (State.fatalReaction s b) := by
  unfold State.fatalReaction
  extract_lets +onlyGivenNames x0
  have hx0 : Kept Q T x0 := (State.stopAlive_kept _ hs)
  clear_value x0
  extract_lets +onlyGivenNames x1
  extract_lets +onlyGivenNames x2
  have hx2 : Kept Q T x2 := (Kept.keep hx0)
  clear_value x2
  refine ite_kept ?_ ?_
  · extract_lets +onlyGivenNames x3
    have hx3 : Kept Q T x3 := (State.setF_kept _ _ _ hx2)
    clear_value x3
    exact (Kept.keep hx3)
  · refine ite_kept ?_ ?_
    · extract_lets +onlyGivenNames x4
      have hx4 : Kept Q T x4 := (State.setF_kept _ _ _ hx2)
      clear_value x4
      exact (Kept.keep hx4)
    · exact (State.setF_kept _ _ _ hx2)
theorem State.rise_kept (s : State) (b : ℕ) (hold : Bool) (hs : Kept Q T s) : Kept Q T (State.rise s b hold) := by
  unfold State.rise
  extract_lets +onlyGivenNames x0
  extract_lets +onlyGivenNames x1
  extract_lets +onlyGivenNames x2
  have hx2 : Kept Q T x2 := (ite_kept (State.setBit_kept _ _ _ hs) hs)
  clear_value x2
  extract_lets +onlyGivenNames x3
  have hx3 : Kept Q T x3 := (ite_kept (State.setBit_kept _ _ _ (State.bump_kept _ _ _ hx2)) (State.latchFault_kept _ _ hx2))
  clear_value x3
  extract_lets +onlyGivenNames x4
  have hx4 : Kept Q T x4 := (State.faultCourse_kept _ _ _ hx3)
  clear_value x4
  exact (ite_kept (State.fatalReaction_kept _ _ hx4) hx4)
theorem State.raiseLine_kept (s : State) (b : ℕ) (hs : Kept Q T s) : Kept Q T (State.raiseLine s b) := by
  unfold State.raiseLine
  exact (State.rise_kept _ _ _ hs)
theorem State.readHbm_kept (s : State) (a : ℕ) (n : ℕ) (hs : Kept Q T s) : Kept Q T (State.readHbm s a n).2 := by
  unfold State.readHbm
  extract_lets +onlyGivenNames x0
  dsimp only
  refine State.each_kept _ _ _ ?_ ?_
  · unfold x0
    exact (State.readQuiet_kept _ _ _ hs)
  · intro v1 v2 h3
    exact (State.raiseLine_kept _ _ h3)
theorem State.dropLine_kept (s : State) (b : ℕ) (hs : Kept Q T s) : Kept Q T (State.dropLine s b) := by
  unfold State.dropLine
  exact (State.clrBit_kept _ _ _ hs)
theorem State.holdLine_kept (s : State) (b : ℕ) (hs : Kept Q T s) : Kept Q T (State.holdLine s b) := by
  unfold State.holdLine
  exact (ite_kept hs (State.rise_kept _ _ _ hs))
theorem State.afterReset_kept (s : State) (hs : Kept Q T s) : Kept Q T s.afterReset := by
  unfold State.afterReset
  refine State.each_kept _ _ _ ?_ ?_
  · exact Kept.upd rfl rfl rfl rfl rfl hs.queue hs.clock
  · exact fun _ _ h => State.setF_kept _ _ _ h
theorem State.backToWait_kept (s : State) (hs : Kept Q T s) : Kept Q T (State.backToWait s) := by
  unfold State.backToWait
  exact (Kept.keep hs)
theorem State.moduleReset_kept (s : State) (cause : ℕ) (hs : Kept Q T s) : Kept Q T (State.moduleReset s cause) := by
  unfold State.moduleReset
  extract_lets +onlyGivenNames x0
  have hx0 : Kept Q T x0 := (State.afterReset_kept _ hs)
  clear_value x0
  extract_lets +onlyGivenNames x1
  have hx1 : Kept Q T x1 := (State.setFs_kept _ _ hx0)
  clear_value x1
  exact (Kept.keep hx1)
theorem onStandby_kept (f : State → State) (s : State) (hf : ∀ x0, Kept Q T x0 → Kept Q T (f x0)) (hs : Kept Q T s) : OutOk Q T (onStandby f
    s) := by
  unfold onStandby
  exact (OutOk.next (ite_kept hs (hf _ hs)))
theorem onHub_kept (f : State → State) (s : State) (hf : ∀ x0, Kept Q T x0 → Kept Q T (f x0)) (hs : Kept Q T s) : OutOk Q T (onHub f s) :=
    by
  unfold onHub
  exact (OutOk.next (ite_kept (hf _ hs) hs))
theorem onCore_kept (f : State → State) (s : State) (hf : ∀ x0, Kept Q T x0 → Kept Q T (f x0)) (hs : Kept Q T s) : OutOk Q T (onCore f s) :=
    by
  unfold onCore
  exact (OutOk.next (ite_kept (hf _ hs) hs))
theorem hardwareTrip_kept (s : State) (hs : Kept Q T s) : Kept Q T (hardwareTrip s) := by
  unfold hardwareTrip
  extract_lets +onlyGivenNames x0
  extract_lets +onlyGivenNames x1
  have hx1 : Kept Q T x1 := (Kept.keep hs)
  clear_value x1
  exact (ite_kept (State.backToWait_kept _ hx1) (Kept.keep hx1))
theorem execHardwareTrip_kept (s : State) (hs : Kept Q T s) : OutOk Q T (execHardwareTrip s) := by
  unfold execHardwareTrip
  exact (onStandby_kept _ _ (fun _ k6_1 => (hardwareTrip_kept _ k6_1)) hs)
theorem measureVbat_kept (mv : ℕ) (s : State) (hs : Kept Q T s) : Kept Q T (measureVbat mv s) := by
  unfold measureVbat
  extract_lets +onlyGivenNames x0
  have hx0 : Kept Q T x0 := (State.setFs_kept _ _ hs)
  clear_value x0
  exact (ite_kept (State.holdLine_kept _ _ hx0) (State.dropLine_kept _ _ hx0))
theorem execVbatSample_kept (mv : ℕ) (s : State) (hs : Kept Q T s) : OutOk Q T (execVbatSample mv s) := by
  unfold execVbatSample
  exact (onStandby_kept _ _ (fun _ k7_1 => (measureVbat_kept _ _ k7_1)) hs)
theorem refCheck_kept (good : Bool) (s : State) (hs : Kept Q T s) : Kept Q T (refCheck good s) := by
  unfold refCheck
  extract_lets +onlyGivenNames x0
  extract_lets +onlyGivenNames x1
  have hx1 : Kept Q T x1 := (Kept.keep hs)
  exact (ite_kept (ite_kept (State.dropLine_kept _ _ hx1) (State.holdLine_kept _ _ hx1)) (ite_kept (State.backToWait_kept _ hx1) hx1))
theorem execRefCheck_kept (good : Bool) (s : State) (hs : Kept Q T s) : OutOk Q T (execRefCheck good s) := by
  unfold execRefCheck
  exact (onStandby_kept _ _ (fun _ k7_1 => (refCheck_kept _ _ k7_1)) hs)
theorem powerOn_kept (osc : Bool) (s : State) (hs : Kept Q T s) : Kept Q T (powerOn osc s) := by
  unfold powerOn
  refine ite_kept ?_ ?_
  · extract_lets +onlyGivenNames x0
    have hx0 : Kept Q T x0 := (State.setFs_kept _ _ hs)
    clear_value x0
    extract_lets +onlyGivenNames x1
    have hx1 : Kept Q T x1 := (State.setF_kept _ _ _ hx0)
    clear_value x1
    extract_lets +onlyGivenNames x2
    have hx2 : Kept Q T x2 := (ite_kept (Kept.keep hx1) hx0)
    clear_value x2
    exact (Kept.keep hx2)
  · exact (State.dropLine_kept _ _ (Kept.keep hs))
theorem execPowerOn_kept (osc : Bool) (s : State) (hs : Kept Q T s) : OutOk Q T (execPowerOn osc s) := by
  unfold execPowerOn
  exact (OutOk.next (powerOn_kept _ _ hs))
theorem standbyGood_kept (s : State) (hs : Kept Q T s) : Kept Q T (standbyGood s) := by
  unfold standbyGood
  refine ite_kept ?_ ?_
  · extract_lets +onlyGivenNames x0
    extract_lets +onlyGivenNames x1
    have hx1 : Kept Q T x1 := (Kept.keep hs)
    clear_value x1
    exact (State.setF_kept _ _ _ hx1)
  · exact hs
theorem execStandbyGood_kept (s : State) (hs : Kept Q T s) : OutOk Q T (execStandbyGood s) := by
  unfold execStandbyGood
  exact (onStandby_kept _ _ (fun _ k6_1 => (standbyGood_kept _ k6_1)) hs)
theorem selfTestPass_kept (mv : ℕ) (pwrdom : ℕ) (slot : ℕ) (s : State) (hs : Kept Q T s) : Kept Q T (selfTestPass mv pwrdom slot s) := by
  unfold selfTestPass
  refine ite_kept ?_ ?_
  · extract_lets +onlyGivenNames x0
    extract_lets +onlyGivenNames x1
    have hx1 : Kept Q T x1 := (Kept.keep hs)
    clear_value x1
    exact (measureVbat_kept _ _ (State.setFs_kept _ _ hx1))
  · exact hs
theorem execSelfTestPass_kept (mv : ℕ) (pwrdom : ℕ) (slot : ℕ) (s : State) (hs : Kept Q T s) : OutOk Q T (execSelfTestPass mv pwrdom slot s)
    := by
  unfold execSelfTestPass
  exact (onStandby_kept _ _ (fun _ k9_1 => (selfTestPass_kept _ _ _ _ k9_1)) hs)
theorem railSequence_kept (s : State) (hs : Kept Q T s) : Kept Q T (railSequence s) := by
  unfold railSequence
  exact (ite_kept (Kept.keep hs) (ite_kept (Kept.keep hs) hs))
theorem execRailSequence_kept (s : State) (hs : Kept Q T s) : OutOk Q T (execRailSequence s) := by
  unfold execRailSequence
  exact (onStandby_kept _ _ (fun _ k6_1 => (railSequence_kept _ k6_1)) hs)
theorem railFail_kept (s : State) (hs : Kept Q T s) : Kept Q T (railFail s) := by
  unfold railFail
  refine ite_kept ?_ ?_
  · extract_lets +onlyGivenNames x0
    extract_lets +onlyGivenNames x1
    have hx1 : Kept Q T x1 := (Kept.keep hs)
    clear_value x1
    exact (State.setF_kept _ _ _ hx1)
  · exact hs
theorem execRailFail_kept (s : State) (hs : Kept Q T s) : OutOk Q T (execRailFail s) := by
  unfold execRailFail
  exact (onStandby_kept _ _ (fun _ k6_1 => (railFail_kept _ k6_1)) hs)
theorem railRetry_kept (s : State) (hs : Kept Q T s) : Kept Q T (railRetry s) := by
  unfold railRetry
  exact (ite_kept (Kept.keep hs) hs)
theorem execRailRetry_kept (s : State) (hs : Kept Q T s) : OutOk Q T (execRailRetry s) := by
  unfold execRailRetry
  exact (onStandby_kept _ _ (fun _ k6_1 => (railRetry_kept _ k6_1)) hs)
theorem startBoot_kept (s : State) (hs : Kept Q T s) : Kept Q T (startBoot s) := by
  unfold startBoot
  refine ite_kept ?_ ?_
  · extract_lets +onlyGivenNames x0
    have hx0 : Kept Q T x0 := (State.setF_kept _ _ _ hs)
    clear_value x0
    exact (Kept.keep hx0)
  · exact hs
theorem powerGood_kept (s : State) (hs : Kept Q T s) : Kept Q T (powerGood s) := by
  unfold powerGood
  exact (ite_kept (startBoot_kept _ (Kept.keep hs)) hs)
theorem execPowerGood_kept (s : State) (hs : Kept Q T s) : OutOk Q T (execPowerGood s) := by
  unfold execPowerGood
  exact (onStandby_kept _ _ (fun _ k6_1 => (powerGood_kept _ k6_1)) hs)
theorem j1Fault_kept (s : State) (hs : Kept Q T s) : Kept Q T (j1Fault s) := by
  unfold j1Fault
  extract_lets +onlyGivenNames x0
  extract_lets +onlyGivenNames x1
  have hx1 : Kept Q T x1 := (Kept.keep hs)
  clear_value x1
  exact (ite_kept (State.backToWait_kept _ hx1) (ite_kept (State.holdLine_kept _ _ hx1) hx1))
theorem execJ1Overvoltage_kept (s : State) (hs : Kept Q T s) : OutOk Q T (execJ1Overvoltage s) := by
  unfold execJ1Overvoltage
  exact (onStandby_kept _ _ (fun _ k6_1 => (j1Fault_kept _ k6_1)) hs)
theorem execJ1Undervoltage_kept (s : State) (hs : Kept Q T s) : OutOk Q T (execJ1Undervoltage s) := by
  unfold execJ1Undervoltage
  exact (onStandby_kept _ _ (fun _ k6_1 => (j1Fault_kept _ k6_1)) hs)
theorem standbyLoss_kept (s : State) (hs : Kept Q T s) : Kept Q T (standbyLoss s) := by
  unfold standbyLoss
  extract_lets +onlyGivenNames x0
  have hx0 : Kept Q T x0 := (State.setFs_kept _ _ (State.afterReset_kept _ hs))
  clear_value x0
  exact (Kept.keep hx0)
theorem execStandbyLoss_kept (s : State) (hs : Kept Q T s) : OutOk Q T (execStandbyLoss s) := by
  unfold execStandbyLoss
  exact (onStandby_kept _ _ (fun _ k6_1 => (standbyLoss_kept _ k6_1)) hs)
theorem modrstAssert_kept (s : State) (hs : Kept Q T s) : Kept Q T (modrstAssert s) := by
  unfold modrstAssert
  extract_lets +onlyGivenNames x0
  extract_lets +onlyGivenNames x1
  have hx1 : Kept Q T x1 := (Kept.keep hs)
  clear_value x1
  split
  · rename_i y2 y3
    exact (State.moduleReset_kept _ _ hx1)
  · rename_i y4 y5
    exact (State.moduleReset_kept _ _ hx1)
  · rename_i y6 y7
    exact (State.moduleReset_kept _ _ hx1)
  · rename_i y8 y9
    exact (State.moduleReset_kept _ _ hx1)
  · rename_i y10 y11
    exact (State.moduleReset_kept _ _ hx1)
  · rename_i y12 y13
    exact (ite_kept (State.setF_kept _ _ _ hx1) hx1)
  · rename_i y14 y15 y16 y17 y18 y19 y20
    exact hx1
theorem execModrstAssert_kept (s : State) (hs : Kept Q T s) : OutOk Q T (execModrstAssert s) := by
  unfold execModrstAssert
  exact (OutOk.next (modrstAssert_kept _ hs))
theorem modrstRelease_kept (s : State) (hs : Kept Q T s) : Kept Q T (modrstRelease s) := by
  unfold modrstRelease
  exact (ite_kept hs (startBoot_kept _ (Kept.keep hs)))
theorem execModrstRelease_kept (s : State) (hs : Kept Q T s) : OutOk Q T (execModrstRelease s) := by
  unfold execModrstRelease
  exact (OutOk.next (modrstRelease_kept _ hs))
theorem State.setCalendar_kept (s : State) (ns : ℕ) (src : ℕ) (hs : Kept Q T s) : Kept Q T (State.setCalendar s ns src) := by
  unfold State.setCalendar
  extract_lets +onlyGivenNames x0
  have hx0 : Kept Q T x0 := (State.setFs_kept _ _ hs)
  clear_value x0
  extract_lets +onlyGivenNames x1
  have hx1 : Kept Q T x1 := (Kept.keep hx0)
  clear_value x1
  exact (ite_kept hx1 (State.dropLine_kept _ _ hx1))
theorem State.ppApply_kept (s : State) (op : ℕ) (a0 : W64) (a1 : W64) (hs : Kept Q T s) : Kept Q T (State.ppApply s op a0 a1) := by
  unfold State.ppApply
  split
  · rename_i y0
    exact (State.setFs_kept _ _ hs)
  · rename_i y1
    exact (State.setFs_kept _ _ hs)
  · rename_i y2
    exact (State.setFs_kept _ _ hs)
  · rename_i y3
    exact (State.setFs_kept _ _ hs)
  · rename_i y4
    exact (State.setF_kept _ _ _ hs)
  · rename_i y5
    exact (State.setF_kept _ _ _ hs)
  · rename_i y6
    exact (State.setCalendar_kept _ _ _ hs)
  · rename_i y7 y8 y9 y10 y11 y12 y13 y14
    exact hs
theorem State.setDerated_kept (s : State) (hs : Kept Q T s) : Kept Q T (State.setDerated s) := by
  unfold State.setDerated
  exact (State.setF_kept _ _ _ hs)
theorem aliveToggle_kept (s : State) (hs : Kept Q T s) : Kept Q T (aliveToggle s) := by
  unfold aliveToggle
  exact (ite_kept (State.setF_kept _ _ _ hs) hs)
theorem coolantCondition_kept (cause : ℕ) (holds : Bool) (s : State) (hs : Kept Q T s) : Kept Q T (coolantCondition cause holds s) := by
  unfold coolantCondition
  refine ite_kept ?_ ?_
  · exact hs
  · extract_lets +onlyGivenNames x0
    extract_lets +onlyGivenNames x1
    extract_lets +onlyGivenNames x2
    have hx2 : Kept Q T x2 := (Kept.keep hs)
    clear_value x2
    extract_lets +onlyGivenNames x3
    have hx3 : Kept Q T x3 := (State.setF_kept _ _ _ hx2)
    clear_value x3
    extract_lets +onlyGivenNames x4
    have hx4 : Kept Q T x4 := (ite_kept (State.dropLine_kept _ _ hx3) (State.holdLine_kept _ _ hx3))
    clear_value x4
    exact (State.setDerated_kept _ hx4)
theorem drawSample_kept (meas : ℕ) (joules : ℕ) (short : Bool) (s : State) (hs : Kept Q T s) : Kept Q T (drawSample meas joules short s) :=
    by
  unfold drawSample
  extract_lets +onlyGivenNames x0
  have hx0 : Kept Q T x0 := (State.bump_kept _ _ _ (State.setF_kept _ _ _ hs))
  clear_value x0
  refine ite_kept ?_ ?_
  · extract_lets +onlyGivenNames x1
    extract_lets +onlyGivenNames x2
    extract_lets +onlyGivenNames x3
    have hx3 : Kept Q T x3 := (Kept.keep hx0)
    clear_value x3
    exact (State.setFs_kept _ _ hx3)
  · exact hx0
theorem execAliveToggle_kept (s : State) (hs : Kept Q T s) : OutOk Q T (execAliveToggle s) := by
  unfold execAliveToggle
  exact (onStandby_kept _ _ (fun _ k6_1 => (aliveToggle_kept _ k6_1)) hs)
theorem ppCommand_kept (via : ℕ) (ws : List W64) (s : State) (hs : Kept Q T s) : Kept Q T (ppCommand via ws s) := by
  unfold ppCommand
  extract_lets +onlyGivenNames x0
  extract_lets +onlyGivenNames x1
  extract_lets +onlyGivenNames x2
  have hx2 : Kept Q T x2 := (State.setFs_kept _ _ hs)
  clear_value x2
  extract_lets +onlyGivenNames x3
  have hx3 : Kept Q T x3 := (Kept.keep hx2)
  clear_value x3
  refine ite_kept ?_ ?_
  · extract_lets +onlyGivenNames x4
    extract_lets +onlyGivenNames x5
    have hx5 : Kept Q T x5 := (State.setF_kept _ _ _ hx3)
    clear_value x5
    exact (State.ppApply_kept _ _ _ _ (Kept.keep hx5))
  · exact hx3
theorem ppRow_kept (op : ℕ) (via : ℕ) (ws : List W64) (s : State) (hs : Kept Q T s) : Kept Q T (ppRow op via ws s) := by
  unfold ppRow
  exact (ite_kept (ppCommand_kept _ _ _ hs) hs)
theorem execSetLimit_kept (via : ℕ) (ws : List W64) (s : State) (hs : Kept Q T s) : OutOk Q T (execSetLimit via ws s) := by
  unfold execSetLimit
  exact (onHub_kept _ _ (fun _ k8_1 => (ppRow_kept _ _ _ _ k8_1)) hs)
theorem execSetRamp_kept (via : ℕ) (ws : List W64) (s : State) (hs : Kept Q T s) : OutOk Q T (execSetRamp via ws s) := by
  unfold execSetRamp
  exact (onHub_kept _ _ (fun _ k8_1 => (ppRow_kept _ _ _ _ k8_1)) hs)
theorem execSetTarget_kept (via : ℕ) (ws : List W64) (s : State) (hs : Kept Q T s) : OutOk Q T (execSetTarget via ws s) := by
  unfold execSetTarget
  exact (onHub_kept _ _ (fun _ k8_1 => (ppRow_kept _ _ _ _ k8_1)) hs)
theorem execSetCool_kept (via : ℕ) (ws : List W64) (s : State) (hs : Kept Q T s) : OutOk Q T (execSetCool via ws s) := by
  unfold execSetCool
  exact (onHub_kept _ _ (fun _ k8_1 => (ppRow_kept _ _ _ _ k8_1)) hs)
theorem execSetTherm_kept (via : ℕ) (ws : List W64) (s : State) (hs : Kept Q T s) : OutOk Q T (execSetTherm via ws s) := by
  unfold execSetTherm
  exact (onHub_kept _ _ (fun _ k8_1 => (ppRow_kept _ _ _ _ k8_1)) hs)
theorem execSetFatal_kept (via : ℕ) (ws : List W64) (s : State) (hs : Kept Q T s) : OutOk Q T (execSetFatal via ws s) := by
  unfold execSetFatal
  exact (onHub_kept _ _ (fun _ k8_1 => (ppRow_kept _ _ _ _ k8_1)) hs)
theorem execSetCal_kept (via : ℕ) (ws : List W64) (s : State) (hs : Kept Q T s) : OutOk Q T (execSetCal via ws s) := by
  unfold execSetCal
  exact (onHub_kept _ _ (fun _ k8_1 => (ppRow_kept _ _ _ _ k8_1)) hs)
theorem execDrawSample_kept (meas : ℕ) (joules : ℕ) (short : Bool) (s : State) (hs : Kept Q T s) : OutOk Q T (execDrawSample meas joules
    short s) := by
  unfold execDrawSample
  exact (onStandby_kept _ _ (fun _ k9_1 => (drawSample_kept _ _ _ _ k9_1)) hs)
theorem overdrawStep_kept (above : Bool) (s : State) (hs : Kept Q T s) : Kept Q T (overdrawStep above s) := by
  unfold overdrawStep
  refine ite_kept ?_ ?_
  · exact (State.setF_kept _ _ _ (State.bump_kept _ _ _ (Kept.keep hs)))
  · extract_lets +onlyGivenNames x0
    extract_lets +onlyGivenNames x1
    have hx1 : Kept Q T x1 := (Kept.keep hs)
    clear_value x1
    exact (State.setF_kept _ _ _ hx1)
theorem execOverdrawStep_kept (above : Bool) (s : State) (hs : Kept Q T s) : OutOk Q T (execOverdrawStep above s) := by
  unfold execOverdrawStep
  exact (onStandby_kept _ _ (fun _ k7_1 => (overdrawStep_kept _ _ k7_1)) hs)
theorem valveUpdate_kept (tin : ℕ) (tout : ℕ) (pulses : ℕ) (s : State) (hs : Kept Q T s) : Kept Q T (valveUpdate tin tout pulses s) := by
  unfold valveUpdate
  extract_lets +onlyGivenNames x0
  extract_lets +onlyGivenNames x1
  have hx1 : Kept Q T x1 := (State.setFs_kept _ _ hs)
  clear_value x1
  extract_lets +onlyGivenNames x2
  extract_lets +onlyGivenNames x3
  extract_lets +onlyGivenNames x4
  extract_lets +onlyGivenNames x5
  have hx5 : Kept Q T x5 := (Kept.keep hx1)
  clear_value x5
  extract_lets +onlyGivenNames x6
  exact (State.nextFree_kept _ (State.setF_kept _ _ _ hx5))
theorem execValveUpdate_kept (tin : ℕ) (tout : ℕ) (pulses : ℕ) (s : State) (hs : Kept Q T s) : OutOk Q T (execValveUpdate tin tout pulses s)
    := by
  unfold execValveUpdate
  exact (onStandby_kept _ _ (fun _ k9_1 => (valveUpdate_kept _ _ _ _ k9_1)) hs)
theorem execCoolantCondition_kept (cause : ℕ) (holds : Bool) (s : State) (hs : Kept Q T s) : OutOk Q T (execCoolantCondition cause holds s)
    := by
  unfold execCoolantCondition
  exact (onStandby_kept _ _ (fun _ k8_1 => (coolantCondition_kept _ _ _ k8_1)) hs)
theorem thermalSample_kept (truss : ℕ) (hub : ℕ) (dram : ℕ) (pstage : ℕ) (s : State) (hs : Kept Q T s) : Kept Q T (thermalSample truss hub
    dram pstage s) := by
  unfold thermalSample
  extract_lets +onlyGivenNames x0
  have hx0 : Kept Q T x0 := (State.setFs_kept _ _ hs)
  clear_value x0
  extract_lets +onlyGivenNames x1
  extract_lets +onlyGivenNames x2
  have hx2 : Kept Q T x2 := (ite_kept (State.setFs_kept _ _ hx0) (ite_kept (State.setF_kept _ _ _ hx0) hx0))
  clear_value x2
  extract_lets +onlyGivenNames x3
  have hx3 : Kept Q T x3 := (State.setDerated_kept _ hx2)
  clear_value x3
  extract_lets +onlyGivenNames x4
  have hx4 : Kept Q T x4 := (ite_kept (ite_kept (State.dropLine_kept _ _ hx3) (State.holdLine_kept _ _ hx3)) hx3)
  clear_value x4
  exact (ite_kept (Kept.keep hx4) hx4)
theorem execThermalSample_kept (truss : ℕ) (hub : ℕ) (dram : ℕ) (pstage : ℕ) (s : State) (hs : Kept Q T s) : OutOk Q T (execThermalSample
    truss hub dram pstage s) := by
  unfold execThermalSample
  exact (onStandby_kept _ _ (fun _ k10_1 => (thermalSample_kept _ _ _ _ _ k10_1)) hs)
theorem ppReserved_kept (via : ℕ) (ws : List W64) (s : State) (hs : Kept Q T s) : Kept Q T (ppReserved via ws s) := by
  unfold ppReserved
  exact (ite_kept (ppCommand_kept _ _ _ hs) hs)
theorem execReservedParapetOpcode_kept (via : ℕ) (ws : List W64) (s : State) (hs : Kept Q T s) : OutOk Q T (execReservedParapetOpcode via ws
    s) := by
  unfold execReservedParapetOpcode
  exact (onHub_kept _ _ (fun _ k8_1 => (ppReserved_kept _ _ _ k8_1)) hs)
theorem State.closeChannelCounts_kept (s : State) (closes : Bool) (hs : Kept Q T s) : Kept Q T (State.closeChannelCounts s closes) := by
  unfold State.closeChannelCounts
  extract_lets +onlyGivenNames x0
  have hx0 : Kept Q T x0 := (State.each_kept _ _ _ hs (fun _ _ k9_2 => (State.retrainNext_kept _ _ k9_2)))
  clear_value x0
  exact (Kept.keep hx0)
theorem State.checkWindow_kept (s : State) (hs : Kept Q T s) : Kept Q T (State.checkWindow s) := by
  unfold State.checkWindow
  exact (ite_kept (State.setF_kept _ _ _ hs) (State.setF_kept _ _ _ hs))
theorem State.degradeStack_kept (s : State) (st : ℕ) (p : ℕ) (dead : Bool) (hs : Kept Q T s) : Kept Q T (State.degradeStack s st p dead) :=
    by
  unfold State.degradeStack
  exact (Kept.keep hs)
theorem State.mapOut_kept (s : State) (lam : ℕ) (dead : Bool) (migrate : Bool) (hs : Kept Q T s) : Kept Q T (State.mapOut s lam dead
    migrate) := by
  unfold State.mapOut
  extract_lets +onlyGivenNames x0
  extract_lets +onlyGivenNames x1
  extract_lets +onlyGivenNames x2
  refine ite_kept ?_ ?_
  · exact (State.degradeStack_kept _ _ _ _ hs)
  · extract_lets +onlyGivenNames x3
    extract_lets +onlyGivenNames x4
    have hx4 : Kept Q T x4 := (State.setFs_kept _ _ hs)
    clear_value x4
    extract_lets +onlyGivenNames x5
    extract_lets +onlyGivenNames x6
    have hx6 : Kept Q T x6 := (State.setFs_kept _ _ hx4)
    clear_value x6
    extract_lets +onlyGivenNames x7
    have hx7 : Kept Q T x7 := (ite_kept (Kept.keep hx6) (State.setF_kept _ _ _ hx4))
    clear_value x7
    refine Kept.upd ?_ ?_ ?_ ?_ ?_ ?_ ?_
    · refine SMap.filter_wf _ _ _ ?_
      exact (Kept.canon hx7).hbm
    · exact (Kept.canon hx7).loft
    · exact (Kept.canon hx7).rstore
    · exact (Kept.canon hx7).acc
    · exact (Kept.canon hx7).regs
    · exact Kept.queue hx7
    · exact Kept.clock hx7
theorem State.takeMapOuts_kept (s : State) (hs : Kept Q T s) : Kept Q T (State.takeMapOuts s) := by
  unfold State.takeMapOuts
  extract_lets +onlyGivenNames x0
  exact (ite_kept hs (State.checkWindow_kept _ (State.each_kept _ _ _ (Kept.keep hs) (fun _ _ k8_2 => (State.mapOut_kept _ _ _ _ k8_2)))))
theorem State.startRetrains_kept (s : State) (hs : Kept Q T s) : Kept Q T (State.startRetrains s) := by
  unfold State.startRetrains
  extract_lets +onlyGivenNames x0
  extract_lets +onlyGivenNames x1
  extract_lets +onlyGivenNames x2
  have hx2 : Kept Q T x2 := (State.each_kept _ _ _ hs (fun _ _ k10_2 => (State.bump_kept _ _ _ (State.setF_kept _ _ _ k10_2))))
  clear_value x2
  exact (Kept.keep hx2)
theorem State.channelDies_kept (s : State) (st : ℕ) (p : ℕ) (hs : Kept Q T s) : Kept Q T (State.channelDies s st p) := by
  unfold State.channelDies
  exact (State.retrainNext_kept _ _ (Kept.keep hs))
theorem State.startMigration_kept (s : State) (st : ℕ) (c : ℕ) (p : ℕ) (d : ℕ) (dead : Bool) (hs : Kept Q T s) : Kept Q T
    (State.startMigration s st c p d dead) := by
  unfold State.startMigration
  extract_lets +onlyGivenNames x0
  have hx0 : Kept Q T x0 := (State.setFs_kept _ _ hs)
  clear_value x0
  extract_lets +onlyGivenNames x1
  extract_lets +onlyGivenNames x2
  have hx2 : Kept Q T x2 := (ite_kept hx0 (State.bump_kept _ _ _ hx0))
  clear_value x2
  exact (Kept.keep hx2)
theorem State.losePosition_kept (s : State) (st : ℕ) (c : ℕ) (dead : Bool) (hs : Kept Q T s) : Kept Q T (State.losePosition s st c dead) :=
    by
  unfold State.losePosition
  exact (State.raiseLine_kept _ _ (Kept.keep hs))
theorem State.channelLost_kept (s : State) (st : ℕ) (p : ℕ) (dead : Bool) (hs : Kept Q T s) : Kept Q T (State.channelLost s st p dead) := by
  unfold State.channelLost
  extract_lets +onlyGivenNames x0
  refine ite_kept ?_ ?_
  · exact (ite_kept (State.raiseLine_kept _ _ (Kept.keep hs)) hs)
  · split
    · rename_i y1 y2 y3
      refine ite_kept ?_ ?_
      · extract_lets +onlyGivenNames x4
        have hx4 : Kept Q T x4 := (State.setFs_kept _ _ hs)
        clear_value x4
        split
        · rename_i y5 y6 y7
          exact (State.startMigration_kept _ _ _ _ _ _ hx4)
        · rename_i y8 y9
          extract_lets +onlyGivenNames x10
          have hx10 : Kept Q T x10 := (Kept.keep hx4)
          clear_value x10
          exact (State.losePosition_kept _ _ _ _ (State.setFs_kept _ _ hx10))
      · extract_lets +onlyGivenNames x11
        have hx11 : Kept Q T x11 := (State.setF_kept _ _ _ hs)
        clear_value x11
        exact (ite_kept (State.raiseLine_kept _ _ (Kept.keep hx11)) hx11)
    · rename_i y12 y13
      split
      · rename_i y14 y15 y16
        extract_lets +onlyGivenNames x17
        have hx17 : Kept Q T x17 := (State.startMigration_kept _ _ _ _ _ _ hs)
        clear_value x17
        exact (ite_kept (State.raiseLine_kept _ _ hx17) hx17)
      · rename_i y18 y19
        exact (State.losePosition_kept _ _ _ _ hs)
theorem State.crcReplay_kept (s : State) (st : ℕ) (p : ℕ) (hs : Kept Q T s) : Kept Q T (State.crcReplay s st p) := by
  unfold State.crcReplay
  exact (State.bump_kept _ _ _ hs)
theorem State.migrationDone_kept (s : State) (m : Mig) (hs : Kept Q T s) : Kept Q T (State.migrationDone s m) := by
  unfold State.migrationDone
  extract_lets +onlyGivenNames x0
  have hx0 : Kept Q T x0 := (State.setFs_kept _ _ hs)
  clear_value x0
  extract_lets +onlyGivenNames x1
  have hx1 : Kept Q T x1 := by
    unfold x1
    split
    · rename_i y2 y3 y4
      exact (State.setFs_kept _ _ hx0)
    · rename_i y5 y6
      exact (State.setF_kept _ _ _ hx0)
  clear_value x1
  exact (Kept.keep hx1)
theorem State.retrainOutcome_kept (s : State) (st : ℕ) (p : ℕ) (result : ℕ) (hs : Kept Q T s) : Kept Q T (State.retrainOutcome s st p
    result) := by
  unfold State.retrainOutcome
  extract_lets +onlyGivenNames x0
  extract_lets +onlyGivenNames x1
  extract_lets +onlyGivenNames x2
  have hx2 : Kept Q T x2 := (State.setF_kept _ _ _ hs)
  clear_value x2
  extract_lets +onlyGivenNames x3
  have hx3 : Kept Q T x3 := (ite_kept (State.setF_kept _ _ _ hx2) hx2)
  clear_value x3
  exact (ite_kept hx3 (State.channelLost_kept _ _ _ _ (State.bump_kept _ _ _ hx3)))
theorem State.settleStack_kept (s : State) (st : ℕ) (hs : Kept Q T s) : Kept Q T (State.settleStack s st) := by
  unfold State.settleStack
  refine ite_kept ?_ ?_
  · exact hs
  · extract_lets +onlyGivenNames x0
    extract_lets +onlyGivenNames x1
    exact (State.each_kept _ _ _ (Kept.keep hs) (fun _ _ k10_2 => (State.retrainOutcome_kept _ _ _ _ k10_2)))
theorem State.symbolErrors_kept (s : State) (sec : ℕ) (n : ℕ) (hs : Kept Q T s) : Kept Q T (State.symbolErrors s sec n) := by
  unfold State.symbolErrors
  exact (Kept.keep hs)
theorem channelRetrainEnd_kept (st : ℕ) (p : ℕ) (result : ℕ) (s : State) (hs : Kept Q T s) : Kept Q T (channelRetrainEnd st p result s) :=
    by
  unfold channelRetrainEnd
  exact (ite_kept (State.settleStack_kept _ _ (Kept.keep hs)) hs)
theorem dramTempSample_kept (st : ℕ) (t1 : ℕ) (s : State) (hs : Kept Q T s) : Kept Q T (dramTempSample st t1 s) := by
  unfold dramTempSample
  extract_lets +onlyGivenNames x0
  exact (State.setFs_kept _ _ hs)
theorem writeMemTemp_kept (st : ℕ) (v : ℕ) (s : State) (hs : Kept Q T s) : Kept Q T (writeMemTemp st v s) := by
  unfold writeMemTemp
  exact (ite_kept (State.setF_kept _ _ _ hs) hs)
theorem writeMemLoop_kept (st : ℕ) (v : ℕ) (s : State) (hs : Kept Q T s) : Kept Q T (writeMemLoop st v s) := by
  unfold writeMemLoop
  extract_lets +onlyGivenNames x0
  have hx0 : Kept Q T x0 := (State.setF_kept _ _ _ hs)
  clear_value x0
  extract_lets +onlyGivenNames x1
  have hx1 : Kept Q T x1 := (ite_kept (State.setF_kept _ _ _ hx0) hx0)
  clear_value x1
  exact (ite_kept (ite_kept (State.setF_kept _ _ _ hx1) (State.setFs_kept _ _ hx1)) hx1)
theorem writeMemInject_kept (st : ℕ) (v : ℕ) (s : State) (hs : Kept Q T s) : Kept Q T (writeMemInject st v s) := by
  unfold writeMemInject
  extract_lets +onlyGivenNames x0
  have hx0 : Kept Q T x0 := (State.setFs_kept _ _ hs)
  clear_value x0
  exact (ite_kept (State.setF_kept _ _ _ hx0) hx0)
theorem writeLchStat_kept (st : ℕ) (c : ℕ) (v : ℕ) (s : State) (hs : Kept Q T s) : Kept Q T (writeLchStat st c v s) := by
  unfold writeLchStat
  refine ite_kept ?_ ?_
  · extract_lets +onlyGivenNames x0
    have hx0 : Kept Q T x0 := (ite_kept (State.setF_kept _ _ _ hs) hs)
    clear_value x0
    exact (Kept.keep hx0)
  · exact hs
theorem execDramTempSample_kept (st : ℕ) (t1 : ℕ) (s : State) (hs : Kept Q T s) : OutOk Q T (execDramTempSample st t1 s) := by
  unfold execDramTempSample
  exact (onCore_kept _ _ (fun _ k8_1 => (dramTempSample_kept _ _ _ k8_1)) hs)
theorem scrubRead_kept (sec : ℕ) (s : State) (hs : Kept Q T s) : Kept Q T (scrubRead sec s) := by
  unfold scrubRead
  extract_lets +onlyGivenNames x0
  extract_lets +onlyGivenNames x1
  refine ite_kept ?_ ?_
  · split
    · rename_i y2 y3
      exact hs
    · rename_i y4 y5
      exact (State.readSector_kept _ _ hs)
    · rename_i y6 y7
      refine ite_kept ?_ ?_
      · exact hs
      · extract_lets +onlyGivenNames x8
        have hx8 : Kept Q T x8 := (State.bump_kept _ _ _ hs)
        clear_value x8
        exact (Kept.keep hx8)
  · exact hs
theorem execScrubRead_kept (sec : ℕ) (s : State) (hs : Kept Q T s) : OutOk Q T (execScrubRead sec s) := by
  unfold execScrubRead
  exact (onCore_kept _ _ (fun _ k7_1 => (scrubRead_kept _ _ k7_1)) hs)
theorem execChannelRetrainEnd_kept (st : ℕ) (p : ℕ) (result : ℕ) (s : State) (hs : Kept Q T s) : OutOk Q T (execChannelRetrainEnd st p
    result s) := by
  unfold execChannelRetrainEnd
  exact (onCore_kept _ _ (fun _ k9_1 => (channelRetrainEnd_kept _ _ _ _ k9_1)) hs)
theorem migrationGranuleCopy_kept (st : ℕ) (c : ℕ) (s : State) (hs : Kept Q T s) : Kept Q T (migrationGranuleCopy st c s) := by
  unfold migrationGranuleCopy
  split
  · rename_i y0 y1
    exact hs
  · rename_i y2 y3 y4
    extract_lets +onlyGivenNames x5
    extract_lets +onlyGivenNames x6
    extract_lets +onlyGivenNames x7
    extract_lets +onlyGivenNames x8
    extract_lets +onlyGivenNames x9
    extract_lets +onlyGivenNames x10
    extract_lets +onlyGivenNames x11
    have hx11 : Kept Q T x11 := (ite_kept hs (State.readRaw_kept _ _ _ hs))
    clear_value x11
    extract_lets +onlyGivenNames x12
    have hx12 : Kept Q T x12 := (Kept.keep hx11)
    clear_value x12
    extract_lets +onlyGivenNames x13
    have hx13 : Kept Q T x13 := (State.setF_kept _ _ _ hx12)
    clear_value x13
    extract_lets +onlyGivenNames x14
    have hx14 : Kept Q T x14 := (ite_kept (State.raiseLine_kept _ _ hx13) hx13)
    clear_value x14
    exact (ite_kept (State.migrationDone_kept _ _ hx14) hx14)
theorem execMigrationGranuleCopy_kept (st : ℕ) (c : ℕ) (s : State) (hs : Kept Q T s) : OutOk Q T (execMigrationGranuleCopy st c s) := by
  unfold execMigrationGranuleCopy
  exact (onCore_kept _ _ (fun _ k8_1 => (migrationGranuleCopy_kept _ _ _ k8_1)) hs)
theorem loopbackDone_kept (st : ℕ) (errs : ℕ) (s : State) (hs : Kept Q T s) : Kept Q T (loopbackDone st errs s) := by
  unfold loopbackDone
  exact (ite_kept (State.setFs_kept _ _ hs) hs)
theorem execLoopbackDone_kept (st : ℕ) (errs : ℕ) (s : State) (hs : Kept Q T s) : OutOk Q T (execLoopbackDone st errs s) := by
  unfold execLoopbackDone
  exact (onCore_kept _ _ (fun _ k8_1 => (loopbackDone_kept _ _ _ k8_1)) hs)
theorem State.requestReslate_kept (s : State) (kind : ℕ) (unit : ℕ) (late : Bool) (hs : Kept Q T s) : Kept Q T (State.requestReslate s kind
    unit late) := by
  unfold State.requestReslate
  split
  · rename_i y0 y1
    exact (Kept.keep hs)
  · rename_i y2 y3 y4
    exact (Kept.keep hs)
theorem State.failRaft_kept (s : State) (n : ℕ) (k : ℕ) (cause : ℕ) (hs : Kept Q T s) : Kept Q T (State.failRaft s n k cause) := by
  unfold State.failRaft
  extract_lets +onlyGivenNames x0
  extract_lets +onlyGivenNames x1
  have hx1 : Kept Q T x1 := (State.setFs_kept _ _ hs)
  clear_value x1
  exact (State.setFs_kept _ _ hx1)
theorem State.applyChans_kept (s : State) (m : List Byte) (hs : Kept Q T s) : Kept Q T (State.applyChans s m) := by
  unfold State.applyChans
  refine State.each_kept _ _ _ ?_ ?_
  · exact hs
  · intro v0 v1 h2
    extract_lets +onlyGivenNames x3
    extract_lets +onlyGivenNames x4
    extract_lets +onlyGivenNames x5
    have hx5 : Kept Q T x5 := (State.setFs_kept _ _ h2)
    clear_value x5
    exact (ite_kept (State.setF_kept _ _ _ hx5) hx5)
theorem State.applyDecs_kept (s : State) (m : List Byte) (hs : Kept Q T s) : Kept Q T (State.applyDecs s m) := by
  unfold State.applyDecs
  refine State.each_kept _ _ _ ?_ ?_
  · exact hs
  · intro v0 v1 h2
    extract_lets +onlyGivenNames x3
    extract_lets +onlyGivenNames x4
    exact (State.setFs_kept _ _ h2)
theorem State.applyLanes_kept (s : State) (m : List Byte) (hs : Kept Q T s) : Kept Q T (State.applyLanes s m) := by
  unfold State.applyLanes
  refine State.each_kept _ _ _ ?_ ?_
  · exact hs
  · intro v0 v1 h2
    extract_lets +onlyGivenNames x3
    extract_lets +onlyGivenNames x4
    extract_lets +onlyGivenNames x5
    have hx5 : Kept Q T x5 := (State.setFs_kept _ _ h2)
    clear_value x5
    exact (ite_kept (State.setF_kept _ _ _ hx5) hx5)
theorem State.applyRafts_kept (s : State) (m : List Byte) (hs : Kept Q T s) : Kept Q T (State.applyRafts s m) := by
  unfold State.applyRafts
  refine State.each_kept _ _ _ ?_ ?_
  · exact hs
  · intro v0 v1 h2
    extract_lets +onlyGivenNames x3
    extract_lets +onlyGivenNames x4
    extract_lets +onlyGivenNames x5
    extract_lets +onlyGivenNames x6
    extract_lets +onlyGivenNames x7
    have hx7 : Kept Q T x7 := (State.setFs_kept _ _ h2)
    clear_value x7
    extract_lets +onlyGivenNames x8
    have hx8 : ∀ w0 w1 w2, Kept Q T w2 → Kept Q T (x8 w0 w1 w2) := by
      intro v9 v10 v11 h12
      unfold x8
      exact (State.setF_kept _ _ _ h12)
    clear_value x8
    extract_lets +onlyGivenNames x13
    have hx13 : Kept Q T x13 := (hx8 _ _ _ (hx8 _ _ _ (hx8 _ _ _ hx7)))
    clear_value x13
    exact (ite_kept (State.setF_kept _ _ _ hx13) hx13)
theorem State.applyVecs_kept (s : State) (m : List Byte) (hs : Kept Q T s) : Kept Q T (State.applyVecs s m) := by
  unfold State.applyVecs
  refine State.each_kept _ _ _ ?_ ?_
  · exact hs
  · intro v0 v1 h2
    extract_lets +onlyGivenNames x3
    extract_lets +onlyGivenNames x4
    exact (State.setFs_kept _ _ h2)
theorem State.markUnit_kept (s : State) (kind : ℕ) (unit : ℕ) (hs : Kept Q T s) : Kept Q T (State.markUnit s kind unit) := by
  unfold State.markUnit
  split
  · rename_i y0
    exact (ite_kept hs (State.failRaft_kept _ _ _ _ hs))
  · rename_i y1
    extract_lets +onlyGivenNames x2
    extract_lets +onlyGivenNames x3
    extract_lets +onlyGivenNames x4
    exact (ite_kept hs (State.setFs_kept _ _ hs))
  · rename_i y5 y6 y7
    exact (ite_kept hs (State.setFs_kept _ _ hs))
theorem State.spareRaft_kept (s : State) (n : ℕ) (i : ℕ) (hs : Kept Q T s) : Kept Q T (State.spareRaft s n i) := by
  unfold State.spareRaft
  refine ite_kept ?_ ?_
  · exact hs
  · split
    · rename_i y0 y1
      exact hs
    · rename_i y2 y3 y4
      exact (State.setFs_kept _ _ hs)
theorem State.spareVec_kept (s : State) (n : ℕ) (k : ℕ) (e : ℕ) (hs : Kept Q T s) : Kept Q T (State.spareVec s n k e) := by
  unfold State.spareVec
  refine ite_kept ?_ ?_
  · exact hs
  · split
    · rename_i y0 y1
      exact hs
    · rename_i y2 y3 y4
      exact (State.setFs_kept _ _ hs)
theorem State.countDec_kept (s : State) (hs : Kept Q T s) : Kept Q T (State.countDec s) := by
  unfold State.countDec
  exact (State.setF_kept _ _ _ hs)
theorem State.spareDec_kept (s : State) (d : ℕ) (hs : Kept Q T s) : Kept Q T (State.spareDec s d) := by
  unfold State.spareDec
  refine ite_kept ?_ ?_
  · exact hs
  · split
    · rename_i y0 y1
      exact hs
    · rename_i y2 y3 y4
      exact (State.setFs_kept _ _ hs)
theorem State.bumpSpareVer_kept (s : State) (hs : Kept Q T s) : Kept Q T (State.bumpSpareVer s) := by
  unfold State.bumpSpareVer
  extract_lets +onlyGivenNames x0
  exact (State.setFs_kept _ _ hs)
theorem State.countVecs_kept (s : State) (hs : Kept Q T s) : Kept Q T (State.countVecs s) := by
  unfold State.countVecs
  exact (State.setF_kept _ _ _ hs)
theorem State.commitSpares_kept (s : State) (hs : Kept Q T s) : Kept Q T (State.commitSpares s) := by
  unfold State.commitSpares
  refine ite_kept ?_ ?_
  · exact hs
  · extract_lets +onlyGivenNames x0
    extract_lets +onlyGivenNames x1
    extract_lets +onlyGivenNames x2
    have hx2 : Kept Q T x2 := (Kept.keep hs)
    clear_value x2
    refine ite_kept ?_ ?_
    · exact hx2
    · extract_lets +onlyGivenNames x3
      have hx3 : Kept Q T x3 := (State.each_kept _ _ _ hx2 (fun _ _ k12_2 => (State.markUnit_kept _ _ _ k12_2)))
      clear_value x3
      extract_lets +onlyGivenNames x4
      have hx4 : Kept Q T x4 := (State.each_kept _ _ _ hx3 (fun _ _ k14_2 => (State.spareRaft_kept _ _ _ k14_2)))
      clear_value x4
      extract_lets +onlyGivenNames x5
      have hx5 : Kept Q T x5 := (State.each_kept _ _ _ hx4 (fun _ _ k16_2 => (State.each_kept _ _ _ k16_2 (fun _ _ k19_2 => (State.spareVec_kept _ _ _ _ k19_2)))))
      clear_value x5
      extract_lets +onlyGivenNames x6
      have hx6 : Kept Q T x6 := (State.countDec_kept _ (State.each_kept _ _ _ hx5 (fun _ _ k18_2 => (State.spareDec_kept _ _ k18_2))))
      clear_value x6
      exact (State.bumpSpareVer_kept _ (State.countVecs_kept _ hx6))
theorem State.bootChannel_kept (s : State) (a1 : ℕ × ℕ × ℕ) (hs : Kept Q T s) : Kept Q T (State.bootChannel s a1) := by
  unfold State.bootChannel
  extract_lets +onlyGivenNames x0
  extract_lets +onlyGivenNames x1
  refine ite_kept ?_ ?_
  · exact hs
  · extract_lets +onlyGivenNames x2
    extract_lets +onlyGivenNames x3
    have hx3 : Kept Q T x3 := (State.setFs_kept _ _ hs)
    clear_value x3
    refine ite_kept ?_ ?_
    · exact hx3
    · split
      · rename_i y4 y5 y6
        extract_lets +onlyGivenNames x7
        have hx7 : Kept Q T x7 := (State.setFs_kept _ _ hx3)
        clear_value x7
        exact (ite_kept (State.raiseLine_kept _ _ hx7) hx7)
      · rename_i y8 y9
        exact (State.mapOut_kept _ _ _ _ (State.raiseLine_kept _ _ hx3))
theorem State.countSpares_kept (s : State) (hs : Kept Q T s) : Kept Q T (State.countSpares s) := by
  unfold State.countSpares
  extract_lets +onlyGivenNames x0
  extract_lets +onlyGivenNames x1
  extract_lets +onlyGivenNames x2
  extract_lets +onlyGivenNames x3
  extract_lets +onlyGivenNames x4
  have hx4 : Kept Q T x4 := (State.setFs_kept _ _ hs)
  clear_value x4
  extract_lets +onlyGivenNames x5
  have hx5 : Kept Q T x5 := (State.each_kept _ _ _ hx4 (fun _ _ k14_2 => (State.setF_kept _ _ _ k14_2)))
  clear_value x5
  exact (State.countVecs_kept _ (State.countDec_kept _ (State.each_kept _ _ _ hx5 (fun _ _ k15_2 => (State.setF_kept _ _ _ k15_2)))))
theorem State.failSpare_kept (s : State) (a1 : ℕ × ℕ) (hs : Kept Q T s) : Kept Q T (State.failSpare s a1) := by
  unfold State.failSpare
  split
  · rename_i y0 y1
    exact (State.failRaft_kept _ _ _ _ hs)
  · rename_i y2 y3
    exact (State.setF_kept _ _ _ hs)
  · rename_i y4 y5
    exact (State.setF_kept _ _ _ hs)
  · rename_i y6 y7 y8 y9
    exact (State.setF_kept _ _ _ hs)
theorem State.bootError_kept (s : State) (code : ℕ) (hs : Kept Q T s) : Kept Q T (State.bootError s code) := by
  unfold State.bootError
  extract_lets +onlyGivenNames x0
  have hx0 : Kept Q T x0 := (ite_kept hs (State.setFs_kept _ _ hs))
  clear_value x0
  exact (ite_kept hx0 (State.raiseLine_kept _ _ hx0))
theorem State.endWindow_kept (s : State) (hs : Kept Q T s) : Kept Q T (State.endWindow s) := by
  unfold State.endWindow
  refine ite_kept ?_ ?_
  · extract_lets +onlyGivenNames x0
    have hx0 : Kept Q T x0 := (State.setFs_kept _ _ hs)
    clear_value x0
    exact (Kept.keep hx0)
  · exact hs
theorem State.takeManifest_kept (s : State) (m : List Byte) (hs : Kept Q T s) : Kept Q T (State.takeManifest s m) := by
  unfold State.takeManifest
  extract_lets +onlyGivenNames x0
  have hx0 : Kept Q T x0 := (State.setFs_kept _ _ hs)
  clear_value x0
  exact (Kept.keep hx0)
theorem State.writeManifest_kept (s : State) (o : List Byte) (hs : Kept Q T s) : Kept Q T (State.writeManifest s o) := by
  unfold State.writeManifest
  exact (Kept.keep hs)
theorem offerVerify_kept (obj : Option (List Byte)) (s : State) (hs : Kept Q T s) : Kept Q T (offerVerify obj s) := by
  unfold offerVerify
  split
  · rename_i y0 y1
    exact hs
  · rename_i y2 y3 y4
    extract_lets +onlyGivenNames x5
    have hx5 : Kept Q T x5 := (State.setF_kept _ _ _ hs)
    clear_value x5
    extract_lets +onlyGivenNames x6
    extract_lets +onlyGivenNames x7
    have hx7 : Kept Q T x7 := (Kept.keep hx5)
    clear_value x7
    split
    · rename_i y8 y9
      exact (State.bootError_kept _ _ hx7)
    · rename_i y10 y11 y12
      extract_lets +onlyGivenNames x13
      extract_lets +onlyGivenNames x14
      refine ite_kept ?_ ?_
      · exact (State.bootError_kept _ _ hx7)
      · refine ite_kept ?_ ?_
        · refine State.endWindow_kept _ ?_
          extract_lets +onlyGivenNames x15
          have hx15 : Kept Q T x15 := (State.setF_kept _ _ _ hx7)
          clear_value x15
          exact (Kept.keep hx15)
        · exact (ite_kept (State.takeManifest_kept _ _ (State.writeManifest_kept _ _ hx7)) hx7)
theorem State.reportCache_kept (s : State) (n : ℕ) (svn : ℕ) (valid : Bool) (hs : Kept Q T s) : Kept Q T (State.reportCache s n svn valid)
    := by
  unfold State.reportCache
  exact (ite_kept (State.setFs_kept _ _ hs) (State.setFs_kept _ _ hs))
theorem State.readHeader_kept (s : State) (n : ℕ) (hs : Kept Q T s) : Kept Q T (State.readHeader s n) := by
  unfold State.readHeader
  split
  · exact (State.reportCache_kept _ _ _ _ hs)
  · exact hs
theorem State.startCacheWrite_kept (s : State) (o : List Byte) (hs : Kept Q T s) : Kept Q T (State.startCacheWrite s o) := by
  unfold State.startCacheWrite
  split
  · rename_i y0 y1
    exact hs
  · rename_i y2 y3 y4
    extract_lets +onlyGivenNames x5
    extract_lets +onlyGivenNames x6
    extract_lets +onlyGivenNames x7
    have hx7 : Kept Q T x7 := (State.reportCache_kept _ _ _ _ hs)
    clear_value x7
    exact (Kept.keep hx7)
theorem State.trySlot_kept (s : State) (n : ℕ) (hs : Kept Q T s) : Kept Q T (State.trySlot s n) := by
  unfold State.trySlot
  refine ite_kept ?_ ?_
  · exact hs
  · split
    · rename_i y0 y1
      exact hs
    · rename_i y2 y3 y4
      extract_lets +onlyGivenNames x5
      refine ite_kept ?_ ?_
      · extract_lets +onlyGivenNames x6
        have hx6 : Kept Q T x6 := (State.setF_kept _ _ _ (State.reportCache_kept _ _ _ _ hs))
        clear_value x6
        exact (Kept.keep hx6)
      · exact (State.bootError_kept _ _ hs)
theorem bootAlias_kept (s : State) (hs : Kept Q T s) : Kept Q T (bootAlias s) := by
  unfold bootAlias
  refine ite_kept ?_ ?_
  · extract_lets +onlyGivenNames x0
    extract_lets +onlyGivenNames x1
    exact (Kept.keep hs)
  · exact hs
theorem bootCache_kept (s : State) (hs : Kept Q T s) : Kept Q T (bootCache s) := by
  unfold bootCache
  refine ite_kept ?_ ?_
  · extract_lets +onlyGivenNames x0
    extract_lets +onlyGivenNames x1
    have hx1 : Kept Q T x1 := (State.readHeader_kept _ _ (State.readHeader_kept _ _ hs))
    clear_value x1
    extract_lets +onlyGivenNames x4
    have hx4 : Kept Q T x4 := (ite_kept (State.trySlot_kept _ _ (State.trySlot_kept _ _ hx1)) (State.trySlot_kept _ _ (State.trySlot_kept _ _ hx1)))
    clear_value x4
    extract_lets +onlyGivenNames x2
    extract_lets +onlyGivenNames x3
    have hx3 : Kept Q T x3 := (State.setFs_kept _ _ hx4)
    clear_value x3
    exact (Kept.keep hx3)
  · exact hs
theorem bootConfig_kept (t0 : BootTests) (s : State) (hs : Kept Q T s) : Kept Q T (bootConfig t0 s) := by
  unfold bootConfig
  refine ite_kept ?_ ?_
  · extract_lets +onlyGivenNames x0
    have hx0 : Kept Q T x0 := by
      unfold x0
      split
      · rename_i y1 y2 y3
        exact (State.applyDecs_kept _ _ (State.applyChans_kept _ _ (State.applyLanes_kept _ _ (State.applyVecs_kept _ _ (State.applyRafts_kept _ _ hs)))))
      · rename_i y4 y5
        exact hs
    clear_value x0
    extract_lets +onlyGivenNames x6
    have hx6 : Kept Q T x6 := (State.countSpares_kept _ (State.each_kept _ _ _ hx0 (fun _ _ k11_2 => (State.failSpare_kept _ _ k11_2))))
    clear_value x6
    extract_lets +onlyGivenNames x7
    extract_lets +onlyGivenNames x8
    extract_lets +onlyGivenNames x9
    have hx9 : Kept Q T x9 := (State.checkWindow_kept _ (State.countSpares_kept _ (State.each_kept _ _ _ hx6 (fun _ _ k15_2 => (State.bootChannel_kept _ _ k15_2)))))
    clear_value x9
    extract_lets +onlyGivenNames x10
    have hx10 : Kept Q T x10 := (State.setFs_kept _ _ hx9)
    clear_value x10
    refine Kept.upd ?_ ?_ ?_ ?_ ?_ ?_ ?_
    · exact rfl
    · exact (Kept.canon hx10).loft
    · exact (Kept.canon hx10).rstore
    · exact (Kept.canon hx10).acc
    · exact (Kept.canon hx10).regs
    · exact Kept.queue hx10
    · exact Kept.clock hx10
  · exact hs
theorem bootIdentity_kept (puf : List Byte) (s : State) (hs : Kept Q T s) : Kept Q T (bootIdentity puf s) := by
  unfold bootIdentity
  refine ite_kept ?_ ?_
  · extract_lets +onlyGivenNames x0
    have hx0 : Kept Q T x0 := (State.setFs_kept _ _ hs)
    clear_value x0
    split
    · rename_i y1 y2
      extract_lets +onlyGivenNames x3
      have hx3 : Kept Q T x3 := (State.bootError_kept _ _ hx0)
      clear_value x3
      exact (Kept.keep hx3)
    · rename_i y4 y5 y6
      extract_lets +onlyGivenNames x7
      extract_lets +onlyGivenNames x8
      have hx8 : Kept Q T x8 := (State.setFs_kept _ _ hx0)
      clear_value x8
      exact (Kept.keep hx8)
  · exact hs
theorem bootLoad_kept (s : State) (hs : Kept Q T s) : Kept Q T (bootLoad s) := by
  unfold bootLoad
  refine ite_kept ?_ ?_
  · extract_lets +onlyGivenNames x0
    extract_lets +onlyGivenNames x1
    have hx1 : Kept Q T x1 := (State.setFs_kept _ _ hs)
    clear_value x1
    exact (ite_kept (State.startCacheWrite_kept _ _ hx1) hx1)
  · exact hs
theorem bootManifest_kept (s : State) (hs : Kept Q T s) : Kept Q T (bootManifest s) := by
  unfold bootManifest
  refine ite_kept ?_ ?_
  · extract_lets +onlyGivenNames x0
    have hx0 : Kept Q T x0 := (State.setF_kept _ _ _ hs)
    clear_value x0
    split
    · rename_i y1 y2
      extract_lets +onlyGivenNames x3
      have hx3 : Kept Q T x3 := (State.bootError_kept _ _ hx0)
      clear_value x3
      exact (Kept.keep hx3)
    · rename_i y4 y5 y6
      extract_lets +onlyGivenNames x7
      refine ite_kept ?_ ?_
      · exact (State.takeManifest_kept _ _ hx0)
      · extract_lets +onlyGivenNames x8
        have hx8 : Kept Q T x8 := (State.bootError_kept _ _ hx0)
        clear_value x8
        exact (Kept.keep hx8)
  · exact hs
theorem cacheWriteDone_kept (s : State) (hs : Kept Q T s) : Kept Q T (cacheWriteDone s) := by
  unfold cacheWriteDone
  extract_lets +onlyGivenNames x0
  extract_lets +onlyGivenNames x1
  have hx1 : Kept Q T x1 := (Kept.keep hs)
  clear_value x1
  split
  · rename_i y2 y3
    exact hx1
  · rename_i y4 y5 y6
    extract_lets +onlyGivenNames x7
    extract_lets +onlyGivenNames x8
    extract_lets +onlyGivenNames x9
    extract_lets +onlyGivenNames x10
    extract_lets +onlyGivenNames x11
    have hx11 : Kept Q T x11 := (State.reportCache_kept _ _ _ _ hx1)
    clear_value x11
    exact (Kept.keep hx11)
theorem writeBootCtrl_kept (v : ℕ) (s : State) (hs : Kept Q T s) : Kept Q T (writeBootCtrl v s) := by
  unfold writeBootCtrl
  refine ite_kept ?_ ?_
  · refine ite_kept ?_ ?_
    · exact (State.bootError_kept _ _ hs)
    · refine ite_kept ?_ ?_
      · exact (State.bootError_kept _ _ hs)
      · extract_lets +onlyGivenNames x0
        have hx0 : Kept Q T x0 := (State.setF_kept _ _ _ hs)
        clear_value x0
        exact (Kept.keep hx0)
  · exact hs
theorem execBootIdentity_kept (puf : List Byte) (s : State) (hs : Kept Q T s) : OutOk Q T (execBootIdentity puf s) := by
  unfold execBootIdentity
  exact (onHub_kept _ _ (fun _ k7_1 => (bootIdentity_kept _ _ k7_1)) hs)
theorem execBootManifest_kept (s : State) (hs : Kept Q T s) : OutOk Q T (execBootManifest s) := by
  unfold execBootManifest
  exact (onHub_kept _ _ (fun _ k6_1 => (bootManifest_kept _ k6_1)) hs)
theorem execBootCache_kept (s : State) (hs : Kept Q T s) : OutOk Q T (execBootCache s) := by
  unfold execBootCache
  exact (onHub_kept _ _ (fun _ k6_1 => (bootCache_kept _ k6_1)) hs)
theorem execOffer_kept (v : W32) (s : State) (hs : Kept Q T s) : OutOk Q T (execOffer v s) := by
  unfold execOffer
  exact (onHub_kept _ _ (fun _ k7_1 => (writeBootCtrl_kept _ _ k7_1)) hs)
theorem requestUpdate_kept (s : State) (hs : Kept Q T s) : Kept Q T (requestUpdate s) := by
  unfold requestUpdate
  refine ite_kept ?_ ?_
  · refine ite_kept ?_ ?_
    · extract_lets +onlyGivenNames x0
      have hx0 : Kept Q T x0 := (State.bootError_kept _ _ hs)
      clear_value x0
      exact (Kept.keep hx0)
    · exact (Kept.keep hs)
  · exact (ite_kept (Kept.keep hs) hs)
theorem execRequestUpdate_kept (s : State) (hs : Kept Q T s) : OutOk Q T (execRequestUpdate s) := by
  unfold execRequestUpdate
  exact (onHub_kept _ _ (fun _ k6_1 => (requestUpdate_kept _ k6_1)) hs)
theorem execOfferVerify_kept (obj : Option (List Byte)) (s : State) (hs : Kept Q T s) : OutOk Q T (execOfferVerify obj s) := by
  unfold execOfferVerify
  exact (onHub_kept _ _ (fun _ k7_1 => (offerVerify_kept _ _ k7_1)) hs)
theorem offerWindowClose_kept (s : State) (hs : Kept Q T s) : Kept Q T (offerWindowClose s) := by
  unfold offerWindowClose
  exact (ite_kept (State.endWindow_kept _ hs) hs)
theorem execOfferWindowClose_kept (s : State) (hs : Kept Q T s) : OutOk Q T (execOfferWindowClose s) := by
  unfold execOfferWindowClose
  exact (onHub_kept _ _ (fun _ k6_1 => (offerWindowClose_kept _ k6_1)) hs)
theorem execBootLoad_kept (s : State) (hs : Kept Q T s) : OutOk Q T (execBootLoad s) := by
  unfold execBootLoad
  exact (onHub_kept _ _ (fun _ k6_1 => (bootLoad_kept _ k6_1)) hs)
theorem execCacheWriteDone_kept (s : State) (hs : Kept Q T s) : OutOk Q T (execCacheWriteDone s) := by
  unfold execCacheWriteDone
  exact (onHub_kept _ _ (fun _ k6_1 => (cacheWriteDone_kept _ k6_1)) hs)
theorem execBootConfig_kept (t0 : BootTests) (s : State) (hs : Kept Q T s) : OutOk Q T (execBootConfig t0 s) := by
  unfold execBootConfig
  exact (onCore_kept _ _ (fun _ k7_1 => (bootConfig_kept _ _ k7_1)) hs)
theorem execBootAlias_kept (s : State) (hs : Kept Q T s) : OutOk Q T (execBootAlias s) := by
  unfold execBootAlias
  exact (onHub_kept _ _ (fun _ k6_1 => (bootAlias_kept _ k6_1)) hs)
theorem readyUp_kept (s : State) (hs : Kept Q T s) : Kept Q T (readyUp s) := by
  unfold readyUp
  refine ite_kept ?_ ?_
  · extract_lets +onlyGivenNames x0
    extract_lets +onlyGivenNames x1
    have hx1 : Kept Q T x1 := (State.setFs_kept _ _ hs)
    clear_value x1
    exact (Kept.keep hx1)
  · exact hs
theorem execReady_kept (s : State) (hs : Kept Q T s) : OutOk Q T (execReady s) := by
  unfold execReady
  exact (onHub_kept _ _ (fun _ k6_1 => (readyUp_kept _ k6_1)) hs)
theorem State.calFromPtp_kept (s : State) (time : ℕ) (hs : Kept Q T s) : Kept Q T (State.calFromPtp s time) := by
  unfold State.calFromPtp
  exact (ite_kept (State.setCalendar_kept _ _ _ hs) hs)
theorem State.setSlew_kept (s : State) (d : ℤ) (hs : Kept Q T s) : Kept Q T (State.setSlew s d) := by
  unfold State.setSlew
  exact (Kept.keep hs)
theorem State.followPtp_kept (s : State) (small : Bool) (time : ℕ) (hs : Kept Q T s) : Kept Q T (State.followPtp s small time) := by
  unfold State.followPtp
  extract_lets +onlyGivenNames x0
  refine ite_kept ?_ ?_
  · exact (State.setSlew_kept _ _ hs)
  · refine ite_kept ?_ ?_
    · extract_lets +onlyGivenNames x1
      have hx1 : Kept Q T x1 := (State.setSlew_kept _ _ (State.setF_kept _ _ _ hs))
      clear_value x1
      exact (Kept.keep hx1)
    · exact (State.setSlew_kept _ _ (State.setF_kept _ _ _ hs))
theorem State.reply_kept (s : State) (m : MgmtMsg) (hs : Kept Q T s) : Kept Q T (State.reply s m) := by
  unfold State.reply
  exact (Kept.keep hs)
theorem State.setKeys_kept (s : State) (ks : List KeyEntry) (kseq : ℕ) (hs : Kept Q T s) : Kept Q T (State.setKeys s ks kseq) := by
  unfold State.setKeys
  refine State.reply_kept _ _ ?_
  extract_lets +onlyGivenNames x0
  have hx0 : Kept Q T x0 := (State.setFs_kept _ _ hs)
  clear_value x0
  exact (Kept.keep hx0)
theorem State.signedReply_kept (s : State) (code : ℕ) (body : List Byte) (nonce : List Byte) (hs : Kept Q T s) : Kept Q T (State.signedReply
    s code body nonce) := by
  unfold State.signedReply
  extract_lets +onlyGivenNames x0
  extract_lets +onlyGivenNames x1
  exact (State.nextFree_kept _ (State.reply_kept _ _ hs))
theorem State.viaBolyel_kept (s : State) (f : State → State) (hs : Kept Q T s) (hf : ∀ x0, Kept Q T x0 → Kept Q T (f x0)) : Kept Q T
    (State.viaBolyel s f) := by
  unfold State.viaBolyel
  exact (ite_kept (hf _ hs) hs)
theorem watchdogExpiry_kept (s : State) (hs : Kept Q T s) : Kept Q T (watchdogExpiry s) := by
  unfold watchdogExpiry
  refine ite_kept ?_ ?_
  · extract_lets +onlyGivenNames x0
    have hx0 : Kept Q T x0 := (State.bump_kept _ _ _ hs)
    clear_value x0
    extract_lets +onlyGivenNames x1
    extract_lets +onlyGivenNames x2
    have hx2 : Kept Q T x2 := (State.nextFree_kept _ (Kept.keep hx0))
    clear_value x2
    exact (State.raiseLine_kept _ _ hx2)
  · exact hs
theorem execWatchdogExpiry_kept (s : State) (hs : Kept Q T s) : OutOk Q T (execWatchdogExpiry s) := by
  unfold execWatchdogExpiry
  exact (onHub_kept _ _ (fun _ k6_1 => (watchdogExpiry_kept _ k6_1)) hs)
theorem execGetVersion_kept (s : State) (hs : Kept Q T s) : OutOk Q T (execGetVersion s) := by
  unfold execGetVersion
  exact (onHub_kept _ _ (fun _ k6_1 => (State.viaBolyel_kept _ _ k6_1 (fun _ k8_1 => (State.reply_kept _ _ k8_1)))) hs)
theorem execGetCapabilities_kept (s : State) (hs : Kept Q T s) : OutOk Q T (execGetCapabilities s) := by
  unfold execGetCapabilities
  exact (onHub_kept _ _ (fun _ k6_1 => (State.viaBolyel_kept _ _ k6_1 (fun _ k8_1 => (State.reply_kept _ _ k8_1)))) hs)
theorem execNegotiateAlgorithms_kept (s : State) (hs : Kept Q T s) : OutOk Q T (execNegotiateAlgorithms s) := by
  unfold execNegotiateAlgorithms
  exact (onHub_kept _ _ (fun _ k6_1 => (State.viaBolyel_kept _ _ k6_1 (fun _ k8_1 => (State.reply_kept _ _ k8_1)))) hs)
theorem execGetDigests_kept (s : State) (hs : Kept Q T s) : OutOk Q T (execGetDigests s) := by
  unfold execGetDigests
  exact (onHub_kept _ _ (fun _ k6_1 => (State.viaBolyel_kept _ _ k6_1 (fun _ k8_1 => (State.reply_kept _ _ k8_1)))) hs)
theorem execGetCertificate_kept (off : ℕ) (len : ℕ) (s : State) (hs : Kept Q T s) : OutOk Q T (execGetCertificate off len s) := by
  unfold execGetCertificate
  exact (onHub_kept _ _ (fun _ k8_1 => (State.viaBolyel_kept _ _ k8_1 (fun _ k10_1 => (State.reply_kept _ _ k10_1)))) hs)
theorem execChallenge_kept (nonce : List Byte) (s : State) (hs : Kept Q T s) : OutOk Q T (execChallenge nonce s) := by
  unfold execChallenge
  exact (onHub_kept _ _ (fun _ k7_1 => (State.viaBolyel_kept _ _ k7_1 (fun _ k9_1 => (State.signedReply_kept _ _ _ _ k9_1)))) hs)
theorem execGetMeasurements_kept (index : ℕ) (nonce : List Byte) (s : State) (hs : Kept Q T s) : OutOk Q T (execGetMeasurements index nonce
    s) := by
  unfold execGetMeasurements
  exact (onHub_kept _ _ (fun _ k8_1 => (State.viaBolyel_kept _ _ k8_1 (fun _ k10_1 => (State.signedReply_kept _ _ _ _ k10_1)))) hs)
theorem keyAdd_kept (via : ℕ) (e : List Byte) (s : State) (hs : Kept Q T s) : Kept Q T (keyAdd via e s) := by
  unfold keyAdd
  extract_lets +onlyGivenNames x0
  extract_lets +onlyGivenNames x1
  exact (ite_kept (State.setKeys_kept _ _ _ hs) (State.reply_kept _ _ hs))
theorem execKeyAdd_kept (via : ℕ) (e : List Byte) (s : State) (hs : Kept Q T s) : OutOk Q T (execKeyAdd via e s) := by
  unfold execKeyAdd
  exact (onHub_kept _ _ (fun _ k8_1 => (State.viaBolyel_kept _ _ k8_1 (fun _ k10_1 => (keyAdd_kept _ _ _ k10_1)))) hs)
theorem keyRevoke_kept (via : ℕ) (e : List Byte) (s : State) (hs : Kept Q T s) : Kept Q T (keyRevoke via e s) := by
  unfold keyRevoke
  extract_lets +onlyGivenNames x0
  extract_lets +onlyGivenNames x1
  exact (ite_kept (State.setKeys_kept _ _ _ hs) (State.reply_kept _ _ hs))
theorem execKeyRevoke_kept (via : ℕ) (e : List Byte) (s : State) (hs : Kept Q T s) : OutOk Q T (execKeyRevoke via e s) := by
  unfold execKeyRevoke
  exact (onHub_kept _ _ (fun _ k8_1 => (State.viaBolyel_kept _ _ k8_1 (fun _ k10_1 => (keyRevoke_kept _ _ _ k10_1)))) hs)
theorem keyClear_kept (via : ℕ) (e : List Byte) (s : State) (hs : Kept Q T s) : Kept Q T (keyClear via e s) := by
  unfold keyClear
  exact (ite_kept (State.setKeys_kept _ _ _ hs) (State.reply_kept _ _ hs))
theorem execKeyClear_kept (via : ℕ) (e : List Byte) (s : State) (hs : Kept Q T s) : OutOk Q T (execKeyClear via e s) := by
  unfold execKeyClear
  exact (onHub_kept _ _ (fun _ k8_1 => (State.viaBolyel_kept _ _ k8_1 (fun _ k10_1 => (keyClear_kept _ _ _ k10_1)))) hs)
theorem firmwareUpdate_kept (o : List Byte) (s : State) (hs : Kept Q T s) : Kept Q T (firmwareUpdate o s) := by
  unfold firmwareUpdate
  extract_lets +onlyGivenNames x0
  extract_lets +onlyGivenNames x1
  exact (ite_kept (State.reply_kept _ _ (State.bootError_kept _ _ hs)) (ite_kept (State.reply_kept _ _ (State.startCacheWrite_kept _ _ hs)) (State.reply_kept _ _ (ite_kept (State.writeManifest_kept _ _ hs) hs))))
theorem execFirmwareUpdate_kept (o : List Byte) (s : State) (hs : Kept Q T s) : OutOk Q T (execFirmwareUpdate o s) := by
  unfold execFirmwareUpdate
  exact (onHub_kept _ _ (fun _ k7_1 => (State.viaBolyel_kept _ _ k7_1 (fun _ k9_1 => (firmwareUpdate_kept _ _ k9_1)))) hs)
theorem execActivateFirmware_kept (s : State) (hs : Kept Q T s) : OutOk Q T (execActivateFirmware s) := by
  unfold execActivateFirmware
  exact (onHub_kept _ _ (fun _ k6_1 => (State.viaBolyel_kept _ _ k6_1 (fun _ k8_1 => (State.reply_kept _ _ k8_1)))) hs)
theorem ptpMessage_kept (m : PtpOffset) (time : ℕ) (s : State) (hs : Kept Q T s) : Kept Q T (ptpMessage m time s) := by
  unfold ptpMessage
  extract_lets +onlyGivenNames x0
  refine ite_kept ?_ ?_
  · exact hs
  · extract_lets +onlyGivenNames x1
    have hx1 : Kept Q T x1 := (State.setF_kept _ _ _ hs)
    clear_value x1
    extract_lets +onlyGivenNames x2
    extract_lets +onlyGivenNames x3
    extract_lets +onlyGivenNames x4
    have hx4 : Kept Q T x4 := (Kept.keep hx1)
    clear_value x4
    extract_lets +onlyGivenNames x5
    have hx5 : Kept Q T x5 := (ite_kept (State.followPtp_kept _ _ _ hx4) (ite_kept (State.followPtp_kept _ _ _ (State.setF_kept _ _ _ hx4)) hx4))
    clear_value x5
    exact (State.calFromPtp_kept _ _ hx5)
theorem execPtpMessage_kept (m : PtpOffset) (time : ℕ) (s : State) (hs : Kept Q T s) : OutOk Q T (execPtpMessage m time s) := by
  unfold execPtpMessage
  exact (onHub_kept _ _ (fun _ k8_1 => (State.viaBolyel_kept _ _ k8_1 (fun _ k10_1 => (ptpMessage_kept _ _ _ k10_1)))) hs)
theorem ppsEdge_kept (s : State) (hs : Kept Q T s) : Kept Q T (ppsEdge s) := by
  unfold ppsEdge
  extract_lets +onlyGivenNames x0
  extract_lets +onlyGivenNames x1
  have hx1 : Kept Q T x1 := (Kept.keep hs)
  clear_value x1
  refine ite_kept ?_ ?_
  · extract_lets +onlyGivenNames x2
    exact (State.followPtp_kept _ _ _ hx1)
  · exact hx1
theorem execPpsEdge_kept (s : State) (hs : Kept Q T s) : OutOk Q T (execPpsEdge s) := by
  unfold execPpsEdge
  exact (onHub_kept _ _ (fun _ k6_1 => (ppsEdge_kept _ k6_1)) hs)
theorem execSpdmUnsupportedRequest_kept (code : ℕ) (s : State) (hs : Kept Q T s) : OutOk Q T (execSpdmUnsupportedRequest code s) := by
  unfold execSpdmUnsupportedRequest
  exact (onHub_kept _ _ (fun _ k7_1 => (State.viaBolyel_kept _ _ k7_1 (fun _ k9_1 => (ite_kept k9_1 (State.reply_kept _ _ k9_1))))) hs)
theorem State.noteJob_kept (s : State) (q : Req) (status : ℕ) (hs : Kept Q T s) : Kept Q T (State.noteJob s q status) := by
  unfold State.noteJob
  exact (ite_kept (Kept.keep hs) hs)
theorem State.killTag_kept (s : State) (t1 : ℕ) (tag : ℕ) (hs : Kept Q T s) : Kept Q T (State.killTag s t1 tag) := by
  unfold State.killTag
  extract_lets +onlyGivenNames x0
  exact (ite_kept (State.setTarget_kept _ _ _ hs) hs)
theorem State.countJobs_kept (s : State) (hs : Kept Q T s) : Kept Q T (State.countJobs s) := by
  unfold State.countJobs
  extract_lets +onlyGivenNames x0
  have hx0 : Kept Q T x0 := (State.setF_kept _ _ _ hs)
  clear_value x0
  split
  · rename_i y1 y2 y3
    exact (State.setFs_kept _ _ hx0)
  · rename_i y4 y5
    exact hx0
theorem State.releaseSlot_kept (s : State) (o : SvlOp) (undo : Bool) (hs : Kept Q T s) : Kept Q T (State.releaseSlot s o undo) := by
  unfold State.releaseSlot
  extract_lets +onlyGivenNames x0
  have hx0 : Kept Q T x0 := (State.clrBit_kept _ _ _ hs)
  clear_value x0
  extract_lets +onlyGivenNames x1
  have hx1 : Kept Q T x1 := (ite_kept (State.setF_kept _ _ _ hx0) hx0)
  clear_value x1
  exact (ite_kept (State.setFs_kept _ _ hx1) hx1)
theorem State.stopFill_kept (s : State) (o : SvlOp) (hs : Kept Q T s) : Kept Q T (State.stopFill s o) := by
  unfold State.stopFill
  extract_lets +onlyGivenNames x0
  have hx0 : Kept Q T x0 := (State.releaseSlot_kept _ _ _ hs)
  clear_value x0
  exact (ite_kept (State.setF_kept _ _ _ hx0) hx0)
theorem State.abortTarget_kept (s : State) (t1 : ℕ) (hs : Kept Q T s) : Kept Q T (State.abortTarget s t1) := by
  unfold State.abortTarget
  extract_lets +onlyGivenNames x0
  extract_lets +onlyGivenNames x1
  extract_lets +onlyGivenNames x2
  have hx2 : Kept Q T x2 := (State.setTarget_kept _ _ _ hs)
  clear_value x2
  extract_lets +onlyGivenNames x3
  extract_lets +onlyGivenNames x4
  extract_lets +onlyGivenNames x5
  have hx5 : Kept Q T x5 := (State.each_kept _ _ _ hx2 (fun _ _ k15_2 => (State.complete_kept _ _ _ _ (State.noteJob_kept _ _ _ (State.each_kept _ _ _ k15_2 (fun _ _ k18_2 => (State.killTag_kept _ _ _ k18_2)))))))
  clear_value x5
  extract_lets +onlyGivenNames x6
  have hx6 : Kept Q T x6 := (State.countJobs_kept _ (Kept.keep hx5))
  clear_value x6
  extract_lets +onlyGivenNames x7
  have hx7 : Kept Q T x7 := by
    unfold x7
    refine State.each_kept _ _ _ ?_ ?_
    · exact hx6
    · intro v8 v9 h10
      split
      · rename_i y11 y12 y13
        exact (State.complete_kept _ _ _ _ (State.stopFill_kept _ _ h10))
      · rename_i y14 y15
        exact (State.stopFill_kept _ _ h10)
  clear_value x7
  exact (Kept.keep hx7)
theorem State.acceptTag_kept (s : State) (t1 : ℕ) (tag : ℕ) (hs : Kept Q T s) : Kept Q T (State.acceptTag s t1 tag) := by
  unfold State.acceptTag
  extract_lets +onlyGivenNames x0
  exact (State.setTarget_kept _ _ _ hs)
theorem State.portOff_kept (s : State) (p : ℕ) (hs : Kept Q T s) : Kept Q T (State.portOff s p) := by
  unfold State.portOff
  exact (State.setPort_kept _ _ _ (State.setFs_kept _ _ hs))
theorem State.resetGutter_kept (s : State) (i : ℕ) (hs : Kept Q T s) : Kept Q T (State.resetGutter s i) := by
  unfold State.resetGutter
  exact (State.setGutter_kept _ _ _ (State.setFs_kept _ _ hs))
theorem State.actTarget_kept (s : State) (t1 : ℕ) (action : ℕ) (hs : Kept Q T s) : Kept Q T (State.actTarget s t1 action) := by
  unfold State.actTarget
  extract_lets +onlyGivenNames x0
  have hx0 : Kept Q T x0 := (ite_kept (State.portOff_kept _ _ hs) hs)
  clear_value x0
  extract_lets +onlyGivenNames x1
  have hx1 : Kept Q T x1 := (ite_kept hx0 (State.each_kept _ _ _ hx0 (fun _ _ k12_2 => (State.resetGutter_kept _ _ k12_2))))
  clear_value x1
  extract_lets +onlyGivenNames x2
  have hx2 : Kept Q T x2 := (ite_kept (State.setF_kept _ _ _ hx1) hx1)
  clear_value x2
  extract_lets +onlyGivenNames x3
  exact (State.setTarget_kept _ _ _ hx2)
theorem State.aptEntry_kept (s : State) (i : ℕ) (hs : Kept Q T s) : Kept Q T (State.aptEntry s i).2 := by
  unfold State.aptEntry
  split
  · rename_i y0 y1 y2
    dsimp only
    exact hs
  · rename_i y3 y4
    extract_lets +onlyGivenNames x5
    extract_lets +onlyGivenNames x6
    split
    · rename_i y7
      dsimp only
      unfold x5
      exact (State.readQuiet_kept _ _ _ hs)
    · rename_i y8
      dsimp only
      refine Kept.keep ?_
      unfold x5
      exact (State.readQuiet_kept _ _ _ hs)
theorem State.aptPage_kept (s : State) (a : Nat) (store err : Bool) (hs : Kept Q T s) : Kept Q T (s.aptPage a store err).2 := by
  unfold State.aptPage
  extract_lets i r
  split
  · exact hs
  · have hr : Kept Q T r.2 := State.aptEntry_kept _ _ hs
    split
    · exact hr
    · split
      · exact hr
      · split <;> exact hr
theorem State.aptFault_kept (s : State) (a : ℕ) (cause : ℕ) (hs : Kept Q T s) : Kept Q T (State.aptFault s a cause) := by
  unfold State.aptFault
  exact (ite_kept hs (State.setFs_kept _ _ hs))
theorem State.aptAccess_kept (s : State) (store err : Bool) (ps acc : List (Nat × Nat)) (hs : Kept Q T s) : Kept Q T (s.aptAccess store err
    ps acc).2 := by
  induction ps generalizing s acc with
  | nil => exact hs
  | cons x t ih =>
    unfold State.aptAccess
    split
    · rename_i c u e
      exact State.aptFault_kept _ _ _ (snd_use (State.aptPage_kept _ _ _ _ hs) e)
    · rename_i h u e
      exact ih _ _ (snd_use (State.aptPage_kept _ _ _ _ hs) e)
theorem State.evict_kept (s : State) (xs : List HostLine) (hs : Kept Q T s) : Kept Q T (State.evict s xs) := by
  unfold State.evict
  exact (Kept.keep hs)
theorem State.holdLines_kept (s : State) (a : ℕ) (bs : List Byte) (store : Bool) (hs : Kept Q T s) : Kept Q T (State.holdLines s a bs store)
    := by
  unfold State.holdLines
  extract_lets +onlyGivenNames x0
  have hx0 : Kept Q T x0 := by
    unfold x0
    refine State.each_kept _ _ _ ?_ ?_
    · exact hs
    · intro v1 v2 h3
      extract_lets +onlyGivenNames x4
      exact (Kept.keep h3)
  clear_value x0
  exact (State.evict_kept _ _ hx0)
theorem State.askLines_kept (s : State) (kind : CxlKind) (ls : List ℕ) (hs : Kept Q T s) : Kept Q T (State.askLines s kind ls) := by
  unfold State.askLines
  exact (Kept.keep hs)
theorem State.hostLoads_kept (s : State) (ps : List (Nat × Nat)) (bs : List Byte) (hs : Kept Q T s) : Kept Q T (s.hostLoads ps bs).2 := by
  induction ps generalizing s bs with
  | nil => exact hs
  | cons p t ih =>
    unfold State.hostLoads
    split
    · exact ih _ _ (State.holdLines_kept _ _ _ _ (State.askLines_kept _ _ _ hs))
    · exact ih _ _ (State.sendCxl_kept _ _ _ _ hs)
theorem State.aptLoad_kept (s : State) (a : ℕ) (n : ℕ) (far : FarAns) (hs : Kept Q T s) : Kept Q T (State.aptLoad s a n far).2 := by
  unfold State.aptLoad
  extract_lets +onlyGivenNames x0
  split
  · rename_i y1 y2 y3 y4 y5
    extract_lets +onlyGivenNames x6
    dsimp only
    unfold x6
    refine State.hostLoads_kept _ _ _ ?_
    unfold x0
    exact (State.aptAccess_kept _ _ _ _ _ hs)
  · rename_i y7 y8 y9 y10
    dsimp only
    unfold x0
    exact (State.aptAccess_kept _ _ _ _ _ hs)
theorem State.hostStores_kept (s : State) (ps : List (Nat × Nat)) (bs : List Byte) (hs : Kept Q T s) : Kept Q T (s.hostStores ps bs) := by
  induction ps generalizing s bs with
  | nil => exact hs
  | cons p t ih =>
    unfold State.hostStores
    extract_lets ls part
    split
    · exact ih _ _ (State.holdLines_kept _ _ _ _ (State.askLines_kept _ _ _ hs))
    · exact ih _ _ (Kept.keep (State.askLines_kept _ _ _ (State.askLines_kept _ _ _ hs)))
theorem State.aptStore_kept (s : State) (a : ℕ) (bs : List Byte) (far : FarAns) (hs : Kept Q T s) : Kept Q T (State.aptStore s a bs far).2
    := by
  unfold State.aptStore
  extract_lets +onlyGivenNames x0
  split
  · rename_i y1 y2
    dsimp only
    unfold x0
    exact (State.aptAccess_kept _ _ _ _ _ hs)
  · rename_i y3 y4 y5
    dsimp only
    refine State.hostStores_kept _ _ _ ?_
    unfold x0
    exact (State.aptAccess_kept _ _ _ _ _ hs)
theorem State.askSlot_kept (s : State) (r : ℕ) (hs : Kept Q T s) : Kept Q T (State.askSlot s r) := by
  unfold State.askSlot
  exact (ite_kept (State.sendCxl_kept _ _ _ _ hs) hs)
theorem State.hifFlag_kept (s : State) (f : Fld) (hs : Kept Q T s) : Kept Q T (State.hifFlag s f) := by
  unfold State.hifFlag
  exact (ite_kept hs (State.msi_kept _ _ (State.setF_kept _ _ _ hs)))
theorem State.moveWindow_kept (s : State) (hs : Kept Q T s) : Kept Q T (State.moveWindow s) := by
  unfold State.moveWindow
  refine ite_kept ?_ ?_
  · extract_lets +onlyGivenNames x0
    extract_lets +onlyGivenNames x1
    have hx1 : Kept Q T x1 := (State.setF_kept _ _ _ hs)
    clear_value x1
    exact (ite_kept (State.hifFlag_kept _ _ (State.setF_kept _ _ _ hx1)) (State.checkWindow_kept _ (Kept.keep hx1)))
  · exact hs
theorem State.funcPoweredDown_kept (s : State) (t1 : ℕ) (hs : Kept Q T s) : Kept Q T (State.funcPoweredDown s t1) := by
  unfold State.funcPoweredDown
  extract_lets +onlyGivenNames x0
  extract_lets +onlyGivenNames x1
  have hx1 : Kept Q T x1 := (State.clrBit_kept _ _ _ hs)
  clear_value x1
  exact (ite_kept (State.actTarget_kept _ _ _ hx1) hx1)
theorem State.finishQuiesce_kept (s : State) (t1 : ℕ) (hs : Kept Q T s) : Kept Q T (State.finishQuiesce s t1) := by
  unfold State.finishQuiesce
  split
  · rename_i y0 y1
    exact hs
  · rename_i y2 y3 y4 y5 y6 y7
    extract_lets +onlyGivenNames x8
    have hx8 : Kept Q T x8 := (State.actTarget_kept _ _ _ (State.abortTarget_kept _ _ hs))
    clear_value x8
    extract_lets +onlyGivenNames x9
    extract_lets +onlyGivenNames x10
    have hx10 : Kept Q T x10 := (State.setTarget_kept _ _ _ hx8)
    clear_value x10
    split
    · rename_i y11 y12
      exact (State.finish_kept _ _ _ hx10)
    · rename_i y13
      exact (ite_kept (State.funcPoweredDown_kept _ _ hx10) hx10)
theorem State.startQuiesce_kept (s : State) (t1 : ℕ) (hs : Kept Q T s) : Kept Q T (State.startQuiesce s t1) := by
  unfold State.startQuiesce
  split
  · rename_i y0 y1 y2 y3 y4
    extract_lets +onlyGivenNames x5
    extract_lets +onlyGivenNames x6
    have hx6 : Kept Q T x6 := (ite_kept (State.failCourse_kept _ _ hs) hs)
    clear_value x6
    refine ite_kept ?_ ?_
    · exact hx6
    · extract_lets +onlyGivenNames x7
      extract_lets +onlyGivenNames x8
      have hx8 : Kept Q T x8 := (State.setTarget_kept _ _ _ hx6)
      clear_value x8
      exact (ite_kept (State.finishQuiesce_kept _ _ hx8) hx8)
  · rename_i y9 y10
    exact hs
theorem State.drainQueue_kept (s : State) (t n : Nat) (hs : Kept Q T s) : Kept Q T (s.drainQueue t n) := by
  induction n generalizing s with
  | zero => exact hs
  | succ n ih =>
    unfold State.drainQueue
    split
    · extract_lets u
      have hu : Kept Q T u := State.startQuiesce_kept _ _ hs
      split
      · exact ih _ hu
      · exact hu
    · exact hs
theorem State.pumpTarget_kept (s : State) (t1 : ℕ) (hs : Kept Q T s) : Kept Q T (State.pumpTarget s t1) := by
  unfold State.pumpTarget
  exact (State.drainQueue_kept _ _ _ hs)
theorem State.mediaErr_kept (s : State) (q : Req) (code : ℕ) (cause : Bool) (sample : ℕ) (stream : ℕ) (hs : Kept Q T s) : Kept Q T
    (State.mediaErr s q code cause sample stream) := by
  unfold State.mediaErr
  exact (ite_kept hs (State.setFs_kept _ _ hs))
theorem State.releaseTag_kept (s : State) (t1 : ℕ) (tag : ℕ) (hs : Kept Q T s) : Kept Q T (State.releaseTag s t1 tag) := by
  unfold State.releaseTag
  extract_lets +onlyGivenNames x0
  exact (State.setTarget_kept _ _ _ hs)
theorem State.copyLost_kept (s : State) (o : SvlOp) (hs : Kept Q T s) : Kept Q T (State.copyLost s o) := by
  unfold State.copyLost
  extract_lets +onlyGivenNames x0
  have hx0 : Kept Q T x0 := (State.nextFree_kept _ (State.aptFault_kept _ _ _ (State.stopFill_kept _ _ hs)))
  clear_value x0
  extract_lets +onlyGivenNames x1
  have hx1 : Kept Q T x1 := (Kept.keep hx0)
  clear_value x1
  split
  · rename_i y2 y3 y4
    exact (State.complete_kept _ _ _ _ hx1)
  · rename_i y5 y6
    exact hx1
theorem State.doorbellError_kept (s : State) (f : Fld) (r : ℕ) (hs : Kept Q T s) : Kept Q T (State.doorbellError s f r) := by
  unfold State.doorbellError
  extract_lets +onlyGivenNames x0
  have hx0 : Kept Q T x0 := (State.setFs_kept _ _ hs)
  clear_value x0
  exact (ite_kept hx0 (State.msi_kept _ _ hx0))
theorem State.enableRing_kept (s : State) (r : ℕ) (hs : Kept Q T s) : Kept Q T (State.enableRing s r) := by
  unfold State.enableRing
  exact (ite_kept (State.setFs_kept _ _ hs) (State.setRing_kept _ _ _ (State.setFs_kept _ _ hs)))
theorem State.flipPage_kept (s : State) (p : ℕ) (hs : Kept Q T s) : Kept Q T (State.flipPage s p) := by
  unfold State.flipPage
  refine ite_kept ?_ ?_
  · exact (Kept.keep hs)
  · extract_lets +onlyGivenNames x0
    have hx0 : Kept Q T x0 := (State.bump_kept _ _ _ hs)
    clear_value x0
    exact (Kept.keep hx0)
theorem State.gated_kept (s : State) (a : ℕ) (f : State → State) (hs : Kept Q T s) (hf : ∀ x0, Kept Q T x0 → Kept Q T (f x0)) : Kept Q T
    (State.gated s a f) := by
  unfold State.gated
  exact (ite_kept (hf _ hs) hs)
theorem State.unbias_kept (s : State) (j : RangeJob) (hs : Kept Q T s) : Kept Q T (State.unbias s j) := by
  unfold State.unbias
  exact (Kept.keep hs)
theorem State.lendLines_kept (s : State) (off : ℕ) (n : ℕ) (hs : Kept Q T s) : Kept Q T (State.lendLines s off n) := by
  unfold State.lendLines
  exact (ite_kept (Kept.keep hs) hs)
theorem State.mediaReject_kept (s : State) (q : Req) (code : ℕ) (hs : Kept Q T s) : Kept Q T (State.mediaReject s q code) := by
  unfold State.mediaReject
  exact (State.complete_kept _ _ _ _ (State.noteJob_kept _ _ _ (State.mediaErr_kept _ _ _ _ _ _ hs)))
theorem State.noteRead_kept (s : State) (r : ℕ) (hs : Kept Q T s) : Kept Q T (State.noteRead s r) := by
  unfold State.noteRead
  exact (Kept.keep hs)
theorem State.offerLost_kept (s : State) (hs : Kept Q T s) : Kept Q T (State.offerLost s) := by
  unfold State.offerLost
  exact (ite_kept (offerVerify_kept _ _ hs) hs)
theorem State.onReq_kept (s : State) (r : ℕ) (op : ℕ) (f : Req → State → State) (hs : Kept Q T s) (hf : ∀ x0 x1, Kept Q T x1 → Kept Q T (f
    x0 x1)) : Kept Q T (State.onReq s r op f) := by
  unfold State.onReq
  split
  · rename_i y0 y1
    exact hs
  · rename_i y2 y3 y4
    exact (hf _ _ (State.markStarted_kept _ _ hs))
theorem State.queueQuiesce_kept (s : State) (t1 : ℕ) (req : Option Req) (action : ℕ) (hs : Kept Q T s) : Kept Q T (State.queueQuiesce s t1
    req action) := by
  unfold State.queueQuiesce
  extract_lets +onlyGivenNames x0
  exact (State.pumpTarget_kept _ _ (State.setTarget_kept _ _ _ hs))
theorem State.takeDescriptor_kept (s : State) (r : ℕ) (d : List W64) (hs : Kept Q T s) : Kept Q T (State.takeDescriptor s r d) := by
  unfold State.takeDescriptor
  extract_lets +onlyGivenNames x0
  extract_lets +onlyGivenNames x1
  extract_lets +onlyGivenNames x2
  extract_lets +onlyGivenNames x3
  have hx3 : Kept Q T x3 := (State.setFs_kept _ _ hs)
  clear_value x3
  extract_lets +onlyGivenNames x4
  have hx4 : Kept Q T x4 := (State.setRing_kept _ _ _ hx3)
  clear_value x4
  split
  · rename_i y5 y6
    exact (State.mediaReject_kept _ _ _ hx4)
  · rename_i y7 y8 y9 y10
    exact (State.finish_kept _ _ _ (State.noteJob_kept _ _ _ hx4))
  · rename_i y11 y12
    exact hx4
theorem State.readSlot_kept (s : State) (r : ℕ) (ans : Option (List W64)) (hs : Kept Q T s) : Kept Q T (State.readSlot s r ans) := by
  unfold State.readSlot
  extract_lets +onlyGivenNames x0
  have hx0 : Kept Q T x0 := (State.askSlot_kept _ _ hs)
  clear_value x0
  split
  · rename_i y1 y2 y3
    exact (State.takeDescriptor_kept _ _ _ hx0)
  · rename_i y4 y5
    extract_lets +onlyGivenNames x6
    exact (ite_kept (State.endRing_kept _ _ _ _ (State.setRing_kept _ _ _ hx0)) (State.setRing_kept _ _ _ (State.bump_kept _ _ _ hx0)))
theorem State.unsignal_kept (s : State) (r : ℕ) (k : ℕ) (hs : Kept Q T s) : Kept Q T (State.unsignal s r k) := by
  unfold State.unsignal
  extract_lets +onlyGivenNames x0
  refine ite_kept ?_ ?_
  · exact (State.setRing_kept _ _ _ hs)
  · refine ite_kept ?_ ?_
    · extract_lets +onlyGivenNames x1
      have hx1 : Kept Q T x1 := (State.setRing_kept _ _ _ hs)
      clear_value x1
      exact (Kept.keep hx1)
    · exact hs
theorem State.windowRead_kept (s : State) (a : ℕ) (n : ℕ) (hs : Kept Q T s) : Kept Q T (State.windowRead s a n).2.2 := by
  unfold State.windowRead
  extract_lets +onlyGivenNames x0
  extract_lets +onlyGivenNames x1
  dsimp only
  refine State.each_kept _ _ _ ?_ ?_
  · unfold x1
    exact (State.readRaw_kept _ _ _ hs)
  · intro v2 v3 h4
    exact (State.raiseLine_kept _ _ h4)
theorem State.windowWrite_kept (s : State) (a : ℕ) (bs : List Byte) (hs : Kept Q T s) : Kept Q T (State.windowWrite s a bs) := by
  unfold State.windowWrite
  extract_lets +onlyGivenNames x0
  exact (State.each_kept _ _ _ (State.mergeHbm_kept _ _ _ hs) (fun _ _ k10_2 => (State.raiseLine_kept _ _ k10_2)))
theorem aptInval_kept (r : ℕ) (s : State) (hs : Kept Q T s) : Kept Q T (aptInval r s) := by
  unfold aptInval
  refine State.onReq_kept _ _ _ _ ?_ ?_
  · exact hs
  · intro v0 v1 h2
    extract_lets +onlyGivenNames x3
    exact (ite_kept (State.finish_kept _ _ _ h2) (Kept.keep h2))
theorem aptInvalDone_kept (s : State) (hs : Kept Q T s) : Kept Q T (aptInvalDone s) := by
  unfold aptInvalDone
  split
  · rename_i y0 y1
    exact hs
  · rename_i y2 y3 y4 y5
    exact (ite_kept hs (State.finish_kept _ _ _ (Kept.keep hs)))
theorem sqDoorbell_kept (r : ℕ) (v : W64) (s : State) (hs : Kept Q T s) : Kept Q T (sqDoorbell r v s) := by
  unfold sqDoorbell
  refine ite_kept ?_ ?_
  · exact (State.doorbellError_kept _ _ _ hs)
  · refine ite_kept ?_ ?_
    · exact (State.doorbellError_kept _ _ _ hs)
    · extract_lets +onlyGivenNames x0
      extract_lets +onlyGivenNames x1
      extract_lets +onlyGivenNames x2
      extract_lets +onlyGivenNames x3
      exact (ite_kept (State.endRing_kept _ _ _ _ (State.doorbellError_kept _ _ _ hs)) (State.setRing_kept _ _ _ (State.setF_kept _ _ _ hs)))
theorem cqDoorbell_kept (r : ℕ) (v : W64) (s : State) (hs : Kept Q T s) : Kept Q T (cqDoorbell r v s) := by
  unfold cqDoorbell
  refine ite_kept ?_ ?_
  · exact (State.doorbellError_kept _ _ _ hs)
  · refine ite_kept ?_ ?_
    · exact (State.doorbellError_kept _ _ _ hs)
    · extract_lets +onlyGivenNames x0
      extract_lets +onlyGivenNames x1
      extract_lets +onlyGivenNames x2
      exact (ite_kept (State.doorbellError_kept _ _ _ hs) (State.setRing_kept _ _ _ hs))
theorem bar2Write_kept (off : ℕ) (width : ℕ) (v : W64) (s : State) (hs : Kept Q T s) : Kept Q T (bar2Write off width v s) := by
  unfold bar2Write
  extract_lets +onlyGivenNames x0
  exact (ite_kept hs (ite_kept (sqDoorbell_kept _ _ _ hs) (ite_kept (cqDoorbell_kept _ _ _ hs) (ite_kept (State.doorbellError_kept _ _ _ hs) hs))))
theorem biasSet_kept (r : ℕ) (s : State) (hs : Kept Q T s) : Kept Q T (biasSet r s) := by
  unfold biasSet
  refine State.onReq_kept _ _ _ _ ?_ ?_
  · exact hs
  · intro v0 v1 h2
    extract_lets +onlyGivenNames x3
    refine ite_kept ?_ ?_
    · exact (State.finish_kept _ _ _ h2)
    · refine ite_kept ?_ ?_
      · extract_lets +onlyGivenNames x4
        exact (Kept.keep h2)
      · exact (Kept.keep h2)
theorem biasSetDone_kept (s : State) (hs : Kept Q T s) : Kept Q T (biasSetDone s) := by
  unfold biasSetDone
  split
  · rename_i y0 y1
    exact hs
  · rename_i y2 y3 y4 y5
    extract_lets +onlyGivenNames x6
    have hx6 : Kept Q T x6 := (Kept.keep hs)
    clear_value x6
    extract_lets +onlyGivenNames x7
    have hx7 : Kept Q T x7 := (ite_kept (Kept.keep hx6) (Kept.keep hx6))
    clear_value x7
    exact (State.finish_kept _ _ _ hx7)
theorem coalesceTimeout_kept (r : ℕ) (s : State) (hs : Kept Q T s) : Kept Q T (coalesceTimeout r s) := by
  unfold coalesceTimeout
  exact (ite_kept (State.signalRing_kept _ _ hs) hs)
theorem cqWriteFail_kept (r : ℕ) (k : ℕ) (s : State) (hs : Kept Q T s) : Kept Q T (cqWriteFail r k s) := by
  unfold cqWriteFail
  extract_lets +onlyGivenNames x0
  extract_lets +onlyGivenNames x1
  extract_lets +onlyGivenNames x2
  extract_lets +onlyGivenNames x3
  refine ite_kept ?_ ?_
  · exact hs
  · extract_lets +onlyGivenNames x4
    have hx4 : Kept Q T x4 := (Kept.keep hs)
    clear_value x4
    exact (State.killCq_kept _ _ (State.unsignal_kept _ _ _ hx4))
theorem descriptorFetch_kept (r : ℕ) (ans : Option (List W64)) (s : State) (hs : Kept Q T s) : Kept Q T (descriptorFetch r ans s) := by
  unfold descriptorFetch
  exact (ite_kept (State.readSlot_kept _ _ _ (State.noteRead_kept _ _ hs)) hs)
theorem descriptorReread_kept (r : ℕ) (ans : Option (List W64)) (s : State) (hs : Kept Q T s) : Kept Q T (descriptorReread r ans s) := by
  unfold descriptorReread
  exact (ite_kept (State.readSlot_kept _ _ _ hs) hs)
theorem writeHifCtrl_kept (v : ℕ) (s : State) (hs : Kept Q T s) : Kept Q T (writeHifCtrl v s) := by
  unfold writeHifCtrl
  extract_lets +onlyGivenNames x0
  have hx0 : Kept Q T x0 := (State.setF_kept _ _ _ hs)
  clear_value x0
  refine ite_kept ?_ ?_
  · exact (State.hifFlag_kept _ _ hx0)
  · refine ite_kept ?_ ?_
    · exact hx0
    · extract_lets +onlyGivenNames x1
      have hx1 : Kept Q T x1 := (State.setF_kept _ _ _ (State.evict_kept _ _ hx0))
      clear_value x1
      exact (Kept.keep hx1)
theorem writeHdm_kept (v : ℕ) (s : State) (hs : Kept Q T s) : Kept Q T (writeHdm v s) := by
  unfold writeHdm
  exact (ite_kept (State.setFs_kept _ _ hs) (State.hifFlag_kept _ _ hs))
theorem writeFuncEn_kept (v : ℕ) (s : State) (hs : Kept Q T s) : Kept Q T (writeFuncEn v s) := by
  unfold writeFuncEn
  extract_lets +onlyGivenNames x0
  extract_lets +onlyGivenNames x1
  have hx1 : Kept Q T x1 := (State.setF_kept _ _ _ hs)
  clear_value x1
  refine State.each_kept _ _ _ ?_ ?_
  · exact hx1
  · intro v2 v3 h4
    extract_lets +onlyGivenNames x5
    exact (ite_kept (ite_kept h4 (State.queueQuiesce_kept _ _ _ _ (State.setBit_kept _ _ _ h4))) (ite_kept (ite_kept h4 (ite_kept (State.actTarget_kept _ _ _ h4) (State.queueQuiesce_kept _ _ _ _ h4))) h4))
theorem writeAttach_kept (v : ℕ) (s : State) (hs : Kept Q T s) : Kept Q T (writeAttach v s) := by
  unfold writeAttach
  exact (ite_kept (State.each_kept _ _ _ (Kept.keep hs) (fun _ _ k8_2 => (ite_kept (State.writeRec_kept _ _ k8_2) (State.bump_kept _ _ _ k8_2)))) hs)
theorem writeRingBase_kept (r : ℕ) (f : Fld) (v : ℕ) (s : State) (hs : Kept Q T s) : Kept Q T (writeRingBase r f v s) := by
  unfold writeRingBase
  exact (ite_kept hs (State.setF_kept _ _ _ hs))
theorem writeRingCfg_kept (r : ℕ) (v : ℕ) (s : State) (hs : Kept Q T s) : Kept Q T (writeRingCfg r v s) := by
  unfold writeRingCfg
  extract_lets +onlyGivenNames x0
  extract_lets +onlyGivenNames x1
  extract_lets +onlyGivenNames x2
  extract_lets +onlyGivenNames x3
  have hx3 : Kept Q T x3 := (ite_kept (State.setFs_kept _ _ hs) hs)
  clear_value x3
  extract_lets +onlyGivenNames x4
  have hx4 : Kept Q T x4 := (State.setFs_kept _ _ hx3)
  clear_value x4
  extract_lets +onlyGivenNames x5
  have hx5 : Kept Q T x5 := (State.coalesce_kept _ _ hx4)
  clear_value x5
  refine ite_kept ?_ ?_
  · exact (ite_kept hx5 (State.enableRing_kept _ _ hx5))
  · refine ite_kept ?_ ?_
    · refine ite_kept ?_ ?_
      · exact hx5
      · extract_lets +onlyGivenNames x6
        have hx6 : Kept Q T x6 := (State.setFs_kept _ _ hx5)
        clear_value x6
        exact (ite_kept (State.withdraw_kept _ hx6) hx6)
    · exact hx5
theorem execDescriptorFetch_kept (r : ℕ) (ans : Option (List W64)) (s : State) (hs : Kept Q T s) : OutOk Q T (execDescriptorFetch r ans s)
    := by
  unfold execDescriptorFetch
  exact (onHub_kept _ _ (fun _ k8_1 => (descriptorFetch_kept _ _ _ k8_1)) hs)
theorem execDescriptorReread_kept (r : ℕ) (ans : Option (List W64)) (s : State) (hs : Kept Q T s) : OutOk Q T (execDescriptorReread r ans s)
    := by
  unfold execDescriptorReread
  exact (onHub_kept _ _ (fun _ k8_1 => (descriptorReread_kept _ _ _ k8_1)) hs)
theorem execNop_kept (r : ℕ) (s : State) (hs : Kept Q T s) : OutOk Q T (execNop r s) := by
  unfold execNop
  exact (onHub_kept _ _ (fun _ k7_1 => (State.onReq_kept _ _ _ _ k7_1 (fun _ _ k10_2 => (State.finish_kept _ _ _ k10_2)))) hs)
theorem execBiasSet_kept (r : ℕ) (s : State) (hs : Kept Q T s) : OutOk Q T (execBiasSet r s) := by
  unfold execBiasSet
  exact (onHub_kept _ _ (fun _ k7_1 => (biasSet_kept _ _ k7_1)) hs)
theorem execBiasSetDone_kept (s : State) (hs : Kept Q T s) : OutOk Q T (execBiasSetDone s) := by
  unfold execBiasSetDone
  exact (onHub_kept _ _ (fun _ k6_1 => (biasSetDone_kept _ k6_1)) hs)
theorem execAptInval_kept (r : ℕ) (s : State) (hs : Kept Q T s) : OutOk Q T (execAptInval r s) := by
  unfold execAptInval
  exact (onHub_kept _ _ (fun _ k7_1 => (aptInval_kept _ _ k7_1)) hs)
theorem execAptInvalDone_kept (s : State) (hs : Kept Q T s) : OutOk Q T (execAptInvalDone s) := by
  unfold execAptInvalDone
  exact (onHub_kept _ _ (fun _ k6_1 => (aptInvalDone_kept _ k6_1)) hs)
theorem quiesce_kept (a : ℕ) (r : ℕ) (s : State) (hs : Kept Q T s) : Kept Q T (quiesce a r s) := by
  unfold quiesce
  split
  · rename_i y0 y1
    exact hs
  · rename_i y2 y3 y4
    refine ite_kept ?_ ?_
    · exact hs
    · extract_lets +onlyGivenNames x5
      have hx5 : Kept Q T x5 := (State.markStarted_kept _ _ hs)
      clear_value x5
      extract_lets +onlyGivenNames x6
      exact (ite_kept (State.finish_kept _ _ _ hx5) (State.queueQuiesce_kept _ _ _ _ hx5))
theorem execQuiesceReset_kept (r : ℕ) (s : State) (hs : Kept Q T s) : OutOk Q T (execQuiesceReset r s) := by
  unfold execQuiesceReset
  exact (onHub_kept _ _ (fun _ k7_1 => (quiesce_kept _ _ _ k7_1)) hs)
theorem execQuiescePowerDown_kept (r : ℕ) (s : State) (hs : Kept Q T s) : OutOk Q T (execQuiescePowerDown r s) := by
  unfold execQuiescePowerDown
  exact (onHub_kept _ _ (fun _ k7_1 => (quiesce_kept _ _ _ k7_1)) hs)
theorem execQuiescePowerUp_kept (r : ℕ) (s : State) (hs : Kept Q T s) : OutOk Q T (execQuiescePowerUp r s) := by
  unfold execQuiescePowerUp
  exact (onHub_kept _ _ (fun _ k7_1 => (quiesce_kept _ _ _ k7_1)) hs)
theorem quiesceDrainLimit_kept (t0 : ℕ) (s : State) (hs : Kept Q T s) : Kept Q T (quiesceDrainLimit t0 s) := by
  unfold quiesceDrainLimit
  split
  · rename_i y0 y1 y2 y3 y4
    exact (State.pumpTarget_kept _ _ (State.finishQuiesce_kept _ _ hs))
  · rename_i y5 y6
    exact hs
theorem execQuiesceDrainLimit_kept (t0 : ℕ) (s : State) (hs : Kept Q T s) : OutOk Q T (execQuiesceDrainLimit t0 s) := by
  unfold execQuiesceDrainLimit
  exact (onHub_kept _ _ (fun _ k7_1 => (quiesceDrainLimit_kept _ _ k7_1)) hs)
theorem targetReply_kept (t0 : ℕ) (tag : ℕ) (gen : ℕ) (s : State) (hs : Kept Q T s) : Kept Q T (targetReply t0 tag gen s) := by
  unfold targetReply
  extract_lets +onlyGivenNames x0
  exact (ite_kept (State.bump_kept _ _ _ (State.setTarget_kept _ _ _ hs)) (State.setTarget_kept _ _ _ hs))
theorem execTargetReply_kept (t0 : ℕ) (tag : ℕ) (gen : ℕ) (s : State) (hs : Kept Q T s) : OutOk Q T (execTargetReply t0 tag gen s) := by
  unfold execTargetReply
  exact (onHub_kept _ _ (fun _ k9_1 => (targetReply_kept _ _ _ _ k9_1)) hs)
theorem execCqWriteFail_kept (x : RecordPlace) (s : State) (hs : Kept Q T s) : OutOk Q T (execCqWriteFail x s) := by
  unfold execCqWriteFail
  exact (onHub_kept _ _ (fun _ k8_1 => (cqWriteFail_kept _ _ _ k8_1)) hs)
theorem execInterruptCoalesceTimeout_kept (r : ℕ) (s : State) (hs : Kept Q T s) : OutOk Q T (execInterruptCoalesceTimeout r s) := by
  unfold execInterruptCoalesceTimeout
  exact (onHub_kept _ _ (fun _ k7_1 => (coalesceTimeout_kept _ _ k7_1)) hs)
theorem execSqDoorbell_kept (off : ℕ) (width : ℕ) (v : W64) (s : State) (hs : Kept Q T s) : OutOk Q T (execSqDoorbell off width v s) := by
  unfold execSqDoorbell
  exact (onHub_kept _ _ (fun _ k9_1 => (bar2Write_kept _ _ _ _ k9_1)) hs)
theorem execCqDoorbell_kept (off : ℕ) (width : ℕ) (v : W64) (s : State) (hs : Kept Q T s) : OutOk Q T (execCqDoorbell off width v s) := by
  unfold execCqDoorbell
  exact (onHub_kept _ _ (fun _ k9_1 => (bar2Write_kept _ _ _ _ k9_1)) hs)
theorem execRingEnable_kept (r : ℕ) (v : W32) (s : State) (hs : Kept Q T s) : OutOk Q T (execRingEnable r v s) := by
  unfold execRingEnable
  exact (onHub_kept _ _ (fun _ k8_1 => (ite_kept (State.gated_kept _ _ _ k8_1 (fun _ k10_1 => (writeRingCfg_kept _ _ _ k10_1))) k8_1)) hs)
theorem execRingDisable_kept (r : ℕ) (v : W32) (s : State) (hs : Kept Q T s) : OutOk Q T (execRingDisable r v s) := by
  unfold execRingDisable
  exact (onHub_kept _ _ (fun _ k8_1 => (ite_kept (State.gated_kept _ _ _ k8_1 (fun _ k10_1 => (writeRingCfg_kept _ _ _ k10_1))) k8_1)) hs)
theorem ringShutdownDone_kept (r : ℕ) (s : State) (hs : Kept Q T s) : Kept Q T (ringShutdownDone r s) := by
  unfold ringShutdownDone
  refine ite_kept ?_ ?_
  · extract_lets +onlyGivenNames x0
    have hx0 : Kept Q T x0 := (State.setRing_kept _ _ _ (State.setFs_kept _ _ hs))
    clear_value x0
    exact (ite_kept (State.enableRing_kept _ _ hx0) hx0)
  · exact hs
theorem execRingShutdownDone_kept (r : ℕ) (s : State) (hs : Kept Q T s) : OutOk Q T (execRingShutdownDone r s) := by
  unfold execRingShutdownDone
  exact (onHub_kept _ _ (fun _ k7_1 => (ringShutdownDone_kept _ _ k7_1)) hs)
theorem execFuncPowerDown_kept (v : W32) (s : State) (hs : Kept Q T s) : OutOk Q T (execFuncPowerDown v s) := by
  unfold execFuncPowerDown
  exact (onHub_kept _ _ (fun _ k7_1 => (State.gated_kept _ _ _ k7_1 (fun _ k9_1 => (writeFuncEn_kept _ _ k9_1)))) hs)
theorem execFuncPowerUp_kept (v : W32) (s : State) (hs : Kept Q T s) : OutOk Q T (execFuncPowerUp v s) := by
  unfold execFuncPowerUp
  exact (onHub_kept _ _ (fun _ k7_1 => (State.gated_kept _ _ _ k7_1 (fun _ k9_1 => (writeFuncEn_kept _ _ k9_1)))) hs)
theorem execCohModeWrite_kept (v : W32) (s : State) (hs : Kept Q T s) : OutOk Q T (execCohModeWrite v s) := by
  unfold execCohModeWrite
  exact (onHub_kept _ _ (fun _ k7_1 => (State.gated_kept _ _ _ k7_1 (fun _ k9_1 => (writeHifCtrl_kept _ _ k9_1)))) hs)
theorem execHdmMoveRequest_kept (v : W64) (s : State) (hs : Kept Q T s) : OutOk Q T (execHdmMoveRequest v s) := by
  unfold execHdmMoveRequest
  exact (onHub_kept _ _ (fun _ k7_1 => (State.gated_kept _ _ _ k7_1 (fun _ k9_1 => (writeHdm_kept _ _ k9_1)))) hs)
theorem hdmHostAccess_kept (off : ℕ) (acc : HdmAccess) (s : State) (hs : Kept Q T s) : Kept Q T (hdmHostAccess off acc s) := by
  unfold hdmHostAccess
  extract_lets +onlyGivenNames x0
  extract_lets +onlyGivenNames x1
  refine ite_kept ?_ ?_
  · exact hs
  · extract_lets +onlyGivenNames x2
    have hx2 : Kept Q T x2 := (State.each_kept _ _ _ hs (fun _ _ k12_2 => (State.flipPage_kept _ _ k12_2)))
    clear_value x2
    extract_lets +onlyGivenNames x3
    split
    · rename_i y4 y5
      extract_lets +onlyGivenNames x6
      extract_lets +onlyGivenNames x7
      have hx7 : Kept Q T x7 := by
        unfold x7
        unfold x6
        exact (State.windowRead_kept _ _ _ (State.lendLines_kept _ _ _ hx2))
      clear_value x7
      exact (Kept.keep hx7)
    · rename_i y8 y9
      exact (State.windowWrite_kept _ _ _ hx2)
theorem execHdmHostAccess_kept (off : ℕ) (acc : HdmAccess) (s : State) (hs : Kept Q T s) : OutOk Q T (execHdmHostAccess off acc s) := by
  unfold execHdmHostAccess
  exact (onCore_kept _ _ (fun _ k8_1 => (hdmHostAccess_kept _ _ _ k8_1)) hs)
theorem hostLoss_kept (s : State) (hs : Kept Q T s) : Kept Q T (hostLoss s) := by
  unfold hostLoss
  refine ite_kept ?_ ?_
  · exact hs
  · extract_lets +onlyGivenNames x0
    have hx0 : Kept Q T x0 := (State.setFs_kept _ _ hs)
    clear_value x0
    extract_lets +onlyGivenNames x1
    have hx1 : Kept Q T x1 := (Kept.keep hx0)
    clear_value x1
    extract_lets +onlyGivenNames x2
    have hx2 : Kept Q T x2 := (State.setF_kept _ _ _ hx1)
    clear_value x2
    extract_lets +onlyGivenNames x3
    have hx3 : Kept Q T x3 := (ite_kept (Kept.keep hx2) (Kept.keep hx1))
    clear_value x3
    extract_lets +onlyGivenNames x4
    have hx4 : Kept Q T x4 := (State.each_kept _ _ _ hx3 (fun _ _ k16_2 => (State.copyLost_kept _ _ k16_2)))
    clear_value x4
    exact (State.holdLine_kept _ _ hx4)
theorem linkTrained_kept (o : LinkOffer) (s : State) (hs : Kept Q T s) : Kept Q T (linkTrained o s) := by
  unfold linkTrained
  refine ite_kept ?_ ?_
  · exact hs
  · split
    · rename_i y0 y1
      exact (hostLoss_kept _ hs)
    · rename_i y2 y3 y4 y5
      extract_lets +onlyGivenNames x6
      have hx6 : Kept Q T x6 := (State.setFs_kept _ _ hs)
      clear_value x6
      exact (Kept.keep hx6)
theorem execLinkTrained_kept (o : LinkOffer) (s : State) (hs : Kept Q T s) : OutOk Q T (execLinkTrained o s) := by
  unfold execLinkTrained
  exact (onHub_kept _ _ (fun _ k7_1 => (linkTrained_kept _ _ k7_1)) hs)
theorem linkLeaveL0_kept (s : State) (hs : Kept Q T s) : Kept Q T (linkLeaveL0 s) := by
  unfold linkLeaveL0
  refine ite_kept ?_ ?_
  · extract_lets +onlyGivenNames x0
    have hx0 : Kept Q T x0 := (State.setF_kept _ _ _ hs)
    clear_value x0
    exact (Kept.keep hx0)
  · exact hs
theorem execLinkLeaveL0_kept (s : State) (hs : Kept Q T s) : OutOk Q T (execLinkLeaveL0 s) := by
  unfold execLinkLeaveL0
  exact (onHub_kept _ _ (fun _ k6_1 => (linkLeaveL0_kept _ k6_1)) hs)
theorem linkDownTimeout_kept (s : State) (hs : Kept Q T s) : Kept Q T (linkDownTimeout s) := by
  unfold linkDownTimeout
  exact (ite_kept (hostLoss_kept _ hs) hs)
theorem execLinkDownTimeout_kept (s : State) (hs : Kept Q T s) : OutOk Q T (execLinkDownTimeout s) := by
  unfold execLinkDownTimeout
  exact (onHub_kept _ _ (fun _ k6_1 => (linkDownTimeout_kept _ k6_1)) hs)
theorem hostrstAssert_kept (s : State) (hs : Kept Q T s) : Kept Q T (hostrstAssert s) := by
  unfold hostrstAssert
  extract_lets +onlyGivenNames x0
  have hx0 : Kept Q T x0 := by
    unfold x0
    refine Kept.upd ?_ ?_ ?_ ?_ ?_ ?_ ?_
    · exact (Kept.canon hs).hbm
    · exact (Kept.canon hs).loft
    · exact (Kept.canon hs).rstore
    · exact (Kept.canon hs).acc
    · refine SMap.filter_rising _ _ ?_
      exact (Kept.canon hs).regs
    · exact Kept.queue hs
    · exact Kept.clock hs
  refine ite_kept ?_ ?_
  · extract_lets +onlyGivenNames x1
    have hx1 : Kept Q T x1 := (State.setFs_kept _ _ (State.offerLost_kept _ hx0))
    clear_value x1
    exact (Kept.keep hx1)
  · exact (hostLoss_kept _ hx0)
theorem execHostrstAssert_kept (s : State) (hs : Kept Q T s) : OutOk Q T (execHostrstAssert s) := by
  unfold execHostrstAssert
  exact (onHub_kept _ _ (fun _ k6_1 => (hostrstAssert_kept _ k6_1)) hs)
theorem execViralReceived_kept (s : State) (hs : Kept Q T s) : OutOk Q T (execViralReceived s) := by
  unfold execViralReceived
  exact (onHub_kept _ _ (fun _ k6_1 => (hostLoss_kept _ k6_1)) hs)
theorem hostLossSelfReset_kept (s : State) (hs : Kept Q T s) : Kept Q T (hostLossSelfReset s) := by
  unfold hostLossSelfReset
  exact (ite_kept (State.moduleReset_kept _ _ hs) hs)
theorem execHostLossSelfReset_kept (s : State) (hs : Kept Q T s) : OutOk Q T (execHostLossSelfReset s) := by
  unfold execHostLossSelfReset
  exact (onHub_kept _ _ (fun _ k6_1 => (hostLossSelfReset_kept _ k6_1)) hs)
theorem reattach_kept (s : State) (hs : Kept Q T s) : Kept Q T (reattach s) := by
  unfold reattach
  exact (ite_kept (State.dropLine_kept _ _ (State.msi_kept _ _ (State.setFs_kept _ _ hs))) hs)
theorem execReattach_kept (s : State) (hs : Kept Q T s) : OutOk Q T (execReattach s) := by
  unfold execReattach
  exact (onHub_kept _ _ (fun _ k6_1 => (reattach_kept _ k6_1)) hs)
theorem execAttachResume_kept (v : W32) (s : State) (hs : Kept Q T s) : OutOk Q T (execAttachResume v s) := by
  unfold execAttachResume
  exact (onHub_kept _ _ (fun _ k7_1 => (State.gated_kept _ _ _ k7_1 (fun _ k9_1 => (writeAttach_kept _ _ k9_1)))) hs)
theorem hostSnoop_kept (line : ℕ) (s : State) (hs : Kept Q T s) : Kept Q T (hostSnoop line s) := by
  unfold hostSnoop
  exact (ite_kept (State.evict_kept _ _ hs) hs)
theorem execHostSnoop_kept (line : ℕ) (s : State) (hs : Kept Q T s) : OutOk Q T (execHostSnoop line s) := by
  unfold execHostSnoop
  exact (onHub_kept _ _ (fun _ k7_1 => (hostSnoop_kept _ _ k7_1)) hs)

end Sys2Proof.Machine
end

