-- ==== Sys2Proof/Laws/KeptRafter.lean ====
section
/-! SUPPORT. That every operation keeps what `Kept` says: the rafters: matrix engine, streamer, vector engines, attention and the rollout cache. -/

namespace Sys2Proof.Machine

variable {Q : List Instr} {T : Nat}

theorem State.compareLoss_kept (s : State) (a n : ℕ) (hs : Kept Q T s) : Kept Q T (State.compareLoss s a n).2 := by
  unfold State.compareLoss
  extract_lets +onlyGivenNames x0 x1 x2
  dsimp only
  unfold x2
  refine State.readHbm_kept _ _ _ ?_
  unfold x1
  exact (State.readHbm_kept _ _ _ hs)
theorem State.holdStreams_kept (s : State) (hs : Kept Q T s) : Kept Q T (State.holdStreams s) := by
  unfold State.holdStreams
  exact (State.each_kept _ _ _ hs (fun _ _ k7_2 => (ite_kept (State.setBit_kept _ _ _ k7_2) (State.clrBit_kept _ _ _ k7_2))))
theorem State.countAck_kept (s : State) (hs : Kept Q T s) : Kept Q T (State.countAck s) := by
  unfold State.countAck
  exact (State.holdStreams_kept _ (State.setF_kept _ _ _ hs))
theorem State.rejectSlot_kept (s : State) (a n : ℕ) (hs : Kept Q T s) : Kept Q T (State.rejectSlot s a n) := by
  unfold State.rejectSlot
  exact (State.bump_kept _ _ _ (State.setF_kept _ _ _ hs))
theorem State.verifyLoss_kept (s : State) (hs : Kept Q T s) : Kept Q T (State.verifyLoss s) := by
  unfold State.verifyLoss
  refine ite_kept ?_ ?_
  · exact hs
  · split
    · rename_i y0 y1
      exact hs
    · rename_i y2 y3 y4 y5
      extract_lets +onlyGivenNames x6
      have hx6 : Kept Q T x6.2 := State.compareLoss_kept _ _ _ hs
      exact (ite_kept (State.failCourse_kept _ _ (State.countAck_kept _ (State.rejectSlot_kept _ _ _ (State.setF_kept _ _ _ hx6)))) hx6)
theorem State.copyLoss_kept (s : State) (hs : Kept Q T s) : Kept Q T (State.copyLoss s) := by
  unfold State.copyLoss
  split
  · rename_i y0 y1
    exact hs
  · rename_i y2 y3 y4
    refine ite_kept ?_ ?_
    · exact hs
    · extract_lets +onlyGivenNames x5
      extract_lets +onlyGivenNames x6
      have hx6 : Kept Q T x6 := by
        unfold x6
        refine State.writeHbm_kept _ _ _ ?_
        unfold x5
        exact (State.readQuiet_kept _ _ _ hs)
      clear_value x6
      extract_lets +onlyGivenNames x7
      exact (Kept.keep hx6)
theorem State.atVote_kept (s : State) (hs : Kept Q T s) : Kept Q T (State.atVote s) := by
  unfold State.atVote
  split
  · rename_i y0 y1 y2
    exact (ite_kept hs (State.verifyLoss_kept _ (State.copyLoss_kept _ hs)))
  · rename_i y3 y4
    exact hs
theorem State.setSlot_kept (s : State) (a : ℕ) (n : ℕ) (state : ℕ) (course : ℕ) (hs : Kept Q T s) : Kept Q T (State.setSlot s a n state
    course) := by
  unfold State.setSlot
  exact (State.setFs_kept _ _ hs)
theorem State.pointSince_kept (s : State) (n : ℕ) (k : ℕ) (hs : Kept Q T s) : Kept Q T (State.pointSince s n k) := by
  unfold State.pointSince
  exact (ite_kept (Kept.keep hs) (Kept.keep hs))
theorem State.readSent_kept (s : State) (a : ℕ) (n : ℕ) (hs : Kept Q T s) : Kept Q T (State.readSent s a n).2 := by
  unfold State.readSent
  extract_lets +onlyGivenNames x0
  extract_lets +onlyGivenNames x1
  split
  · rename_i y2
    dsimp only
    unfold x1
    exact (State.readQuiet_kept _ _ _ hs)
  · rename_i y3
    dsimp only
    refine State.nextFree_kept _ ?_
    unfold x1
    exact (State.readQuiet_kept _ _ _ hs)
theorem State.readSlotPoint_kept (s : State) (a : ℕ) (n : ℕ) (hs : Kept Q T s) : Kept Q T (State.readSlotPoint s a n) := by
  unfold State.readSlotPoint
  exact (State.readQuiet_kept _ _ _ hs)
theorem State.lastPhaseEnds_kept (s : State) (hs : Kept Q T s) : Kept Q T (State.lastPhaseEnds s) := by
  unfold State.lastPhaseEnds
  split
  · rename_i y0 y1 y2
    exact (ite_kept (State.atVote_kept _ hs) hs)
  · rename_i y3 y4
    exact hs
theorem State.rafterError_kept (s : State) (u : ℕ) (cnt : Fld) (cause : ℕ) (line : ℕ) (hs : Kept Q T s) : Kept Q T (State.rafterError s u
    cnt cause line) := by
  unfold State.rafterError
  exact (State.raiseLine_kept _ _ (State.requestReslate_kept _ _ _ _ (State.failRaft_kept _ _ _ _ (State.bump_kept _ _ _ hs))))
theorem State.storeUncorrectable_kept (s : State) (u : ℕ) (acc : Bool) (hs : Kept Q T s) : Kept Q T (State.storeUncorrectable s u acc) := by
  unfold State.storeUncorrectable
  exact (State.rafterError_kept _ _ _ _ _ hs)
theorem State.storeCorrected_kept (s : State) (u : ℕ) (acc : Bool) (hs : Kept Q T s) : Kept Q T (State.storeCorrected s u acc) := by
  unfold State.storeCorrected
  exact (ite_kept (State.bump_kept _ _ _ hs) (State.bump_kept _ _ _ hs))
theorem State.badWord_kept (s : State) (u : ℕ) (acc : Bool) (hard : Bool) (hs : Kept Q T s) : Kept Q T (State.badWord s u acc hard) := by
  unfold State.badWord
  exact (ite_kept (State.storeUncorrectable_kept _ _ _ hs) (State.storeCorrected_kept _ _ _ hs))
theorem State.accCheck_kept (s : State) (lr : ℕ) (k : ℕ) (n : ℕ) (hs : Kept Q T s) : Kept Q T (State.accCheck s lr k n) := by
  unfold State.accCheck
  exact (State.each_kept _ _ _ hs (fun _ _ k10_2 => (State.badWord_kept _ _ _ _ (ite_kept k10_2 (Kept.keep k10_2)))))
theorem State.injectAcc_kept (s : State) (u : ℕ) (word : ℕ) (hs : Kept Q T s) : Kept Q T (State.injectAcc s u word) := by
  unfold State.injectAcc
  split
  · rename_i y0 y1
    exact hs
  · rename_i y2 y3 y4
    extract_lets +onlyGivenNames x5
    have hx5 : Kept Q T x5 := (State.useInject_kept _ hs)
    clear_value x5
    exact (Kept.keep hx5)
theorem State.addAhead_kept (s : State) (lr : ℕ) (l : RunAhead) (hs : Kept Q T s) : Kept Q T (State.addAhead s lr l) := by
  unfold State.addAhead
  extract_lets +onlyGivenNames x0
  exact (State.setRaft_kept _ _ _ hs)
theorem State.recordProg_kept (s : State) (lr : ℕ) (code : ℕ) (hs : Kept Q T s) : Kept Q T (State.recordProg s lr code) := by
  unfold State.recordProg
  extract_lets +onlyGivenNames x0
  exact (ite_kept hs (State.setFs_kept _ _ hs))
theorem State.progError_kept (s : State) (lr : ℕ) (code : ℕ) (hs : Kept Q T s) : Kept Q T (State.progError s lr code) := by
  unfold State.progError
  split
  · rename_i y0 y1 y2
    refine ite_kept ?_ ?_
    · exact hs
    · extract_lets +onlyGivenNames x3
      have hx3 : Kept Q T x3 := (State.failCourse_kept _ _ (State.recordProg_kept _ _ _ hs))
      clear_value x3
      exact (Kept.keep hx3)
  · rename_i y4 y5
    exact hs
theorem State.advance_kept (s : State) (lr : ℕ) (hs : Kept Q T s) : Kept Q T (State.advance s lr) := by
  unfold State.advance
  extract_lets +onlyGivenNames x0
  split
  · rename_i y1 y2
    exact (State.setRaft_kept _ _ _ hs)
  · rename_i y3 y4 y5
    exact (ite_kept (State.progError_kept _ _ _ hs) (State.setRaft_kept _ _ _ hs))
theorem State.markBusy_kept (s : State) (hs : Kept Q T s) : Kept Q T (State.markBusy s) := by
  unfold State.markBusy
  split
  · rename_i y0 y1
    exact hs
  · rename_i y2 y3 y4
    extract_lets +onlyGivenNames x5
    extract_lets +onlyGivenNames x6
    extract_lets +onlyGivenNames x7
    exact (Kept.keep hs)
theorem State.rsMark_kept (s : State) (lr : ℕ) (bs : List ℕ) (hs : Kept Q T s) : Kept Q T (State.rsMark s lr bs) := by
  unfold State.rsMark
  exact (Kept.keep hs)
theorem State.injectStore_kept (s : State) (u : ℕ) (word : ℕ) (hs : Kept Q T s) : Kept Q T (State.injectStore s u word) := by
  unfold State.injectStore
  split
  · rename_i y0 y1
    exact hs
  · rename_i y2 y3 y4
    extract_lets +onlyGivenNames x5
    have hx5 : Kept Q T x5 := (State.useInject_kept _ hs)
    clear_value x5
    exact (Kept.keep hx5)
theorem State.rsPut_kept (s : State) (lr : ℕ) (a : ℕ) (bs : List Byte) (hs : Kept Q T s) : Kept Q T (State.rsPut s lr a bs) := by
  unfold State.rsPut
  refine ite_kept ?_ ?_
  · exact hs
  · refine State.injectStore_kept _ _ _ ?_
    refine Kept.upd ?_ ?_ ?_ ?_ ?_ ?_ ?_
    · exact (Kept.canon hs).hbm
    · exact (Kept.canon hs).loft
    · refine Memory.write_wf _ _ _ ?_
      exact (Kept.canon hs).rstore
    · exact (Kept.canon hs).acc
    · exact (Kept.canon hs).regs
    · exact Kept.queue hs
    · exact Kept.clock hs
theorem State.moved_kept (s : State) (ps : List Piece) (hs : Kept Q T s) : Kept Q T (State.moved s ps) := by
  unfold State.moved
  split
  · rename_i y0 y1
    exact hs
  · rename_i y2 y3 y4
    extract_lets +onlyGivenNames x5
    extract_lets +onlyGivenNames x6
    exact (Kept.keep hs)
theorem State.saveOutcome_kept (s : State) (i : ℕ) (v : ℕ) (hs : Kept Q T s) : Kept Q T (State.saveOutcome s i v) := by
  unfold State.saveOutcome
  split
  · rename_i y0 y1
    exact hs
  · rename_i y2 y3 y4
    exact (Kept.keep hs)
theorem State.setEvent_kept (s : State) (lr : ℕ) (ev : ℕ) (v : ℕ) (hs : Kept Q T s) : Kept Q T (State.setEvent s lr ev v) := by
  unfold State.setEvent
  refine ite_kept ?_ ?_
  · extract_lets +onlyGivenNames x0
    exact (State.setRaft_kept _ _ _ hs)
  · exact (ite_kept (Kept.keep hs) (Kept.keep hs))
theorem State.signal_kept (s : State) (lr : ℕ) (ev : ℕ) (hs : Kept Q T s) : Kept Q T (State.signal s lr ev) := by
  unfold State.signal
  exact (ite_kept (State.progError_kept _ _ _ hs) (State.setEvent_kept _ _ _ _ hs))
theorem State.signalOpt_kept (s : State) (lr : ℕ) (a2 : Option ℕ) (hs : Kept Q T s) : Kept Q T (State.signalOpt s lr a2) := by
  unfold State.signalOpt
  split
  · rename_i y0
    exact hs
  · rename_i y1 y2
    exact (State.signal_kept _ _ _ hs)
theorem State.putPeer_kept (s : State) (m : PeerMsg) (hs : Kept Q T s) : Kept Q T (State.putPeer s m) := by
  unfold State.putPeer
  split
  · rename_i y0 y1 y2 y3 y4 y5
    exact (ite_kept (Kept.keep hs) (Kept.keep hs))
  · rename_i y6 y7 y8
    exact hs
theorem State.askPeer_kept (s : State) (rs : List (ℕ × ℕ × ℕ)) (hs : Kept Q T s) : Kept Q T (State.askPeer s rs).2 := by
  unfold State.askPeer
  extract_lets +onlyGivenNames x0
  dsimp only
  exact (State.each_kept _ _ _ (Kept.keep hs) (fun _ _ k9_2 => (State.putPeer_kept _ _ k9_2)))
theorem State.refetch_kept (s : State) (lr : ℕ) (l : RunAhead) (p : Piece) (hs : Kept Q T s) : Kept Q T (State.refetch s lr l p) := by
  unfold State.refetch
  extract_lets +onlyGivenNames x0
  have hx0 : Kept Q T x0 := (State.bump_kept _ _ _ hs)
  clear_value x0
  extract_lets +onlyGivenNames x1
  refine ite_kept ?_ ?_
  · split
    · rename_i y2 y3 y4
      extract_lets +onlyGivenNames x5
      refine State.addAhead_kept _ _ _ ?_
      unfold x5
      exact (State.askPeer_kept _ _ hx0)
    · rename_i y6 y7
      exact (State.failCourse_kept _ _ hx0)
  · exact (State.addAhead_kept _ _ _ hx0)
theorem State.loadFailed_kept (s : State) (lr : ℕ) (l : RunAhead) (hs : Kept Q T s) : Kept Q T (State.loadFailed s lr l) := by
  unfold State.loadFailed
  split
  · rename_i y0 y1 y2
    exact (State.refetch_kept _ _ _ _ hs)
  · rename_i y3 y4
    exact (State.failCourse_kept _ _ hs)
theorem State.progTie_kept (s : State) (lr : ℕ) (run : State → State) (hs : Kept Q T s) (hrun : ∀ x0, Kept Q T x0 → Kept Q T (run x0)) :
    Kept Q T (State.progTie s lr run) := by
  unfold State.progTie
  split
  · rename_i y0 y1 y2 y3 y4 y5
    extract_lets +onlyGivenNames x6
    extract_lets +onlyGivenNames x7
    extract_lets +onlyGivenNames x8
    have hx8 : Kept Q T x8 := (hrun _ (State.setF_kept _ _ _ (Kept.keep hs)))
    clear_value x8
    split
    · rename_i y9 y10
      exact hs
    · rename_i y11 y12 y13
      refine ite_kept ?_ ?_
      · extract_lets +onlyGivenNames x14
        have hx14 : Kept Q T x14 := (State.withdrawProg_kept _ _ hs)
        clear_value x14
        extract_lets +onlyGivenNames x15
        extract_lets +onlyGivenNames x16
        extract_lets +onlyGivenNames x17
        have hx17 : Kept Q T x17 := (ite_kept (State.setFs_kept _ _ hx14) hx14)
        clear_value x17
        extract_lets +onlyGivenNames x18
        have hx18 : Kept Q T x18 := (State.amendStatus_kept _ _ _ hx17)
        clear_value x18
        exact (Kept.keep hx18)
      · exact hs
  · rename_i y19 y20 y21
    exact (hrun _ hs)
theorem State.arrayParity_kept (s : State) (u : ℕ) (hs : Kept Q T s) : Kept Q T (State.arrayParity s u) := by
  unfold State.arrayParity
  exact (State.rafterError_kept _ _ _ _ _ hs)
theorem State.rsWrite_kept (s : State) (lr : ℕ) (a : ℕ) (bs : List Byte) (hs : Kept Q T s) : Kept Q T (State.rsWrite s lr a bs) := by
  unfold State.rsWrite
  exact (State.rsMark_kept _ _ _ (State.rsPut_kept _ _ _ _ hs))
theorem State.readFailed_kept (s : State) (lr : ℕ) (i : ℕ) (hs : Kept Q T s) : Kept Q T (State.readFailed s lr i) := by
  unfold State.readFailed
  extract_lets +onlyGivenNames x0
  split
  · rename_i y1 y2
    exact hs
  · rename_i y3 y4 y5
    exact (State.markBusy_kept _ (State.loadFailed_kept _ _ _ (State.setRaft_kept _ _ _ hs)))
theorem State.dropUnread_kept (s : State) (lr : ℕ) (wr : List (ℕ × ℕ)) (hs : Kept Q T s) : Kept Q T (State.dropUnread s lr wr) := by
  unfold State.dropUnread
  refine ite_kept ?_ ?_
  · exact hs
  · extract_lets +onlyGivenNames x0
    extract_lets +onlyGivenNames x1
    exact (State.setRaft_kept _ _ _ hs)
theorem State.storeCheck_kept (s : State) (lr : ℕ) (rd : List (ℕ × ℕ)) (hs : Kept Q T s) : Kept Q T (State.storeCheck s lr rd) := by
  unfold State.storeCheck
  exact (State.each_kept _ _ _ hs (fun _ _ k9_2 => (State.badWord_kept _ _ _ _ (ite_kept k9_2 (Kept.keep k9_2)))))
theorem State.settle_kept (s : State) (lr : ℕ) (sig : Option ℕ) (hs : Kept Q T s) : Kept Q T (State.settle s lr sig) := by
  unfold State.settle
  refine ite_kept ?_ ?_
  · exact hs
  · extract_lets +onlyGivenNames x0
    have hx0 : Kept Q T x0 := (State.signalOpt_kept _ _ _ hs)
    clear_value x0
    exact (ite_kept hx0 (State.advance_kept _ _ hx0))
theorem State.issueNow_kept (s : State) (lr : ℕ) (op : ℕ) (w0 : W64) (w1 : W64) (rd : List (ℕ × ℕ)) (wr : List (ℕ × ℕ)) (body : Course →
    State → Eff) (hs : Kept Q T s) (hbody : ∀ x0 x1, Kept Q T x1 → EffOk Q T (body x0 x1)) : Kept Q T (State.issueNow s lr op w0 w1 rd wr
    body) := by
  unfold State.issueNow
  split
  · rename_i y0 y1
    exact hs
  · rename_i y2 y3 y4
    refine ite_kept ?_ ?_
    · exact (State.progError_kept _ _ _ hs)
    · refine ite_kept ?_ ?_
      · exact hs
      · split
        · rename_i y5 y6 y7
          exact (State.readFailed_kept _ _ _ hs)
        · rename_i y8 y9
          extract_lets +onlyGivenNames x10
          have hx10 : Kept Q T x10 := (State.dropUnread_kept _ _ _ (State.storeCheck_kept _ _ _ hs))
          clear_value x10
          refine ite_kept ?_ ?_
          · exact hx10
          · split
            · rename_i y11 y12 y13
              have hy12 : Kept Q T y12 := by
                refine OptOk.use ?_ (congrArg Eff.left y13)
                exact (hbody _ _ hx10)
              exact (State.settle_kept _ _ _ hy12)
            · rename_i y14 y15 y16
              have hy15 : Kept Q T y15 := by
                refine OptOk.use ?_ (congrArg Eff.left y16)
                exact (hbody _ _ hx10)
              exact (State.settle_kept _ _ _ hy15)
            · rename_i y17 y18 y19
              have hy18 : Kept Q T y18 := by
                refine OptOk.use ?_ (congrArg Eff.left y19)
                exact (hbody _ _ hx10)
              exact hy18
            · rename_i y20 y21
              exact hs
            · rename_i y22 y23 y24
              exact (State.progError_kept _ _ _ hx10)
            · rename_i y25 y26 y27 y28
              have hy26 : Kept Q T y26 := by
                refine OptOk.use ?_ (congrArg Eff.left y28)
                exact (hbody _ _ hx10)
              exact (State.failCourse_kept _ _ hy26)
theorem State.issue_kept (s : State) (lr : ℕ) (op : ℕ) (w0 : W64) (w1 : W64) (rd : List (ℕ × ℕ)) (wr : List (ℕ × ℕ)) (body : Course → State
    → Eff) (hs : Kept Q T s) (hbody : ∀ x0 x1, Kept Q T x1 → EffOk Q T (body x0 x1)) : Kept Q T (State.issue s lr op w0 w1 rd wr body) := by
  unfold State.issue
  exact (State.progTie_kept _ _ _ hs (fun _ k14_1 => (State.issueNow_kept _ _ _ _ _ _ _ _ k14_1 (fun _ _ k17_2 => (hbody _ _ k17_2)))))
theorem checked_kept (cs : List (Bool × Nat)) (e : Eff) (he : EffOk Q T e) : EffOk Q T (checked cs e) := by
  unfold checked
  split
  · exact he
  · split <;> exact OptOk.none
theorem State.countOutcome_kept (s : State) (v : ℕ) (hs : Kept Q T s) : Kept Q T (State.countOutcome s v) := by
  unfold State.countOutcome
  exact (ite_kept (State.bump_kept _ _ _ hs) (ite_kept (State.bump_kept _ _ _ hs) hs))
theorem State.loftWrite_kept (s : State) (die : ℕ) (a : ℕ) (bs : List Byte) (hs : Kept Q T s) : Kept Q T (State.loftWrite s die a bs) := by
  unfold State.loftWrite
  refine Kept.upd ?_ ?_ ?_ ?_ ?_ ?_ ?_
  · exact (Kept.canon hs).hbm
  · refine Memory.write_wf _ _ _ ?_
    exact (Kept.canon hs).loft
  · exact (Kept.canon hs).rstore
  · exact (Kept.canon hs).acc
  · exact (Kept.canon hs).regs
  · exact Kept.queue hs
  · exact Kept.clock hs
theorem State.spliceHandled_kept (s : State) (lr : ℕ) (e : Splice) (hs : Kept Q T s) : Kept Q T (State.spliceHandled s lr e) := by
  unfold State.spliceHandled
  extract_lets +onlyGivenNames x0
  exact (State.setRaft_kept _ _ _ hs)
theorem State.issueSegment_kept (s : State) (lr : ℕ) (e : Splice) (v : ℕ) (hs : Kept Q T s) : Kept Q T (State.issueSegment s lr e v) := by
  unfold State.issueSegment
  extract_lets +onlyGivenNames x0
  have hx0 : Kept Q T x0 := (State.spliceHandled_kept _ _ _ (State.countOutcome_kept _ _ (State.saveOutcome_kept _ _ _ hs)))
  clear_value x0
  extract_lets +onlyGivenNames x1
  exact (State.setRaft_kept _ _ _ hx0)
theorem State.sequencerError_kept (s : State) (u : ℕ) (hs : Kept Q T s) : Kept Q T (State.sequencerError s u) := by
  unfold State.sequencerError
  exact (State.rafterError_kept _ _ _ _ _ hs)
theorem endInstr_kept (lr : ℕ) (c : Course) (s : State) (hs : Kept Q T s) : Kept Q T (endInstr lr c s) := by
  unfold endInstr
  extract_lets +onlyGivenNames x0
  split
  · rename_i y1 y2 y3
    exact (State.setRaft_kept _ _ _ hs)
  · rename_i y4 y5
    exact (State.lastPhaseEnds_kept _ (Kept.keep hs))
theorem endProgram_kept (lr : ℕ) (w0 : W64) (w1 : W64) (s : State) (hs : Kept Q T s) : Kept Q T (endProgram lr w0 w1 s) := by
  unfold endProgram
  refine State.progTie_kept _ _ _ ?_ ?_
  · exact hs
  · intro v0 h1
    split
    · rename_i y2 y3
      exact h1
    · rename_i y4 y5 y6
      refine ite_kept ?_ ?_
      · exact (State.progError_kept _ _ _ h1)
      · extract_lets +onlyGivenNames x7
        have hx7 : Kept Q T x7 := (State.signalOpt_kept _ _ _ h1)
        clear_value x7
        split
        · rename_i y8 y9
          exact hx7
        · rename_i y10 y11 y12
          exact (endInstr_kept _ _ _ hx7)
theorem execEndProgram_kept (lr : ℕ) (w0 : W64) (w1 : W64) (s : State) (hs : Kept Q T s) : OutOk Q T (execEndProgram lr w0 w1 s) := by
  unfold execEndProgram
  exact (onCore_kept _ _ (fun _ k9_1 => (endProgram_kept _ _ _ _ k9_1)) hs)
theorem execRafterNop_kept (lr : ℕ) (w0 : W64) (w1 : W64) (s : State) (hs : Kept Q T s) : OutOk Q T (execRafterNop lr w0 w1 s) := by
  unfold execRafterNop
  exact (onCore_kept _ _ (fun _ k9_1 => (State.issue_kept _ _ _ _ _ _ _ _ k9_1 (fun _ _ k12_2 => (OptOk.some k12_2)))) hs)
theorem programFetch_kept (lr : ℕ) (s : State) (hs : Kept Q T s) : Kept Q T (programFetch lr s) := by
  unfold programFetch
  refine State.progTie_kept _ _ _ ?_ ?_
  · exact hs
  · intro v0 h1
    split
    · rename_i y2 y3
      exact h1
    · rename_i y4 y5 y6
      refine ite_kept ?_ ?_
      · exact h1
      · split
        · rename_i y7 y8
          exact h1
        · rename_i y9 y10 y11
          refine ite_kept ?_ ?_
          · exact (State.progError_kept _ _ _ h1)
          · extract_lets +onlyGivenNames x12
            refine ite_kept ?_ ?_
            · unfold x12
              exact (State.readHbm_kept _ _ _ h1)
            · extract_lets +onlyGivenNames x13
              have hx13 : Kept Q T x13 := by
                unfold x13
                refine State.setRaft_kept _ _ _ ?_
                unfold x12
                exact (State.readHbm_kept _ _ _ h1)
              clear_value x13
              split
              · rename_i y14 y15 y16
                exact (State.sequencerError_kept _ _ (State.useInject_kept _ hx13))
              · rename_i y17 y18
                exact hx13
theorem execProgramFetch_kept (lr : ℕ) (s : State) (hs : Kept Q T s) : OutOk Q T (execProgramFetch lr s) := by
  unfold execProgramFetch
  exact (onCore_kept _ _ (fun _ k7_1 => (programFetch_kept _ _ k7_1)) hs)
theorem reservedRafter_kept (lr : ℕ) (w0 : W64) (w1 : W64) (s : State) (hs : Kept Q T s) : Kept Q T (reservedRafter lr w0 w1 s) := by
  unfold reservedRafter
  refine ite_kept ?_ ?_
  · exact hs
  · refine State.progTie_kept _ _ _ ?_ ?_
    · exact hs
    · intro v0 h1
      split
      · rename_i y2 y3
        exact h1
      · rename_i y4 y5 y6
        exact (State.progError_kept _ _ _ h1)
theorem execReservedRafterOpcode_kept (lr : ℕ) (w0 : W64) (w1 : W64) (s : State) (hs : Kept Q T s) : OutOk Q T (execReservedRafterOpcode lr
    w0 w1 s) := by
  unfold execReservedRafterOpcode
  exact (onCore_kept _ _ (fun _ k9_1 => (reservedRafter_kept _ _ _ _ k9_1)) hs)
theorem State.recordInteg_kept (s : State) (lr : ℕ) (port : ℕ) (cause : ℕ) (yelm : ℕ) (hs : Kept Q T s) : Kept Q T (State.recordInteg s lr
    port cause yelm) := by
  unfold State.recordInteg
  exact (State.setFs_kept _ _ hs)
theorem State.leggettFail_kept (s : State) (lr : ℕ) (port : ℕ) (cause : ℕ) (yelm : ℕ) (hs : Kept Q T s) : Kept Q T (State.leggettFail s lr
    port cause yelm) := by
  unfold State.leggettFail
  extract_lets +onlyGivenNames x0
  have hx0 : Kept Q T x0 := (State.bump_kept _ _ _ hs)
  clear_value x0
  extract_lets +onlyGivenNames x1
  have hx1 : Kept Q T x1 := (Kept.keep hx0)
  clear_value x1
  exact (State.raiseLine_kept _ _ (ite_kept hx1 (State.recordInteg_kept _ _ _ _ _ hx1)))
theorem Delivered.use_kept (d : Delivered) (s : State) (lr : ℕ) (port : ℕ) (k : List (List ℕ) → Eff) (hs : Kept Q T s) (hk : ∀ x0, EffOk Q T
    (k x0)) : EffOk Q T (Delivered.use d s lr port k) := by
  unfold Delivered.use
  split
  · rename_i y0 y1
    exact (hk _)
  · rename_i y2 y3
    exact OptOk.none
  · rename_i y4 y5 y6
    exact (OptOk.some (State.leggettFail_kept _ _ _ _ _ hs))
theorem State.aRows_kept (s : State) (lr : ℕ) (a : ℕ) (pitch : ℕ) (fa : ℕ) (trans : ℕ) (m : ℕ) (k : ℕ) (kont : List (List ℕ) → List (List ℕ)
    → Eff) (hs : Kept Q T s) (hkont : ∀ x0 x1, EffOk Q T (kont x0 x1)) : EffOk Q T (State.aRows s lr a pitch fa trans m k kont) := by
  unfold State.aRows
  split
  · rename_i y0
    split
    · rename_i y1 y2 y3
      exact OptOk.none
    · rename_i y4 y5 y6
      exact (hkont _ _)
  · rename_i y7
    exact (Delivered.use_kept _ _ _ _ _ hs (fun _ => (hkont _ _)))
theorem State.accWrite_kept (s : State) (lr : ℕ) (u : ℕ) (n : ℕ) (rows : List (List W32)) (hs : Kept Q T s) : Kept Q T (State.accWrite s lr
    u n rows) := by
  unfold State.accWrite
  extract_lets +onlyGivenNames x0
  extract_lets +onlyGivenNames x1
  refine State.injectAcc_kept _ _ _ ?_
  refine Kept.upd ?_ ?_ ?_ ?_ ?_ ?_ ?_
  · exact (Kept.canon hs).hbm
  · exact (Kept.canon hs).loft
  · exact (Kept.canon hs).rstore
  · refine accPut_wf _ _ _ ?_
    exact (Kept.canon hs).acc
  · exact (Kept.canon hs).regs
  · exact Kept.queue hs
  · exact Kept.clock hs
theorem State.tileCheck_kept (s : State) (lr : ℕ) (u : ℕ) (t3 : SlotState) (hs : Kept Q T s) : Kept Q T (State.tileCheck s lr u t3) := by
  unfold State.tileCheck
  exact (State.accCheck_kept _ _ _ _ hs)
theorem State.injectArray_kept (s : State) (u : ℕ) (hs : Kept Q T s) : Kept Q T (State.injectArray s u) := by
  unfold State.injectArray
  split
  · rename_i y0 y1
    exact hs
  · rename_i y2 y3 y4
    exact (State.arrayParity_kept _ _ (State.useInject_kept _ hs))
theorem State.loadBlock_kept (s : State) (lr : ℕ) (b : Block) (hs : Kept Q T s) : Kept Q T (State.loadBlock s lr b) := by
  unfold State.loadBlock
  exact (State.setRaft_kept _ _ _ hs)
theorem State.ldbFp4_kept (s : State) (lr : ℕ) (a : ℕ) (pitch : ℕ) (kr : ℕ) (nc : ℕ) (hs : Kept Q T s) : EffOk Q T (State.ldbFp4 s lr a
    pitch kr nc) := by
  unfold State.ldbFp4
  extract_lets +onlyGivenNames x0
  extract_lets +onlyGivenNames x1
  extract_lets +onlyGivenNames x2
  exact (checked_kept _ _ (OptOk.some (State.injectArray_kept _ _ (State.loadBlock_kept _ _ _ hs))))
theorem State.leggettTie_kept (s : State) (lr : ℕ) (port : ℕ) (run : State → State) (hs : Kept Q T s) (hrun : ∀ x0, Kept Q T x0 → Kept Q T
    (run x0)) : Kept Q T (State.leggettTie s lr port run) := by
  unfold State.leggettTie
  split
  · rename_i y0 y1 y2 y3 y4 y5
    extract_lets +onlyGivenNames x6
    extract_lets +onlyGivenNames x7
    have hx7 : Kept Q T x7 := (hrun _ (State.setF_kept _ _ _ (Kept.keep hs)))
    clear_value x7
    refine ite_kept ?_ ?_
    · exact (hrun _ hs)
    · extract_lets +onlyGivenNames x8
      have hx8 : Kept Q T x8 := (State.bump_kept _ _ _ hs)
      clear_value x8
      extract_lets +onlyGivenNames x9
      have hx9 : Kept Q T x9 := (Kept.keep hx8)
      clear_value x9
      extract_lets +onlyGivenNames x10
      have hx10 : Kept Q T x10 := (ite_kept (State.recordInteg_kept _ _ _ _ _ hx9) hx9)
      clear_value x10
      exact (ite_kept (State.raiseLine_kept _ _ hx10) hx10)
  · rename_i y11 y12 y13
    exact (hrun _ hs)
theorem State.setStat_kept (s : State) (lr : ℕ) (i : ℕ) (dir : ℕ) (chain : Bool) (entries : List (List W32)) (hs : Kept Q T s) : Kept Q T
    (State.setStat s lr i dir chain entries) := by
  unfold State.setStat
  extract_lets +onlyGivenNames x0
  extract_lets +onlyGivenNames x1
  exact (State.setRaft_kept _ _ _ hs)
theorem State.mmStats_kept (s : State) (lr : ℕ) (a2 : MmF) (rows : List (List W32)) (n : ℕ) (hs : Kept Q T s) : Kept Q T (State.mmStats s lr
    a2 rows n) := by
  unfold State.mmStats
  extract_lets +onlyGivenNames x0
  have hx0 : Kept Q T x0 := (ite_kept (State.setStat_kept _ _ _ _ _ _ hs) hs)
  clear_value x0
  exact (ite_kept (State.setStat_kept _ _ _ _ _ _ hx0) hx0)
theorem State.setTile_kept (s : State) (lr : ℕ) (u : ℕ) (t3 : SlotState) (hs : Kept Q T s) : Kept Q T (State.setTile s lr u t3) := by
  unfold State.setTile
  extract_lets +onlyGivenNames x0
  extract_lets +onlyGivenNames x1
  extract_lets +onlyGivenNames x2
  exact (State.setRaft_kept _ _ _ hs)
theorem State.mmWrite_kept (s : State) (lr : ℕ) (a2 : MmF) (b : Block) (arows : List (List ℕ)) (ascales : List (List ℕ)) (hs : Kept Q T s) :
    Kept Q T (State.mmWrite s lr a2 b arows ascales) := by
  unfold State.mmWrite
  extract_lets +onlyGivenNames x0
  extract_lets +onlyGivenNames x1
  extract_lets +onlyGivenNames x2
  extract_lets +onlyGivenNames x3
  have hx3 : Kept Q T x3 := (State.setRaft_kept _ _ _ hs)
  clear_value x3
  extract_lets +onlyGivenNames x4
  have hx4 : Kept Q T x4 := (ite_kept (State.setTile_kept _ _ _ _ hx3) (State.setTile_kept _ _ _ _ hx3))
  clear_value x4
  exact (State.accWrite_kept _ _ _ _ _ (State.mmStats_kept _ _ _ _ _ hx4))
theorem mxLdb_kept (lr : ℕ) (w0 : W64) (w1 : W64) (s : State) (hs : Kept Q T s) : Kept Q T (mxLdb lr w0 w1 s) := by
  unfold mxLdb
  extract_lets +onlyGivenNames x0
  extract_lets +onlyGivenNames x1
  extract_lets +onlyGivenNames x2
  extract_lets +onlyGivenNames x3
  extract_lets +onlyGivenNames x4
  extract_lets +onlyGivenNames x5
  extract_lets +onlyGivenNames x6
  extract_lets +onlyGivenNames x7
  extract_lets +onlyGivenNames x8
  refine State.leggettTie_kept _ _ _ _ ?_ ?_
  · exact hs
  · intro v9 h10
    refine State.issue_kept _ _ _ _ _ _ _ _ ?_ ?_
    · exact h10
    · intro v11 v12 h13
      refine checked_kept _ _ ?_
      split
      · rename_i y14
        exact (State.ldbFp4_kept _ _ _ _ _ _ h13)
      · rename_i y15
        exact (Delivered.use_kept _ _ _ _ _ h13 (fun _ => (OptOk.some (State.injectArray_kept _ _ (State.loadBlock_kept _ _ _ h13)))))
theorem execMxLdb_kept (lr : ℕ) (w0 : W64) (w1 : W64) (s : State) (hs : Kept Q T s) : OutOk Q T (execMxLdb lr w0 w1 s) := by
  unfold execMxLdb
  exact (onCore_kept _ _ (fun _ k9_1 => (mxLdb_kept _ _ _ _ k9_1)) hs)
theorem mxMm_kept (lr : Nat) (w0 w1 : W64) (s : State) (hs : Kept Q T s) : Kept Q T (mxMm lr w0 w1 s) := by
  unfold mxMm
  extract_lets x
  refine State.leggettTie_kept _ _ _ _ hs ?_
  intro s hs
  refine State.issue_kept _ _ _ _ _ _ _ _ hs ?_
  intro c s hs
  dsimp only
  cases (s.raft lr).block with
  | none => exact OptOk.none
  | some b =>
    refine checked_kept _ _ (State.aRows_kept _ _ _ _ _ _ _ _ _ hs ?_)
    intro rows scales
    have ht : Kept Q T (match (if x.acc then s.tile lr x.slot else none) with | some t => s.tileCheck lr x.slot t | none => s) := by
      split
      · exact State.tileCheck_kept _ _ _ _ hs
      · exact hs
    exact OptOk.some (ite_kept ht (State.injectArray_kept _ _ (State.mmWrite_kept _ _ _ _ _ _ ht)))
theorem execMxMm_kept (lr : ℕ) (w0 : W64) (w1 : W64) (s : State) (hs : Kept Q T s) : OutOk Q T (execMxMm lr w0 w1 s) := by
  unfold execMxMm
  exact (onCore_kept _ _ (fun _ k9_1 => (mxMm_kept _ _ _ _ k9_1)) hs)
theorem State.addDown_kept (s : State) (lr : ℕ) (d : Downpipe) (hs : Kept Q T s) : Kept Q T (State.addDown s lr d) := by
  unfold State.addDown
  extract_lets +onlyGivenNames x0
  exact (State.setRaft_kept _ _ _ hs)
theorem State.crossBridges_kept (s : State) (n : ℕ) (p : Piece) (hs : Kept Q T s) : Kept Q T (State.crossBridges s n p) := by
  unfold State.crossBridges
  split
  · rename_i y0 y1 y2 y3
    exact (ite_kept (State.useInject_kept _ hs) hs)
  · rename_i y4 y5
    exact hs
theorem State.readHost_kept (s : State) (p : Piece) (bs : List Byte) (hs : Kept Q T s) : Kept Q T (State.readHost s p bs).2.2 := by
  unfold State.readHost
  extract_lets +onlyGivenNames x0
  extract_lets +onlyGivenNames x1
  split
  · rename_i y2 y3
    dsimp only
    unfold x1
    exact (State.aptLoad_kept _ _ _ _ hs)
  · rename_i y4 y5 y6
    split
    · rename_i y7
      dsimp only
      refine State.aptLoad_kept _ _ _ _ ?_
      unfold x1
      exact (State.aptLoad_kept _ _ _ _ hs)
    · rename_i y8
      dsimp only
      unfold x1
      exact (State.aptLoad_kept _ _ _ _ hs)
theorem State.readPiece_kept (s : State) (lr : ℕ) (p : Piece) (far : FarAns) (hs : Kept Q T s) : Kept Q T (State.readPiece s lr p far).2.2
    := by
  unfold State.readPiece
  extract_lets +onlyGivenNames x0
  have hx0 : Kept Q T x0 := (State.crossBridges_kept _ _ _ hs)
  clear_value x0
  split
  · rename_i y1 y2
    dsimp only
    exact hx0
  · rename_i y3 y4
    dsimp only
    exact hx0
  · rename_i y5 y6
    extract_lets +onlyGivenNames x7
    dsimp only
    unfold x7
    exact (State.readHbm_kept _ _ _ hx0)
  · rename_i y8 y9
    split
    · rename_i y10 y11
      exact (State.readHost_kept _ _ _ hx0)
    · rename_i y12
      dsimp only
      exact (State.aptLoad_kept _ _ _ _ hx0)
  · rename_i y13 y14 y15 y16 y17
    split
    · rename_i y18 y19
      dsimp only
      exact hx0
    · rename_i y20
      dsimp only
      exact hx0
theorem State.readPieces_kept (s : State) (lr : Nat) (far : FarAns) (ps : List Piece) (acc : List Byte) (hs : Kept Q T s) : Kept Q T
    (s.readPieces lr far ps acc).2.2 := by
  induction ps generalizing s far acc with
  | nil => exact hs
  | cons x t ih =>
    unfold State.readPieces
    extract_lets r
    have hr : Kept Q T r.2.2 := State.readPiece_kept _ _ _ _ hs
    split
    · exact hr
    · exact ih _ _ _ hr
theorem State.deliver_kept (s : State) (lr : ℕ) (near : ℕ) (bs : List Byte) (partial_ : Bool) (hs : Kept Q T s) : Kept Q T (State.deliver s
    lr near bs partial_) := by
  unfold State.deliver
  exact (State.rsMark_kept _ _ _ (State.rsPut_kept _ _ _ _ hs))
theorem State.reloaded_kept (s : State) (l : RunAhead) (hs : Kept Q T s) : Kept Q T (State.reloaded s l) := by
  unfold State.reloaded
  split
  · rename_i y0 y1 y2
    exact (ite_kept hs (State.saveOutcome_kept _ _ _ hs))
  · rename_i y3 y4
    exact hs
theorem State.endBadly_kept (s : State) (lr : ℕ) (l : RunAhead) (hs : Kept Q T s) : Kept Q T (State.endBadly s lr l) := by
  unfold State.endBadly
  exact (ite_kept hs (State.loadFailed_kept _ _ _ hs))
theorem State.endLoad_kept (s : State) (lr : ℕ) (l : RunAhead) (far : FarAns) (hs : Kept Q T s) : Kept Q T (State.endLoad s lr l far) := by
  unfold State.endLoad
  extract_lets +onlyGivenNames x0
  refine ite_kept ?_ ?_
  · unfold x0
    exact (State.readPieces_kept _ _ _ _ _ hs)
  · extract_lets +onlyGivenNames x1
    have hx1 : Kept Q T x1 := by
      unfold x1
      refine State.deliver_kept _ _ _ _ _ ?_
      unfold x0
      exact (State.readPieces_kept _ _ _ _ _ hs)
    clear_value x1
    extract_lets +onlyGivenNames x2
    have hx2 : Kept Q T x2 := (ite_kept (State.moved_kept _ _ hx1) hx1)
    clear_value x2
    refine ite_kept ?_ ?_
    · extract_lets +onlyGivenNames x3
      have hx3 : Kept Q T x3 := (ite_kept hx2 (State.reloaded_kept _ _ (State.addAhead_kept _ _ _ hx2)))
      clear_value x3
      exact (State.signalOpt_kept _ _ _ hx3)
    · exact (ite_kept (State.endBadly_kept _ _ _ hx2) (State.signalOpt_kept _ _ _ (State.addAhead_kept _ _ _ hx2)))
theorem State.takeAhead_kept (s : State) (lr : ℕ) (i : ℕ) (hs : Kept Q T s) : Kept Q T (State.takeAhead s lr i) := by
  unfold State.takeAhead
  extract_lets +onlyGivenNames x0
  exact (State.setRaft_kept _ _ _ hs)
theorem State.aheadEnd_kept (s : State) (lr : ℕ) (i : ℕ) (far : FarAns) (hs : Kept Q T s) : Kept Q T (State.aheadEnd s lr i far) := by
  unfold State.aheadEnd
  split
  · rename_i y0 y1
    exact hs
  · rename_i y2 y3 y4
    exact (ite_kept hs (State.markBusy_kept _ (State.endLoad_kept _ _ _ _ (State.takeAhead_kept _ _ _ hs))))
theorem State.askLoad_kept (s : State) (c : Course) (lr : ℕ) (l : RunAhead) (hs : Kept Q T s) : Kept Q T (State.askLoad s c lr l) := by
  unfold State.askLoad
  split
  · rename_i y0 y1 y2
    extract_lets +onlyGivenNames x3
    refine State.addAhead_kept _ _ _ ?_
    unfold x3
    exact (State.askPeer_kept _ _ hs)
  · rename_i y4 y5
    exact (State.endLoad_kept _ _ _ _ hs)
theorem State.putHost_kept (s : State) (far : FarAns) (ps : List Piece) (bs : List Byte) (hs : Kept Q T s) : Kept Q T (s.putHost far ps
    bs).2 := by
  induction ps generalizing s bs with
  | nil => exact hs
  | cons p t ih =>
    unfold State.putHost
    split
    · extract_lets r
      have hr : Kept Q T r.2 := State.aptStore_kept _ _ _ _ hs
      split
      · exact ih _ _ hr
      · exact hr
    · exact ih _ _ hs
theorem State.mapSave_kept (s : State) (i : Option ℕ) (f : SavePt → SavePt) (hs : Kept Q T s) : Kept Q T (State.mapSave s i f) := by
  unfold State.mapSave
  split
  · rename_i y0 y1 y2 y3 y4
    exact (Kept.keep hs)
  · rename_i y5 y6 y7 y8
    exact hs
theorem State.storeFailed_kept (s : State) (d : Downpipe) (hs : Kept Q T s) : Kept Q T (State.storeFailed s d) := by
  unfold State.storeFailed
  exact (ite_kept (State.mapSave_kept _ _ _ hs) (State.failCourse_kept _ _ hs))
theorem State.endStore_kept (s : State) (lr : ℕ) (d : Downpipe) (far : FarAns) (hs : Kept Q T s) : Kept Q T (State.endStore s lr d far) :=
    by
  unfold State.endStore
  extract_lets +onlyGivenNames x0
  extract_lets +onlyGivenNames x1
  extract_lets +onlyGivenNames x2
  have hx2 : Kept Q T x2 := by
    unfold x2
    refine ite_kept ?_ ?_
    · refine ite_kept ?_ ?_
      · refine State.moved_kept _ _ ?_
        unfold x0
        exact (State.putHost_kept _ _ _ _ hs)
      · unfold x0
        exact (State.putHost_kept _ _ _ _ hs)
    · refine State.storeFailed_kept _ _ ?_
      unfold x0
      exact (State.putHost_kept _ _ _ _ hs)
  clear_value x2
  exact (ite_kept hx2 (State.signalOpt_kept _ _ _ hx2))
theorem State.takeDown_kept (s : State) (lr : ℕ) (i : ℕ) (hs : Kept Q T s) : Kept Q T (State.takeDown s lr i) := by
  unfold State.takeDown
  extract_lets +onlyGivenNames x0
  exact (State.setRaft_kept _ _ _ hs)
theorem State.downEnd_kept (s : State) (lr : ℕ) (i : ℕ) (far : FarAns) (hs : Kept Q T s) : Kept Q T (State.downEnd s lr i far) := by
  unfold State.downEnd
  split
  · rename_i y0 y1
    exact hs
  · rename_i y2 y3 y4
    exact (State.markBusy_kept _ (State.endStore_kept _ _ _ _ (State.takeDown_kept _ _ _ hs)))
theorem State.tagEnd_kept (s : State) (lr : ℕ) (tag : ℕ) (far : FarAns) (hs : Kept Q T s) : Kept Q T (State.tagEnd s lr tag far) := by
  unfold State.tagEnd
  split
  · rename_i y0 y1 y2
    exact (State.downEnd_kept _ _ _ _ hs)
  · rename_i y3 y4
    split
    · rename_i y5 y6 y7
      exact (State.aheadEnd_kept _ _ _ _ hs)
    · rename_i y8 y9
      exact hs
theorem State.peerEnd_kept (s : State) (tag : ℕ) (far : FarAns) (hs : Kept Q T s) : Kept Q T (State.peerEnd s tag far) := by
  unfold State.peerEnd
  exact (State.each_kept _ _ _ (Kept.keep hs) (fun _ _ k9_2 => (State.tagEnd_kept _ _ _ _ k9_2)))
theorem State.strandPeer_kept (s : State) (pos : ℕ) (hs : Kept Q T s) : Kept Q T (State.strandPeer s pos) := by
  unfold State.strandPeer
  split
  · rename_i y0 y1
    exact hs
  · rename_i y2 y3 y4
    exact (ite_kept hs (State.each_kept _ _ _ hs (fun _ _ k13_2 => (ite_kept k13_2 (State.peerEnd_kept _ _ _ k13_2)))))
theorem State.cancelLoad_kept (s : State) (lr : ℕ) (i : ℕ) (got : ℕ × List Byte) (hs : Kept Q T s) : Kept Q T (State.cancelLoad s lr i got)
    := by
  unfold State.cancelLoad
  split
  · rename_i y0 y1
    exact hs
  · rename_i y2 y3 y4
    split
    · rename_i y5 y6
      exact hs
    · rename_i y7 y8 y9
      extract_lets +onlyGivenNames x10
      extract_lets +onlyGivenNames x11
      extract_lets +onlyGivenNames x12
      have hx12 : Kept Q T x12 := by
        unfold x12
        refine State.setRaft_kept _ _ _ ?_
        unfold x10
        exact (State.readPieces_kept _ _ _ _ _ hs)
      clear_value x12
      exact (ite_kept hx12 (State.signalOpt_kept _ _ _ (State.moved_kept _ _ (State.deliver_kept _ _ _ _ _ hx12))))
theorem State.tableFor_kept (s : State) (lr : ℕ) (d : ThD) (rows : List (List ℕ)) (hs : Kept Q T s) : Kept Q T (State.tableFor s lr d
    rows).2.2 := by
  unfold State.tableFor
  split
  · rename_i y0
    dsimp only
    exact hs
  · rename_i y1
    extract_lets +onlyGivenNames x2
    extract_lets +onlyGivenNames x3
    have hx3 : Kept Q T x3 := (State.bump_kept _ _ _ hs)
    clear_value x3
    split
    · rename_i y4
      extract_lets +onlyGivenNames x5
      extract_lets +onlyGivenNames x6
      dsimp only
      exact (State.setRaft_kept _ _ _ hx3)
    · rename_i y7
      dsimp only
      exact hx3
theorem State.compress_kept (s : State) (lr : ℕ) (d : ThD) (rows : List (List ℕ)) (kept : Bool) (hs : Kept Q T s) : Kept Q T (State.compress
    s lr d rows kept).2 := by
  unfold State.compress
  extract_lets +onlyGivenNames x0
  extract_lets +onlyGivenNames x1
  extract_lets +onlyGivenNames x2
  have hx2 : Kept Q T x2 := by
    unfold x2
    refine State.bump_kept _ _ _ ?_
    unfold x0
    exact (State.tableFor_kept _ _ _ _ hs)
  clear_value x2
  split
  · rename_i y3
    dsimp only
    exact hx2
  · rename_i y4
    extract_lets +onlyGivenNames x5
    have hx5 : Kept Q T x5 := (State.bump_kept _ _ _ hx2)
    clear_value x5
    extract_lets +onlyGivenNames x6
    have hx6 : Kept Q T x6 := (State.bump_kept _ _ _ (State.bump_kept _ _ _ (State.bump_kept _ _ _ hx5)))
    clear_value x6
    dsimp only
    exact (State.setF_kept _ _ _ hx6)
theorem State.writePiece_kept (s : State) (lr : ℕ) (p : Piece) (bs : List Byte) (hs : Kept Q T s) : Kept Q T (State.writePiece s lr p bs) :=
    by
  unfold State.writePiece
  extract_lets +onlyGivenNames x0
  have hx0 : Kept Q T x0 := (State.crossBridges_kept _ _ _ hs)
  clear_value x0
  split
  · rename_i y1 y2
    exact (State.rsWrite_kept _ _ _ _ hx0)
  · rename_i y3 y4
    exact (State.loftWrite_kept _ _ _ _ hx0)
  · rename_i y5 y6
    exact (State.writeHbm_kept _ _ _ hx0)
  · rename_i y7 y8 y9 y10
    exact hx0
theorem State.writePieces_kept (s : State) (lr : Nat) (ps : List Piece) (bs : List Byte) (hs : Kept Q T s) : Kept Q T (s.writePieces lr ps
    bs) := by
  induction ps generalizing s bs with
  | nil => exact hs
  | cons p t ih => exact ih _ _ (State.writePiece_kept _ _ _ _ hs)
theorem State.tellPeer_kept (s : State) (rs : List (ℕ × ℕ × ℕ)) (bs : List Byte) (hs : Kept Q T s) : Kept Q T (State.tellPeer s rs bs).2 :=
    by
  unfold State.tellPeer
  extract_lets +onlyGivenNames x0
  dsimp only
  exact (State.each_kept _ _ _ (Kept.keep hs) (fun _ _ k10_2 => (State.putPeer_kept _ _ k10_2)))
theorem State.sendStore_kept (s : State) (c : Course) (lr : ℕ) (d : Downpipe) (hs : Kept Q T s) : Kept Q T (State.sendStore s c lr d) := by
  unfold State.sendStore
  split
  · rename_i y0 y1 y2
    extract_lets +onlyGivenNames x3
    refine State.addDown_kept _ _ _ ?_
    unfold x3
    exact (State.tellPeer_kept _ _ _ hs)
  · rename_i y4 y5
    exact (State.endStore_kept _ _ _ _ hs)
theorem State.storeOut_kept (s : State) (c : Course) (lr : ℕ) (a3 : StF) (w0 : W64) (bs : List Byte) (far : FarAns) (hs : Kept Q T s) :
    EffOk Q T (State.storeOut s c lr a3 w0 bs far) := by
  unfold State.storeOut
  extract_lets +onlyGivenNames x0
  extract_lets +onlyGivenNames x1
  extract_lets +onlyGivenNames x2
  extract_lets +onlyGivenNames x3
  split
  · rename_i y4
    exact OptOk.none
  · rename_i y5
    extract_lets +onlyGivenNames x6
    have hx6 : Kept Q T x6 := (State.bump_kept _ _ _ hs)
    clear_value x6
    extract_lets +onlyGivenNames x7
    have hx7 : Kept Q T x7 := (State.mapSave_kept _ _ _ hx6)
    clear_value x7
    extract_lets +onlyGivenNames x8
    have hx8 : Kept Q T x8 := (State.writePieces_kept _ _ _ _ hx7)
    clear_value x8
    extract_lets +onlyGivenNames x9
    split
    · rename_i y10
      exact (OptOk.some hx8)
    · rename_i y11
      split
      · rename_i y12
        exact (OptOk.some (State.markBusy_kept _ (State.sendStore_kept _ _ _ _ hx8)))
      · rename_i y13
        split
        · rename_i y14
          exact (OptOk.some (State.markBusy_kept _ (State.addDown_kept _ _ _ hx8)))
        · rename_i y15
          exact (OptOk.some (State.markBusy_kept _ (State.endStore_kept _ _ _ _ hx8)))
theorem State.storeSection_kept (s : State) (c : Course) (lr : ℕ) (a3 : StF) (w0 : W64) (d : ThD) (rows : List (List ℕ)) (far : FarAns) (hs
    : Kept Q T s) : EffOk Q T (State.storeSection s c lr a3 w0 d rows far) := by
  unfold State.storeSection
  extract_lets +onlyGivenNames x0
  refine State.storeOut_kept _ _ _ _ _ _ _ ?_
  unfold x0
  exact (State.compress_kept _ _ _ _ _ hs)
theorem State.drainInstr_kept (s : State) (c : Course) (lr : ℕ) (a3 : StF) (w0 : W64) (far : FarAns) (hs : Kept Q T s) : EffOk Q T
    (State.drainInstr s c lr a3 w0 far) := by
  unfold State.drainInstr
  extract_lets +onlyGivenNames x0
  extract_lets +onlyGivenNames x1
  split
  · rename_i y2 y3
    exact OptOk.none
  · rename_i y4 y5 y6
    extract_lets +onlyGivenNames x7
    extract_lets +onlyGivenNames x8
    refine checked_kept _ _ ?_
    extract_lets +onlyGivenNames x9
    have hx9 : Kept Q T x9 := (State.tileCheck_kept _ _ _ _ hs)
    clear_value x9
    split
    · rename_i y10
      exact (OptOk.some hx9)
    · rename_i y11
      split
      · rename_i y12
        exact (State.storeSection_kept _ _ _ _ _ _ _ _ hx9)
      · rename_i y13
        exact (State.storeOut_kept _ _ _ _ _ _ _ hx9)
theorem State.flushPeer_kept (s : State) (pos : ℕ) (hs : Kept Q T s) : Kept Q T (State.flushPeer s pos) := by
  unfold State.flushPeer
  extract_lets +onlyGivenNames x0
  exact (Kept.keep hs)
theorem State.spliceLate_kept (s : State) (lr : ℕ) (e : Splice) (got : List (ℕ × List Byte)) (hs : Kept Q T s) : Kept Q T (State.spliceLate
    s lr e got) := by
  unfold State.spliceLate
  extract_lets +onlyGivenNames x0
  extract_lets +onlyGivenNames x1
  have hx1 : Kept Q T x1 := (State.markBusy_kept _ (State.each_kept _ _ _ hs (fun _ _ k12_2 => (State.cancelLoad_kept _ _ _ _ k12_2))))
  clear_value x1
  exact (ite_kept hx1 (State.issueSegment_kept _ _ _ _ hx1))
theorem State.storeComp_kept (s : State) (c : Course) (lr : ℕ) (a3 : StF) (w0 : W64) (far : FarAns) (hs : Kept Q T s) : EffOk Q T
    (State.storeComp s c lr a3 w0 far) := by
  unfold State.storeComp
  split
  · rename_i y0
    exact OptOk.none
  · rename_i y1
    extract_lets +onlyGivenNames x2
    exact (checked_kept _ _ (State.storeSection_kept _ _ _ _ _ _ _ _ hs))
theorem State.storeInstr_kept (s : State) (c : Course) (lr : ℕ) (a3 : StF) (w0 : W64) (far : FarAns) (hs : Kept Q T s) : EffOk Q T
    (State.storeInstr s c lr a3 w0 far) := by
  unfold State.storeInstr
  split
  · rename_i y0
    exact (State.storeComp_kept _ _ _ _ _ _ hs)
  · rename_i y1
    exact (checked_kept _ _ (State.storeOut_kept _ _ _ _ _ _ _ hs))
theorem atSplice_kept (lr : ℕ) (s : State) (hs : Kept Q T s) : Kept Q T (atSplice lr s) := by
  unfold atSplice
  split
  · rename_i y0 y1
    exact hs
  · rename_i y2 y3 y4
    refine ite_kept ?_ ?_
    · exact hs
    · split
      · rename_i y5 y6
        exact hs
      · rename_i y7 y8 y9
        split
        · rename_i y10 y11
          exact hs
        · rename_i y12 y13 y14
          extract_lets +onlyGivenNames x15
          exact (ite_kept (State.issueSegment_kept _ _ _ _ hs) (ite_kept (State.issueSegment_kept _ _ _ _ hs) (ite_kept (State.issueSegment_kept _ _ _ _ hs) (ite_kept hs (ite_kept (State.spliceHandled_kept _ _ _ (State.saveOutcome_kept _ _ _ hs)) (State.spliceLate_kept _ _ _ _ hs))))))
theorem downpipeAck_kept (lr : ℕ) (s : State) (hs : Kept Q T s) : Kept Q T (downpipeAck lr s) := by
  unfold downpipeAck
  exact (ite_kept hs (State.downEnd_kept _ _ _ _ hs))
theorem stLoad_kept (runAhead : Bool) (lr : ℕ) (w0 : W64) (w1 : W64) (far : FarAns) (s : State) (hs : Kept Q T s) : Kept Q T (stLoad
    runAhead lr w0 w1 far s) := by
  unfold stLoad
  extract_lets +onlyGivenNames x0
  refine ite_kept ?_ ?_
  · exact hs
  · refine State.issue_kept _ _ _ _ _ _ _ _ ?_ ?_
    · exact hs
    · intro v1 v2 h3
      refine checked_kept _ _ ?_
      extract_lets +onlyGivenNames x4
      split
      · rename_i y5
        exact OptOk.none
      · rename_i y6
        split
        · rename_i y7
          exact (OptOk.some (State.markBusy_kept _ (State.askLoad_kept _ _ _ _ h3)))
        · rename_i y8
          split
          · rename_i y9
            exact (OptOk.some (State.markBusy_kept _ (State.addAhead_kept _ _ _ h3)))
          · rename_i y10
            exact (OptOk.some (State.markBusy_kept _ (State.endLoad_kept _ _ _ _ h3)))
theorem execStLoad_kept (lr : ℕ) (w0 : W64) (w1 : W64) (far : FarAns) (s : State) (hs : Kept Q T s) : OutOk Q T (execStLoad lr w0 w1 far s)
    := by
  unfold execStLoad
  exact (onCore_kept _ _ (fun _ k10_1 => (stLoad_kept _ _ _ _ _ _ k10_1)) hs)
theorem execStLoadRunahead_kept (lr : ℕ) (w0 : W64) (w1 : W64) (s : State) (hs : Kept Q T s) : OutOk Q T (execStLoadRunahead lr w0 w1 s) :=
    by
  unfold execStLoadRunahead
  exact (onCore_kept _ _ (fun _ k9_1 => (stLoad_kept _ _ _ _ _ _ k9_1)) hs)
theorem runaheadLoadEnd_kept (lr : ℕ) (near : ℕ) (far : FarAns) (s : State) (hs : Kept Q T s) : Kept Q T (runaheadLoadEnd lr near far s) :=
    by
  unfold runaheadLoadEnd
  refine ite_kept ?_ ?_
  · exact hs
  · extract_lets +onlyGivenNames x0
    split
    · rename_i y1 y2
      exact hs
    · rename_i y3 y4 y5
      split
      · rename_i y6 y7
        exact hs
      · rename_i y8 y9 y10
        exact (State.markBusy_kept _ (State.endLoad_kept _ _ _ _ (State.takeAhead_kept _ _ _ hs)))
theorem execRunaheadLoadEnd_kept (lr : ℕ) (near : ℕ) (far : FarAns) (s : State) (hs : Kept Q T s) : OutOk Q T (execRunaheadLoadEnd lr near
    far s) := by
  unfold execRunaheadLoadEnd
  exact (onCore_kept _ _ (fun _ k9_1 => (runaheadLoadEnd_kept _ _ _ _ k9_1)) hs)
theorem stStore_kept (want : StF → Bool) (lr : ℕ) (w0 : W64) (w1 : W64) (far : FarAns) (s : State) (hs : Kept Q T s) : Kept Q T (stStore
    want lr w0 w1 far s) := by
  unfold stStore
  extract_lets +onlyGivenNames x0
  exact (ite_kept hs (State.issue_kept _ _ _ _ _ _ _ _ hs (fun _ _ k13_2 => (State.storeInstr_kept _ _ _ _ _ _ k13_2))))
theorem execStStore_kept (lr : ℕ) (w0 : W64) (w1 : W64) (far : FarAns) (s : State) (hs : Kept Q T s) : OutOk Q T (execStStore lr w0 w1 far
    s) := by
  unfold execStStore
  exact (onCore_kept _ _ (fun _ k10_1 => (stStore_kept _ _ _ _ _ _ k10_1)) hs)
theorem execStStoreDownpipe_kept (lr : ℕ) (w0 : W64) (w1 : W64) (s : State) (hs : Kept Q T s) : OutOk Q T (execStStoreDownpipe lr w0 w1 s)
    := by
  unfold execStStoreDownpipe
  exact (onCore_kept _ _ (fun _ k9_1 => (stStore_kept _ _ _ _ _ _ k9_1)) hs)
theorem execStStoreComp_kept (lr : ℕ) (w0 : W64) (w1 : W64) (far : FarAns) (s : State) (hs : Kept Q T s) : OutOk Q T (execStStoreComp lr w0
    w1 far s) := by
  unfold execStStoreComp
  exact (onCore_kept _ _ (fun _ k10_1 => (stStore_kept _ _ _ _ _ _ k10_1)) hs)
theorem stDrain_kept (comp : Bool) (lr : ℕ) (w0 : W64) (w1 : W64) (far : FarAns) (s : State) (hs : Kept Q T s) : Kept Q T (stDrain comp lr
    w0 w1 far s) := by
  unfold stDrain
  extract_lets +onlyGivenNames x0
  exact (ite_kept hs (State.issue_kept _ _ _ _ _ _ _ _ hs (fun _ _ k13_2 => (State.drainInstr_kept _ _ _ _ _ _ k13_2))))
theorem execStDrain_kept (lr : ℕ) (w0 : W64) (w1 : W64) (far : FarAns) (s : State) (hs : Kept Q T s) : OutOk Q T (execStDrain lr w0 w1 far
    s) := by
  unfold execStDrain
  exact (onCore_kept _ _ (fun _ k10_1 => (stDrain_kept _ _ _ _ _ _ k10_1)) hs)
theorem execStDrainComp_kept (lr : ℕ) (w0 : W64) (w1 : W64) (far : FarAns) (s : State) (hs : Kept Q T s) : OutOk Q T (execStDrainComp lr w0
    w1 far s) := by
  unfold execStDrainComp
  exact (onCore_kept _ _ (fun _ k10_1 => (stDrain_kept _ _ _ _ _ _ k10_1)) hs)
theorem execDownpipeAck_kept (lr : ℕ) (s : State) (hs : Kept Q T s) : OutOk Q T (execDownpipeAck lr s) := by
  unfold execDownpipeAck
  exact (onCore_kept _ _ (fun _ k7_1 => (downpipeAck_kept _ _ k7_1)) hs)
theorem lowerTierAccessFail_kept (lr : ℕ) (a : LowerAccess) (s : State) (hs : Kept Q T s) : Kept Q T (lowerTierAccessFail lr a s) := by
  unfold lowerTierAccessFail
  refine ite_kept ?_ ?_
  · exact hs
  · split
    · rename_i y0 y1
      exact (State.downEnd_kept _ _ _ _ hs)
    · rename_i y2 y3
      exact (State.aheadEnd_kept _ _ _ _ hs)
    · rename_i y4 y5
      exact (State.tagEnd_kept _ _ _ _ (Kept.keep hs))
theorem execLowerTierAccessFail_kept (lr : ℕ) (a : LowerAccess) (s : State) (hs : Kept Q T s) : OutOk Q T (execLowerTierAccessFail lr a s)
    := by
  unfold execLowerTierAccessFail
  exact (onCore_kept _ _ (fun _ k8_1 => (lowerTierAccessFail_kept _ _ _ k8_1)) hs)
theorem execAtSplice_kept (lr : ℕ) (s : State) (hs : Kept Q T s) : OutOk Q T (execAtSplice lr s) := by
  unfold execAtSplice
  exact (onCore_kept _ _ (fun _ k7_1 => (atSplice_kept _ _ k7_1)) hs)
theorem spliceLateTimeout_kept (lr : ℕ) (got : List (ℕ × List Byte)) (s : State) (hs : Kept Q T s) : Kept Q T (spliceLateTimeout lr got s)
    := by
  unfold spliceLateTimeout
  split
  · rename_i y0 y1
    exact hs
  · rename_i y2 y3 y4
    split
    · rename_i y5 y6
      exact hs
    · rename_i y7 y8 y9
      exact (ite_kept (State.spliceLate_kept _ _ _ _ hs) hs)
theorem execSpliceLateTimeout_kept (x : SpliceLate) (s : State) (hs : Kept Q T s) : OutOk Q T (execSpliceLateTimeout x s) := by
  unfold execSpliceLateTimeout
  exact (onCore_kept _ _ (fun _ k8_1 => (spliceLateTimeout_kept _ _ _ k8_1)) hs)
theorem peerReply_kept (tag : ℕ) (far : FarAns) (s : State) (hs : Kept Q T s) : Kept Q T (peerReply tag far s) := by
  unfold peerReply
  exact (ite_kept hs (State.peerEnd_kept _ _ _ hs))
theorem State.castVote_kept (s : State) (c : Course) (tid : ℕ) (w : Watch) (hs : Kept Q T s) : Kept Q T (State.castVote s c tid w) := by
  unfold State.castVote
  extract_lets +onlyGivenNames x0
  refine ite_kept ?_ ?_
  · extract_lets +onlyGivenNames x1
    exact (Kept.keep hs)
  · exact hs
theorem State.addWatch_kept (s : State) (a1 : ℕ × Watch × W32) (hs : Kept Q T s) : Kept Q T (State.addWatch s a1) := by
  unfold State.addWatch
  split
  · rename_i y0 y1
    exact hs
  · rename_i y2 y3 y4
    extract_lets +onlyGivenNames x5
    extract_lets +onlyGivenNames x6
    have hx6 : Kept Q T x6 := (Kept.keep hs)
    clear_value x6
    exact (State.castVote_kept _ _ _ _ hx6)
theorem State.failVec_kept (s : State) (a1 : ℕ) (cause : ℕ) (hs : Kept Q T s) : Kept Q T (State.failVec s a1 cause) := by
  unfold State.failVec
  extract_lets +onlyGivenNames x0
  extract_lets +onlyGivenNames x1
  extract_lets +onlyGivenNames x2
  exact (State.requestReslate_kept _ _ _ _ (State.setFs_kept _ _ hs))
theorem State.vecUncorrectable_kept (s : State) (a1 : ℕ) (hs : Kept Q T s) : Kept Q T (State.vecUncorrectable s a1) := by
  unfold State.vecUncorrectable
  exact (State.raiseLine_kept _ _ (State.failVec_kept _ _ _ (State.bump_kept _ _ _ hs)))
theorem State.vecCorrected_kept (s : State) (a1 : ℕ) (hs : Kept Q T s) : Kept Q T (State.vecCorrected s a1) := by
  unfold State.vecCorrected
  exact (State.bump_kept _ _ _ hs)
theorem State.badRegs_kept (s : State) (a1 : ℕ) (ws : List (ℕ × ℕ × Bool)) (hs : Kept Q T s) : Kept Q T (State.badRegs s a1 ws) := by
  unfold State.badRegs
  exact (State.each_kept _ _ _ hs (fun _ _ k9_2 => (ite_kept (State.vecUncorrectable_kept _ _ k9_2) (State.vecCorrected_kept _ _ k9_2))))
theorem State.putTensor_kept (s : State) (lr : ℕ) (a2 : Tensor) (rmark : Bool) (vs : List W32) (hs : Kept Q T s) : Kept Q T (State.putTensor
    s lr a2 rmark vs) := by
  unfold State.putTensor
  extract_lets +onlyGivenNames x0
  extract_lets +onlyGivenNames x1
  have hx1 : Kept Q T x1 := (ite_kept hs (State.addWatch_kept _ _ hs))
  clear_value x1
  exact (State.rsWrite_kept _ _ _ _ hx1)
theorem State.vCommand_kept (s : State) (lr op : Nat) (w0 w1 : W64) (f : VBlock → Bool → VCmd) (hs : Kept Q T s) (hf : ∀ b m u, Kept Q T u →
    Kept Q T ((f b m).act u)) : Kept Q T (s.vCommand lr op w0 w1 f) := by
  unfold State.vCommand
  extract_lets par b cmd
  refine State.issue_kept _ _ _ _ _ _ _ _ hs ?_
  intro c u hu
  extract_lets early
  split
  · exact OptOk.none
  · exact checked_kept _ _ (OptOk.some (hf _ _ _ hu))
theorem State.vecParity_kept (s : State) (a1 : ℕ) (hs : Kept Q T s) : Kept Q T (State.vecParity s a1) := by
  unfold State.vecParity
  exact (State.raiseLine_kept _ _ (State.failVec_kept _ _ _ (State.bump_kept _ _ _ hs)))
theorem vxKernel_kept (lr : ℕ) (w0 : W64) (w1 : W64) (s : State) (hs : Kept Q T s) : Kept Q T (vxKernel lr w0 w1 s) := by
  unfold vxKernel
  extract_lets +onlyGivenNames x0
  extract_lets +onlyGivenNames x1
  extract_lets +onlyGivenNames x2
  refine State.issue_kept _ _ _ _ _ _ _ _ ?_ ?_
  · exact hs
  · intro v3 v4 h5
    extract_lets +onlyGivenNames x6
    refine checked_kept _ _ ?_
    extract_lets +onlyGivenNames x7
    exact (OptOk.some (State.setRaft_kept _ _ _ h5))
theorem execVxKernel_kept (lr : ℕ) (w0 : W64) (w1 : W64) (s : State) (hs : Kept Q T s) : OutOk Q T (execVxKernel lr w0 w1 s) := by
  unfold execVxKernel
  exact (onCore_kept _ _ (fun _ k9_1 => (vxKernel_kept _ _ _ _ k9_1)) hs)
theorem sheafResident_kept (lr : ℕ) (g : ℕ) (s : State) (hs : Kept Q T s) : Kept Q T (sheafResident lr g s) := by
  unfold sheafResident
  refine ite_kept ?_ ?_
  · exact hs
  · extract_lets +onlyGivenNames x0
    split
    · rename_i y1 y2
      exact hs
    · rename_i y3 y4 y5
      extract_lets +onlyGivenNames x6
      refine ite_kept ?_ ?_
      · extract_lets +onlyGivenNames x7
        exact (State.setRaft_kept _ _ _ hs)
      · exact hs
theorem execSheafResident_kept (lr : ℕ) (g : ℕ) (s : State) (hs : Kept Q T s) : OutOk Q T (execSheafResident lr g s) := by
  unfold execSheafResident
  exact (onCore_kept _ _ (fun _ k8_1 => (sheafResident_kept _ _ _ k8_1)) hs)
theorem kernelDone_kept (lr : ℕ) (s : State) (hs : Kept Q T s) : Kept Q T (kernelDone lr s) := by
  unfold kernelDone
  refine ite_kept ?_ ?_
  · exact hs
  · extract_lets +onlyGivenNames x0
    split
    · rename_i y1 y2
      exact hs
    · rename_i y3 y4 y5
      refine ite_kept ?_ ?_
      · extract_lets +onlyGivenNames x6
        have hx6 : Kept Q T x6 := (State.each_kept _ _ _ hs (fun _ _ k15_2 => (State.addWatch_kept _ _ k15_2)))
        clear_value x6
        exact (State.settle_kept _ _ _ (State.setRaft_kept _ _ _ hx6))
      · exact hs
theorem execKernelDone_kept (lr : ℕ) (s : State) (hs : Kept Q T s) : OutOk Q T (execKernelDone lr s) := by
  unfold execKernelDone
  exact (onCore_kept _ _ (fun _ k7_1 => (kernelDone_kept _ _ k7_1)) hs)
theorem vxDwconv_kept (lr : Nat) (w0 w1 : W64) (s : State) (hs : Kept Q T s) : Kept Q T (vxDwconv lr w0 w1 s) := by
  unfold vxDwconv
  refine State.vCommand_kept _ _ _ _ _ _ hs ?_
  intro b rmark t ht
  exact State.putTensor_kept _ _ _ _ _ ht
theorem execVxDwconv_kept (lr : ℕ) (w0 : W64) (w1 : W64) (s : State) (hs : Kept Q T s) : OutOk Q T (execVxDwconv lr w0 w1 s) := by
  unfold execVxDwconv
  exact (onCore_kept _ _ (fun _ k9_1 => (vxDwconv_kept _ _ _ _ k9_1)) hs)
theorem vxPool_kept (lr : Nat) (w0 w1 : W64) (s : State) (hs : Kept Q T s) : Kept Q T (vxPool lr w0 w1 s) := by
  unfold vxPool
  refine State.vCommand_kept _ _ _ _ _ _ hs ?_
  intro b rmark t ht
  exact State.putTensor_kept _ _ _ _ _ ht
theorem execVxPool_kept (lr : ℕ) (w0 : W64) (w1 : W64) (s : State) (hs : Kept Q T s) : OutOk Q T (execVxPool lr w0 w1 s) := by
  unfold execVxPool
  exact (onCore_kept _ _ (fun _ k9_1 => (vxPool_kept _ _ _ _ k9_1)) hs)
theorem vxResamp_kept (lr : Nat) (w0 w1 : W64) (s : State) (hs : Kept Q T s) : Kept Q T (vxResamp lr w0 w1 s) := by
  unfold vxResamp
  refine State.vCommand_kept _ _ _ _ _ _ hs ?_
  intro b rmark t ht
  exact State.putTensor_kept _ _ _ _ _ ht
theorem execVxResamp_kept (lr : ℕ) (w0 : W64) (w1 : W64) (s : State) (hs : Kept Q T s) : OutOk Q T (execVxResamp lr w0 w1 s) := by
  unfold execVxResamp
  exact (onCore_kept _ _ (fun _ k9_1 => (vxResamp_kept _ _ _ _ k9_1)) hs)
theorem vxBoxdec_kept (lr : Nat) (w0 w1 : W64) (s : State) (hs : Kept Q T s) : Kept Q T (vxBoxdec lr w0 w1 s) := by
  unfold vxBoxdec
  refine State.vCommand_kept _ _ _ _ _ _ hs ?_
  intro b rmark t ht
  exact State.putTensor_kept _ _ _ _ _ ht
theorem execVxBoxdec_kept (lr : ℕ) (w0 : W64) (w1 : W64) (s : State) (hs : Kept Q T s) : OutOk Q T (execVxBoxdec lr w0 w1 s) := by
  unfold execVxBoxdec
  exact (onCore_kept _ _ (fun _ k9_1 => (vxBoxdec_kept _ _ _ _ k9_1)) hs)
theorem vxNms_kept (lr : Nat) (w0 w1 : W64) (s : State) (hs : Kept Q T s) : Kept Q T (vxNms lr w0 w1 s) := by
  unfold vxNms
  refine State.vCommand_kept _ _ _ _ _ _ hs ?_
  intro b rmark t ht
  exact State.rsWrite_kept _ _ _ _ (State.rsWrite_kept _ _ _ _ ht)
theorem execVxNms_kept (lr : ℕ) (w0 : W64) (w1 : W64) (s : State) (hs : Kept Q T s) : OutOk Q T (execVxNms lr w0 w1 s) := by
  unfold execVxNms
  exact (onCore_kept _ _ (fun _ k9_1 => (vxNms_kept _ _ _ _ k9_1)) hs)
theorem State.regCheck_kept (s : State) (lr op : Nat) (w : W64) (sh : Sheaf) (hs : Kept Q T s) : Kept Q T (s.regCheck lr op w sh).1 := by
  exact State.badRegs_kept _ _ _ hs
theorem State.dropSheaf_kept (s : State) (lr : ℕ) (k : Kernel) (g : ℕ) (hs : Kept Q T s) : Kept Q T (State.dropSheaf s lr k g) := by
  unfold State.dropSheaf
  extract_lets +onlyGivenNames x0
  extract_lets +onlyGivenNames x1
  exact (State.setRaft_kept _ _ _ hs)
theorem State.putSheaf_kept (s : State) (lr : ℕ) (k : Kernel) (sh : Sheaf) (hs : Kept Q T s) : Kept Q T (State.putSheaf s lr k sh) := by
  unfold State.putSheaf
  extract_lets +onlyGivenNames x0
  exact (State.setRaft_kept _ _ _ hs)
theorem State.threadNow_kept (s : State) (lr : ℕ) (g : ℕ) (op : ℕ) (w : W64) (body : Course → Kernel → Sheaf → State → ThEff) (hs : Kept Q T
    s) (hbody : ∀ x0 x1 x2 x3, Kept Q T x3 → ThOk Q T (body x0 x1 x2 x3)) : Kept Q T (State.threadNow s lr g op w body) := by
  unfold State.threadNow
  split
  · rename_i y0 y1
    exact hs
  · rename_i y2 y3 y4 y5 y6
    extract_lets +onlyGivenNames x7
    refine ite_kept ?_ ?_
    · exact (State.progError_kept _ _ _ hs)
    · extract_lets +onlyGivenNames x8
      extract_lets +onlyGivenNames x9
      have hx9 : Kept Q T x9 := by
        unfold x9
        unfold x8
        exact (State.regCheck_kept _ _ _ _ _ hs)
      clear_value x9
      extract_lets +onlyGivenNames x10
      refine ite_kept ?_ ?_
      · exact hx9
      · split
        · rename_i y11 y12 y13
          exact (State.progError_kept _ _ _ hx9)
        · rename_i y14 y15
          exact (State.dropSheaf_kept _ _ _ _ hx9)
        · rename_i y16 y17 y18 y19 y20 y21
          have hy17 : Kept Q T y17 := by
            refine OptOk.use ?_ (congrArg ThEff.left y21)
            exact (hbody _ _ _ _ hx9)
          exact (ite_kept hy17 (ite_kept (State.progError_kept _ _ _ hy17) (State.putSheaf_kept _ _ _ _ hy17)))
theorem State.thread_kept (s : State) (lr : ℕ) (g : ℕ) (op : ℕ) (w : W64) (body : Course → Kernel → Sheaf → State → ThEff) (hs : Kept Q T s)
    (hbody : ∀ x0 x1 x2 x3, Kept Q T x3 → ThOk Q T (body x0 x1 x2 x3)) : Kept Q T (State.thread s lr g op w body) := by
  unfold State.thread
  exact (State.progTie_kept _ _ _ hs (fun _ k12_1 => (State.threadNow_kept _ _ _ _ _ _ k12_1 (fun _ _ _ _ k17_4 => (hbody _ _ _ _ k17_4)))))
theorem writeD_kept (lr : ℕ) (w : W64) (k : Kernel) (sh : Sheaf) (s : State) (f : ℕ → W32) (hs : Kept Q T s) : ThOk Q T (writeD lr w k sh s
    f) := by
  unfold writeD
  extract_lets +onlyGivenNames x0
  split
  · rename_i y1 y2 y3 y4 y5 y6 y7
    exact (OptOk.some (State.useInject_kept _ hs))
  · rename_i y8 y9 y10
    exact (OptOk.some hs)
theorem State.alu_kept (s : State) (lr : ℕ) (g : ℕ) (op : ℕ) (w : W64) (f : W32 → W32 → W32 → W32) (hs : Kept Q T s) : Kept Q T (State.alu s
    lr g op w f) := by
  unfold State.alu
  exact (State.thread_kept _ _ _ _ _ _ hs (fun _ _ _ _ k14_4 => (writeD_kept _ _ _ _ _ _ k14_4)))
theorem State.ldCheck_kept (s : State) (lr : ℕ) (g : ℕ) (sh : Sheaf) (w : W64) (hs : Kept Q T s) : Kept Q T (State.ldCheck s lr g sh w) :=
    by
  unfold State.ldCheck
  split
  · rename_i y0 y1
    exact (State.storeCheck_kept _ _ _ hs)
  · rename_i y2 y3
    refine State.each_kept _ _ _ ?_ ?_
    · exact hs
    · intro v4 v5 h6
      split
      · rename_i y7 y8 y9
        exact (State.accCheck_kept _ _ _ _ h6)
      · rename_i y10 y11
        exact h6
  · rename_i y12 y13 y14
    exact hs
theorem touchByte_kept (lr t : Nat) (write : Bool) (x : State × Kernel) (b : Nat) (hs : Kept Q T x.1) : Kept Q T (touchByte lr t write x
    b).1 := by
  unfold touchByte
  split
  · exact hs
  · extract_lets other o'
    dsimp only
    split
    · exact Kept.upd hs.canon.hbm hs.canon.loft (Memory.write_wf _ _ _ hs.canon.rstore) hs.canon.acc hs.canon.regs hs.queue hs.clock
    · exact hs
theorem State.touch_kept (s : State) (lr : Nat) (k : Kernel) (write : Bool) (xs : List (Nat × Nat × Nat)) (hs : Kept Q T s) : Kept Q T
    (s.touch lr k write xs).1 := by
  unfold State.touch
  refine foldl_fst_kept _ _ _ hs ?_
  intro a x ha
  refine foldl_fst_kept _ _ _ ha ?_
  intro a i ha
  exact touchByte_kept _ _ _ _ _ ha
theorem State.ldInstr_kept (s : State) (lr g : Nat) (c : Course) (k : Kernel) (sh : Sheaf) (w : W64) (hs : Kept Q T s) : ThOk Q T (s.ldInstr
    lr g c k sh w) := by
  unfold State.ldInstr
  extract_lets bad v
  have hv : Kept Q T v := State.ldCheck_kept _ _ _ _ _ hs
  clear_value v
  split
  · exact OptOk.none
  · split
    · exact OptOk.some hv
    · exact writeD_kept _ _ _ _ _ _ (State.touch_kept _ _ _ _ _ hv)
theorem State.stFp4_kept (s : State) (lr g : Nat) (c : Course) (k : Kernel) (sh : Sheaf) (w : W64) (hs : Kept Q T s) : ThOk Q T (s.stFp4 lr
    g c k sh w) := by
  unfold State.stFp4
  extract_lets bad s' u n
  split
  · exact OptOk.none
  · refine OptOk.some (State.touch_kept _ _ _ _ _ (State.each_kept _ _ _ hs ?_))
    intro t x ht
    exact State.rsWrite_kept _ _ _ _ (State.rsWrite_kept _ _ _ _ ht)
theorem State.stPlain_kept (s : State) (lr g : Nat) (c : Course) (k : Kernel) (sh : Sheaf) (w : W64) (hs : Kept Q T s) : ThOk Q T (s.stPlain
    lr g c k sh w) := by
  unfold State.stPlain
  extract_lets f n bad cs u
  split
  · exact OptOk.none
  · refine OptOk.some (State.touch_kept _ _ _ _ _ (State.each_kept _ _ _ hs ?_))
    intro t x ht
    exact State.rsWrite_kept _ _ _ _ ht
theorem execThreadNop_kept (lr : ℕ) (g : ℕ) (w : W64) (s : State) (hs : Kept Q T s) : OutOk Q T (execThreadNop lr g w s) := by
  unfold execThreadNop
  exact (onCore_kept _ _ (fun _ k9_1 => (State.thread_kept _ _ _ _ _ _ k9_1 (fun _ _ _ _ k14_4 => (OptOk.some k14_4)))) hs)
theorem execThreadEnd_kept (lr : ℕ) (g : ℕ) (w : W64) (s : State) (hs : Kept Q T s) : OutOk Q T (execThreadEnd lr g w s) := by
  unfold execThreadEnd
  exact (onCore_kept _ _ (fun _ k9_1 => (State.thread_kept _ _ _ _ _ _ k9_1 (fun _ _ _ _ k14_4 => OptOk.none))) hs)
theorem execSpec_kept (lr : ℕ) (g : ℕ) (w : W64) (s : State) (hs : Kept Q T s) : OutOk Q T (execSpec lr g w s) := by
  unfold execSpec
  exact (onCore_kept _ _ (fun _ k9_1 => (State.thread_kept _ _ _ _ _ _ k9_1 (fun _ _ _ _ k14_4 => (writeD_kept _ _ _ _ _ _ k14_4)))) hs)
theorem execBra_kept (lr : ℕ) (g : ℕ) (w : W64) (s : State) (hs : Kept Q T s) : OutOk Q T (execBra lr g w s) := by
  unfold execBra
  exact (onCore_kept _ _ (fun _ k9_1 => (State.thread_kept _ _ _ _ _ _ k9_1 (fun _ _ _ _ k14_4 => (OptOk.some k14_4)))) hs)
theorem execBrany_kept (lr : ℕ) (g : ℕ) (w : W64) (s : State) (hs : Kept Q T s) : OutOk Q T (execBrany lr g w s) := by
  unfold execBrany
  exact (onCore_kept _ _ (fun _ k9_1 => (State.thread_kept _ _ _ _ _ _ k9_1 (fun _ _ _ _ k14_4 => (OptOk.some k14_4)))) hs)
theorem execIfBegin_kept (lr : ℕ) (g : ℕ) (w : W64) (s : State) (hs : Kept Q T s) : OutOk Q T (execIfBegin lr g w s) := by
  unfold execIfBegin
  refine onCore_kept _ _ ?_ ?_
  · intro v0 h1
    refine State.thread_kept _ _ _ _ _ _ ?_ ?_
    · exact h1
    · intro v2 v3 v4 v5 h6
      split
      · rename_i y7
        exact OptOk.none
      · rename_i y8
        exact (OptOk.some h6)
  · exact hs
theorem execElseFlip_kept (lr : ℕ) (g : ℕ) (w : W64) (s : State) (hs : Kept Q T s) : OutOk Q T (execElseFlip lr g w s) := by
  unfold execElseFlip
  refine onCore_kept _ _ ?_ ?_
  · intro v0 h1
    refine State.thread_kept _ _ _ _ _ _ ?_ ?_
    · exact h1
    · intro v2 v3 v4 v5 h6
      split
      · rename_i y7 y8
        exact OptOk.none
      · rename_i y9 y10 y11 y12
        exact (OptOk.some h6)
  · exact hs
theorem execEndIf_kept (lr : ℕ) (g : ℕ) (w : W64) (s : State) (hs : Kept Q T s) : OutOk Q T (execEndIf lr g w s) := by
  unfold execEndIf
  refine onCore_kept _ _ ?_ ?_
  · intro v0 h1
    refine State.thread_kept _ _ _ _ _ _ ?_ ?_
    · exact h1
    · intro v2 v3 v4 v5 h6
      split
      · rename_i y7 y8
        exact OptOk.none
      · rename_i y9 y10 y11 y12
        exact (OptOk.some h6)
  · exact hs
theorem execFadd_kept (lr : ℕ) (g : ℕ) (w : W64) (s : State) (hs : Kept Q T s) : OutOk Q T (execFadd lr g w s) := by
  unfold execFadd
  exact (onCore_kept _ _ (fun _ k9_1 => (State.alu_kept _ _ _ _ _ _ k9_1)) hs)
theorem execFsub_kept (lr : ℕ) (g : ℕ) (w : W64) (s : State) (hs : Kept Q T s) : OutOk Q T (execFsub lr g w s) := by
  unfold execFsub
  exact (onCore_kept _ _ (fun _ k9_1 => (State.alu_kept _ _ _ _ _ _ k9_1)) hs)
theorem execFmul_kept (lr : ℕ) (g : ℕ) (w : W64) (s : State) (hs : Kept Q T s) : OutOk Q T (execFmul lr g w s) := by
  unfold execFmul
  exact (onCore_kept _ _ (fun _ k9_1 => (State.alu_kept _ _ _ _ _ _ k9_1)) hs)
theorem execFfma_kept (lr : ℕ) (g : ℕ) (w : W64) (s : State) (hs : Kept Q T s) : OutOk Q T (execFfma lr g w s) := by
  unfold execFfma
  exact (onCore_kept _ _ (fun _ k9_1 => (State.alu_kept _ _ _ _ _ _ k9_1)) hs)
theorem execFdiv_kept (lr : ℕ) (g : ℕ) (w : W64) (s : State) (hs : Kept Q T s) : OutOk Q T (execFdiv lr g w s) := by
  unfold execFdiv
  exact (onCore_kept _ _ (fun _ k9_1 => (State.alu_kept _ _ _ _ _ _ k9_1)) hs)
theorem execFmax_kept (lr : ℕ) (g : ℕ) (w : W64) (s : State) (hs : Kept Q T s) : OutOk Q T (execFmax lr g w s) := by
  unfold execFmax
  exact (onCore_kept _ _ (fun _ k9_1 => (State.alu_kept _ _ _ _ _ _ k9_1)) hs)
theorem execFmin_kept (lr : ℕ) (g : ℕ) (w : W64) (s : State) (hs : Kept Q T s) : OutOk Q T (execFmin lr g w s) := by
  unfold execFmin
  exact (onCore_kept _ _ (fun _ k9_1 => (State.alu_kept _ _ _ _ _ _ k9_1)) hs)
theorem execFcmp_kept (lr : ℕ) (g : ℕ) (w : W64) (s : State) (hs : Kept Q T s) : OutOk Q T (execFcmp lr g w s) := by
  unfold execFcmp
  exact (onCore_kept _ _ (fun _ k9_1 => (State.alu_kept _ _ _ _ _ _ k9_1)) hs)
theorem execFabs_kept (lr : ℕ) (g : ℕ) (w : W64) (s : State) (hs : Kept Q T s) : OutOk Q T (execFabs lr g w s) := by
  unfold execFabs
  exact (onCore_kept _ _ (fun _ k9_1 => (State.alu_kept _ _ _ _ _ _ k9_1)) hs)
theorem execFneg_kept (lr : ℕ) (g : ℕ) (w : W64) (s : State) (hs : Kept Q T s) : OutOk Q T (execFneg lr g w s) := by
  unfold execFneg
  exact (onCore_kept _ _ (fun _ k9_1 => (State.alu_kept _ _ _ _ _ _ k9_1)) hs)
theorem execHadd_kept (lr : ℕ) (g : ℕ) (w : W64) (s : State) (hs : Kept Q T s) : OutOk Q T (execHadd lr g w s) := by
  unfold execHadd
  exact (onCore_kept _ _ (fun _ k9_1 => (State.alu_kept _ _ _ _ _ _ k9_1)) hs)
theorem execHmul_kept (lr : ℕ) (g : ℕ) (w : W64) (s : State) (hs : Kept Q T s) : OutOk Q T (execHmul lr g w s) := by
  unfold execHmul
  exact (onCore_kept _ _ (fun _ k9_1 => (State.alu_kept _ _ _ _ _ _ k9_1)) hs)
theorem execHfma_kept (lr : ℕ) (g : ℕ) (w : W64) (s : State) (hs : Kept Q T s) : OutOk Q T (execHfma lr g w s) := by
  unfold execHfma
  exact (onCore_kept _ _ (fun _ k9_1 => (State.alu_kept _ _ _ _ _ _ k9_1)) hs)
theorem execHmax_kept (lr : ℕ) (g : ℕ) (w : W64) (s : State) (hs : Kept Q T s) : OutOk Q T (execHmax lr g w s) := by
  unfold execHmax
  exact (onCore_kept _ _ (fun _ k9_1 => (State.alu_kept _ _ _ _ _ _ k9_1)) hs)
theorem execHmin_kept (lr : ℕ) (g : ℕ) (w : W64) (s : State) (hs : Kept Q T s) : OutOk Q T (execHmin lr g w s) := by
  unfold execHmin
  exact (onCore_kept _ _ (fun _ k9_1 => (State.alu_kept _ _ _ _ _ _ k9_1)) hs)
theorem execIadd_kept (lr : ℕ) (g : ℕ) (w : W64) (s : State) (hs : Kept Q T s) : OutOk Q T (execIadd lr g w s) := by
  unfold execIadd
  exact (onCore_kept _ _ (fun _ k9_1 => (State.alu_kept _ _ _ _ _ _ k9_1)) hs)
theorem execIsub_kept (lr : ℕ) (g : ℕ) (w : W64) (s : State) (hs : Kept Q T s) : OutOk Q T (execIsub lr g w s) := by
  unfold execIsub
  exact (onCore_kept _ _ (fun _ k9_1 => (State.alu_kept _ _ _ _ _ _ k9_1)) hs)
theorem execImul_kept (lr : ℕ) (g : ℕ) (w : W64) (s : State) (hs : Kept Q T s) : OutOk Q T (execImul lr g w s) := by
  unfold execImul
  exact (onCore_kept _ _ (fun _ k9_1 => (State.alu_kept _ _ _ _ _ _ k9_1)) hs)
theorem execAndBits_kept (lr : ℕ) (g : ℕ) (w : W64) (s : State) (hs : Kept Q T s) : OutOk Q T (execAndBits lr g w s) := by
  unfold execAndBits
  exact (onCore_kept _ _ (fun _ k9_1 => (State.alu_kept _ _ _ _ _ _ k9_1)) hs)
theorem execOrBits_kept (lr : ℕ) (g : ℕ) (w : W64) (s : State) (hs : Kept Q T s) : OutOk Q T (execOrBits lr g w s) := by
  unfold execOrBits
  exact (onCore_kept _ _ (fun _ k9_1 => (State.alu_kept _ _ _ _ _ _ k9_1)) hs)
theorem execXorBits_kept (lr : ℕ) (g : ℕ) (w : W64) (s : State) (hs : Kept Q T s) : OutOk Q T (execXorBits lr g w s) := by
  unfold execXorBits
  exact (onCore_kept _ _ (fun _ k9_1 => (State.alu_kept _ _ _ _ _ _ k9_1)) hs)
theorem execShl_kept (lr : ℕ) (g : ℕ) (w : W64) (s : State) (hs : Kept Q T s) : OutOk Q T (execShl lr g w s) := by
  unfold execShl
  exact (onCore_kept _ _ (fun _ k9_1 => (State.alu_kept _ _ _ _ _ _ k9_1)) hs)
theorem execShr_kept (lr : ℕ) (g : ℕ) (w : W64) (s : State) (hs : Kept Q T s) : OutOk Q T (execShr lr g w s) := by
  unfold execShr
  exact (onCore_kept _ _ (fun _ k9_1 => (State.alu_kept _ _ _ _ _ _ k9_1)) hs)
theorem execSar_kept (lr : ℕ) (g : ℕ) (w : W64) (s : State) (hs : Kept Q T s) : OutOk Q T (execSar lr g w s) := by
  unfold execSar
  exact (onCore_kept _ _ (fun _ k9_1 => (State.alu_kept _ _ _ _ _ _ k9_1)) hs)
theorem execIcmp_kept (lr : ℕ) (g : ℕ) (w : W64) (s : State) (hs : Kept Q T s) : OutOk Q T (execIcmp lr g w s) := by
  unfold execIcmp
  exact (onCore_kept _ _ (fun _ k9_1 => (State.alu_kept _ _ _ _ _ _ k9_1)) hs)
theorem execSelc_kept (lr : ℕ) (g : ℕ) (w : W64) (s : State) (hs : Kept Q T s) : OutOk Q T (execSelc lr g w s) := by
  unfold execSelc
  exact (onCore_kept _ _ (fun _ k9_1 => (State.alu_kept _ _ _ _ _ _ k9_1)) hs)
theorem execMov_kept (lr : ℕ) (g : ℕ) (w : W64) (s : State) (hs : Kept Q T s) : OutOk Q T (execMov lr g w s) := by
  unfold execMov
  exact (onCore_kept _ _ (fun _ k9_1 => (State.alu_kept _ _ _ _ _ _ k9_1)) hs)
theorem execCvtf_kept (lr : ℕ) (g : ℕ) (w : W64) (s : State) (hs : Kept Q T s) : OutOk Q T (execCvtf lr g w s) := by
  unfold execCvtf
  exact (onCore_kept _ _ (fun _ k9_1 => (State.alu_kept _ _ _ _ _ _ k9_1)) hs)
theorem execCvti_kept (lr : ℕ) (g : ℕ) (w : W64) (s : State) (hs : Kept Q T s) : OutOk Q T (execCvti lr g w s) := by
  unfold execCvti
  exact (onCore_kept _ _ (fun _ k9_1 => (State.alu_kept _ _ _ _ _ _ k9_1)) hs)
theorem execExp2_kept (lr : ℕ) (g : ℕ) (w : W64) (s : State) (hs : Kept Q T s) : OutOk Q T (execExp2 lr g w s) := by
  unfold execExp2
  exact (onCore_kept _ _ (fun _ k9_1 => (State.alu_kept _ _ _ _ _ _ k9_1)) hs)
theorem execLog2_kept (lr : ℕ) (g : ℕ) (w : W64) (s : State) (hs : Kept Q T s) : OutOk Q T (execLog2 lr g w s) := by
  unfold execLog2
  exact (onCore_kept _ _ (fun _ k9_1 => (State.alu_kept _ _ _ _ _ _ k9_1)) hs)
theorem execRcp_kept (lr : ℕ) (g : ℕ) (w : W64) (s : State) (hs : Kept Q T s) : OutOk Q T (execRcp lr g w s) := by
  unfold execRcp
  exact (onCore_kept _ _ (fun _ k9_1 => (State.alu_kept _ _ _ _ _ _ k9_1)) hs)
theorem execRsqrt_kept (lr : ℕ) (g : ℕ) (w : W64) (s : State) (hs : Kept Q T s) : OutOk Q T (execRsqrt lr g w s) := by
  unfold execRsqrt
  exact (onCore_kept _ _ (fun _ k9_1 => (State.alu_kept _ _ _ _ _ _ k9_1)) hs)
theorem execRand_kept (lr : ℕ) (g : ℕ) (w : W64) (s : State) (hs : Kept Q T s) : OutOk Q T (execRand lr g w s) := by
  unfold execRand
  refine onCore_kept _ _ ?_ ?_
  · intro v0 h1
    refine State.thread_kept _ _ _ _ _ _ ?_ ?_
    · exact h1
    · intro v2 v3 v4 v5 h6
      split
      · rename_i y7
        exact OptOk.none
      · rename_i y8
        exact (writeD_kept _ _ _ _ _ _ h6)
  · exact hs
theorem execShfl_kept (lr : ℕ) (g : ℕ) (w : W64) (s : State) (hs : Kept Q T s) : OutOk Q T (execShfl lr g w s) := by
  unfold execShfl
  exact (onCore_kept _ _ (fun _ k9_1 => (State.thread_kept _ _ _ _ _ _ k9_1 (fun _ _ _ _ k14_4 => (writeD_kept _ _ _ _ _ _ k14_4)))) hs)
theorem execSred_kept (lr : ℕ) (g : ℕ) (w : W64) (s : State) (hs : Kept Q T s) : OutOk Q T (execSred lr g w s) := by
  unfold execSred
  exact (onCore_kept _ _ (fun _ k9_1 => (State.thread_kept _ _ _ _ _ _ k9_1 (fun _ _ _ _ k14_4 => (writeD_kept _ _ _ _ _ _ k14_4)))) hs)
theorem execLd_kept (lr : ℕ) (g : ℕ) (w : W64) (s : State) (hs : Kept Q T s) : OutOk Q T (execLd lr g w s) := by
  unfold execLd
  exact (onCore_kept _ _ (fun _ k9_1 => (State.thread_kept _ _ _ _ _ _ k9_1 (fun _ _ _ _ k14_4 => (State.ldInstr_kept _ _ _ _ _ _ _ k14_4)))) hs)
theorem execSt_kept (lr : ℕ) (g : ℕ) (w : W64) (s : State) (hs : Kept Q T s) : OutOk Q T (execSt lr g w s) := by
  unfold execSt
  refine onCore_kept _ _ ?_ ?_
  · intro v0 h1
    refine State.thread_kept _ _ _ _ _ _ ?_ ?_
    · exact h1
    · intro v2 v3 v4 v5 h6
      split
      · rename_i y7
        exact (State.stFp4_kept _ _ _ _ _ _ _ h6)
      · rename_i y8
        exact (State.stPlain_kept _ _ _ _ _ _ _ h6)
  · exact hs
theorem reservedThread_kept (lr : ℕ) (g : ℕ) (w : W64) (s : State) (hs : Kept Q T s) : Kept Q T (reservedThread lr g w s) := by
  unfold reservedThread
  exact (ite_kept hs (State.thread_kept _ _ _ _ _ _ hs (fun _ _ _ _ k12_4 => OptOk.none)))
theorem execReservedThreadOpcode_kept (lr : ℕ) (g : ℕ) (w : W64) (s : State) (hs : Kept Q T s) : OutOk Q T (execReservedThreadOpcode lr g w
    s) := by
  unfold execReservedThreadOpcode
  exact (onCore_kept _ _ (fun _ k9_1 => (reservedThread_kept _ _ _ _ k9_1)) hs)
theorem State.atStore_kept (s : State) (lr : ℕ) (f : ℕ) (tid : ℕ) (a : ℕ) (rmark : Bool) (vs : List W32) (hs : Kept Q T s) : Kept Q T
    (State.atStore s lr f tid a rmark vs) := by
  unfold State.atStore
  exact (State.putTensor_kept _ _ _ _ _ hs)
theorem State.attDone_kept (s : State) (lr : ℕ) (hs : Kept Q T s) : Kept Q T (State.attDone s lr) := by
  unfold State.attDone
  exact (State.bump_kept _ _ _ hs)
theorem State.useScratch_kept (s : State) (lr : ℕ) (scr : ℕ) (slotb : ℕ) (hs : Kept Q T s) : Kept Q T (State.useScratch s lr scr slotb) :=
    by
  unfold State.useScratch
  extract_lets +onlyGivenNames x0
  extract_lets +onlyGivenNames x1
  extract_lets +onlyGivenNames x2
  exact (State.nextFree_kept _ (State.rsWrite_kept _ _ _ _ (State.setRaft_kept _ _ _ hs)))
theorem State.attend_kept (s : State) (lr : ℕ) (op : ℕ) (w0 : W64) (w1 : W64) (codes : Course → AtBlock → List (Bool × ℕ)) (reads : AtBlock
    → LtE → List (ℕ × ℕ)) (writes : AtBlock → LtE → List (ℕ × ℕ)) (act : AtBlock → Bool → List LtE → State → State) (hs : Kept Q T s) (hact
    : ∀ x0 x1 x2 x3, Kept Q T x3 → Kept Q T (act x0 x1 x2 x3)) : Kept Q T (State.attend s lr op w0 w1 codes reads writes act) := by
  unfold State.attend
  extract_lets +onlyGivenNames x0
  extract_lets +onlyGivenNames x1
  extract_lets +onlyGivenNames x2
  extract_lets +onlyGivenNames x3
  extract_lets +onlyGivenNames x4
  refine State.issue_kept _ _ _ _ _ _ _ _ ?_ ?_
  · exact hs
  · intro v5 v6 h7
    extract_lets +onlyGivenNames x8
    split
    · rename_i y9
      exact OptOk.none
    · rename_i y10
      extract_lets +onlyGivenNames x11
      exact (checked_kept _ _ (OptOk.some (State.attDone_kept _ _ (hact _ _ _ _ (State.useScratch_kept _ _ _ _ h7)))))
theorem State.bwdEntry_kept (s : State) (s0 : State) (lr : ℕ) (b : AtBlock) (rmark : Bool) (e : LtE) (hs : Kept Q T s) (hs0 : Kept Q T s0) :
    Kept Q T (State.bwdEntry s s0 lr b rmark e) := by
  unfold State.bwdEntry
  extract_lets +onlyGivenNames x0
  extract_lets +onlyGivenNames x1
  extract_lets +onlyGivenNames x2
  extract_lets +onlyGivenNames x3
  extract_lets +onlyGivenNames x4
  extract_lets +onlyGivenNames x5
  extract_lets +onlyGivenNames x6
  extract_lets +onlyGivenNames x7
  extract_lets +onlyGivenNames x8
  extract_lets +onlyGivenNames x9
  extract_lets +onlyGivenNames x10
  have hx10 : Kept Q T x10 := by
    unfold x10
    refine State.each_kept _ _ _ ?_ ?_
    · exact hs
    · intro v11 v12 h13
      extract_lets +onlyGivenNames x14
      refine State.each_kept _ _ _ ?_ ?_
      · exact h13
      · intro v15 v16 h17
        extract_lets +onlyGivenNames x18
        extract_lets +onlyGivenNames x19
        exact (State.atStore_kept _ _ _ _ _ _ _ (State.atStore_kept _ _ _ _ _ _ _ h17))
  clear_value x10
  refine State.each_kept _ _ _ ?_ ?_
  · exact hx10
  · intro v20 v21 h22
    refine State.each_kept _ _ _ ?_ ?_
    · exact h22
    · intro v23 v24 h25
      extract_lets +onlyGivenNames x26
      extract_lets +onlyGivenNames x27
      have hx27 : Kept Q T x27 := (ite_kept h25 (State.addWatch_kept _ _ h25))
      clear_value x27
      extract_lets +onlyGivenNames x28
      exact (State.atStore_kept _ _ _ _ _ _ _ hx27)
theorem State.putRow_kept (s : State) (lr : ℕ) (o : ℕ) (lse : ℕ) (hs : ℕ) (d : ℕ) (f : ℕ) (tid : ℕ) (rmark : Bool) (t9 : ℕ) (h : ℕ) (r :
    List W32 × W32 × ℕ) (hsk : Kept Q T s) : Kept Q T (State.putRow s lr o lse hs d f tid rmark t9 h r) := by
  unfold State.putRow
  exact (State.bump_kept _ _ _ (State.rsWrite_kept _ _ _ _ (State.atStore_kept _ _ _ _ _ _ _ hsk)))
theorem State.fwdEntry_kept (s s0 : State) (lr : Nat) (b : AtBlock) (rmark : Bool) (e : LtE) (hs : Kept Q T s) : Kept Q T (s.fwdEntry s0 lr
    b rmark e) := by
  unfold State.fwdEntry
  extract_lets ps
  refine State.each_kept _ _ _ hs ?_
  intro t h ht
  refine State.bump_kept _ _ _ ?_
  refine State.each_kept _ _ _ ht ?_
  intro t i ht
  exact State.putRow_kept _ _ _ _ _ _ _ _ _ _ _ _ ht
theorem atBwd_kept (lr : ℕ) (w0 : W64) (w1 : W64) (s : State) (hs : Kept Q T s) : Kept Q T (atBwd lr w0 w1 s) := by
  unfold atBwd
  exact (State.attend_kept _ _ _ _ _ _ _ _ _ hs (fun _ _ _ _ k12_4 => (State.each_kept _ _ _ k12_4 (fun _ _ k15_2 => (State.bwdEntry_kept _ _ _ _ _ _ k15_2 hs)))))
theorem atFwd_kept (lr : ℕ) (w0 : W64) (w1 : W64) (s : State) (hs : Kept Q T s) : Kept Q T (atFwd lr w0 w1 s) := by
  unfold atFwd
  exact (State.attend_kept _ _ _ _ _ _ _ _ _ hs (fun _ _ _ _ k12_4 => (State.each_kept _ _ _ k12_4 (fun _ _ k15_2 => (State.fwdEntry_kept _ _ _ _ _ _ k15_2)))))
theorem execAtFwd_kept (lr : ℕ) (w0 : W64) (w1 : W64) (s : State) (hs : Kept Q T s) : OutOk Q T (execAtFwd lr w0 w1 s) := by
  unfold execAtFwd
  exact (onCore_kept _ _ (fun _ k9_1 => (atFwd_kept _ _ _ _ k9_1)) hs)
theorem execAtBwd_kept (lr : ℕ) (w0 : W64) (w1 : W64) (s : State) (hs : Kept Q T s) : OutOk Q T (execAtBwd lr w0 w1 s) := by
  unfold execAtBwd
  exact (onCore_kept _ _ (fun _ k9_1 => (atBwd_kept _ _ _ _ k9_1)) hs)
theorem State.setKvSeq_kept (s : State) (q : ℕ) (a2 : KvSeq) (hs : Kept Q T s) : Kept Q T (State.setKvSeq s q a2) := by
  unfold State.setKvSeq
  extract_lets +onlyGivenNames x0
  extract_lets +onlyGivenNames x1
  exact (Kept.keep hs)
theorem State.kvFreed_kept (s : State) (a1 : Pend) (hs : Kept Q T s) : Kept Q T (State.kvFreed s a1) := by
  unfold State.kvFreed
  split
  · rename_i y0 y1
    extract_lets +onlyGivenNames x2
    extract_lets +onlyGivenNames x3
    exact (Kept.keep hs)
  · rename_i y4 y5
    exact (State.setKvSeq_kept _ _ _ hs)
theorem State.kvReclaim_kept (s : State) (hs : Kept Q T s) : Kept Q T (State.kvReclaim s) := by
  unfold State.kvReclaim
  extract_lets +onlyGivenNames x0
  extract_lets +onlyGivenNames x1
  extract_lets +onlyGivenNames x2
  exact (State.each_kept _ _ _ (Kept.keep hs) (fun _ _ k10_2 => (State.kvFreed_kept _ _ k10_2)))
theorem State.decPages_kept (s : State) (c : KvConf) (q l n : Nat) (hs : Kept Q T s) : Kept Q T (s.decPages c q l n).2 := by
  unfold State.decPages
  refine foldl_snd_kept _ _ _ hs ?_
  intro p x hp
  exact State.readHbm_kept _ _ _ (State.readHbm_kept _ _ _ (State.readHbm_kept _ _ _ hp))
theorem State.decOne_kept (s : State) (lr : Nat) (c : KvConf) (b : DecBlock) (rmark : Bool) (e : DecE) (r : Nat) (hs : Kept Q T s) : Kept Q
    T (s.decOne lr c b rmark e r) := by
  unfold State.decOne
  extract_lets d n kv m
  have hkv : Kept Q T kv.2 := State.decPages_kept _ _ _ _ _ hs
  clear_value kv
  refine State.each_kept _ _ _ hkv ?_
  intro t h ht
  extract_lets kh kvs
  refine State.each_kept _ _ _ ht ?_
  intro t i ht
  exact State.putRow_kept _ _ _ _ _ _ _ _ _ _ _ _ ht
theorem State.decAll_kept (s : State) (lr : Nat) (c : KvConf) (b : DecBlock) (rmark : Bool) (es : List DecE) (r : Nat) (hs : Kept Q T s) :
    Kept Q T (s.decAll lr c b rmark es r) := by
  induction es generalizing s r with
  | nil => exact hs
  | cons e t ih => exact ih _ _ (State.decOne_kept _ _ _ _ _ _ _ hs)
theorem State.kvBump_kept (s : State) (hs : Kept Q T s) : Kept Q T (State.kvBump s) := by
  unfold State.kvBump
  extract_lets +onlyGivenNames x0
  extract_lets +onlyGivenNames x1
  exact (Kept.keep hs)
theorem State.kvRecord_kept (s : State) (c : KvConf) (hs : Kept Q T s) : Kept Q T (State.kvRecord s c) := by
  unfold State.kvRecord
  extract_lets +onlyGivenNames x0
  have hx0 : Kept Q T x0 := (State.writeHbm_kept _ _ _ hs)
  clear_value x0
  exact (Kept.keep hx0)
theorem State.kvApply_kept (s : State) (c : KvConf) (f : State → State) (hs : Kept Q T s) (hf : ∀ x0, Kept Q T x0 → Kept Q T (f x0)) : AnsOk
    Q T (State.kvApply s c f) := by
  unfold State.kvApply
  split
  · rename_i y0
    exact (OptOk.some (hf _ (State.kvBump_kept _ (State.kvRecord_kept _ _ hs))))
  · rename_i y1
    exact (OptOk.some hs)
theorem State.kvAdvance_kept (s : State) (c : KvConf) (e : KvEdit) (hs : Kept Q T s) : AnsOk Q T (State.kvAdvance s c e) := by
  unfold State.kvAdvance
  extract_lets +onlyGivenNames x0
  split
  · rename_i y1
    exact (OptOk.some hs)
  · rename_i y2
    split
    · rename_i y3
      exact (OptOk.some hs)
    · rename_i y4
      exact (State.kvApply_kept _ _ _ hs (fun _ k11_1 => (State.setKvSeq_kept _ _ _ k11_1)))
theorem State.kvAppVer_kept (s : State) (bumped : Bool) (hs : Kept Q T s) : Kept Q T (State.kvAppVer s bumped) := by
  unfold State.kvAppVer
  exact (ite_kept hs (State.kvBump_kept _ hs))
theorem State.kvPut_kept (s : State) (a : ℕ) (bs : List Byte) (hs : Kept Q T s) : Kept Q T (State.kvPut s a bs) := by
  unfold State.kvPut
  exact (State.writeHbm_kept _ _ _ (Kept.keep hs))
theorem State.kvConfigure_kept (s : State) (c : KvConf) (hs : Kept Q T s) : Kept Q T (State.kvConfigure s c) := by
  unfold State.kvConfigure
  refine State.kvReport_kept _ ?_
  refine State.kvRecord_kept _ _ ?_
  extract_lets +onlyGivenNames x0
  have hx0 : Kept Q T x0 := (State.kvPut_kept _ _ _ hs)
  clear_value x0
  exact (Kept.keep hx0)
theorem State.kvTake_kept (s : State) (hs : Kept Q T s) : Kept Q T (State.kvTake s).2 := by
  unfold State.kvTake
  split
  · rename_i y0 y1 y2 y3
    extract_lets +onlyGivenNames x4
    extract_lets +onlyGivenNames x5
    dsimp only
    exact (Kept.keep hs)
  · rename_i y6 y7
    extract_lets +onlyGivenNames x8
    extract_lets +onlyGivenNames x9
    dsimp only
    exact (Kept.keep hs)
theorem State.setKvRef_kept (s : State) (c : KvConf) (n : ℕ) (v : ℕ) (hs : Kept Q T s) : Kept Q T (State.setKvRef s c n v) := by
  unfold State.setKvRef
  exact (State.kvPut_kept _ _ _ hs)
theorem State.kvPend_kept (s : State) (a1 : Pend) (hs : Kept Q T s) : Kept Q T (State.kvPend s a1) := by
  unfold State.kvPend
  extract_lets +onlyGivenNames x0
  extract_lets +onlyGivenNames x1
  exact (Kept.keep hs)
theorem State.kvRelease_kept (s : State) (c : KvConf) (n : ℕ) (hs : Kept Q T s) : Kept Q T (State.kvRelease s c n) := by
  unfold State.kvRelease
  extract_lets +onlyGivenNames x0
  extract_lets +onlyGivenNames x1
  have hx1 : Kept Q T x1 := (State.setKvRef_kept _ _ _ _ hs)
  clear_value x1
  exact (ite_kept (State.kvPend_kept _ _ hx1) hx1)
theorem State.setKvPage_kept (s : State) (c : KvConf) (q : ℕ) (l : ℕ) (b : ℕ) (n : ℕ) (hs : Kept Q T s) : Kept Q T (State.setKvPage s c q l
    b n) := by
  unfold State.setKvPage
  exact (State.kvPut_kept _ _ _ hs)
theorem State.kvCopy_kept (s : State) (c : KvConf) (q : ℕ) (l : ℕ) (b : ℕ) (pos : ℕ) (bumped : Bool) (hs : Kept Q T s) : BlkOk Q T
    (State.kvCopy s c q l b pos bumped) := by
  unfold State.kvCopy
  extract_lets +onlyGivenNames x0
  split
  · rename_i y1
    exact OptOk.none
  · rename_i y2
    split
    · rename_i y3 y4 y5
      exact kvCan_ok y5
    · rename_i y6 y7
      split
      · rename_i y8
        exact OptOk.none
      · rename_i y9
        extract_lets +onlyGivenNames x10
        extract_lets +onlyGivenNames x11
        extract_lets +onlyGivenNames x12
        have hx12 : Kept Q T x12 := (State.kvAppVer_kept _ _ (State.kvRecord_kept _ _ hs))
        clear_value x12
        extract_lets +onlyGivenNames x13
        extract_lets +onlyGivenNames x14
        extract_lets +onlyGivenNames x15
        extract_lets +onlyGivenNames x16
        have hx16 : Kept Q T x16 := by
          unfold x16
          refine State.writeHbm_kept _ _ _ ?_
          refine State.writeHbm_kept _ _ _ ?_
          unfold x15
          refine State.readHbm_kept _ _ _ ?_
          unfold x14
          refine State.readHbm_kept _ _ _ ?_
          unfold x13
          exact (State.kvTake_kept _ hx12)
        clear_value x16
        extract_lets +onlyGivenNames x17
        have hx17 : Kept Q T x17 := (State.kvRelease_kept _ _ _ (State.setKvRef_kept _ _ _ _ (State.setKvPage_kept _ _ _ _ _ _ hx16)))
        clear_value x17
        exact (OptOk.some (State.bump_kept _ _ _ (State.setKvSeq_kept _ _ _ hx17)))
theorem State.kvOpen_kept (s : State) (c : KvConf) (e : KvEdit) (hs : Kept Q T s) : AnsOk Q T (State.kvOpen s c e) := by
  unfold State.kvOpen
  split
  · rename_i y0 y1
    exact OptOk.none
  · rename_i y2 y3
    exact (OptOk.some hs)
  · rename_i y4 y5
    exact (State.kvApply_kept _ _ _ hs (fun _ k12_1 => (State.setKvSeq_kept _ _ _ k12_1)))
theorem State.kvFork_kept (s : State) (c : KvConf) (e : KvEdit) (hs : Kept Q T s) : AnsOk Q T (State.kvFork s c e) := by
  unfold State.kvFork
  split
  · rename_i y0 y1
    exact OptOk.none
  · rename_i y2 y3
    exact (OptOk.some hs)
  · rename_i y4 y5
    extract_lets +onlyGivenNames x6
    extract_lets +onlyGivenNames x7
    split
    · rename_i y8
      exact (OptOk.some hs)
    · rename_i y9
      split
      · rename_i y10
        exact (OptOk.some hs)
      · rename_i y11
        extract_lets +onlyGivenNames x12
        split
        · rename_i y13
          exact (OptOk.some hs)
        · rename_i y14
          refine State.kvApply_kept _ _ _ ?_ ?_
          · exact hs
          · intro v15 h16
            extract_lets +onlyGivenNames x17
            have hx17 : Kept Q T x17 := (State.each_kept _ _ _ h16 (fun _ _ k22_2 => (State.each_kept _ _ _ k22_2 (fun _ _ k25_2 => (State.setKvPage_kept _ _ _ _ _ _ k25_2)))))
            clear_value x17
            exact (State.setKvSeq_kept _ _ _ (State.each_kept _ _ _ hx17 (fun _ _ k23_2 => (State.setKvRef_kept _ _ _ _ k23_2))))
theorem State.kvTrunc_kept (s : State) (c : KvConf) (e : KvEdit) (hs : Kept Q T s) : AnsOk Q T (State.kvTrunc s c e) := by
  unfold State.kvTrunc
  extract_lets +onlyGivenNames x0
  extract_lets +onlyGivenNames x1
  split
  · rename_i y2
    exact (OptOk.some hs)
  · rename_i y3
    split
    · rename_i y4
      exact (OptOk.some hs)
    · rename_i y5
      extract_lets +onlyGivenNames x6
      exact (State.kvApply_kept _ _ _ hs (fun _ k13_1 => (State.setKvSeq_kept _ _ _ (State.each_kept _ _ _ k13_1 (fun _ _ k16_2 => (State.kvRelease_kept _ _ _ k16_2))))))
theorem State.kvFreeSeq_kept (s : State) (c : KvConf) (e : KvEdit) (hs : Kept Q T s) : AnsOk Q T (State.kvFreeSeq s c e) := by
  unfold State.kvFreeSeq
  extract_lets +onlyGivenNames x0
  split
  · rename_i y1
    exact (OptOk.some hs)
  · rename_i y2
    extract_lets +onlyGivenNames x3
    exact (State.kvApply_kept _ _ _ hs (fun _ k11_1 => (State.kvPend_kept _ _ (State.setKvSeq_kept _ _ _ (State.each_kept _ _ _ k11_1 (fun _ _ k14_2 => (State.kvRelease_kept _ _ _ k14_2)))))))
theorem State.kvEditOne_kept (s : State) (c : KvConf) (e : KvEdit) (hs : Kept Q T s) : AnsOk Q T (State.kvEditOne s c e) := by
  unfold State.kvEditOne
  split
  · rename_i y0 y1
    exact (State.kvOpen_kept _ _ _ hs)
  · rename_i y2 y3
    exact (State.kvFork_kept _ _ _ hs)
  · rename_i y4 y5
    exact (State.kvAdvance_kept _ _ _ hs)
  · rename_i y6 y7
    exact (State.kvTrunc_kept _ _ _ hs)
  · rename_i y8 y9 y10 y11 y12
    exact (State.kvFreeSeq_kept _ _ _ hs)
theorem State.kvGrow_kept (s : State) (c : KvConf) (q : ℕ) (bumped : Bool) (hs : Kept Q T s) : BlkOk Q T (State.kvGrow s c q bumped) := by
  unfold State.kvGrow
  extract_lets +onlyGivenNames x0
  split
  · rename_i y1
    exact OptOk.none
  · rename_i y2
    split
    · rename_i y3 y4 y5
      exact kvCan_ok y5
    · rename_i y6 y7
      split
      · rename_i y8
        exact OptOk.none
      · rename_i y9
        extract_lets +onlyGivenNames x10
        have hx10 : Kept Q T x10 := (State.kvAppVer_kept _ _ (State.kvRecord_kept _ _ hs))
        clear_value x10
        extract_lets +onlyGivenNames x11
        have hx11 : Kept Q T x11 := by
          unfold x11
          refine State.each_kept _ _ _ ?_ ?_
          · exact hx10
          · intro v12 v13 h14
            extract_lets +onlyGivenNames x15
            refine State.setKvRef_kept _ _ _ _ ?_
            refine State.setKvPage_kept _ _ _ _ _ _ ?_
            unfold x15
            exact (State.kvTake_kept _ h14)
        clear_value x11
        exact (OptOk.some (State.setKvSeq_kept _ _ _ hx11))
theorem State.kvLook_kept (s : State) (rs : List (ℕ × ℕ)) (hs : Kept Q T s) : Kept Q T (State.kvLook s rs) := by
  unfold State.kvLook
  exact (State.each_kept _ _ _ hs (fun _ _ k8_2 => (State.readHbm_kept _ _ _ k8_2)))
theorem State.kvReady_kept (s : State) (c : KvConf) (q : ℕ) (l : ℕ) (pos : ℕ) (bumped : Bool) (hs : Kept Q T s) : BlkOk Q T (State.kvReady s
    c q l pos bumped) := by
  unfold State.kvReady
  extract_lets +onlyGivenNames x0
  extract_lets +onlyGivenNames x1
  split
  · rename_i y2
    exact (State.kvGrow_kept _ _ _ _ hs)
  · rename_i y3
    split
    · rename_i y4
      exact (State.kvCopy_kept _ _ _ _ _ _ _ hs)
    · rename_i y5
      exact (OptOk.some hs)
theorem State.kvWriteTok_kept (s : State) (lr : ℕ) (c : KvConf) (a : KvApp) (l : ℕ) (pos : ℕ) (i : ℕ) (hs : Kept Q T s) : Kept Q T
    (State.kvWriteTok s lr c a l pos i) := by
  unfold State.kvWriteTok
  extract_lets +onlyGivenNames x0
  exact (State.writeHbm_kept _ _ _ (State.writeHbm_kept _ _ _ hs))
theorem State.kvStep_kept (s : State) (lr : Nat) (c : KvConf) (j : KvJob) (hs : Kept Q T s) : Kept Q T (s.kvStep lr c j).1 := by
  unfold State.kvStep
  extract_lets w e res u a pos v
  have hres : ∀ t k, Kept Q T t → Kept Q T (res t k).1 := fun _ _ h => State.rsWrite_kept _ _ _ _ h
  clear_value res
  split
  · have hu : Kept Q T u := State.kvLook_kept _ _ hs
    clear_value u
    split
    · exact hu
    · have he := State.kvEditOne_kept u c (kvEditOf e) hu
      split
      · exact hu
      · rename_i k t q
        exact hres _ _ (OptOk.use he (congrArg KvAns.left q))
  · split
    · exact hres _ _ hs
    · split
      · exact hres _ _ hs
      · have hu : Kept Q T v := State.kvLook_kept _ _ hs
        clear_value v
        split
        · exact hu
        · have hb := State.kvReady_kept v c a.q (kvLayer w) pos j.bumped hu
          split
          · exact hu
          · exact hres _ _ hu
          · rename_i t b q
            exact State.kvWriteTok_kept _ _ _ _ _ _ _ (OptOk.use hb (congrArg KvBlock.left q))
theorem State.kvRun_kept (lr m : Nat) (s : State) (hs : Kept Q T s) : Kept Q T (State.kvRun lr m s) := by
  induction m generalizing s with
  | zero => exact hs
  | succ m ih =>
    unfold State.kvRun
    split
    · extract_lets x r
      have hr : Kept Q T r.1 := State.kvStep_kept _ _ _ _ hs
      split
      · exact State.settle_kept _ _ _ (State.attDone_kept _ _ (State.setRaft_kept _ _ _ hs))
      · split
        · exact hs
        · split
          · exact hr
          · exact ih _ (State.setRaft_kept _ _ _ hr)
    · exact hs
theorem State.kvListCmd_kept (s : State) (edit : Bool) (lr : ℕ) (op : ℕ) (w0 : W64) (w1 : W64) (entryBad : ℕ → Bool) (codes : KvConf → ℕ →
    List (Bool × ℕ)) (reads : KvConf → ℕ → List (ℕ × ℕ)) (hs : Kept Q T s) : Kept Q T (State.kvListCmd s edit lr op w0 w1 entryBad codes
    reads) := by
  unfold State.kvListCmd
  extract_lets +onlyGivenNames x0
  extract_lets +onlyGivenNames x1
  extract_lets +onlyGivenNames x2
  extract_lets +onlyGivenNames x3
  extract_lets +onlyGivenNames x4
  refine State.issue_kept _ _ _ _ _ _ _ _ ?_ ?_
  · exact hs
  · intro v5 v6 h7
    split
    · rename_i y8
      exact OptOk.none
    · rename_i y9
      refine checked_kept _ _ ?_
      extract_lets +onlyGivenNames x10
      extract_lets +onlyGivenNames x11
      have hx11 : Kept Q T x11 := (State.setRaft_kept _ _ _ h7)
      clear_value x11
      extract_lets +onlyGivenNames x12
      have hx12 : Kept Q T x12 := (State.kvRun_kept _ _ _ hx11)
      clear_value x12
      split
      · rename_i y13
        exact OptOk.none
      · rename_i y14
        exact (OptOk.some (State.kvReport_kept _ hx12))
theorem State.kvResume_kept (s : State) (hs : Kept Q T s) : Kept Q T (State.kvResume s) := by
  unfold State.kvResume
  refine State.kvReport_kept _ ?_
  refine State.each_kept _ _ _ ?_ ?_
  · exact hs
  · intro v0 v1 h2
    extract_lets +onlyGivenNames x3
    have hx3 : Kept Q T x3 := (State.kvRun_kept _ _ _ h2)
    clear_value x3
    exact (ite_kept h2 hx3)
theorem atDec_kept (lr : ℕ) (w0 : W64) (w1 : W64) (s : State) (hs : Kept Q T s) : Kept Q T (atDec lr w0 w1 s) := by
  unfold atDec
  extract_lets +onlyGivenNames x0
  extract_lets +onlyGivenNames x1
  extract_lets +onlyGivenNames x2
  extract_lets +onlyGivenNames x3
  extract_lets +onlyGivenNames x4
  extract_lets +onlyGivenNames x5
  extract_lets +onlyGivenNames x6
  refine State.issue_kept _ _ _ _ _ _ _ _ ?_ ?_
  · exact hs
  · intro v7 v8 h9
    split
    · rename_i y10
      exact OptOk.none
    · rename_i y11
      refine checked_kept _ _ ?_
      split
      · rename_i y12 y13
        exact OptOk.none
      · rename_i y14 y15 y16
        extract_lets +onlyGivenNames x17
        have hx17 : Kept Q T x17 := (State.decAll_kept _ _ _ _ _ _ _ (State.useScratch_kept _ _ _ _ h9))
        clear_value x17
        split
        · rename_i y18
          exact (OptOk.some hx17)
        · rename_i y19
          exact (OptOk.some (State.kvReport_kept _ (State.setRaft_kept _ _ _ hx17)))
theorem reclaim_kept (s : State) (hs : Kept Q T s) : Kept Q T (reclaim s) := by
  unfold reclaim
  exact (State.kvResume_kept _ (State.kvReclaim_kept _ hs))
theorem execReclaim_kept (s : State) (hs : Kept Q T s) : OutOk Q T (execReclaim s) := by
  unfold execReclaim
  exact (onCore_kept _ _ (fun _ k6_1 => (reclaim_kept _ k6_1)) hs)
theorem kvRollbackDone_kept (s : State) (hs : Kept Q T s) : Kept Q T (kvRollbackDone s) := by
  unfold kvRollbackDone
  refine ite_kept ?_ ?_
  · extract_lets +onlyGivenNames x0
    have hx0 : Kept Q T x0 := (State.setF_kept _ _ _ hs)
    clear_value x0
    refine ite_kept ?_ ?_
    · extract_lets +onlyGivenNames x1
      have hx1 : Kept Q T x1 := (State.setF_kept _ _ _ hx0)
      clear_value x1
      exact (Kept.keep hx1)
    · exact hx0
  · exact hs
theorem execKvRollbackDone_kept (s : State) (hs : Kept Q T s) : OutOk Q T (execKvRollbackDone s) := by
  unfold execKvRollbackDone
  exact (onCore_kept _ _ (fun _ k6_1 => (kvRollbackDone_kept _ k6_1)) hs)
theorem execAtDec_kept (lr : ℕ) (w0 : W64) (w1 : W64) (s : State) (hs : Kept Q T s) : OutOk Q T (execAtDec lr w0 w1 s) := by
  unfold execAtDec
  exact (onCore_kept _ _ (fun _ k9_1 => (atDec_kept _ _ _ _ k9_1)) hs)
theorem walkerEnd_kept (lr : ℕ) (s : State) (hs : Kept Q T s) : Kept Q T (walkerEnd lr s) := by
  unfold walkerEnd
  refine ite_kept ?_ ?_
  · exact hs
  · extract_lets +onlyGivenNames x0
    split
    · rename_i y1 y2
      exact hs
    · rename_i y3 y4 y5
      exact (State.kvResume_kept _ (State.settle_kept _ _ _ (State.attDone_kept _ _ (State.kvReclaim_kept _ (State.setRaft_kept _ _ _ hs)))))
theorem execWalkerEnd_kept (lr : ℕ) (s : State) (hs : Kept Q T s) : OutOk Q T (execWalkerEnd lr s) := by
  unfold execWalkerEnd
  exact (onCore_kept _ _ (fun _ k7_1 => (walkerEnd_kept _ _ k7_1)) hs)
theorem kvAppend_kept (lr : ℕ) (w0 : W64) (w1 : W64) (s : State) (hs : Kept Q T s) : Kept Q T (kvAppend lr w0 w1 s) := by
  unfold kvAppend
  exact (State.kvListCmd_kept _ _ _ _ _ _ _ _ _ hs)
theorem execKvAppend_kept (lr : ℕ) (w0 : W64) (w1 : W64) (s : State) (hs : Kept Q T s) : OutOk Q T (execKvAppend lr w0 w1 s) := by
  unfold execKvAppend
  exact (onCore_kept _ _ (fun _ k9_1 => (kvAppend_kept _ _ _ _ k9_1)) hs)
theorem kvEdit_kept (lr : ℕ) (w0 : W64) (w1 : W64) (s : State) (hs : Kept Q T s) : Kept Q T (kvEdit lr w0 w1 s) := by
  unfold kvEdit
  exact (State.kvListCmd_kept _ _ _ _ _ _ _ _ _ hs)
theorem execKvEdit_kept (lr : ℕ) (w0 : W64) (w1 : W64) (s : State) (hs : Kept Q T s) : OutOk Q T (execKvEdit lr w0 w1 s) := by
  unfold execKvEdit
  exact (onCore_kept _ _ (fun _ k9_1 => (kvEdit_kept _ _ _ _ k9_1)) hs)
theorem kvConf_kept (lr : ℕ) (w0 : W64) (w1 : W64) (s : State) (hs : Kept Q T s) : Kept Q T (kvConf lr w0 w1 s) := by
  unfold kvConf
  extract_lets +onlyGivenNames x0
  refine State.issue_kept _ _ _ _ _ _ _ _ ?_ ?_
  · exact hs
  · intro v1 v2 h3
    extract_lets +onlyGivenNames x4
    split
    · rename_i y5
      exact OptOk.none
    · rename_i y6
      extract_lets +onlyGivenNames x7
      extract_lets +onlyGivenNames x8
      refine checked_kept _ _ ?_
      split
      · rename_i y9
        exact OptOk.none
      · rename_i y10
        exact (OptOk.some (State.attDone_kept _ _ (State.kvConfigure_kept _ _ h3)))
theorem execKvConf_kept (lr : ℕ) (w0 : W64) (w1 : W64) (s : State) (hs : Kept Q T s) : OutOk Q T (execKvConf lr w0 w1 s) := by
  unfold execKvConf
  exact (onCore_kept _ _ (fun _ k9_1 => (kvConf_kept _ _ _ _ k9_1)) hs)

end Sys2Proof.Machine
end

