-- ==== Sys2Proof/Laws/KeptMedia.lean ====
section
/-! SUPPORT. That every operation keeps what `Kept` says: media, links, survival and the timetable. -/

namespace Sys2Proof.Machine

variable {Q : List Instr} {T : Nat}

theorem State.srcRead_kept (s : State) (tier : ℕ) (a : ℕ) (n : ℕ) (far : FarAns) (hs : Kept Q T s) : Kept Q T (State.srcRead s tier a n
    far).2 := by
  unfold State.srcRead
  extract_lets +onlyGivenNames x0
  split
  · rename_i y1
    extract_lets +onlyGivenNames x2
    extract_lets +onlyGivenNames x3
    dsimp only
    unfold x3
    exact (State.readHbm_kept _ _ _ hs)
  · rename_i y4
    exact (State.aptLoad_kept _ _ _ _ hs)
  · rename_i y5 y6 y7
    dsimp only
    exact hs
theorem State.camOf_kept (s : State) (j : DecJob) (c : StreamCfg) (e : ℕ) (k : ℕ) (src : MSrc) (hs : Kept Q T s) : Kept Q T (State.camOf s j
    c e k src).2 := by
  unfold State.camOf
  extract_lets +onlyGivenNames x0
  split
  · rename_i y1
    dsimp only
    exact hs
  · rename_i y2
    split
    · rename_i y3 y4 y5
      have hy4 : Kept Q T y4 := by
        refine snd_use ?_ y5
        exact (State.srcRead_kept _ _ _ _ _ hs)
      dsimp only
      exact hy4
    · rename_i y6 y7 y8 y9
      have hy8 : Kept Q T y8 := by
        refine snd_use ?_ y9
        exact (State.srcRead_kept _ _ _ _ _ hs)
      split
      · rename_i y10 y11 y12
        have hy11 : Kept Q T y11 := by
          refine snd_use ?_ y12
          exact (State.srcRead_kept _ _ _ _ _ hy8)
        dsimp only
        exact hy11
      · rename_i y13 y14 y15 y16
        have hy15 : Kept Q T y15 := by
          refine snd_use ?_ y16
          exact (State.srcRead_kept _ _ _ _ _ hy8)
        dsimp only
        exact hy15
theorem State.writeStream_kept (s : State) (d : DecJob) (base : ℕ) (bad : Bool) (a4 : StreamCfg × StreamOut × ℕ) (hs : Kept Q T s) : Kept Q
    T (State.writeStream s d base bad a4) := by
  unfold State.writeStream
  extract_lets +onlyGivenNames x0
  extract_lets +onlyGivenNames x1
  have hx1 : Kept Q T x1 := (State.writeHbm_kept _ _ _ hs)
  clear_value x1
  exact (State.writeHbm_kept _ _ _ hx1)
theorem State.countStream_kept (s : State) (o : StreamOut) (hs : Kept Q T s) : Kept Q T (State.countStream s o) := by
  unfold State.countStream
  extract_lets +onlyGivenNames x0
  have hx0 : Kept Q T x0 := (State.bump_kept _ _ _ (State.bump_kept _ _ _ hs))
  clear_value x0
  extract_lets +onlyGivenNames x1
  have hx1 : Kept Q T x1 := (State.bump_kept _ _ _ (State.bump_kept _ _ _ hx0))
  clear_value x1
  exact (ite_kept (State.bump_kept _ _ _ hx1) hx1)
theorem State.substitute_kept (s : State) (q : Req) (sample : ℕ) (stream : ℕ) (cause : ℕ) (tRef : ℕ) (hs : Kept Q T s) : Kept Q T
    (State.substitute s q sample stream cause tRef) := by
  unfold State.substitute
  extract_lets +onlyGivenNames x0
  have hx0 : Kept Q T x0 := (State.writeHbm_kept _ _ _ hs)
  clear_value x0
  exact (State.mediaErr_kept _ _ _ _ _ _ (State.bump_kept _ _ _ (State.bump_kept _ _ _ hx0)))
theorem State.showSeq_kept (s : State) (hs : Kept Q T s) : Kept Q T (State.showSeq s) := by
  unfold State.showSeq
  split
  · rename_i y0 y1 y2
    exact (State.setFs_kept _ _ hs)
  · rename_i y3 y4
    exact hs
theorem State.putJob_kept (s : State) (j : MJob) (hs : Kept Q T s) : Kept Q T (State.putJob s j) := by
  unfold State.putJob
  exact (Kept.keep hs)
theorem State.endJobAt_kept (s : State) (j : MJob) (status : ℕ) (stream : ℕ) (hs : Kept Q T s) : Kept Q T (State.endJobAt s j status stream)
    := by
  unfold State.endJobAt
  extract_lets +onlyGivenNames x0
  have hx0 : Kept Q T x0 := (State.each_kept _ _ _ hs (fun _ _ k11_2 => (State.releaseTag_kept _ _ _ k11_2)))
  clear_value x0
  extract_lets +onlyGivenNames x1
  have hx1 : Kept Q T x1 := (Kept.keep hx0)
  clear_value x1
  extract_lets +onlyGivenNames x2
  have hx2 : Kept Q T x2 := (ite_kept hx1 (State.mediaErr_kept _ _ _ _ _ _ hx1))
  clear_value x2
  exact (State.complete_kept _ _ _ _ (State.noteJob_kept _ _ _ (State.showSeq_kept _ (State.countJobs_kept _ hx2))))
theorem State.endJob_kept (s : State) (j : MJob) (status : ℕ) (hs : Kept Q T s) : Kept Q T (State.endJob s j status) := by
  unfold State.endJob
  exact (State.endJobAt_kept _ _ _ _ hs)
theorem State.commitSample_kept (s : State) (j : MJob) (d : DecJob) (os : List StreamOut) (hs : Kept Q T s) : Kept Q T (State.commitSample s
    j d os) := by
  unfold State.commitSample
  extract_lets +onlyGivenNames x0
  extract_lets +onlyGivenNames x1
  extract_lets +onlyGivenNames x2
  extract_lets +onlyGivenNames x3
  extract_lets +onlyGivenNames x4
  extract_lets +onlyGivenNames x5
  extract_lets +onlyGivenNames x6
  have hx6 : Kept Q T x6 := (State.each_kept _ _ _ hs (fun _ _ k17_2 => (State.writeStream_kept _ _ _ _ _ k17_2)))
  clear_value x6
  extract_lets +onlyGivenNames x7
  have hx7 : Kept Q T x7 := (State.writeHbm_kept _ _ _ hx6)
  clear_value x7
  extract_lets +onlyGivenNames x8
  have hx8 : Kept Q T x8 := (State.each_kept _ _ _ hx7 (fun _ _ k21_2 => (State.countStream_kept _ _ k21_2)))
  clear_value x8
  extract_lets +onlyGivenNames x9
  have hx9 : Kept Q T x9 := (ite_kept hx8 (State.substitute_kept _ _ _ _ _ _ hx8))
  clear_value x9
  extract_lets +onlyGivenNames x10
  extract_lets +onlyGivenNames x11
  have hx11 : Kept Q T x11 := (Kept.keep hx9)
  clear_value x11
  extract_lets +onlyGivenNames x12
  have hx12 : Kept Q T x12 := (State.showSeq_kept _ (State.putJob_kept _ _ hx11))
  clear_value x12
  exact (ite_kept (State.endJob_kept _ _ _ hx12) hx12)
theorem State.decCorrected_kept (s : State) (k : ℕ) (hs : Kept Q T s) : Kept Q T (State.decCorrected s k) := by
  unfold State.decCorrected
  extract_lets +onlyGivenNames x0
  have hx0 : Kept Q T x0 := (State.bump_kept _ _ _ hs)
  clear_value x0
  extract_lets +onlyGivenNames x1
  exact (ite_kept (State.requestReslate_kept _ _ _ _ hx0) hx0)
theorem State.decFailed_kept (s : State) (k : ℕ) (parity : Bool) (hs : Kept Q T s) : Kept Q T (State.decFailed s k parity) := by
  unfold State.decFailed
  extract_lets +onlyGivenNames x0
  have hx0 : Kept Q T x0 := (State.bump_kept _ _ _ hs)
  clear_value x0
  extract_lets +onlyGivenNames x1
  have hx1 : Kept Q T x1 := (State.setFs_kept _ _ hx0)
  clear_value x1
  exact (State.raiseLine_kept _ _ (State.countDec_kept _ (State.requestReslate_kept _ _ _ _ hx1)))
theorem State.streamFault_kept (s : State) (j : MJob) (sample : ℕ) (stream : ℕ) (k : ℕ) (parity : Bool) (hs : Kept Q T s) : Kept Q T
    (State.streamFault s j sample stream k parity) := by
  unfold State.streamFault
  extract_lets +onlyGivenNames x0
  extract_lets +onlyGivenNames x1
  extract_lets +onlyGivenNames x2
  have hx2 : Kept Q T x2 := (State.decFailed_kept _ _ _ hs)
  clear_value x2
  refine ite_kept ?_ ?_
  · exact hx2
  · extract_lets +onlyGivenNames x3
    have hx3 : Kept Q T x3 := (ite_kept (State.bump_kept _ _ _ hx2) hx2)
    clear_value x3
    extract_lets +onlyGivenNames x4
    extract_lets +onlyGivenNames x5
    have hx5 : Kept Q T x5 := (Kept.keep hx3)
    clear_value x5
    exact (State.putJob_kept _ _ hx5)
theorem State.decHit_kept (s : State) (k : ℕ) (parity : Bool) (hs : Kept Q T s) : Kept Q T (State.decHit s k parity) := by
  unfold State.decHit
  split
  · rename_i y0 y1
    exact (State.decFailed_kept _ _ _ hs)
  · rename_i y2 y3 y4
    split
    · rename_i y5 y6
      exact (State.decFailed_kept _ _ _ hs)
    · rename_i y7 y8 y9
      exact (State.streamFault_kept _ _ _ _ _ _ hs)
theorem State.streamRes_kept (s : State) (j : MJob) (d : DecJob) (e : ℕ) (k : ℕ) (src : MSrc) (hs : Kept Q T s) : Kept Q T (State.streamRes
    s j d e k src).2 := by
  unfold State.streamRes
  extract_lets +onlyGivenNames x0
  extract_lets +onlyGivenNames x1
  extract_lets +onlyGivenNames x2
  extract_lets +onlyGivenNames x3
  split
  · rename_i y4
    dsimp only
    exact hs
  · rename_i y5
    split
    · rename_i y6
      split
      · rename_i y7 y8 y9
        have hy8 : Kept Q T y8 := by
          refine snd_use ?_ y9
          exact (State.srcRead_kept _ _ _ _ _ hs)
        dsimp only
        exact hy8
      · rename_i y10 y11 y12 y13
        have hy12 : Kept Q T y12 := by
          refine snd_use ?_ y13
          exact (State.srcRead_kept _ _ _ _ _ hs)
        dsimp only
        exact hy12
    · rename_i y14
      split
      · rename_i y15 y16 y17
        have hy16 : Kept Q T y16 := by
          refine snd_use ?_ y17
          exact (State.camOf_kept _ _ _ _ _ _ hs)
        dsimp only
        exact hy16
      · rename_i y18 y19 y20 y21 y22 y23
        have hy22 : Kept Q T y22 := by
          refine snd_use ?_ y23
          exact (State.camOf_kept _ _ _ _ _ _ hs)
        split
        · rename_i y24
          dsimp only
          exact hy22
        · rename_i y25
          split
          · rename_i y26
            dsimp only
            exact hy22
          · rename_i y27
            split
            · rename_i y28
              dsimp only
              exact hy22
            · rename_i y29
              split
              · rename_i y30
                dsimp only
                exact hy22
              · rename_i y31
                extract_lets +onlyGivenNames x32
                dsimp only
                exact hy22
theorem State.streamsRes_kept (s : State) (j : MJob) (d : DecJob) (e : Nat) (srcs : List MSrc) (ks : List Nat) (acc : List StreamOut) (hs :
    Kept Q T s) : Kept Q T (s.streamsRes j d e srcs ks acc).2.2 := by
  induction ks generalizing s acc with
  | nil => exact hs
  | cons k t ih =>
    unfold State.streamsRes
    have h := State.streamRes_kept s j d e k (srcs.getD k default) hs
    split
    · rename_i u q; exact snd_use h q
    · rename_i u q; exact snd_use h q
    · rename_i o u q; exact ih _ _ (snd_use h q)
theorem State.injectDec_kept (s : State) (j : MJob) (srcs : List MSrc) (hs : Kept Q T s) : OptOk Q T (State.injectDec s j srcs) := by
  unfold State.injectDec
  split
  · rename_i y0 y1
    exact OptOk.none
  · rename_i y2 y3 y4
    split
    · rename_i y5
      exact (OptOk.some (State.decCorrected_kept _ _ (State.useInject_kept _ hs)))
    · rename_i y6
      exact (OptOk.some (State.streamFault_kept _ _ _ _ _ _ (State.useInject_kept _ hs)))
theorem State.jobRetry_kept (s : State) (j : MJob) (hs : Kept Q T s) : Kept Q T (State.jobRetry s j) := by
  unfold State.jobRetry
  exact (State.putJob_kept _ _ hs)
theorem State.startJob_kept (s : State) (q : Req) (encode : Bool) (hs : Kept Q T s) : Kept Q T (State.startJob s q encode) := by
  unfold State.startJob
  extract_lets +onlyGivenNames x0
  have hx0 : Kept Q T x0 := (State.each_kept _ _ _ hs (fun _ _ k10_2 => (State.acceptTag_kept _ _ _ k10_2)))
  clear_value x0
  extract_lets +onlyGivenNames x1
  exact (State.showSeq_kept _ (State.countJobs_kept _ (Kept.keep hx0)))
theorem bufferGrant_kept (r : ℕ) (sample : ℕ) (stream : ℕ) (src : MSrc) (done : List (ℕ × ℕ)) (s : State) (hs : Kept Q T s) : Kept Q T
    (bufferGrant r sample stream src done s) := by
  unfold bufferGrant
  split
  · rename_i y0 y1
    exact hs
  · rename_i y2 y3 y4
    extract_lets +onlyGivenNames x5
    extract_lets +onlyGivenNames x6
    extract_lets +onlyGivenNames x7
    extract_lets +onlyGivenNames x8
    have hx8 : Kept Q T x8 := (Kept.keep hs)
    clear_value x8
    extract_lets +onlyGivenNames x9
    extract_lets +onlyGivenNames x10
    extract_lets +onlyGivenNames x11
    have hx11 : Kept Q T x11 := by
      unfold x11
      refine ite_kept ?_ ?_
      · exact hx8
      · split
        · rename_i y12 y13 y14 y15 y16 y17
          have hy16 : Kept Q T y16 := by
            refine snd_use ?_ y17
            exact (State.camOf_kept _ _ _ _ _ _ hx8)
          extract_lets +onlyGivenNames x18
          exact (ite_kept hy16 (Kept.keep hy16))
        · rename_i y19 y20 y21
          have hy20 : Kept Q T y20 := by
            refine snd_use ?_ y21
            exact (State.camOf_kept _ _ _ _ _ _ hx8)
          exact hy20
    clear_value x11
    exact (Kept.keep hx11)
theorem decodePipelineFault_kept (k : ℕ) (r : ℕ) (sample : ℕ) (stream : ℕ) (parity : Bool) (s : State) (hs : Kept Q T s) : Kept Q T
    (decodePipelineFault k r sample stream parity s) := by
  unfold decodePipelineFault
  refine ite_kept ?_ ?_
  · exact hs
  · split
    · rename_i y0 y1 y2
      exact (ite_kept (State.decFailed_kept _ _ _ hs) (State.streamFault_kept _ _ _ _ _ _ hs))
    · rename_i y3 y4
      exact (State.decFailed_kept _ _ _ hs)
theorem mediaDecodeJob_kept (r : ℕ) (s : State) (hs : Kept Q T s) : Kept Q T (mediaDecodeJob r s) := by
  unfold mediaDecodeJob
  split
  · rename_i y0 y1
    exact hs
  · rename_i y2 y3 y4
    refine ite_kept ?_ ?_
    · exact hs
    · extract_lets +onlyGivenNames x5
      have hx5 : Kept Q T x5 := (State.markStarted_kept _ _ hs)
      clear_value x5
      split
      · rename_i y6 y7 y8
        exact (State.mediaReject_kept _ _ _ hx5)
      · rename_i y9 y10
        extract_lets +onlyGivenNames x11
        extract_lets +onlyGivenNames x12
        extract_lets +onlyGivenNames x13
        have hx13 : Kept Q T x13 := (ite_kept hx5 (State.readHbm_kept _ _ _ hx5))
        clear_value x13
        refine ite_kept ?_ ?_
        · exact (State.mediaReject_kept _ _ _ hx13)
        · split
          · rename_i y14 y15
            exact (State.startJob_kept _ _ _ hx13)
          · rename_i y16 y17
            exact (State.mediaReject_kept _ _ _ hx13)
theorem execMediaDecodeJob_kept (r : ℕ) (s : State) (hs : Kept Q T s) : OutOk Q T (execMediaDecodeJob r s) := by
  unfold execMediaDecodeJob
  exact (onHub_kept _ _ (fun _ k7_1 => (mediaDecodeJob_kept _ _ k7_1)) hs)
theorem execBufferGrant_kept (r : ℕ) (sample : ℕ) (stream : ℕ) (src : MSrc) (done : List (ℕ × ℕ)) (s : State) (hs : Kept Q T s) : OutOk Q T
    (execBufferGrant r sample stream src done s) := by
  unfold execBufferGrant
  exact (onHub_kept _ _ (fun _ k11_1 => (bufferGrant_kept _ _ _ _ _ _ k11_1)) hs)
theorem sampleCommit.sampleGo_kept (srcs : List MSrc) (s : State) (j : MJob) (d : DecJob) (e : ℕ) (hs : Kept Q T s) : Kept Q T
    (sampleCommit.sampleGo srcs s j d e) := by
  unfold sampleCommit.sampleGo
  refine ite_kept ?_ ?_
  · exact (State.jobRetry_kept _ _ (State.readHbm_kept _ _ _ hs))
  · split
    · rename_i y0 y1 y2 y3 y4
      have hy3 : Kept Q T y3 := by
        refine snd2_use ?_ y4
        exact (State.streamsRes_kept _ _ _ _ _ _ _ (State.readHbm_kept _ _ _ hs))
      exact (State.commitSample_kept _ _ _ _ hy3)
    · rename_i y5 y6 y7
      have hy6 : Kept Q T y6 := by
        refine snd2_use ?_ y7
        exact (State.streamsRes_kept _ _ _ _ _ _ _ (State.readHbm_kept _ _ _ hs))
      exact (State.jobRetry_kept _ _ hy6)
    · rename_i y8 y9 y10
      have hy9 : Kept Q T y9 := by
        refine snd2_use ?_ y10
        exact (State.streamsRes_kept _ _ _ _ _ _ _ (State.readHbm_kept _ _ _ hs))
      exact hy9
theorem sampleCommit_kept (r : ℕ) (srcs : List MSrc) (s : State) (hs : Kept Q T s) : Kept Q T (sampleCommit r srcs s) := by
  unfold sampleCommit
  split
  · rename_i y0 y1
    exact hs
  · rename_i y2 y3 y4
    refine ite_kept ?_ ?_
    · exact hs
    · extract_lets +onlyGivenNames x5
      extract_lets +onlyGivenNames x6
      extract_lets +onlyGivenNames x7
      split
      · rename_i y8 y9 y10
        have hy9 : Kept Q T y9 := by
          refine OptOk.use ?_ y10
          exact (State.injectDec_kept _ _ _ hs)
        exact (ite_kept (sampleCommit.sampleGo_kept _ _ _ _ _ hy9) hy9)
      · rename_i y11 y12
        exact (sampleCommit.sampleGo_kept _ _ _ _ _ hs)
theorem execSampleCommit_kept (r : ℕ) (srcs : List MSrc) (s : State) (hs : Kept Q T s) : OutOk Q T (execSampleCommit r srcs s) := by
  unfold execSampleCommit
  exact (onHub_kept _ _ (fun _ k8_1 => (sampleCommit_kept _ _ _ k8_1)) hs)
theorem execDecodePipelineFault_kept (k : ℕ) (r : ℕ) (sample : ℕ) (stream : ℕ) (parity : Bool) (s : State) (hs : Kept Q T s) : OutOk Q T
    (execDecodePipelineFault k r sample stream parity s) := by
  unfold execDecodePipelineFault
  exact (onHub_kept _ _ (fun _ k11_1 => (decodePipelineFault_kept _ _ _ _ _ _ k11_1)) hs)
theorem State.decodeFails_kept (s : State) (j : MJob) (srcs : List MSrc) (hs : Kept Q T s) : Kept Q T (State.decodeFails s j srcs).2 := by
  unfold State.decodeFails
  extract_lets +onlyGivenNames x0
  extract_lets +onlyGivenNames x1
  extract_lets +onlyGivenNames x2
  extract_lets +onlyGivenNames x3
  dsimp only
  unfold x3
  exact (State.streamsRes_kept _ _ _ _ _ _ _ (State.readHbm_kept _ _ _ hs))
theorem State.encCorrected_kept (s : State) (e : ℕ) (hs : Kept Q T s) : Kept Q T (State.encCorrected s e) := by
  unfold State.encCorrected
  exact (State.bump_kept _ _ _ hs)
theorem State.encFailed_kept (s : State) (e : ℕ) (parity : Bool) (hs : Kept Q T s) : Kept Q T (State.encFailed s e parity) := by
  unfold State.encFailed
  extract_lets +onlyGivenNames x0
  have hx0 : Kept Q T x0 := (State.bump_kept _ _ _ hs)
  clear_value x0
  extract_lets +onlyGivenNames x1
  have hx1 : Kept Q T x1 := (State.setF_kept _ _ _ hx0)
  clear_value x1
  exact (State.raiseLine_kept _ _ (State.setF_kept _ _ _ hx1))
theorem State.encodeDone_kept (s : State) (j : MJob) (ps : List CodedPic) (hs : Kept Q T s) : Kept Q T (State.encodeDone s j ps) := by
  unfold State.encodeDone
  extract_lets +onlyGivenNames x0
  extract_lets +onlyGivenNames x1
  exact (State.endJob_kept _ _ _ (State.putJob_kept _ _ (State.bump_kept _ _ _ hs)))
theorem State.outStore_kept (s : State) (tier : ℕ) (a : ℕ) (bs : List Byte) (far : FarAns) (hs : Kept Q T s) : Kept Q T (State.outStore s
    tier a bs far).2 := by
  unfold State.outStore
  split
  · rename_i y0
    dsimp only
    exact (State.writeHbm_kept _ _ _ hs)
  · rename_i y1
    exact (State.aptStore_kept _ _ _ _ hs)
theorem State.encodeOut_kept (s : State) (j : EncJob) (far : FarAns) (hs : Kept Q T s) : Kept Q T (State.encodeOut s j far).2 := by
  unfold State.encodeOut
  extract_lets +onlyGivenNames x0
  extract_lets +onlyGivenNames x1
  extract_lets +onlyGivenNames x2
  have hx2 : Kept Q T x2 := (State.readHbm_kept _ _ _ hs)
  clear_value x2
  split
  · rename_i y3
    dsimp only
    exact hx2
  · rename_i y4
    extract_lets +onlyGivenNames x5
    split
    · rename_i y6 y7 y8
      have hy7 : Kept Q T y7 := by
        refine snd_use ?_ y8
        exact (State.outStore_kept _ _ _ _ _ hx2)
      dsimp only
      exact hy7
    · rename_i y9 y10 y11
      have hy10 : Kept Q T y10 := by
        refine snd_use ?_ y11
        exact (State.outStore_kept _ _ _ _ _ hx2)
      split
      · rename_i y12 y13 y14
        have hy13 : Kept Q T y13 := by
          refine snd_use ?_ y14
          exact (State.outStore_kept _ _ _ _ _ hy10)
        dsimp only
        exact hy13
      · rename_i y15 y16 y17
        have hy16 : Kept Q T y16 := by
          refine snd_use ?_ y17
          exact (State.outStore_kept _ _ _ _ _ hy10)
        dsimp only
        exact hy16
theorem State.endEncodes_kept (s : State) (hs : Kept Q T s) : Kept Q T (State.endEncodes s) := by
  unfold State.endEncodes
  exact (ite_kept (State.each_kept _ _ _ hs (fun _ _ k7_2 => (State.endJob_kept _ _ _ k7_2))) hs)
theorem State.restartEnc_kept (s : State) (j : MJob) (e : ℕ) (hs : Kept Q T s) : Kept Q T (State.restartEnc s j e) := by
  unfold State.restartEnc
  split
  · rename_i y0 y1 y2
    exact (State.putJob_kept _ _ (State.bump_kept _ _ _ hs))
  · rename_i y3 y4
    exact (State.endJob_kept _ _ _ hs)
theorem State.encodePipeHit_kept (s : State) (e : ℕ) (job : Option MJob) (picture : ℕ) (parity : Bool) (hs : Kept Q T s) : Kept Q T
    (State.encodePipeHit s e job picture parity) := by
  unfold State.encodePipeHit
  extract_lets +onlyGivenNames x0
  have hx0 : Kept Q T x0 := (State.encFailed_kept _ _ _ hs)
  clear_value x0
  split
  · rename_i y1
    exact (State.endEncodes_kept _ hx0)
  · rename_i y2 y3
    exact (ite_kept (State.endEncodes_kept _ (State.endJob_kept _ _ _ hx0)) (ite_kept (State.endEncodes_kept _ hx0) (State.restartEnc_kept _ _ _ hx0)))
theorem State.stagerFault_kept (s : State) (hs : Kept Q T s) : Kept Q T (State.stagerFault s) := by
  unfold State.stagerFault
  split
  · rename_i y0 y1 y2
    exact (State.raiseLine_kept _ _ (State.endJob_kept _ _ _ hs))
  · rename_i y3 y4
    exact (State.raiseLine_kept _ _ hs)
theorem encodeJobComplete_kept (r : ℕ) (far : FarAns) (s : State) (hs : Kept Q T s) : Kept Q T (encodeJobComplete r far s) := by
  unfold encodeJobComplete
  split
  · rename_i y0 y1
    exact hs
  · rename_i y2 y3 y4
    refine ite_kept ?_ ?_
    · exact hs
    · split
      · rename_i y5 y6 y7 y8
        have hy7 : Kept Q T y7 := by
          refine snd_use ?_ y8
          exact (State.encodeOut_kept _ _ _ hs)
        exact (State.encodeDone_kept _ _ _ hy7)
      · rename_i y9 y10 y11
        have hy10 : Kept Q T y10 := by
          refine snd_use ?_ y11
          exact (State.encodeOut_kept _ _ _ hs)
        exact (State.jobRetry_kept _ _ hy10)
theorem encodePipelineFault_kept (e : ℕ) (r : ℕ) (picture : ℕ) (parity : Bool) (s : State) (hs : Kept Q T s) : Kept Q T (encodePipelineFault
    e r picture parity s) := by
  unfold encodePipelineFault
  refine ite_kept ?_ ?_
  · exact hs
  · extract_lets +onlyGivenNames x0
    exact (State.encodePipeHit_kept _ _ _ _ _ hs)
theorem mediaEncodeJob_kept (r : ℕ) (s : State) (hs : Kept Q T s) : Kept Q T (mediaEncodeJob r s) := by
  unfold mediaEncodeJob
  split
  · rename_i y0 y1
    exact hs
  · rename_i y2 y3 y4
    refine ite_kept ?_ ?_
    · exact hs
    · extract_lets +onlyGivenNames x5
      have hx5 : Kept Q T x5 := (State.markStarted_kept _ _ hs)
      clear_value x5
      split
      · rename_i y6 y7 y8
        exact (State.mediaReject_kept _ _ _ hx5)
      · rename_i y9 y10
        extract_lets +onlyGivenNames x11
        extract_lets +onlyGivenNames x12
        have hx12 : Kept Q T x12 := (ite_kept hx5 (State.readHbm_kept _ _ _ hx5))
        clear_value x12
        refine ite_kept ?_ ?_
        · exact (State.mediaReject_kept _ _ _ hx12)
        · split
          · rename_i y13 y14
            exact (State.startJob_kept _ _ _ hx12)
          · rename_i y15 y16
            exact (State.mediaReject_kept _ _ _ hx12)
theorem execMediaEncodeJob_kept (r : ℕ) (s : State) (hs : Kept Q T s) : OutOk Q T (execMediaEncodeJob r s) := by
  unfold execMediaEncodeJob
  exact (onHub_kept _ _ (fun _ k7_1 => (mediaEncodeJob_kept _ _ k7_1)) hs)
theorem sourceReadRetry_kept (r : ℕ) (encode : Bool) (srcs : List MSrc) (s : State) (hs : Kept Q T s) : Kept Q T (sourceReadRetry r encode
    srcs s) := by
  unfold sourceReadRetry
  split
  · rename_i y0 y1
    exact hs
  · rename_i y2 y3 y4
    refine ite_kept ?_ ?_
    · exact hs
    · refine ite_kept ?_ ?_
      · split
        · rename_i y5 y6 y7 y8
          have hy7 : Kept Q T y7 := by
            refine snd_use ?_ y8
            exact (State.encodeOut_kept _ _ _ hs)
          exact (State.encodeDone_kept _ _ _ hy7)
        · rename_i y9 y10 y11
          have hy10 : Kept Q T y10 := by
            refine snd_use ?_ y11
            exact (State.encodeOut_kept _ _ _ hs)
          exact (State.endJob_kept _ _ _ hy10)
      · split
        · rename_i y12 y13 y14 y15
          have hy14 : Kept Q T y14 := by
            refine snd_use ?_ y15
            exact (State.decodeFails_kept _ _ _ hs)
          exact (State.endJobAt_kept _ _ _ _ hy14)
        · rename_i y16 y17 y18
          have hy17 : Kept Q T y17 := by
            refine snd_use ?_ y18
            exact (State.decodeFails_kept _ _ _ hs)
          exact (State.putJob_kept _ _ hy17)
theorem execSourceReadRetry_kept (r : ℕ) (encode : Bool) (srcs : List MSrc) (s : State) (hs : Kept Q T s) : OutOk Q T (execSourceReadRetry r
    encode srcs s) := by
  unfold execSourceReadRetry
  exact (onHub_kept _ _ (fun _ k9_1 => (sourceReadRetry_kept _ _ _ _ k9_1)) hs)
theorem execEncodePipelineFault_kept (e : ℕ) (r : ℕ) (picture : ℕ) (parity : Bool) (s : State) (hs : Kept Q T s) : OutOk Q T
    (execEncodePipelineFault e r picture parity s) := by
  unfold execEncodePipelineFault
  exact (onHub_kept _ _ (fun _ k10_1 => (encodePipelineFault_kept _ _ _ _ _ k10_1)) hs)
theorem execEncodeJobComplete_kept (r : ℕ) (far : FarAns) (s : State) (hs : Kept Q T s) : OutOk Q T (execEncodeJobComplete r far s) := by
  unfold execEncodeJobComplete
  exact (onHub_kept _ _ (fun _ k8_1 => (encodeJobComplete_kept _ _ _ k8_1)) hs)
theorem State.acceptFlit_kept (s : State) (p : ℕ) (f : RxFlit) (hs : Kept Q T s) : Kept Q T (State.acceptFlit s p f) := by
  unfold State.acceptFlit
  extract_lets +onlyGivenNames x0
  refine ite_kept ?_ ?_
  · exact (ite_kept (State.bump_kept _ _ _ hs) hs)
  · refine ite_kept ?_ ?_
    · exact hs
    · split
      · rename_i y1 y2 y3
        exact (State.sendFlit_kept _ _ _ _ hs)
      · rename_i y4 y5
        exact hs
theorem State.ackIdle_kept (t0 : State) (s : State) (p : ℕ) (f : RxFlit) (ht0 : Kept Q T t0) (hs : Kept Q T s) : Kept Q T (State.ackIdle t0
    s p f) := by
  unfold State.ackIdle
  exact (ite_kept ht0 (State.sendFlit_kept _ _ _ _ ht0))
theorem State.announce_kept (s : State) (p : ℕ) (itype : ℕ) (hs : Kept Q T s) : Kept Q T (State.announce s p itype) := by
  unfold State.announce
  extract_lets +onlyGivenNames x0
  extract_lets +onlyGivenNames x1
  exact (State.sendFlit_kept _ _ _ _ (State.setPort_kept _ _ _ hs))
theorem State.proposePort_kept (s : State) (p : ℕ) (hs : Kept Q T s) : Kept Q T (State.proposePort s p) := by
  unfold State.proposePort
  exact (ite_kept (State.announce_kept _ _ _ hs) hs)
theorem State.partnerLost_kept (s : State) (hs : Kept Q T s) : Kept Q T (State.partnerLost s) := by
  unfold State.partnerLost
  exact (Kept.keep hs)
theorem State.failLane_kept (s : State) (p : ℕ) (l : ℕ) (hs : Kept Q T s) : Kept Q T (State.failLane s p l) := by
  unfold State.failLane
  extract_lets +onlyGivenNames x0
  have hx0 : Kept Q T x0 := (State.setFs_kept _ _ hs)
  clear_value x0
  extract_lets +onlyGivenNames x1
  exact (State.setPort_kept _ _ _ hx0)
theorem State.countLanes_kept (s : State) (hs : Kept Q T s) : Kept Q T (State.countLanes s) := by
  unfold State.countLanes
  exact (State.setF_kept _ _ _ hs)
theorem State.countPort_kept (s : State) (p : ℕ) (hs : Kept Q T s) : Kept Q T (State.countPort s p) := by
  unfold State.countPort
  extract_lets +onlyGivenNames x0
  exact (State.setFs_kept _ _ hs)
theorem State.spareLane_kept (s : State) (p : ℕ) (k : ℕ) (hs : Kept Q T s) : Kept Q T (State.spareLane s p k) := by
  unfold State.spareLane
  refine ite_kept ?_ ?_
  · exact hs
  · split
    · rename_i y0 y1
      exact hs
    · rename_i y2 y3 y4
      exact (State.setFs_kept _ _ hs)
theorem State.mapLanes_kept (s : State) (p : ℕ) (failed : List ℕ) (hs : Kept Q T s) : Kept Q T (State.mapLanes s p failed) := by
  unfold State.mapLanes
  extract_lets +onlyGivenNames x0
  have hx0 : Kept Q T x0 := (State.each_kept _ _ _ hs (fun _ _ k10_2 => (State.failLane_kept _ _ _ k10_2)))
  clear_value x0
  extract_lets +onlyGivenNames x1
  have hx1 : Kept Q T x1 := (State.countLanes_kept _ (State.countPort_kept _ _ (State.each_kept _ _ _ hx0 (fun _ _ k12_2 => (State.spareLane_kept _ _ _ k12_2)))))
  clear_value x1
  exact (ite_kept hx1 (State.bumpSpareVer_kept _ hx1))
theorem State.repairPort_kept (s : State) (b : ℕ) (p : ℕ) (hs : Kept Q T s) : Kept Q T (State.repairPort s b p) := by
  unfold State.repairPort
  extract_lets +onlyGivenNames x0
  refine ite_kept ?_ ?_
  · extract_lets +onlyGivenNames x1
    have hx1 : Kept Q T x1 := (State.mapLanes_kept _ _ _ hs)
    clear_value x1
    extract_lets +onlyGivenNames x2
    exact (State.setPort_kept _ _ _ (State.setFs_kept _ _ hx1))
  · exact hs
theorem State.judgeLane_kept (s : State) (closes : Bool) (p : ℕ) (l : ℕ) (hs : Kept Q T s) : Kept Q T (State.judgeLane s closes p l) := by
  unfold State.judgeLane
  extract_lets +onlyGivenNames x0
  extract_lets +onlyGivenNames x1
  extract_lets +onlyGivenNames x2
  extract_lets +onlyGivenNames x3
  extract_lets +onlyGivenNames x4
  extract_lets +onlyGivenNames x5
  have hx5 : Kept Q T x5 := (State.setPort_kept _ _ _ hs)
  clear_value x5
  exact (ite_kept (State.setF_kept _ _ _ hx5) hx5)
theorem State.portUp_kept (s : State) (p : ℕ) (hs : Kept Q T s) : Kept Q T (State.portUp s p) := by
  unfold State.portUp
  extract_lets +onlyGivenNames x0
  extract_lets +onlyGivenNames x1
  exact (State.setPort_kept _ _ _ (State.setFs_kept _ _ hs))
theorem State.ridgeUp_kept (s : State) (p : ℕ) (hs : Kept Q T s) : Kept Q T (State.ridgeUp s p) := by
  unfold State.ridgeUp
  extract_lets +onlyGivenNames x0
  have hx0 : Kept Q T x0 := (State.mapLanes_kept _ _ _ hs)
  clear_value x0
  extract_lets +onlyGivenNames x1
  extract_lets +onlyGivenNames x2
  have hx2 : Kept Q T x2 := (ite_kept (State.setPort_kept _ _ _ hx0) hs)
  clear_value x2
  exact (ite_kept (State.portUp_kept _ _ hx2) hx2)
theorem State.bringUpFail_kept (s : State) (p : ℕ) (step : ℕ) (hs : Kept Q T s) : Kept Q T (State.bringUpFail s p step) := by
  unfold State.bringUpFail
  extract_lets +onlyGivenNames x0
  extract_lets +onlyGivenNames x1
  exact (State.setPort_kept _ _ _ (State.setFs_kept _ _ hs))
theorem State.heard_kept (s : State) (p : ℕ) (version : ℕ) (beat : ℕ) (lanes : List ℕ) (hs : Kept Q T s) : Kept Q T (State.heard s p version
    beat lanes) := by
  unfold State.heard
  extract_lets +onlyGivenNames x0
  exact (State.setPort_kept _ _ _ (State.setF_kept _ _ _ hs))
theorem State.startBringUp_kept (s : State) (p : ℕ) (hs : Kept Q T s) : Kept Q T (State.startBringUp s p) := by
  unfold State.startBringUp
  exact (State.setPort_kept _ _ _ (State.setFs_kept _ _ hs))
theorem State.portDown_kept (s : State) (p : ℕ) (cause : ℕ) (hs : Kept Q T s) : Kept Q T (State.portDown s p cause) := by
  unfold State.portDown
  extract_lets +onlyGivenNames x0
  have hx0 : Kept Q T x0 := (State.setF_kept _ _ _ (State.bump_kept _ _ _ hs))
  clear_value x0
  extract_lets +onlyGivenNames x1
  have hx1 : Kept Q T x1 := (ite_kept (State.partnerLost_kept _ hx0) hx0)
  clear_value x1
  exact (State.raiseLine_kept _ _ (State.startBringUp_kept _ _ hx1))
theorem State.repairsEnd_kept (s : State) (hs : Kept Q T s) : Kept Q T (State.repairsEnd s) := by
  unfold State.repairsEnd
  refine State.each_kept _ _ _ ?_ ?_
  · exact hs
  · intro v0 v1 h2
    extract_lets +onlyGivenNames x3
    exact (ite_kept (State.setPort_kept _ _ _ (State.setF_kept _ _ _ h2)) h2)
theorem State.replayAll_kept (s : State) (p : ℕ) (hs : Kept Q T s) : Kept Q T (State.replayAll s p) := by
  unfold State.replayAll
  extract_lets +onlyGivenNames x0
  extract_lets +onlyGivenNames x1
  extract_lets +onlyGivenNames x2
  have hx2 : Kept Q T x2 := (State.setPort_kept _ _ _ hs)
  clear_value x2
  extract_lets +onlyGivenNames x3
  have hx3 : Kept Q T x3 := (Kept.keep hx2)
  clear_value x3
  extract_lets +onlyGivenNames x4
  have hx4 : Kept Q T x4 := (State.bump_kept _ _ _ hx3)
  clear_value x4
  exact (ite_kept (State.portDown_kept _ _ _ hx4) hx4)
theorem State.sendHello_kept (s : State) (p : ℕ) (hs : Kept Q T s) : Kept Q T (State.sendHello s p) := by
  unfold State.sendHello
  extract_lets +onlyGivenNames x0
  extract_lets +onlyGivenNames x1
  exact (Kept.keep hs)
theorem bringUpDone_kept (p : ℕ) (s : State) (hs : Kept Q T s) : Kept Q T (bringUpDone p s) := by
  unfold bringUpDone
  refine ite_kept ?_ ?_
  · exact hs
  · refine ite_kept ?_ ?_
    · extract_lets +onlyGivenNames x0
      exact (State.setPort_kept _ _ _ hs)
    · exact (State.portUp_kept _ _ hs)
theorem bringUpStepTimeout_kept (p : ℕ) (step : ℕ) (s : State) (hs : Kept Q T s) : Kept Q T (bringUpStepTimeout p step s) := by
  unfold bringUpStepTimeout
  exact (ite_kept hs (State.bringUpFail_kept _ _ _ hs))
theorem writeLnkCtrl_kept (p : ℕ) (far : List ℕ) (v : ℕ) (s : State) (hs : Kept Q T s) : Kept Q T (writeLnkCtrl p far v s) := by
  unfold writeLnkCtrl
  refine ite_kept ?_ ?_
  · exact hs
  · extract_lets +onlyGivenNames x0
    extract_lets +onlyGivenNames x1
    have hx1 : Kept Q T x1 := (State.setFs_kept _ _ hs)
    clear_value x1
    refine ite_kept ?_ ?_
    · exact (ite_kept (State.portOff_kept _ _ hx1) hx1)
    · refine ite_kept ?_ ?_
      · exact hx1
      · extract_lets +onlyGivenNames x2
        exact (State.startBringUp_kept _ _ (State.setPort_kept _ _ _ hx1))
theorem execPortBringUp_kept (p : ℕ) (v : W32) (far : List ℕ) (s : State) (hs : Kept Q T s) : OutOk Q T (execPortBringUp p v far s) := by
  unfold execPortBringUp
  exact (onCore_kept _ _ (fun _ k9_1 => (State.gated_kept _ _ _ k9_1 (fun _ k11_1 => (writeLnkCtrl_kept _ _ _ _ k11_1)))) hs)
theorem execBringUpStepTimeout_kept (p : ℕ) (step : ℕ) (s : State) (hs : Kept Q T s) : OutOk Q T (execBringUpStepTimeout p step s) := by
  unfold execBringUpStepTimeout
  exact (onCore_kept _ _ (fun _ k8_1 => (bringUpStepTimeout_kept _ _ _ k8_1)) hs)
theorem execBringUpDone_kept (p : ℕ) (s : State) (hs : Kept Q T s) : OutOk Q T (execBringUpDone p s) := by
  unfold execBringUpDone
  exact (onCore_kept _ _ (fun _ k7_1 => (bringUpDone_kept _ _ k7_1)) hs)
theorem hello_kept (p : ℕ) (id : W64) (port : ℕ) (pwrdom : ℕ) (latency : ℕ) (lanes : List ℕ) (s : State) (hs : Kept Q T s) : Kept Q T (hello
    p id port pwrdom latency lanes s) := by
  unfold hello
  refine ite_kept ?_ ?_
  · exact hs
  · extract_lets +onlyGivenNames x0
    extract_lets +onlyGivenNames x1
    extract_lets +onlyGivenNames x2
    have hx2 : Kept Q T x2 := (State.setPort_kept _ _ _ hs)
    clear_value x2
    refine ite_kept ?_ ?_
    · exact (State.bringUpFail_kept _ _ _ hx2)
    · extract_lets +onlyGivenNames x3
      have hx3 : Kept Q T x3 := (State.setFs_kept _ _ (State.sendHello_kept _ _ hx2))
      clear_value x3
      refine ite_kept ?_ ?_
      · exact (State.bringUpFail_kept _ _ _ hx3)
      · extract_lets +onlyGivenNames x4
        exact (State.setPort_kept _ _ _ hx3)
theorem execHello_kept (p : ℕ) (id : W64) (port : ℕ) (pwrdom : ℕ) (x : HelloEnd) (s : State) (hs : Kept Q T s) : OutOk Q T
    (execHello p id port pwrdom x s) := by
  unfold execHello
  exact (onCore_kept _ _ (fun _ k12_1 => (hello_kept _ _ _ _ _ _ _ k12_1)) hs)
theorem flitReceive_kept (p : ℕ) (f : RxFlit) (s : State) (hs : Kept Q T s) : Kept Q T (flitReceive p f s) := by
  unfold flitReceive
  refine ite_kept ?_ ?_
  · exact hs
  · extract_lets +onlyGivenNames x0
    have hx0 : Kept Q T x0 := (ite_kept (State.bump_kept _ _ _ (State.bump_kept _ _ _ hs)) hs)
    clear_value x0
    refine ite_kept ?_ ?_
    · exact (State.sendFlitN_kept _ _ _ _ _ hx0)
    · extract_lets +onlyGivenNames x1
      extract_lets +onlyGivenNames x2
      extract_lets +onlyGivenNames x3
      have hx3 : Kept Q T x3 := (State.setPort_kept _ _ _ hx0)
      clear_value x3
      extract_lets +onlyGivenNames x4
      have hx4 : Kept Q T x4 := (State.drainFlits_kept _ _ _ hx3)
      clear_value x4
      extract_lets +onlyGivenNames x5
      have hx5 : Kept Q T x5 := (ite_kept (State.acceptFlit_kept _ _ _ hx4) hx4)
      clear_value x5
      extract_lets +onlyGivenNames x6
      have hx6 : Kept Q T x6 := (ite_kept (State.replayAll_kept _ _ hx5) hx5)
      clear_value x6
      exact (ite_kept (State.ackIdle_kept _ _ _ _ hx6 hx3) hx6)
theorem execFlitReceive_kept (p : ℕ) (f : RxFlit) (s : State) (hs : Kept Q T s) : OutOk Q T (execFlitReceive p f s) := by
  unfold execFlitReceive
  exact (onCore_kept _ _ (fun _ k8_1 => (flitReceive_kept _ _ _ k8_1)) hs)
theorem failNotice_kept (p : ℕ) (ttId : ℕ) (counter : ℕ) (pos : ℕ) (s : State) (hs : Kept Q T s) : Kept Q T (failNotice p ttId counter pos
    s) := by
  unfold failNotice
  split
  · rename_i y0 y1
    exact hs
  · rename_i y2 y3 y4
    refine ite_kept ?_ ?_
    · exact hs
    · extract_lets +onlyGivenNames x5
      extract_lets +onlyGivenNames x6
      have hx6 : Kept Q T x6 := (State.each_kept _ _ _ (Kept.keep hs) (fun _ _ k18_2 => (State.sendFlit_kept _ _ _ _ k18_2)))
      clear_value x6
      exact (ite_kept hx6 (State.failCourse_kept _ _ (State.setFs_kept _ _ hx6)))
theorem execFailNotice_kept (p : ℕ) (ttId : ℕ) (counter : ℕ) (pos : ℕ) (s : State) (hs : Kept Q T s) : OutOk Q T (execFailNotice p ttId
    counter pos s) := by
  unfold execFailNotice
  exact (onCore_kept _ _ (fun _ k10_1 => (failNotice_kept _ _ _ _ _ k10_1)) hs)
theorem lanePropose_kept (p : ℕ) (version : ℕ) (beat : ℕ) (lanes : List ℕ) (s : State) (hs : Kept Q T s) : Kept Q T (lanePropose p version
    beat lanes s) := by
  unfold lanePropose
  exact (ite_kept hs (State.announce_kept _ _ _ (State.heard_kept _ _ _ _ _ hs)))
theorem execLanePropose_kept (p : ℕ) (version : ℕ) (beat : ℕ) (lanes : List ℕ) (s : State) (hs : Kept Q T s) : OutOk Q T (execLanePropose p
    version beat lanes s) := by
  unfold execLanePropose
  exact (onCore_kept _ _ (fun _ k10_1 => (lanePropose_kept _ _ _ _ _ k10_1)) hs)
theorem laneAccept_kept (p : ℕ) (version : ℕ) (beat : ℕ) (lanes : List ℕ) (s : State) (hs : Kept Q T s) : Kept Q T (laneAccept p version
    beat lanes s) := by
  unfold laneAccept
  exact (ite_kept hs (State.heard_kept _ _ _ _ _ hs))
theorem execLaneAccept_kept (p : ℕ) (version : ℕ) (beat : ℕ) (lanes : List ℕ) (s : State) (hs : Kept Q T s) : OutOk Q T (execLaneAccept p
    version beat lanes s) := by
  unfold execLaneAccept
  exact (onCore_kept _ _ (fun _ k10_1 => (laneAccept_kept _ _ _ _ _ k10_1)) hs)
theorem laneRepairTimeout_kept (p : ℕ) (s : State) (hs : Kept Q T s) : Kept Q T (laneRepairTimeout p s) := by
  unfold laneRepairTimeout
  exact (ite_kept hs (State.portDown_kept _ _ _ hs))
theorem execLaneRepairTimeout_kept (p : ℕ) (s : State) (hs : Kept Q T s) : OutOk Q T (execLaneRepairTimeout p s) := by
  unfold execLaneRepairTimeout
  exact (onCore_kept _ _ (fun _ k7_1 => (laneRepairTimeout_kept _ _ k7_1)) hs)
theorem portDown_kept (p : ℕ) (lane : Option ℕ) (s : State) (hs : Kept Q T s) : Kept Q T (portDown p lane s) := by
  unfold portDown
  refine ite_kept ?_ ?_
  · exact hs
  · split
    · rename_i y0 y1
      exact (ite_kept hs (State.portDown_kept _ _ _ (State.failLane_kept _ _ _ (State.bump_kept _ _ _ hs))))
    · rename_i y2
      exact (State.portDown_kept _ _ _ hs)
theorem execPortDown_kept (p : ℕ) (lane : Option ℕ) (s : State) (hs : Kept Q T s) : OutOk Q T (execPortDown p lane s) := by
  unfold execPortDown
  exact (onCore_kept _ _ (fun _ k8_1 => (portDown_kept _ _ _ k8_1)) hs)
theorem peerApertureRequest_kept (p : ℕ) (addr : ℕ) (len : ℕ) (store : Option (List Byte)) (s : State) (hs : Kept Q T s) : Kept Q T
    (peerApertureRequest p addr len store s) := by
  unfold peerApertureRequest
  refine ite_kept ?_ ?_
  · exact hs
  · extract_lets +onlyGivenNames x0
    have hx0 : Kept Q T x0 := (Kept.keep hs)
    clear_value x0
    split
    · rename_i y1 y2
      refine ite_kept ?_ ?_
      · extract_lets +onlyGivenNames x3
        have hx3 : Kept Q T x3 := (State.writeHbm_kept _ _ _ hs)
        clear_value x3
        exact (Kept.keep hx3)
      · exact hx0
    · rename_i y4
      refine ite_kept ?_ ?_
      · exact hx0
      · extract_lets +onlyGivenNames x5
        extract_lets +onlyGivenNames x6
        extract_lets +onlyGivenNames x7
        have hx7 : Kept Q T x7 := by
          unfold x7
          unfold x5
          exact (State.readQuiet_kept _ _ _ hs)
        clear_value x7
        exact (Kept.keep hx7)
theorem execPeerApertureRequest_kept (p : ℕ) (addr : ℕ) (len : ℕ) (store : Option (List Byte)) (s : State) (hs : Kept Q T s) : OutOk Q T
    (execPeerApertureRequest p addr len store s) := by
  unfold execPeerApertureRequest
  exact (onCore_kept _ _ (fun _ k10_1 => (peerApertureRequest_kept _ _ _ _ _ k10_1)) hs)
theorem execPeerApertureReply_kept (tag : ℕ) (ans : FarAns) (s : State) (hs : Kept Q T s) : OutOk Q T (execPeerApertureReply tag ans s) :=
    by
  unfold execPeerApertureReply
  exact (onCore_kept _ _ (fun _ k8_1 => (peerReply_kept _ _ _ k8_1)) hs)
theorem State.startOp_kept (s : State) (o : SvlOp) (hs : Kept Q T s) : Kept Q T (State.startOp s o) := by
  unfold State.startOp
  extract_lets +onlyGivenNames x0
  have hx0 : Kept Q T x0 := (State.setF_kept _ _ _ hs)
  clear_value x0
  exact (Kept.keep hx0)
theorem State.countFlash_kept (s : State) (hs : Kept Q T s) : Kept Q T (State.countFlash s) := by
  unfold State.countFlash
  exact (State.setFs_kept _ _ hs)
theorem State.setImages_kept (s : State) (is : List FlashImage) (hs : Kept Q T s) : Kept Q T (State.setImages s is) := by
  unfold State.setImages
  extract_lets +onlyGivenNames x0
  extract_lets +onlyGivenNames x1
  exact (State.countFlash_kept _ (Kept.keep hs))
theorem State.roomFails_kept (s : State) (c : ℕ) (need : ℕ) (hs : Kept Q T s) : Kept Q T (State.roomFails s c need) := by
  unfold State.roomFails
  exact (State.setImages_kept _ _ hs)
theorem State.startSave_kept (s : State) (q : Option Req) (a n : Nat) (hs : Kept Q T s) : Kept Q T (s.startSave q a n).2 := by
  unfold State.startSave
  extract_lets c
  split
  · exact hs
  · exact State.roomFails_kept _ _ _ hs
theorem State.startSave_some_kept (s : State) (q : Option Req) (a n : Nat) (hs : Kept Q T s) : OptOk Q T (s.startSave q a n).1 := by
  unfold State.startSave
  extract_lets c
  split
  · exact OptOk.some (State.startOp_kept _ _ hs)
  · exact OptOk.none
theorem State.autoSave_kept (s : State) (n : Nat) (hs : Kept Q T s) : Kept Q T (s.autoSave n) := by
  unfold State.autoSave
  extract_lets k u
  split
  · exact Kept.keep hs
  · split
    · exact Kept.keep hs
    · have hu : Kept Q T u := Kept.keep hs
      split
      · exact hu
      · split
        · rename_i t v e
          exact State.startSave_some_kept u none 0 n hu t (by rw [e])
        · rename_i t e
          exact snd_use (State.startSave_kept _ _ _ _ hu) e
theorem State.writeHead_kept (s : State) (b : Build) (committed : Bool) (tt : Option (ℕ × ℕ)) (hs : Kept Q T s) : Kept Q T (State.writeHead
    s b committed tt) := by
  unfold State.writeHead
  extract_lets +onlyGivenNames x0
  extract_lets +onlyGivenNames x1
  exact (State.writeHbm_kept _ _ _ hs)
theorem State.sealBuild_kept (s : State) (done : Option Bool) (tt : Option (ℕ × ℕ)) (hs : Kept Q T s) : Kept Q T (State.sealBuild s done tt)
    := by
  unfold State.sealBuild
  split
  · rename_i y0 y1
    exact hs
  · rename_i y2 y3 y4
    extract_lets +onlyGivenNames x5
    extract_lets +onlyGivenNames x6
    have hx6 : Kept Q T x6 := (Kept.keep hs)
    clear_value x6
    split
    · rename_i y7
      exact (State.setF_kept _ _ _ hx6)
    · rename_i y8 y9
      refine ite_kept ?_ ?_
      · exact (State.rejectSlot_kept _ _ _ hx6)
      · refine ite_kept ?_ ?_
        · exact (State.bump_kept _ _ _ (State.setF_kept _ _ _ hx6))
        · extract_lets +onlyGivenNames x10
          have hx10 : Kept Q T x10 := (State.setSlot_kept _ _ _ _ _ (State.writeHead_kept _ _ _ _ hx6))
          clear_value x10
          extract_lets +onlyGivenNames x11
          have hx11 : Kept Q T x11 := (State.pointSince_kept _ _ _ (State.bump_kept _ _ _ hx10))
          clear_value x11
          exact (State.autoSave_kept _ _ (State.countAck_kept _ hx11))
theorem State.setFill_kept (s : State) (a : ℕ) (f : Option Fill) (hs : Kept Q T s) : Kept Q T (State.setFill s a f) := by
  unfold State.setFill
  exact (Kept.keep hs)
theorem State.dropFill_kept (s : State) (a : ℕ) (hs : Kept Q T s) : Kept Q T (State.dropFill s a) := by
  unfold State.dropFill
  split
  · rename_i y0 y1
    exact hs
  · rename_i y2 y3 y4
    exact (State.setFill_kept _ _ _ (State.clrBit_kept _ _ _ (State.setF_kept _ _ _ hs)))
theorem State.slotsInRange_kept (s : State) (hs : Kept Q T s) : Kept Q T (State.slotsInRange s) := by
  unfold State.slotsInRange
  refine State.countAck_kept _ ?_
  refine State.each_kept _ _ _ ?_ ?_
  · exact hs
  · intro v0 v1 h2
    refine ite_kept ?_ ?_
    · extract_lets +onlyGivenNames x3
      have hx3 : Kept Q T x3 := (ite_kept (State.dropFill_kept _ _ h2) h2)
      clear_value x3
      exact (State.setF_kept _ _ _ hx3)
    · exact h2
theorem State.dropLost_kept (s : State) (hs : Kept Q T s) : Kept Q T (State.dropLost s) := by
  unfold State.dropLost
  refine State.each_kept _ _ _ ?_ ?_
  · exact hs
  · intro v0 v1 h2
    split
    · rename_i y3 y4 y5
      exact (ite_kept (State.dropFill_kept _ _ h2) h2)
    · rename_i y6 y7
      exact h2
theorem State.buildReads_kept (s : State) (r : ℕ) (hs : Kept Q T s) : Kept Q T (State.buildReads s r).2 := by
  unfold State.buildReads
  extract_lets +onlyGivenNames x0
  extract_lets +onlyGivenNames x1
  extract_lets +onlyGivenNames x2
  extract_lets +onlyGivenNames x3
  dsimp only
  unfold x3
  refine State.readQuiet_kept _ _ _ ?_
  unfold x2
  exact (State.readQuiet_kept _ _ _ hs)
theorem State.compareReads_kept (s : State) (m : ℕ) (blocks : ℕ) (hs : Kept Q T s) : Kept Q T (State.compareReads s m blocks).2 := by
  unfold State.compareReads
  extract_lets +onlyGivenNames x0
  dsimp only
  unfold x0
  exact (State.readQuiet_kept _ _ _ hs)
theorem State.setChanged_kept (s : State) (n : ℕ) (bs : List ℕ) (hs : Kept Q T s) : Kept Q T (State.setChanged s n bs) := by
  unfold State.setChanged
  exact (ite_kept (Kept.keep hs) (Kept.keep hs))
theorem State.buildDecision_kept (s : State) (c : Course) (hs : Kept Q T s) : Kept Q T (State.buildDecision s c) := by
  unfold State.buildDecision
  refine ite_kept ?_ ?_
  · exact hs
  · extract_lets +onlyGivenNames x0
    have hx0 : Kept Q T x0 := (State.holdStreams_kept _ hs)
    clear_value x0
    refine ite_kept ?_ ?_
    · exact hx0
    · extract_lets +onlyGivenNames x1
      refine ite_kept ?_ ?_
      · exact (State.bump_kept _ _ _ hx0)
      · refine ite_kept ?_ ?_
        · exact (State.setF_kept _ _ _ hx0)
        · extract_lets +onlyGivenNames x2
          extract_lets +onlyGivenNames x3
          extract_lets +onlyGivenNames x4
          extract_lets +onlyGivenNames x5
          extract_lets +onlyGivenNames x6
          have hx6 : Kept Q T x6 := by
            unfold x6
            refine State.writeHbm_kept _ _ _ ?_
            refine State.setSlot_kept _ _ _ _ _ ?_
            unfold x4
            refine State.compareReads_kept _ _ _ ?_
            unfold x3
            exact (State.buildReads_kept _ _ hx0)
          clear_value x6
          extract_lets +onlyGivenNames x7
          have hx7 : Kept Q T x7 := (State.setChanged_kept _ _ _ hx6)
          clear_value x7
          exact (Kept.keep hx7)
theorem State.blocksRecord.sendBlocks_kept (s : State) (p : SarkPlan) (is : List Nat) (acc : List Byte) (hs : Kept Q T s) : Kept Q T
    (State.blocksRecord.sendBlocks s p is acc).2 := by
  induction is generalizing s acc with
  | nil => exact hs
  | cons i t ih =>
    unfold State.blocksRecord.sendBlocks
    exact ih _ _ (State.readSent_kept _ _ _ hs)
theorem State.blocksRecord_kept (s : State) (p : SarkPlan) (h : SarkHdr) (first : ℕ) (hs : Kept Q T s) : Kept Q T (State.blocksRecord s p h
    first).2 := by
  unfold State.blocksRecord
  extract_lets +onlyGivenNames x0
  dsimp only
  unfold x0
  exact (State.blocksRecord.sendBlocks_kept _ _ _ _ hs)
theorem State.copyBase_kept (s : State) (a : ℕ) (pos : ℕ) (f : Fill) (hs : Kept Q T s) : Kept Q T (State.copyBase s a pos f).2 := by
  unfold State.copyBase
  split
  · rename_i y0 y1
    dsimp only
    exact hs
  · rename_i y2 y3 y4
    extract_lets +onlyGivenNames x5
    dsimp only
    exact (State.each_kept _ _ _ hs (fun _ _ k16_2 => (State.writeHbm_kept _ _ _ (State.readQuiet_kept _ _ _ k16_2))))
theorem State.svlDone_kept (s : State) (q : Option Req) (status : ℕ) (course : ℕ) (hs : Kept Q T s) : Kept Q T (State.svlDone s q status
    course) := by
  unfold State.svlDone
  split
  · rename_i y0 y1
    exact (State.complete_kept _ _ _ _ hs)
  · rename_i y2
    exact hs
theorem State.flashRelease_kept (s : State) (q : Option Req) (hs : Kept Q T s) : Kept Q T (State.flashRelease s q) := by
  unfold State.flashRelease
  split
  · rename_i y0 y1
    exact (State.releaseTag_kept _ _ _ hs)
  · rename_i y2
    exact hs
theorem State.endOp_kept (s : State) (o : SvlOp) (undo : Bool) (hs : Kept Q T s) : Kept Q T (State.endOp s o undo) := by
  unfold State.endOp
  exact (State.flashRelease_kept _ _ (State.releaseSlot_kept _ _ _ (Kept.keep hs)))
theorem State.sealFilled_kept (s : State) (a : ℕ) (n : ℕ) (hs : Kept Q T s) : Kept Q T (State.sealFilled s a n) := by
  unfold State.sealFilled
  extract_lets +onlyGivenNames x0
  have hx0 : Kept Q T x0 := (State.setF_kept _ _ _ hs)
  clear_value x0
  extract_lets +onlyGivenNames x1
  have hx1 : Kept Q T x1 := (ite_kept (State.pointSince_kept _ _ _ (State.setChanged_kept _ _ _ hx0)) hx0)
  clear_value x1
  exact (State.countAck_kept _ hx1)
theorem State.endFill_kept (s : State) (o : SvlOp) (hs : Kept Q T s) : Kept Q T (State.endFill s o) := by
  unfold State.endFill
  extract_lets +onlyGivenNames x0
  extract_lets +onlyGivenNames x1
  have hx1 : Kept Q T x1 := (State.endOp_kept _ _ _ (State.readSlotPoint_kept _ _ _ hs))
  clear_value x1
  exact (ite_kept (State.svlDone_kept _ _ _ _ (State.sealFilled_kept _ _ _ hx1)) (State.svlDone_kept _ _ _ _ (State.rejectSlot_kept _ _ _ hx1)))
theorem State.copyIn_kept (s : State) (o : SvlOp) (far : FarAns) (hs : Kept Q T s) : Kept Q T (State.copyIn s o far) := by
  unfold State.copyIn
  extract_lets +onlyGivenNames x0
  have hx0 : ∀ w0, Kept Q T w0 → Kept Q T (x0 w0) := by
    intro v1 h2
    unfold x0
    exact (State.svlDone_kept _ _ _ _ (State.setF_kept _ _ _ (State.endOp_kept _ _ _ h2)))
  clear_value x0
  split
  · rename_i y3 y4 y5
    have hy4 : Kept Q T y4 := by
      refine snd_use ?_ y5
      exact (State.aptLoad_kept _ _ _ _ hs)
    exact (hx0 _ hy4)
  · rename_i y6 y7 y8 y9
    have hy8 : Kept Q T y8 := by
      refine snd_use ?_ y9
      exact (State.aptLoad_kept _ _ _ _ hs)
    extract_lets +onlyGivenNames x10
    extract_lets +onlyGivenNames x11
    extract_lets +onlyGivenNames x12
    refine ite_kept ?_ ?_
    · exact (State.svlDone_kept _ _ _ _ (State.rejectSlot_kept _ _ _ (State.endOp_kept _ _ _ hy8)))
    · refine ite_kept ?_ ?_
      · exact (State.svlDone_kept _ _ _ _ (State.endOp_kept _ _ _ hy8))
      · extract_lets +onlyGivenNames x13
        split
        · rename_i y14 y15 y16
          have hy15 : Kept Q T y15 := by
            refine snd_use ?_ y16
            exact (State.aptLoad_kept _ _ _ _ hy8)
          exact (hx0 _ hy15)
        · rename_i y17 y18 y19 y20
          have hy19 : Kept Q T y19 := by
            refine snd_use ?_ y20
            exact (State.aptLoad_kept _ _ _ _ hy8)
          exact (State.endFill_kept _ _ (State.setF_kept _ _ _ (State.writeHbm_kept _ _ _ hy19)))
theorem State.copyOut_kept (s : State) (o : SvlOp) (bad : Bool) (bs : List Byte) (far : FarAns) (hs : Kept Q T s) : Kept Q T (State.copyOut
    s o bad bs far) := by
  unfold State.copyOut
  refine ite_kept ?_ ?_
  · exact (State.svlDone_kept _ _ _ _ (State.endOp_kept _ _ _ hs))
  · extract_lets +onlyGivenNames x0
    refine State.svlDone_kept _ _ _ _ ?_
    refine State.endOp_kept _ _ _ ?_
    unfold x0
    exact (State.aptStore_kept _ _ _ _ hs)
theorem State.fillFrom_kept (s : State) (n : ℕ) (pos : ℕ) (hs : Kept Q T s) : Kept Q T (State.fillFrom s n pos) := by
  unfold State.fillFrom
  exact (ite_kept (Kept.keep hs) (Kept.keep hs))
theorem State.fillFor_kept (s : State) (a : ℕ) (h : SarkHdr) (hs : Kept Q T s) : Kept Q T (State.fillFor s a h).2 := by
  unfold State.fillFor
  split
  · rename_i y0 y1 y2
    dsimp only
    exact hs
  · rename_i y3 y4
    extract_lets +onlyGivenNames x5
    have hx5 : Kept Q T x5 := (State.dropFill_kept _ _ hs)
    clear_value x5
    extract_lets +onlyGivenNames x6
    extract_lets +onlyGivenNames x7
    extract_lets +onlyGivenNames x8
    split
    · rename_i y9
      dsimp only
      exact hx5
    · rename_i y10
      extract_lets +onlyGivenNames x11
      extract_lets +onlyGivenNames x12
      have hx12 : Kept Q T x12 := (State.setSlot_kept _ _ _ _ _ (ite_kept hx5 (State.fillFrom_kept _ _ _ hx5)))
      clear_value x12
      extract_lets +onlyGivenNames x13
      have hx13 : Kept Q T x13 := (State.setFill_kept _ _ _ hx12)
      clear_value x13
      dsimp only
      exact (State.setBit_kept _ _ _ hx13)
theorem State.flashAccept_kept (s : State) (q : Req) (hs : Kept Q T s) : Kept Q T (State.flashAccept s q) := by
  unfold State.flashAccept
  exact (State.acceptTag_kept _ _ _ hs)
theorem flashFault_kept (s : State) (hs : Kept Q T s) : Kept Q T (flashFault s) := by
  unfold flashFault
  extract_lets +onlyGivenNames x0
  extract_lets +onlyGivenNames x1
  have hx1 : Kept Q T x1 := (State.each_kept _ _ _ hs (fun _ _ k9_2 => (State.svlDone_kept _ _ _ _ (State.endOp_kept _ _ _ k9_2))))
  clear_value x1
  extract_lets +onlyGivenNames x2
  extract_lets +onlyGivenNames x3
  have hx3 : Kept Q T x3 := by
    unfold x3
    split
    · rename_i y4 y5 y6
      exact (Kept.keep hx1)
    · rename_i y7 y8
      exact hx1
  clear_value x3
  exact (State.raiseLine_kept _ _ (Kept.keep hx3))
theorem State.onSnap_kept (s : State) (r : ℕ) (act : ℕ) (f : Req → ℕ → ℕ → ℕ → State → State) (hs : Kept Q T s) (hf : ∀ x0 x1 x2 x3 x4, Kept
    Q T x4 → Kept Q T (f x0 x1 x2 x3 x4)) : Kept Q T (State.onSnap s r act f) := by
  unfold State.onSnap
  split
  · rename_i y0 y1
    exact hs
  · rename_i y2 y3 y4
    exact (ite_kept hs (hf _ _ _ _ _ (State.markStarted_kept _ _ hs)))
theorem State.packRecords_kept (s : State) (p : SarkPlan) (h : SarkHdr) (room : Nat) (gs : List Nat) (acc : List Byte) (hs : Kept Q T s) :
    Kept Q T (s.packRecords p h room gs acc).2.2 := by
  induction gs generalizing s room acc with
  | nil => exact hs
  | cons g t ih =>
    unfold State.packRecords
    extract_lets n r
    have hr : Kept Q T r.2 := State.blocksRecord_kept _ _ _ _ hs
    split
    · exact hs
    · exact ih _ _ _ hr
theorem State.pairWritten_kept (s : State) (partner : Option ℕ) (hot : Option ℕ) (hs : Kept Q T s) : Kept Q T (State.pairWritten s partner
    hot) := by
  unfold State.pairWritten
  extract_lets +onlyGivenNames x0
  have hx0 : Kept Q T x0 := (State.setF_kept _ _ _ hs)
  clear_value x0
  extract_lets +onlyGivenNames x1
  have hx1 : Kept Q T x1 := (Kept.keep hx0)
  clear_value x1
  extract_lets +onlyGivenNames x2
  have hx2 : Kept Q T x2 := (State.dropFill_kept _ _ (State.dropFill_kept _ _ hx1))
  clear_value x2
  extract_lets +onlyGivenNames x3
  have hx3 : Kept Q T x3 := by
    unfold x3
    split
    · rename_i y4 y5
      exact (Kept.keep hx2)
    · rename_i y6
      exact hx1
  clear_value x3
  extract_lets +onlyGivenNames x7
  have hx7 : Kept Q T x7 := by
    unfold x7
    split
    · rename_i y8 y9
      exact (Kept.keep hx3)
    · rename_i y10
      exact hx3
  clear_value x7
  exact (State.countAck_kept _ hx7)
theorem State.planBytes_kept (s : State) (p : SarkPlan) (h : SarkHdr) (cursor : ℕ) (room : ℕ) (hs : Kept Q T s) : Kept Q T (State.planBytes
    s p h cursor room).2.2 := by
  unfold State.planBytes
  split
  · rename_i y0
    dsimp only
    exact hs
  · rename_i y1
    split
    · rename_i y2 y3 y4 y5 y6 y7
      have hy6 : Kept Q T y6 := by
        refine snd2_use ?_ y7
        exact (State.packRecords_kept _ _ _ _ _ _ hs)
      dsimp only
      exact hy6
    · rename_i y8 y9 y10 y11
      have hy10 : Kept Q T y10 := by
        refine snd2_use ?_ y11
        exact (State.packRecords_kept _ _ _ _ _ _ hs)
      split
      · rename_i y12
        dsimp only
        exact hy10
      · rename_i y13
        extract_lets +onlyGivenNames x14
        dsimp only
        unfold x14
        exact (State.readSent_kept _ _ _ hy10)
theorem State.restorePart_kept (s : State) (a : ℕ) (n : ℕ) (hs : Kept Q T s) : Kept Q T (State.restorePart s a n) := by
  unfold State.restorePart
  exact (State.nextFree_kept _ (State.writeHbm_kept _ _ _ (State.writeHbm_kept _ _ _ hs)))
theorem State.restorePoint_kept (s : State) (a : ℕ) (n : ℕ) (hs : Kept Q T s) : Kept Q T (State.restorePoint s a n) := by
  unfold State.restorePoint
  extract_lets +onlyGivenNames x0
  extract_lets +onlyGivenNames x1
  extract_lets +onlyGivenNames x2
  extract_lets +onlyGivenNames x3
  extract_lets +onlyGivenNames x4
  extract_lets +onlyGivenNames x5
  extract_lets +onlyGivenNames x6
  have hx6 : Kept Q T x6 := (State.writeHbm_kept _ _ _ hs)
  clear_value x6
  extract_lets +onlyGivenNames x7
  have hx7 : Kept Q T x7 := (State.writeHbm_kept _ _ _ hx6)
  clear_value x7
  extract_lets +onlyGivenNames x8
  have hx8 : Kept Q T x8 := (State.setSeed_kept _ _ (State.setFs_kept _ _ hx7))
  clear_value x8
  extract_lets +onlyGivenNames x9
  have hx9 : Kept Q T x9 := (ite_kept (State.pointSince_kept _ _ _ hx8) hx8)
  clear_value x9
  exact (Kept.keep hx9)
theorem State.sarkAcked_kept (s : State) (h : SarkHdr) (hs : Kept Q T s) : Kept Q T (State.sarkAcked s h) := by
  unfold State.sarkAcked
  extract_lets +onlyGivenNames x0
  have hx0 : Kept Q T x0 := (State.setFs_kept _ _ hs)
  clear_value x0
  extract_lets +onlyGivenNames x1
  have hx1 : Kept Q T x1 := (ite_kept (Kept.keep hx0) hs)
  clear_value x1
  extract_lets +onlyGivenNames x2
  have hx2 : Kept Q T x2 := (ite_kept (Kept.keep hx1) hx1)
  clear_value x2
  exact (State.countAck_kept _ hx2)
theorem State.sarkDrop_kept (s : State) (hs : Kept Q T s) : Kept Q T (State.sarkDrop s) := by
  unfold State.sarkDrop
  exact (State.bump_kept _ _ _ hs)
theorem State.sarkIn_kept (s : State) (rt : ℕ) (bs : List Byte) (f : State → SarkHdr → ℕ → State) (hs : Kept Q T s) (hf : ∀ x0 x1 x2, Kept Q
    T x0 → Kept Q T (f x0 x1 x2)) : Kept Q T (State.sarkIn s rt bs f) := by
  unfold State.sarkIn
  refine ite_kept ?_ ?_
  · exact hs
  · refine ite_kept ?_ ?_
    · exact (State.sarkDrop_kept _ hs)
    · refine ite_kept ?_ ?_
      · exact (State.sarkDrop_kept _ (Kept.keep hs))
      · extract_lets +onlyGivenNames x0
        refine ite_kept ?_ ?_
        · exact hs
        · split
          · rename_i y1 y2
            exact (State.sarkDrop_kept _ hs)
          · rename_i y3 y4 y5
            refine ite_kept ?_ ?_
            · exact (State.sarkDrop_kept _ hs)
            · extract_lets +onlyGivenNames x6
              extract_lets +onlyGivenNames x7
              refine ite_kept ?_ ?_
              · refine State.sarkDrop_kept _ ?_
                extract_lets +onlyGivenNames x8
                have hx8 : Kept Q T x8 := (State.setF_kept _ _ _ hs)
                clear_value x8
                exact (Kept.keep hx8)
              · extract_lets +onlyGivenNames x9
                have hx9 : Kept Q T x9 := (ite_kept (State.setF_kept _ _ _ hs) hs)
                clear_value x9
                exact (hf _ _ _ (State.sarkAcked_kept _ _ (State.bump_kept _ _ _ hx9)))
theorem State.sarkSend_kept (s : State) (own : ℕ) (pos : ℕ) (push : Bool) (room : ℕ) (hs : Kept Q T s) : Kept Q T (State.sarkSend s own pos
    push room).2 := by
  unfold State.sarkSend
  split
  · rename_i y0
    dsimp only
    exact hs
  · rename_i y1
    extract_lets +onlyGivenNames x2
    extract_lets +onlyGivenNames x3
    extract_lets +onlyGivenNames x4
    extract_lets +onlyGivenNames x5
    extract_lets +onlyGivenNames x6
    dsimp only
    refine State.bump_kept _ _ _ ?_
    unfold x5
    split
    · rename_i y7
      split
      · rename_i y8 y9
        dsimp only
        exact hs
      · rename_i y10 y11 y12
        extract_lets +onlyGivenNames x13
        extract_lets +onlyGivenNames x14
        extract_lets +onlyGivenNames x15
        have hx15 : Kept Q T x15 := by
          unfold x15
          unfold x14
          unfold x4
          exact (State.planBytes_kept _ _ _ _ _ hs)
        clear_value x15
        extract_lets +onlyGivenNames x16
        have hx16 : Kept Q T x16 := (Kept.keep hx15)
        clear_value x16
        dsimp only
        exact (State.holdStreams_kept _ hx16)
    · rename_i y17
      split
      · rename_i y18 y19
        dsimp only
        exact hs
      · rename_i y20 y21 y22
        extract_lets +onlyGivenNames x23
        extract_lets +onlyGivenNames x24
        extract_lets +onlyGivenNames x25
        have hx25 : Kept Q T x25 := by
          unfold x25
          unfold x24
          unfold x4
          exact (State.planBytes_kept _ _ _ _ _ hs)
        clear_value x25
        extract_lets +onlyGivenNames x26
        have hx26 : Kept Q T x26 := (Kept.keep hx25)
        clear_value x26
        dsimp only
        exact (State.holdStreams_kept _ hx26)
theorem State.takeBlocks_kept (s : State) (bs : List Byte) (h : SarkHdr) (a : ℕ) (hs : Kept Q T s) : Kept Q T (State.takeBlocks s bs h a) :=
    by
  unfold State.takeBlocks
  split
  · rename_i y0 y1 y2
    have hy1 : Kept Q T y1 := by
      refine snd_use ?_ y2
      exact (State.fillFor_kept _ _ _ hs)
    exact hy1
  · rename_i y3 y4 y5 y6
    have hy5 : Kept Q T y5 := by
      refine snd_use ?_ y6
      exact (State.fillFor_kept _ _ _ hs)
    extract_lets +onlyGivenNames x7
    extract_lets +onlyGivenNames x8
    have hx8 : Kept Q T x8 := (State.each_kept _ _ _ hy5 (fun _ _ k19_2 => (State.writeHbm_kept _ _ _ k19_2)))
    clear_value x8
    exact (State.setFill_kept _ _ _ hx8)
theorem State.takeSeal_kept (s : State) (bs : List Byte) (h : SarkHdr) (a : ℕ) (hs : Kept Q T s) : Kept Q T (State.takeSeal s bs h a) := by
  unfold State.takeSeal
  split
  · rename_i y0 y1 y2
    have hy1 : Kept Q T y1 := by
      refine snd_use ?_ y2
      exact (State.fillFor_kept _ _ _ hs)
    exact hy1
  · rename_i y3 y4 y5 y6
    have hy5 : Kept Q T y5 := by
      refine snd_use ?_ y6
      exact (State.fillFor_kept _ _ _ hs)
    extract_lets +onlyGivenNames x7
    have hx7 : Kept Q T x7 := (State.writeHbm_kept _ _ _ hy5)
    clear_value x7
    extract_lets +onlyGivenNames x8
    extract_lets +onlyGivenNames x9
    refine ite_kept ?_ ?_
    · exact hx7
    · extract_lets +onlyGivenNames x10
      extract_lets +onlyGivenNames x11
      have hx11 : Kept Q T x11 := by
        unfold x11
        refine State.clrBit_kept _ _ _ ?_
        refine State.setFill_kept _ _ _ ?_
        unfold x10
        exact (State.copyBase_kept _ _ _ _ hx7)
      clear_value x11
      extract_lets +onlyGivenNames x12
      extract_lets +onlyGivenNames x13
      have hx13 : Kept Q T x13 := (State.readSlotPoint_kept _ _ _ hx11)
      clear_value x13
      exact (ite_kept (State.sealFilled_kept _ _ _ hx13) (State.rejectSlot_kept _ _ _ hx13))
theorem writeSvlCtrl_kept (v : ℕ) (s : State) (hs : Kept Q T s) : Kept Q T (writeSvlCtrl v s) := by
  unfold writeSvlCtrl
  extract_lets +onlyGivenNames x0
  have hx0 : Kept Q T x0 := (State.setFs_kept _ _ hs)
  clear_value x0
  exact (Kept.keep hx0)
theorem writeSvlPair_kept (v : ℕ) (s : State) (hs : Kept Q T s) : Kept Q T (writeSvlPair v s) := by
  unfold writeSvlPair
  extract_lets +onlyGivenNames x0
  extract_lets +onlyGivenNames x1
  have hx1 : Kept Q T x1 := (State.setFs_kept _ _ hs)
  clear_value x1
  exact (State.pairWritten_kept _ _ _ hx1)
theorem writeSvlHot_kept (v : ℕ) (s : State) (hs : Kept Q T s) : Kept Q T (writeSvlHot v s) := by
  unfold writeSvlHot
  extract_lets +onlyGivenNames x0
  extract_lets +onlyGivenNames x1
  extract_lets +onlyGivenNames x2
  have hx2 : Kept Q T x2 := (State.setFs_kept _ _ hs)
  clear_value x2
  extract_lets +onlyGivenNames x3
  have hx3 : Kept Q T x3 := (ite_kept (State.dropFill_kept _ _ hx2) hx2)
  clear_value x3
  exact (State.pairWritten_kept _ _ _ hx3)
theorem sarkBlocks_kept (bs : List Byte) (s : State) (hs : Kept Q T s) : Kept Q T (sarkBlocks bs s) := by
  unfold sarkBlocks
  exact (State.sarkIn_kept _ _ _ _ hs (fun _ _ _ k9_3 => (State.takeBlocks_kept _ _ _ _ k9_3)))
theorem execSarkBlocks_kept (bs : List Byte) (s : State) (hs : Kept Q T s) : OutOk Q T (execSarkBlocks bs s) := by
  unfold execSarkBlocks
  exact (onCore_kept _ _ (fun _ k7_1 => (sarkBlocks_kept _ _ k7_1)) hs)
theorem sarkSeal_kept (bs : List Byte) (s : State) (hs : Kept Q T s) : Kept Q T (sarkSeal bs s) := by
  unfold sarkSeal
  exact (State.sarkIn_kept _ _ _ _ hs (fun _ _ _ k9_3 => (State.takeSeal_kept _ _ _ _ k9_3)))
theorem execSarkSeal_kept (bs : List Byte) (s : State) (hs : Kept Q T s) : OutOk Q T (execSarkSeal bs s) := by
  unfold execSarkSeal
  exact (onCore_kept _ _ (fun _ k7_1 => (sarkSeal_kept _ _ k7_1)) hs)
theorem sarkAck_kept (bs : List Byte) (s : State) (hs : Kept Q T s) : Kept Q T (sarkAck bs s) := by
  unfold sarkAck
  exact (State.sarkIn_kept _ _ _ _ hs (fun _ _ _ k9_3 => k9_3))
theorem execSarkAck_kept (bs : List Byte) (s : State) (hs : Kept Q T s) : OutOk Q T (execSarkAck bs s) := by
  unfold execSarkAck
  exact (onCore_kept _ _ (fun _ k7_1 => (sarkAck_kept _ _ k7_1)) hs)
theorem snapshotSave_kept (r : Nat) (s : State) (hs : Kept Q T s) : Kept Q T (snapshotSave r s) := by
  unfold snapshotSave
  refine State.onSnap_kept _ _ _ _ hs ?_
  intro q a n c u hu
  beta_reduce
  split
  · exact State.svlDone_kept _ _ _ _ hu
  · split
    · exact State.svlDone_kept _ _ _ _ hu
    · split
      · exact State.svlDone_kept _ _ _ _ hu
      · split
        · rename_i t v e
          exact State.flashAccept_kept _ _ (State.startSave_some_kept u (some q) a n hu t (by rw [e]))
        · rename_i t e
          exact State.svlDone_kept _ _ _ _ (snd_use (State.startSave_kept _ _ _ _ hu) e)
theorem execSnapshotSave_kept (r : ℕ) (s : State) (hs : Kept Q T s) : OutOk Q T (execSnapshotSave r s) := by
  unfold execSnapshotSave
  exact (onHub_kept _ _ (fun _ k7_1 => (snapshotSave_kept _ _ k7_1)) hs)
theorem snapshotLoad_kept (r : ℕ) (s : State) (hs : Kept Q T s) : Kept Q T (snapshotLoad r s) := by
  unfold snapshotLoad
  refine State.onSnap_kept _ _ _ _ ?_ ?_
  · exact hs
  · intro v0 v1 v2 v3 v4 h5
    split
    · rename_i y6 y7 y8
      exact (State.svlDone_kept _ _ _ _ h5)
    · rename_i y9 y10
      refine ite_kept (State.svlDone_kept _ _ _ _ h5) ?_
      split
      · rename_i y11 y12
        exact (State.svlDone_kept _ _ _ _ h5)
      · rename_i y13 y14 y15
        exact (ite_kept (State.nextFree_kept _ (State.svlDone_kept _ _ _ _ h5)) (ite_kept (State.svlDone_kept _ _ _ _ h5) (State.flashAccept_kept _ _ (State.setSlot_kept _ _ _ _ _ (State.startOp_kept _ _ h5)))))
theorem execSnapshotLoad_kept (r : ℕ) (s : State) (hs : Kept Q T s) : OutOk Q T (execSnapshotLoad r s) := by
  unfold execSnapshotLoad
  exact (onHub_kept _ _ (fun _ k7_1 => (snapshotLoad_kept _ _ k7_1)) hs)
theorem snapshotRestore_kept (r : ℕ) (s : State) (hs : Kept Q T s) : Kept Q T (snapshotRestore r s) := by
  unfold snapshotRestore
  exact (State.onSnap_kept _ _ _ _ hs (fun _ _ _ _ _ k11_5 => (ite_kept (State.svlDone_kept _ _ _ _ k11_5) (ite_kept (State.svlDone_kept _ _ _ _ k11_5) (ite_kept (State.svlDone_kept _ _ _ _ k11_5) (State.setF_kept _ _ _ (State.startOp_kept _ _ k11_5)))))))
theorem execSnapshotRestore_kept (r : ℕ) (s : State) (hs : Kept Q T s) : OutOk Q T (execSnapshotRestore r s) := by
  unfold execSnapshotRestore
  exact (onCore_kept _ _ (fun _ k7_1 => (snapshotRestore_kept _ _ k7_1)) hs)
theorem snapshotDrop_kept (r : ℕ) (s : State) (hs : Kept Q T s) : Kept Q T (snapshotDrop r s) := by
  unfold snapshotDrop
  refine State.onSnap_kept _ _ _ _ ?_ ?_
  · exact hs
  · intro v0 v1 v2 v3 v4 h5
    split
    · rename_i y6 y7 y8
      exact (State.svlDone_kept _ _ _ _ h5)
    · rename_i y9 y10
      exact (ite_kept (State.svlDone_kept _ _ _ _ (State.setImages_kept _ _ h5)) (ite_kept (State.svlDone_kept _ _ _ _ (State.setImages_kept _ _ h5)) (State.svlDone_kept _ _ _ _ h5)))
theorem execSnapshotDrop_kept (r : ℕ) (s : State) (hs : Kept Q T s) : OutOk Q T (execSnapshotDrop r s) := by
  unfold execSnapshotDrop
  exact (onHub_kept _ _ (fun _ k7_1 => (snapshotDrop_kept _ _ k7_1)) hs)
theorem hostCopyToHost_kept (r : ℕ) (s : State) (hs : Kept Q T s) : Kept Q T (hostCopyToHost r s) := by
  unfold hostCopyToHost
  split
  · rename_i y0 y1
    exact hs
  · rename_i y2 y3 y4
    extract_lets +onlyGivenNames x5
    refine ite_kept ?_ ?_
    · exact hs
    · extract_lets +onlyGivenNames x6
      extract_lets +onlyGivenNames x7
      extract_lets +onlyGivenNames x8
      have hx8 : Kept Q T x8 := (State.markStarted_kept _ _ hs)
      clear_value x8
      extract_lets +onlyGivenNames x9
      exact (ite_kept (State.svlDone_kept _ _ _ _ hx8) (ite_kept (State.svlDone_kept _ _ _ _ hx8) (ite_kept (State.svlDone_kept _ _ _ _ hx8) (State.startOp_kept _ _ hx8))))
theorem execHostCopyToHost_kept (r : ℕ) (s : State) (hs : Kept Q T s) : OutOk Q T (execHostCopyToHost r s) := by
  unfold execHostCopyToHost
  exact (onHub_kept _ _ (fun _ k7_1 => (hostCopyToHost_kept _ _ k7_1)) hs)
theorem hostCopyFromHost_kept (r : ℕ) (s : State) (hs : Kept Q T s) : Kept Q T (hostCopyFromHost r s) := by
  unfold hostCopyFromHost
  split
  · rename_i y0 y1
    exact hs
  · rename_i y2 y3 y4
    extract_lets +onlyGivenNames x5
    refine ite_kept ?_ ?_
    · exact hs
    · extract_lets +onlyGivenNames x6
      extract_lets +onlyGivenNames x7
      have hx7 : Kept Q T x7 := (State.markStarted_kept _ _ hs)
      clear_value x7
      extract_lets +onlyGivenNames x8
      exact (ite_kept (State.svlDone_kept _ _ _ _ hx7) (ite_kept (State.nextFree_kept _ (State.svlDone_kept _ _ _ _ hx7)) (State.setF_kept _ _ _ (State.startOp_kept _ _ hx7))))
theorem execHostCopyFromHost_kept (r : ℕ) (s : State) (hs : Kept Q T s) : OutOk Q T (execHostCopyFromHost r s) := by
  unfold execHostCopyFromHost
  exact (onHub_kept _ _ (fun _ k7_1 => (hostCopyFromHost_kept _ _ k7_1)) hs)
theorem snapshotSaveDone_kept (a : ℕ) (n : ℕ) (s : State) (hs : Kept Q T s) : Kept Q T (snapshotSaveDone a n s) := by
  unfold snapshotSaveDone
  split
  · rename_i y0 y1
    exact hs
  · rename_i y2 y3 y4
    extract_lets +onlyGivenNames x5
    extract_lets +onlyGivenNames x6
    extract_lets +onlyGivenNames x7
    extract_lets +onlyGivenNames x8
    have hx8 : Kept Q T x8 := (State.endOp_kept _ _ _ (State.readSlotPoint_kept _ _ _ hs))
    clear_value x8
    exact (ite_kept (State.svlDone_kept _ _ _ _ hx8) (ite_kept (State.svlDone_kept _ _ _ _ (State.setImages_kept _ _ hx8)) (State.svlDone_kept _ _ _ _ (State.roomFails_kept _ _ _ hx8))))
theorem execSnapshotSaveDone_kept (a : ℕ) (n : ℕ) (s : State) (hs : Kept Q T s) : OutOk Q T (execSnapshotSaveDone a n s) := by
  unfold execSnapshotSaveDone
  exact (onHub_kept _ _ (fun _ k8_1 => (snapshotSaveDone_kept _ _ _ k8_1)) hs)
theorem snapshotLoadDone_kept (n : ℕ) (s : State) (hs : Kept Q T s) : Kept Q T (snapshotLoadDone n s) := by
  unfold snapshotLoadDone
  split
  · rename_i y0 y1
    exact hs
  · rename_i y2 y3 y4
    split
    · rename_i y5 y6
      exact (State.svlDone_kept _ _ _ _ (State.endOp_kept _ _ _ hs))
    · rename_i y7 y8 y9
      exact (State.endFill_kept _ _ (State.writeHbm_kept _ _ _ hs))
theorem execSnapshotLoadDone_kept (n : ℕ) (s : State) (hs : Kept Q T s) : OutOk Q T (execSnapshotLoadDone n s) := by
  unfold execSnapshotLoadDone
  exact (onHub_kept _ _ (fun _ k7_1 => (snapshotLoadDone_kept _ _ k7_1)) hs)
theorem restoreDone_kept (a : ℕ) (n : ℕ) (s : State) (hs : Kept Q T s) : Kept Q T (restoreDone a n s) := by
  unfold restoreDone
  split
  · rename_i y0 y1
    exact hs
  · rename_i y2 y3 y4
    extract_lets +onlyGivenNames x5
    extract_lets +onlyGivenNames x6
    have hx6 : Kept Q T x6 := (State.endOp_kept _ _ _ (State.readSlotPoint_kept _ _ _ hs))
    clear_value x6
    exact (ite_kept (State.svlDone_kept _ _ _ _ (State.restorePoint_kept _ _ _ hx6)) (State.svlDone_kept _ _ _ _ (State.countAck_kept _ (State.setF_kept _ _ _ (State.rejectSlot_kept _ _ _ (State.restorePart_kept _ _ _ hx6))))))
theorem execRestoreDone_kept (a : ℕ) (n : ℕ) (s : State) (hs : Kept Q T s) : OutOk Q T (execRestoreDone a n s) := by
  unfold execRestoreDone
  exact (onCore_kept _ _ (fun _ k8_1 => (restoreDone_kept _ _ _ k8_1)) hs)
theorem hostCopyDone_kept (out : Bool) (a : ℕ) (n : ℕ) (far : FarAns) (s : State) (hs : Kept Q T s) : Kept Q T (hostCopyDone out a n far s)
    := by
  unfold hostCopyDone
  split
  · rename_i y0 y1
    exact hs
  · rename_i y2 y3 y4
    exact (ite_kept (State.copyOut_kept _ _ _ _ _ (State.readSlotPoint_kept _ _ _ hs)) (State.copyIn_kept _ _ _ hs))
theorem execHostCopyDone_kept (out : Bool) (a : ℕ) (n : ℕ) (far : FarAns) (s : State) (hs : Kept Q T s) : OutOk Q T (execHostCopyDone out a
    n far s) := by
  unfold execHostCopyDone
  exact (onHub_kept _ _ (fun _ k10_1 => (hostCopyDone_kept _ _ _ _ _ k10_1)) hs)
theorem execFlashFault_kept (s : State) (hs : Kept Q T s) : OutOk Q T (execFlashFault s) := by
  unfold execFlashFault
  exact (onHub_kept _ _ (fun _ k6_1 => (flashFault_kept _ k6_1)) hs)
theorem execSvlPairWrite_kept (v : W32) (s : State) (hs : Kept Q T s) : OutOk Q T (execSvlPairWrite v s) := by
  unfold execSvlPairWrite
  exact (onHub_kept _ _ (fun _ k7_1 => (State.gated_kept _ _ _ k7_1 (fun _ k9_1 => (writeSvlPair_kept _ _ k9_1)))) hs)
theorem execSvlHotWrite_kept (v : W32) (s : State) (hs : Kept Q T s) : OutOk Q T (execSvlHotWrite v s) := by
  unfold execSvlHotWrite
  exact (onHub_kept _ _ (fun _ k7_1 => (State.gated_kept _ _ _ k7_1 (fun _ k9_1 => (writeSvlHot_kept _ _ k9_1)))) hs)
theorem execSvlCtrlWrite_kept (v : W32) (s : State) (hs : Kept Q T s) : OutOk Q T (execSvlCtrlWrite v s) := by
  unfold execSvlCtrlWrite
  exact (onHub_kept _ _ (fun _ k7_1 => (State.gated_kept _ _ _ k7_1 (fun _ k9_1 => (writeSvlCtrl_kept _ _ k9_1)))) hs)
theorem State.linkErr_kept (s : State) (a1 : SlotE) (code : ℕ) (hs : Kept Q T s) : Kept Q T (State.linkErr s a1 code) := by
  unfold State.linkErr
  extract_lets +onlyGivenNames x0
  have hx0 : Kept Q T x0 := (ite_kept hs (State.setFs_kept _ _ hs))
  clear_value x0
  exact (State.failCourse_kept _ _ hx0)
theorem State.signalSlot_kept (s : State) (a1 : SlotE) (hs : Kept Q T s) : Kept Q T (State.signalSlot s a1) := by
  unfold State.signalSlot
  refine ite_kept ?_ ?_
  · exact hs
  · extract_lets +onlyGivenNames x0
    exact (ite_kept (State.failCourse_kept _ _ hs) (Kept.keep hs))
theorem State.setSlotSt_kept (s : State) (e : ℕ) (a2 : SlotSt) (hs : Kept Q T s) : Kept Q T (State.setSlotSt s e a2) := by
  unfold State.setSlotSt
  split
  · rename_i y0 y1
    exact hs
  · rename_i y2 y3 y4
    extract_lets +onlyGivenNames x5
    exact (Kept.keep hs)
theorem State.voteCheck_kept (s : State) (hs : Kept Q T s) : Kept Q T (State.voteCheck s) := by
  unfold State.voteCheck
  split
  · rename_i y0 y1
    exact hs
  · rename_i y2 y3 y4
    extract_lets +onlyGivenNames x5
    refine ite_kept ?_ ?_
    · exact hs
    · extract_lets +onlyGivenNames x6
      extract_lets +onlyGivenNames x7
      have hx7 : Kept Q T x7 := (Kept.keep hs)
      clear_value x7
      extract_lets +onlyGivenNames x8
      exact (ite_kept hx7 (State.failCourse_kept _ _ (ite_kept (State.partnerLost_kept _ hx7) hx7)))
theorem State.slotDone_kept (s : State) (e : ℕ) (a2 : SlotE) (st : SlotSt) (hs : Kept Q T s) : Kept Q T (State.slotDone s e a2 st) := by
  unfold State.slotDone
  extract_lets +onlyGivenNames x0
  have hx0 : Kept Q T x0 := (State.signalSlot_kept _ _ (State.setSlotSt_kept _ _ _ hs))
  clear_value x0
  exact (ite_kept (State.voteCheck_kept _ hx0) (ite_kept (State.strandPeer_kept _ _ hx0) hx0))
theorem State.sarkEntriesEnd_kept (s : State) (c : Course) (hs : Kept Q T s) : Kept Q T (State.sarkEntriesEnd s c) := by
  unfold State.sarkEntriesEnd
  refine State.each_kept _ _ _ ?_ ?_
  · exact hs
  · intro v0 v1 h2
    extract_lets +onlyGivenNames x3
    exact (ite_kept (State.slotDone_kept _ _ _ _ h2) h2)
theorem commitReserveStart_kept (s : State) (hs : Kept Q T s) : Kept Q T (commitReserveStart s) := by
  unfold commitReserveStart
  split
  · rename_i y0 y1
    exact hs
  · rename_i y2 y3 y4
    split
    · rename_i y5 y6 y7
      exact (State.linkErr_kept _ _ _ hs)
    · rename_i y8 y9
      extract_lets +onlyGivenNames x10
      have hx10 : Kept Q T x10 := (State.sarkEntriesEnd_kept _ _ hs)
      clear_value x10
      split
      · rename_i y11 y12
        exact hx10
      · rename_i y13 y14 y15
        extract_lets +onlyGivenNames x16
        exact (Kept.keep hx10)
theorem State.copyRow_kept (s : State) (d : Dsp) (dst : ℕ) (src : ℕ) (hs : Kept Q T s) : Kept Q T (State.copyRow s d dst src) := by
  unfold State.copyRow
  extract_lets +onlyGivenNames x0
  refine State.writeHbm_kept _ _ _ ?_
  unfold x0
  exact (State.readHbm_kept _ _ _ hs)
theorem State.learn_kept (s : State) (i : ℕ) (q : ℕ) (v : List ℕ) (hs : Kept Q T s) : Kept Q T (State.learn s i q v) := by
  unfold State.learn
  split
  · rename_i y0 y1
    exact hs
  · rename_i y2 y3 y4
    refine ite_kept ?_ ?_
    · exact hs
    · extract_lets +onlyGivenNames x5
      exact (Kept.keep hs)
theorem State.holdRoutes_kept (s : State) (i : ℕ) (rs : List (ℕ × ℕ)) (hs : Kept Q T s) : Kept Q T (State.holdRoutes s i rs) := by
  unfold State.holdRoutes
  split
  · rename_i y0 y1
    exact hs
  · rename_i y2 y3 y4
    extract_lets +onlyGivenNames x5
    exact (Kept.keep hs)
theorem State.countOwn_kept (s : State) (i : ℕ) (hs : Kept Q T s) : Kept Q T (State.countOwn s i) := by
  unfold State.countOwn
  split
  · rename_i y0 y1
    exact hs
  · rename_i y2 y3 y4
    extract_lets +onlyGivenNames x5
    split
    · rename_i y6 y7
      exact hs
    · rename_i y8 y9 y10
      refine ite_kept ?_ ?_
      · exact hs
      · extract_lets +onlyGivenNames x11
        extract_lets +onlyGivenNames x12
        refine ite_kept ?_ ?_
        · unfold x11
          exact (State.readHbm_kept _ _ _ hs)
        · refine ite_kept ?_ ?_
          · refine State.linkErr_kept _ _ _ ?_
            unfold x11
            exact (State.readHbm_kept _ _ _ hs)
          · refine State.learn_kept _ _ _ _ ?_
            refine State.holdRoutes_kept _ _ _ ?_
            unfold x11
            exact (State.readHbm_kept _ _ _ hs)
theorem State.countStarts_kept (s : State) (hs : Kept Q T s) : Kept Q T (State.countStarts s) := by
  unfold State.countStarts
  split
  · rename_i y0 y1
    exact hs
  · rename_i y2 y3 y4
    exact (ite_kept hs (State.each_kept _ _ _ hs (fun _ _ k12_2 => (State.countOwn_kept _ _ k12_2))))
theorem State.fillOwn_kept (s : State) (c : Course) (i : ℕ) (d : Dsp) (hs : Kept Q T s) : Kept Q T (State.fillOwn s c i d) := by
  unfold State.fillOwn
  refine State.each_kept _ _ _ ?_ ?_
  · exact hs
  · intro v0 v1 h2
    extract_lets +onlyGivenNames x3
    have hx3 : Kept Q T x3 := (State.each_kept _ _ _ h2 (fun _ _ k14_2 => (State.copyRow_kept _ _ _ _ k14_2)))
    clear_value x3
    exact (State.each_kept _ _ _ hx3 (fun _ _ k15_2 => (State.writeHbm_kept _ _ _ k15_2)))
theorem State.returnOwn_kept (s : State) (c : Course) (i : ℕ) (d : Dsp) (hs : Kept Q T s) : Kept Q T (State.returnOwn s c i d) := by
  unfold State.returnOwn
  extract_lets +onlyGivenNames x0
  have hx0 : Kept Q T x0 := (State.each_kept _ _ _ hs (fun _ _ k11_2 => (State.each_kept _ _ _ k11_2 (fun _ _ k14_2 => (State.copyRow_kept _ _ _ _ k14_2)))))
  clear_value x0
  extract_lets +onlyGivenNames x1
  exact (State.each_kept _ _ _ hx0 (fun _ _ k13_2 => (State.writeHbm_kept _ _ _ k13_2)))
theorem State.slotRead_kept (s : State) (a1 : SlotE) (n : ℕ) (hs : Kept Q T s) : Kept Q T (State.slotRead s a1 n).2 := by
  unfold State.slotRead
  split
  · rename_i y0
    exact (State.readHbm_kept _ _ _ hs)
  · rename_i y1
    dsimp only
    exact (ite_kept hs (State.failCourse_kept _ _ hs))
theorem State.slotPayload_kept (s : State) (c : Course) (a2 : SlotE) (hs : Kept Q T s) : Kept Q T (State.slotPayload s c a2).2 := by
  unfold State.slotPayload
  split
  · rename_i y0 y1
    extract_lets +onlyGivenNames x2
    dsimp only
    unfold x2
    exact (State.slotRead_kept _ _ _ hs)
  · rename_i y3 y4
    extract_lets +onlyGivenNames x5
    dsimp only
    unfold x5
    exact (State.slotRead_kept _ _ _ hs)
  · rename_i y6 y7
    extract_lets +onlyGivenNames x8
    have hx8 : Kept Q T x8 := (State.countOwn_kept _ _ hs)
    clear_value x8
    dsimp only
    exact hx8
  · rename_i y9 y10
    split
    · rename_i y11
      dsimp only
      exact hs
    · rename_i y12
      extract_lets +onlyGivenNames x13
      extract_lets +onlyGivenNames x14
      have hx14 : Kept Q T x14 := (ite_kept (State.returnOwn_kept _ _ _ _ hs) hs)
      clear_value x14
      extract_lets +onlyGivenNames x15
      dsimp only
      exact (State.each_kept _ _ _ hx14 (fun _ _ k18_2 => (State.readHbm_kept _ _ _ k18_2)))
  · rename_i y16 y17
    extract_lets +onlyGivenNames x18
    have hx18 : Kept Q T x18 := (State.atVote_kept _ hs)
    clear_value x18
    split
    · rename_i y19 y20
      dsimp only
      exact hx18
    · rename_i y21 y22 y23
      extract_lets +onlyGivenNames x24
      extract_lets +onlyGivenNames x25
      dsimp only
      exact (ite_kept hx18 (Kept.keep hx18))
  · rename_i y26 y27
    extract_lets +onlyGivenNames x28
    dsimp only
    unfold x28
    exact (State.sarkSend_kept _ _ _ _ _ hs)
  · rename_i y29 y30 y31 y32 y33 y34 y35
    dsimp only
    exact hs
theorem State.slotWrite_kept (s : State) (a1 : SlotE) (bs : List Byte) (hs : Kept Q T s) : Kept Q T (State.slotWrite s a1 bs) := by
  unfold State.slotWrite
  exact (ite_kept (State.writeHbm_kept _ _ _ hs) (State.loftWrite_kept _ _ _ _ hs))
theorem State.slotTake_kept (s : State) (c : Course) (a2 : SlotE) (bs : List Byte) (hs : Kept Q T s) : OptOk Q T (State.slotTake s c a2 bs)
    := by
  unfold State.slotTake
  split
  · rename_i y0 y1
    exact (OptOk.some (State.slotWrite_kept _ _ _ hs))
  · rename_i y2 y3
    extract_lets +onlyGivenNames x4
    split
    · rename_i y5
      exact (OptOk.some (State.linkErr_kept _ _ _ hs))
    · rename_i y6
      extract_lets +onlyGivenNames x7
      refine OptOk.some ?_
      refine ite_kept ?_ ?_
      · unfold x7
        exact (State.slotRead_kept _ _ _ hs)
      · refine State.slotWrite_kept _ _ _ ?_
        unfold x7
        exact (State.slotRead_kept _ _ _ hs)
  · rename_i y8 y9
    exact (OptOk.some (State.learn_kept _ _ _ _ hs))
  · rename_i y10 y11
    split
    · rename_i y12
      exact OptOk.none
    · rename_i y13
      extract_lets +onlyGivenNames x14
      extract_lets +onlyGivenNames x15
      extract_lets +onlyGivenNames x16
      have hx16 : Kept Q T x16 := (State.each_kept _ _ _ hs (fun _ _ k18_2 => (State.writeHbm_kept _ _ _ k18_2)))
      clear_value x16
      exact (OptOk.some (ite_kept (State.returnOwn_kept _ _ _ _ hx16) hx16))
  · rename_i y17 y18
    extract_lets +onlyGivenNames x19
    exact (OptOk.some (Kept.keep hs))
  · rename_i y20 y21 y22 y23 y24 y25
    exact (OptOk.some hs)
theorem dispatchPlan_kept (i : ℕ) (s : State) (hs : Kept Q T s) : Kept Q T (dispatchPlan i s) := by
  unfold dispatchPlan
  split
  · rename_i y0 y1
    exact hs
  · rename_i y2 y3 y4
    refine ite_kept ?_ ?_
    · exact hs
    · extract_lets +onlyGivenNames x5
      have hx5 : Kept Q T x5 := (State.countOwn_kept _ _ hs)
      clear_value x5
      split
      · rename_i y6 y7
        exact hx5
      · rename_i y8 y9 y10
        extract_lets +onlyGivenNames x11
        refine ite_kept ?_ ?_
        · exact hx5
        · extract_lets +onlyGivenNames x12
          extract_lets +onlyGivenNames x13
          have hx13 : Kept Q T x13 := (Kept.keep hx5)
          clear_value x13
          extract_lets +onlyGivenNames x14
          have hx14 : Kept Q T x14 := (State.bump_kept _ _ _ (State.writeHbm_kept _ _ _ hx13))
          clear_value x14
          exact (State.fillOwn_kept _ _ _ _ hx14)
theorem slotSendStart_kept (e : ℕ) (s : State) (hs : Kept Q T s) : Kept Q T (slotSendStart e s) := by
  unfold slotSendStart
  split
  · rename_i y0 y1
    exact hs
  · rename_i y2 y3 y4 y5 y6
    refine ite_kept ?_ ?_
    · exact hs
    · split
      · rename_i y7 y8 y9
        have hy8 : Kept Q T y8 := by
          refine snd_use ?_ y9
          exact (State.slotPayload_kept _ _ _ hs)
        exact hy8
      · rename_i y10 y11 y12 y13
        have hy12 : Kept Q T y12 := by
          refine snd_use ?_ y13
          exact (State.slotPayload_kept _ _ _ hs)
        refine ite_kept ?_ ?_
        · exact hy12
        · extract_lets +onlyGivenNames x14
          have hx14 : Kept Q T x14 := (State.sendFlit_kept _ _ _ _ hy12)
          clear_value x14
          extract_lets +onlyGivenNames x15
          have hx15 : Kept Q T x15 := (State.each_kept _ _ _ hx14 (fun _ _ k25_2 => (State.sendFlit_kept _ _ _ _ k25_2)))
          clear_value x15
          extract_lets +onlyGivenNames x16
          extract_lets +onlyGivenNames x17
          have hx17 : Kept Q T x17 := (State.setSlotSt_kept _ _ _ (State.acceptTag_kept _ _ _ (State.setPort_kept _ _ _ hx15)))
          clear_value x17
          exact (ite_kept (State.flushPeer_kept _ _ hx17) hx17)
theorem execSlotSendStart_kept (e : ℕ) (s : State) (hs : Kept Q T s) : OutOk Q T (execSlotSendStart e s) := by
  unfold execSlotSendStart
  exact (onCore_kept _ _ (fun _ k7_1 => (slotSendStart_kept _ _ k7_1)) hs)
theorem transferHeader_kept (e : ℕ) (h : List Byte) (s : State) (hs : Kept Q T s) : Kept Q T (transferHeader e h s) := by
  unfold transferHeader
  split
  · rename_i y0 y1
    exact hs
  · rename_i y2 y3 y4 y5 y6
    refine ite_kept ?_ ?_
    · exact hs
    · refine ite_kept ?_ ?_
      · exact (State.linkErr_kept _ _ _ hs)
      · extract_lets +onlyGivenNames x7
        have hx7 : Kept Q T x7 := (ite_kept (State.sendFlit_kept _ _ _ _ hs) hs)
        clear_value x7
        extract_lets +onlyGivenNames x8
        have hx8 : Kept Q T x8 := (State.setSlotSt_kept _ _ _ hx7)
        clear_value x8
        extract_lets +onlyGivenNames x9
        have hx9 : Kept Q T x9 := (Kept.keep hx8)
        clear_value x9
        exact (ite_kept (State.flushPeer_kept _ _ hx9) hx9)
theorem execTransferHeader_kept (e : ℕ) (h : List Byte) (s : State) (hs : Kept Q T s) : OutOk Q T (execTransferHeader e h s) := by
  unfold execTransferHeader
  exact (onCore_kept _ _ (fun _ k8_1 => (transferHeader_kept _ _ _ k8_1)) hs)
theorem sendComplete_kept (e : ℕ) (s : State) (hs : Kept Q T s) : Kept Q T (sendComplete e s) := by
  unfold sendComplete
  split
  · rename_i y0 y1
    exact hs
  · rename_i y2 y3 y4
    refine ite_kept ?_ ?_
    · exact hs
    · extract_lets +onlyGivenNames x5
      extract_lets +onlyGivenNames x6
      extract_lets +onlyGivenNames x7
      exact (ite_kept hs (State.slotDone_kept _ _ _ _ (State.releaseTag_kept _ _ _ (State.setPort_kept _ _ _ hs))))
theorem execSendComplete_kept (e : ℕ) (s : State) (hs : Kept Q T s) : OutOk Q T (execSendComplete e s) := by
  unfold execSendComplete
  exact (onCore_kept _ _ (fun _ k7_1 => (sendComplete_kept _ _ k7_1)) hs)
theorem receiveComplete_kept (e : ℕ) (bs : List Byte) (s : State) (hs : Kept Q T s) : Kept Q T (receiveComplete e bs s) := by
  unfold receiveComplete
  split
  · rename_i y0 y1
    exact hs
  · rename_i y2 y3 y4
    refine ite_kept ?_ ?_
    · exact hs
    · extract_lets +onlyGivenNames x5
      extract_lets +onlyGivenNames x6
      refine ite_kept ?_ ?_
      · exact hs
      · split
        · rename_i y7 y8
          exact hs
        · rename_i y9 y10 y11
          have hy10 : Kept Q T y10 := by
            refine OptOk.use ?_ y11
            exact (State.slotTake_kept _ _ _ _ hs)
          exact (ite_kept hy10 (State.slotDone_kept _ _ _ _ hy10))
theorem execReceiveComplete_kept (e : ℕ) (bs : List Byte) (s : State) (hs : Kept Q T s) : OutOk Q T (execReceiveComplete e bs s) := by
  unfold execReceiveComplete
  exact (onCore_kept _ _ (fun _ k8_1 => (receiveComplete_kept _ _ _ k8_1)) hs)
theorem execDispatchPlan_kept (i : ℕ) (s : State) (hs : Kept Q T s) : OutOk Q T (execDispatchPlan i s) := by
  unfold execDispatchPlan
  exact (onCore_kept _ _ (fun _ k7_1 => (dispatchPlan_kept _ _ k7_1)) hs)
theorem execCommitReserveStart_kept (s : State) (hs : Kept Q T s) : OutOk Q T (execCommitReserveStart s) := by
  unfold execCommitReserveStart
  exact (onCore_kept _ _ (fun _ k6_1 => (commitReserveStart_kept _ k6_1)) hs)

end Sys2Proof.Machine
end

