-- ==== Sys2Proof/Laws/KeptCourse.lean ====
section
/-! SUPPORT. That every operation keeps what `Kept` says: gutters, courses, ridges, beats and the register writes. -/

namespace Sys2Proof.Machine

variable {Q : List Instr} {T : Nat}

theorem State.putGutter_kept (s : State) (i : ℕ) (g : Gutter) (hs : Kept Q T s) : Kept Q T (State.putGutter s i g) := by
  unfold State.putGutter
  exact (State.setFs_kept _ _ (State.setGutter_kept _ _ _ hs))
theorem State.countUnderrun_kept (s : State) (i : ℕ) (hs : Kept Q T s) : Kept Q T (State.countUnderrun s i) := by
  unfold State.countUnderrun
  exact (State.bump_kept _ _ _ (State.bump_kept _ _ _ (State.setF_kept _ _ _ hs)))
theorem State.dropQuiesce_kept (s : State) (q : Req) (hs : Kept Q T s) : Kept Q T (State.dropQuiesce s q) := by
  unfold State.dropQuiesce
  exact (State.each_kept _ _ _ hs (fun _ _ k8_2 => (State.pumpTarget_kept _ _ (State.setTarget_kept _ _ _ k8_2))))
theorem State.dropWaiting_kept (s : State) (q : Req) (hs : Kept Q T s) : Kept Q T (State.dropWaiting s q) := by
  unfold State.dropWaiting
  exact (Kept.keep hs)
theorem State.encodeFault_kept (s : State) (owner : Option (ℕ × ℕ)) (hs : Kept Q T s) : Kept Q T (State.encodeFault s owner) := by
  unfold State.encodeFault
  extract_lets +onlyGivenNames x0
  exact (State.raiseLine_kept _ _ (State.each_kept _ _ _ hs (fun _ _ k9_2 => (State.endJob_kept _ _ _ k9_2))))
theorem State.undoJob_kept (s : State) (j : MJob) (hs : Kept Q T s) : Kept Q T (State.undoJob s j) := by
  unfold State.undoJob
  exact (State.each_kept _ _ _ hs (fun _ _ k8_2 => (State.writeHbm_kept _ _ _ k8_2)))
theorem State.stopReq_kept (s : State) (code : ℕ) (q : Req) (hs : Kept Q T s) : Kept Q T (State.stopReq s code q) := by
  unfold State.stopReq
  split
  · rename_i y0 y1 y2
    exact (State.endJob_kept _ _ _ (State.undoJob_kept _ _ hs))
  · rename_i y3 y4
    split
    · rename_i y5 y6 y7
      exact (State.svlDone_kept _ _ _ _ (State.endOp_kept _ _ _ hs))
    · rename_i y8 y9
      extract_lets +onlyGivenNames x10
      have hx10 : Kept Q T x10 := (State.dropWaiting_kept _ _ (State.each_kept _ _ _ hs (fun _ _ k18_2 => (State.unbias_kept _ _ k18_2))))
      clear_value x10
      extract_lets +onlyGivenNames x11
      have hx11 : Kept Q T x11 := (Kept.keep hx10)
      clear_value x11
      exact (State.finish_kept _ _ _ (State.noteJob_kept _ _ _ (State.markStarted_kept _ _ (State.dropQuiesce_kept _ _ hx11))))
theorem State.stopOwners_kept (s : State) (code : ℕ) (owners : List (ℕ × ℕ)) (hs : Kept Q T s) : Kept Q T (State.stopOwners s code owners)
    := by
  unfold State.stopOwners
  refine State.each_kept _ _ _ ?_ ?_
  · exact hs
  · intro v0 v1 h2
    split
    · rename_i y3 y4
      exact h2
    · rename_i y5 y6 y7
      exact (ite_kept h2 (State.stopReq_kept _ _ _ h2))
theorem State.gutterMismatch_kept (s : State) (i : ℕ) (hs : Kept Q T s) : Kept Q T (State.gutterMismatch s i) := by
  unfold State.gutterMismatch
  extract_lets +onlyGivenNames x0
  extract_lets +onlyGivenNames x1
  extract_lets +onlyGivenNames x2
  extract_lets +onlyGivenNames x3
  have hx3 : Kept Q T x3 := (State.bump_kept _ _ _ (State.bump_kept _ _ _ (State.putGutter_kept _ _ _ hs)))
  clear_value x3
  extract_lets +onlyGivenNames x4
  have hx4 : Kept Q T x4 := (ite_kept (State.countUnderrun_kept _ _ hx3) hx3)
  clear_value x4
  exact (State.stopOwners_kept _ _ _ (State.raiseLine_kept _ _ hx4))
theorem State.storePoison_kept (s : State) (dst : Option ℕ) (hs : Kept Q T s) : Kept Q T (State.storePoison s dst) := by
  unfold State.storePoison
  split
  · rename_i y0 y1
    exact (ite_kept (Kept.keep hs) hs)
  · rename_i y2
    exact hs
theorem State.hubFault_kept (s : State) (owners : List (ℕ × ℕ)) (hs : Kept Q T s) : Kept Q T (State.hubFault s owners) := by
  unfold State.hubFault
  exact (State.stopOwners_kept _ _ _ (State.raiseLine_kept _ _ hs))
theorem State.gutterPoison_kept (s : State) (i : ℕ) (owner : Option (ℕ × ℕ)) (dst : Option ℕ) (hs : Kept Q T s) : Kept Q T
    (State.gutterPoison s i owner dst) := by
  unfold State.gutterPoison
  extract_lets +onlyGivenNames x0
  have hx0 : Kept Q T x0 := (State.storePoison_kept _ _ hs)
  clear_value x0
  refine ite_kept ?_ ?_
  · exact (State.raiseLine_kept _ _ hx0)
  · refine ite_kept ?_ ?_
    · extract_lets +onlyGivenNames x1
      extract_lets +onlyGivenNames x2
      exact (State.raiseLine_kept _ _ hx0)
    · exact (ite_kept (ite_kept (State.hubFault_kept _ _ hx0) (State.raiseLine_kept _ _ hx0)) (ite_kept (State.raiseLine_kept _ _ hx0) (ite_kept (ite_kept (State.raiseLine_kept _ _ hx0) (State.raiseLine_kept _ _ hx0)) (ite_kept (State.hubFault_kept _ _ hx0) (ite_kept (State.stagerFault_kept _ hx0) (ite_kept (State.encodeFault_kept _ _ hx0) (ite_kept (flashFault_kept _ hx0) (State.hubFault_kept _ _ hx0))))))))
theorem State.gutterUnderrun_kept (s : State) (i : ℕ) (dst : Option ℕ) (hs : Kept Q T s) : Kept Q T (State.gutterUnderrun s i dst) := by
  unfold State.gutterUnderrun
  extract_lets +onlyGivenNames x0
  extract_lets +onlyGivenNames x1
  have hx1 : Kept Q T x1 := (State.countUnderrun_kept _ _ hs)
  clear_value x1
  refine ite_kept ?_ ?_
  · extract_lets +onlyGivenNames x2
    have hx2 : Kept Q T x2 := (State.gutterMismatch_kept _ _ hx1)
    clear_value x2
    exact (State.setGutter_kept _ _ _ hx2)
  · exact (State.gutterPoison_kept _ _ _ _ (State.setGutter_kept _ _ _ hx1))
theorem State.injectBridge_kept (s : State) (i : ℕ) (hs : Kept Q T s) : Kept Q T (State.injectBridge s i) := by
  unfold State.injectBridge
  split
  · rename_i y0 y1
    exact hs
  · rename_i y2 y3 y4
    exact (ite_kept (State.useInject_kept _ hs) hs)
theorem State.readInReset_kept (s : State) (i : ℕ) (hs : Kept Q T s) : Kept Q T (State.readInReset s i) := by
  unfold State.readInReset
  extract_lets +onlyGivenNames x0
  extract_lets +onlyGivenNames x1
  exact (State.countUnderrun_kept _ _ (State.setGutter_kept _ _ _ hs))
theorem State.storedWord_kept (s : State) (i : ℕ) (w : W64) (poison : Bool) (owner : Option (ℕ × ℕ)) (hs : Kept Q T s) : Kept Q T
    (State.storedWord s i w poison owner).2 := by
  unfold State.storedWord
  split
  · rename_i y0
    dsimp only
    exact hs
  · rename_i y1
    extract_lets +onlyGivenNames x2
    split
    · rename_i y3
      dsimp only
      exact (State.useInject_kept _ hs)
    · rename_i y4
      dsimp only
      exact hs
theorem errorLineRise_kept (e : ErrSource) (s : State) (hs : Kept Q T s) : Kept Q T (errorLineRise e s) := by
  unfold errorLineRise
  split
  · rename_i y0 y1 y2
    refine ite_kept ?_ ?_
    · exact hs
    · split
      · rename_i y3
        exact (State.storeCorrected_kept _ _ _ hs)
      · rename_i y4
        exact (State.storeCorrected_kept _ _ _ hs)
      · rename_i y5
        exact (State.storeUncorrectable_kept _ _ _ hs)
      · rename_i y6
        exact (State.storeUncorrectable_kept _ _ _ hs)
      · rename_i y7
        exact (State.arrayParity_kept _ _ hs)
      · rename_i y8
        exact (State.sequencerError_kept _ _ hs)
      · rename_i y9 y10 y11 y12 y13 y14 y15
        exact hs
  · rename_i y16 y17 y18
    refine ite_kept ?_ ?_
    · exact hs
    · split
      · rename_i y19
        exact (State.vecCorrected_kept _ _ hs)
      · rename_i y20
        exact (State.vecUncorrectable_kept _ _ hs)
      · rename_i y21
        exact (State.vecParity_kept _ _ hs)
      · rename_i y22 y23 y24 y25
        exact hs
  · rename_i y26 y27 y28
    refine ite_kept ?_ ?_
    · exact hs
    · split
      · rename_i y29
        exact (State.decCorrected_kept _ _ hs)
      · rename_i y30
        exact (State.decHit_kept _ _ _ hs)
      · rename_i y31
        exact (State.decHit_kept _ _ _ hs)
      · rename_i y32 y33 y34 y35
        exact hs
  · rename_i y36 y37 y38 y39
    refine ite_kept ?_ ?_
    · exact hs
    · split
      · rename_i y40
        exact (State.encCorrected_kept _ _ hs)
      · rename_i y41
        exact (State.encodePipeHit_kept _ _ _ _ _ hs)
      · rename_i y42
        exact (State.encodePipeHit_kept _ _ _ _ _ hs)
      · rename_i y43 y44 y45 y46
        exact hs
  · rename_i y47
    exact (State.stagerFault_kept _ hs)
  · rename_i y48 y49 y50
    exact (State.crcReplay_kept _ _ _ hs)
  · rename_i y51 y52 y53
    exact (State.channelDies_kept _ _ _ hs)
  · rename_i y54 y55 y56
    exact (State.symbolErrors_kept _ _ _ hs)
  · rename_i y57 y58
    exact (State.hubFault_kept _ _ hs)
  · rename_i y59 y60
    exact (ite_kept (flashFault_kept _ hs) (ite_kept (State.raiseLine_kept _ _ (ite_kept (State.setF_kept _ _ _ hs) hs)) hs))
theorem errorRails_kept (e : ErrSource) (f : State → State) (s : State) (hf : ∀ s, Kept Q T s → Kept Q T (f s)) (hs : Kept Q T s) : OutOk Q
    T (errorRails e f s) := by
  unfold errorRails
  split
  · split
    · exact onStandby_kept _ _ hf hs
    · split
      · exact onHub_kept _ _ hf hs
      · exact onCore_kept _ _ hf hs
  all_goals first | exact onHub_kept _ _ hf hs | exact onCore_kept _ _ hf hs
theorem writeFltStatus_kept (v : ℕ) (s : State) (hs : Kept Q T s) : Kept Q T (writeFltStatus v s) := by
  unfold writeFltStatus
  extract_lets +onlyGivenNames x0
  extract_lets +onlyGivenNames x1
  have hx1 : Kept Q T x1 := (State.setF_kept _ _ _ hs)
  clear_value x1
  exact (State.each_kept _ _ _ hx1 (fun _ _ k11_2 => (State.latchFault_kept _ _ k11_2)))
theorem writeFltInject_kept (v : ℕ) (s : State) (hs : Kept Q T s) : Kept Q T (writeFltInject v s) := by
  unfold writeFltInject
  extract_lets +onlyGivenNames x0
  extract_lets +onlyGivenNames x1
  extract_lets +onlyGivenNames x2
  extract_lets +onlyGivenNames x3
  have hx3 : Kept Q T x3 := (State.setFs_kept _ _ hs)
  clear_value x3
  extract_lets +onlyGivenNames x4
  have hx4 : Kept Q T x4 := (ite_kept (State.setF_kept _ _ _ hx3) hx3)
  clear_value x4
  refine ite_kept ?_ ?_
  · extract_lets +onlyGivenNames x5
    have hx5 : Kept Q T x5 := (State.setF_kept _ _ _ hx4)
    clear_value x5
    exact (Kept.keep hx5)
  · refine ite_kept ?_ ?_
    · refine ite_kept ?_ ?_
      · exact (State.setF_kept _ _ _ hx4)
      · extract_lets +onlyGivenNames x6
        have hx6 : Kept Q T x6 := (State.setF_kept _ _ _ hx4)
        clear_value x6
        exact (Kept.keep hx6)
    · exact hx4
theorem gutterWrite_kept (i : ℕ) (w : W64) (poison : Bool) (last : Bool) (owner : Option (ℕ × ℕ)) (s : State) (hs : Kept Q T s) : Kept Q T
    (gutterWrite i w poison last owner s) := by
  unfold gutterWrite
  refine ite_kept ?_ ?_
  · exact hs
  · refine ite_kept ?_ ?_
    · exact (State.stopOwners_kept _ _ _ hs)
    · extract_lets +onlyGivenNames x0
      split
      · rename_i y1 y2
        exact hs
      · rename_i y3 y4 y5
        extract_lets +onlyGivenNames x6
        have hx6 : Kept Q T x6 := by
          unfold x6
          refine State.injectBridge_kept _ _ ?_
          unfold x0
          exact (State.storedWord_kept _ _ _ _ _ hs)
        clear_value x6
        exact (ite_kept (State.gutterMismatch_kept _ _ (State.setGutter_kept _ _ _ (State.useInject_kept _ hx6))) (State.putGutter_kept _ _ _ hx6))
theorem execGutterWrite_kept (i : ℕ) (w : W64) (poison : Bool) (last : Bool) (owner : Option (ℕ × ℕ)) (s : State) (hs : Kept Q T s) : OutOk
    Q T (execGutterWrite i w poison last owner s) := by
  unfold execGutterWrite
  exact (onCore_kept _ _ (fun _ k11_1 => (gutterWrite_kept _ _ _ _ _ _ k11_1)) hs)
theorem gutterRead_kept (i : ℕ) (dst : Option ℕ) (s : State) (hs : Kept Q T s) : Kept Q T (gutterRead i dst s) := by
  unfold gutterRead
  refine ite_kept ?_ ?_
  · exact hs
  · refine ite_kept ?_ ?_
    · exact (State.readInReset_kept _ _ hs)
    · split
      · rename_i y0 y1
        exact (State.gutterUnderrun_kept _ _ _ hs)
      · rename_i y2 y3 y4 y5
        extract_lets +onlyGivenNames x6
        extract_lets +onlyGivenNames x7
        have hx7 : Kept Q T x7 := (State.putGutter_kept _ _ _ hs)
        clear_value x7
        refine ite_kept ?_ ?_
        · exact hx7
        · extract_lets +onlyGivenNames x8
          have hx8 : Kept Q T x8 := (ite_kept (State.bump_kept _ _ _ (State.bump_kept _ _ _ hx7)) hx7)
          clear_value x8
          exact (ite_kept (State.gutterPoison_kept _ _ _ _ hx8) hx8)
theorem execGutterRead_kept (i : ℕ) (dst : Option ℕ) (s : State) (hs : Kept Q T s) : OutOk Q T (execGutterRead i dst s) := by
  unfold execGutterRead
  exact (onCore_kept _ _ (fun _ k8_1 => (gutterRead_kept _ _ _ k8_1)) hs)
theorem gutterStale_kept (i : ℕ) (s : State) (hs : Kept Q T s) : Kept Q T (gutterStale i s) := by
  unfold gutterStale
  extract_lets +onlyGivenNames x0
  exact (ite_kept hs (State.bump_kept _ _ _ (State.putGutter_kept _ _ _ hs)))
theorem execGutterStale_kept (i : ℕ) (s : State) (hs : Kept Q T s) : OutOk Q T (execGutterStale i s) := by
  unfold execGutterStale
  exact (onCore_kept _ _ (fun _ k7_1 => (gutterStale_kept _ _ k7_1)) hs)
theorem gutterPointerMismatch_kept (i : ℕ) (s : State) (hs : Kept Q T s) : Kept Q T (gutterPointerMismatch i s) := by
  unfold gutterPointerMismatch
  exact (ite_kept (State.gutterMismatch_kept _ _ hs) hs)
theorem execGutterPointerMismatch_kept (i : ℕ) (s : State) (hs : Kept Q T s) : OutOk Q T (execGutterPointerMismatch i s) := by
  unfold execGutterPointerMismatch
  exact (onCore_kept _ _ (fun _ k7_1 => (gutterPointerMismatch_kept _ _ k7_1)) hs)
theorem execErrorLineRise_kept (e : ErrSource) (s : State) (hs : Kept Q T s) : OutOk Q T (execErrorLineRise e s) := by
  unfold execErrorLineRise
  exact (errorRails_kept _ _ _ (fun _ k7_1 => (errorLineRise_kept _ _ k7_1)) hs)
theorem mergeWindowClose_kept (s : State) (hs : Kept Q T s) : Kept Q T (mergeWindowClose s) := by
  unfold mergeWindowClose
  exact (Kept.keep hs)
theorem execMergeWindowClose_kept (s : State) (hs : Kept Q T s) : OutOk Q T (execMergeWindowClose s) := by
  unfold execMergeWindowClose
  exact (onHub_kept _ _ (fun _ k6_1 => (mergeWindowClose_kept _ k6_1)) hs)
theorem execFltStatusClear_kept (v : W64) (s : State) (hs : Kept Q T s) : OutOk Q T (execFltStatusClear v s) := by
  unfold execFltStatusClear
  exact (onHub_kept _ _ (fun _ k7_1 => (State.gated_kept _ _ _ k7_1 (fun _ k9_1 => (writeFltStatus_kept _ _ k9_1)))) hs)
theorem execFltInjectArm_kept (v : W64) (s : State) (hs : Kept Q T s) : OutOk Q T (execFltInjectArm v s) := by
  unfold execFltInjectArm
  exact (onHub_kept _ _ (fun _ k7_1 => (State.gated_kept _ _ _ k7_1 (fun _ k9_1 => (writeFltInject_kept _ _ k9_1)))) hs)
theorem execFltInjectDisarm_kept (v : W64) (s : State) (hs : Kept Q T s) : OutOk Q T (execFltInjectDisarm v s) := by
  unfold execFltInjectDisarm
  exact (onHub_kept _ _ (fun _ k7_1 => (State.gated_kept _ _ _ k7_1 (fun _ k9_1 => (writeFltInject_kept _ _ k9_1)))) hs)
theorem State.reportRates_kept (s : State) (hs : Kept Q T s) : Kept Q T (State.reportRates s) := by
  unfold State.reportRates
  exact (State.setFs_kept _ _ hs)
theorem State.measure_kept (s : State) (c : Course) (hs : Kept Q T s) : Kept Q T (State.measure s c) := by
  unfold State.measure
  extract_lets +onlyGivenNames x0
  exact (State.reportRates_kept _ (Kept.keep hs))
theorem State.releaseSaves_kept (s : State) (hs : Kept Q T s) : Kept Q T (State.releaseSaves s) := by
  unfold State.releaseSaves
  exact (Kept.keep hs)
theorem State.countPlan_kept (s : State) (hs : Kept Q T s) : Kept Q T (State.countPlan s) := by
  unfold State.countPlan
  extract_lets +onlyGivenNames x0
  exact (State.setFs_kept _ _ hs)
theorem State.plan_kept (s : State) (img : Image) (hs : Kept Q T s) : Kept Q T (State.plan s img) := by
  unfold State.plan
  extract_lets +onlyGivenNames x0
  extract_lets +onlyGivenNames x1
  extract_lets +onlyGivenNames x2
  extract_lets +onlyGivenNames x3
  extract_lets +onlyGivenNames x4
  extract_lets +onlyGivenNames x5
  extract_lets +onlyGivenNames x6
  extract_lets +onlyGivenNames x7
  extract_lets +onlyGivenNames x8
  extract_lets +onlyGivenNames x9
  extract_lets +onlyGivenNames x10
  extract_lets +onlyGivenNames x11
  extract_lets +onlyGivenNames x12
  extract_lets +onlyGivenNames x13
  extract_lets +onlyGivenNames x14
  have hx14 : Kept Q T x14 := (Kept.keep hs)
  clear_value x14
  extract_lets +onlyGivenNames x15
  have hx15 : Kept Q T x15 := (State.reportRates_kept _ (State.countPlan_kept _ (State.setF_kept _ _ _ hx14)))
  clear_value x15
  split
  · rename_i y16 y17
    exact hx15
  · rename_i y18 y19 y20
    extract_lets +onlyGivenNames x21
    exact (Kept.keep hx15)
theorem State.admitTables_kept (s : State) (a : Nat) (i : Image) (prev : Option PrevCourse) (ns : Nat) (q : Bool × State) (hq : Kept Q T
    q.2) : Kept Q T (s.admitTables a i prev ns q).2 := by
  exact hq
theorem State.checkReads_kept (s : State) (rs : List (ℕ × ℕ)) (hs : Kept Q T s) : Kept Q T (State.checkReads s rs).2 := by
  unfold State.checkReads
  dsimp only
  exact (State.each_kept _ _ _ hs (fun _ _ k8_2 => (State.readQuiet_kept _ _ _ k8_2)))
theorem State.admitImage_kept (s : State) (a idx : Nat) (seed : W64) (prev : Option PrevCourse) (ns : Nat) (r : Bool × State) (hr : Kept Q T
    r.2) : Kept Q T (s.admitImage a idx seed prev ns r).2 := by
  unfold State.admitImage
  split
  · exact hr
  · extract_lets i
    split
    · exact hr
    · exact State.admitTables_kept _ _ _ _ _ _ (State.checkReads_kept _ _ hr)
theorem State.admitAt_kept (s : State) (a idx : Nat) (seed : W64) (prev : Option PrevCourse) (ns : Nat) (hs : Kept Q T s) : Kept Q T
    (s.admitAt a idx seed prev ns).2 := by
  unfold State.admitAt
  exact State.admitImage_kept _ _ _ _ _ _ _ (State.checkReads_kept _ _ hs)
theorem State.tryAdmit_kept (s : State) (idx : ℕ) (seed : W64) (prev : Option PrevCourse) (ns : ℕ) (hs : Kept Q T s) : Kept Q T
    (State.tryAdmit s idx seed prev ns).2 := by
  unfold State.tryAdmit
  split
  · rename_i y0
    dsimp only
    exact hs
  · rename_i y1
    split
    · rename_i y2
      dsimp only
      exact hs
    · rename_i y3
      exact (State.admitAt_kept _ _ _ _ _ _ hs)
theorem State.swapSets_kept (s : State) (hs : Kept Q T s) : Kept Q T (State.swapSets s) := by
  unfold State.swapSets
  exact (State.setFs_kept _ _ hs)
theorem State.keepActive_kept (t0 : State) (s : State) (ht0 : Kept Q T t0) (hs : Kept Q T s) : Kept Q T (State.keepActive t0 s) := by
  unfold State.keepActive
  exact (State.setFs_kept _ _ ht0)
theorem State.admitNext_kept (s : State) (idx : ℕ) (seed : W64) (prev : Option PrevCourse) (ns : ℕ) (hs : Kept Q T s) : Kept Q T
    (State.admitNext s idx seed prev ns).2 := by
  unfold State.admitNext
  split
  · rename_i y0
    extract_lets +onlyGivenNames x1
    dsimp only
    refine State.keepActive_kept _ _ ?_ ?_
    · unfold x1
      exact (State.tryAdmit_kept _ _ _ _ _ (State.swapSets_kept _ hs))
    · exact hs
  · rename_i y2
    exact (State.tryAdmit_kept _ _ _ _ _ hs)
theorem State.reportAdmission_kept (s : State) (v : Verdict) (hs : Kept Q T s) : Kept Q T (State.reportAdmission s v) := by
  unfold State.reportAdmission
  exact (State.nextFree_kept _ (State.setFs_kept _ _ hs))
theorem State.imgTableOk_kept (s : State) (hs : Kept Q T s) : Kept Q T (State.imgTableOk s).2 := by
  unfold State.imgTableOk
  extract_lets +onlyGivenNames x0
  extract_lets +onlyGivenNames x1
  dsimp only
  unfold x1
  exact (State.checkReads_kept _ _ hs)
theorem State.planOk_kept (s : State) (hs : Kept Q T s) : Kept Q T (State.planOk s).2 := by
  unfold State.planOk
  extract_lets +onlyGivenNames x0
  extract_lets +onlyGivenNames x1
  extract_lets +onlyGivenNames x2
  dsimp only
  unfold x2
  exact (State.checkReads_kept _ _ hs)
theorem State.recipesOk_kept (s : State) (hs : Kept Q T s) : Kept Q T (State.recipesOk s).2 := by
  unfold State.recipesOk
  extract_lets +onlyGivenNames x0
  extract_lets +onlyGivenNames x1
  extract_lets +onlyGivenNames x2
  split
  · rename_i y3
    extract_lets +onlyGivenNames x4
    dsimp only
    unfold x4
    refine State.checkReads_kept _ _ ?_
    unfold x1
    exact (State.checkReads_kept _ _ hs)
  · rename_i y5
    dsimp only
    unfold x1
    exact (State.checkReads_kept _ _ hs)
theorem thenCheck_kept (x : Bool × State) (f : State → Bool × State) (hf : ∀ s, Kept Q T s → Kept Q T (f s).2) (hx : Kept Q T x.2) : Kept Q
    T (thenCheck x f).2 := by
  exact hf _ hx
theorem State.ttOk_kept (s : State) (i : ℕ) (hs : Kept Q T s) : Kept Q T (State.ttOk s i).2 := by
  unfold State.ttOk
  extract_lets +onlyGivenNames x0
  extract_lets +onlyGivenNames x1
  dsimp only
  unfold x0
  exact (State.checkReads_kept _ _ hs)
theorem State.ttsOk_kept (s : State) (hs : Kept Q T s) : Kept Q T s.ttsOk.2 := by
  unfold State.ttsOk
  extract_lets n r
  have hr : Kept Q T r.2 := State.checkReads_kept _ _ hs
  clear_value r n
  split
  · refine foldl_snd_kept _ _ _ hr ?_
    intro p x hp
    have h : Kept Q T (p.2.ttOk x).2 := State.ttOk_kept _ _ hp
    generalize p.2.ttOk x = y at h ⊢
    exact h
  · exact hr
theorem State.setOk_kept (s : State) (hs : Kept Q T s) : Kept Q T s.setOk.2 := by
  unfold State.setOk
  split
  · exact hs
  · exact thenCheck_kept _ _ State.recipesOk_kept (thenCheck_kept _ _ State.planOk_kept (thenCheck_kept _ _ State.ttsOk_kept
      (State.imgTableOk_kept _ hs)))
theorem courseRun_kept (r : ℕ) (s : State) (hs : Kept Q T s) : Kept Q T (courseRun r s) := by
  unfold courseRun
  refine State.onReq_kept _ _ _ _ ?_ ?_
  · exact hs
  · intro v0 v1 h2
    refine ite_kept ?_ ?_
    · exact (State.finish_kept _ _ _ h2)
    · extract_lets +onlyGivenNames x3
      extract_lets +onlyGivenNames x4
      extract_lets +onlyGivenNames x5
      extract_lets +onlyGivenNames x6
      have hx6 : Kept Q T x6 := by
        unfold x6
        refine State.reportAdmission_kept _ _ ?_
        unfold x4
        exact (State.admitNext_kept _ _ _ _ _ h2)
      clear_value x6
      exact (ite_kept (State.finish_kept _ _ _ hx6) (ite_kept (State.finish_kept _ _ _ (Kept.keep hx6)) (Kept.keep hx6)))
theorem writeSwap_kept (v : ℕ) (s : State) (hs : Kept Q T s) : Kept Q T (writeSwap v s) := by
  unfold writeSwap
  refine ite_kept ?_ ?_
  · exact hs
  · extract_lets +onlyGivenNames x0
    extract_lets +onlyGivenNames x1
    have hx1 : Kept Q T x1 := by
      unfold x1
      refine State.keepActive_kept _ _ ?_ ?_
      · unfold x0
        exact (State.setOk_kept _ (State.swapSets_kept _ hs))
      · exact hs
    clear_value x1
    refine ite_kept ?_ ?_
    · extract_lets +onlyGivenNames x2
      have hx2 : Kept Q T x2 := (State.setFs_kept _ _ hx1)
      clear_value x2
      exact (Kept.keep hx2)
    · exact (State.setF_kept _ _ _ hx1)
theorem execCrsSwapReq_kept (v : W32) (s : State) (hs : Kept Q T s) : OutOk Q T (execCrsSwapReq v s) := by
  unfold execCrsSwapReq
  exact (onHub_kept _ _ (fun _ k7_1 => (State.gated_kept _ _ _ k7_1 (fun _ k9_1 => (writeSwap_kept _ _ k9_1)))) hs)
theorem execCourseRun_kept (r : ℕ) (s : State) (hs : Kept Q T s) : OutOk Q T (execCourseRun r s) := by
  unfold execCourseRun
  exact (onHub_kept _ _ (fun _ k7_1 => (courseRun_kept _ _ k7_1)) hs)
theorem State.announceAll_kept (s : State) (hs : Kept Q T s) : Kept Q T (State.announceAll s) := by
  unfold State.announceAll
  exact (State.each_kept _ _ _ hs (fun _ _ k7_2 => (State.proposePort_kept _ _ k7_2)))
theorem State.dropCourse_kept (s : State) (hs : Kept Q T s) : Kept Q T (State.dropCourse s) := by
  unfold State.dropCourse
  extract_lets +onlyGivenNames x0
  extract_lets +onlyGivenNames x1
  have hx1 : Kept Q T x1 := (ite_kept (State.sealBuild_kept _ _ _ hs) hs)
  clear_value x1
  exact (Kept.keep hx1)
theorem State.reserved_kept (s : State) (hs : Kept Q T s) : Kept Q T (State.reserved s) := by
  unfold State.reserved
  exact (ite_kept (commitReserveStart_kept _ hs) hs)
theorem State.readLedger_kept (s : State) (c : Course) (hs : Kept Q T s) : Kept Q T (State.readLedger s c) := by
  unfold State.readLedger
  exact (State.readHbm_kept _ _ _ hs)
theorem State.updateLedger_kept (s : State) (c : Course) (committed : Bool) (hs : Kept Q T s) : Kept Q T (s.updateLedger c committed).2 :=
    by
  unfold State.updateLedger
  refine foldl_snd_kept _ _ _ hs ?_
  intro p x hp
  extract_lets u y k z lowered
  exact ite_kept hp (State.writeHbm_kept _ _ _ hp)
theorem State.endStep_kept (s : State) (c : Course) (result : Bool) (hs : Kept Q T s) : Kept Q T (State.endStep s c result) := by
  unfold State.endStep
  extract_lets +onlyGivenNames x0
  extract_lets +onlyGivenNames x1
  have hx1 : Kept Q T x1 := by
    unfold x1
    refine State.setFs_kept _ _ ?_
    unfold x0
    exact (State.updateLedger_kept _ _ _ hs)
  clear_value x1
  extract_lets +onlyGivenNames x2
  have hx2 : Kept Q T x2 := (ite_kept (State.bump_kept _ _ _ hx1) (State.setF_kept _ _ _ hx1))
  clear_value x2
  exact (ite_kept (State.bump_kept _ _ _ hx2) hx2)
theorem State.endPoint_kept (s : State) (c : Course) (result : Bool) (hs : Kept Q T s) : Kept Q T (State.endPoint s c result) := by
  unfold State.endPoint
  extract_lets +onlyGivenNames x0
  extract_lets +onlyGivenNames x1
  have hx1 : Kept Q T x1 := (State.sealBuild_kept _ _ _ (Kept.keep hs))
  clear_value x1
  refine ite_kept ?_ ?_
  · extract_lets +onlyGivenNames x2
    have hx2 : Kept Q T x2 := (State.setF_kept _ _ _ hx1)
    clear_value x2
    exact (Kept.keep hx2)
  · exact hx1
theorem State.completeCourse_kept (s : State) (c : Course) (hs : Kept Q T s) : Kept Q T (State.completeCourse s c) := by
  unfold State.completeCourse
  extract_lets +onlyGivenNames x0
  extract_lets +onlyGivenNames x1
  extract_lets +onlyGivenNames x2
  extract_lets +onlyGivenNames x3
  have hx3 : Kept Q T x3 := (ite_kept (State.endStep_kept _ _ _ hs) hs)
  clear_value x3
  extract_lets +onlyGivenNames x4
  have hx4 : Kept Q T x4 := (State.bump_kept _ _ _ (State.writeHbm_kept _ _ _ hx3))
  clear_value x4
  extract_lets +onlyGivenNames x5
  have hx5 : Kept Q T x5 := (State.bump_kept _ _ _ (State.writeHbm_kept _ _ _ hx4))
  clear_value x5
  extract_lets +onlyGivenNames x6
  have hx6 : Kept Q T x6 := (State.bump_kept _ _ _ (State.measure_kept _ _ hx5))
  clear_value x6
  extract_lets +onlyGivenNames x7
  have hx7 : Kept Q T x7 := (ite_kept (State.endPoint_kept _ _ _ hx6) hx6)
  clear_value x7
  extract_lets +onlyGivenNames x8
  have hx8 : Kept Q T x8 := (State.releaseSaves_kept _ hx7)
  clear_value x8
  extract_lets +onlyGivenNames x9
  have hx9 : Kept Q T x9 := (ite_kept (Kept.keep hx8) hx7)
  clear_value x9
  extract_lets +onlyGivenNames x10
  have hx10 : Kept Q T x10 := (Kept.keep hx9)
  clear_value x10
  exact (State.complete_kept _ _ _ _ (State.setLast_kept _ _ _ _ _ hx10))
theorem State.settleCourse_kept (s : State) (hs : Kept Q T s) : Kept Q T (State.settleCourse s) := by
  unfold State.settleCourse
  extract_lets +onlyGivenNames x0
  have hx0 : Kept Q T x0 := (State.reserved_kept _ hs)
  clear_value x0
  split
  · rename_i y1 y2
    exact hx0
  · rename_i y3 y4 y5
    refine ite_kept ?_ ?_
    · exact (State.raiseLine_kept _ _ hx0)
    · extract_lets +onlyGivenNames x6
      have hx6 : Kept Q T x6 := (ite_kept (State.readLedger_kept _ _ hx0) hx0)
      clear_value x6
      split
      · rename_i y7 y8
        exact hx6
      · rename_i y9 y10 y11
        exact (State.completeCourse_kept _ _ hx6)
theorem State.closeWindow_kept (s : State) (hs : Kept Q T s) : Kept Q T (State.closeWindow s) := by
  unfold State.closeWindow
  split
  · rename_i y0 y1
    exact hs
  · rename_i y2 y3 y4
    exact (State.dropCourse_kept _ (State.settleCourse_kept _ hs))
theorem State.ceLimits_kept (s : State) (hs : Kept Q T s) : Kept Q T (State.ceLimits s) := by
  unfold State.ceLimits
  extract_lets +onlyGivenNames x0
  extract_lets +onlyGivenNames x1
  extract_lets +onlyGivenNames x2
  exact (State.each_kept _ _ _ (State.each_kept _ _ _ hs (fun _ _ k10_2 => (State.requestReslate_kept _ _ _ _ k10_2))) (fun _ _ k10_2 => (State.requestReslate_kept _ _ _ _ k10_2)))
theorem State.takeSwap_kept (s : State) (hs : Kept Q T s) : Kept Q T (State.takeSwap s) := by
  unfold State.takeSwap
  exact (ite_kept (State.reportRates_kept _ (State.setFs_kept _ _ (State.swapSets_kept _ hs))) hs)
theorem State.ridgeLanes_kept (s : State) (closes : Bool) (hs : Kept Q T s) : Kept Q T (State.ridgeLanes s closes) := by
  unfold State.ridgeLanes
  extract_lets +onlyGivenNames x0
  extract_lets +onlyGivenNames x1
  have hx1 : Kept Q T x1 := (State.each_kept _ _ _ hs (fun _ _ k10_2 => (State.repairPort_kept _ _ _ k10_2)))
  clear_value x1
  exact (State.each_kept _ _ _ hx1 (fun _ _ k11_2 => (State.judgeLane_kept _ _ _ _ k11_2)))
theorem State.oneVersion_kept (s : State) (v : ℕ) (hs : Kept Q T s) : Kept Q T (State.oneVersion s v) := by
  unfold State.oneVersion
  exact (ite_kept hs (State.setFs_kept _ _ hs))
theorem State.ridgeQuiesces_kept (s : State) (hs : Kept Q T s) : Kept Q T (State.ridgeQuiesces s) := by
  unfold State.ridgeQuiesces
  exact (State.each_kept _ _ _ hs (fun _ _ k7_2 => (State.pumpTarget_kept _ _ k7_2)))
theorem State.emptyGutters_kept (s : State) (hs : Kept Q T s) : Kept Q T (State.emptyGutters s) := by
  unfold State.emptyGutters
  exact (State.each_kept _ _ _ hs (fun _ _ k7_2 => (ite_kept (State.putGutter_kept _ _ _ k7_2) k7_2)))
theorem State.ridgeActions_kept (s : State) (sort : RidgeSort) (hs : Kept Q T s) : Kept Q T (s.ridgeActions sort) := by
  unfold State.ridgeActions
  extract_lets v closes a b c d
  have ha : Kept Q T a := State.ceLimits_kept _ (State.commitSpares_kept _ (State.takeSwap_kept _ hs))
  have hb : Kept Q T b := ite_kept ha (State.closeChannelCounts_kept _ _ (State.ridgeLanes_kept _ _ ha))
  have hc : Kept Q T c := State.oneVersion_kept _ _ (State.each_kept _ _ _ hb fun t x h => State.ridgeUp_kept _ _ h)
  have hd : Kept Q T d := State.slotsInRange_kept _ (State.moveWindow_kept _ (State.takeMapOuts_kept _ hc))
  exact State.ridgeQuiesces_kept _ (State.emptyGutters_kept _ (State.kvReport_kept _ (State.kvReclaim_kept _ (State.startRetrains_kept _ hd))))
theorem State.refuseCourse_kept (s : State) (q : Req) (img : Image) (code : ℕ) (hs : Kept Q T s) : Kept Q T (State.refuseCourse s q img
    code) := by
  unfold State.refuseCourse
  extract_lets +onlyGivenNames x0
  extract_lets +onlyGivenNames x1
  have hx1 : Kept Q T x1 := (Kept.keep hs)
  clear_value x1
  extract_lets +onlyGivenNames x2
  have hx2 : Kept Q T x2 := (State.releaseSaves_kept _ hx1)
  clear_value x2
  extract_lets +onlyGivenNames x3
  have hx3 : Kept Q T x3 := (Kept.keep hx2)
  clear_value x3
  extract_lets +onlyGivenNames x4
  have hx4 : Kept Q T x4 := (State.setLast_kept _ _ _ _ _ (State.setF_kept _ _ _ hx3))
  clear_value x4
  extract_lets +onlyGivenNames x5
  have hx5 : Kept Q T x5 := (ite_kept hx4 (State.setSeed_kept _ _ hx4))
  clear_value x5
  exact (State.hold_kept _ (State.complete_kept _ _ _ _ hx5))
theorem State.passStep_kept (s : State) (img : Image) (hs : Kept Q T s) : Kept Q T (State.passStep s img) := by
  unfold State.passStep
  extract_lets +onlyGivenNames x0
  split
  · rename_i y1 y2
    exact (Kept.keep hs)
  · rename_i y3 y4 y5 y6
    exact (Kept.keep hs)
theorem State.startStep_kept (s : State) (img : Image) (n : ℕ) (hs : Kept Q T s) : Kept Q T (State.startStep s img n) := by
  unfold State.startStep
  refine ite_kept ?_ ?_
  · exact hs
  · extract_lets +onlyGivenNames x0
    have hx0 : Kept Q T x0 := (State.releaseSaves_kept _ hs)
    clear_value x0
    extract_lets +onlyGivenNames x1
    have hx1 : Kept Q T x1 := (Kept.keep hx0)
    clear_value x1
    exact (State.setSeed_kept _ _ hx1)
theorem State.clearDie_kept (s : State) (hs : Kept Q T s) : Kept Q T (State.clearDie s) := by
  unfold State.clearDie
  refine Kept.upd ?_ ?_ ?_ ?_ ?_ ?_ ?_
  · exact (Kept.canon hs).hbm
  · exact rfl
  · exact rfl
  · exact rfl
  · exact (Kept.canon hs).regs
  · exact Kept.queue hs
  · exact Kept.clock hs
theorem State.nameTt_kept (s : State) (c : Course) (hs : Kept Q T s) : Kept Q T (State.nameTt s c) := by
  unfold State.nameTt
  extract_lets +onlyGivenNames x0
  exact (State.setFs_kept _ _ hs)
theorem State.holdScales_kept (s : State) (c : Course) (hs : Kept Q T s) : Kept Q T (State.holdScales s c) := by
  unfold State.holdScales
  extract_lets +onlyGivenNames x0
  split
  · rename_i y1 y2
    unfold x0
    exact (State.readHbm_kept _ _ _ hs)
  · rename_i y3 y4 y5
    extract_lets +onlyGivenNames x6
    extract_lets +onlyGivenNames x7
    have hx7 : Kept Q T x7 := by
      unfold x7
      unfold x0
      exact (State.readHbm_kept _ _ _ hs)
    clear_value x7
    exact (Kept.keep hx7)
theorem State.startCourse_kept (s : State) (q : Req) (img : Image) (hs : Kept Q T s) : Kept Q T (State.startCourse s q img) := by
  unfold State.startCourse
  extract_lets +onlyGivenNames x0
  have hx0 : Kept Q T x0 := (State.passStep_kept _ _ hs)
  clear_value x0
  extract_lets +onlyGivenNames x1
  extract_lets +onlyGivenNames x2
  have hx2 : Kept Q T x2 := (State.startStep_kept _ _ _ (State.clearDie_kept _ hx0))
  clear_value x2
  extract_lets +onlyGivenNames x3
  extract_lets +onlyGivenNames x4
  have hx4 : Kept Q T x4 := (Kept.keep hx2)
  clear_value x4
  extract_lets +onlyGivenNames x5
  have hx5 : Kept Q T x5 := (State.dropLost_kept _ (State.nameTt_kept _ _ (State.setF_kept _ _ _ hx4)))
  clear_value x5
  exact (State.holdScales_kept _ _ (State.buildDecision_kept _ _ (State.plan_kept _ _ hx5)))
theorem State.openCourse_kept (s : State) (a : Adm) (hs : Kept Q T s) : Kept Q T (State.openCourse s a) := by
  unfold State.openCourse
  extract_lets +onlyGivenNames x0
  extract_lets +onlyGivenNames x1
  have hx1 : Kept Q T x1 := by
    unfold x1
    refine State.reportAdmission_kept _ _ ?_
    unfold x0
    exact (State.tryAdmit_kept _ _ _ _ _ hs)
  clear_value x1
  refine ite_kept ?_ ?_
  · exact (State.refuseCourse_kept _ _ _ _ hx1)
  · split
    · rename_i y2 y3 y4
      exact (State.refuseCourse_kept _ _ _ _ hx1)
    · rename_i y5 y6
      exact (State.startCourse_kept _ _ _ hx1)
theorem State.openWindow_kept (s : State) (hs : Kept Q T s) : Kept Q T (State.openWindow s) := by
  unfold State.openWindow
  split
  · rename_i y0 y1 y2 y3
    exact (ite_kept (State.openCourse_kept _ _ (Kept.keep hs)) (State.setF_kept _ _ _ hs))
  · rename_i y4 y5
    exact (State.setF_kept _ _ _ hs)
theorem State.ridge_kept (s : State) (sort : RidgeSort) (hs : Kept Q T s) : Kept Q T (State.ridge s sort) := by
  unfold State.ridge
  extract_lets +onlyGivenNames x0
  have hx0 : Kept Q T x0 := (State.bump_kept _ _ _ (State.closeWindow_kept _ hs))
  clear_value x0
  extract_lets +onlyGivenNames x1
  extract_lets +onlyGivenNames x2
  have hx2 : Kept Q T x2 := (State.ridgeActions_kept _ _ (Kept.keep hx0))
  clear_value x2
  exact (State.announceAll_kept _ (State.openWindow_kept _ hx2))
theorem writeResume_kept (v : ℕ) (s : State) (hs : Kept Q T s) : Kept Q T (writeResume v s) := by
  unfold writeResume
  exact (ite_kept hs (ite_kept (Kept.keep hs) (State.setF_kept _ _ _ hs)))
theorem writeAbort_kept (v : ℕ) (s : State) (hs : Kept Q T s) : Kept Q T (writeAbort v s) := by
  unfold writeAbort
  exact (ite_kept (State.failCourse_kept _ _ hs) hs)
theorem freeRidge_kept (s : State) (hs : Kept Q T s) : Kept Q T (freeRidge s) := by
  unfold freeRidge
  exact (ite_kept hs (State.ridgeActions_kept _ _ (Kept.keep hs)))
theorem execFreeRidge_kept (s : State) (hs : Kept Q T s) : OutOk Q T (execFreeRidge s) := by
  unfold execFreeRidge
  exact (onCore_kept _ _ (fun _ k6_1 => (freeRidge_kept _ k6_1)) hs)
theorem phaseDeadline_kept (p : ℕ) (s : State) (hs : Kept Q T s) : Kept Q T (phaseDeadline p s) := by
  unfold phaseDeadline
  split
  · rename_i y0 y1
    exact hs
  · rename_i y2 y3 y4
    split
    · rename_i y5 y6
      exact hs
    · rename_i y7 y8 y9
      exact (ite_kept hs (State.raiseLine_kept _ _ hs))
theorem execPhaseDeadline_kept (p : ℕ) (s : State) (hs : Kept Q T s) : OutOk Q T (execPhaseDeadline p s) := by
  unfold execPhaseDeadline
  exact (onCore_kept _ _ (fun _ k7_1 => (phaseDeadline_kept _ _ k7_1)) hs)
theorem execCrsResume_kept (v : W32) (s : State) (hs : Kept Q T s) : OutOk Q T (execCrsResume v s) := by
  unfold execCrsResume
  exact (onHub_kept _ _ (fun _ k7_1 => (State.gated_kept _ _ _ k7_1 (fun _ k9_1 => (writeResume_kept _ _ k9_1)))) hs)
theorem execCrsAbort_kept (v : W32) (s : State) (hs : Kept Q T s) : OutOk Q T (execCrsAbort v s) := by
  unfold execCrsAbort
  exact (onHub_kept _ _ (fun _ k7_1 => (State.gated_kept _ _ _ k7_1 (fun _ k9_1 => (writeAbort_kept _ _ k9_1)))) hs)
theorem ridgeIntervalEnd_kept (s : State) (hs : Kept Q T s) : Kept Q T (ridgeIntervalEnd s) := by
  unfold ridgeIntervalEnd
  extract_lets +onlyGivenNames x0
  have hx0 : Kept Q T x0 := (State.repairsEnd_kept _ hs)
  clear_value x0
  split
  · rename_i y1 y2
    exact hx0
  · rename_i y3 y4 y5
    refine ite_kept ?_ ?_
    · exact hx0
    · extract_lets +onlyGivenNames x6
      extract_lets +onlyGivenNames x7
      have hx7 : Kept Q T x7 := (State.countStarts_kept _ (Kept.keep hx0))
      clear_value x7
      exact (ite_kept (State.lastPhaseEnds_kept _ hx7) hx7)
theorem execRidgeIntervalEnd_kept (s : State) (hs : Kept Q T s) : OutOk Q T (execRidgeIntervalEnd s) := by
  unfold execRidgeIntervalEnd
  exact (onCore_kept _ _ (fun _ k6_1 => (ridgeIntervalEnd_kept _ k6_1)) hs)
theorem State.setPeriod_kept (s : State) (sum : ℕ) (hs : Kept Q T s) : Kept Q T (State.setPeriod s sum) := by
  unfold State.setPeriod
  extract_lets +onlyGivenNames x0
  extract_lets +onlyGivenNames x1
  extract_lets +onlyGivenNames x2
  have hx2 : Kept Q T x2 := (State.setF_kept _ _ _ hs)
  clear_value x2
  exact (Kept.keep hx2)
theorem State.recheckWaiting_kept (s : State) (l : List (Adm × Nat)) (hs : Kept Q T s) : Kept Q T (s.recheckWaiting l) := by
  induction l generalizing s with
  | nil => exact hs
  | cons x t ih =>
    obtain ⟨a, o⟩ := x
    unfold State.recheckWaiting
    extract_lets pred r u a' v
    have hu : Kept Q T u := State.reportAdmission_kept _ _ (State.admitNext_kept _ _ _ _ _ hs)
    split
    · exact ih _ (Kept.keep hu)
    · exact State.hold_kept _ (State.finish_kept _ _ _ (Kept.keep hu))
theorem State.leaveHoldover_kept (s : State) (t1 : ℕ) (sum : ℕ) (hs : Kept Q T s) : Kept Q T (State.leaveHoldover s t1 sum) := by
  unfold State.leaveHoldover
  extract_lets +onlyGivenNames x0
  extract_lets +onlyGivenNames x1
  extract_lets +onlyGivenNames x2
  extract_lets +onlyGivenNames x3
  have hx3 : Kept Q T x3 := (State.setF_kept _ _ _ hs)
  clear_value x3
  extract_lets +onlyGivenNames x4
  have hx4 : Kept Q T x4 := (State.setPeriod_kept _ _ (Kept.keep hx3))
  clear_value x4
  refine ite_kept ?_ ?_
  · exact hx4
  · extract_lets +onlyGivenNames x5
    have hx5 : Kept Q T x5 := (State.failCourse_kept _ _ (State.raiseLine_kept _ _ hx4))
    clear_value x5
    exact (State.recheckWaiting_kept _ _ (Kept.keep hx5))
theorem State.sendBeats_kept (s : State) (hs : Kept Q T s) : Kept Q T (State.sendBeats s) := by
  unfold State.sendBeats
  extract_lets +onlyGivenNames x0
  exact (State.each_kept _ _ _ hs (fun _ _ k8_2 => (State.sendFlit_kept _ _ _ _ k8_2)))
theorem State.lock_kept (s : State) (t1 : ℕ) (sum : ℕ) (beat : Option ℕ) (hs : Kept Q T s) : Kept Q T (State.lock s t1 sum beat) := by
  unfold State.lock
  extract_lets +onlyGivenNames x0
  extract_lets +onlyGivenNames x1
  extract_lets +onlyGivenNames x2
  have hx2 : Kept Q T x2 := (State.setFs_kept _ _ (State.setPeriod_kept _ _ hs))
  clear_value x2
  extract_lets +onlyGivenNames x3
  extract_lets +onlyGivenNames x4
  exact (State.ridge_kept _ _ (State.sendBeats_kept _ (State.dropLine_kept _ _ (Kept.keep hx2))))
theorem State.seekEdge_kept (s : State) (t1 : ℕ) (beat : Option ℕ) (hs : Kept Q T s) : Kept Q T (State.seekEdge s t1 beat) := by
  unfold State.seekEdge
  extract_lets +onlyGivenNames x0
  have hx0 : Kept Q T x0 := (Kept.keep hs)
  clear_value x0
  extract_lets +onlyGivenNames x1
  split
  · rename_i y2 y3
    exact hx0
  · rename_i y4 y5 y6
    exact (ite_kept (State.setF_kept _ _ _ hx0) (ite_kept hx0 (ite_kept (State.leaveHoldover_kept _ _ _ hx0) (State.lock_kept _ _ _ _ hx0))))
theorem State.beatEdge_kept (s : State) (t1 : ℕ) (beat : Option ℕ) (hs : Kept Q T s) : Kept Q T (State.beatEdge s t1 beat) := by
  unfold State.beatEdge
  refine ite_kept ?_ ?_
  · exact hs
  · refine ite_kept ?_ ?_
    · refine ite_kept ?_ ?_
      · extract_lets +onlyGivenNames x0
        extract_lets +onlyGivenNames x1
        exact (Kept.keep hs)
      · exact hs
    · exact (State.seekEdge_kept _ _ _ hs)
theorem State.beatWindow_kept (s : State) (hs : Kept Q T s) : Kept Q T (State.beatWindow s) := by
  unfold State.beatWindow
  split
  · rename_i y0 y1
    exact (State.ridge_kept _ _ hs)
  · rename_i y2 y3 y4
    refine ite_kept ?_ ?_
    · exact (State.ridge_kept _ _ hs)
    · extract_lets +onlyGivenNames x5
      exact (Kept.keep hs)
theorem State.loseBeat_kept (s : State) (hs : Kept Q T s) : Kept Q T (State.loseBeat s) := by
  unfold State.loseBeat
  extract_lets +onlyGivenNames x0
  have hx0 : Kept Q T x0 := (State.setFs_kept _ _ hs)
  clear_value x0
  extract_lets +onlyGivenNames x1
  have hx1 : Kept Q T x1 := (State.failCourse_kept _ _ (State.holdLine_kept _ _ hx0))
  clear_value x1
  extract_lets +onlyGivenNames x2
  extract_lets +onlyGivenNames x3
  extract_lets +onlyGivenNames x4
  have hx4 : Kept Q T x4 := (ite_kept (State.dropCourse_kept _ hx1) hx1)
  clear_value x4
  extract_lets +onlyGivenNames x5
  have hx5 : Kept Q T x5 := (State.setF_kept _ _ _ hx4)
  clear_value x5
  exact (Kept.keep hx5)
theorem State.enterHoldover_kept (s : State) (hs : Kept Q T s) : Kept Q T (State.enterHoldover s) := by
  unfold State.enterHoldover
  extract_lets +onlyGivenNames x0
  extract_lets +onlyGivenNames x1
  extract_lets +onlyGivenNames x2
  have hx2 : Kept Q T x2 := (State.setF_kept _ _ _ hs)
  clear_value x2
  extract_lets +onlyGivenNames x3
  have hx3 : Kept Q T x3 := (Kept.keep hx2)
  clear_value x3
  exact (ite_kept (State.loseBeat_kept _ hx3) hx3)
theorem State.changeSource_kept (s : State) (hs : Kept Q T s) : Kept Q T (State.changeSource s) := by
  unfold State.changeSource
  refine ite_kept ?_ ?_
  · exact (State.enterHoldover_kept _ hs)
  · extract_lets +onlyGivenNames x0
    extract_lets +onlyGivenNames x1
    exact (Kept.keep hs)
theorem beatEdge_kept (frac : ℕ) (s : State) (hs : Kept Q T s) : Kept Q T (beatEdge frac s) := by
  unfold beatEdge
  exact (ite_kept (State.beatEdge_kept _ _ _ hs) hs)
theorem beatFlit_kept (p : ℕ) (beat : ℕ) (frac : ℕ) (s : State) (hs : Kept Q T s) : Kept Q T (beatFlit p beat frac s) := by
  unfold beatFlit
  exact (ite_kept (State.beatEdge_kept _ _ _ hs) hs)
theorem beatLoss_kept (s : State) (hs : Kept Q T s) : Kept Q T (beatLoss s) := by
  unfold beatLoss
  exact (ite_kept (State.loseBeat_kept _ hs) hs)
theorem writeCrsCtrl_kept (v : ℕ) (s : State) (hs : Kept Q T s) : Kept Q T (writeCrsCtrl v s) := by
  unfold writeCrsCtrl
  extract_lets +onlyGivenNames x0
  extract_lets +onlyGivenNames x1
  extract_lets +onlyGivenNames x2
  extract_lets +onlyGivenNames x3
  have hx3 : Kept Q T x3 := (ite_kept hs (State.setF_kept _ _ _ hs))
  clear_value x3
  extract_lets +onlyGivenNames x4
  have hx4 : Kept Q T x4 := (State.setFs_kept _ _ hx3)
  clear_value x4
  extract_lets +onlyGivenNames x5
  have hx5 : Kept Q T x5 := (ite_kept (State.withdraw_kept _ hx4) hx4)
  clear_value x5
  exact (ite_kept (State.changeSource_kept _ hx5) hx5)
theorem execBeatEdge_kept (frac : ℕ) (s : State) (hs : Kept Q T s) : OutOk Q T (execBeatEdge frac s) := by
  unfold execBeatEdge
  exact (onCore_kept _ _ (fun _ k7_1 => (beatEdge_kept _ _ k7_1)) hs)
theorem missingEdge_kept (s : State) (hs : Kept Q T s) : Kept Q T (missingEdge s) := by
  unfold missingEdge
  refine ite_kept ?_ ?_
  · exact hs
  · refine ite_kept ?_ ?_
    · exact (State.enterHoldover_kept _ hs)
    · extract_lets +onlyGivenNames x0
      extract_lets +onlyGivenNames x1
      exact (Kept.keep hs)
theorem execMissingEdge_kept (s : State) (hs : Kept Q T s) : OutOk Q T (execMissingEdge s) := by
  unfold execMissingEdge
  exact (onCore_kept _ _ (fun _ k6_1 => (missingEdge_kept _ k6_1)) hs)
theorem execBeatLoss_kept (s : State) (hs : Kept Q T s) : OutOk Q T (execBeatLoss s) := by
  unfold execBeatLoss
  exact (onCore_kept _ _ (fun _ k6_1 => (beatLoss_kept _ k6_1)) hs)
theorem internalBeat_kept (s : State) (hs : Kept Q T s) : Kept Q T (internalBeat s) := by
  unfold internalBeat
  refine ite_kept ?_ ?_
  · exact hs
  · refine ite_kept ?_ ?_
    · exact (State.loseBeat_kept _ hs)
    · extract_lets +onlyGivenNames x0
      extract_lets +onlyGivenNames x1
      extract_lets +onlyGivenNames x2
      have hx2 : Kept Q T x2 := (Kept.keep hs)
      clear_value x2
      exact (State.beatWindow_kept _ (State.sendBeats_kept _ (State.bump_kept _ _ _ hx2)))
theorem execInternalBeat_kept (s : State) (hs : Kept Q T s) : OutOk Q T (execInternalBeat s) := by
  unfold execInternalBeat
  exact (onCore_kept _ _ (fun _ k6_1 => (internalBeat_kept _ k6_1)) hs)
theorem execTimedEnable_kept (v : W32) (s : State) (hs : Kept Q T s) : OutOk Q T (execTimedEnable v s) := by
  unfold execTimedEnable
  exact (onHub_kept _ _ (fun _ k7_1 => (State.gated_kept _ _ _ k7_1 (fun _ k9_1 => (writeCrsCtrl_kept _ _ k9_1)))) hs)
theorem execTimedDisable_kept (v : W32) (s : State) (hs : Kept Q T s) : OutOk Q T (execTimedDisable v s) := by
  unfold execTimedDisable
  exact (onHub_kept _ _ (fun _ k7_1 => (State.gated_kept _ _ _ k7_1 (fun _ k9_1 => (writeCrsCtrl_kept _ _ k9_1)))) hs)
theorem execBeatSrcChange_kept (v : W32) (s : State) (hs : Kept Q T s) : OutOk Q T (execBeatSrcChange v s) := by
  unfold execBeatSrcChange
  exact (onHub_kept _ _ (fun _ k7_1 => (State.gated_kept _ _ _ k7_1 (fun _ k9_1 => (writeCrsCtrl_kept _ _ k9_1)))) hs)
theorem execBeatFlit_kept (p : ℕ) (beat : ℕ) (frac : ℕ) (s : State) (hs : Kept Q T s) : OutOk Q T (execBeatFlit p beat frac s) := by
  unfold execBeatFlit
  exact (onCore_kept _ _ (fun _ k9_1 => (beatFlit_kept _ _ _ _ k9_1)) hs)
theorem State.gatedStack_kept (s : State) (st : ℕ) (a : ℕ) (f : State → State) (hs : Kept Q T s) (hf : ∀ x0, Kept Q T x0 → Kept Q T (f x0))
    : Kept Q T (State.gatedStack s st a f) := by
  unfold State.gatedStack
  exact (ite_kept (State.gated_kept _ _ _ hs (fun _ k10_1 => (hf _ k10_1))) hs)
theorem writeRaw_kept (a : ℕ) (width : ℕ) (v : ℕ) (s : State) (hs : Kept Q T s) : Kept Q T (writeRaw a width v s) := by
  unfold writeRaw
  exact (ite_kept (State.setF_kept _ _ _ hs) hs)
theorem writeShadow_kept (r : RegRow) (v : ℕ) (s : State) (hs : Kept Q T s) : Kept Q T (writeShadow r v s) := by
  unfold writeShadow
  exact (ite_kept (State.setF_kept _ _ _ hs) (State.each_kept _ _ _ hs (fun _ _ k9_2 => (State.setF_kept _ _ _ k9_2))))
theorem writeThcInject_kept (v : ℕ) (s : State) (hs : Kept Q T s) : Kept Q T (writeThcInject v s) := by
  unfold writeThcInject
  extract_lets +onlyGivenNames x0
  have hx0 : Kept Q T x0 := (State.setF_kept _ _ _ hs)
  clear_value x0
  exact (ite_kept (State.setF_kept _ _ _ hx0) hx0)
theorem writeSingle_kept (a : ℕ) (v : ℕ) (s : State) (hs : Kept Q T s) : OptOk Q T (writeSingle a v s) := by
  unfold writeSingle
  split
  · rename_i y0
    exact (OptOk.some (writeCrsCtrl_kept _ _ hs))
  · rename_i y1
    exact (OptOk.some (writeSwap_kept _ _ hs))
  · rename_i y2
    exact (OptOk.some (writeResume_kept _ _ hs))
  · rename_i y3
    exact (OptOk.some (writeAbort_kept _ _ hs))
  · rename_i y4
    exact (OptOk.some (writeHifCtrl_kept _ _ hs))
  · rename_i y5
    exact (OptOk.some (writeHdm_kept _ _ hs))
  · rename_i y6
    exact (OptOk.some (writeFuncEn_kept _ _ hs))
  · rename_i y7
    exact (OptOk.some (writeAttach_kept _ _ hs))
  · rename_i y8
    exact (OptOk.some (writeFltStatus_kept _ _ hs))
  · rename_i y9
    exact (OptOk.some (writeFltInject_kept _ _ hs))
  · rename_i y10
    exact (OptOk.some (writeBootCtrl_kept _ _ hs))
  · rename_i y11
    exact (OptOk.some (writeThcInject_kept _ _ hs))
  · rename_i y12
    exact (OptOk.some (writeSvlCtrl_kept _ _ hs))
  · rename_i y13
    exact (OptOk.some (writeSvlPair_kept _ _ hs))
  · rename_i y14
    exact (OptOk.some (writeSvlHot_kept _ _ hs))
  · rename_i y15 y16 y17 y18 y19 y20 y21 y22 y23 y24 y25 y26 y27 y28 y29 y30
    exact OptOk.none
theorem writeRingReg_kept (a : ℕ) (v : ℕ) (s : State) (hs : Kept Q T s) : OptOk Q T (writeRingReg a v s) := by
  unfold writeRingReg
  extract_lets +onlyGivenNames x0
  split
  · rename_i y1
    exact OptOk.none
  · rename_i y2
    split
    · rename_i y3 y4
      exact (OptOk.some (writeRingBase_kept _ _ _ _ hs))
    · rename_i y5 y6
      exact (OptOk.some (writeRingBase_kept _ _ _ _ hs))
    · rename_i y7 y8
      exact (OptOk.some (writeRingCfg_kept _ _ _ hs))
    · rename_i y9 y10 y11 y12
      exact OptOk.none
theorem writeStackReg_kept (a : ℕ) (v : ℕ) (s : State) (hs : Kept Q T s) : OptOk Q T (writeStackReg a v s) := by
  unfold writeStackReg
  extract_lets +onlyGivenNames x0
  extract_lets +onlyGivenNames x1
  split
  · rename_i y2
    exact OptOk.none
  · rename_i y3
    split
    · rename_i y4
      exact (OptOk.some (writeMemTemp_kept _ _ _ hs))
    · rename_i y5
      split
      · rename_i y6
        exact (OptOk.some (writeMemLoop_kept _ _ _ hs))
      · rename_i y7
        split
        · rename_i y8
          exact (OptOk.some (writeMemInject_kept _ _ _ hs))
        · rename_i y9
          split
          · rename_i y10
            exact (OptOk.some (writeLchStat_kept _ _ _ _ hs))
          · rename_i y11
            exact OptOk.none
theorem writePortReg_kept (a : ℕ) (v : ℕ) (s : State) (hs : Kept Q T s) : OptOk Q T (writePortReg a v s) := by
  unfold writePortReg
  split
  · rename_i y0
    exact OptOk.none
  · rename_i y1
    exact (OptOk.some (writeLnkCtrl_kept _ _ _ _ hs))
theorem writeReg_kept (r : RegRow) (v : Nat) (s : State) (hs : Kept Q T s) : Kept Q T (writeReg r v s) := by
  unfold writeReg
  split
  · exact writeShadow_kept _ _ _ hs
  · split
    · rename_i t e
      exact OptOk.use (OptOk.or (writeSingle_kept _ _ _ hs) (OptOk.or (writeRingReg_kept _ _ _ hs)
        (OptOk.or (writeStackReg_kept _ _ _ hs) (writePortReg_kept _ _ _ hs)))) e
    · exact State.writeFields_kept _ _ _ hs
theorem registerWrite_kept (a : ℕ) (width : ℕ) (v : ℕ) (s : State) (hs : Kept Q T s) : Kept Q T (registerWrite a width v s) := by
  unfold registerWrite
  refine ite_kept ?_ ?_
  · exact hs
  · refine ite_kept ?_ ?_
    · exact hs
    · refine ite_kept ?_ ?_
      · exact (State.gated_kept _ _ _ hs (fun _ k9_1 => (writeRaw_kept _ _ _ _ k9_1)))
      · split
        · rename_i y0 y1 y2
          exact (ite_kept (State.gated_kept _ _ _ hs (fun _ k14_1 => (writeReg_kept _ _ _ k14_1))) hs)
        · rename_i y3 y4
          exact hs
theorem execRegisterWrite_kept (addr : ℕ) (width : ℕ) (v : W64) (s : State) (hs : Kept Q T s) : OutOk Q T (execRegisterWrite addr width v s)
    := by
  unfold execRegisterWrite
  exact (onHub_kept _ _ (fun _ k9_1 => (registerWrite_kept _ _ _ _ k9_1)) hs)
theorem execShadowSetWrite_kept (addr : ℕ) (v : W64) (s : State) (hs : Kept Q T s) : OutOk Q T (execShadowSetWrite addr v s) := by
  unfold execShadowSetWrite
  refine onHub_kept _ _ ?_ ?_
  · intro v0 h1
    split
    · rename_i y2 y3 y4
      exact (ite_kept (State.gated_kept _ _ _ h1 (fun _ k15_1 => (writeShadow_kept _ _ _ k15_1))) h1)
    · rename_i y5 y6
      exact h1
  · exact hs
theorem execThcInjectArm_kept (v : W32) (s : State) (hs : Kept Q T s) : OutOk Q T (execThcInjectArm v s) := by
  unfold execThcInjectArm
  exact (onHub_kept _ _ (fun _ k7_1 => (State.gated_kept _ _ _ k7_1 (fun _ k9_1 => (writeThcInject_kept _ _ k9_1)))) hs)
theorem execChannelRetrainRequest_kept (st : ℕ) (c : ℕ) (v : W32) (s : State) (hs : Kept Q T s) : OutOk Q T (execChannelRetrainRequest st c
    v s) := by
  unfold execChannelRetrainRequest
  exact (onCore_kept _ _ (fun _ k9_1 => (ite_kept (State.gatedStack_kept _ _ _ _ k9_1 (fun _ k11_1 => (writeLchStat_kept _ _ _ _ k11_1))) k9_1)) hs)
theorem execLoopbackStart_kept (st : ℕ) (v : W64) (s : State) (hs : Kept Q T s) : OutOk Q T (execLoopbackStart st v s) := by
  unfold execLoopbackStart
  exact (onCore_kept _ _ (fun _ k8_1 => (State.gatedStack_kept _ _ _ _ k8_1 (fun _ k10_1 => (writeMemLoop_kept _ _ _ k10_1)))) hs)
theorem execMemInjectArm_kept (st : ℕ) (v : W32) (s : State) (hs : Kept Q T s) : OutOk Q T (execMemInjectArm st v s) := by
  unfold execMemInjectArm
  exact (onCore_kept _ _ (fun _ k8_1 => (State.gatedStack_kept _ _ _ _ k8_1 (fun _ k10_1 => (writeMemInject_kept _ _ _ k10_1)))) hs)
theorem execPeakClr_kept (st : ℕ) (v : W32) (s : State) (hs : Kept Q T s) : OutOk Q T (execPeakClr st v s) := by
  unfold execPeakClr
  exact (onCore_kept _ _ (fun _ k8_1 => (State.gatedStack_kept _ _ _ _ k8_1 (fun _ k10_1 => (writeMemTemp_kept _ _ _ k10_1)))) hs)
theorem exec_kept (i : Instr) (s : State) (hs : Kept Q T s) : OutOk Q T (exec i s) := by
  unfold exec
  split
  · rename_i y0 y1 y2 y3
    exact (execRegisterWrite_kept _ _ _ _ hs)
  · rename_i y4 y5
    exact (execBeatEdge_kept _ _ hs)
  · rename_i y6
    exact (execMissingEdge_kept _ hs)
  · rename_i y7
    exact (execBeatLoss_kept _ hs)
  · rename_i y8
    exact (execInternalBeat_kept _ hs)
  · rename_i y9
    exact (execFreeRidge_kept _ hs)
  · rename_i y10
    exact (execReclaim_kept _ hs)
  · rename_i y11 y12
    exact (execPhaseDeadline_kept _ _ hs)
  · rename_i y13
    exact (execKvRollbackDone_kept _ hs)
  · rename_i y14 y15
    exact (execCrsResume_kept _ _ hs)
  · rename_i y16 y17
    exact (execCrsAbort_kept _ _ hs)
  · rename_i y18 y19
    exact (execCrsSwapReq_kept _ _ hs)
  · rename_i y20 y21 y22
    exact (execShadowSetWrite_kept _ _ _ hs)
  · rename_i y23 y24
    exact (execTimedEnable_kept _ _ hs)
  · rename_i y25 y26
    exact (execTimedDisable_kept _ _ hs)
  · rename_i y27 y28
    exact (execBeatSrcChange_kept _ _ hs)
  · rename_i y29 y30 y31
    exact (execDescriptorFetch_kept _ _ _ hs)
  · rename_i y32 y33 y34
    exact (execDescriptorReread_kept _ _ _ hs)
  · rename_i y35 y36
    exact (execNop_kept _ _ hs)
  · rename_i y37 y38
    exact (execCourseRun_kept _ _ hs)
  · rename_i y39 y40
    exact (execBiasSet_kept _ _ hs)
  · rename_i y41
    exact (execBiasSetDone_kept _ hs)
  · rename_i y42 y43
    exact (execAptInval_kept _ _ hs)
  · rename_i y44
    exact (execAptInvalDone_kept _ hs)
  · rename_i y45 y46
    exact (execQuiesceReset_kept _ _ hs)
  · rename_i y47 y48
    exact (execQuiescePowerDown_kept _ _ hs)
  · rename_i y49 y50
    exact (execQuiescePowerUp_kept _ _ hs)
  · rename_i y51 y52
    exact (execQuiesceDrainLimit_kept _ _ hs)
  · rename_i y53 y54 y55 y56
    exact (execTargetReply_kept _ _ _ _ hs)
  · rename_i y57 y58
    exact (execCqWriteFail_kept _ _ hs)
  · rename_i y60 y61
    exact (execInterruptCoalesceTimeout_kept _ _ hs)
  · rename_i y62 y63 y64 y65
    exact (execSqDoorbell_kept _ _ _ _ hs)
  · rename_i y66 y67 y68 y69
    exact (execCqDoorbell_kept _ _ _ _ hs)
  · rename_i y70 y71 y72
    exact (execRingEnable_kept _ _ _ hs)
  · rename_i y73 y74 y75
    exact (execRingDisable_kept _ _ _ hs)
  · rename_i y76 y77
    exact (execRingShutdownDone_kept _ _ hs)
  · rename_i y78 y79
    exact (execFuncPowerDown_kept _ _ hs)
  · rename_i y80 y81
    exact (execFuncPowerUp_kept _ _ hs)
  · rename_i y82 y83
    exact (execCohModeWrite_kept _ _ hs)
  · rename_i y84 y85
    exact (execHdmMoveRequest_kept _ _ hs)
  · rename_i y86 y87 y88
    exact (execHdmHostAccess_kept _ _ _ hs)
  · rename_i y89 y90
    exact (execLinkTrained_kept _ _ hs)
  · rename_i y91
    exact (execLinkLeaveL0_kept _ hs)
  · rename_i y92
    exact (execLinkDownTimeout_kept _ hs)
  · rename_i y93
    exact (execHostrstAssert_kept _ hs)
  · rename_i y94
    exact (execViralReceived_kept _ hs)
  · rename_i y95
    exact (execHostLossSelfReset_kept _ hs)
  · rename_i y96
    exact (execReattach_kept _ hs)
  · rename_i y97 y98
    exact (execAttachResume_kept _ _ hs)
  · rename_i y99 y100 y101 y102
    exact (execEndProgram_kept _ _ _ _ hs)
  · rename_i y103 y104 y105 y106
    exact (execRafterNop_kept _ _ _ _ hs)
  · rename_i y107 y108 y109 y110
    exact (execMxLdb_kept _ _ _ _ hs)
  · rename_i y111 y112 y113 y114
    exact (execMxMm_kept _ _ _ _ hs)
  · rename_i y115 y116 y117 y118 y119
    exact (execStLoad_kept _ _ _ _ _ hs)
  · rename_i y120 y121 y122 y123
    exact (execStLoadRunahead_kept _ _ _ _ hs)
  · rename_i y124 y125 y126 y127
    exact (execRunaheadLoadEnd_kept _ _ _ _ hs)
  · rename_i y128 y129 y130 y131 y132
    exact (execStStore_kept _ _ _ _ _ hs)
  · rename_i y133 y134 y135 y136
    exact (execStStoreDownpipe_kept _ _ _ _ hs)
  · rename_i y137 y138 y139 y140 y141
    exact (execStStoreComp_kept _ _ _ _ _ hs)
  · rename_i y142 y143 y144 y145 y146
    exact (execStDrain_kept _ _ _ _ _ hs)
  · rename_i y147 y148 y149 y150 y151
    exact (execStDrainComp_kept _ _ _ _ _ hs)
  · rename_i y152 y153
    exact (execDownpipeAck_kept _ _ hs)
  · rename_i y154 y155 y156
    exact (execLowerTierAccessFail_kept _ _ _ hs)
  · rename_i y157 y158
    exact (execAtSplice_kept _ _ hs)
  · rename_i y159 y160
    exact (execSpliceLateTimeout_kept _ _ hs)
  · rename_i y162 y163
    exact (execProgramFetch_kept _ _ hs)
  · rename_i y164 y165 y166 y167
    exact (execVxKernel_kept _ _ _ _ hs)
  · rename_i y168 y169 y170
    exact (execSheafResident_kept _ _ _ hs)
  · rename_i y171 y172
    exact (execKernelDone_kept _ _ hs)
  · rename_i y173 y174 y175 y176
    exact (execVxDwconv_kept _ _ _ _ hs)
  · rename_i y177 y178 y179 y180
    exact (execVxPool_kept _ _ _ _ hs)
  · rename_i y181 y182 y183 y184
    exact (execVxResamp_kept _ _ _ _ hs)
  · rename_i y185 y186 y187 y188
    exact (execVxBoxdec_kept _ _ _ _ hs)
  · rename_i y189 y190 y191 y192
    exact (execVxNms_kept _ _ _ _ hs)
  · rename_i y193 y194 y195 y196
    exact (execThreadNop_kept _ _ _ _ hs)
  · rename_i y197 y198 y199 y200
    exact (execThreadEnd_kept _ _ _ _ hs)
  · rename_i y201 y202 y203 y204
    exact (execSpec_kept _ _ _ _ hs)
  · rename_i y205 y206 y207 y208
    exact (execBra_kept _ _ _ _ hs)
  · rename_i y209 y210 y211 y212
    exact (execBrany_kept _ _ _ _ hs)
  · rename_i y213 y214 y215 y216
    exact (execIfBegin_kept _ _ _ _ hs)
  · rename_i y217 y218 y219 y220
    exact (execElseFlip_kept _ _ _ _ hs)
  · rename_i y221 y222 y223 y224
    exact (execEndIf_kept _ _ _ _ hs)
  · rename_i y225 y226 y227 y228
    exact (execFadd_kept _ _ _ _ hs)
  · rename_i y229 y230 y231 y232
    exact (execFsub_kept _ _ _ _ hs)
  · rename_i y233 y234 y235 y236
    exact (execFmul_kept _ _ _ _ hs)
  · rename_i y237 y238 y239 y240
    exact (execFfma_kept _ _ _ _ hs)
  · rename_i y241 y242 y243 y244
    exact (execFdiv_kept _ _ _ _ hs)
  · rename_i y245 y246 y247 y248
    exact (execFmax_kept _ _ _ _ hs)
  · rename_i y249 y250 y251 y252
    exact (execFmin_kept _ _ _ _ hs)
  · rename_i y253 y254 y255 y256
    exact (execFcmp_kept _ _ _ _ hs)
  · rename_i y257 y258 y259 y260
    exact (execFabs_kept _ _ _ _ hs)
  · rename_i y261 y262 y263 y264
    exact (execFneg_kept _ _ _ _ hs)
  · rename_i y265 y266 y267 y268
    exact (execHadd_kept _ _ _ _ hs)
  · rename_i y269 y270 y271 y272
    exact (execHmul_kept _ _ _ _ hs)
  · rename_i y273 y274 y275 y276
    exact (execHfma_kept _ _ _ _ hs)
  · rename_i y277 y278 y279 y280
    exact (execHmax_kept _ _ _ _ hs)
  · rename_i y281 y282 y283 y284
    exact (execHmin_kept _ _ _ _ hs)
  · rename_i y285 y286 y287 y288
    exact (execIadd_kept _ _ _ _ hs)
  · rename_i y289 y290 y291 y292
    exact (execIsub_kept _ _ _ _ hs)
  · rename_i y293 y294 y295 y296
    exact (execImul_kept _ _ _ _ hs)
  · rename_i y297 y298 y299 y300
    exact (execAndBits_kept _ _ _ _ hs)
  · rename_i y301 y302 y303 y304
    exact (execOrBits_kept _ _ _ _ hs)
  · rename_i y305 y306 y307 y308
    exact (execXorBits_kept _ _ _ _ hs)
  · rename_i y309 y310 y311 y312
    exact (execShl_kept _ _ _ _ hs)
  · rename_i y313 y314 y315 y316
    exact (execShr_kept _ _ _ _ hs)
  · rename_i y317 y318 y319 y320
    exact (execSar_kept _ _ _ _ hs)
  · rename_i y321 y322 y323 y324
    exact (execIcmp_kept _ _ _ _ hs)
  · rename_i y325 y326 y327 y328
    exact (execSelc_kept _ _ _ _ hs)
  · rename_i y329 y330 y331 y332
    exact (execMov_kept _ _ _ _ hs)
  · rename_i y333 y334 y335 y336
    exact (execCvtf_kept _ _ _ _ hs)
  · rename_i y337 y338 y339 y340
    exact (execCvti_kept _ _ _ _ hs)
  · rename_i y341 y342 y343 y344
    exact (execExp2_kept _ _ _ _ hs)
  · rename_i y345 y346 y347 y348
    exact (execLog2_kept _ _ _ _ hs)
  · rename_i y349 y350 y351 y352
    exact (execRcp_kept _ _ _ _ hs)
  · rename_i y353 y354 y355 y356
    exact (execRsqrt_kept _ _ _ _ hs)
  · rename_i y357 y358 y359 y360
    exact (execRand_kept _ _ _ _ hs)
  · rename_i y361 y362 y363 y364
    exact (execShfl_kept _ _ _ _ hs)
  · rename_i y365 y366 y367 y368
    exact (execSred_kept _ _ _ _ hs)
  · rename_i y369 y370 y371 y372
    exact (execLd_kept _ _ _ _ hs)
  · rename_i y373 y374 y375 y376
    exact (execSt_kept _ _ _ _ hs)
  · rename_i y377 y378 y379 y380
    exact (execAtFwd_kept _ _ _ _ hs)
  · rename_i y381 y382 y383 y384
    exact (execAtBwd_kept _ _ _ _ hs)
  · rename_i y385 y386 y387 y388
    exact (execAtDec_kept _ _ _ _ hs)
  · rename_i y389 y390
    exact (execWalkerEnd_kept _ _ hs)
  · rename_i y391 y392 y393 y394
    exact (execKvAppend_kept _ _ _ _ hs)
  · rename_i y395 y396 y397 y398
    exact (execKvEdit_kept _ _ _ _ hs)
  · rename_i y399 y400 y401 y402
    exact (execKvConf_kept _ _ _ _ hs)
  · rename_i y403 y404
    exact (execThcInjectArm_kept _ _ hs)
  · rename_i y405 y406 y407
    exact (execDramTempSample_kept _ _ _ hs)
  · rename_i y408 y409
    exact (execScrubRead_kept _ _ hs)
  · rename_i y410 y411 y412 y413
    exact (execChannelRetrainRequest_kept _ _ _ _ hs)
  · rename_i y414 y415 y416 y417
    exact (execChannelRetrainEnd_kept _ _ _ _ hs)
  · rename_i y418 y419 y420
    exact (execMigrationGranuleCopy_kept _ _ _ hs)
  · rename_i y421 y422 y423
    exact (execLoopbackStart_kept _ _ _ hs)
  · rename_i y424 y425 y426
    exact (execLoopbackDone_kept _ _ _ hs)
  · rename_i y427 y428 y429
    exact (execMemInjectArm_kept _ _ _ hs)
  · rename_i y430 y431 y432
    exact (execPeakClr_kept _ _ _ hs)
  · rename_i y433 y434
    exact (execMediaDecodeJob_kept _ _ hs)
  · rename_i y435 y436
    exact (execMediaEncodeJob_kept _ _ hs)
  · rename_i y437 y438 y439 y440 y441 y442
    exact (execBufferGrant_kept _ _ _ _ _ _ hs)
  · rename_i y443 y444 y445 y446
    exact (execSourceReadRetry_kept _ _ _ _ hs)
  · rename_i y447 y448 y449
    exact (execSampleCommit_kept _ _ _ hs)
  · rename_i y450 y451 y452 y453 y454 y455
    exact (execDecodePipelineFault_kept _ _ _ _ _ _ hs)
  · rename_i y456 y457 y458 y459 y460
    exact (execEncodePipelineFault_kept _ _ _ _ _ hs)
  · rename_i y461 y462 y463 y464
    exact (execPortBringUp_kept _ _ _ _ hs)
  · rename_i y465 y466 y467
    exact (execBringUpStepTimeout_kept _ _ _ hs)
  · rename_i y468 y469
    exact (execBringUpDone_kept _ _ hs)
  · rename_i y470 y471 y472 y473 y474 y475
    exact (execHello_kept _ _ _ _ _ _ hs)
  · rename_i y477 y478 y479
    exact (execFlitReceive_kept _ _ _ hs)
  · rename_i y480 y481 y482 y483
    exact (execBeatFlit_kept _ _ _ _ hs)
  · rename_i y484 y485 y486 y487 y488
    exact (execFailNotice_kept _ _ _ _ _ hs)
  · rename_i y489 y490 y491 y492 y493
    exact (execLanePropose_kept _ _ _ _ _ hs)
  · rename_i y494 y495 y496 y497 y498
    exact (execLaneAccept_kept _ _ _ _ _ hs)
  · rename_i y499 y500
    exact (execLaneRepairTimeout_kept _ _ hs)
  · rename_i y501 y502 y503
    exact (execPortDown_kept _ _ _ hs)
  · rename_i y504 y505
    exact (execSlotSendStart_kept _ _ hs)
  · rename_i y506 y507 y508
    exact (execTransferHeader_kept _ _ _ hs)
  · rename_i y509 y510
    exact (execSendComplete_kept _ _ hs)
  · rename_i y511 y512 y513
    exact (execReceiveComplete_kept _ _ _ hs)
  · rename_i y514 y515
    exact (execDispatchPlan_kept _ _ hs)
  · rename_i y516
    exact (execCommitReserveStart_kept _ hs)
  · rename_i y517 y518 y519 y520 y521
    exact (execPeerApertureRequest_kept _ _ _ _ _ hs)
  · rename_i y522 y523 y524
    exact (execPeerApertureReply_kept _ _ _ hs)
  · rename_i y525 y526
    exact (execSarkBlocks_kept _ _ hs)
  · rename_i y527 y528
    exact (execSarkSeal_kept _ _ hs)
  · rename_i y529 y530
    exact (execSarkAck_kept _ _ hs)
  · rename_i y531 y532
    exact (execSnapshotSave_kept _ _ hs)
  · rename_i y533 y534
    exact (execSnapshotLoad_kept _ _ hs)
  · rename_i y535 y536
    exact (execSnapshotRestore_kept _ _ hs)
  · rename_i y537 y538
    exact (execSnapshotDrop_kept _ _ hs)
  · rename_i y539 y540
    exact (execHostCopyToHost_kept _ _ hs)
  · rename_i y541 y542
    exact (execHostCopyFromHost_kept _ _ hs)
  · rename_i y543 y544 y545
    exact (execSnapshotSaveDone_kept _ _ _ hs)
  · rename_i y546 y547
    exact (execSnapshotLoadDone_kept _ _ hs)
  · rename_i y548 y549 y550
    exact (execRestoreDone_kept _ _ _ hs)
  · rename_i y551 y552 y553 y554 y555
    exact (execHostCopyDone_kept _ _ _ _ _ hs)
  · rename_i y556
    exact (execFlashFault_kept _ hs)
  · rename_i y557 y558
    exact (execSvlPairWrite_kept _ _ hs)
  · rename_i y559 y560
    exact (execSvlHotWrite_kept _ _ hs)
  · rename_i y561 y562
    exact (execSvlCtrlWrite_kept _ _ hs)
  · rename_i y563 y564 y565 y566 y567 y568
    exact (execGutterWrite_kept _ _ _ _ _ _ hs)
  · rename_i y569 y570 y571
    exact (execGutterRead_kept _ _ _ hs)
  · rename_i y572 y573
    exact (execGutterStale_kept _ _ hs)
  · rename_i y574 y575
    exact (execGutterPointerMismatch_kept _ _ hs)
  · rename_i y576 y577
    exact (execErrorLineRise_kept _ _ hs)
  · rename_i y578
    exact (execMergeWindowClose_kept _ hs)
  · rename_i y579 y580
    exact (execFltStatusClear_kept _ _ hs)
  · rename_i y581 y582
    exact (execFltInjectArm_kept _ _ hs)
  · rename_i y583 y584
    exact (execFltInjectDisarm_kept _ _ hs)
  · rename_i y585
    exact (execAliveToggle_kept _ hs)
  · rename_i y586 y587 y588
    exact (execSetLimit_kept _ _ _ hs)
  · rename_i y589 y590 y591
    exact (execSetRamp_kept _ _ _ hs)
  · rename_i y592 y593 y594
    exact (execSetTarget_kept _ _ _ hs)
  · rename_i y595 y596 y597
    exact (execSetCool_kept _ _ _ hs)
  · rename_i y598 y599 y600
    exact (execSetTherm_kept _ _ _ hs)
  · rename_i y601 y602 y603
    exact (execSetFatal_kept _ _ _ hs)
  · rename_i y604 y605 y606
    exact (execSetCal_kept _ _ _ hs)
  · rename_i y607 y608 y609 y610
    exact (execDrawSample_kept _ _ _ _ hs)
  · rename_i y611 y612
    exact (execOverdrawStep_kept _ _ hs)
  · rename_i y613 y614 y615 y616
    exact (execValveUpdate_kept _ _ _ _ hs)
  · rename_i y617 y618 y619
    exact (execCoolantCondition_kept _ _ _ hs)
  · rename_i y620 y621 y622 y623 y624
    exact (execThermalSample_kept _ _ _ _ _ hs)
  · rename_i y625
    exact (execHardwareTrip_kept _ hs)
  · rename_i y626 y627
    exact (execVbatSample_kept _ _ hs)
  · rename_i y628 y629
    exact (execRefCheck_kept _ _ hs)
  · rename_i y630 y631
    exact (execPowerOn_kept _ _ hs)
  · rename_i y632
    exact (execStandbyGood_kept _ hs)
  · rename_i y633 y634 y635 y636
    exact (execSelfTestPass_kept _ _ _ _ hs)
  · rename_i y637
    exact (execRailSequence_kept _ hs)
  · rename_i y638
    exact (execRailFail_kept _ hs)
  · rename_i y639
    exact (execRailRetry_kept _ hs)
  · rename_i y640
    exact (execPowerGood_kept _ hs)
  · rename_i y641
    exact (execJ1Overvoltage_kept _ hs)
  · rename_i y642
    exact (execJ1Undervoltage_kept _ hs)
  · rename_i y643
    exact (execStandbyLoss_kept _ hs)
  · rename_i y644
    exact (execModrstAssert_kept _ hs)
  · rename_i y645 y646
    exact (execBootIdentity_kept _ _ hs)
  · rename_i y647
    exact (execBootManifest_kept _ hs)
  · rename_i y648
    exact (execBootCache_kept _ hs)
  · rename_i y649 y650
    exact (execOffer_kept _ _ hs)
  · rename_i y651
    exact (execRequestUpdate_kept _ hs)
  · rename_i y652 y653
    exact (execOfferVerify_kept _ _ hs)
  · rename_i y654
    exact (execOfferWindowClose_kept _ hs)
  · rename_i y655
    exact (execBootLoad_kept _ hs)
  · rename_i y656
    exact (execCacheWriteDone_kept _ hs)
  · rename_i y657 y658
    exact (execBootConfig_kept _ _ hs)
  · rename_i y659
    exact (execBootAlias_kept _ hs)
  · rename_i y660
    exact (execReady_kept _ hs)
  · rename_i y661
    exact (execWatchdogExpiry_kept _ hs)
  · rename_i y662
    exact (execGetVersion_kept _ hs)
  · rename_i y663
    exact (execGetCapabilities_kept _ hs)
  · rename_i y664
    exact (execNegotiateAlgorithms_kept _ hs)
  · rename_i y665
    exact (execGetDigests_kept _ hs)
  · rename_i y666 y667 y668
    exact (execGetCertificate_kept _ _ _ hs)
  · rename_i y669 y670
    exact (execChallenge_kept _ _ hs)
  · rename_i y671 y672 y673
    exact (execGetMeasurements_kept _ _ _ hs)
  · rename_i y674 y675 y676
    exact (execKeyAdd_kept _ _ _ hs)
  · rename_i y677 y678 y679
    exact (execKeyRevoke_kept _ _ _ hs)
  · rename_i y680 y681 y682
    exact (execKeyClear_kept _ _ _ hs)
  · rename_i y683 y684
    exact (execFirmwareUpdate_kept _ _ hs)
  · rename_i y685
    exact (execActivateFirmware_kept _ hs)
  · rename_i y686 y687 y688
    exact (execPtpMessage_kept _ _ _ hs)
  · rename_i y689
    exact (execPpsEdge_kept _ hs)
  · rename_i y690
    exact (execModrstRelease_kept _ hs)
  · rename_i y691
    exact (execRidgeIntervalEnd_kept _ hs)
  · rename_i y692 y693 y694
    exact (execEncodeJobComplete_kept _ _ _ hs)
  · rename_i y695 y696
    exact (execHostSnoop_kept _ _ hs)
  · rename_i y697 y698 y699 y700
    exact (execReservedRafterOpcode_kept _ _ _ _ hs)
  · rename_i y701 y702 y703 y704
    exact (execReservedThreadOpcode_kept _ _ _ _ hs)
  · rename_i y705 y706 y707
    exact (execReservedParapetOpcode_kept _ _ _ hs)
  · rename_i y708 y709
    exact (execSpdmUnsupportedRequest_kept _ _ hs)

end Sys2Proof.Machine
end

