-- ==== Sys2Proof/Laws/State.lean ====
section
/-! SUPPORT. Reading back what an update of State wrote, and what it left: the register file, the sparse maps, and one lemma per field
for the updates most operations are made of. -/

namespace Sys2Proof.Machine

/-! ### Sparse maps -/

theorem SMap.look_above {α : Type} (d : α) (k : Nat) (m : SMap α) (a : SMap.above k m = true) (j : Nat) (h : j ≤ k) : SMap.look d j m = d := by
  cases m with
  | nil => rfl
  | cons x t =>
    simp only [SMap.above, Bool.and_eq_true, decide_eq_true_eq] at a
    unfold SMap.look
    rw [if_neg (by omega), if_pos (by omega)]

theorem SMap.look_put_same {α : Type} [DecidableEq α] (d : α) (k : Nat) (v : α) (m : SMap α) (w : SMap.rising m = true) :
    SMap.look d k (SMap.put d k v m) = v := by
  induction m with
  | nil => unfold SMap.put; split <;> simp_all [SMap.look]
  | cons x t ih =>
    simp only [SMap.rising, Bool.and_eq_true] at w
    unfold SMap.put
    split_ifs with h1 h2 h3 h4
    · simp only [SMap.look]; rw [if_neg (by omega), if_pos h1, h2]
    · simp [SMap.look]
    · rw [h4]; exact SMap.look_above d x.1 t w.1 k (by omega)
    · simp [SMap.look]
    · simp only [SMap.look]; rw [if_neg h3, if_neg h1]; exact ih w.2

theorem SMap.look_put_other {α : Type} [DecidableEq α] (d e : α) (j k : Nat) (v : α) (m : SMap α) (w : SMap.rising m = true) (h : j ≠ k) :
    SMap.look e j (SMap.put d k v m) = SMap.look e j m := by
  induction m with
  | nil => unfold SMap.put; split <;> simp [SMap.look, h]
  | cons x t ih =>
    simp only [SMap.rising, Bool.and_eq_true] at w
    unfold SMap.put
    split_ifs with h1 h2 h3 h4
    · rfl
    · simp only [SMap.look]
      rw [if_neg h]
      split_ifs with h5 h6 h7 <;> first | rfl | omega
    · subst h3
      simp only [SMap.look]
      rw [if_neg h]
      split_ifs with h5
      · exact SMap.look_above e x.1 t w.1 j (by omega)
      · rfl
    · subst h3; simp [SMap.look, h]
    · simp only [SMap.look]; rw [ih w.2]

/-! ### Memories -/

/-- A byte read after a write is the byte written there, and elsewhere what it was. -/
theorem Memory.byte_write (m : Memory) (a : Nat) (bs : List Byte) (w : SMap.rising m = true) (x : Nat) :
    (m.write a bs).byte x = if a ≤ x ∧ x < a + bs.length then bs.getD (x - a) 0 else m.byte x := by
  induction bs generalizing m a with
  | nil => rw [if_neg (by simp)]; rfl
  | cons b bs ih =>
    show (Memory.write (SMap.put 0 a b m) (a + 1) bs).byte x = _
    rw [ih _ _ (SMap.put_rising _ _ _ _ w)]
    rcases Nat.lt_trichotomy x a with h | h | h
    · rw [if_neg (by omega), if_neg (by omega)]
      exact SMap.look_put_other _ _ _ _ _ _ w (by omega)
    · subst h
      rw [if_neg (by omega), if_pos (by simp)]
      rw [Nat.sub_self]; exact SMap.look_put_same (0 : Byte) x b m w
    · by_cases hx : x < a + 1 + bs.length
      · rw [if_pos (by omega), if_pos (by simp only [List.length_cons]; omega), show x - a = x - (a + 1) + 1 by omega]
        rfl
      · rw [if_neg (by omega), if_neg (by simp only [List.length_cons]; omega)]
        exact SMap.look_put_other _ _ _ _ _ _ w (by omega)

/-- Bytes read within what was written. -/
theorem Memory.bytes_write (m : Memory) (a : Nat) (bs : List Byte) (w : SMap.rising m = true) (o n : Nat) (h : o + n ≤ bs.length) :
    (m.write a bs).bytes (a + o) n = (bs.drop o).take n := by
  apply List.ext_getElem
  · simp [Memory.bytes]; omega
  · intro i h1 h2
    simp only [Memory.bytes, List.length_map, List.length_range] at h1
    simp only [Memory.bytes, List.getElem_map, List.getElem_range, List.getElem_take, List.getElem_drop]
    rw [Memory.byte_write _ _ _ w, if_pos (by omega), show a + o + i - a = o + i by omega, List.getD_eq_getElem _ _ (by omega)]

/-! ### Register fields -/

theorem State.getF_setF (s : State) (f : Fld) (v : Nat) (w : SMap.rising s.regs = true) : (s.setF f v).getF f = v % 2 ^ f.w :=
  SMap.look_put_same _ _ _ _ w

theorem State.getF_setF_other (s : State) (f g : Fld) (v : Nat) (w : SMap.rising s.regs = true) (h : f.key ≠ g.key) :
    (s.setF g v).getF f = s.getF f := SMap.look_put_other _ _ _ _ _ _ w h

theorem State.setF_rising (s : State) (f : Fld) (v : Nat) (w : SMap.rising s.regs = true) : SMap.rising (s.setF f v).regs = true :=
  SMap.put_rising _ _ _ _ w

theorem State.setFs_nil (s : State) : s.setFs [] = s := rfl
theorem State.setFs_cons (s : State) (f : Fld) (v : Nat) (t : List (Fld × Nat)) : s.setFs ((f, v) :: t) = (s.setF f v).setFs t := rfl

/-- What `setFs` writes is register fields alone. -/
theorem State.setFs_eq (s : State) (l : List (Fld × Nat)) : s.setFs l = { s with regs := (s.setFs l).regs } := by
  induction l generalizing s with
  | nil => rfl
  | cons x t ih => rw [State.setFs_cons]; conv => lhs; rw [ih (s.setF x.1 x.2)]
                   rfl

theorem State.setFs_rising (s : State) (l : List (Fld × Nat)) (w : SMap.rising s.regs = true) : SMap.rising (s.setFs l).regs = true := by
  induction l generalizing s with
  | nil => exact w
  | cons x t ih => exact ih _ (State.setF_rising s x.1 x.2 w)

/-- Fields that a list of writes does not name read as before. -/
theorem State.getF_setFs_other (s : State) (l : List (Fld × Nat)) (f : Fld) (w : SMap.rising s.regs = true)
    (h : ∀ x ∈ l, f.key ≠ x.1.key) : (s.setFs l).getF f = s.getF f := by
  induction l generalizing s with
  | nil => rfl
  | cons x t ih =>
    rw [State.setFs_cons, ih _ (State.setF_rising s x.1 x.2 w) fun y hy => h y (List.mem_cons_of_mem _ hy),
      State.getF_setF_other _ _ _ _ w (h x List.mem_cons_self)]

/-- A list of writes writes its fields and nothing else. -/
theorem State.setFs_only (s : State) (l : List (Fld × Nat)) (w : SMap.rising s.regs = true) : s.onlyFields (s.setFs l) (l.map Prod.fst) :=
  ⟨fun f h => State.getF_setFs_other s l f w fun x hx => h x.1 (List.mem_map_of_mem hx), by rw [State.setFs_eq]⟩

/-- One write writes its field and nothing else. -/
theorem State.setF_only (s : State) (f : Fld) (v : Nat) (w : SMap.rising s.regs = true) : s.onlyFields (s.setF f v) [f] :=
  ⟨fun g h => State.getF_setF_other s g f v w (h f List.mem_cons_self), rfl⟩

/-! ### One lemma per field and update -/

@[simp] theorem State.setF_pending (s : State) (f : Fld) (v : Nat) : (s.setF f v).pending = s.pending := rfl
@[simp] theorem State.setF_now (s : State) (f : Fld) (v : Nat) : (s.setF f v).now = s.now := rfl
@[simp] theorem State.setF_timeBase (s : State) (f : Fld) (v : Nat) : (s.setF f v).timeBase = s.timeBase := rfl
@[simp] theorem State.setF_calNs (s : State) (f : Fld) (v : Nat) : (s.setF f v).calNs = s.calNs := rfl
@[simp] theorem State.setF_rings (s : State) (f : Fld) (v : Nat) : (s.setF f v).rings = s.rings := rfl
@[simp] theorem State.setF_shared (s : State) (f : Fld) (v : Nat) : (s.setF f v).shared = s.shared := rfl
@[simp] theorem State.setF_biasJobs (s : State) (f : Fld) (v : Nat) : (s.setF f v).biasJobs = s.biasJobs := rfl
@[simp] theorem State.setF_aptCache (s : State) (f : Fld) (v : Nat) : (s.setF f v).aptCache = s.aptCache := rfl
@[simp] theorem State.setF_aptJobs (s : State) (f : Fld) (v : Nat) : (s.setF f v).aptJobs = s.aptJobs := rfl
@[simp] theorem State.setF_hostLines (s : State) (f : Fld) (v : Nat) : (s.setF f v).hostLines = s.hostLines := rfl
@[simp] theorem State.setF_winLines (s : State) (f : Fld) (v : Nat) : (s.setF f v).winLines = s.winLines := rfl
@[simp] theorem State.setF_cxlOut (s : State) (f : Fld) (v : Nat) : (s.setF f v).cxlOut = s.cxlOut := rfl
@[simp] theorem State.setF_lastRead (s : State) (f : Fld) (v : Nat) : (s.setF f v).lastRead = s.lastRead := rfl
@[simp] theorem State.setF_hdmBase (s : State) (f : Fld) (v : Nat) : (s.setF f v).hdmBase = s.hdmBase := rfl
@[simp] theorem State.setF_l0Left (s : State) (f : Fld) (v : Nat) : (s.setF f v).l0Left = s.l0Left := rfl
@[simp] theorem State.setF_selfReset (s : State) (f : Fld) (v : Nat) : (s.setF f v).selfReset = s.selfReset := rfl
@[simp] theorem State.setF_suspended (s : State) (f : Fld) (v : Nat) : (s.setF f v).suspended = s.suspended := rfl
@[simp] theorem State.setF_heldRecs (s : State) (f : Fld) (v : Nat) : (s.setF f v).heldRecs = s.heldRecs := rfl
@[simp] theorem State.setF_targets (s : State) (f : Fld) (v : Nat) : (s.setF f v).targets = s.targets := rfl
@[simp] theorem State.setF_hostOut (s : State) (f : Fld) (v : Nat) : (s.setF f v).hostOut = s.hostOut := rfl
@[simp] theorem State.setF_hostReads (s : State) (f : Fld) (v : Nat) : (s.setF f v).hostReads = s.hostReads := rfl
@[simp] theorem State.setF_msiOut (s : State) (f : Fld) (v : Nat) : (s.setF f v).msiOut = s.msiOut := rfl
@[simp] theorem State.setF_beat (s : State) (f : Fld) (v : Nat) : (s.setF f v).beat = s.beat := rfl
@[simp] theorem State.setF_swapAt (s : State) (f : Fld) (v : Nat) : (s.setF f v).swapAt = s.swapAt := rfl
@[simp] theorem State.setF_waiting (s : State) (f : Fld) (v : Nat) : (s.setF f v).waiting = s.waiting := rfl
@[simp] theorem State.setF_prev (s : State) (f : Fld) (v : Nat) : (s.setF f v).prev = s.prev := rfl
@[simp] theorem State.setF_course (s : State) (f : Fld) (v : Nat) : (s.setF f v).course = s.course := rfl
@[simp] theorem State.setF_resumePend (s : State) (f : Fld) (v : Nat) : (s.setF f v).resumePend = s.resumePend := rfl
@[simp] theorem State.setF_watch (s : State) (f : Fld) (v : Nat) : (s.setF f v).watch = s.watch := rfl
@[simp] theorem State.setF_amax (s : State) (f : Fld) (v : Nat) : (s.setF f v).amax = s.amax := rfl
@[simp] theorem State.setF_stepVote (s : State) (f : Fld) (v : Nat) : (s.setF f v).stepVote = s.stepVote := rfl
@[simp] theorem State.setF_stepNonfin (s : State) (f : Fld) (v : Nat) : (s.setF f v).stepNonfin = s.stepNonfin := rfl
@[simp] theorem State.setF_seedBefore (s : State) (f : Fld) (v : Nat) : (s.setF f v).seedBefore = s.seedBefore := rfl
@[simp] theorem State.setF_rafts (s : State) (f : Fld) (v : Nat) : (s.setF f v).rafts = s.rafts := rfl
@[simp] theorem State.setF_dieEvents (s : State) (f : Fld) (v : Nat) : (s.setF f v).dieEvents = s.dieEvents := rfl
@[simp] theorem State.setF_modEvents (s : State) (f : Fld) (v : Nat) : (s.setF f v).modEvents = s.modEvents := rfl
@[simp] theorem State.setF_rstore (s : State) (f : Fld) (v : Nat) : (s.setF f v).rstore = s.rstore := rfl
@[simp] theorem State.setF_rsWritten (s : State) (f : Fld) (v : Nat) : (s.setF f v).rsWritten = s.rsWritten := rfl
@[simp] theorem State.setF_loft (s : State) (f : Fld) (v : Nat) : (s.setF f v).loft = s.loft := rfl
@[simp] theorem State.setF_loftWritten (s : State) (f : Fld) (v : Nat) : (s.setF f v).loftWritten = s.loftWritten := rfl
@[simp] theorem State.setF_acc (s : State) (f : Fld) (v : Nat) : (s.setF f v).acc = s.acc := rfl
@[simp] theorem State.setF_hbm (s : State) (f : Fld) (v : Nat) : (s.setF f v).hbm = s.hbm := rfl
@[simp] theorem State.setF_poison (s : State) (f : Fld) (v : Nat) : (s.setF f v).poison = s.poison := rfl
@[simp] theorem State.setF_symErr (s : State) (f : Fld) (v : Nat) : (s.setF f v).symErr = s.symErr := rfl
@[simp] theorem State.setF_lam (s : State) (f : Fld) (v : Nat) : (s.setF f v).lam = s.lam := rfl
@[simp] theorem State.setF_migs (s : State) (f : Fld) (v : Nat) : (s.setF f v).migs = s.migs := rfl
@[simp] theorem State.setF_retrainPend (s : State) (f : Fld) (v : Nat) : (s.setF f v).retrainPend = s.retrainPend := rfl
@[simp] theorem State.setF_retraining (s : State) (f : Fld) (v : Nat) : (s.setF f v).retraining = s.retraining := rfl
@[simp] theorem State.setF_retrained (s : State) (f : Fld) (v : Nat) : (s.setF f v).retrained = s.retrained := rfl
@[simp] theorem State.setF_deadChans (s : State) (f : Fld) (v : Nat) : (s.setF f v).deadChans = s.deadChans := rfl
@[simp] theorem State.setF_integ (s : State) (f : Fld) (v : Nat) : (s.setF f v).integ = s.integ := rfl
@[simp] theorem State.setF_fell (s : State) (f : Fld) (v : Nat) : (s.setF f v).fell = s.fell := rfl
@[simp] theorem State.setF_badStore (s : State) (f : Fld) (v : Nat) : (s.setF f v).badStore = s.badStore := rfl
@[simp] theorem State.setF_badAcc (s : State) (f : Fld) (v : Nat) : (s.setF f v).badAcc = s.badAcc := rfl
@[simp] theorem State.setF_mapOutDue (s : State) (f : Fld) (v : Nat) : (s.setF f v).mapOutDue = s.mapOutDue := rfl
@[simp] theorem State.setF_chanBase (s : State) (f : Fld) (v : Nat) : (s.setF f v).chanBase = s.chanBase := rfl
@[simp] theorem State.setF_hbmDegraded (s : State) (f : Fld) (v : Nat) : (s.setF f v).hbmDegraded = s.hbmDegraded := rfl
@[simp] theorem State.setF_kv (s : State) (f : Fld) (v : Nat) : (s.setF f v).kv = s.kv := rfl
@[simp] theorem State.setF_kvUndo (s : State) (f : Fld) (v : Nat) : (s.setF f v).kvUndo = s.kvUndo := rfl
@[simp] theorem State.setF_kvUndoMem (s : State) (f : Fld) (v : Nat) : (s.setF f v).kvUndoMem = s.kvUndoMem := rfl
@[simp] theorem State.setF_kvLog (s : State) (f : Fld) (v : Nat) : (s.setF f v).kvLog = s.kvLog := rfl
@[simp] theorem State.setF_saves (s : State) (f : Fld) (v : Nat) : (s.setF f v).saves = s.saves := rfl
@[simp] theorem State.setF_heldSaves (s : State) (f : Fld) (v : Nat) : (s.setF f v).heldSaves = s.heldSaves := rfl
@[simp] theorem State.setF_poolHeld (s : State) (f : Fld) (v : Nat) : (s.setF f v).poolHeld = s.poolHeld := rfl
@[simp] theorem State.setF_predHist (s : State) (f : Fld) (v : Nat) : (s.setF f v).predHist = s.predHist := rfl
@[simp] theorem State.setF_rateH (s : State) (f : Fld) (v : Nat) : (s.setF f v).rateH = s.rateH := rfl
@[simp] theorem State.setF_rateP (s : State) (f : Fld) (v : Nat) : (s.setF f v).rateP = s.rateP := rfl
@[simp] theorem State.setF_jobs (s : State) (f : Fld) (v : Nat) : (s.setF f v).jobs = s.jobs := rfl
@[simp] theorem State.setF_jobsDone (s : State) (f : Fld) (v : Nat) : (s.setF f v).jobsDone = s.jobsDone := rfl
@[simp] theorem State.setF_bufs (s : State) (f : Fld) (v : Nat) : (s.setF f v).bufs = s.bufs := rfl
@[simp] theorem State.setF_ports (s : State) (f : Fld) (v : Nat) : (s.setF f v).ports = s.ports := rfl
@[simp] theorem State.setF_flitOut (s : State) (f : Fld) (v : Nat) : (s.setF f v).flitOut = s.flitOut := rfl
@[simp] theorem State.setF_peerOut (s : State) (f : Fld) (v : Nat) : (s.setF f v).peerOut = s.peerOut := rfl
@[simp] theorem State.setF_peerWait (s : State) (f : Fld) (v : Nat) : (s.setF f v).peerWait = s.peerWait := rfl
@[simp] theorem State.setF_peerTag (s : State) (f : Fld) (v : Nat) : (s.setF f v).peerTag = s.peerTag := rfl
@[simp] theorem State.setF_reslate (s : State) (f : Fld) (v : Nat) : (s.setF f v).reslate = s.reslate := rfl
@[simp] theorem State.setF_build (s : State) (f : Fld) (v : Nat) : (s.setF f v).build = s.build := rfl
@[simp] theorem State.setF_fills (s : State) (f : Fld) (v : Nat) : (s.setF f v).fills = s.fills := rfl
@[simp] theorem State.setF_changed0 (s : State) (f : Fld) (v : Nat) : (s.setF f v).changed0 = s.changed0 := rfl
@[simp] theorem State.setF_changed1 (s : State) (f : Fld) (v : Nat) : (s.setF f v).changed1 = s.changed1 := rfl
@[simp] theorem State.setF_stepsDone (s : State) (f : Fld) (v : Nat) : (s.setF f v).stepsDone = s.stepsDone := rfl
@[simp] theorem State.setF_since0 (s : State) (f : Fld) (v : Nat) : (s.setF f v).since0 = s.since0 := rfl
@[simp] theorem State.setF_since1 (s : State) (f : Fld) (v : Nat) : (s.setF f v).since1 = s.since1 := rfl
@[simp] theorem State.setF_stepCourse (s : State) (f : Fld) (v : Nat) : (s.setF f v).stepCourse = s.stepCourse := rfl
@[simp] theorem State.setF_recipe (s : State) (f : Fld) (v : Nat) : (s.setF f v).recipe = s.recipe := rfl
@[simp] theorem State.setF_ackPartner (s : State) (f : Fld) (v : Nat) : (s.setF f v).ackPartner = s.ackPartner := rfl
@[simp] theorem State.setF_ackHot (s : State) (f : Fld) (v : Nat) : (s.setF f v).ackHot = s.ackHot := rfl
@[simp] theorem State.setF_cursors (s : State) (f : Fld) (v : Nat) : (s.setF f v).cursors = s.cursors := rfl
@[simp] theorem State.setF_pushCursor (s : State) (f : Fld) (v : Nat) : (s.setF f v).pushCursor = s.pushCursor := rfl
@[simp] theorem State.setF_refusedSrc (s : State) (f : Fld) (v : Nat) : (s.setF f v).refusedSrc = s.refusedSrc := rfl
@[simp] theorem State.setF_sarkCut (s : State) (f : Fld) (v : Nat) : (s.setF f v).sarkCut = s.sarkCut := rfl
@[simp] theorem State.setF_partSrc0 (s : State) (f : Fld) (v : Nat) : (s.setF f v).partSrc0 = s.partSrc0 := rfl
@[simp] theorem State.setF_partSrc1 (s : State) (f : Fld) (v : Nat) : (s.setF f v).partSrc1 = s.partSrc1 := rfl
@[simp] theorem State.setF_svlOps (s : State) (f : Fld) (v : Nat) : (s.setF f v).svlOps = s.svlOps := rfl
@[simp] theorem State.setF_verifySlot (s : State) (f : Fld) (v : Nat) : (s.setF f v).verifySlot = s.verifySlot := rfl
@[simp] theorem State.setF_flashCount (s : State) (f : Fld) (v : Nat) : (s.setF f v).flashCount = s.flashCount := rfl
@[simp] theorem State.setF_gutters (s : State) (f : Fld) (v : Nat) : (s.setF f v).gutters = s.gutters := rfl
@[simp] theorem State.setF_faultMsiAt (s : State) (f : Fld) (v : Nat) : (s.setF f v).faultMsiAt = s.faultMsiAt := rfl
@[simp] theorem State.setF_inj (s : State) (f : Fld) (v : Nat) : (s.setF f v).inj = s.inj := rfl
@[simp] theorem State.setF_mergeAt (s : State) (f : Fld) (v : Nat) : (s.setF f v).mergeAt = s.mergeAt := rfl
@[simp] theorem State.setF_power (s : State) (f : Fld) (v : Nat) : (s.setF f v).power = s.power := rfl
@[simp] theorem State.setF_flash (s : State) (f : Fld) (v : Nat) : (s.setF f v).flash = s.flash := rfl
@[simp] theorem State.setF_boot (s : State) (f : Fld) (v : Nat) : (s.setF f v).boot = s.boot := rfl
@[simp] theorem State.setF_mgmtOut (s : State) (f : Fld) (v : Nat) : (s.setF f v).mgmtOut = s.mgmtOut := rfl
@[simp] theorem State.setF_freeCtr (s : State) (f : Fld) (v : Nat) : (s.setF f v).freeCtr = s.freeCtr := rfl

@[simp] theorem State.setRing_pending (s : State) (r : Nat) (x : Ring) : (s.setRing r x).pending = s.pending := rfl
@[simp] theorem State.setRing_now (s : State) (r : Nat) (x : Ring) : (s.setRing r x).now = s.now := rfl
@[simp] theorem State.setRing_timeBase (s : State) (r : Nat) (x : Ring) : (s.setRing r x).timeBase = s.timeBase := rfl
@[simp] theorem State.setRing_calNs (s : State) (r : Nat) (x : Ring) : (s.setRing r x).calNs = s.calNs := rfl
@[simp] theorem State.setRing_regs (s : State) (r : Nat) (x : Ring) : (s.setRing r x).regs = s.regs := rfl
@[simp] theorem State.setRing_shared (s : State) (r : Nat) (x : Ring) : (s.setRing r x).shared = s.shared := rfl
@[simp] theorem State.setRing_biasJobs (s : State) (r : Nat) (x : Ring) : (s.setRing r x).biasJobs = s.biasJobs := rfl
@[simp] theorem State.setRing_aptCache (s : State) (r : Nat) (x : Ring) : (s.setRing r x).aptCache = s.aptCache := rfl
@[simp] theorem State.setRing_aptJobs (s : State) (r : Nat) (x : Ring) : (s.setRing r x).aptJobs = s.aptJobs := rfl
@[simp] theorem State.setRing_hostLines (s : State) (r : Nat) (x : Ring) : (s.setRing r x).hostLines = s.hostLines := rfl
@[simp] theorem State.setRing_winLines (s : State) (r : Nat) (x : Ring) : (s.setRing r x).winLines = s.winLines := rfl
@[simp] theorem State.setRing_cxlOut (s : State) (r : Nat) (x : Ring) : (s.setRing r x).cxlOut = s.cxlOut := rfl
@[simp] theorem State.setRing_lastRead (s : State) (r : Nat) (x : Ring) : (s.setRing r x).lastRead = s.lastRead := rfl
@[simp] theorem State.setRing_hdmBase (s : State) (r : Nat) (x : Ring) : (s.setRing r x).hdmBase = s.hdmBase := rfl
@[simp] theorem State.setRing_l0Left (s : State) (r : Nat) (x : Ring) : (s.setRing r x).l0Left = s.l0Left := rfl
@[simp] theorem State.setRing_selfReset (s : State) (r : Nat) (x : Ring) : (s.setRing r x).selfReset = s.selfReset := rfl
@[simp] theorem State.setRing_suspended (s : State) (r : Nat) (x : Ring) : (s.setRing r x).suspended = s.suspended := rfl
@[simp] theorem State.setRing_heldRecs (s : State) (r : Nat) (x : Ring) : (s.setRing r x).heldRecs = s.heldRecs := rfl
@[simp] theorem State.setRing_targets (s : State) (r : Nat) (x : Ring) : (s.setRing r x).targets = s.targets := rfl
@[simp] theorem State.setRing_hostOut (s : State) (r : Nat) (x : Ring) : (s.setRing r x).hostOut = s.hostOut := rfl
@[simp] theorem State.setRing_hostReads (s : State) (r : Nat) (x : Ring) : (s.setRing r x).hostReads = s.hostReads := rfl
@[simp] theorem State.setRing_msiOut (s : State) (r : Nat) (x : Ring) : (s.setRing r x).msiOut = s.msiOut := rfl
@[simp] theorem State.setRing_beat (s : State) (r : Nat) (x : Ring) : (s.setRing r x).beat = s.beat := rfl
@[simp] theorem State.setRing_swapAt (s : State) (r : Nat) (x : Ring) : (s.setRing r x).swapAt = s.swapAt := rfl
@[simp] theorem State.setRing_waiting (s : State) (r : Nat) (x : Ring) : (s.setRing r x).waiting = s.waiting := rfl
@[simp] theorem State.setRing_prev (s : State) (r : Nat) (x : Ring) : (s.setRing r x).prev = s.prev := rfl
@[simp] theorem State.setRing_course (s : State) (r : Nat) (x : Ring) : (s.setRing r x).course = s.course := rfl
@[simp] theorem State.setRing_resumePend (s : State) (r : Nat) (x : Ring) : (s.setRing r x).resumePend = s.resumePend := rfl
@[simp] theorem State.setRing_watch (s : State) (r : Nat) (x : Ring) : (s.setRing r x).watch = s.watch := rfl
@[simp] theorem State.setRing_amax (s : State) (r : Nat) (x : Ring) : (s.setRing r x).amax = s.amax := rfl
@[simp] theorem State.setRing_stepVote (s : State) (r : Nat) (x : Ring) : (s.setRing r x).stepVote = s.stepVote := rfl
@[simp] theorem State.setRing_stepNonfin (s : State) (r : Nat) (x : Ring) : (s.setRing r x).stepNonfin = s.stepNonfin := rfl
@[simp] theorem State.setRing_seedBefore (s : State) (r : Nat) (x : Ring) : (s.setRing r x).seedBefore = s.seedBefore := rfl
@[simp] theorem State.setRing_rafts (s : State) (r : Nat) (x : Ring) : (s.setRing r x).rafts = s.rafts := rfl
@[simp] theorem State.setRing_dieEvents (s : State) (r : Nat) (x : Ring) : (s.setRing r x).dieEvents = s.dieEvents := rfl
@[simp] theorem State.setRing_modEvents (s : State) (r : Nat) (x : Ring) : (s.setRing r x).modEvents = s.modEvents := rfl
@[simp] theorem State.setRing_rstore (s : State) (r : Nat) (x : Ring) : (s.setRing r x).rstore = s.rstore := rfl
@[simp] theorem State.setRing_rsWritten (s : State) (r : Nat) (x : Ring) : (s.setRing r x).rsWritten = s.rsWritten := rfl
@[simp] theorem State.setRing_loft (s : State) (r : Nat) (x : Ring) : (s.setRing r x).loft = s.loft := rfl
@[simp] theorem State.setRing_loftWritten (s : State) (r : Nat) (x : Ring) : (s.setRing r x).loftWritten = s.loftWritten := rfl
@[simp] theorem State.setRing_acc (s : State) (r : Nat) (x : Ring) : (s.setRing r x).acc = s.acc := rfl
@[simp] theorem State.setRing_hbm (s : State) (r : Nat) (x : Ring) : (s.setRing r x).hbm = s.hbm := rfl
@[simp] theorem State.setRing_poison (s : State) (r : Nat) (x : Ring) : (s.setRing r x).poison = s.poison := rfl
@[simp] theorem State.setRing_symErr (s : State) (r : Nat) (x : Ring) : (s.setRing r x).symErr = s.symErr := rfl
@[simp] theorem State.setRing_lam (s : State) (r : Nat) (x : Ring) : (s.setRing r x).lam = s.lam := rfl
@[simp] theorem State.setRing_migs (s : State) (r : Nat) (x : Ring) : (s.setRing r x).migs = s.migs := rfl
@[simp] theorem State.setRing_retrainPend (s : State) (r : Nat) (x : Ring) : (s.setRing r x).retrainPend = s.retrainPend := rfl
@[simp] theorem State.setRing_retraining (s : State) (r : Nat) (x : Ring) : (s.setRing r x).retraining = s.retraining := rfl
@[simp] theorem State.setRing_retrained (s : State) (r : Nat) (x : Ring) : (s.setRing r x).retrained = s.retrained := rfl
@[simp] theorem State.setRing_deadChans (s : State) (r : Nat) (x : Ring) : (s.setRing r x).deadChans = s.deadChans := rfl
@[simp] theorem State.setRing_integ (s : State) (r : Nat) (x : Ring) : (s.setRing r x).integ = s.integ := rfl
@[simp] theorem State.setRing_fell (s : State) (r : Nat) (x : Ring) : (s.setRing r x).fell = s.fell := rfl
@[simp] theorem State.setRing_badStore (s : State) (r : Nat) (x : Ring) : (s.setRing r x).badStore = s.badStore := rfl
@[simp] theorem State.setRing_badAcc (s : State) (r : Nat) (x : Ring) : (s.setRing r x).badAcc = s.badAcc := rfl
@[simp] theorem State.setRing_mapOutDue (s : State) (r : Nat) (x : Ring) : (s.setRing r x).mapOutDue = s.mapOutDue := rfl
@[simp] theorem State.setRing_chanBase (s : State) (r : Nat) (x : Ring) : (s.setRing r x).chanBase = s.chanBase := rfl
@[simp] theorem State.setRing_hbmDegraded (s : State) (r : Nat) (x : Ring) : (s.setRing r x).hbmDegraded = s.hbmDegraded := rfl
@[simp] theorem State.setRing_kv (s : State) (r : Nat) (x : Ring) : (s.setRing r x).kv = s.kv := rfl
@[simp] theorem State.setRing_kvUndo (s : State) (r : Nat) (x : Ring) : (s.setRing r x).kvUndo = s.kvUndo := rfl
@[simp] theorem State.setRing_kvUndoMem (s : State) (r : Nat) (x : Ring) : (s.setRing r x).kvUndoMem = s.kvUndoMem := rfl
@[simp] theorem State.setRing_kvLog (s : State) (r : Nat) (x : Ring) : (s.setRing r x).kvLog = s.kvLog := rfl
@[simp] theorem State.setRing_saves (s : State) (r : Nat) (x : Ring) : (s.setRing r x).saves = s.saves := rfl
@[simp] theorem State.setRing_heldSaves (s : State) (r : Nat) (x : Ring) : (s.setRing r x).heldSaves = s.heldSaves := rfl
@[simp] theorem State.setRing_poolHeld (s : State) (r : Nat) (x : Ring) : (s.setRing r x).poolHeld = s.poolHeld := rfl
@[simp] theorem State.setRing_predHist (s : State) (r : Nat) (x : Ring) : (s.setRing r x).predHist = s.predHist := rfl
@[simp] theorem State.setRing_rateH (s : State) (r : Nat) (x : Ring) : (s.setRing r x).rateH = s.rateH := rfl
@[simp] theorem State.setRing_rateP (s : State) (r : Nat) (x : Ring) : (s.setRing r x).rateP = s.rateP := rfl
@[simp] theorem State.setRing_jobs (s : State) (r : Nat) (x : Ring) : (s.setRing r x).jobs = s.jobs := rfl
@[simp] theorem State.setRing_jobsDone (s : State) (r : Nat) (x : Ring) : (s.setRing r x).jobsDone = s.jobsDone := rfl
@[simp] theorem State.setRing_bufs (s : State) (r : Nat) (x : Ring) : (s.setRing r x).bufs = s.bufs := rfl
@[simp] theorem State.setRing_ports (s : State) (r : Nat) (x : Ring) : (s.setRing r x).ports = s.ports := rfl
@[simp] theorem State.setRing_flitOut (s : State) (r : Nat) (x : Ring) : (s.setRing r x).flitOut = s.flitOut := rfl
@[simp] theorem State.setRing_peerOut (s : State) (r : Nat) (x : Ring) : (s.setRing r x).peerOut = s.peerOut := rfl
@[simp] theorem State.setRing_peerWait (s : State) (r : Nat) (x : Ring) : (s.setRing r x).peerWait = s.peerWait := rfl
@[simp] theorem State.setRing_peerTag (s : State) (r : Nat) (x : Ring) : (s.setRing r x).peerTag = s.peerTag := rfl
@[simp] theorem State.setRing_reslate (s : State) (r : Nat) (x : Ring) : (s.setRing r x).reslate = s.reslate := rfl
@[simp] theorem State.setRing_build (s : State) (r : Nat) (x : Ring) : (s.setRing r x).build = s.build := rfl
@[simp] theorem State.setRing_fills (s : State) (r : Nat) (x : Ring) : (s.setRing r x).fills = s.fills := rfl
@[simp] theorem State.setRing_changed0 (s : State) (r : Nat) (x : Ring) : (s.setRing r x).changed0 = s.changed0 := rfl
@[simp] theorem State.setRing_changed1 (s : State) (r : Nat) (x : Ring) : (s.setRing r x).changed1 = s.changed1 := rfl
@[simp] theorem State.setRing_stepsDone (s : State) (r : Nat) (x : Ring) : (s.setRing r x).stepsDone = s.stepsDone := rfl
@[simp] theorem State.setRing_since0 (s : State) (r : Nat) (x : Ring) : (s.setRing r x).since0 = s.since0 := rfl
@[simp] theorem State.setRing_since1 (s : State) (r : Nat) (x : Ring) : (s.setRing r x).since1 = s.since1 := rfl
@[simp] theorem State.setRing_stepCourse (s : State) (r : Nat) (x : Ring) : (s.setRing r x).stepCourse = s.stepCourse := rfl
@[simp] theorem State.setRing_recipe (s : State) (r : Nat) (x : Ring) : (s.setRing r x).recipe = s.recipe := rfl
@[simp] theorem State.setRing_ackPartner (s : State) (r : Nat) (x : Ring) : (s.setRing r x).ackPartner = s.ackPartner := rfl
@[simp] theorem State.setRing_ackHot (s : State) (r : Nat) (x : Ring) : (s.setRing r x).ackHot = s.ackHot := rfl
@[simp] theorem State.setRing_cursors (s : State) (r : Nat) (x : Ring) : (s.setRing r x).cursors = s.cursors := rfl
@[simp] theorem State.setRing_pushCursor (s : State) (r : Nat) (x : Ring) : (s.setRing r x).pushCursor = s.pushCursor := rfl
@[simp] theorem State.setRing_refusedSrc (s : State) (r : Nat) (x : Ring) : (s.setRing r x).refusedSrc = s.refusedSrc := rfl
@[simp] theorem State.setRing_sarkCut (s : State) (r : Nat) (x : Ring) : (s.setRing r x).sarkCut = s.sarkCut := rfl
@[simp] theorem State.setRing_partSrc0 (s : State) (r : Nat) (x : Ring) : (s.setRing r x).partSrc0 = s.partSrc0 := rfl
@[simp] theorem State.setRing_partSrc1 (s : State) (r : Nat) (x : Ring) : (s.setRing r x).partSrc1 = s.partSrc1 := rfl
@[simp] theorem State.setRing_svlOps (s : State) (r : Nat) (x : Ring) : (s.setRing r x).svlOps = s.svlOps := rfl
@[simp] theorem State.setRing_verifySlot (s : State) (r : Nat) (x : Ring) : (s.setRing r x).verifySlot = s.verifySlot := rfl
@[simp] theorem State.setRing_flashCount (s : State) (r : Nat) (x : Ring) : (s.setRing r x).flashCount = s.flashCount := rfl
@[simp] theorem State.setRing_gutters (s : State) (r : Nat) (x : Ring) : (s.setRing r x).gutters = s.gutters := rfl
@[simp] theorem State.setRing_faultMsiAt (s : State) (r : Nat) (x : Ring) : (s.setRing r x).faultMsiAt = s.faultMsiAt := rfl
@[simp] theorem State.setRing_inj (s : State) (r : Nat) (x : Ring) : (s.setRing r x).inj = s.inj := rfl
@[simp] theorem State.setRing_mergeAt (s : State) (r : Nat) (x : Ring) : (s.setRing r x).mergeAt = s.mergeAt := rfl
@[simp] theorem State.setRing_power (s : State) (r : Nat) (x : Ring) : (s.setRing r x).power = s.power := rfl
@[simp] theorem State.setRing_flash (s : State) (r : Nat) (x : Ring) : (s.setRing r x).flash = s.flash := rfl
@[simp] theorem State.setRing_boot (s : State) (r : Nat) (x : Ring) : (s.setRing r x).boot = s.boot := rfl
@[simp] theorem State.setRing_mgmtOut (s : State) (r : Nat) (x : Ring) : (s.setRing r x).mgmtOut = s.mgmtOut := rfl
@[simp] theorem State.setRing_freeCtr (s : State) (r : Nat) (x : Ring) : (s.setRing r x).freeCtr = s.freeCtr := rfl

@[simp] theorem State.setRaft_pending (s : State) (l : Nat) (x : Raft) : (s.setRaft l x).pending = s.pending := rfl
@[simp] theorem State.setRaft_now (s : State) (l : Nat) (x : Raft) : (s.setRaft l x).now = s.now := rfl
@[simp] theorem State.setRaft_timeBase (s : State) (l : Nat) (x : Raft) : (s.setRaft l x).timeBase = s.timeBase := rfl
@[simp] theorem State.setRaft_calNs (s : State) (l : Nat) (x : Raft) : (s.setRaft l x).calNs = s.calNs := rfl
@[simp] theorem State.setRaft_regs (s : State) (l : Nat) (x : Raft) : (s.setRaft l x).regs = s.regs := rfl
@[simp] theorem State.setRaft_rings (s : State) (l : Nat) (x : Raft) : (s.setRaft l x).rings = s.rings := rfl
@[simp] theorem State.setRaft_shared (s : State) (l : Nat) (x : Raft) : (s.setRaft l x).shared = s.shared := rfl
@[simp] theorem State.setRaft_biasJobs (s : State) (l : Nat) (x : Raft) : (s.setRaft l x).biasJobs = s.biasJobs := rfl
@[simp] theorem State.setRaft_aptCache (s : State) (l : Nat) (x : Raft) : (s.setRaft l x).aptCache = s.aptCache := rfl
@[simp] theorem State.setRaft_aptJobs (s : State) (l : Nat) (x : Raft) : (s.setRaft l x).aptJobs = s.aptJobs := rfl
@[simp] theorem State.setRaft_hostLines (s : State) (l : Nat) (x : Raft) : (s.setRaft l x).hostLines = s.hostLines := rfl
@[simp] theorem State.setRaft_winLines (s : State) (l : Nat) (x : Raft) : (s.setRaft l x).winLines = s.winLines := rfl
@[simp] theorem State.setRaft_cxlOut (s : State) (l : Nat) (x : Raft) : (s.setRaft l x).cxlOut = s.cxlOut := rfl
@[simp] theorem State.setRaft_lastRead (s : State) (l : Nat) (x : Raft) : (s.setRaft l x).lastRead = s.lastRead := rfl
@[simp] theorem State.setRaft_hdmBase (s : State) (l : Nat) (x : Raft) : (s.setRaft l x).hdmBase = s.hdmBase := rfl
@[simp] theorem State.setRaft_l0Left (s : State) (l : Nat) (x : Raft) : (s.setRaft l x).l0Left = s.l0Left := rfl
@[simp] theorem State.setRaft_selfReset (s : State) (l : Nat) (x : Raft) : (s.setRaft l x).selfReset = s.selfReset := rfl
@[simp] theorem State.setRaft_suspended (s : State) (l : Nat) (x : Raft) : (s.setRaft l x).suspended = s.suspended := rfl
@[simp] theorem State.setRaft_heldRecs (s : State) (l : Nat) (x : Raft) : (s.setRaft l x).heldRecs = s.heldRecs := rfl
@[simp] theorem State.setRaft_targets (s : State) (l : Nat) (x : Raft) : (s.setRaft l x).targets = s.targets := rfl
@[simp] theorem State.setRaft_hostOut (s : State) (l : Nat) (x : Raft) : (s.setRaft l x).hostOut = s.hostOut := rfl
@[simp] theorem State.setRaft_hostReads (s : State) (l : Nat) (x : Raft) : (s.setRaft l x).hostReads = s.hostReads := rfl
@[simp] theorem State.setRaft_msiOut (s : State) (l : Nat) (x : Raft) : (s.setRaft l x).msiOut = s.msiOut := rfl
@[simp] theorem State.setRaft_beat (s : State) (l : Nat) (x : Raft) : (s.setRaft l x).beat = s.beat := rfl
@[simp] theorem State.setRaft_swapAt (s : State) (l : Nat) (x : Raft) : (s.setRaft l x).swapAt = s.swapAt := rfl
@[simp] theorem State.setRaft_waiting (s : State) (l : Nat) (x : Raft) : (s.setRaft l x).waiting = s.waiting := rfl
@[simp] theorem State.setRaft_prev (s : State) (l : Nat) (x : Raft) : (s.setRaft l x).prev = s.prev := rfl
@[simp] theorem State.setRaft_course (s : State) (l : Nat) (x : Raft) : (s.setRaft l x).course = s.course := rfl
@[simp] theorem State.setRaft_resumePend (s : State) (l : Nat) (x : Raft) : (s.setRaft l x).resumePend = s.resumePend := rfl
@[simp] theorem State.setRaft_watch (s : State) (l : Nat) (x : Raft) : (s.setRaft l x).watch = s.watch := rfl
@[simp] theorem State.setRaft_amax (s : State) (l : Nat) (x : Raft) : (s.setRaft l x).amax = s.amax := rfl
@[simp] theorem State.setRaft_stepVote (s : State) (l : Nat) (x : Raft) : (s.setRaft l x).stepVote = s.stepVote := rfl
@[simp] theorem State.setRaft_stepNonfin (s : State) (l : Nat) (x : Raft) : (s.setRaft l x).stepNonfin = s.stepNonfin := rfl
@[simp] theorem State.setRaft_seedBefore (s : State) (l : Nat) (x : Raft) : (s.setRaft l x).seedBefore = s.seedBefore := rfl
@[simp] theorem State.setRaft_dieEvents (s : State) (l : Nat) (x : Raft) : (s.setRaft l x).dieEvents = s.dieEvents := rfl
@[simp] theorem State.setRaft_modEvents (s : State) (l : Nat) (x : Raft) : (s.setRaft l x).modEvents = s.modEvents := rfl
@[simp] theorem State.setRaft_rstore (s : State) (l : Nat) (x : Raft) : (s.setRaft l x).rstore = s.rstore := rfl
@[simp] theorem State.setRaft_rsWritten (s : State) (l : Nat) (x : Raft) : (s.setRaft l x).rsWritten = s.rsWritten := rfl
@[simp] theorem State.setRaft_loft (s : State) (l : Nat) (x : Raft) : (s.setRaft l x).loft = s.loft := rfl
@[simp] theorem State.setRaft_loftWritten (s : State) (l : Nat) (x : Raft) : (s.setRaft l x).loftWritten = s.loftWritten := rfl
@[simp] theorem State.setRaft_acc (s : State) (l : Nat) (x : Raft) : (s.setRaft l x).acc = s.acc := rfl
@[simp] theorem State.setRaft_hbm (s : State) (l : Nat) (x : Raft) : (s.setRaft l x).hbm = s.hbm := rfl
@[simp] theorem State.setRaft_poison (s : State) (l : Nat) (x : Raft) : (s.setRaft l x).poison = s.poison := rfl
@[simp] theorem State.setRaft_symErr (s : State) (l : Nat) (x : Raft) : (s.setRaft l x).symErr = s.symErr := rfl
@[simp] theorem State.setRaft_lam (s : State) (l : Nat) (x : Raft) : (s.setRaft l x).lam = s.lam := rfl
@[simp] theorem State.setRaft_migs (s : State) (l : Nat) (x : Raft) : (s.setRaft l x).migs = s.migs := rfl
@[simp] theorem State.setRaft_retrainPend (s : State) (l : Nat) (x : Raft) : (s.setRaft l x).retrainPend = s.retrainPend := rfl
@[simp] theorem State.setRaft_retraining (s : State) (l : Nat) (x : Raft) : (s.setRaft l x).retraining = s.retraining := rfl
@[simp] theorem State.setRaft_retrained (s : State) (l : Nat) (x : Raft) : (s.setRaft l x).retrained = s.retrained := rfl
@[simp] theorem State.setRaft_deadChans (s : State) (l : Nat) (x : Raft) : (s.setRaft l x).deadChans = s.deadChans := rfl
@[simp] theorem State.setRaft_integ (s : State) (l : Nat) (x : Raft) : (s.setRaft l x).integ = s.integ := rfl
@[simp] theorem State.setRaft_fell (s : State) (l : Nat) (x : Raft) : (s.setRaft l x).fell = s.fell := rfl
@[simp] theorem State.setRaft_badStore (s : State) (l : Nat) (x : Raft) : (s.setRaft l x).badStore = s.badStore := rfl
@[simp] theorem State.setRaft_badAcc (s : State) (l : Nat) (x : Raft) : (s.setRaft l x).badAcc = s.badAcc := rfl
@[simp] theorem State.setRaft_mapOutDue (s : State) (l : Nat) (x : Raft) : (s.setRaft l x).mapOutDue = s.mapOutDue := rfl
@[simp] theorem State.setRaft_chanBase (s : State) (l : Nat) (x : Raft) : (s.setRaft l x).chanBase = s.chanBase := rfl
@[simp] theorem State.setRaft_hbmDegraded (s : State) (l : Nat) (x : Raft) : (s.setRaft l x).hbmDegraded = s.hbmDegraded := rfl
@[simp] theorem State.setRaft_kv (s : State) (l : Nat) (x : Raft) : (s.setRaft l x).kv = s.kv := rfl
@[simp] theorem State.setRaft_kvUndo (s : State) (l : Nat) (x : Raft) : (s.setRaft l x).kvUndo = s.kvUndo := rfl
@[simp] theorem State.setRaft_kvUndoMem (s : State) (l : Nat) (x : Raft) : (s.setRaft l x).kvUndoMem = s.kvUndoMem := rfl
@[simp] theorem State.setRaft_kvLog (s : State) (l : Nat) (x : Raft) : (s.setRaft l x).kvLog = s.kvLog := rfl
@[simp] theorem State.setRaft_saves (s : State) (l : Nat) (x : Raft) : (s.setRaft l x).saves = s.saves := rfl
@[simp] theorem State.setRaft_heldSaves (s : State) (l : Nat) (x : Raft) : (s.setRaft l x).heldSaves = s.heldSaves := rfl
@[simp] theorem State.setRaft_poolHeld (s : State) (l : Nat) (x : Raft) : (s.setRaft l x).poolHeld = s.poolHeld := rfl
@[simp] theorem State.setRaft_predHist (s : State) (l : Nat) (x : Raft) : (s.setRaft l x).predHist = s.predHist := rfl
@[simp] theorem State.setRaft_rateH (s : State) (l : Nat) (x : Raft) : (s.setRaft l x).rateH = s.rateH := rfl
@[simp] theorem State.setRaft_rateP (s : State) (l : Nat) (x : Raft) : (s.setRaft l x).rateP = s.rateP := rfl
@[simp] theorem State.setRaft_jobs (s : State) (l : Nat) (x : Raft) : (s.setRaft l x).jobs = s.jobs := rfl
@[simp] theorem State.setRaft_jobsDone (s : State) (l : Nat) (x : Raft) : (s.setRaft l x).jobsDone = s.jobsDone := rfl
@[simp] theorem State.setRaft_bufs (s : State) (l : Nat) (x : Raft) : (s.setRaft l x).bufs = s.bufs := rfl
@[simp] theorem State.setRaft_ports (s : State) (l : Nat) (x : Raft) : (s.setRaft l x).ports = s.ports := rfl
@[simp] theorem State.setRaft_flitOut (s : State) (l : Nat) (x : Raft) : (s.setRaft l x).flitOut = s.flitOut := rfl
@[simp] theorem State.setRaft_peerOut (s : State) (l : Nat) (x : Raft) : (s.setRaft l x).peerOut = s.peerOut := rfl
@[simp] theorem State.setRaft_peerWait (s : State) (l : Nat) (x : Raft) : (s.setRaft l x).peerWait = s.peerWait := rfl
@[simp] theorem State.setRaft_peerTag (s : State) (l : Nat) (x : Raft) : (s.setRaft l x).peerTag = s.peerTag := rfl
@[simp] theorem State.setRaft_reslate (s : State) (l : Nat) (x : Raft) : (s.setRaft l x).reslate = s.reslate := rfl
@[simp] theorem State.setRaft_build (s : State) (l : Nat) (x : Raft) : (s.setRaft l x).build = s.build := rfl
@[simp] theorem State.setRaft_fills (s : State) (l : Nat) (x : Raft) : (s.setRaft l x).fills = s.fills := rfl
@[simp] theorem State.setRaft_changed0 (s : State) (l : Nat) (x : Raft) : (s.setRaft l x).changed0 = s.changed0 := rfl
@[simp] theorem State.setRaft_changed1 (s : State) (l : Nat) (x : Raft) : (s.setRaft l x).changed1 = s.changed1 := rfl
@[simp] theorem State.setRaft_stepsDone (s : State) (l : Nat) (x : Raft) : (s.setRaft l x).stepsDone = s.stepsDone := rfl
@[simp] theorem State.setRaft_since0 (s : State) (l : Nat) (x : Raft) : (s.setRaft l x).since0 = s.since0 := rfl
@[simp] theorem State.setRaft_since1 (s : State) (l : Nat) (x : Raft) : (s.setRaft l x).since1 = s.since1 := rfl
@[simp] theorem State.setRaft_stepCourse (s : State) (l : Nat) (x : Raft) : (s.setRaft l x).stepCourse = s.stepCourse := rfl
@[simp] theorem State.setRaft_recipe (s : State) (l : Nat) (x : Raft) : (s.setRaft l x).recipe = s.recipe := rfl
@[simp] theorem State.setRaft_ackPartner (s : State) (l : Nat) (x : Raft) : (s.setRaft l x).ackPartner = s.ackPartner := rfl
@[simp] theorem State.setRaft_ackHot (s : State) (l : Nat) (x : Raft) : (s.setRaft l x).ackHot = s.ackHot := rfl
@[simp] theorem State.setRaft_cursors (s : State) (l : Nat) (x : Raft) : (s.setRaft l x).cursors = s.cursors := rfl
@[simp] theorem State.setRaft_pushCursor (s : State) (l : Nat) (x : Raft) : (s.setRaft l x).pushCursor = s.pushCursor := rfl
@[simp] theorem State.setRaft_refusedSrc (s : State) (l : Nat) (x : Raft) : (s.setRaft l x).refusedSrc = s.refusedSrc := rfl
@[simp] theorem State.setRaft_sarkCut (s : State) (l : Nat) (x : Raft) : (s.setRaft l x).sarkCut = s.sarkCut := rfl
@[simp] theorem State.setRaft_partSrc0 (s : State) (l : Nat) (x : Raft) : (s.setRaft l x).partSrc0 = s.partSrc0 := rfl
@[simp] theorem State.setRaft_partSrc1 (s : State) (l : Nat) (x : Raft) : (s.setRaft l x).partSrc1 = s.partSrc1 := rfl
@[simp] theorem State.setRaft_svlOps (s : State) (l : Nat) (x : Raft) : (s.setRaft l x).svlOps = s.svlOps := rfl
@[simp] theorem State.setRaft_verifySlot (s : State) (l : Nat) (x : Raft) : (s.setRaft l x).verifySlot = s.verifySlot := rfl
@[simp] theorem State.setRaft_flashCount (s : State) (l : Nat) (x : Raft) : (s.setRaft l x).flashCount = s.flashCount := rfl
@[simp] theorem State.setRaft_gutters (s : State) (l : Nat) (x : Raft) : (s.setRaft l x).gutters = s.gutters := rfl
@[simp] theorem State.setRaft_faultMsiAt (s : State) (l : Nat) (x : Raft) : (s.setRaft l x).faultMsiAt = s.faultMsiAt := rfl
@[simp] theorem State.setRaft_inj (s : State) (l : Nat) (x : Raft) : (s.setRaft l x).inj = s.inj := rfl
@[simp] theorem State.setRaft_mergeAt (s : State) (l : Nat) (x : Raft) : (s.setRaft l x).mergeAt = s.mergeAt := rfl
@[simp] theorem State.setRaft_power (s : State) (l : Nat) (x : Raft) : (s.setRaft l x).power = s.power := rfl
@[simp] theorem State.setRaft_flash (s : State) (l : Nat) (x : Raft) : (s.setRaft l x).flash = s.flash := rfl
@[simp] theorem State.setRaft_boot (s : State) (l : Nat) (x : Raft) : (s.setRaft l x).boot = s.boot := rfl
@[simp] theorem State.setRaft_mgmtOut (s : State) (l : Nat) (x : Raft) : (s.setRaft l x).mgmtOut = s.mgmtOut := rfl
@[simp] theorem State.setRaft_freeCtr (s : State) (l : Nat) (x : Raft) : (s.setRaft l x).freeCtr = s.freeCtr := rfl

@[simp] theorem State.setPort_pending (s : State) (p : Nat) (x : Port) : (s.setPort p x).pending = s.pending := rfl
@[simp] theorem State.setPort_now (s : State) (p : Nat) (x : Port) : (s.setPort p x).now = s.now := rfl
@[simp] theorem State.setPort_timeBase (s : State) (p : Nat) (x : Port) : (s.setPort p x).timeBase = s.timeBase := rfl
@[simp] theorem State.setPort_calNs (s : State) (p : Nat) (x : Port) : (s.setPort p x).calNs = s.calNs := rfl
@[simp] theorem State.setPort_regs (s : State) (p : Nat) (x : Port) : (s.setPort p x).regs = s.regs := rfl
@[simp] theorem State.setPort_rings (s : State) (p : Nat) (x : Port) : (s.setPort p x).rings = s.rings := rfl
@[simp] theorem State.setPort_shared (s : State) (p : Nat) (x : Port) : (s.setPort p x).shared = s.shared := rfl
@[simp] theorem State.setPort_biasJobs (s : State) (p : Nat) (x : Port) : (s.setPort p x).biasJobs = s.biasJobs := rfl
@[simp] theorem State.setPort_aptCache (s : State) (p : Nat) (x : Port) : (s.setPort p x).aptCache = s.aptCache := rfl
@[simp] theorem State.setPort_aptJobs (s : State) (p : Nat) (x : Port) : (s.setPort p x).aptJobs = s.aptJobs := rfl
@[simp] theorem State.setPort_hostLines (s : State) (p : Nat) (x : Port) : (s.setPort p x).hostLines = s.hostLines := rfl
@[simp] theorem State.setPort_winLines (s : State) (p : Nat) (x : Port) : (s.setPort p x).winLines = s.winLines := rfl
@[simp] theorem State.setPort_cxlOut (s : State) (p : Nat) (x : Port) : (s.setPort p x).cxlOut = s.cxlOut := rfl
@[simp] theorem State.setPort_lastRead (s : State) (p : Nat) (x : Port) : (s.setPort p x).lastRead = s.lastRead := rfl
@[simp] theorem State.setPort_hdmBase (s : State) (p : Nat) (x : Port) : (s.setPort p x).hdmBase = s.hdmBase := rfl
@[simp] theorem State.setPort_l0Left (s : State) (p : Nat) (x : Port) : (s.setPort p x).l0Left = s.l0Left := rfl
@[simp] theorem State.setPort_selfReset (s : State) (p : Nat) (x : Port) : (s.setPort p x).selfReset = s.selfReset := rfl
@[simp] theorem State.setPort_suspended (s : State) (p : Nat) (x : Port) : (s.setPort p x).suspended = s.suspended := rfl
@[simp] theorem State.setPort_heldRecs (s : State) (p : Nat) (x : Port) : (s.setPort p x).heldRecs = s.heldRecs := rfl
@[simp] theorem State.setPort_targets (s : State) (p : Nat) (x : Port) : (s.setPort p x).targets = s.targets := rfl
@[simp] theorem State.setPort_hostOut (s : State) (p : Nat) (x : Port) : (s.setPort p x).hostOut = s.hostOut := rfl
@[simp] theorem State.setPort_hostReads (s : State) (p : Nat) (x : Port) : (s.setPort p x).hostReads = s.hostReads := rfl
@[simp] theorem State.setPort_msiOut (s : State) (p : Nat) (x : Port) : (s.setPort p x).msiOut = s.msiOut := rfl
@[simp] theorem State.setPort_beat (s : State) (p : Nat) (x : Port) : (s.setPort p x).beat = s.beat := rfl
@[simp] theorem State.setPort_swapAt (s : State) (p : Nat) (x : Port) : (s.setPort p x).swapAt = s.swapAt := rfl
@[simp] theorem State.setPort_waiting (s : State) (p : Nat) (x : Port) : (s.setPort p x).waiting = s.waiting := rfl
@[simp] theorem State.setPort_prev (s : State) (p : Nat) (x : Port) : (s.setPort p x).prev = s.prev := rfl
@[simp] theorem State.setPort_course (s : State) (p : Nat) (x : Port) : (s.setPort p x).course = s.course := rfl
@[simp] theorem State.setPort_resumePend (s : State) (p : Nat) (x : Port) : (s.setPort p x).resumePend = s.resumePend := rfl
@[simp] theorem State.setPort_watch (s : State) (p : Nat) (x : Port) : (s.setPort p x).watch = s.watch := rfl
@[simp] theorem State.setPort_amax (s : State) (p : Nat) (x : Port) : (s.setPort p x).amax = s.amax := rfl
@[simp] theorem State.setPort_stepVote (s : State) (p : Nat) (x : Port) : (s.setPort p x).stepVote = s.stepVote := rfl
@[simp] theorem State.setPort_stepNonfin (s : State) (p : Nat) (x : Port) : (s.setPort p x).stepNonfin = s.stepNonfin := rfl
@[simp] theorem State.setPort_seedBefore (s : State) (p : Nat) (x : Port) : (s.setPort p x).seedBefore = s.seedBefore := rfl
@[simp] theorem State.setPort_rafts (s : State) (p : Nat) (x : Port) : (s.setPort p x).rafts = s.rafts := rfl
@[simp] theorem State.setPort_dieEvents (s : State) (p : Nat) (x : Port) : (s.setPort p x).dieEvents = s.dieEvents := rfl
@[simp] theorem State.setPort_modEvents (s : State) (p : Nat) (x : Port) : (s.setPort p x).modEvents = s.modEvents := rfl
@[simp] theorem State.setPort_rstore (s : State) (p : Nat) (x : Port) : (s.setPort p x).rstore = s.rstore := rfl
@[simp] theorem State.setPort_rsWritten (s : State) (p : Nat) (x : Port) : (s.setPort p x).rsWritten = s.rsWritten := rfl
@[simp] theorem State.setPort_loft (s : State) (p : Nat) (x : Port) : (s.setPort p x).loft = s.loft := rfl
@[simp] theorem State.setPort_loftWritten (s : State) (p : Nat) (x : Port) : (s.setPort p x).loftWritten = s.loftWritten := rfl
@[simp] theorem State.setPort_acc (s : State) (p : Nat) (x : Port) : (s.setPort p x).acc = s.acc := rfl
@[simp] theorem State.setPort_hbm (s : State) (p : Nat) (x : Port) : (s.setPort p x).hbm = s.hbm := rfl
@[simp] theorem State.setPort_poison (s : State) (p : Nat) (x : Port) : (s.setPort p x).poison = s.poison := rfl
@[simp] theorem State.setPort_symErr (s : State) (p : Nat) (x : Port) : (s.setPort p x).symErr = s.symErr := rfl
@[simp] theorem State.setPort_lam (s : State) (p : Nat) (x : Port) : (s.setPort p x).lam = s.lam := rfl
@[simp] theorem State.setPort_migs (s : State) (p : Nat) (x : Port) : (s.setPort p x).migs = s.migs := rfl
@[simp] theorem State.setPort_retrainPend (s : State) (p : Nat) (x : Port) : (s.setPort p x).retrainPend = s.retrainPend := rfl
@[simp] theorem State.setPort_retraining (s : State) (p : Nat) (x : Port) : (s.setPort p x).retraining = s.retraining := rfl
@[simp] theorem State.setPort_retrained (s : State) (p : Nat) (x : Port) : (s.setPort p x).retrained = s.retrained := rfl
@[simp] theorem State.setPort_deadChans (s : State) (p : Nat) (x : Port) : (s.setPort p x).deadChans = s.deadChans := rfl
@[simp] theorem State.setPort_integ (s : State) (p : Nat) (x : Port) : (s.setPort p x).integ = s.integ := rfl
@[simp] theorem State.setPort_fell (s : State) (p : Nat) (x : Port) : (s.setPort p x).fell = s.fell := rfl
@[simp] theorem State.setPort_badStore (s : State) (p : Nat) (x : Port) : (s.setPort p x).badStore = s.badStore := rfl
@[simp] theorem State.setPort_badAcc (s : State) (p : Nat) (x : Port) : (s.setPort p x).badAcc = s.badAcc := rfl
@[simp] theorem State.setPort_mapOutDue (s : State) (p : Nat) (x : Port) : (s.setPort p x).mapOutDue = s.mapOutDue := rfl
@[simp] theorem State.setPort_chanBase (s : State) (p : Nat) (x : Port) : (s.setPort p x).chanBase = s.chanBase := rfl
@[simp] theorem State.setPort_hbmDegraded (s : State) (p : Nat) (x : Port) : (s.setPort p x).hbmDegraded = s.hbmDegraded := rfl
@[simp] theorem State.setPort_kv (s : State) (p : Nat) (x : Port) : (s.setPort p x).kv = s.kv := rfl
@[simp] theorem State.setPort_kvUndo (s : State) (p : Nat) (x : Port) : (s.setPort p x).kvUndo = s.kvUndo := rfl
@[simp] theorem State.setPort_kvUndoMem (s : State) (p : Nat) (x : Port) : (s.setPort p x).kvUndoMem = s.kvUndoMem := rfl
@[simp] theorem State.setPort_kvLog (s : State) (p : Nat) (x : Port) : (s.setPort p x).kvLog = s.kvLog := rfl
@[simp] theorem State.setPort_saves (s : State) (p : Nat) (x : Port) : (s.setPort p x).saves = s.saves := rfl
@[simp] theorem State.setPort_heldSaves (s : State) (p : Nat) (x : Port) : (s.setPort p x).heldSaves = s.heldSaves := rfl
@[simp] theorem State.setPort_poolHeld (s : State) (p : Nat) (x : Port) : (s.setPort p x).poolHeld = s.poolHeld := rfl
@[simp] theorem State.setPort_predHist (s : State) (p : Nat) (x : Port) : (s.setPort p x).predHist = s.predHist := rfl
@[simp] theorem State.setPort_rateH (s : State) (p : Nat) (x : Port) : (s.setPort p x).rateH = s.rateH := rfl
@[simp] theorem State.setPort_rateP (s : State) (p : Nat) (x : Port) : (s.setPort p x).rateP = s.rateP := rfl
@[simp] theorem State.setPort_jobs (s : State) (p : Nat) (x : Port) : (s.setPort p x).jobs = s.jobs := rfl
@[simp] theorem State.setPort_jobsDone (s : State) (p : Nat) (x : Port) : (s.setPort p x).jobsDone = s.jobsDone := rfl
@[simp] theorem State.setPort_bufs (s : State) (p : Nat) (x : Port) : (s.setPort p x).bufs = s.bufs := rfl
@[simp] theorem State.setPort_flitOut (s : State) (p : Nat) (x : Port) : (s.setPort p x).flitOut = s.flitOut := rfl
@[simp] theorem State.setPort_peerOut (s : State) (p : Nat) (x : Port) : (s.setPort p x).peerOut = s.peerOut := rfl
@[simp] theorem State.setPort_peerWait (s : State) (p : Nat) (x : Port) : (s.setPort p x).peerWait = s.peerWait := rfl
@[simp] theorem State.setPort_peerTag (s : State) (p : Nat) (x : Port) : (s.setPort p x).peerTag = s.peerTag := rfl
@[simp] theorem State.setPort_reslate (s : State) (p : Nat) (x : Port) : (s.setPort p x).reslate = s.reslate := rfl
@[simp] theorem State.setPort_build (s : State) (p : Nat) (x : Port) : (s.setPort p x).build = s.build := rfl
@[simp] theorem State.setPort_fills (s : State) (p : Nat) (x : Port) : (s.setPort p x).fills = s.fills := rfl
@[simp] theorem State.setPort_changed0 (s : State) (p : Nat) (x : Port) : (s.setPort p x).changed0 = s.changed0 := rfl
@[simp] theorem State.setPort_changed1 (s : State) (p : Nat) (x : Port) : (s.setPort p x).changed1 = s.changed1 := rfl
@[simp] theorem State.setPort_stepsDone (s : State) (p : Nat) (x : Port) : (s.setPort p x).stepsDone = s.stepsDone := rfl
@[simp] theorem State.setPort_since0 (s : State) (p : Nat) (x : Port) : (s.setPort p x).since0 = s.since0 := rfl
@[simp] theorem State.setPort_since1 (s : State) (p : Nat) (x : Port) : (s.setPort p x).since1 = s.since1 := rfl
@[simp] theorem State.setPort_stepCourse (s : State) (p : Nat) (x : Port) : (s.setPort p x).stepCourse = s.stepCourse := rfl
@[simp] theorem State.setPort_recipe (s : State) (p : Nat) (x : Port) : (s.setPort p x).recipe = s.recipe := rfl
@[simp] theorem State.setPort_ackPartner (s : State) (p : Nat) (x : Port) : (s.setPort p x).ackPartner = s.ackPartner := rfl
@[simp] theorem State.setPort_ackHot (s : State) (p : Nat) (x : Port) : (s.setPort p x).ackHot = s.ackHot := rfl
@[simp] theorem State.setPort_cursors (s : State) (p : Nat) (x : Port) : (s.setPort p x).cursors = s.cursors := rfl
@[simp] theorem State.setPort_pushCursor (s : State) (p : Nat) (x : Port) : (s.setPort p x).pushCursor = s.pushCursor := rfl
@[simp] theorem State.setPort_refusedSrc (s : State) (p : Nat) (x : Port) : (s.setPort p x).refusedSrc = s.refusedSrc := rfl
@[simp] theorem State.setPort_sarkCut (s : State) (p : Nat) (x : Port) : (s.setPort p x).sarkCut = s.sarkCut := rfl
@[simp] theorem State.setPort_partSrc0 (s : State) (p : Nat) (x : Port) : (s.setPort p x).partSrc0 = s.partSrc0 := rfl
@[simp] theorem State.setPort_partSrc1 (s : State) (p : Nat) (x : Port) : (s.setPort p x).partSrc1 = s.partSrc1 := rfl
@[simp] theorem State.setPort_svlOps (s : State) (p : Nat) (x : Port) : (s.setPort p x).svlOps = s.svlOps := rfl
@[simp] theorem State.setPort_verifySlot (s : State) (p : Nat) (x : Port) : (s.setPort p x).verifySlot = s.verifySlot := rfl
@[simp] theorem State.setPort_flashCount (s : State) (p : Nat) (x : Port) : (s.setPort p x).flashCount = s.flashCount := rfl
@[simp] theorem State.setPort_gutters (s : State) (p : Nat) (x : Port) : (s.setPort p x).gutters = s.gutters := rfl
@[simp] theorem State.setPort_faultMsiAt (s : State) (p : Nat) (x : Port) : (s.setPort p x).faultMsiAt = s.faultMsiAt := rfl
@[simp] theorem State.setPort_inj (s : State) (p : Nat) (x : Port) : (s.setPort p x).inj = s.inj := rfl
@[simp] theorem State.setPort_mergeAt (s : State) (p : Nat) (x : Port) : (s.setPort p x).mergeAt = s.mergeAt := rfl
@[simp] theorem State.setPort_power (s : State) (p : Nat) (x : Port) : (s.setPort p x).power = s.power := rfl
@[simp] theorem State.setPort_flash (s : State) (p : Nat) (x : Port) : (s.setPort p x).flash = s.flash := rfl
@[simp] theorem State.setPort_boot (s : State) (p : Nat) (x : Port) : (s.setPort p x).boot = s.boot := rfl
@[simp] theorem State.setPort_mgmtOut (s : State) (p : Nat) (x : Port) : (s.setPort p x).mgmtOut = s.mgmtOut := rfl
@[simp] theorem State.setPort_freeCtr (s : State) (p : Nat) (x : Port) : (s.setPort p x).freeCtr = s.freeCtr := rfl

@[simp] theorem State.setTarget_pending (s : State) (c : Nat) (x : Target) : (s.setTarget c x).pending = s.pending := rfl
@[simp] theorem State.setTarget_now (s : State) (c : Nat) (x : Target) : (s.setTarget c x).now = s.now := rfl
@[simp] theorem State.setTarget_timeBase (s : State) (c : Nat) (x : Target) : (s.setTarget c x).timeBase = s.timeBase := rfl
@[simp] theorem State.setTarget_calNs (s : State) (c : Nat) (x : Target) : (s.setTarget c x).calNs = s.calNs := rfl
@[simp] theorem State.setTarget_regs (s : State) (c : Nat) (x : Target) : (s.setTarget c x).regs = s.regs := rfl
@[simp] theorem State.setTarget_rings (s : State) (c : Nat) (x : Target) : (s.setTarget c x).rings = s.rings := rfl
@[simp] theorem State.setTarget_shared (s : State) (c : Nat) (x : Target) : (s.setTarget c x).shared = s.shared := rfl
@[simp] theorem State.setTarget_biasJobs (s : State) (c : Nat) (x : Target) : (s.setTarget c x).biasJobs = s.biasJobs := rfl
@[simp] theorem State.setTarget_aptCache (s : State) (c : Nat) (x : Target) : (s.setTarget c x).aptCache = s.aptCache := rfl
@[simp] theorem State.setTarget_aptJobs (s : State) (c : Nat) (x : Target) : (s.setTarget c x).aptJobs = s.aptJobs := rfl
@[simp] theorem State.setTarget_hostLines (s : State) (c : Nat) (x : Target) : (s.setTarget c x).hostLines = s.hostLines := rfl
@[simp] theorem State.setTarget_winLines (s : State) (c : Nat) (x : Target) : (s.setTarget c x).winLines = s.winLines := rfl
@[simp] theorem State.setTarget_cxlOut (s : State) (c : Nat) (x : Target) : (s.setTarget c x).cxlOut = s.cxlOut := rfl
@[simp] theorem State.setTarget_lastRead (s : State) (c : Nat) (x : Target) : (s.setTarget c x).lastRead = s.lastRead := rfl
@[simp] theorem State.setTarget_hdmBase (s : State) (c : Nat) (x : Target) : (s.setTarget c x).hdmBase = s.hdmBase := rfl
@[simp] theorem State.setTarget_l0Left (s : State) (c : Nat) (x : Target) : (s.setTarget c x).l0Left = s.l0Left := rfl
@[simp] theorem State.setTarget_selfReset (s : State) (c : Nat) (x : Target) : (s.setTarget c x).selfReset = s.selfReset := rfl
@[simp] theorem State.setTarget_suspended (s : State) (c : Nat) (x : Target) : (s.setTarget c x).suspended = s.suspended := rfl
@[simp] theorem State.setTarget_heldRecs (s : State) (c : Nat) (x : Target) : (s.setTarget c x).heldRecs = s.heldRecs := rfl
@[simp] theorem State.setTarget_hostOut (s : State) (c : Nat) (x : Target) : (s.setTarget c x).hostOut = s.hostOut := rfl
@[simp] theorem State.setTarget_hostReads (s : State) (c : Nat) (x : Target) : (s.setTarget c x).hostReads = s.hostReads := rfl
@[simp] theorem State.setTarget_msiOut (s : State) (c : Nat) (x : Target) : (s.setTarget c x).msiOut = s.msiOut := rfl
@[simp] theorem State.setTarget_beat (s : State) (c : Nat) (x : Target) : (s.setTarget c x).beat = s.beat := rfl
@[simp] theorem State.setTarget_swapAt (s : State) (c : Nat) (x : Target) : (s.setTarget c x).swapAt = s.swapAt := rfl
@[simp] theorem State.setTarget_waiting (s : State) (c : Nat) (x : Target) : (s.setTarget c x).waiting = s.waiting := rfl
@[simp] theorem State.setTarget_prev (s : State) (c : Nat) (x : Target) : (s.setTarget c x).prev = s.prev := rfl
@[simp] theorem State.setTarget_course (s : State) (c : Nat) (x : Target) : (s.setTarget c x).course = s.course := rfl
@[simp] theorem State.setTarget_resumePend (s : State) (c : Nat) (x : Target) : (s.setTarget c x).resumePend = s.resumePend := rfl
@[simp] theorem State.setTarget_watch (s : State) (c : Nat) (x : Target) : (s.setTarget c x).watch = s.watch := rfl
@[simp] theorem State.setTarget_amax (s : State) (c : Nat) (x : Target) : (s.setTarget c x).amax = s.amax := rfl
@[simp] theorem State.setTarget_stepVote (s : State) (c : Nat) (x : Target) : (s.setTarget c x).stepVote = s.stepVote := rfl
@[simp] theorem State.setTarget_stepNonfin (s : State) (c : Nat) (x : Target) : (s.setTarget c x).stepNonfin = s.stepNonfin := rfl
@[simp] theorem State.setTarget_seedBefore (s : State) (c : Nat) (x : Target) : (s.setTarget c x).seedBefore = s.seedBefore := rfl
@[simp] theorem State.setTarget_rafts (s : State) (c : Nat) (x : Target) : (s.setTarget c x).rafts = s.rafts := rfl
@[simp] theorem State.setTarget_dieEvents (s : State) (c : Nat) (x : Target) : (s.setTarget c x).dieEvents = s.dieEvents := rfl
@[simp] theorem State.setTarget_modEvents (s : State) (c : Nat) (x : Target) : (s.setTarget c x).modEvents = s.modEvents := rfl
@[simp] theorem State.setTarget_rstore (s : State) (c : Nat) (x : Target) : (s.setTarget c x).rstore = s.rstore := rfl
@[simp] theorem State.setTarget_rsWritten (s : State) (c : Nat) (x : Target) : (s.setTarget c x).rsWritten = s.rsWritten := rfl
@[simp] theorem State.setTarget_loft (s : State) (c : Nat) (x : Target) : (s.setTarget c x).loft = s.loft := rfl
@[simp] theorem State.setTarget_loftWritten (s : State) (c : Nat) (x : Target) : (s.setTarget c x).loftWritten = s.loftWritten := rfl
@[simp] theorem State.setTarget_acc (s : State) (c : Nat) (x : Target) : (s.setTarget c x).acc = s.acc := rfl
@[simp] theorem State.setTarget_hbm (s : State) (c : Nat) (x : Target) : (s.setTarget c x).hbm = s.hbm := rfl
@[simp] theorem State.setTarget_poison (s : State) (c : Nat) (x : Target) : (s.setTarget c x).poison = s.poison := rfl
@[simp] theorem State.setTarget_symErr (s : State) (c : Nat) (x : Target) : (s.setTarget c x).symErr = s.symErr := rfl
@[simp] theorem State.setTarget_lam (s : State) (c : Nat) (x : Target) : (s.setTarget c x).lam = s.lam := rfl
@[simp] theorem State.setTarget_migs (s : State) (c : Nat) (x : Target) : (s.setTarget c x).migs = s.migs := rfl
@[simp] theorem State.setTarget_retrainPend (s : State) (c : Nat) (x : Target) : (s.setTarget c x).retrainPend = s.retrainPend := rfl
@[simp] theorem State.setTarget_retraining (s : State) (c : Nat) (x : Target) : (s.setTarget c x).retraining = s.retraining := rfl
@[simp] theorem State.setTarget_retrained (s : State) (c : Nat) (x : Target) : (s.setTarget c x).retrained = s.retrained := rfl
@[simp] theorem State.setTarget_deadChans (s : State) (c : Nat) (x : Target) : (s.setTarget c x).deadChans = s.deadChans := rfl
@[simp] theorem State.setTarget_integ (s : State) (c : Nat) (x : Target) : (s.setTarget c x).integ = s.integ := rfl
@[simp] theorem State.setTarget_fell (s : State) (c : Nat) (x : Target) : (s.setTarget c x).fell = s.fell := rfl
@[simp] theorem State.setTarget_badStore (s : State) (c : Nat) (x : Target) : (s.setTarget c x).badStore = s.badStore := rfl
@[simp] theorem State.setTarget_badAcc (s : State) (c : Nat) (x : Target) : (s.setTarget c x).badAcc = s.badAcc := rfl
@[simp] theorem State.setTarget_mapOutDue (s : State) (c : Nat) (x : Target) : (s.setTarget c x).mapOutDue = s.mapOutDue := rfl
@[simp] theorem State.setTarget_chanBase (s : State) (c : Nat) (x : Target) : (s.setTarget c x).chanBase = s.chanBase := rfl
@[simp] theorem State.setTarget_hbmDegraded (s : State) (c : Nat) (x : Target) : (s.setTarget c x).hbmDegraded = s.hbmDegraded := rfl
@[simp] theorem State.setTarget_kv (s : State) (c : Nat) (x : Target) : (s.setTarget c x).kv = s.kv := rfl
@[simp] theorem State.setTarget_kvUndo (s : State) (c : Nat) (x : Target) : (s.setTarget c x).kvUndo = s.kvUndo := rfl
@[simp] theorem State.setTarget_kvUndoMem (s : State) (c : Nat) (x : Target) : (s.setTarget c x).kvUndoMem = s.kvUndoMem := rfl
@[simp] theorem State.setTarget_kvLog (s : State) (c : Nat) (x : Target) : (s.setTarget c x).kvLog = s.kvLog := rfl
@[simp] theorem State.setTarget_saves (s : State) (c : Nat) (x : Target) : (s.setTarget c x).saves = s.saves := rfl
@[simp] theorem State.setTarget_heldSaves (s : State) (c : Nat) (x : Target) : (s.setTarget c x).heldSaves = s.heldSaves := rfl
@[simp] theorem State.setTarget_poolHeld (s : State) (c : Nat) (x : Target) : (s.setTarget c x).poolHeld = s.poolHeld := rfl
@[simp] theorem State.setTarget_predHist (s : State) (c : Nat) (x : Target) : (s.setTarget c x).predHist = s.predHist := rfl
@[simp] theorem State.setTarget_rateH (s : State) (c : Nat) (x : Target) : (s.setTarget c x).rateH = s.rateH := rfl
@[simp] theorem State.setTarget_rateP (s : State) (c : Nat) (x : Target) : (s.setTarget c x).rateP = s.rateP := rfl
@[simp] theorem State.setTarget_jobs (s : State) (c : Nat) (x : Target) : (s.setTarget c x).jobs = s.jobs := rfl
@[simp] theorem State.setTarget_jobsDone (s : State) (c : Nat) (x : Target) : (s.setTarget c x).jobsDone = s.jobsDone := rfl
@[simp] theorem State.setTarget_bufs (s : State) (c : Nat) (x : Target) : (s.setTarget c x).bufs = s.bufs := rfl
@[simp] theorem State.setTarget_ports (s : State) (c : Nat) (x : Target) : (s.setTarget c x).ports = s.ports := rfl
@[simp] theorem State.setTarget_flitOut (s : State) (c : Nat) (x : Target) : (s.setTarget c x).flitOut = s.flitOut := rfl
@[simp] theorem State.setTarget_peerOut (s : State) (c : Nat) (x : Target) : (s.setTarget c x).peerOut = s.peerOut := rfl
@[simp] theorem State.setTarget_peerWait (s : State) (c : Nat) (x : Target) : (s.setTarget c x).peerWait = s.peerWait := rfl
@[simp] theorem State.setTarget_peerTag (s : State) (c : Nat) (x : Target) : (s.setTarget c x).peerTag = s.peerTag := rfl
@[simp] theorem State.setTarget_reslate (s : State) (c : Nat) (x : Target) : (s.setTarget c x).reslate = s.reslate := rfl
@[simp] theorem State.setTarget_build (s : State) (c : Nat) (x : Target) : (s.setTarget c x).build = s.build := rfl
@[simp] theorem State.setTarget_fills (s : State) (c : Nat) (x : Target) : (s.setTarget c x).fills = s.fills := rfl
@[simp] theorem State.setTarget_changed0 (s : State) (c : Nat) (x : Target) : (s.setTarget c x).changed0 = s.changed0 := rfl
@[simp] theorem State.setTarget_changed1 (s : State) (c : Nat) (x : Target) : (s.setTarget c x).changed1 = s.changed1 := rfl
@[simp] theorem State.setTarget_stepsDone (s : State) (c : Nat) (x : Target) : (s.setTarget c x).stepsDone = s.stepsDone := rfl
@[simp] theorem State.setTarget_since0 (s : State) (c : Nat) (x : Target) : (s.setTarget c x).since0 = s.since0 := rfl
@[simp] theorem State.setTarget_since1 (s : State) (c : Nat) (x : Target) : (s.setTarget c x).since1 = s.since1 := rfl
@[simp] theorem State.setTarget_stepCourse (s : State) (c : Nat) (x : Target) : (s.setTarget c x).stepCourse = s.stepCourse := rfl
@[simp] theorem State.setTarget_recipe (s : State) (c : Nat) (x : Target) : (s.setTarget c x).recipe = s.recipe := rfl
@[simp] theorem State.setTarget_ackPartner (s : State) (c : Nat) (x : Target) : (s.setTarget c x).ackPartner = s.ackPartner := rfl
@[simp] theorem State.setTarget_ackHot (s : State) (c : Nat) (x : Target) : (s.setTarget c x).ackHot = s.ackHot := rfl
@[simp] theorem State.setTarget_cursors (s : State) (c : Nat) (x : Target) : (s.setTarget c x).cursors = s.cursors := rfl
@[simp] theorem State.setTarget_pushCursor (s : State) (c : Nat) (x : Target) : (s.setTarget c x).pushCursor = s.pushCursor := rfl
@[simp] theorem State.setTarget_refusedSrc (s : State) (c : Nat) (x : Target) : (s.setTarget c x).refusedSrc = s.refusedSrc := rfl
@[simp] theorem State.setTarget_sarkCut (s : State) (c : Nat) (x : Target) : (s.setTarget c x).sarkCut = s.sarkCut := rfl
@[simp] theorem State.setTarget_partSrc0 (s : State) (c : Nat) (x : Target) : (s.setTarget c x).partSrc0 = s.partSrc0 := rfl
@[simp] theorem State.setTarget_partSrc1 (s : State) (c : Nat) (x : Target) : (s.setTarget c x).partSrc1 = s.partSrc1 := rfl
@[simp] theorem State.setTarget_svlOps (s : State) (c : Nat) (x : Target) : (s.setTarget c x).svlOps = s.svlOps := rfl
@[simp] theorem State.setTarget_verifySlot (s : State) (c : Nat) (x : Target) : (s.setTarget c x).verifySlot = s.verifySlot := rfl
@[simp] theorem State.setTarget_flashCount (s : State) (c : Nat) (x : Target) : (s.setTarget c x).flashCount = s.flashCount := rfl
@[simp] theorem State.setTarget_gutters (s : State) (c : Nat) (x : Target) : (s.setTarget c x).gutters = s.gutters := rfl
@[simp] theorem State.setTarget_faultMsiAt (s : State) (c : Nat) (x : Target) : (s.setTarget c x).faultMsiAt = s.faultMsiAt := rfl
@[simp] theorem State.setTarget_inj (s : State) (c : Nat) (x : Target) : (s.setTarget c x).inj = s.inj := rfl
@[simp] theorem State.setTarget_mergeAt (s : State) (c : Nat) (x : Target) : (s.setTarget c x).mergeAt = s.mergeAt := rfl
@[simp] theorem State.setTarget_power (s : State) (c : Nat) (x : Target) : (s.setTarget c x).power = s.power := rfl
@[simp] theorem State.setTarget_flash (s : State) (c : Nat) (x : Target) : (s.setTarget c x).flash = s.flash := rfl
@[simp] theorem State.setTarget_boot (s : State) (c : Nat) (x : Target) : (s.setTarget c x).boot = s.boot := rfl
@[simp] theorem State.setTarget_mgmtOut (s : State) (c : Nat) (x : Target) : (s.setTarget c x).mgmtOut = s.mgmtOut := rfl
@[simp] theorem State.setTarget_freeCtr (s : State) (c : Nat) (x : Target) : (s.setTarget c x).freeCtr = s.freeCtr := rfl

@[simp] theorem State.setGutter_pending (s : State) (i : Nat) (x : Gutter) : (s.setGutter i x).pending = s.pending := rfl
@[simp] theorem State.setGutter_now (s : State) (i : Nat) (x : Gutter) : (s.setGutter i x).now = s.now := rfl
@[simp] theorem State.setGutter_timeBase (s : State) (i : Nat) (x : Gutter) : (s.setGutter i x).timeBase = s.timeBase := rfl
@[simp] theorem State.setGutter_calNs (s : State) (i : Nat) (x : Gutter) : (s.setGutter i x).calNs = s.calNs := rfl
@[simp] theorem State.setGutter_regs (s : State) (i : Nat) (x : Gutter) : (s.setGutter i x).regs = s.regs := rfl
@[simp] theorem State.setGutter_rings (s : State) (i : Nat) (x : Gutter) : (s.setGutter i x).rings = s.rings := rfl
@[simp] theorem State.setGutter_shared (s : State) (i : Nat) (x : Gutter) : (s.setGutter i x).shared = s.shared := rfl
@[simp] theorem State.setGutter_biasJobs (s : State) (i : Nat) (x : Gutter) : (s.setGutter i x).biasJobs = s.biasJobs := rfl
@[simp] theorem State.setGutter_aptCache (s : State) (i : Nat) (x : Gutter) : (s.setGutter i x).aptCache = s.aptCache := rfl
@[simp] theorem State.setGutter_aptJobs (s : State) (i : Nat) (x : Gutter) : (s.setGutter i x).aptJobs = s.aptJobs := rfl
@[simp] theorem State.setGutter_hostLines (s : State) (i : Nat) (x : Gutter) : (s.setGutter i x).hostLines = s.hostLines := rfl
@[simp] theorem State.setGutter_winLines (s : State) (i : Nat) (x : Gutter) : (s.setGutter i x).winLines = s.winLines := rfl
@[simp] theorem State.setGutter_cxlOut (s : State) (i : Nat) (x : Gutter) : (s.setGutter i x).cxlOut = s.cxlOut := rfl
@[simp] theorem State.setGutter_lastRead (s : State) (i : Nat) (x : Gutter) : (s.setGutter i x).lastRead = s.lastRead := rfl
@[simp] theorem State.setGutter_hdmBase (s : State) (i : Nat) (x : Gutter) : (s.setGutter i x).hdmBase = s.hdmBase := rfl
@[simp] theorem State.setGutter_l0Left (s : State) (i : Nat) (x : Gutter) : (s.setGutter i x).l0Left = s.l0Left := rfl
@[simp] theorem State.setGutter_selfReset (s : State) (i : Nat) (x : Gutter) : (s.setGutter i x).selfReset = s.selfReset := rfl
@[simp] theorem State.setGutter_suspended (s : State) (i : Nat) (x : Gutter) : (s.setGutter i x).suspended = s.suspended := rfl
@[simp] theorem State.setGutter_heldRecs (s : State) (i : Nat) (x : Gutter) : (s.setGutter i x).heldRecs = s.heldRecs := rfl
@[simp] theorem State.setGutter_targets (s : State) (i : Nat) (x : Gutter) : (s.setGutter i x).targets = s.targets := rfl
@[simp] theorem State.setGutter_hostOut (s : State) (i : Nat) (x : Gutter) : (s.setGutter i x).hostOut = s.hostOut := rfl
@[simp] theorem State.setGutter_hostReads (s : State) (i : Nat) (x : Gutter) : (s.setGutter i x).hostReads = s.hostReads := rfl
@[simp] theorem State.setGutter_msiOut (s : State) (i : Nat) (x : Gutter) : (s.setGutter i x).msiOut = s.msiOut := rfl
@[simp] theorem State.setGutter_beat (s : State) (i : Nat) (x : Gutter) : (s.setGutter i x).beat = s.beat := rfl
@[simp] theorem State.setGutter_swapAt (s : State) (i : Nat) (x : Gutter) : (s.setGutter i x).swapAt = s.swapAt := rfl
@[simp] theorem State.setGutter_waiting (s : State) (i : Nat) (x : Gutter) : (s.setGutter i x).waiting = s.waiting := rfl
@[simp] theorem State.setGutter_prev (s : State) (i : Nat) (x : Gutter) : (s.setGutter i x).prev = s.prev := rfl
@[simp] theorem State.setGutter_course (s : State) (i : Nat) (x : Gutter) : (s.setGutter i x).course = s.course := rfl
@[simp] theorem State.setGutter_resumePend (s : State) (i : Nat) (x : Gutter) : (s.setGutter i x).resumePend = s.resumePend := rfl
@[simp] theorem State.setGutter_watch (s : State) (i : Nat) (x : Gutter) : (s.setGutter i x).watch = s.watch := rfl
@[simp] theorem State.setGutter_amax (s : State) (i : Nat) (x : Gutter) : (s.setGutter i x).amax = s.amax := rfl
@[simp] theorem State.setGutter_stepVote (s : State) (i : Nat) (x : Gutter) : (s.setGutter i x).stepVote = s.stepVote := rfl
@[simp] theorem State.setGutter_stepNonfin (s : State) (i : Nat) (x : Gutter) : (s.setGutter i x).stepNonfin = s.stepNonfin := rfl
@[simp] theorem State.setGutter_seedBefore (s : State) (i : Nat) (x : Gutter) : (s.setGutter i x).seedBefore = s.seedBefore := rfl
@[simp] theorem State.setGutter_rafts (s : State) (i : Nat) (x : Gutter) : (s.setGutter i x).rafts = s.rafts := rfl
@[simp] theorem State.setGutter_dieEvents (s : State) (i : Nat) (x : Gutter) : (s.setGutter i x).dieEvents = s.dieEvents := rfl
@[simp] theorem State.setGutter_modEvents (s : State) (i : Nat) (x : Gutter) : (s.setGutter i x).modEvents = s.modEvents := rfl
@[simp] theorem State.setGutter_rstore (s : State) (i : Nat) (x : Gutter) : (s.setGutter i x).rstore = s.rstore := rfl
@[simp] theorem State.setGutter_rsWritten (s : State) (i : Nat) (x : Gutter) : (s.setGutter i x).rsWritten = s.rsWritten := rfl
@[simp] theorem State.setGutter_loft (s : State) (i : Nat) (x : Gutter) : (s.setGutter i x).loft = s.loft := rfl
@[simp] theorem State.setGutter_loftWritten (s : State) (i : Nat) (x : Gutter) : (s.setGutter i x).loftWritten = s.loftWritten := rfl
@[simp] theorem State.setGutter_acc (s : State) (i : Nat) (x : Gutter) : (s.setGutter i x).acc = s.acc := rfl
@[simp] theorem State.setGutter_hbm (s : State) (i : Nat) (x : Gutter) : (s.setGutter i x).hbm = s.hbm := rfl
@[simp] theorem State.setGutter_poison (s : State) (i : Nat) (x : Gutter) : (s.setGutter i x).poison = s.poison := rfl
@[simp] theorem State.setGutter_symErr (s : State) (i : Nat) (x : Gutter) : (s.setGutter i x).symErr = s.symErr := rfl
@[simp] theorem State.setGutter_lam (s : State) (i : Nat) (x : Gutter) : (s.setGutter i x).lam = s.lam := rfl
@[simp] theorem State.setGutter_migs (s : State) (i : Nat) (x : Gutter) : (s.setGutter i x).migs = s.migs := rfl
@[simp] theorem State.setGutter_retrainPend (s : State) (i : Nat) (x : Gutter) : (s.setGutter i x).retrainPend = s.retrainPend := rfl
@[simp] theorem State.setGutter_retraining (s : State) (i : Nat) (x : Gutter) : (s.setGutter i x).retraining = s.retraining := rfl
@[simp] theorem State.setGutter_retrained (s : State) (i : Nat) (x : Gutter) : (s.setGutter i x).retrained = s.retrained := rfl
@[simp] theorem State.setGutter_deadChans (s : State) (i : Nat) (x : Gutter) : (s.setGutter i x).deadChans = s.deadChans := rfl
@[simp] theorem State.setGutter_integ (s : State) (i : Nat) (x : Gutter) : (s.setGutter i x).integ = s.integ := rfl
@[simp] theorem State.setGutter_fell (s : State) (i : Nat) (x : Gutter) : (s.setGutter i x).fell = s.fell := rfl
@[simp] theorem State.setGutter_badStore (s : State) (i : Nat) (x : Gutter) : (s.setGutter i x).badStore = s.badStore := rfl
@[simp] theorem State.setGutter_badAcc (s : State) (i : Nat) (x : Gutter) : (s.setGutter i x).badAcc = s.badAcc := rfl
@[simp] theorem State.setGutter_mapOutDue (s : State) (i : Nat) (x : Gutter) : (s.setGutter i x).mapOutDue = s.mapOutDue := rfl
@[simp] theorem State.setGutter_chanBase (s : State) (i : Nat) (x : Gutter) : (s.setGutter i x).chanBase = s.chanBase := rfl
@[simp] theorem State.setGutter_hbmDegraded (s : State) (i : Nat) (x : Gutter) : (s.setGutter i x).hbmDegraded = s.hbmDegraded := rfl
@[simp] theorem State.setGutter_kv (s : State) (i : Nat) (x : Gutter) : (s.setGutter i x).kv = s.kv := rfl
@[simp] theorem State.setGutter_kvUndo (s : State) (i : Nat) (x : Gutter) : (s.setGutter i x).kvUndo = s.kvUndo := rfl
@[simp] theorem State.setGutter_kvUndoMem (s : State) (i : Nat) (x : Gutter) : (s.setGutter i x).kvUndoMem = s.kvUndoMem := rfl
@[simp] theorem State.setGutter_kvLog (s : State) (i : Nat) (x : Gutter) : (s.setGutter i x).kvLog = s.kvLog := rfl
@[simp] theorem State.setGutter_saves (s : State) (i : Nat) (x : Gutter) : (s.setGutter i x).saves = s.saves := rfl
@[simp] theorem State.setGutter_heldSaves (s : State) (i : Nat) (x : Gutter) : (s.setGutter i x).heldSaves = s.heldSaves := rfl
@[simp] theorem State.setGutter_poolHeld (s : State) (i : Nat) (x : Gutter) : (s.setGutter i x).poolHeld = s.poolHeld := rfl
@[simp] theorem State.setGutter_predHist (s : State) (i : Nat) (x : Gutter) : (s.setGutter i x).predHist = s.predHist := rfl
@[simp] theorem State.setGutter_rateH (s : State) (i : Nat) (x : Gutter) : (s.setGutter i x).rateH = s.rateH := rfl
@[simp] theorem State.setGutter_rateP (s : State) (i : Nat) (x : Gutter) : (s.setGutter i x).rateP = s.rateP := rfl
@[simp] theorem State.setGutter_jobs (s : State) (i : Nat) (x : Gutter) : (s.setGutter i x).jobs = s.jobs := rfl
@[simp] theorem State.setGutter_jobsDone (s : State) (i : Nat) (x : Gutter) : (s.setGutter i x).jobsDone = s.jobsDone := rfl
@[simp] theorem State.setGutter_bufs (s : State) (i : Nat) (x : Gutter) : (s.setGutter i x).bufs = s.bufs := rfl
@[simp] theorem State.setGutter_ports (s : State) (i : Nat) (x : Gutter) : (s.setGutter i x).ports = s.ports := rfl
@[simp] theorem State.setGutter_flitOut (s : State) (i : Nat) (x : Gutter) : (s.setGutter i x).flitOut = s.flitOut := rfl
@[simp] theorem State.setGutter_peerOut (s : State) (i : Nat) (x : Gutter) : (s.setGutter i x).peerOut = s.peerOut := rfl
@[simp] theorem State.setGutter_peerWait (s : State) (i : Nat) (x : Gutter) : (s.setGutter i x).peerWait = s.peerWait := rfl
@[simp] theorem State.setGutter_peerTag (s : State) (i : Nat) (x : Gutter) : (s.setGutter i x).peerTag = s.peerTag := rfl
@[simp] theorem State.setGutter_reslate (s : State) (i : Nat) (x : Gutter) : (s.setGutter i x).reslate = s.reslate := rfl
@[simp] theorem State.setGutter_build (s : State) (i : Nat) (x : Gutter) : (s.setGutter i x).build = s.build := rfl
@[simp] theorem State.setGutter_fills (s : State) (i : Nat) (x : Gutter) : (s.setGutter i x).fills = s.fills := rfl
@[simp] theorem State.setGutter_changed0 (s : State) (i : Nat) (x : Gutter) : (s.setGutter i x).changed0 = s.changed0 := rfl
@[simp] theorem State.setGutter_changed1 (s : State) (i : Nat) (x : Gutter) : (s.setGutter i x).changed1 = s.changed1 := rfl
@[simp] theorem State.setGutter_stepsDone (s : State) (i : Nat) (x : Gutter) : (s.setGutter i x).stepsDone = s.stepsDone := rfl
@[simp] theorem State.setGutter_since0 (s : State) (i : Nat) (x : Gutter) : (s.setGutter i x).since0 = s.since0 := rfl
@[simp] theorem State.setGutter_since1 (s : State) (i : Nat) (x : Gutter) : (s.setGutter i x).since1 = s.since1 := rfl
@[simp] theorem State.setGutter_stepCourse (s : State) (i : Nat) (x : Gutter) : (s.setGutter i x).stepCourse = s.stepCourse := rfl
@[simp] theorem State.setGutter_recipe (s : State) (i : Nat) (x : Gutter) : (s.setGutter i x).recipe = s.recipe := rfl
@[simp] theorem State.setGutter_ackPartner (s : State) (i : Nat) (x : Gutter) : (s.setGutter i x).ackPartner = s.ackPartner := rfl
@[simp] theorem State.setGutter_ackHot (s : State) (i : Nat) (x : Gutter) : (s.setGutter i x).ackHot = s.ackHot := rfl
@[simp] theorem State.setGutter_cursors (s : State) (i : Nat) (x : Gutter) : (s.setGutter i x).cursors = s.cursors := rfl
@[simp] theorem State.setGutter_pushCursor (s : State) (i : Nat) (x : Gutter) : (s.setGutter i x).pushCursor = s.pushCursor := rfl
@[simp] theorem State.setGutter_refusedSrc (s : State) (i : Nat) (x : Gutter) : (s.setGutter i x).refusedSrc = s.refusedSrc := rfl
@[simp] theorem State.setGutter_sarkCut (s : State) (i : Nat) (x : Gutter) : (s.setGutter i x).sarkCut = s.sarkCut := rfl
@[simp] theorem State.setGutter_partSrc0 (s : State) (i : Nat) (x : Gutter) : (s.setGutter i x).partSrc0 = s.partSrc0 := rfl
@[simp] theorem State.setGutter_partSrc1 (s : State) (i : Nat) (x : Gutter) : (s.setGutter i x).partSrc1 = s.partSrc1 := rfl
@[simp] theorem State.setGutter_svlOps (s : State) (i : Nat) (x : Gutter) : (s.setGutter i x).svlOps = s.svlOps := rfl
@[simp] theorem State.setGutter_verifySlot (s : State) (i : Nat) (x : Gutter) : (s.setGutter i x).verifySlot = s.verifySlot := rfl
@[simp] theorem State.setGutter_flashCount (s : State) (i : Nat) (x : Gutter) : (s.setGutter i x).flashCount = s.flashCount := rfl
@[simp] theorem State.setGutter_faultMsiAt (s : State) (i : Nat) (x : Gutter) : (s.setGutter i x).faultMsiAt = s.faultMsiAt := rfl
@[simp] theorem State.setGutter_inj (s : State) (i : Nat) (x : Gutter) : (s.setGutter i x).inj = s.inj := rfl
@[simp] theorem State.setGutter_mergeAt (s : State) (i : Nat) (x : Gutter) : (s.setGutter i x).mergeAt = s.mergeAt := rfl
@[simp] theorem State.setGutter_power (s : State) (i : Nat) (x : Gutter) : (s.setGutter i x).power = s.power := rfl
@[simp] theorem State.setGutter_flash (s : State) (i : Nat) (x : Gutter) : (s.setGutter i x).flash = s.flash := rfl
@[simp] theorem State.setGutter_boot (s : State) (i : Nat) (x : Gutter) : (s.setGutter i x).boot = s.boot := rfl
@[simp] theorem State.setGutter_mgmtOut (s : State) (i : Nat) (x : Gutter) : (s.setGutter i x).mgmtOut = s.mgmtOut := rfl
@[simp] theorem State.setGutter_freeCtr (s : State) (i : Nat) (x : Gutter) : (s.setGutter i x).freeCtr = s.freeCtr := rfl

end Sys2Proof.Machine
end

