-- ==== Sys2Proof/Tests/Slice0.lean ====
section
/-! SUPPORT. Witnesses that the hypotheses of the statements can be met, one ill-formed command for each check of WellFormed, and the worked
examples of the specification. A few clauses rest on opaque constants of Config and have no concrete operands: those of BootStages and
TrustAndTime that ask for a verified boot object (the root key's hash) or an identity seed (the reads of the SRAM), and those of
MediaDecodeJobs that ask for a stream whose sequence header has been read; every other clause has its operands here. -/

open Sys2Proof Sys2Proof.Machine

namespace Sys2Proof.Tests

-- One theorem after the other, so that the kernel's evaluations do not wait for one another on many threads at once.
set_option Elab.async false

/-! ### Small states -/

/-- Rails up and boot at READY. -/
def up : State :=
  ({ State.reset with power := { State.reset.power with step := .good, coreRails := true, hubRails := true } } : State).setF
    Reg.SEC_BOOT_STAT.READY 1

/-- A 64-bit word with the given values at the given bits. -/
def word (fs : List (Nat × Nat)) : W64 := BitVec.ofNat 64 (fs.foldl (fun a f => a + f.2 * 2 ^ f.1) 0)

/-- A request of ring `r` with these words. -/
def reqOf (r : Nat) (ws : List W64) : Req := ⟨r, ws ++ List.replicate (8 - ws.length) 0, false⟩

/-- An image of one phase with no timetable, and a course of it that is being worked on by rafter 0. -/
def img0 : Image := ⟨0, 0, 4, true, true, 0, 0, 0xFFFF, 0, 0xFFFF, 0, [0], [1000], false, [100]⟩
def crs0 : Course :=
  ⟨reqOf 0 [], img0, 4, 7, true, false, false, [0], [], [], [], true, [], [], 0, 0, 0, 0, none, none, 0, 0, 0, [], none, [], false⟩
def run : State := { up with course := some crs0 }

/-- `s` with request `q` read on ring 0 and not carried out. -/
def asked (s : State) (q : Req) : State := s.setRing 0 { Ring.fresh with outstanding := [q] }

theorem coreOf (s : State) (h : (s.power.hubRails && s.power.coreRails && s.ready) = true) : s.coreUp := by
  simpa [State.coreUp, and_assoc] using h
theorem hubOf (s : State) (h : (s.power.hubRails && s.ready) = true) : s.hubUp := by simpa [State.hubUp] using h
theorem canonOf (s : State) (h : ([s.hbm, s.loft, s.rstore].all Memory.wf && SMap.wf (0 : W32) s.acc && SMap.rising s.regs) = true) :
    s.Canon := by
  simp only [List.all_cons, List.all_nil, Bool.and_true, Bool.and_eq_true] at h
  obtain ⟨⟨⟨b, l, r⟩, a⟩, g⟩ := h
  exact { hbm := b, loft := l, rstore := r, acc := a, regs := g }

theorem up_core : up.coreUp := coreOf _ (by decide)
theorem up_hub : up.hubUp := hubOf _ (by decide)
theorem up_canon : up.Canon := canonOf _ (by decide)
theorem run_core : run.coreUp := coreOf _ (by decide)
theorem run_hub : run.hubUp := hubOf _ (by decide)
theorem run_canon : run.Canon := canonOf _ (by decide)

/-- More registers, on a state that is up and canonical, leave it so. -/
def upWith (fs : List (Fld × Nat)) : State := up.setFs fs
def runWith (fs : List (Fld × Nat)) : State := run.setFs fs

/-! ### Witnesses: states and operands that meet the hypotheses of each statement -/

theorem test_hyps_EmptyQueueTicks : State.reset.pending = [] ∧ State.reset.working = none ∧ State.reset.Canon ∧ run.working ≠ none :=
  ⟨by decide, by decide, canonOf _ (by decide), by decide⟩

theorem test_hyps_StepKeepsCanonical : up.Canon ∧ ∃ t, step up = .next t := ⟨up_canon, _, rfl⟩

theorem test_hyps_CommandsKeepQueueAndClock : up.Canon ∧ ∃ t, exec (.vbatSample 3000) up = .next t := ⟨up_canon, _, rfl⟩

/-- Both clauses of ROLLBACK, and a write of 0. -/
theorem test_hyps_ResumeClearsHeld :
    (up.hubUp ∧ up.Canon ∧ (1 : W32).getLsbD 0 = true ∧ up.getF Reg.CRS_KV_STAT.ROLLBACK = 0) ∧
    ((upWith [(Reg.CRS_KV_STAT.ROLLBACK, 1)]).getF Reg.CRS_KV_STAT.ROLLBACK ≠ 0) ∧ (2 : W32).getLsbD 0 = false :=
  ⟨⟨up_hub, up_canon, by decide, by decide⟩, by decide, by decide⟩

theorem test_hyps_AbortFailsTheCourse :
    run.hubUp ∧ run.Canon ∧ (1 : W32).getLsbD 0 = true ∧ run.course = some crs0 ∧ crs0.failed = false ∧ up.course = none ∧
    ({ crs0 with failed := true } : Course).failed = true := ⟨run_hub, run_canon, by decide, rfl, rfl, rfl, rfl⟩

theorem test_hyps_SwapRequestIsValidated :
    up.hubUp ∧ up.Canon ∧ (1 : W32).getLsbD 0 = true ∧ up.getF Reg.CRS_STATUS.SWAP_PEND = 0 ∧
    (upWith [(Reg.CRS_STATUS.SWAP_PEND, 1)]).getF Reg.CRS_STATUS.SWAP_PEND ≠ 0 := ⟨up_hub, up_canon, by and_intros <;> decide⟩

theorem test_hyps_PendingSwapGuardsTheShadowSet :
    let s := upWith [(Reg.CRS_STATUS.SWAP_PEND, 1)]
    s.hubUp ∧ s.Canon ∧ 0x10128 ∈ [0x10100, 0x10108, 0x10110, 0x10118, 0x10128] ∧ s.getF Reg.CRS_STATUS.SWAP_PEND ≠ 0 :=
  ⟨hubOf _ (by decide), canonOf _ (by decide), by decide, by decide⟩

theorem test_hyps_ShadowSetWriteStores : up.hubUp ∧ up.Canon ∧ up.getF Reg.CRS_STATUS.SWAP_PEND = 0 := ⟨up_hub, up_canon, by decide⟩

theorem test_hyps_TimedControl :
    up.hubUp ∧ up.Canon ∧ up.getF Reg.CRS_HOLDMAX.HOLD_BEATS ≠ 0 ∧
    ((upWith [(Reg.CRS_STATUS.LOCKED, 1)]).getF Reg.CRS_STATUS.LOCKED ≠ 0 ∧
      (upWith [(Reg.CRS_STATUS.LOCKED, 1)]).getF Reg.CRS_CTRL.BEAT_SRC ≠ (2 : W32).toNat / 2 % 4) :=
  ⟨up_hub, up_canon, by and_intros <;> decide⟩

theorem test_hyps_BeatEdgesWhileLocked :
    let s := upWith [(Reg.CRS_STATUS.LOCKED, 1)]
    let t := upWith [(Reg.CRS_STATUS.LOCKED, 1), (Reg.CRS_CTRL.BEAT_SRC, 1), (Reg.CRS_CTRL.BEAT_PORT, 31), (Reg.LNK_STAT.UP 31, 1)]
    s.coreUp ∧ s.Canon ∧ s.getF Reg.CRS_STATUS.LOCKED ≠ 0 ∧ s.getF Reg.CRS_STATUS.HOLDOVER = 0 ∧ s.getF Reg.CRS_CTRL.BEAT_SRC = 0 ∧
    (t.getF Reg.CRS_CTRL.BEAT_SRC = 1 ∧ t.getF Reg.CRS_CTRL.BEAT_PORT = 31 ∧ t.getF (Reg.LNK_STAT.UP 31) ≠ 0) ∧ s.beat.missed < 2 ∧
    (2 ≤ ({ s.beat with missed := 2 } : Beat).missed ∧ s.getF Reg.CRS_HOLDMAX.HOLD_BEATS ≠ 0) :=
  ⟨coreOf _ (by decide), canonOf _ (by decide), by and_intros <;> decide⟩

/-- Eight edges exactly 1 ms apart: R48 locks them near a nominal period of 1,000,000 ns. -/
theorem test_hyps_LockAtTheEighthEdge :
    up.coreUp ∧ up.getF Reg.CRS_STATUS.LOCKED = 0 ∧ up.getF Reg.CRS_STATUS.HOLDOVER = 0 ∧ up.getF Reg.CRS_CTRL.BEAT_SRC = 0 ∧
    ({ up.beat with edges := (List.range 8).map fun i => (7 - i) * 1000000000 } : Beat).train = some 7000000000 ∧
    nearNominal 7000000000 1000000 = true ∧ nearNominal 7000000000 1001000 = false ∧ nominalOk 100000 = true ∧ up.beat.train = none :=
  ⟨up_core, by and_intros <;> decide⟩

theorem test_hyps_InternalBeats :
    let s := runWith [(Reg.CRS_STATUS.LOCKED, 1)]
    s.coreUp ∧ s.Canon ∧ s.getF Reg.CRS_STATUS.LOCKED ≠ 0 ∧ s.getF Reg.CRS_STATUS.HOLDOVER = 0 ∧ s.beat.pulling = false ∧
    s.beat.holdBeats = 0 ∧ (∀ p < 32, s.getF (Reg.LNK_CTRL.BEAT_OUT p) = 0) ∧ s.course = some crs0 ∧ 1 < crs0.beatsLeft :=
  ⟨coreOf _ (by decide), canonOf _ (by decide), by decide, by decide, by decide,
    by decide, by decide, rfl, by decide⟩

theorem test_hyps_BeatIsLost :
    let s := runWith [(Reg.CRS_STATUS.LOCKED, 1), (Reg.CRS_STATUS.HOLDOVER, 1), (Reg.CRS_HOLDMAX.HOLD_BEATS, 1)]
    s.coreUp ∧ s.Canon ∧ s.getF Reg.CRS_STATUS.LOCKED ≠ 0 ∧ s.getF Reg.CRS_STATUS.HOLDOVER ≠ 0 ∧
    s.getF Reg.CRS_HOLDMAX.HOLD_BEATS ≤ s.beat.holdBeats + 1 :=
  ⟨coreOf _ (by decide), canonOf _ (by decide), by and_intros <;> decide⟩

/-- Phase 0 is due at 1,000 ns: one clause before it, one at it. -/
theorem test_hyps_RidgesAndWindows :
    up.coreUp ∧ up.getF Reg.CRS_STATUS.LOCKED = 0 ∧ (upWith [(Reg.CRS_STATUS.LOCKED, 1)]).getF Reg.CRS_STATUS.LOCKED ≠ 0 ∧
    (let s : State := { run with course := some { crs0 with working := false } }
     s.repairsEnd.alive = some { crs0 with working := false } ∧ ({ crs0 with working := false } : Course).running ≠ []) ∧
    (run.alive = some crs0 ∧ crs0.img.deadlines[0]? = some 1000 ∧ run.now < run.beat.ridgeAt + 1000) ∧
    (({ run with now := 1000 } : State).beat.ridgeAt + 1000 ≤ ({ run with now := 1000 } : State).now ∧
      (({ run with now := 1000 } : State).programsDone crs0 && ({ run with now := 1000 } : State).slotsDone crs0) = false) :=
  ⟨up_core, by decide, by decide, ⟨by decide, by decide⟩, by and_intros <;> decide⟩

/-- A COURSE_RUN read on ring 0, with courses disabled and with courses enabled. -/
theorem test_hyps_CourseRunIsAdmittedOrRefused :
    let q := reqOf 0 [word [(0, 1)]]
    let s := asked up q
    let t := asked (upWith [(Reg.CRS_CTRL.ENABLE, 1)]) q
    s.hubUp ∧ s.nextReq 0 0x01 = some q ∧ (s.markStarted q).getF Reg.CRS_CTRL.ENABLE = 0 ∧
    t.nextReq 0 0x01 = some q ∧ (t.markStarted q).getF Reg.CRS_STATUS.HELD = 0 ∧ (t.markStarted q).getF Reg.CRS_CTRL.ENABLE ≠ 0 :=
  ⟨⟨by decide, by decide⟩, by and_intros <;> decide⟩

/-- A byte access, an address with no register, and a register read at the wrong width. -/
theorem test_hyps_RegisterWritesFollowTheirAccessCode :
    up.hubUp ∧ up.Canon ∧ ((1 ≠ 4 ∧ 1 ≠ 8) ∨ 0x10004 % 1 ≠ 0) ∧ 0x10006 % 4 ≠ 0 ∧ rawArea 0x000FC = false ∧ findReg 0x000FC = none ∧
    (∃ r, findReg 0x10004 = some r ∧ r.width ≠ 8 * 8) ∧ up.getF Reg.CRS_STATUS.SWAP_ERR ≤ 1 :=
  ⟨up_hub, up_canon, by decide, by decide, by decide, by decide, ⟨_, rfl, by decide⟩, by decide⟩

/-- The four outcomes of a submission doorbell: ring not active, page wrong, sequence wrong, accepted. -/
theorem test_hyps_SubmissionDoorbell :
    let s := upWith [(Reg.HIF_RING_STAT.ACTIVE 1023, 1), (Reg.HIF_RING_CFG.SIZE_LOG2 1023, 4)]
    up.hubUp ∧ up.Canon ∧ 1023 < 1024 ∧ up.getF (Reg.HIF_RING_STAT.ACTIVE 1023) = 0 ∧
    (s.getF (Reg.HIF_RING_STAT.ACTIVE 1023) ≠ 0 ∧ s.ringSize 1023 ≤ wbits (word [(0, 16)]) 0 16) ∧
    (wbits (word [(0, 1), (16, 3), (32, 1023)]) 32 10 = 1023 ∧ (wbits (word [(0, 1), (16, 3)]) 16 16 + 65536 - (s.ring 1023).lastSeq) % 65536 ≠
      (wbits (word [(0, 1)]) 0 16 + s.ringSize 1023 - s.getF (Reg.HIF_RING_PTR.SQ_TAIL 1023)) % s.ringSize 1023) ∧
    ((wbits (word [(0, 1), (16, 0), (32, 1023)]) 16 16 + 65536 - (s.ring 1023).lastSeq) % 65536 =
      (wbits (word [(0, 1)]) 0 16 + s.ringSize 1023 - s.getF (Reg.HIF_RING_PTR.SQ_TAIL 1023)) % s.ringSize 1023) :=
  ⟨up_hub, up_canon, by decide, by decide, ⟨by decide, by decide⟩, ⟨by decide, by decide⟩, by decide⟩

theorem test_hyps_CompletionHeadDoorbell :
    let s := (upWith [(Reg.HIF_RING_STAT.ACTIVE 0, 1), (Reg.HIF_RING_CFG.SIZE_LOG2 0, 4)]).setRing 0 { Ring.fresh with unconsumed := 1 }
    up.hubUp ∧ up.Canon ∧ 0 < 1024 ∧ (up.getF (Reg.HIF_RING_STAT.ACTIVE 0) = 0 ∧ up.getF (Reg.HIF_RING_STAT.BUSY 0) = 0) ∧
    s.ringSize 0 ≤ wbits (word [(0, 16)]) 0 16 ∧
    (s.ring 0).unconsumed < (wbits (word [(0, 2)]) 0 16 + s.ringSize 0 - (s.ring 0).cqHead) % s.ringSize 0 ∧
    ¬ ((s.ring 0).unconsumed < (wbits (word [(0, 1)]) 0 16 + s.ringSize 0 - (s.ring 0).cqHead) % s.ringSize 0) ∧ 4 ≠ 8 :=
  ⟨up_hub, up_canon, by and_intros <;> decide⟩

/-- A bulk ring with one descriptor to read: a fresh NOP, a stale answer, and the 65th reread. -/
theorem test_hyps_DescriptorReads :
    let s := upWith [(Reg.HIF_RING_STAT.ACTIVE 0, 1), (Reg.HIF_RING_CFG.SIZE_LOG2 0, 4), (Reg.HIF_RING_CFG.CLASS 0, 1), (Reg.HIF_RING_PTR.SQ_TAIL 0, 1),
      (Reg.HIF_STATUS.LINK_UP, 1)]
    let t := s.setRing 0 { Ring.fresh with tries := 64 }
    let d := [word [(8, 1)], 0, 0, 0, 0, 0, 0, 0]
    s.hubUp ∧ s.Canon ∧ s.canFetch 0 = true ∧ s.pickRing = some 0 ∧ (s.ring 0).tries = 0 ∧ s.fresh 0 d = true ∧ s.hostReachable = true ∧
    s.rejectStatus ⟨0, d, false⟩ = none ∧ (some (0 :: d.tail)).filter (fun d => s.hostReachable && s.fresh 0 d) = none ∧
    t.canFetch 0 = true ∧ (t.ring 0).tries = 64 :=
  ⟨hubOf _ (by decide), canonOf _ (by decide), by decide, by decide +kernel, by and_intros <;> decide⟩

theorem test_hyps_CompletionRecord :
    let q := reqOf 0 []
    let s := asked (upWith [(Reg.HIF_STATUS.LINK_UP, 1)]) q
    s.hubUp ∧ s.Canon ∧ q.ring = 0 ∧ q.opcode = 0 ∧ q.started = false ∧ (s.ring 0).outstanding = [q] ∧ (s.ring 0).waitingRecs = [] ∧
    (s.ring 0).endRec = none ∧ (s.ring 0).cqDead = false ∧ s.suspended = false ∧ s.hostReachable = true ∧ s.getF (Reg.HIF_RING_CFG.IRQ_EN 0) = 0 ∧ SMap.rising s.rings = true :=
  ⟨hubOf _ (by decide), canonOf _ (by decide), by and_intros <;> decide⟩

theorem test_hyps_RingEnableAndShutdown :
    let s := upWith [(Reg.HIF_RING_CFG.ENABLE 5, 1), (Reg.HIF_RING_STAT.ACTIVE 5, 1)]
    let t := upWith [(Reg.HIF_RING_STAT.BUSY 5, 1)]
    let u := s.setRing 5 { Ring.fresh with unsignalled := 1 }
    up.hubUp ∧ up.Canon ∧ (up.getF (Reg.HIF_RING_CFG.ENABLE 5) = 0 ∧ up.getF (Reg.HIF_RING_STAT.ACTIVE 5) = 0 ∧
      up.getF (Reg.HIF_RING_STAT.BUSY 5) = 0 ∧ (1 : W32).getLsbD 0 = true ∧ (1 : W32).getLsbD 7 = false ∧ (up.ring 5).unsignalled ≤ 0) ∧
    (s.getF (Reg.HIF_RING_CFG.ENABLE 5) ≠ 0 ∧ s.getF (Reg.HIF_RING_STAT.ACTIVE 5) ≠ 0 ∧ s.getF (Reg.HIF_RING_STAT.BUSY 5) = 0 ∧
      (0 : W32).getLsbD 0 = false ∧ 5 ≠ s.getF Reg.CRS_CTRL.TIMED_RING ∧ (s.ring 5).unsignalled ≤ s.getF (Reg.HIF_RING_CFG.COAL 5)) ∧
    (u.getF (Reg.HIF_RING_CFG.ENABLE 5) ≠ 0 ∧ u.getF (Reg.HIF_RING_STAT.ACTIVE 5) ≠ 0 ∧ (129 : W32).getLsbD 0 = true ∧
      (129 : W32).getLsbD 7 = true ∧ SMap.rising u.rings = true ∧ u.getF (Reg.HIF_RING_CFG.COAL 5) < (u.ring 5).unsignalled) ∧
    (t.getF (Reg.HIF_RING_STAT.BUSY 5) ≠ 0 ∧ t.recordsOut 5 = true ∧ t.getF (Reg.HIF_RING_CFG.ENABLE 5) = 0) :=
  ⟨up_hub, up_canon, by and_intros <;> decide⟩

/-- A record posted to slot 0 of a ring of 16 and not consumed. -/
theorem test_hyps_CompletionWriteFailsAndCoalescing :
    let s : State := { (upWith [(Reg.HIF_RING_CFG.SIZE_LOG2 0, 4), (Reg.HIF_RING_PTR.CQ_TAIL 0, 1), (Reg.HIF_RING_CFG.IRQ_EN 0, 1)]).setRing 0
      { Ring.fresh with unconsumed := 1, unsignalled := 1 } with hostOut := [⟨0, []⟩] }
    s.hubUp ∧ s.Canon ∧ SMap.rising s.rings = true ∧ (0 < (s.ring 0).unconsumed ∧ 0 < (s.ring 0).unsignalled ∧ (s.ring 0).cqDead = false ∧
      s.suspended = false ∧ (∃ w ∈ s.hostOut, w.addr = s.getF (Reg.HIF_RING_CQ.BASE 0) * 4096 +
        (s.getF (Reg.HIF_RING_PTR.CQ_TAIL 0) + s.ringSize 0 - (0 + 1) % s.ringSize 0) % s.ringSize 0 * 32)) ∧
    (s.getF (Reg.HIF_RING_CFG.IRQ_EN 0) ≠ 0 ∧ (s.ring 0).unsignalled ≠ 0) ∧ up.getF (Reg.HIF_RING_CFG.IRQ_EN 0) = 0 :=
  ⟨hubOf _ (by decide), canonOf _ (by decide), by and_intros <;> decide⟩

/-- The last page of the window in range, one page too many, and jobs under way. -/
theorem test_hyps_BiasAndAperture :
    let q := reqOf 0 [word [(0, 0x20)], word [(0, 4194303)]]
    let p := reqOf 0 [word [(0, 0x20)], word [(0, 4194303), (32, 1)]]
    let a := reqOf 0 [word [(0, 0x21)], 0]
    let j : RangeJob := ⟨q, 0, 1, true, []⟩
    let s := asked up q
    s.hubUp ∧ s.nextReq 0 0x20 = some q ∧ ¬ (4194304 < wbits (q.word 1) 0 22 + (wbits (q.word 1) 32 22 + 1)) ∧
    ((asked up p).nextReq 0 0x20 = some p ∧ 4194304 < wbits (p.word 1) 0 22 + (wbits (p.word 1) 32 22 + 1)) ∧
    (asked up a).nextReq 0 0x21 = some a ∧ ({ up with biasJobs := [j] } : State).biasJobs = j :: [] ∧
    (({ up with aptJobs := [j] } : State).aptJobs = j :: [] ∧ up.aptInFlight.any j.has = false ∧
      ({ up with rafts := [(0, { Raft.fresh with down := [⟨none, [⟨3, 0, 4⟩], [0, 0, 0, 0], none, false, 0⟩] })] } : State).aptInFlight.any j.has = true) :=
  ⟨hubOf _ (by decide), by and_intros <;> decide⟩

theorem test_hyps_WindowAndCoherence :
    up.coreUp ∧ up.Canon ∧ (bitsOf (2 : W32).toNat 1 1 ≠ up.getF Reg.HIF_CTRL.COH_MODE ∧ bitsOf (1 : W32).toNat 1 1 = up.getF Reg.HIF_CTRL.COH_MODE ∧
      up.getF Reg.CRS_CTRL.ENABLE = 0 ∧ up.anyRing = false) ∧
    (upWith [(Reg.CRS_CTRL.ENABLE, 1)]).getF Reg.CRS_CTRL.ENABLE ≠ 0 ∧ bitsOf (944 : W64).toNat 0 10 + 16 ≤ up.hbmCap / 2 ^ 30 ∧
    up.hbmCap / 2 ^ 30 < bitsOf (945 : W64).toNat 0 10 + 16 ∧
    (let s := upWith [(Reg.HIF_STATUS.LINK_UP, 1)]
     let off := 16 * 2 ^ 30 - 64
     off % 64 = 0 ∧ off + 64 ≤ 16 * 2 ^ 30 ∧ s.getF Reg.HIF_STATUS.LINK_UP ≠ 0 ∧ s.hdmBase * 2 ^ 30 + off + 64 ≤ s.hbmCap ∧
      s.sectorState ((s.hdmBase * 2 ^ 30 + off) / 64) = .clean ∧ s.pageShared (off / 4096) = false ∧ s.hdmDb = false) ∧
    (up.getF Reg.HIF_CTRL.COH_MODE = 0 ∧ (upWith [(Reg.HIF_CTRL.COH_MODE, 1)]).getF Reg.HIF_CTRL.COH_MODE ≠ 0) ∧
    (∀ x ∈ [(⟨5, List.replicate 64 (some (0, false))⟩ : HostLine)], x.line = 5 → ∀ y ∈ x.data, ∀ b : Byte, y ≠ some (b, true)) :=
  ⟨up_core, up_canon, by decide +kernel, by decide, by decide +kernel, by decide +kernel, by decide +kernel, by decide, by simp⟩

/-- QUIESCE of port 31 (target 0x5F) and of a target that does not exist. -/
theorem test_hyps_QuiesceSteps :
    let q := reqOf 0 [word [(0, 0x22)], word [(0, 0x5F)]]
    let d := reqOf 0 [word [(0, 0x22)], word [(0, 0x5F), (8, 1)]]
    let p := reqOf 0 [word [(0, 0x22)], word [(0, 0x5F), (8, 2)]]
    let s := asked up q
    let f := up.setTarget (funcTarget 3) { Target.fresh with queue := [(none, 1, true)] }
    s.hubUp ∧ s.nextReq 0 0x22 = some q ∧ wbits (q.word 1) 8 2 = 0 ∧
    ((asked up d).nextReq 0 0x22 = some d ∧ wbits (d.word 1) 8 2 = 1) ∧ ((asked up p).nextReq 0 0x22 = some p ∧ wbits (p.word 1) 8 2 = 2) ∧
    targetDefined 0x60 = false ∧
    (targetDefined (wbits (p.word 1) 0 8) = true ∧ (s.target (wbits (p.word 1) 0 8)).queue = [] ∧ SMap.rising s.targets = true ∧
      s.targetInUse (wbits (p.word 1) 0 8) = false ∧ s.getF Reg.HIF_QUI_DRAIN.DRAIN_US ≠ 0) ∧
    (upWith [(Reg.HIF_QUI_DRAIN.DRAIN_US, 0)]).getF Reg.HIF_QUI_DRAIN.DRAIN_US = 0 ∧
    ((up.setTarget 0x5F { Target.fresh with queue := [(some q, 0, true)] }).target 0x5F).queue = [(some q, 0, true)] ∧
    ((f.target (funcTarget 3)).queue = [(none, 1, true)] ∧ SMap.rising f.targets = true ∧ f.Canon) ∧
    (3 ∉ up.heldTags 0x31) ∧ (3 ∉ Target.fresh.dead ∧ 3 ∈ (up.setTarget 0x31 { Target.fresh with tags := [3] }).heldTags 0x31) :=
  ⟨hubOf _ (by decide), by decide, by decide, by decide, by decide, by decide, by and_intros <;> decide, by decide, by decide,
    ⟨by decide, by decide, canonOf _ (by decide)⟩, by and_intros <;> decide⟩

theorem test_hyps_FunctionPower :
    let s := upWith [(Reg.HIF_FUNC_EN.EN, 8)]
    s.hubUp ∧ s.Canon ∧ 3 < 4 ∧ SMap.rising s.targets = true ∧ (s.target (funcTarget 3)).queue = [] ∧ s.getF Reg.HIF_QUI_DRAIN.DRAIN_US ≠ 0 ∧
    s.getF Reg.HIF_FUNC_EN.EN < 16 ∧ s.getF Reg.HIF_FUNC_BUSY.BUSY = 0 ∧
    ((∀ j < 4, j ≠ 3 → (0 : W32).toNat.testBit j = (s.getF Reg.HIF_FUNC_EN.EN).testBit j) ∧ (s.getF Reg.HIF_FUNC_EN.EN).testBit 3 = true ∧
      (0 : W32).toNat.testBit 3 = false) ∧
    ((∀ j < 4, j ≠ 0 → (9 : W32).toNat.testBit j = (s.getF Reg.HIF_FUNC_EN.EN).testBit j) ∧ (s.getF Reg.HIF_FUNC_EN.EN).testBit 0 = false ∧
      (9 : W32).toNat.testBit 0 = true) :=
  ⟨hubOf _ (by decide), canonOf _ (by decide), by and_intros <;> decide⟩

theorem test_hyps_LossOfTheHost :
    let s := upWith [(Reg.HIF_STATUS.LINK_UP, 1)]
    up.hubUp ∧ up.Canon ∧ bestLink ⟨true, true, true, true, true⟩ = some (2, 16) ∧ bestLink ⟨false, false, true, true, true⟩ = none ∧
    s.getF Reg.HIF_STATUS.LINK_UP ≠ 0 ∧ (up.getF Reg.HIF_STATUS.HOST_LOST = 0 ∧ up.selfReset = false ∧ up.boot.reading ≠ some 2) ∧
    ({ up with l0Left := some 0 } : State).l0Left ≠ none ∧ ({ up with selfReset := true } : State).selfReset = true ∧
    ((upWith [(Reg.HIF_STATUS.HOST_LOST, 1), (Reg.HIF_LINK.WIDTH, 16)]).getF Reg.HIF_STATUS.HOST_LOST ≠ 0 ∧
      (upWith [(Reg.HIF_STATUS.HOST_LOST, 1), (Reg.HIF_LINK.WIDTH, 16)]).getF Reg.HIF_LINK.WIDTH ≠ 0) ∧
    ((1 : W32).getLsbD 0 = true ∧ ({ up with suspended := true } : State).suspended = true ∧ up.selfReset = false) :=
  ⟨up_hub, up_canon, by and_intros <;> decide⟩

/-- A course whose rafter 0 has its first four 4 KiB blocks written. -/
def stocked : State := { run with rsWritten := [0, 1, 2, 3] }

/-- NOP, END and a reserved opcode may issue; a signal at 0xFFFF, a reserved bit set, and a wait that is not met. -/
theorem test_hyps_RafterProgramsSignalWaitAndEnd :
    run.coreUp ∧ run.mayIssue 0 0 0 = some crs0 ∧ (wellFormedWords 0x00 0 0 = true ∧ sigEn 0 = false) ∧
    (let w := word [(13, 1)]
     run.mayIssue 0 w 0 = some crs0 ∧ wellFormedWords 0x00 w 0 = true ∧ sigEn w = true ∧ run.event 0 (sigEv w) < 0xFFFF ∧
      (run.setEvent 0 0 0xFFFF).event 0 (sigEv w) = 0xFFFF ∧ (run.setEvent 0 0 0xFFFF).mayIssue 0 w 0 = some crs0) ∧
    wellFormedWords 0x00 (word [(34, 1)]) 0 = false ∧
    (let w := word [(0, 1)]
     let s := run.setRaft 0 { Raft.fresh with seg := some ⟨0, 0, 0, 0, [(w, 0)]⟩ }
     run.mayIssue 0 w 0 = some crs0 ∧ opcodeOf w = 0x01 ∧ wellFormedWords 0x01 w 0 = true ∧ (run.raft 0).seg = none ∧
      s.mayIssue 0 w 0 = some crs0 ∧ (s.raft 0).seg ≠ none) ∧
    reservedOf (opcodeOf (word [(0, 0xFF)])) = none ∧
    (waitEn (word [(12, 1), (18, 1)]) = true ∧ run.event 0 (waitEv (word [(12, 1), (18, 1)])) < waitVal (word [(12, 1), (18, 1)])) :=
  ⟨run_core, by and_intros <;> decide⟩

/-- A block of 32 rows of 4 columns in FP32, and one row too many. -/
theorem test_hyps_BlockLoad :
    let w0 := word [(0, 0x10), (43, 31), (53, 3)]
    let w1 := word [(19, 1)]
    stocked.coreUp ∧ stocked.mayIssue 0 w0 w1 = some crs0 ∧ opcodeOf w0 = 0x10 ∧ wellFormedWords 0x10 w0 w1 = true ∧ (stocked.raft 0).ahead = [] ∧
    wbits w0 37 3 < 5 ∧ wbits w0 37 3 ≠ 2 ∧ broken (ldbCodes (wbits w0 37 3) 0 0 32) = [] ∧ wbits w1 19 19 * 64 ≠ 0 ∧ sigEn w0 = false ∧
    broken (stocked.rangeCodes 0 ((List.range 32).map fun j => (0 + j * 64, rowBytes 0 4))) = [] ∧ 512 < 512 + 1 ∧
    (let v := word [(0, 0x10), (37, 2), (43, 31), (53, 3)]
     stocked.mayIssue 0 v w1 = some crs0 ∧ wellFormedWords 0x10 v w1 = true ∧ wbits v 37 3 = 2 ∧ wbits v 40 1 = 0 ∧ wbits v 41 2 = 0 ∧
      broken (stocked.rangeCodes 0 (((List.range 32).map fun k => (0 + (k + k / 32) * 64, rowBytes 2 4)) ++
        (List.range (ceilDiv 32 32)).map fun i => (0 + (min (32 * (i + 1)) 32 + i) * 64, 4))) = []) :=
  ⟨coreOf _ (by decide), by and_intros <;> decide⟩

/-- A block of 32 × 1 in the active buffer and one row of A. -/
def tiled : State := stocked.setRaft 0 { Raft.fresh with active := some ⟨0, 0, 32, 1, List.replicate 32 [0], []⟩ }

theorem test_hyps_TileProduct :
    let w0 := word [(0, 0x11), (48, 0), (56, 0)]
    let w1 := word [(19, 2)]
    tiled.coreUp ∧ tiled.Canon ∧ tiled.mayIssue 0 w0 w1 = some crs0 ∧ opcodeOf w0 = 0x11 ∧ wellFormedWords 0x11 w0 w1 = true ∧
    (tiled.raft 0).ahead = [] ∧ (tiled.raft 0).block = some ⟨0, 0, 32, 1, List.replicate 32 [0], []⟩ ∧ (mmFields w0 w1).fa < 5 ∧
    (mmFields w0 w1).fa ≠ 2 ∧ (mmFields w0 w1).stat = 0 ∧ (mmFields w0 w1).pitch ≠ 0 ∧ sigEn w0 = false ∧ tiled.inj = none ∧
    broken (tiled.mmCodes 0 (mmFields w0 w1) (some ⟨0, 0, 32, 1, List.replicate 32 [0], []⟩)) = [] ∧ (tiled.raft 0).seg = none ∧
    broken (tiled.rangeCodes 0 ((List.range (mmFields w0 w1).m).map fun j => ((mmFields w0 w1).a + j * (mmFields w0 w1).pitch, rowBytes 0 32))) = [] :=
  ⟨coreOf _ (by decide), canonOf _ (by decide), by and_intros <;> decide⟩

/-- A kernel of the instruction `w` and an END, with sheaf 0 resident on rafter 0. -/
def kern (w : W64) : Kernel := ⟨false, 0, 0, [w, 1], List.replicate 256 0, List.range 16, 0, [], 0, []⟩
def sheaf0 : Sheaf := ⟨0, 0, List.replicate 64 (List.replicate 16 0), List.replicate 64 true, [], []⟩
def threads (w : W64) : State := run.setRaft 0 { Raft.fresh with kernel := some (kern w), sheafs := [sheaf0] }

/-- The thread opcodes that statements name. -/
def thOps : List Nat :=
  [0x00, 0x01, 0x02, 0x03, 0x04, 0x05, 0x06, 0x07, 0x10, 0x11, 0x12, 0x13, 0x14, 0x15, 0x16, 0x17, 0x18, 0x19, 0x20, 0x21, 0x22, 0x23, 0x24,
   0x30, 0x31, 0x32, 0x33, 0x34, 0x35, 0x36, 0x37, 0x38, 0x39, 0x3A, 0x3B, 0x40, 0x41, 0x48, 0x49, 0x4A, 0x4B, 0x50, 0x58, 0x59, 0x60, 0x61]

/-- Each thread instruction runs somewhere: the hypotheses of the statements about sheafs. -/
theorem test_hyps_ThreadRuns : ∀ op ∈ thOps, (threads (word [(0, op)])).ThreadRuns 0 0 op (word [(0, op)]) (kern (word [(0, op)])) sheaf0 := by
  have h : ∀ op ∈ thOps, (threads (word [(0, op)])).threadAt 0 0 op (word [(0, op)]) = some (crs0, kern (word [(0, op)]), sheaf0) ∧
      broken (thCodes (regsOf 0) op (word [(0, op)])) = [] ∧ (threads (word [(0, op)])).power.hubRails = true ∧
      (threads (word [(0, op)])).power.coreRails = true ∧ (threads (word [(0, op)])).ready = true ∧
      SMap.rising (threads (word [(0, op)])).rafts = true ∧ (threads (word [(0, op)])).inj = none ∧
      (threads (word [(0, op)])).badStore = [] ∧ (threads (word [(0, op)])).badAcc = [] := by decide +kernel
  intro op hop
  obtain ⟨a, b, c, d, e, f, g, hs, ha⟩ := h op hop
  exact ⟨⟨c, d, e⟩, f, ⟨crs0, a⟩, b, (by decide +kernel : sheaf0.regs.length = 64 ∧ ∀ r ∈ sheaf0.regs, r.length = regsOf 0), by decide, g, hs, ha, rfl⟩

theorem test_hyps_ThreadPlace : sheaf0.pc + 1 < (kern 0).code.length ∧ (threads 0).working = some crs0 ∧ sheaf0.stack.length < 16 ∧
    (∃ t < 64, sheaf0.live t = true) ∧ (∀ t < 64, sheaf0.live t = true → sheaf0.reg t 0 = 0) ∧
    (∃ t < 64, ({ sheaf0 with active := List.replicate 64 false } : Sheaf).live t = false) ∧
    (threads 0).badTid crs0 0 = false ∧ thAddr 0 (sheaf0.reg 0 0) % 4 = 0 ∧ thAddr 0 (sheaf0.reg 0 0) ≤ 252 :=
  ⟨by decide, by decide, by decide, ⟨63, by decide, by decide⟩, by decide, ⟨0, by decide, by decide⟩, by and_intros <;> decide⟩

/-- R198, R193: the special values the statement's hypotheses name. -/
theorem test_hyps_ArithmeticSpecialValues : isNan 0x7FC00000 = true ∧ isNan 0x3F800000 = false ∧ isFin 0x3F800000 = true ∧
    isZero 0x3F800000 = false ∧ isInf 0xFF800000 = true ∧ isZero 0x80000000 = true ∧ isNan (bfWide 0x3F80) = false := by decide

/-- VX.KERNEL with its code at 0 and its parameters at 0x100; a sheaf to start; and a kernel whose sheaf has ended. -/
theorem test_hyps_KernelsRunTheirSheafs :
    let w0 := word [(0, 0x40)]
    let w1 := word [(30, 4)]
    stocked.coreUp ∧ SMap.rising stocked.rafts = true ∧ stocked.mayIssue 0 w0 w1 = some crs0 ∧ opcodeOf w0 = 0x40 ∧
    wellFormedWords 0x40 w0 w1 = true ∧ wbits w1 0 19 * 64 + 8 * (wbits w1 19 11 + 1) ≤ rsSize ∧ wbits w1 30 19 * 64 + 256 ≤ rsSize ∧
    stocked.rsOk 0 0 8 = true ∧ stocked.rsOk 0 256 256 = true ∧ paramOk (stocked.rsRead 0 256 256) = true ∧
    stocked.badTid crs0 (paramTidA (stocked.rsRead 0 256 256)) = false ∧ stocked.badTid crs0 (paramTidB (stocked.rsRead 0 256 256)) = false ∧
    (stocked.raft 0).ahead = [] ∧
    ((threads 0).raft 0).kernel = some (kern 0) ∧ (kern 0).nextG.length = 16 ∧ (kern 0).ended ≠ (kern 0).sheafs + 1 ∧
    ({ kern 0 with ended := 1 } : Kernel).ended = ({ kern 0 with ended := 1 } : Kernel).sheafs + 1 ∧ sigEn (kern 0).w0 = false :=
  ⟨coreOf _ (by decide), by and_intros <;> decide +kernel⟩

/-- An image command whose block of zeros breaks a rule, and one of its kind that may issue. -/
theorem test_hyps_ImageCommands : ∀ op ∈ [0x41, 0x42, 0x43, 0x44, 0x45],
    let w0 := word [(0, op)]
    stocked.inj = none ∧ SMap.rising stocked.rafts = true ∧ Memory.wf stocked.rstore = true ∧ stocked.mayIssue 0 w0 0 = some crs0 ∧
    sigEn w0 = false ∧ (stocked.raft 0).ahead = [] ∧ (stocked.raft 0).seg = none ∧ wbits (0 : W64) 0 19 * 64 + 128 ≤ rsSize ∧
    stocked.rsOk 0 0 128 = true ∧ opcodeOf w0 = op ∧ wellFormedWords op w0 0 = true := by decide +kernel

/-- AT.FWD and AT.BWD with a block and a batch of zeros. -/
theorem test_hyps_AttentionOverABatch : ∀ op ∈ [0x80, 0x81],
    let w0 := word [(0, op)]
    stocked.mayIssue 0 w0 0 = some crs0 ∧ (stocked.raft 0).ahead = [] ∧ SMap.rising stocked.rafts = true ∧
    stocked.rsOk 0 0 128 = true ∧ opcodeOf w0 = op ∧ wellFormedWords op w0 0 = true := by decide +kernel

/-- The cache as a descriptor of zeros configures it, with sequence 0 live and holding one token. -/
def conf0 : KvConf := kvConfOf (List.replicate 128 0)
def cached : State :=
  { stocked with kv := ⟨some conf0, [(0, ⟨.live, 1, 1, false, 1⟩), (2, ⟨.pendingReclaim, 0, 0, false, 0⟩)], 1, [], [(.seq 2, 5)], 0⟩ }

/-- Not configured; configured anew; a list of one entry; live, free and pending sequences; AT.DEC of one row; a walker; a rollback. -/
theorem test_hyps_RolloutCache :
    (∀ op ∈ [0x82, 0x83, 0x84, 0x85], stocked.mayIssue 0 (word [(0, op)]) 0 = some crs0 ∧ wellFormedWords op (word [(0, op)]) 0 = true ∧
      cached.mayIssue 0 (word [(0, op)]) 0 = some crs0) ∧ SMap.rising stocked.rafts = true ∧ SMap.rising cached.kv.seqs = true ∧
    stocked.kv.conf = none ∧ kvConfOf (stocked.rsRead 0 0 128) = conf0 ∧ kvConfReserved (stocked.rsRead 0 0 128) = true ∧
    conf0.poolBase % 4096 = 0 ∧ conf0.dcode ≠ 3 ∧ conf0.fmt = 0 ∧ stocked.badTid crs0 conf0.tidK = false ∧ stocked.kvPast conf0 = false ∧
    (cached.kv.seqs.any fun x => decide (x.2.st ≠ .free)) = true ∧ cached.kvWord 0 0 = 0 ∧
    kvBlockOk (cached.rsRead 0 0 128) 0 = true ∧ inStore (kvRes true 0, kvCount true 0) = true ∧
    broken (cached.rangeCodes 0 [(kvList 0, 8 * kvCount true 0)]) = [] ∧
    (∀ e ∈ cached.kvEntries true 0 0, (kvEditOf e).op < 5 ∧ (kvEditOf e).reserved = true) ∧ kvLayer 0 < conf0.layers ∧
    (∀ e ∈ cached.kvEntries false 0 0, (kvAppOf e).reserved = true ∧ broken (cached.rangeCodes 0
      [((kvAppOf e).src, (kvAppOf e).n * conf0.tokBytes), (conf0.valSrc (kvAppOf e), (kvAppOf e).n * conf0.tokBytes)]) = []) ∧
    (cached.kvSeq 0).st = .live ∧ (cached.kvSeq 4095).st = .free ∧ (cached.kvSeq 2).st = .pendingReclaim ∧ cached.kvLog < 65536 ∧
    (cached.kvSeq 0).nb * 128 < (cached.kvSeq 0).len + 128 ∧ (cached.kvSeq 0).len + 127 ≤ (cached.kvSeq 0).nb * 128 ∧
    broken (cached.decCodes crs0 (decBlock (List.replicate 128 0)) ++ cached.decListCodes [decEntry 0]) = [] ∧
    ((0 : Nat) / 128 < (cached.kvSeq 0).nb ∧ cached.kvRef conf0 (cached.kvPage conf0 0 0 (0 / 128)) ≤ 1 ∧ (cached.kvSeq 0).wp = false) ∧
    ((cached.setRaft 0 { Raft.fresh with walker := some (0, [0], 0) }).raft 0).walker = some (0, [0], 0) ∧
    (upWith [(Reg.CRS_KV_STAT.ROLLBACK, 1)]).getF Reg.CRS_KV_STAT.ROLLBACK ≠ 0 := by decide +kernel

theorem test_hyps_RegisterAccessesOutsideTheMap : up.coreUp ∧ 0x000FC % 4 = 0 ∧ rawArea 0x000FC = false ∧ findReg 0x000FC = none ∧
    (meetsReg 0x000FC 4 = false ∧ meetsReg 0x1001C 4 = true ∧ findReg 0x1001C = none) ∧ (2 ≠ 4 ∧ 2 ≠ 8) ∧ 0x10006 % 4 ≠ 0 ∧
    (1023 < 1024 ∧ 0x1010 % 8 = 0 ∧ 16 ≤ 0x1010 % 0x1000) := ⟨up_core, by and_intros <;> decide +kernel⟩

/-- Samples at the edges of R338's rows, a corrected and a poisoned sector, a channel under retraining with and without a spare, and a
migration at its first and at its last granule. -/
theorem test_hyps_HbmTemperatureScrubAndRetraining :
    let s : State := { upWith [(Reg.MEM_SCRUB.EN 0, 1), (Reg.MEM_TEMP.REFRESH 19, 2), (Reg.MEM_TEMP.THROTTLE 19, 1)] with symErr := [(0, 1)] }
    let r : State := { upWith [(Reg.MEM_PCH_STAT.STATE 0 3, 4), (Reg.MEM_PCH_STAT.LOGICAL 0 3, 3)] with retraining := [3] }
    let m : State := { upWith [(Reg.MEM_LCH_MIG.TOTAL 0 3, 2)] with migs := [⟨0, 3, 3, some 32, 0, false⟩] }
    19 < 20 ∧ s.dramRowOf 19 = 3 ∧ dramRow 105 = 3 ∧ dramRow 104 = 2 ∧ dramLow 3 < 104 + 3 ∧ dramRow 102 = 2 ∧ 102 + 3 ≤ dramLow 3 ∧
    (stackOf (s.placeOf 0).1 = 0 ∧ s.getF (Reg.MEM_SCRUB.EN 0) ≠ 0 ∧ s.sectorState 0 = .corrected) ∧
    (upWith [(Reg.MEM_SCRUB.EN 0, 0)]).getF (Reg.MEM_SCRUB.EN 0) = 0 ∧ up.sectorState 0 = .clean ∧
    (({ s with symErr := [(0, 4)] } : State).sectorState 0 = .bad ∧ s.poison.contains 0 = false) ∧
    ((word [(19, 1)]).toNat.testBit 19 = true ∧ (0 : W32).toNat.testBit 19 = false) ∧
    (r.getF (Reg.MEM_PCH_STAT.LOGICAL 0 3) = 3 ∧ r.getF (Reg.MEM_PCH_STAT.STATE 0 3) = 4 ∧ r.migOf 0 3 = none ∧
      r.retraining.contains (34 * 0 + 3) = true ∧ ({ r with retraining := [] } : State).retraining.contains 3 = false ∧
      r.freeChannel 0 = some 32 ∧ (r.setFs [(Reg.MEM_PCH_STAT.STATE 0 32, 3), (Reg.MEM_PCH_STAT.STATE 0 33, 3)]).freeChannel 0 = none ∧
      r.course = none ∧ 0 < r.getF Reg.GEN_SPARES.CHAN_FREE ∧ r.getF Reg.GEN_SPARES.CHAN_FREE < 64) ∧
    (let t : State := { r with retraining := [3, 5] }
     (∃ i ∈ t.retraining, i / 34 = 0 ∧ i ≠ 34 * 0 + 3) ∧ (∀ i ∈ r.retraining, i / 34 = 0 → i = 34 * 0 + 3) ∧ (∀ x ∈ r.retrained, x.1 / 34 ≠ 0)) ∧
    (m.migOf 0 3 = some ⟨0, 3, 3, some 32, 0, false⟩ ∧ m.getF (Reg.MEM_LCH_MIG.DONE 0 3) + 1 ≠ m.getF (Reg.MEM_LCH_MIG.TOTAL 0 3) ∧
      (m.setF (Reg.MEM_LCH_MIG.DONE 0 3) 1).getF (Reg.MEM_LCH_MIG.DONE 0 3) + 1 = 2 ∧
      (∀ q ∈ sectorsOf (m.migGranule ⟨0, 3, 3, some 32, 0, false⟩ 0 * 4096) 4096, m.sectorState q = .clean)) ∧
    ((1 : W64).toNat.testBit 0 = true ∧ up.getF Reg.CRS_CTRL.ENABLE = 0 ∧ up.getF (Reg.MEM_STAT.MIG 0) = 0 ∧
      (upWith [(Reg.CRS_CTRL.ENABLE, 1)]).getF Reg.CRS_CTRL.ENABLE ≠ 0 ∧ up.getF (Reg.MEM_LOOP.START 0) = 0 ∧
      (upWith [(Reg.MEM_LOOP.START 0, 1)]).getF (Reg.MEM_LOOP.START 0) ≠ 0) := by decide +kernel

/-- R309: a table of 37 one-symbol and unused lengths for E4M3, and one element at its largest value. -/
theorem test_hyps_ThatchIsLossless : thFmt 0 = true ∧ (List.replicate 37 6).length = thZ 0 + 5 ∧ (∀ l ∈ List.replicate 37 6, l ≤ 15) ∧
    tableOk (List.replicate 37 6) = true ∧ 1 ≤ [255].length ∧ [255].length ≤ 256 ∧ (∀ x ∈ [255], x < 2 ^ fmtBits 0) := by decide +kernel

/-- Rafter stores of rafter 0 with a thatch descriptor of one row of 64 elements at 0, and a final tile of one element. -/
def streamed : State :=
  ({ stocked with rstore := [(1, 63), (8, 10)] } : State).setRaft 0 { Raft.fresh with slots := [(0, some ⟨0, 1, 1, 0, true⟩)] }

theorem test_hyps_StreamerMovesBytes :
    let ld := word [(0, 0x20)]
    let lw := word [(36, 2)]
    let st := word [(0, 0x21)]
    let sc := word [(0, 0x21), (39, 1)]
    let dr := word [(0, 0x22)]
    streamed.coreUp ∧ streamed.Canon ∧ ([ld, st, sc, dr].all fun w => streamed.mayIssue 0 w lw = some crs0 && !sigEn w &&
      wellFormedWords (opcodeOf w) w lw && (stFields w lw).cls = 0 && (stFields w lw).tier = 2) = true ∧ (streamed.raft 0).ahead = [] ∧
    (streamed.raft 0).down = [] ∧ (streamed.raft 0).seg = none ∧ SMap.rising streamed.rafts = true ∧ streamed.inSave 2 0 = false ∧
    inStore (0, 64) = true ∧ streamed.farBad 2 0 64 = false ∧ streamed.pieces crs0 2 0 64 false = [⟨2, 0, 64⟩] ∧
    streamed.pieces crs0 2 0 64 true = [⟨2, 0, 64⟩] ∧ (∀ q ∈ sectorsOf 0 64, streamed.sectorState q = .clean) ∧
    (streamed.pieces crs0 3 0x1000000000 64 false = [⟨3, 0x1000000000, 64⟩] ∧ streamed.weightSource 3 0x1000000000 64 = none) ∧
    streamed.rsOk 0 64 64 = true ∧ broken (streamed.compCodes 0 (stFields sc lw) (thDesc (streamed.rsRead 0 0 64))) = [] ∧
    (64 ≤ streamed.hbmCap ∧ streamed.pieces crs0 2 0 64 true ≠ [] ∧ streamed.farBad 2 0 (worstSize 4 1 1) = false ∧
      streamed.farBad 2 0 (1 * drainPitch 1) = false) ∧
    streamed.tile 0 0 = some ⟨0, 1, 1, 0, true⟩ ∧ streamed.tile 0 1 = none ∧ (0 : Nat) ≠ wbits (word [(45, 1)]) 45 2 := by
  refine ⟨coreOf _ (by decide), canonOf _ (by decide), ?_⟩
  decide +kernel

/-- A downpipe store and a run-ahead load may issue; accesses in flight, one of them failing; a program fetch in range and past the end. -/
theorem test_hyps_PostedAccessesAndSplices :
    let st := word [(0, 0x21), (37, 1)]
    let ra := word [(0, 0x20), (37, 2)]
    let d : Downpipe := ⟨none, [⟨3, 0, 64⟩], List.replicate 64 0, none, false, 0⟩
    let l : RunAhead := ⟨none, 0, 64, [⟨2, 0, 64⟩], false, none, false, false, false, none, false, 0⟩
    let s := stocked.setRaft 0 { Raft.fresh with down := [d] }
    let t := stocked.setRaft 0 { Raft.fresh with ahead := [l] }
    stocked.inj = none ∧ stocked.working = some crs0 ∧ SMap.rising stocked.rafts = true ∧ stocked.mayIssue 0 st (word [(36, 3), (28, 1)]) = some crs0 ∧
    (stFields st (word [(36, 3), (28, 1)])).cls = 1 ∧ (stFields st (word [(36, 3), (28, 1)])).comp = false ∧
    wellFormedWords 0x21 st (word [(36, 3), (28, 1)]) = true ∧ stocked.farBad 3 (2 ^ 34) 64 = false ∧
    stocked.pieces crs0 3 (2 ^ 34) 64 true = [⟨3, 2 ^ 34, 64⟩] ∧ stocked.mayIssue 0 ra (word [(36, 2)]) = some crs0 ∧
    (stFields ra (word [(36, 2)])).cls = 2 ∧ wellFormedWords 0x20 ra (word [(36, 2)]) = true ∧
    (s.raft 0).down = d :: [] ∧ (t.raft 0).ahead = [l] ∧ l.ended = false ∧ l.normal = false ∧ (∀ q ∈ sectorsOf 0 64, t.sectorState q = .clean) ∧
    (let g : Segment := ⟨0, 0x1000, 1, 0, []⟩
     endsInEnd g.buf = false ∧ g.buf.length ≤ g.len ∧ ¬ (stocked.hbmCap < g.addr + 16) ∧
      ((stocked.setRaft 0 { Raft.fresh with seg := some g }).raft 0).seg = some g ∧ stocked.hbmCap < stocked.hbmCap + 16) ∧
    crs0.running.contains 0 = true ∧ (stocked.raft 0).buf = [] ∧ (stocked.raft 0).bufBase = (stocked.raft 0).pc ∧
    stocked.progOf crs0.img 0 + 16 * (stocked.raft 0).pc + 16 ≤ stocked.hbmCap ∧
    stocked.hbmCap < 2 ^ 40 + 16 := by decide +kernel

/-- A decode request whose table of zeros is refused, an encode request, and jobs under way. -/
theorem test_hyps_MediaJobs :
    let q := reqOf 0 [word [(0, 0x10)], 0]
    let e := reqOf 0 [word [(0, 0x10)], word [(48, 1)]]
    let s := asked up q
    let j : MJob := ⟨q, false, 0, 0, [], false, 0, [], []⟩
    let g : MJob := ⟨e, true, 0, 0, [], false, 0, [], []⟩
    let t : State := { up with jobs := [j] }
    let u : State := { up with jobs := [g] }
    SMap.rising s.rings = true ∧ s.inj = none ∧ s.nextReq 0 0x10 = some q ∧ wbits (q.word 1) 48 4 = 0 ∧ s.mediaGate false = none ∧
    q.jobAddr + (64 + 128 * (s.decJob q.jobAddr).streams) ≤ s.hbmCap ∧
    (∀ x ∈ sectorsOf q.jobAddr (64 + 128 * (s.decJob q.jobAddr).streams), s.sectorState x = .clean) ∧
    bitsOf (s.tabW q.jobAddr 0) 0 16 ≠ 0xDEC1 ∧ s.getF Reg.MED_ERR.VALID = 0 ∧ s.jobOf 0 false = none ∧
    (asked up e).nextReq 0 0x10 = some e ∧ wbits (e.word 1) 48 4 = 1 ∧ (asked up e).mediaGate true = none ∧
    (t.jobOf 0 false = some j ∧ j.retried = false ∧ (t.getF (Reg.MED_PIPE_STAT.STATE 23) = 0 ∧ j.committed ≤ 0 ∧ t.mergeAt = none ∧
      (t.getF Reg.FLT_FATAL.FATAL).testBit 34 = false)) ∧
    (u.jobOf 0 true = some g ∧ g.retried = false ∧ u.getF (Reg.MED_ENC_STAT.STATE 0) = 0 ∧ g.faults 0 < 2) := by decide +kernel

/-! ### Links and timetables -/

/-- A flit of lane 0 whose CRC is right, with this payload and these low 32 bits of its trailer. -/
def flitOf (pl : List Byte) (low : Nat) : RxFlit := ⟨0, 0, true, pl, BitVec.ofNat 64 (low + 2 ^ 32 * crc32 (pl ++ leBytes 4 low))⟩
def goodFlit (b low : Nat) : RxFlit := flitOf (BitVec.ofNat 8 b :: List.replicate 199 0) low

/-- A down port, one in bring-up whose lanes are good or half of them lost, one whose HELLO is done, and an up one, before and in a course. -/
theorem test_hyps_LinkBringUpAndLoss :
    let u := upWith [(Reg.LNK_STAT.UP 31, 1), (Reg.LNK_CTRL.EN 31, 1)]
    let b := up.setPort 31 { Port.fresh with step := 1 }
    let l := up.setPort 31 { Port.fresh with step := 1, failed := List.range 12 }
    let h := up.setPort 31 { Port.fresh with step := 6 }
    let d := up.setPort 31 { Port.fresh with step := 7, mapDue := true }
    SMap.rising up.ports = true ∧ SMap.rising b.ports = true ∧ (1 : W32).toNat % 2 = 1 ∧ (2 : W32).toNat % 2 = 0 ∧
    up.getF (Reg.LNK_STAT.UP 31) = 0 ∧ (up.port 31).step = 0 ∧ (up.target (0x40 + 31)).gate = .opened ∧ u.getF (Reg.LNK_STAT.UP 31) ≠ 0 ∧
    u.getF (Reg.LNK_CTRL.EN 31) ≠ 0 ∧ (b.port 31).step ≠ 0 ∧ (b.port 31).step < 7 ∧ (b.port 31).step = 1 ∧
    8 ≤ b.lanesTrained 31 ∧ l.lanesTrained 31 < 8 ∧ (l.port 31).failed = List.range 12 ∧ (h.port 31).step = 6 ∧
    ((d.port 31).step = 7 ∧ (d.port 31).mapDue = true ∧ d.power.fatal = none) ∧
    h.getF Reg.CRS_CTRL.ENABLE = 0 ∧ (h.setF Reg.CRS_CTRL.ENABLE 1).getF Reg.CRS_CTRL.ENABLE ≠ 0 ∧
    ({ u with course := some crs0 } : State).course = some crs0 ∧ crs0.failed = false ∧ u.mergeAt = none := by decide +kernel

theorem crc32_lt (bs : List Byte) : crc32 bs < 2 ^ 32 := (BitVec.isLt _)

/-- Such a flit is good, of the FTYPE, FSEQ, ACK and NAK its trailer's low bits say. -/
theorem flitOf_good (pl : List Byte) (low : Nat) (hp : pl.length = 200) (h : low < 2 ^ 32) (ft : ([4, 6, 7].contains (low / 2 ^ 25 % 8)) = false) :
    rxGood (flitOf pl low) = true ∧ rxFtype (flitOf pl low) = low / 2 ^ 25 % 8 ∧ rxFseq (flitOf pl low) = low % 2 ^ 12 ∧
    rxAck (flitOf pl low) = low / 2 ^ 12 % 2 ^ 12 ∧ rxNak (flitOf pl low) = decide (low / 2 ^ 24 % 2 = 1) := by
  have hc := crc32_lt (pl ++ leBytes 4 low)
  have hn : (BitVec.ofNat 64 (low + 2 ^ 32 * crc32 (pl ++ leBytes 4 low))).toNat = low + 2 ^ 32 * crc32 (pl ++ leBytes 4 low) := by
    simp only [BitVec.toNat_ofNat]; omega
  have hl : leBytes 4 (low + 2 ^ 32 * crc32 (pl ++ leBytes 4 low)) = leBytes 4 low := by
    have e : ∀ x y : Nat, x % 256 = y % 256 → BitVec.ofNat 8 x = BitVec.ofNat 8 y := fun x y h => by
      apply BitVec.eq_of_toNat_eq; simpa using h
    generalize crc32 _ = c
    simp only [leBytes]
    rw [e (low + 2 ^ 32 * c) low (by omega), e ((low + 2 ^ 32 * c) / 256) (low / 256) (by omega),
      e ((low + 2 ^ 32 * c) / 256 / 256) (low / 256 / 256) (by omega), e ((low + 2 ^ 32 * c) / 256 / 256 / 256) (low / 256 / 256 / 256) (by omega)]
  simp only [rxGood, rxFtype, rxFseq, rxAck, rxNak, flitOf, wbits, bitsOf, Nat.shiftRight_eq_div_pow, hn, hl, hp]
  generalize crc32 _ = c at hc ⊢
  have h5 : (low + 2 ^ 32 * c) / 2 ^ 25 % 2 ^ 3 = low / 2 ^ 25 % 8 := by omega
  have h6 : (low + 2 ^ 32 * c) / 2 ^ 32 % 2 ^ 32 = c := by omega
  have h7 : (low + 2 ^ 32 * c) / 2 ^ 0 % 2 ^ 12 = low % 2 ^ 12 := by omega
  have h8 : (low + 2 ^ 32 * c) / 2 ^ 12 % 2 ^ 12 = low / 2 ^ 12 % 2 ^ 12 := by omega
  have h9 : (low + 2 ^ 32 * c) / 2 ^ 24 % 2 ^ 1 = low / 2 ^ 24 % 2 := by omega
  rw [h5, h6, h7, h8, h9, ft]
  simp

/-- Two good idle flits of FSEQ 0, without NAK and with. -/
theorem test_hyps_FlitsRepairsAndNotices_good :
    (rxGood (goodFlit 5 (5 * 2 ^ 25)) = true ∧ rxFtype (goodFlit 5 (5 * 2 ^ 25)) = 5 ∧ rxFseq (goodFlit 5 (5 * 2 ^ 25)) = 0 ∧
      rxNak (goodFlit 5 (5 * 2 ^ 25)) = false) ∧
    (rxGood (goodFlit 6 (5 * 2 ^ 25 + 2 ^ 24)) = true ∧ rxFtype (goodFlit 6 (5 * 2 ^ 25 + 2 ^ 24)) = 5 ∧
      rxFseq (goodFlit 6 (5 * 2 ^ 25 + 2 ^ 24)) = 0 ∧ rxNak (goodFlit 6 (5 * 2 ^ 25 + 2 ^ 24)) = true) := by
  have a := flitOf_good (BitVec.ofNat 8 5 :: List.replicate 199 0) (5 * 2 ^ 25) (by simp only [List.length_cons, List.length_replicate]) (by decide) (by decide)
  have b := flitOf_good (BitVec.ofNat 8 6 :: List.replicate 199 0) (5 * 2 ^ 25 + 2 ^ 24) (by simp only [List.length_cons, List.length_replicate]) (by decide) (by decide)
  exact ⟨⟨a.1, a.2.1, a.2.2.1, a.2.2.2.2⟩, ⟨b.1, b.2.1, b.2.2.1, b.2.2.2.2⟩⟩

/-- An up port; a bad flit; a flit to replay; a lane map exchanged; a repair under way; a course with a timetable of
identity 0; one exposed page. -/
theorem test_hyps_FlitsRepairsAndNotices :
    let u := upWith [(Reg.LNK_STAT.UP 31, 1), (Reg.CRS_LNK_EXPLEN.PAGES, 1)]
    let bad : RxFlit := ⟨17, 3, true, [], 0⟩
    let r := u.setPort 31 { Port.fresh with replay := [(⟨0, 0, 0, 0, false, true, []⟩, 6)], sent := some (1, 9), recv := some (1, 9), step := 8 }
    let c := { crs0 with img := { img0 with ttIdx := 0 } }
    SMap.rising u.ports = true ∧ SMap.rising r.ports = true ∧ u.inj = none ∧ u.getF (Reg.LNK_STAT.UP 31) ≠ 0 ∧ bad.lane < 18 ∧
    bad.codeword = true ∧ rxGood bad = false ∧ (r.port 31).wait = [] ∧ (r.port 31).replay.length < 2048 ∧ ((u.port 31).rxSeq + 1) % 4096 = 0 ∧ ((r.port 31).rxSeq + 1) % 4096 = 0 ∧
    ((acked 0 (r.port 31).replay).all fun e => decide (e.2 + 1 < 8)) = true ∧ (r.port 31).sent ≠ none ∧ (u.port 31).sent = none ∧
    (r.port 31).sent.map Prod.snd = some 9 ∧ (r.port 31).recv.map Prod.snd = some 9 ∧ (u.port 31).step ≠ 8 ∧ (r.port 31).step = 8 ∧
    c.failed = false ∧ c.img.hasTt = true ∧ u.ttId c.img.ttIdx = 0 ∧ c.counter % 2 ^ 32 = 7 ∧ crs0.img.hasTt = false ∧
    u.exposed 4095 1 = true ∧ (∀ q ∈ sectorsOf 4095 1, u.sectorState q = .clean) ∧ u.exposed 4096 1 = false := by decide +kernel

/-- A timetable at 0x40: a send of 64 bytes, a dispatched send, a receive of 64 bytes and a reduction of FP32; one dispatch of two experts
over two modules. -/
def ttBytes : Memory :=
  [(0, 0x40), (0x40, 3 * 2 ^ 16), (0x48, 2 ^ 40), (0x50, 0x400), (0x58, 0x500), (0x400, 4 * 2 ^ 12),
   (0x80, 25000), (0x90, 264), (0x98, 0x2000 + 2 * 2 ^ 48), (0xC0, 25000 + 3 * 2 ^ 50), (0x100, 25000 + 2 ^ 49), (0x110, 264),
   (0x118, 0x3000 + 2 * 2 ^ 48), (0x140, 25000 + 2 ^ 49 + 2 ^ 50), (0x150, 204), (0x158, 0x3000 + 2 * 2 ^ 48), (0x160, 2 ^ 8),
   (0x500, 1 + 2 ^ 12), (0x520, 0x4000), (0x530, 0x8000)].foldl (fun m x => m.write x.1 (leBytes 8 x.2)) []
def ttCrs : Course :=
  { crs0 with img := { img0 with ttIdx := 0 }, slots := List.replicate 4 SlotSt.fresh, counts := [(0, 0, [1, 0]), (0, 1, [0, 1])] }
def ttRun : State := { upWith [(Reg.LNK_STAT.UP 0, 1)] with hbm := ttBytes, now := 30000, course := some ttCrs }
/-- Its course with entry `e` at `st`. -/
def ttWith (e : Nat) (st : SlotSt) : State := { ttRun with course := some { ttCrs with slots := ttCrs.slots.set e st } }

theorem test_hyps_TimetableSlots :
    let ttDone := ttWith 0 ⟨true, false, 0, true⟩
    let tx := (ttWith 0 ⟨true, false, 0, false⟩).setPort 0 { Port.fresh with tx := some 0 }
    let h := headerBytes 0 7 0 (ttRun.slotE 0 2) 64
    let one := { ttRun with course := some { ttCrs with counts := [(0, 0, [1, 0])] } }
    let all := { ttRun with course := some { ttCrs with slots := List.replicate 4 ⟨true, true, 0, true⟩ } }
    let x := fun e => ttRun.slotE 0 e
    SMap.rising ttRun.ports = true ∧ SMap.rising tx.ports = true ∧ ttRun.inj = none ∧ ttRun.working = some ttCrs ∧
    ttRun.slotAt 0 = some (ttCrs, x 0, SlotSt.fresh) ∧ ttRun.mayStart ttCrs (x 0) SlotSt.fresh = true ∧ tx.mayStart ttCrs (x 0) SlotSt.fresh = false ∧
    (x 0).kind = 0 ∧ (x 0).tier = 2 ∧ (∀ q ∈ sectorsOf 0x2000 64, ttRun.sectorState q = .clean) ∧
    ((ttRun.port 0).wait = [] ∧ (ttRun.port 0).replay.length + 1 + ceilDiv 64 200 ≤ 2048 ∧
      ((tx.port 0).wait.any fun f => decide (f.ftype ≤ 1)) = false) ∧
    ttDone.mayStart { ttCrs with slots := ttCrs.slots.set 0 ⟨true, false, 0, true⟩ } (x 1) SlotSt.fresh = true ∧ (x 1).kind = 3 ∧ ttCrs.planned.contains (x 1).arg = false ∧
    (tx.port 0).tx = some 0 ∧ ((tx.port 0).replay.any fun f => decide (f.1.ftype ≤ 1)) = false ∧ (x 0).sigEn = false ∧
    (x 2).recv = true ∧ ttRun.beat.ridgeAt + (x 2).start ≤ ttRun.now + 1000 ∧ ttRun.headerGood ttCrs (x 2) h = true ∧
    ttRun.headerGood ttCrs (x 2) [] = false ∧ (x 2).kind = 0 ∧ (x 2).tier = 2 ∧ (x 2).sigEn = false ∧
    (ttWith 2 ⟨false, true, 64, false⟩).slotAt 2 = some ({ ttCrs with slots := ttCrs.slots.set 2 ⟨false, true, 64, false⟩ }, x 2, ⟨false, true, 64, false⟩) ∧
    (x 3).kind = 1 ∧ (x 3).tier = 2 ∧ (ttRun.group 0 (x 3).arg).2 = 4 ∧ (∀ q ∈ sectorsOf 0x3000 4, ttRun.sectorState q = .clean) ∧
    ttCrs.img.hasTt = true ∧ 0 < bitsOf (ttRun.ttW 0 1) 40 8 ∧ (ttCrs.vector 0 (ttRun.dsp 0 0).rank).isSome = true ∧
    ttCrs.allKnown 0 (ttRun.dsp 0 0) = true ∧ ({ ttCrs with counts := [(0, 0, [1, 0])] } : Course).allKnown 0 (one.dsp 0 0) = false ∧
    ttCrs.planned.contains 0 = false ∧ ({ ttCrs with planned := [0] } : Course).planned.contains 0 = true ∧
    (ttRun.dsp 0 0).rec_ = 0x8000 ∧ (ttRun.dsp 0 0).exp = 0x4000 ∧ (ttRun.dsp 0 0).cap * (ttRun.dsp 0 0).rowBytes ≤ 0x4000 ∧
    (ttRun.missingEntry ttCrs).isSome = true ∧ all.missingEntry { ttCrs with slots := List.replicate 4 ⟨true, true, 0, true⟩ } = none ∧
    (∀ y ∈ all.slotsOf ttCrs.img, y.kind ≠ 5) := by decide +kernel

/-- R452's last clause: one load through the peer aperture in flight. -/
theorem test_hyps_TimetableSlots_reply :
    let l : RunAhead := ⟨none, 0, 64, [⟨4, 0, 64⟩], false, none, false, false, false, none, false, 1⟩
    let s : State := { run with rafts := [(31, { run.raft 31 with down := [], ahead := [l] })] }
    s.coreUp ∧ s.peerWait = [] ∧ (∃ m ∈ [PeerMsg.load 1 5 0 64], m.target.map Prod.fst = some 1) ∧ s.working = some crs0 ∧
    SMap.rising s.rafts = true ∧ l.ended = false ∧ 0 < l.tag ∧ l.normal = false ∧ l.pieces = [⟨4, 0, l.len⟩] ∧
    (List.replicate 64 (0 : Byte)).length = l.len :=
  ⟨coreOf _ (by decide), by and_intros <;> decide⟩

/-! ### Survival -/

/-- The partner is position 5, in another power domain; each area has two slots of three pages. -/
def paired : State :=
  upWith [(Reg.SVL_PAIR.PARTNER, 5), (Reg.SVL_PAIR.PEN, 1), (Reg.HIF_FUNC_EN.EN, 8), (Reg.SVL_PSTAT.OWN_DOM, 1), (Reg.SVL_PART.BASE, 16),
    (Reg.SVL_PART_LEN.PAGES, 3), (Reg.SVL_SAVE.BASE, 8), (Reg.SVL_SAVE_LEN.PAGES, 3)]
def sarkHdrOf (rt dom : Nat) : SarkHdr := ⟨rt, false, 5, dom, 9, 0xFFFFFFFFFFFF, 3, 0⟩
def zeroDigest : List Byte := digestOf (List.replicate 128 0) (List.replicate 8192 0)
/-- Byte `i` of a point of zeros but for its digest `d`. -/
def zeroByte (d : List Byte) (i : Nat) : Byte := if 128 ≤ i ∧ i < 176 then d.getD (i - 128) 0 else 0

/-- R482: a record of 56 bytes, their CRC with the bitmap, the bitmap of a BLOCKS record, and blocks, is good. -/
theorem sark_crc (w bm r : List Byte) (hw : w.length = 56) (rt : Nat) (hr : (sarkOf (w ++ leBytes 8 (crc32 (w ++ bm)) ++ bm ++ r)).rtype = rt)
    (h : (rt = 1 ∧ bm.length = 64) ∨ ((rt = 2 ∨ rt = 3) ∧ bm = [])) :
    sarkGood (w ++ leBytes 8 (crc32 (w ++ bm)) ++ bm ++ r) = true ∧ ((w ++ leBytes 8 (crc32 (w ++ bm)) ++ bm ++ r).drop 64) = bm ++ r := by
  have hc := crc32_lt (w ++ bm)
  have t : (w ++ leBytes 8 (crc32 (w ++ bm)) ++ bm ++ r).take 56 = w := by
    rw [List.append_assoc, List.append_assoc, List.take_append_of_le_length (by omega), ← hw, List.take_length]
  have d : ((w ++ leBytes 8 (crc32 (w ++ bm)) ++ bm ++ r).drop 64) = bm ++ r := by
    rw [List.append_assoc _ bm r, ← show (w ++ leBytes 8 (crc32 (w ++ bm))).length = 64 by simp [hw, leBytes], List.drop_left]
  have e : leNat (((w ++ leBytes 8 (crc32 (w ++ bm)) ++ bm ++ r).drop 56).take 4) = crc32 (w ++ bm) := by
    rw [List.append_assoc, List.append_assoc, ← hw, List.drop_left]
    generalize crc32 (w ++ bm) = c at hc
    simp only [leBytes, List.cons_append, List.take_succ_cons, List.take_zero, leNat, BitVec.toNat_ofNat]
    omega
  refine ⟨?_, d⟩
  unfold sarkGood
  simp only [hr, t, d, e]
  rcases h with ⟨rfl, hb⟩ | ⟨h, rfl⟩
  · rw [List.take_append_of_le_length (by omega), List.take_of_length_le (by omega)]
    simp [hw, leBytes]; omega
  · rcases h with rfl | rfl <;> simp [hw, leBytes] <;> omega

/-- Records with the CRC right and wrong, from the partner and from no one; the first 128 bytes of a
BLOCKS record of one block; a SEAL. -/
theorem test_hyps_SarkStreamAndPairing :
    let ack := sarkHead (sarkHdrOf 3 2) []
    let same := sarkHead (sarkHdrOf 3 1) []
    let blk := sarkHead (sarkHdrOf 1 2) (leBytes 64 2)
    let sl := sarkHead (sarkHdrOf 2 2) []
    let f : Fill := ⟨1, 0, 9, none, [1, 2], false, false⟩
    ((upWith [(Reg.HIF_FUNC_EN.EN, 7)]).getF Reg.HIF_FUNC_EN.EN).testBit 3 = false ∧ (paired.getF Reg.HIF_FUNC_EN.EN).testBit 3 = true ∧ 
    paired.gateStatus 0x103 = none ∧ paired.sarkCut.contains 5 = false ∧ ({ paired with sarkCut := [5] } : State).sarkCut.contains 5 = true ∧
    sarkGood (List.replicate 64 0) = false ∧ (sarkOf ack).rtype = 3 ∧ paired.sarkArea (sarkOf ack) = some 1 ∧
    (paired.setF Reg.SVL_PAIR.PEN 0).sarkArea (sarkOf ack) = none ∧ (sarkOf same).dom = paired.getF Reg.SVL_PSTAT.OWN_DOM ∧
    paired.sarkArea (sarkOf same) ≠ none ∧ paired.refusedSrc.contains 5 = false ∧
    paired.getF Reg.SVL_PAIR.FORCE = 0 ∧ paired.getF Reg.SVL_HOT.FORCE = 0 ∧ paired.getF Reg.SVL_PAIR.PEN ≠ 0 ∧ paired.getF Reg.SVL_HOT.HEN = 0 ∧
    (sarkOf ack).spos = paired.getF Reg.SVL_PAIR.PARTNER ∧ (sarkOf ack).dom ≠ paired.getF Reg.SVL_PSTAT.OWN_DOM ∧
    (sarkOf blk).rtype = 1 ∧ (sarkOf blk).push = false ∧ (sarkOf blk).base = 0xFFFFFFFFFFFF ∧ paired.fillOf 1 = none ∧
    paired.otherSlot 1 = 0 ∧ paired.getF (Reg.SVL_SLOT.HOLD 1 0) = 0 ∧
    blk.length = 128 ∧ bitmapBlocks 0 ((blk.drop 64).take 64) = [1] ∧
    (sarkOf sl).rtype = 2 ∧ (sarkOf sl).course = f.course ∧ ({ paired with fills := [f] } : State).fills = [f]  := by decide +kernel

/-- Their CRCs are right, with their blocks behind them. -/
theorem test_hyps_SarkStreamAndPairing_whole :
    let a := sarkHead (sarkHdrOf 1 2) (leBytes 64 2) ++ List.replicate 4096 0
    let b := sarkHead (sarkHdrOf 2 2) [] ++ List.replicate 8192 0
    sarkGood (sarkHead (sarkHdrOf 3 2) [] ++ []) = true ∧ sarkGood (sarkHead (sarkHdrOf 3 1) [] ++ []) = true ∧ sarkGood a = true ∧
    a.length = 128 + 4096 * (bitmapBlocks 0 ((a.drop 64).take 64)).length ∧ sarkGood b = true ∧ 8256 ≤ b.length := by
  intro a b
  have ha : (sarkHead (sarkHdrOf 1 2) (leBytes 64 2)).length = 128 := by decide +kernel
  have hb : (sarkHead (sarkHdrOf 2 2) []).length = 64 := by decide +kernel
  have ga := sark_crc _ (leBytes 64 2) (List.replicate 4096 0) (by decide) 1 (by decide +kernel) (by decide) |> (show sarkGood a = true ∧ a.drop 64 = _ from ·)
  refine ⟨(sark_crc _ [] [] (by decide) 3 (by decide +kernel) (by decide)).1, (sark_crc _ [] [] (by decide) 3 (by decide +kernel) (by decide)).1, ga.1, ?_,
    (sark_crc _ [] (List.replicate 8192 0) (by decide) 2 (by decide +kernel) (by decide)).1, ?_⟩
  · rw [ga.2, List.take_append_of_le_length (by decide), List.length_append, ha, List.length_replicate]; decide +kernel
  · rw [List.length_append, hb, List.length_replicate]

/-- `paired` with slot 0 of its own area sealed as course 9, and request `q` read on ring 0. -/
def sealed (q : Req) : State := asked (paired.setFs [(Reg.SVL_SLOT.STATE 0 0, 2), (Reg.SVL_SLOT.COURSE 0 0, 9)]) q
def snapOf (act course : Nat) : Req := reqOf 0 [word [(0, 0x11)], word [(0, act)], BitVec.ofNat 64 course]
def copyOf (dir room : Nat) : Req := reqOf 0 [word [(0, 0x12)], word [(0, dir)], 0, BitVec.ofNat 64 room]

/-- Each action of SNAPSHOT on a sealed slot and on an empty or busy one, images in flash, HOST_COPY each way with room and without. -/
theorem test_hyps_SnapshotsAndHostCopies :
    let q := fun act => sealed (snapOf act 9)
    let im : FlashImage := ⟨9, 3, []⟩
    let big : FlashImage := ⟨9, 4, []⟩
    let fl := fun (s : State) (l : List FlashImage) => ({ s with flash := { s.flash with images := l } } : State)
    SMap.rising (q 0).rings = true ∧ (∀ act ∈ [0, 1, 2, 3], (q act).nextReq 0 0x11 = some (snapOf act 9) ∧ (snapOf act 9).snap = (act, 0, 0, 9)) ∧
    (q 0).flashGate = none ∧ (q 0).slotBusy 0 0 = false ∧ (q 0).slotState 0 0 = 2 ∧ (q 0).slotCourse 0 0 = 9 ∧ (q 0).flash.images = [] ∧
    (q 0).headBlocks 0 0 ≤ flashPages ∧ ((q 0).setF (Reg.SVL_SLOT.HOLD 0 0) 1).slotBusy 0 0 = true ∧
    (asked paired (snapOf 0 9)).slotState 0 0 ≠ 2 ∧ (fl (asked paired (snapOf 1 9)) [im]).flash.images.find? (fun i => i.course = 9) = some im ∧
    (asked paired (snapOf 1 9)).slotBusy 0 0 = false ∧ (asked paired (snapOf 1 9)).newestSlot 0 ≠ some 0 ∧ im.pages ≤ paired.slotPages 0 ∧
    paired.slotPages 0 < big.pages ∧ (q 2).quiet = true ∧ (q 2).sameRecipe 0 0 = true ∧
    ({ q 2 with course := some crs0 } : State).quiet = false ∧ (snapOf 3 0).snap = (3, 0, 0, 0) ∧
    (∀ dir ∈ [0, 1], (sealed (copyOf dir 12288)).nextReq 0 0x12 = some (copyOf dir 12288) ∧ (copyOf dir 12288).copyOps = (dir, 0, 0, 0, 12288)) ∧
    (copyOf 0 12287).copyOps = (0, 0, 0, 0, 12287) ∧ (sealed (copyOf 0 12288)).headBlocks 0 0 * 4096 = 12288 ∧
    (asked paired (copyOf 1 0)).newestSlot 0 ≠ some 0 ∧ up.mergeAt = none ∧ (up.getF Reg.FLT_FATAL.FATAL).testBit 35 = false := by decide +kernel

/-! ### Gutters and faults -/

def gword : GWord := ⟨0, false, false, none⟩
/-- Gutter 0 with a bank to read and a full one closed behind it, and with room for one more word. -/
def gutFull : Gutter :=
  { Gutter.fresh with bank1 := List.replicate (bankWords 0) gword, closed1 := true, bank0 := [gword], f := true, r := some false }
def gutNear : Gutter := { Gutter.fresh with bank0 := List.replicate (bankWords 0 - 1) gword }

theorem test_hyps_GuttersAndFaultFlags_ok : gutFull.ok ∧ gutNear.ok ∧ Gutter.fresh.ok :=
  ⟨⟨fun _ => nofun, rfl, nofun⟩, ⟨nofun, rfl, rfl⟩, ⟨nofun, rfl, rfl⟩⟩

/-- Gutters of data and of control, defined and served: empty; with room for one more word and full; with a bank to read. A word that is good
and one that the injector may spoil; sources, masks and checkers. -/
theorem test_hyps_GuttersAndFaultFlags :
    up.gutterLive 0 = true ∧ up.gutterLive 1 = true ∧ Gut.cls 0 = 1 ∧ Gut.cls 1 = 0 ∧ SMap.rising (up.setGutter 0 gutFull).gutters = true ∧
    gutFull.fillClosed = true ∧ gutFull.r ≠ none ∧ gutFull.words = gword :: List.replicate (bankWords 0) gword ∧ gword.parity = parityBit gword.val ∧
    gutNear.fillClosed = false ∧ gutNear.r = none ∧ gutNear.fill.length < bankWords 0 ∧ bankWords 0 = gutNear.fill.length + 1 ∧ gutNear.occ ≠ 0 ∧
    Gutter.fresh.occ = 0 ∧ up.inj = none ∧ up.mergeAt = none ∧ isEventSource 0 = true ∧ isEventSource 46 = true ∧
    (up.getF Reg.FLT_FATAL.FATAL).testBit 46 = false ∧ faultStatus 45 false false = some 0x81 ∧ run.course = some crs0 ∧ up.course = none ∧
    ({ up with mergeAt := some 0, now := 1 } : State).mergeAt = some 0 ∧ (2 : W64).toNat.testBit 1 = true ∧
    (1 : W64).toNat.testBit 1 = false ∧ (1 : W64).toNat.testBit 0 = true ∧ up.getF Reg.FLT_INJECT.ARM = 0 ∧
    injectUnitOk (wbits (word [(0, 1), (4, 3), (9, 35)]) 4 5) (wbits (word [(0, 1), (4, 3), (9, 35)]) 9 9) = true ∧ injectUnitOk 3 36 = false ∧
    (upWith [(Reg.FLT_INJECT.ARM, 1)]).getF Reg.FLT_INJECT.ARM ≠ 0 ∧ up.getF Reg.FLT_ALIVE.RUN = 0 ∧
    (upWith [(Reg.FLT_ALIVE.RUN, 1)]).getF Reg.FLT_ALIVE.RUN ≠ 0 ∧ up.power.step ≠ .off := by
  decide +kernel

/-! ### Parapet, boot, trust and power -/

/-- Bolyel runs, and one key of parapet and administrator authority is held: the point R − G of P-384, for R of abscissa `h`, under which
(h, h) signs the digest h. -/
def served (k : KeyEntry) : State :=
  { up with boot := { up.boot with bolyel := true }, flash := { up.flash with keys := [k] } }
def keyOf (index x y : Nat) : KeyEntry := ⟨index, 3, 0, 0, 0, 4#8 :: (beBytes 48 x ++ beBytes 48 y), []⟩
def ppKey : KeyEntry := keyOf 0
  0xbd0feb51d86eb1439e40128d4917e8e4b393c29063207167d1f1474344cebbdccce9d78ea949ad9996068750ad864cc7
  0x60a658c6ef0f9823af5db27539cdf14741dd0a7d9b3a11f1acc389cfa0c521dc051149405bfccf6702bed23782bf827b
def ppH : Nat := 0x9a9dfa2699fe568cff1e8a5373679712b1cb61ab8de677bedff9d8cc3877db2aab4acf14688d665765a987b2714181e7
/-- SET_LIMIT 2,000 W, 1,500 W, SEQ 1, signed. -/
def setLimit : List W64 :=
  let r := (List.range 6).map fun i => BitVec.ofNat 64 (ppH / 2 ^ (64 * (5 - i)))
  [word [(0, 0x9A7E), (16, 1)], 1, 0, word [(0, 2000), (16, 1500)], 0, 0, 0, 0] ++ r ++ r

/-- A command that passes every check, SHA-384 and ECDSA among them, and one that fails one. -/
theorem test_hyps_ParapetCommands :
    let s := served ppKey
    s.power.hubRails = true ∧ s.bolyelUp = true ∧ s.power.step ≠ .off ∧ wbits (setLimit.getD 0 0) 16 8 = 1 ∧ s.ppCheck 0 setLimit = 0 ∧
    s.ppCheck 2 (setLimit.set 1 0) = 4 ∧ wbits ((setLimit.set 0 0).getD 0 0) 16 8 ≠ 1 ∧
    wbits (([0x9A7E] : List W64).getD 0 0) 16 8 = 0 ∧ 8 ≤ wbits (([0xFF0000] : List W64).getD 0 0) 16 8 := by decide +kernel

theorem test_hyps_ParapetGovernance :
    let s := served ppKey
    let p := fun (x : Power) => ({ s with power := x } : State)
    let fl := p { s.power with floorOn := true, floorCw := 100 }
    (p { s.power with fatal := some 39 }).valveForced = true ∧ s.valveForced = false ∧ fl.power.floorOn = true ∧ s.power.floorOn = false ∧
    ((fl.setF Reg.PPT_TARGET.TARGET_W 1).floorTarget = fl.power.floorCw) ∧
    (fl.setF Reg.PPT_IDLE.IDLE_W 0).floorTarget < fl.power.floorCw ∧
    (p { fl.power with fatal := some 0 }).fallAllowed = true ∧ (fl.setF Reg.CRS_STATUS.IDLE 0).getF Reg.CRS_STATUS.IDLE = 0 ∧
    fl.power.fatal = none ∧ s.power.clockSteps < 15 ∧ s.getF Reg.PPT_STAT.TWARN = 0 ∧
    0 < (320 * ((s.setFs [(Reg.PPT_VALVE.CP, 4186), (Reg.PPT_VALVE.DT_SET, 10), (Reg.PPT_VALVE.FLOW_FULL, 120)]).getF Reg.PPT_VALVE.CP : Int) * 10 * 120) ∧
    ({ fl with course := some crs0 } : State).course ≠ none ∧ s.power.coolCauses = [] ∧ (up.getF Reg.PPT_THERM.JT_WARN ≤ 255) ∧ s.power.step = .good ∧ (115 : Nat) ≤ 255 ∧
    (s.getF Reg.FLT_LINES.LINES).testBit 39 = false ∧ (s.getF Reg.FLT_FATAL.FATAL).testBit 39 = true := by decide +kernel

/-- A boot at stage `k`. -/
def booting (k : Nat) : State :=
  { upWith [(Reg.SEC_BOOT_STAT.READY, 0), (Reg.SEC_BOOT_STAT.STAGE, k)] with flash := { up.flash with helper := none, manifest := none } }
def withBoot (s : State) (b : Boot) : State := { s with boot := b }

/-- The stages; an offer window that is closed, open, reading; a page count below and at the bounds. Verification with error 0, seed and
certificates rest on opaque constants of Config, so the clauses about them have no concrete operands. -/
theorem test_hyps_BootStages :
    let b := up.boot
    let win := withBoot (booting 4) { b with window := true }
    (∀ k ∈ [1, 2, 3, 5, 6, 7], (booting k).inStage k = true) ∧ (booting 1).inStage 2 = false ∧
    ((booting 1).flash.helper.bind fun h => extractSeed h []) = none ∧ (booting 2).flash.manifest = none ∧
    (booting 3).boot.chosen = none ∧ (booting 3).cacheImage 0 = none ∧ (booting 3).cacheImage 1 = none ∧
    win.boot.window = true ∧ (booting 4).boot.window = false ∧ win.boot.reading = none ∧ (1 : W32).toNat.testBit 0 = true ∧
    (withBoot win { win.boot with reading := some 3 }).boot.reading = some 3 ∧
    (win.setF Reg.SEC_BOOT_LEN.PAGES 1).getF Reg.SEC_BOOT_LEN.PAGES < 2 ∧ (win.setF Reg.SEC_BOOT_LEN.PAGES 16385).getF Reg.SEC_BOOT_LEN.PAGES = 16385 ∧
    (booting 4).bolyelUp = false ∧ (served ppKey).bolyelUp = true ∧ (served ppKey).boot.window = false ∧ objPurpose [] ≠ 2 ∧ win.verifyObj [] 1 ≠ 0 ∧
    objPurpose (List.replicate 0x161 0 ++ [2]) = 2 ∧ win.verifyObj (List.replicate 0x161 0 ++ [2]) 2 ≠ 0 ∧
    (withBoot win { win.boot with chosen := some [], manifest := some [], unlimited := false }).boot.chosen ≠ none ∧
    (booting 5).cacheSlotFor [] = some 0 ∧ (booting 6).power.coreRails = true ∧
    (withBoot (booting 7) { b with idKey := true, chosen := some [], manifest := some [] }).boot.idKey = true ∧
    (withBoot (booting 7) { b with alias_ := [1] }).boot.alias_ ≠ [] ∧ up.ready = true ∧ (booting 1).ready = false ∧
    (up.getF Reg.FLT_FATAL.FATAL).testBit 46 = false ∧ (withBoot up { b with cacheWrite := some 0 }).boot.cacheWrite = some 0 := by decide +kernel

def h1 : Nat := 0x53f0ff5c9af17b1281f8d25672e83c2749f62dcfb7c5b9812ece6b4176b66836089b4f73ef7bb0fd8308119d3861c401
def h0 : Nat := 0x259204fc2b902f4507fc97be8654ee2c84d1e957fc4153c4326aabb6e3a467834ae597c4d8079662fd1e8a54ea26c71d
def admin1 : KeyEntry := keyOf 0
  0xc4c9fae225c4a28084bdae3e00548a70d40d39295e363e905cf746006ab9e13574f5090fe7874dfa247b85c089dcad10
  0xc78a14b6d1f7bd585a91de042449486d80059e588206555ab044731e20a8b019fd22d3c88b05c258d0cff61503b5ad61
def admin0 : KeyEntry := keyOf 0
  0xe9397c4f4c7e4dfcbf43f675bcfea17d1098ea2150efe31c9fc13b5f35e11472cb80a4767eb35a07d7259a3295034f03
  0x1a02ae33926a74478d5313fff0df46304216bda7795ff8a94c899615937b6e7cc3b77275c3cad2fc27cb4b656daa059e
/-- An edit of entry `index` signed by entry 0 as (h, h). -/
def editOf (index auth kseq h : Nat) : List Byte :=
  leBytes 2 0x0E5C ++ leBytes 1 index ++ leBytes 1 auth ++ List.replicate 4 0 ++ leBytes 8 kseq ++ List.replicate 144 0 ++ beBytes 48 h ++ beBytes 48 h

/-- Edits that an administrator's entry signs, of an absent index, of a held one, and of the last administrator's; one that is not signed;
the clock before its lock, at it and locked. -/
theorem test_hyps_TrustAndTime :
    let s := served admin1
    let e := editOf 1 2 2 h1
    let two := fun (k : KeyEntry) => ({ s with flash := { s.flash with keys := [k, { admin1 with index := 1, auth := 2 }] } } : State)
    up.bolyelUp = false ∧ s.bolyelUp = true ∧ s.editOk 0 e = true ∧ s.editOk 1 e = false ∧ s.flash.keys ≠ [] ∧
    (s.flash.keys.all fun k => decide (k.index ≠ leNat (objAt e 2 1))) = true ∧ (two admin1).editOk 2 e = true ∧
    ((two admin1).flash.keys.any fun k => decide (k.index = leNat (objAt e 2 1))) = true ∧
    adminLeft ((two admin1).flash.keys.filter fun k => decide (k.index ≠ leNat (objAt e 2 1))) = true ∧
    (two admin0).editOk 0 (editOf 0 1 3 h0) = true ∧
    adminLeft ((two admin0).flash.keys.filter fun k => decide (k.index ≠ leNat (objAt (editOf 0 1 3 h0) 2 1))) = false ∧
    (s.getF Reg.FLT_FATAL.FATAL).testBit 43 = false ∧ s.verifyObj [] 1 ≠ 0 ∧ s.getF Reg.SEC_PTP.LOCKED = 0 ∧ s.boot.ptpGood < 15 ∧
    15 ≤ (withBoot s { s.boot with ptpGood := 15 }).boot.ptpGood ∧ s.stepAllowed = true ∧
    (s.setFs [(Reg.CRS_STATUS.LOCKED, 1), (Reg.CRS_CTRL.ENABLE, 1)]).stepAllowed = false ∧ (s.setF Reg.SEC_PTP.LOCKED 1).getF Reg.SEC_PTP.LOCKED ≠ 0 ∧
    (s.getF Reg.SEC_PTP.STEP_PEND = 0 ∧ (s.setF Reg.SEC_PTP.STEP_PEND 1).getF Reg.SEC_PTP.STEP_PEND ≠ 0 ∧ s.boot.ppsAt = none ∧
      (withBoot s { s.boot with ppsAt := some 0 }).ppsPresent = true) ∧
    (((0 : Nat) : Int) - ({ s with timeBase := 999999 } : State).timeBase).natAbs < 1000000 ∧
    1000000 ≤ (((0 : Nat) : Int) - ({ s with timeBase := 1000000 } : State).timeBase).natAbs := by
  decide +kernel

/-- The first ADD: every condition but its own signature, which is a hypothesis here. -/
theorem test_hyps_TrustAndTime_first (h : sigVerify (objAt (editOf 0 1 1 1) 24 97) ((editOf 0 1 1 1).take 160) (objAt (editOf 0 1 1 1) 160 96) = true) :
    let e := editOf 0 1 1 1
    up.flash.keys = [] ∧ keyFormOk e = true ∧ leNat (objAt e 2 1) = 0 ∧ leNat (objAt e 3 1) % 2 = 1 ∧ leNat (objAt e 4 1) = 0 ∧
    up.flash.kseq < leNat (objAt e 8 8) ∧ leNat (objAt e 16 8) = up.getF Reg.SEC_ID.IDHASH ∧
    sigVerify (objAt e 24 97) (e.take 160) (objAt e 160 96) = true :=
  by refine ⟨?_, ?_, ?_, ?_, ?_, ?_, ?_, h⟩ <;> decide +kernel

/-- Every step of the sequence, a state that may and may not sequence its rails, and MODRST_N low. -/
theorem test_hyps_PowerSequenceAndModuleReset :
    let p := fun (x : Power) => ({ up with power := x } : State)
    let w := p { up.power with step := .wait, thermtripN := true, fails := 2 }
    (∀ x ∈ [PwrStep.off, .standby, .parapet, .wait, .rails, .retry, .good], (p { up.power with step := x }).power.step = x) ∧
    w.belowTrips 1 = true ∧ (w.setF Reg.PPT_THERM.TRUSS 115).belowTrips 1 = false ∧ (p { w.power with fails := 3 }).power.fails = 3 ∧
    (p { up.power with modrstN := false }).power.modrstN = false ∧ up.power.modrstN = true ∧ up.power.step = .good ∧
    (up.getF Reg.FLT_LINES.LINES).testBit 38 = false ∧ (up.getF Reg.FLT_FATAL.FATAL).testBit 38 = true ∧
    (up.getF Reg.FLT_LINES.LINES).testBit 47 = false ∧ (up.getF Reg.FLT_FATAL.FATAL).testBit 47 = true ∧
    (upWith [(Reg.GEN_RESET.CAUSE, 3)]).now ≤ (upWith [(Reg.GEN_RESET.CAUSE, 3)]).power.resetAt + 100000 := by decide +kernel

/-! ### Digests -/

theorem shaRound_length (h : List W64) (x : W64 × W64) : (shaRound h x).length = h.length := by
  unfold shaRound; split <;> rfl

theorem sha384_length (m : List Byte) (h : ∃ k, (shaBlocks k shaInit (m ++ [0x80#8] ++ List.replicate ((111 + 128 * 8 - m.length % 128) % 128) 0#8 ++
    beBytes 16 (8 * m.length))).length = 8 ∧ k = (m ++ [0x80#8] ++ List.replicate ((111 + 128 * 8 - m.length % 128) % 128) 0#8 ++
    beBytes 16 (8 * m.length)).length / 128) : (sha384 m).length = 48 := by
  obtain ⟨k, h, rfl⟩ := h
  have b : ∀ w : W64, (beBytes 8 w.toNat).length = 8 := fun _ => by simp [beBytes, leBytes]
  unfold sha384
  simp only [List.length_flatMap, b, List.map_const', List.sum_replicate, List.length_take, h]
  rfl

theorem shaBlock_length (h : List W64) (b : List Byte) (k : h.length = 8) : (shaBlock h b).length = 8 := by
  have f : ∀ (xs : List (W64 × W64)) (h : List W64), (xs.foldl shaRound h).length = h.length := fun xs => by
    induction xs with
    | nil => intro h; rfl
    | cons x xs ih => intro h; rw [List.foldl_cons, ih, shaRound_length]
  simp [shaBlock, f, k]

theorem shaBlocks_length (n : Nat) (h : List W64) (b : List Byte) (k : h.length = 8) : (shaBlocks n h b).length = 8 := by
  induction n generalizing h b with
  | zero => exact k
  | succ n ih => exact ih _ _ (shaBlock_length h _ k)

theorem zeroDigest_length : zeroDigest.length = 48 := by
  have i : shaInit.length = 8 := by decide +kernel
  have s : (sha384 (List.replicate 128 0 ++ List.replicate 8192 0)).length = 48 := sha384_length _ ⟨_, shaBlocks_length _ _ _ i, rfl⟩
  unfold zeroDigest digestOf digestBytes
  generalize sha384 _ = d at s
  have : ∀ j ∈ List.range 6, (((d.drop (8 * j)).take 8).reverse).length = 8 := fun j hj => by
    have := List.mem_range.1 hj; simp; omega
  rw [List.length_flatMap, List.map_congr_left this]; rfl

theorem zeroPoint_byte (d : List Byte) (n i : Nat) (h : i < n) : ((List.range n).map (zeroByte d)).getD i 0 = zeroByte d i := by
  rw [List.getD_eq_getElem _ _ (by rw [List.length_map, List.length_range]; exact h), List.getElem_map, List.getElem_range]

theorem bytes_const (m : Memory) (a n : Nat) (h : ∀ i < n, m.byte (a + i) = 0) : m.bytes a n = List.replicate n 0 := by
  apply List.ext_getElem
  · rw [List.length_replicate, Memory.bytes, List.length_map, List.length_range]
  · intro i h1 h2
    rw [List.getElem_replicate]
    rw [List.length_replicate] at h2
    simpa only [Memory.bytes, List.getElem_map, List.getElem_range] using h i h2

/-- A slot at `a` that holds a point of zeros with digest `dg`: three blocks, and the digest right when it is theirs. -/
theorem zeroPoint_slot (s : State) (ar n a : Nat) (dg : List Byte) (hd : dg.length = 48)
    (h : ∀ i < 12288, s.hbm.byte (a + i) = zeroByte dg i) (ha : s.slotAddr ar n = a) :
    s.headBlocks ar n = 3 ∧ s.digestGood ar n = decide (zeroDigest = dg) := by
  have z : ∀ o k, o + k ≤ 12288 → (o + k ≤ 128 ∨ 176 ≤ o) → s.hbm.bytes (a + o) k = List.replicate k 0 := fun o k h1 h2 =>
    bytes_const _ _ _ fun i hi => by rw [Nat.add_assoc, h _ (by omega), zeroByte, if_neg (by omega)]
  have hw : ∀ i, i < 8 → s.headW ar n i = 0 := fun i hi => by
    simp only [State.headW, State.peekW, ha]
    rw [z _ _ (by omega) (by omega)]; rfl
  have hb : s.headBlocks ar n = 3 := by
    simp only [State.headBlocks, hw 4 (by omega), hw 6 (by omega)]; rfl
  have d : s.hbm.bytes (a + 128) 48 = dg := by
    apply List.ext_getElem
    · rw [hd, Memory.bytes, List.length_map, List.length_range]
    · intro i h1 h2
      have h3 := h2; rw [hd] at h3
      simp only [Memory.bytes, List.getElem_map, List.getElem_range]
      rw [Nat.add_assoc, h _ (by omega), zeroByte, if_pos (by omega), Nat.add_sub_cancel_left, List.getD_eq_getElem _ _ h2]
  refine ⟨hb, ?_⟩
  have z0 := z 0 128 (by omega) (by omega)
  have z1 := z 4096 8192 (by omega) (by omega)
  simp only [State.digestGood, hb, State.blockAddr, ha, State.peek, d]
  rw [Nat.add_zero] at z0
  show decide (digestOf (s.hbm.bytes a 128) (s.hbm.bytes (a + 4096) 8192) = dg) = _
  rw [z0, z1]; rfl

/-- Nothing to inject and nothing marked: a store of whole sectors changes bytes only. -/
theorem writeHbm_plain (s : State) (a : Nat) (bs : List Byte) (hp : s.poison = []) (he : s.symErr = [])
    (hi : ∀ st < 20, s.getF (Reg.MEM_INJECT.ARM st) = 0) (hm : s.getF Reg.HIF_CTRL.COH_MODE = 0) (hs : s.shared = [])
    (hc : a + bs.length ≤ s.hbmCap) : s.writeHbm a bs = { s with hbm := s.hbm.write a bs } := by
  have st : ∀ q, s.storeSector q = s := fun q => by
    have : stackOf (s.placeOf (q * 64)).1 < 20 := Nat.mod_lt _ (by decide)
    unfold State.storeSector
    simp only [State.on, hi _ this, ne_eq, not_true_eq_false, decide_false, Bool.false_and, Bool.false_eq_true, if_false, hp, he]
    rcases s with ⟨⟩
    subst hp he
    rfl
  have ea : ∀ l : List Nat, s.each l State.storeSector = s := fun l => by
    induction l with
    | nil => rfl
    | cons q l ih => simp only [State.each, List.foldl_cons, st] at ih ⊢; exact ih
  have t : bs.take (s.hbmCap - a) = bs := List.take_of_length_le (by omega)
  have v : ∀ n, s.viaHost a n true = s := fun n => by simp [State.viaHost, State.on, hm, hs]
  simp only [State.writeHbm, t, v, ea]

theorem sealed_slot (d l : List Byte) (hd : d.length = 48) (len : l.length = 8192) (hz : ∀ i < 8192, l.getD i 0 = zeroByte d i) :
    let u := paired.writeHbm (paired.slotAddr 1 0) l
    u.headBlocks 1 0 = 3 ∧ u.slotPages 1 = 3 ∧ u.slotBad 1 0 = false ∧ u.digestGood 1 0 = decide (zeroDigest = d) := by
  intro u
  have hu : u = { paired with hbm := paired.hbm.write (paired.slotAddr 1 0) l } := writeHbm_plain _ _ _ rfl rfl (by decide +kernel) (by decide) rfl (by rw [len]; decide +kernel)
  have hs := zeroPoint_slot u 1 0 (paired.slotAddr 1 0) d hd (fun i hi => by
    rw [hu]
    show Memory.byte (Memory.write [] _ _) _ = _
    rw [Memory.byte_write _ _ _ rfl, len]
    by_cases h : i < 8192
    · rw [if_pos (by omega), Nat.add_sub_cancel_left, hz _ h]
    · rw [if_neg (by omega), zeroByte, if_neg (by omega)]; rfl) (by rw [hu]; rfl)
  have hb : u.badStacks (paired.slotAddr 1 0) (3 * 4096) = [] := by
    rw [hu]; show paired.badStacks (paired.slotAddr 1 0) (3 * 4096) = []; decide +kernel
  refine ⟨hs.1, by rw [hu]; show paired.slotPages 1 = 3; decide +kernel, ?_, hs.2⟩
  unfold State.slotBad
  rw [hs.1, show u.slotAddr 1 0 = paired.slotAddr 1 0 by rw [hu]; rfl, hb]; rfl

/-- R484: the partner's slot 0 once a SEAL has brought blocks 0 and 1 of a point of zeros, its digest right, and wrong. -/
theorem test_hyps_SarkStreamAndPairing_seal : ∃ good wrong : List Byte, good.length = 8192 ∧ wrong.length = 8192 ∧
    (let u := paired.writeHbm (paired.slotAddr 1 0) good
     u.headBlocks 1 0 = 3 ∧ u.slotPages 1 = 3 ∧ u.slotBad 1 0 = false ∧ u.digestGood 1 0 = true) ∧
    (paired.writeHbm (paired.slotAddr 1 0) wrong).digestGood 1 0 = false := by
  have hl := zeroDigest_length
  have len : ∀ d, ((List.range 8192).map (zeroByte d)).length = 8192 := fun _ => by rw [List.length_map, List.length_range]
  have a := sealed_slot zeroDigest _ hl (len _) (zeroPoint_byte zeroDigest 8192)
  have b := sealed_slot (zeroDigest.map (· + 1)) _ (by rw [List.length_map, hl]) (len _) (zeroPoint_byte _ 8192)
  have ne : ∀ l : List Byte, l ≠ [] → l ≠ l.map (· + 1) := fun l h => by
    cases l with
    | nil => exact absurd rfl h
    | cons x t => intro e; exact (show ∀ x : Byte, x ≠ x + 1 by decide) x (List.cons.inj e).1
  refine ⟨_, _, len _, len _, ⟨a.1, a.2.1, a.2.2.1, a.2.2.2.trans (decide_eq_true rfl)⟩, b.2.2.2.trans (decide_eq_false (ne _ ?_))⟩
  intro e; rw [e] at hl; exact absurd hl (by decide)

/-- R490, R491, R476: each operation in progress, its slot readable and not, its digest right. -/
theorem test_hyps_SnapshotsAndHostCopies_ends :
    let op := fun kind => (⟨none, kind, 0, 0, 9, 0, 12288, (2, 9)⟩ : SvlOp)
    ∃ m : Memory, let s := fun kind => { sealed (snapOf 0 9) with svlOps := [op kind], hbm := m }
    (∀ k ∈ [0, 1, 2, 3, 4], (s k).opOn k 0 0 = some (op k)) ∧ (s 2).digestGood 0 0 = true ∧ (s 0).slotBad 0 0 = false ∧
    ({ s 0 with poison := [paired.slotAddr 0 0 / 64] } : State).slotBad 0 0 = true := by
  intro op
  obtain ⟨m, hm⟩ : ∃ m : Memory, ∀ i < 12288, m.byte (paired.slotAddr 0 0 + i) = zeroByte zeroDigest i := by
    have len : ((List.range 12288).map (zeroByte zeroDigest)).length = 12288 := by rw [List.length_map, List.length_range]
    have hz := zeroPoint_byte zeroDigest 12288
    generalize (List.range 12288).map (zeroByte zeroDigest) = l at len hz
    refine ⟨Memory.write [] (paired.slotAddr 0 0) l, fun i hi => ?_⟩
    rw [Memory.byte_write _ _ _ rfl, len, if_pos (by omega), Nat.add_sub_cancel_left, hz _ hi]
  refine ⟨m, ?_⟩
  intro s
  have hs : ∀ k, (s k).headBlocks 0 0 = 3 ∧ (s k).digestGood 0 0 = true := fun k => by
    have h := zeroPoint_slot (s k) 0 0 (paired.slotAddr 0 0) zeroDigest zeroDigest_length hm rfl
    exact ⟨h.1, h.2.trans (decide_eq_true rfl)⟩
  have hb : (s 0).badStacks (paired.slotAddr 0 0) (3 * 4096) = [] := by
    show (sealed (snapOf 0 9)).badStacks (paired.slotAddr 0 0) (3 * 4096) = []; decide +kernel
  have hc : (({ sealed (snapOf 0 9) with poison := [paired.slotAddr 0 0 / 64] } : State).badStacks (paired.slotAddr 0 0) (3 * 4096)).isEmpty = false := by
    decide +kernel
  refine ⟨fun k hk => ?_, (hs 2).2, ?_, ?_⟩
  · show List.find? _ [op k] = _; simp [op]
  · show (!((s 0).badStacks (paired.slotAddr 0 0) ((s 0).headBlocks 0 0 * 4096)).isEmpty) = false
    rw [(hs 0).1, hb]; rfl
  · show (!(({ sealed (snapOf 0 9) with poison := [paired.slotAddr 0 0 / 64] } : State).badStacks (paired.slotAddr 0 0)
      ((s 0).headBlocks 0 0 * 4096)).isEmpty) = true
    rw [(hs 0).1, hc]; rfl

/-! ### Ill-formed commands: one for each check of WellFormed -/

theorem test_wf_refuses_access : Instr.wf (.registerWrite 0 9 0) = false ∧ Instr.wf (.sqDoorbell 0 0 0) = false := by decide
theorem test_wf_refuses_ring : Instr.wf (.nop 1024) = false ∧ Instr.wf (.descriptorFetch 1024 none) = false ∧
    Instr.wf (.descriptorFetch 0 (some [0])) = false := by decide
theorem test_wf_refuses_rafter : Instr.wf (.fadd 32 0 0) = false ∧ Instr.wf (.endProgram 32 0 0) = false := by decide
theorem test_wf_refuses_target : Instr.wf (.quiesceDrainLimit 0x18) = false ∧ Instr.wf (.quiesceDrainLimit 0x104) = false := by decide
theorem test_wf_refuses_pipeline : Instr.wf (.decodePipelineFault 26 0 0 0 false) = false ∧ Instr.wf (.encodePipelineFault 4 0 0 false) = false := by decide
theorem test_wf_refuses_memory : Instr.wf (.dramTempSample 20 0) = false ∧ Instr.wf (.dramTempSample 0 256) = false ∧
    Instr.wf (.channelRetrainRequest 0 32 0) = false ∧ Instr.wf (.channelRetrainEnd 0 34 0) = false ∧ Instr.wf (.channelRetrainEnd 0 0 3) = false := by decide
theorem test_wf_refuses_port : Instr.wf (.bringUpDone 32) = false ∧ Instr.wf (.portBringUp 0 0 [18]) = false ∧
    Instr.wf (.portDown 0 (some 18)) = false ∧ Instr.wf (.lanePropose 0 0 0 [18]) = false ∧ Instr.wf (.flitReceive 0 ⟨0, 0, true, [], 0⟩) = false := by decide
theorem test_wf_refuses_gutter : Instr.wf (.gutterStale 0xA4) = false ∧ Instr.wf (.gutterStale 0x16F) = false ∧ Instr.wf (.gutterStale 0x173) = false := by decide
theorem test_wf_refuses_source : Instr.wf (.errorLineRise (.rafter 36 0)) = false ∧ Instr.wf (.errorLineRise (.line 48)) = false ∧
    Instr.wf (.errorLineRise (.vector 180 0)) = false ∧ Instr.wf (.errorLineRise (.decode 26 0)) = false ∧
    Instr.wf (.errorLineRise (.encode 4 0 0)) = false ∧ Instr.wf (.errorLineRise (.hub [(1024, 0)])) = false := by decide
theorem test_wf_refuses_cause : Instr.wf (.coolantCondition 0 true) = false ∧ Instr.wf (.coolantCondition 4 true) = false := by decide

/-! ### Worked examples of the specification -/

/-- 09, R333: address 0x4_C4B4_01C0 is stack 16, logical channel 23, offset 31,998,400 of the channel. -/
theorem test_place_of_worked_address : let p := up.placeOf 0x4C4B401C0
    stackOf p.1 = 16 ∧ chanOf p.1 = 23 ∧ p.2 * 4096 + 0x4C4B401C0 % 4096 = 31998400 := by decide +kernel

/-- 05, *One output element in native BF16*: 46.0. -/
theorem test_refSum_native : refSum 0 false
    ([0x4580] ++ List.replicate 30 0x3F80 ++ [0xC580] ++ List.replicate 32 0x3F00 |>.map (decodeF 3))
    ([0x4580] ++ List.replicate 30 0x3F80 ++ [0x4580] ++ List.replicate 32 0x3F80 |>.map (decodeF 3)) [] [] none = some 0x42380000 := by decide +kernel

/-- 05, *A BF16 product in 4 and 3 passes*: 1.72430419921875 and 1.724609375. -/
theorem test_refSum_split :
    refSum 2 false [decodeF 3 0x3FDB] [decodeF 3 0x3F81] [] [] none = some 0x3FDCB600 ∧
    refSum 1 false [decodeF 3 0x3FDB] [decodeF 3 0x3F81] [] [] none = some 0x3FDCC000 := by decide +kernel

/-- 05, *An update below half a unit*: four steps of 0.001 from 1.0. -/
theorem test_sparUpdate_worked :
    let r1 := sparUpdate 0x3F80 0x3A83126F 0
    let r2 := sparUpdate r1.1 0x3A83126F r1.2
    let r3 := sparUpdate r2.1 0x3A83126F r2.2
    let r4 := sparUpdate r3.1 0x3A83126F r3.2
    r1 = (0x3F80, BitVec.ofNat 16 (encodeF 3 (.num false 131 (-17)))) ∧ r2 = (0x3F80, BitVec.ofNat 16 (encodeF 3 (.num false 131 (-16)))) ∧
    r3 = (0x3F80, BitVec.ofNat 16 (encodeF 3 (.num false 197 (-16)))) ∧ r4 = (0x3F81, BitVec.ofNat 16 (encodeF 3 (.num true 249 (-16)))) := by
  decide +kernel

/-- 08, *Encoding one yelm*: the code lengths of its table. -/
def yelmLens : List Nat :=
  [0, 0, 0, 0, 0, 0, 4, 3, 4, 0, 0, 0, 0, 0, 0, 0, 0, 0, 0, 0, 0, 0, 4, 3, 0, 0, 0, 0, 0, 0, 0, 0, 2, 4, 5, 3, 5]
def yelmElems : List Nat :=
  [0x3A, 0, 0, 0, 0xBC, 0x34, 0, 0, 0, 0, 0, 0, 0, 0, 0, 0, 0, 0, 0, 0, 0x42, 0x38, 0xB0, 0, 0x3F, 0, 0, 0, 0, 0, 0, 0] ++ List.replicate 32 0
/-- Its body, and its first words but for the CRC. -/
theorem test_encodeYelm_worked : let y := (encodeYelm 0 (canon yelmLens) yelmElems false).bytes
    (y.drop 32).take 12 = [0x4B, 0x6E, 0x54, 0x88, 0xE1, 0x69, 0x0C, 0x02, 0xFC, 0xC0, 0xE8, 0xE8] ∧ leNat (y.take 4) = 0x67E2 ∧
    leNat ((y.drop 8).take 8) = 0xC00C00C00B00A004 ∧ leNat ((y.drop 16).take 8) = 0x0C00C00C00C00C00 ∧
    leNat ((y.drop 24).take 8) = 0x00C00C00C00C00C0 := by decide +kernel

/-- 06, *Overlap suppression with ties*: boxes 0, 2 and 4 are kept. -/
theorem test_nms_worked :
    let f := fun n : Int => ofInt32 n
    let boxes := [(0, 0, 10, 10), (1, 1, 11, 11), (20, 20, 30, 30), (0, 0, 10, 10), (20, 0, 30, 10), (0, 5, 10, 15)]
    let box := fun i => let b := boxes.getD i (0, 0, 0, 0); (⟨f b.1, f b.2.1, f b.2.2.1, f b.2.2.2⟩ : Box)
    let order := (ranked [(0, 0x3F666666), (1, 0x3F4CCCCD), (2, 0x3F666666), (4, 0x3F4CCCCD), (5, 0x3F333333)]).map (·.1)
    order = [0, 2, 1, 4, 5] ∧ nms box 0x3F000000 3 order [] = [0, 2, 4] := by decide +kernel

/-- 03, *Ring 5 across a wrap*: the doorbells of steps 1 and 3 are accepted; with SEQ 18 the ring ends. -/
theorem test_sqDoorbell_worked :
    let s := (upWith [(Reg.HIF_RING_STAT.ACTIVE 5, 1), (Reg.HIF_RING_CFG.SIZE_LOG2 5, 4), (Reg.HIF_STATUS.LINK_UP, 1)]).setRing 5 Ring.fresh
    let a := sqDoorbell 5 0x00000005000B000C s
    let b := sqDoorbell 5 0x0000000500130004 a
    let c := sqDoorbell 5 0x0000000500120004 a
    a.getF (Reg.HIF_RING_PTR.SQ_TAIL 5) = 12 ∧ (a.ring 5).lastSeq = 11 ∧ b.getF (Reg.HIF_RING_PTR.SQ_TAIL 5) = 4 ∧ (b.ring 5).lastSeq = 19 ∧
    c.getF Reg.HIF_DB_ERR.MISMATCH = 1 ∧ c.getF (Reg.HIF_RING_STAT.ERR_CODE 5) = 0x56 := by decide +kernel

/-- 15, *Ramping up*: a planned draw of 4,300 W gives a duty of 47, one of 4,450 W gives 49. -/
theorem test_valveDuty_worked :
    let s := fun w => { up with power := { up.power with floorCw := w * 100 } }
    (s 4300).plannedDraw = 4300 ∧ (s 4300).valveDuty 0 = 47 ∧ (s 4450).valveDuty 0 = 49 := by decide +kernel

/-- FIPS 180-4's example for SHA-384, and the check value of CRC-32. -/
theorem test_sha384_abc : beNat (sha384 [0x61, 0x62, 0x63]) =
    0xcb00753f45a35e8bb5a03d699ac65007272c32ab0eded1631a8b605a43ff5bed8086072ba1e7cc2358baeca134c825a7 := by decide +kernel
theorem test_crc32_check : crc32 [0x31, 0x32, 0x33, 0x34, 0x35, 0x36, 0x37, 0x38, 0x39] = 0xCBF43926 := by decide +kernel

/-- 02, *Admission of a 250-beat course*: the third phase waits for the slot that ends at 198.000 ms; the worst-case end, rounded up, and W. -/
theorem test_phaseLoop_worked :
    let s := upWith [(Reg.HIF_LINK.RATE, 2), (Reg.HIF_LINK.WIDTH, 16)]
    let ps := [phaseOf (62000000 + 0xFFFF * 2 ^ 32) 2900000000000 0 2000000000, phaseOf (118000000 + 0xFFFF * 2 ^ 32) 6200000000000 0 3500000000,
      phaseOf 30000000 1100000000000 0 0]
    (match s.phaseLoop 4800 [slotOf 0 198000000 0 0 0] ps 25000 [] with
      | .ends t ds => decide ((t + 15000).ceil = 226591429 ∧ ds.length = 3)
      | _ => false) = true ∧
    (mkRat (250 * 7000000000 * 9995) 70000000).floor = 249875000 := by decide +kernel

/-- R6, R8: the block of die 3 is at 0x1C0_0000; half of a 64-bit register reads as all ones. -/
theorem test_register_places : (findReg 0x1C00100).isSome = true ∧ findReg 0x10C0100 = none ∧ up.readReg 0x1001C 4 = 0xFFFFFFFF := by decide +kernel

/-! ### Further clauses: states that meet what the clauses beside the first ask for -/

/-- A memory of 64-bit words. -/
def memOf (l : List (Nat × Nat)) : Memory := l.foldl (fun m x => m.write x.1 (leBytes 8 x.2)) []

/-- Edges `gap` ps apart, the last of seven `gap` before 7 × `gap`, at which the clock stands. -/
def beating (gap : Nat) (fs : List (Fld × Nat)) : State :=
  { upWith fs with now := 7 * gap / 1000, beat := { up.beat with edges := (List.range 7).map fun i => (6 - i) * gap } }
def edgesOf (gap : Nat) : List Nat := (7 * gap :: (List.range 7).map fun i => (6 - i) * gap).take 8

/-- R48: even edges at both ends of the range, uneven ones, seven; a nominal period that is near, far, and out of range; a BEAT flit's edge. -/
theorem test_hyps_LockAtTheEighthEdge_even :
    let flit := beating 1000000000 [(Reg.CRS_CTRL.BEAT_SRC, 1), (Reg.CRS_CTRL.BEAT_PORT, 31), (Reg.LNK_STAT.UP 31, 1)]
    (∀ gap ∈ [100000000, 1000000000, 10000000000], (beating gap []).now * 1000 + 0 % 1000 = 7 * gap ∧ (edgesOf gap).length = 8 ∧
      (7 * gap :: (beating gap []).beat.edges).take 8 = edgesOf gap ∧
      (edgesOf gap).headD 0 - (edgesOf gap).getLastD 0 = 7 * gap ∧ 700000000 ≤ 7 * gap ∧ 7 * gap ≤ 70000000000 ∧
      ∀ i < 7, (7 * (((edgesOf gap).getD i 0 : Int) - (edgesOf gap).getD (i + 1) 0) - ((7 * gap : Nat) : Int)).natAbs * 10000 ≤ 7 * gap) ∧
    (7 * 1000000000 :: up.beat.edges).length ≠ 8 ∧
    (((7000000000 : Nat) : Int) - 7000 * (1000000 : Nat)).natAbs * 1000000 ≤ 500 * (7000 * 1000000) ∧
    500 * (7000 * 1001000) < (((7000000000 : Nat) : Int) - 7000 * (1001000 : Nat)).natAbs * 1000000 ∧
    (((700000000 : Nat) : Int) - 7000 * (99999 : Nat)).natAbs * 1000000 ≤ 500 * (7000 * 99999) ∧ (99999 : Nat) < 100000 ∧
    ((((700000000 : Nat) : Int) - 7000 * (100000 : Nat)).natAbs * 1000000 ≤ 500 * (7000 * 100000)) ∧
    (up.getF Reg.CRS_BEAT_NOM.NOM_NS = 1000000 ∧ flit.coreUp ∧ flit.getF Reg.CRS_STATUS.LOCKED = 0 ∧ flit.getF Reg.CRS_CTRL.BEAT_SRC = 1 ∧
      flit.getF Reg.CRS_CTRL.BEAT_PORT = 31 ∧ flit.getF (Reg.LNK_STAT.UP 31) ≠ 0 ∧
      (flit.now - flit.getF (Reg.LNK_LAT.ONEWAY_NS 31)) * 1000 + 0 % 1000 = 7000000000) :=
  ⟨by decide, by decide, by decide, by decide, by decide, by decide, by decide, by decide, coreOf _ (by decide), by and_intros <;> decide⟩

/-- A course of one rafter's work that has ended: the ledger at 0x1000, the recipe at 0x2000, the plan at 0x3000. -/
def crsEnd (last : Bool) : Course := { crs0 with img := { img0 with stepLast := last }, working := false, running := [], beatsLeft := 1 }
def ended (last : Bool) : State :=
  { (upWith [(Reg.CRS_ACT_LEDGER.BASE, 1), (Reg.CRS_ACT_RECIPE.BASE, 2), (Reg.CRS_ACT_PLAN.BASE, 3), (Reg.HIF_STATUS.LINK_UP, 1),
      (Reg.CRS_STATUS.LOCKED, 1), (Reg.FLT_FATAL.FATAL, 0)]).setRing 0 { Ring.fresh with outstanding := [reqOf 0 []] } with
    hbm := memOf [(0x2008, 0x10000), (0x3028, 0x40000)], course := some (crsEnd last) }

/-- The end of a window: none open, one whose course ends well, with and without the step's end, one whose course has not, one failed. -/
theorem test_hyps_InternalBeats_window :
    (∀ last ∈ [true, false], let u := ended last; let c := crsEnd last
      u.coreUp ∧ u.Canon ∧ u.getF Reg.CRS_STATUS.LOCKED ≠ 0 ∧ u.beat.pulling = false ∧ u.beat.holdBeats = 0 ∧ u.course = some c ∧ c.beatsLeft ≤ 1 ∧
      u.waiting = [] ∧ c.failed = false ∧ c.working = false ∧ u.programsDone c = true ∧ u.slotsDone c = true ∧ u.build = none ∧
      (∀ x ∈ sectorsOf (u.ledgerAddr 0) (128 * (u.tensors c + 1)), u.sectorState x = .clean) ∧
      rangesClear [(u.ledgerAddr 0, 128 * (u.tensors c + 1)), (u.getF Reg.CRS_ACT_RECIPE.BASE * 4096 + c.img.recipeIdx * 128, 128), (u.planBase, 128),
        (u.watchAddr c, (u.watchRecord c false).length), (u.logSlot, (placementLog c u.saves 0).length)] = true ∧
      u.watchAddr c + (u.watchRecord c false).length ≤ u.hbmCap ∧ u.logSlot + (placementLog c u.saves 0).length ≤ u.hbmCap ∧
      u.ledgerAddr 0 + 128 * (u.tensors c + 1) ≤ u.hbmCap ∧
      (c.req.ring = 0 ∧ SMap.rising u.rings = true ∧ (u.ring 0).outstanding = [c.req] ∧ (u.ring 0).waitingRecs = [] ∧ (u.ring 0).endRec = none ∧
        (u.ring 0).cqDead = false ∧ u.suspended = false ∧ u.hostReachable = true ∧ u.getF (Reg.HIF_RING_CFG.IRQ_EN 0) = 0)) ∧
    (let c : Course := { crsEnd true with running := [0] }
     let u : State := { ended true with course := some c }
     u.Canon ∧ u.course = some c ∧ c.failed = false ∧ c.working = false ∧ (u.programsDone c && u.slotsDone c) = false ∧
      (u.getF Reg.FLT_FATAL.FATAL).testBit 45 = false ∧ u.mergeAt = none) ∧
    ({ ended true with course := some { crs0 with failed := true } } : State).Canon ∧ ({ crs0 with failed := true } : Course).failed = true := by
  refine ⟨?_, ⟨canonOf _ (by decide +kernel), ?_⟩, canonOf _ (by decide +kernel), rfl⟩
  · intro last h
    have := List.mem_cons.1 h
    rcases this with rfl | h
    · exact ⟨coreOf _ (by decide +kernel), canonOf _ (by decide +kernel), by decide +kernel⟩
    · rcases List.mem_singleton.1 h with rfl
      exact ⟨coreOf _ (by decide +kernel), canonOf _ (by decide +kernel), by decide +kernel⟩
  · decide +kernel

theorem test_hyps_BeatIsLost_course :
    let s := runWith [(Reg.CRS_STATUS.LOCKED, 1), (Reg.CRS_STATUS.HOLDOVER, 1), (Reg.CRS_HOLDMAX.HOLD_BEATS, 1), (Reg.FLT_FATAL.FATAL, 0)]
    s.coreUp ∧ s.Canon ∧ s.getF Reg.CRS_HOLDMAX.HOLD_BEATS ≤ s.beat.holdBeats + 1 ∧ s.course = some crs0 ∧
    crs0.failed = false ∧ s.mergeAt = none ∧ (s.getF Reg.FLT_LINES.LINES).testBit 41 = false ∧ (s.getF Reg.FLT_FATAL.FATAL).testBit 41 = false :=
  ⟨coreOf _ (by decide), canonOf _ (by decide), by and_intros <;> decide⟩
/-- An image at 0x5000 that admission accepts: four beats, its step first and last, one phase, no program; its environment at 0x5300, with
one save point at 0x5400. The image table is at 0x4000. -/
def imgHead (fs : Nat) : List (Nat × Nat) := [(0x4000, 0x5000), (0x5000, 3 + fs * 2 ^ 20), (0x5008, 0x5100), (0x5010, 0x5200), (0x5018, 0xFFFF),
  (0x5100, 0xFFFF * 2 ^ 32), (0x5308, 0x5400), (0x5400, 2 ^ 30), (0x3028, 0x40000)]
def imgMem (fs : Nat) : Memory := memOf (imgHead fs ++ [(0x5038, if fs = 3 then 615141464 else 967138804), (0x5338, 1415731472)])
def imaged (fs : Nat) (regs : List (Fld × Nat)) : State :=
  { upWith ([(Reg.CRS_ACT_IMGTAB.BASE, 4), (Reg.CRS_ACT_PLAN.BASE, 3), (Reg.CRS_STATUS.LOCKED, 1), (Reg.CRS_CTRL.ENABLE, 1)] ++ regs) with
    hbm := imgMem fs, beat := { up.beat with period7 := 7000000000 } }

set_option maxRecDepth 100000 in
/-- What CourseRunIsAdmittedOrRefused asks of the image, the set it is checked against, and the course before it. -/
theorem test_hyps_CourseRunIsAdmittedOrRefused_check :
    let s := imaged 3 []; let a := s.imgAddr 0; let i := s.imageAt a 0 0; let ps := s.phases a
    s.Canon ∧ (up.getF Reg.CRS_STATUS.LOCKED = 0) ∧ s.getF Reg.CRS_STATUS.LOCKED ≠ 0 ∧ s.getF Reg.CRS_ACT_IMGTAB.COUNT < 1 ∧
    0 ≤ s.getF Reg.CRS_ACT_IMGTAB.COUNT ∧ s.imgFormOk a = true ∧ i.epoch = s.getF Reg.CRS_EPOCH.EPOCH ∧ s.imgNamesOk i ps = true ∧
    (∀ x ∈ [(s.getF Reg.CRS_ACT_IMGTAB.BASE * 4096 + 8 * 0, 8), (a, 64), (s.imgCost a, 32 * s.imgPhases a)], x.1 + x.2 ≤ s.hbmCap ∧
      ∀ q ∈ sectorsOf x.1 x.2, s.sectorState q = .clean) ∧
    (∀ x ∈ s.imgRegions i, x.1 + x.2 ≤ s.hbmCap ∧ ∀ q ∈ sectorsOf x.1 x.2, s.sectorState q ≠ .bad) ∧
    i.stepFirst = true ∧ i.stepLast = true ∧ i.hasTt = false ∧ s.usesDegraded i = false ∧ i.footprint * 2 ^ 20 ≤ s.hbmCap ∧ s.envFits i = true ∧
    (let p := phaseOf (0xFFFF * 2 ^ 32) 0 0 0
     ps = [p] ∧ p.power ≤ s.powerLimit 0 ∧ p.dep = 0xFFFF ∧ s.phaseTime p = some 0 ∧
      (25000 + 0 + 5000 + 15000 : Rat) ≤ mkRat (i.beats * s.beat.period7 * 9995) 70000000) ∧ (s.slotsOf i).any (s.slotBad? 0) = false ∧
    (let n := imaged 2 []; let j := n.imageAt (n.imgAddr 0) 0 0; n.imgFormOk (n.imgAddr 0) = true ∧ n.imgNamesOk j (n.phases (n.imgAddr 0)) = true ∧
      j.stepFirst = false ∧ (PrevCourse.mk true false).stepLast = true ∧ (PrevCourse.mk false false).stepLast = false) ∧
    (imaged 3 [(Reg.CRS_EPOCH.EPOCH, 1)]).getF Reg.CRS_EPOCH.EPOCH ≠ i.epoch ∧ ({ s with poison := [a / 64] } : State).sectorState (a / 64) = .bad ∧
    (imaged 3 [(Reg.CRS_ACT_IMGTAB.BASE, 5)]).imgFormOk 0 = false ∧ ({ s with hbmDegraded := [0] } : State).usesDegraded i = true := by
  refine ⟨canonOf _ (by decide +kernel), ?_⟩
  decide +kernel

set_option maxRecDepth 100000 in
/-- One admitted on an active ring and on one that shuts down; a swap that is due at the window, at 10 µs and just before. -/
theorem test_hyps_CourseRunIsAdmittedOrRefused_swap :
    let q := reqOf 0 [word [(0, 1)]]
    let s := fun fs => asked (imaged 3 fs) q
    let a := s [(Reg.HIF_RING_STAT.ACTIVE 0, 1)]
    a.Canon ∧ a.nextReq 0 0x01 = some q ∧ a.getF (Reg.HIF_RING_STAT.ACTIVE 0) ≠ 0 ∧ (s []).getF (Reg.HIF_RING_STAT.ACTIVE 0) = 0 ∧
    ((a.markStarted q).tryAdmit 0 0 a.prev 25000).1.status = 0 ∧
    (let w := { imaged 3 [(Reg.CRS_STATUS.SWAP_PEND, 1)] with swapAt := 15000, now := 0 }
     w.getF Reg.CRS_STATUS.SWAP_PEND ≠ 0 ∧ w.swapAt + 10000 ≤ w.now + 25000 ∧ w.now + 24999 < w.swapAt + 10000) := by
  refine ⟨canonOf _ (by decide +kernel), ?_⟩
  decide +kernel

set_option maxRecDepth 100000 in
/-- A course waiting: before its time, at it, its image refused, accepted; with a record that asks for a job that ended badly. -/
theorem test_hyps_RidgesAndWindows_opening :
    let q := reqOf 0 [word [(0, 1)]]
    let adm := fun (s : State) => (⟨q, s.imageAt (s.imgAddr 0) 0 0, 25000, none⟩ : Adm)
    let s := fun fs now => let x := imaged 3 fs; { x with waiting := [adm x], now := now }
    (s [] 24999).Canon ∧ up.waiting = [] ∧ (s [] 24999).now < (adm (imaged 3 [])).notBefore ∧ (s [] 25000).waiting = [adm (imaged 3 [])] ∧
    (adm (imaged 3 [])).notBefore ≤ (s [] 25000).now ∧ (s [] 25000).getF Reg.CRS_STATUS.HELD = 0 ∧ (s [(Reg.CRS_STATUS.HELD, 1)] 25000).getF Reg.CRS_STATUS.HELD ≠ 0 ∧
    (s [] 25000).getF Reg.CRS_STATUS.LOCKED ≠ 0 ∧ ((s [] 25000).tryAdmit 0 (q.word 2) none 0).1.status = 0 ∧
    ((s [(Reg.CRS_EPOCH.EPOCH, 1)] 25000).tryAdmit 0 (q.word 2) none 0).1.status ≠ 0 ∧ (s [] 25000).batchStatus 0 = none ∧
    ({ s [] 25000 with jobsDone := [(0, 1)] } : State).batchStatus 0 = some 0xA1 := by
  refine ⟨canonOf _ (by decide +kernel), ?_⟩
  decide +kernel

/-- At a ridge: a swap due and not yet due, a fatal error, a failed raft with a spare, a window move that can be made and one that cannot, a
map-out of a stack's sixteenth channel and of a seventeenth. -/
theorem test_hyps_RidgesAndWindows_actions :
    let p := { upWith [(Reg.CRS_STATUS.SWAP_PEND, 1)] with now := 10000 }
    let m := { upWith ((Reg.TRS_RAFT_STAT.STATE 0 3, 2) :: (List.range 4).map fun n => (Reg.TRS_CE_LIMIT.LIMIT n, 0)) with reslate := [(0, 3, false)] }
    let h := upWith [(Reg.HIF_HDM.MOVE_PEND, 1), (Reg.HIF_HDM.BASE_GIB, 944)]
    let o := fun n => { upWith [(Reg.FLT_FATAL.FATAL, 0), (Reg.MEM_STAT.OUT 19, n)] with mapOutDue := [(639, true)] }
    p.Canon ∧ p.getF Reg.CRS_STATUS.SWAP_PEND ≠ 0 ∧ p.swapAt + 10000 ≤ p.now ∧ ({ p with now := 9999 } : State).now < p.swapAt + 10000 ∧
    ({ up with power := { up.power with fatal := some 39 } } : State).power.fatal ≠ none ∧
    (m.power.fatal = none ∧ m.reslate = [(0, 9 * 0 + 3, false)] ∧ m.raftPhys 0 3 = 3 ∧ m.getF (Reg.TRS_RAFT_STAT.STATE 0 3) = 2 ∧
      m.getF (Reg.TRS_RAFT_STAT.STATE 0 8) = 1 ∧ (∀ k < 8, m.getF (Reg.TRS_RAFT_STAT.STATE 0 k) ≠ 1) ∧
      (∀ l < 32, l ≠ 8 * 0 + 3 → m.raftInService (l / 8) (l % 8) = true) ∧ (∀ x < 24, m.decInService x = true) ∧
      (∀ n < 4, m.getF (Reg.TRS_CE_LIMIT.LIMIT n) = 0)) ∧
    (h.mapOutDue = [] ∧ h.getF Reg.HIF_HDM.MOVE_PEND ≠ 0 ∧ h.getF Reg.HIF_CTRL.COH_MODE = 0 ∧ h.shared = [] ∧
      h.getF Reg.HIF_HDM.BASE_GIB + 16 ≤ h.hbmCap / 2 ^ 30 ∧ h.hbmCap / 2 ^ 30 < (h.setF Reg.HIF_HDM.BASE_GIB 945).getF Reg.HIF_HDM.BASE_GIB + 16) ∧
    ((o 15).mapOutDue = [(639, true)] ∧ (o 15).power.fatal = none ∧ (∀ b < 32, ((o 15).getF Reg.FLT_FATAL.FATAL).testBit b = false) ∧ 639 < 640 ∧
      (o 15).getF (Reg.MEM_STAT.OUT (639 % 20)) < 16 ∧ 16 ≤ (o 16).getF (Reg.MEM_STAT.OUT (639 % 20))) := by
  refine ⟨canonOf _ (by decide +kernel), ?_⟩
  decide +kernel
/-- A read-write, a clear-on-one and a shadow register; nothing on the submission page but doorbells; a write of COUNT to the RWS table. -/
theorem test_hyps_RegisterWritesFollowTheirAccessCode_rows :
    (∀ x ∈ [(0x10008, 4, false), (0x1000C, 4, false), (0x10100, 8, true)], ∃ r ∈ findReg x.1, rawArea x.1 = false ∧ r.width = 8 * x.2.1 ∧ x.1 % x.2.1 = 0 ∧ x.1 < 0x1000000 ∧
      (r.fields.map fun y => y.2.key).Nodup ∧ r.shadow = x.2.2 ∧ (x.2.2 = true ∨ ownRule x.1 = false)) ∧
    up.getF Reg.CRS_STATUS.SWAP_PEND = 0 ∧ (4 ≠ 8) := by decide +kernel

/-- A ring to enable; an in-use port, the request without FORCE and with; a free target with no drain time. -/
theorem test_hyps_CompletionHeadDoorbell_enable :
    let s := upWith [(Reg.HIF_RING_SQ.BASE 1023, 1), (Reg.HIF_RING_CQ.BASE 1023, 1)]
    s.hubUp ∧ s.Canon ∧ SMap.rising s.rings = true ∧ s.getF (Reg.HIF_RING_CFG.ENABLE 1023) = 0 ∧ s.getF (Reg.HIF_RING_STAT.ACTIVE 1023) = 0 ∧
    s.getF (Reg.HIF_RING_STAT.BUSY 1023) = 0 ∧ (33 : W32).getLsbD 0 = true ∧ s.getF (Reg.HIF_RING_SQ.BASE 1023) ≠ 0 ∧
    s.getF (Reg.HIF_RING_CQ.BASE 1023) ≠ 0 ∧ 4 ≤ bitsOf (33 : W32).toNat 3 4 ∧ bitsOf (33 : W32).toNat 1 2 ≠ 3 :=
  ⟨hubOf _ (by decide), canonOf _ (by decide), by and_intros <;> decide⟩

theorem test_hyps_QuiesceSteps_inUse :
    let q := fun f => reqOf 0 [word [(0, 0x22)], word [(0, 0x5F), (10, f)]]
    let s := fun f => { asked up (q f) with course := some { crs0 with ports := [31] } }
    (∀ f ∈ [0, 1], (s f).Canon ∧ (s f).hubUp ∧ (s f).nextReq 0 0x22 = some (q f) ∧ wbits ((q f).word 1) 8 2 = 0 ∧ targetDefined (wbits ((q f).word 1) 0 8) = true ∧
      ((s f).target 0x5F).queue = [] ∧ (s f).targetInUse 0x5F = true ∧ wbits ((q f).word 1) 10 1 = f ∧ (s f).getF Reg.HIF_QUI_DRAIN.DRAIN_US ≠ 0) ∧
    SMap.rising (s 0).targets = true := by
  refine ⟨?_, by decide⟩
  intro f h
  have := List.mem_cons.1 h
  rcases this with rfl | h
  · exact ⟨canonOf _ (by decide), hubOf _ (by decide), by and_intros <;> decide⟩
  · rcases List.mem_singleton.1 h with rfl
    exact ⟨canonOf _ (by decide), hubOf _ (by decide), by and_intros <;> decide⟩

/-- A copy to the host under way when the host is lost. -/
theorem test_hyps_LossOfTheHost_copies :
    let s : State := { up with svlOps := [⟨none, 4, 1, 1, 9, 0, 12288, (2, 9)⟩, ⟨none, 0, 0, 0, 9, 0, 12288, (2, 9)⟩] }
    s.getF Reg.HIF_CTRL.HL_MODE = 0 ∧ (∀ o ∈ s.svlOps, o.area < 2 ∧ o.slot < 2) ∧ (∃ o ∈ s.svlOps, o.kind = 4) := by decide

/-- Program errors of rafter 31: the first of its die and a later one; no check has failed. -/
theorem test_hyps_RafterProgramsSignalWaitAndEnd_error :
    run.Canon ∧ run.course = some crs0 ∧ crs0.failed = false ∧ 31 < 32 ∧ 0x95 < 256 ∧ run.getF (Reg.TRS_PROG_ERR.VALID (31 / 8)) = 0 ∧
    (runWith [(Reg.TRS_PROG_ERR.VALID 3, 1)]).getF (Reg.TRS_PROG_ERR.VALID (31 / 8)) ≠ 0 ∧ run.fellNow = none ∧ up.course = none :=
  ⟨run_canon, by and_intros <;> decide⟩

/-- No store and no accumulator word is marked: BlockLoad, TileProduct, KernelsRunTheirSheafs, ImageCommands, AttentionOverABatch,
RolloutCache, StreamerMovesBytes and PostedAccessesAndSplices ask for it. -/
theorem test_hyps_nothing_marked : ∀ s ∈ [stocked, tiled, cached, streamed, threads 0], s.badStore = [] ∧ s.badAcc = [] := by decide
theorem test_hyps_TileProduct_slots : SMap.rising (tiled.raft 0).slots = true ∧ SMap.rising (streamed.raft 0).slots = true ∧
    (31 : Nat) ≠ (mmFields (word [(0, 0x11)]) (word [(19, 2)])).slot := by decide

/-- A kernel that may read the first 64 bytes and write the next. -/
def reader (w : W64) : Kernel := { kern w with param := List.replicate 18 0 ++ [8, 0, 0, 0, 0, 0, 1, 0, 8] ++ List.replicate 229 0 }
/-- A sheaf with two threads active. -/
def sheaf2 : Sheaf := { sheaf0 with active := [true, true] ++ List.replicate 62 false }
def reading (w : W64) : State := stocked.setRaft 0 { Raft.fresh with kernel := some (reader w), sheafs := [sheaf2] }
/-- LD of four bytes of class `f`, and ST of format `f` at `imm`. -/
def ldOf (f : Nat) : W64 := word [(0, 0x60), (29, 4), (37, f)]
def stOf (f imm : Nat) : W64 := word [(0, 0x61), (37, f), (40, imm)]

/-- Loads that break nothing and loads that break a rule, of each class, and stores in range and out of it. -/
theorem test_hyps_ThreadExchangeAndMemory :
    (∀ f ∈ [0, 1, 2, 3], let w := ldOf f
      (reading w).threadAt 0 0 0x60 w = some (crs0, reader w, sheaf2) ∧ broken (thCodes (regsOf 0) 0x60 w) = [] ∧
      (reading w).badTid crs0 (tidOf (reader w) w) = false ∧ (reading w).working = some crs0 ∧ sheaf2.pc + 1 < (reader w).code.length) ∧
    (∀ x ∈ [(4, 64), (4, 0), (2, 64)], let w := stOf x.1 x.2
      (reading w).threadAt 0 0 0x61 w = some (crs0, reader w, sheaf2) ∧ broken (thCodes (regsOf 0) 0x61 w) = [] ∧
      (reading w).badTid crs0 (tidOf (reader w) w) = false) ∧
    (∀ f ∈ [0, 1, 2, 3], thSub (ldOf f) = f) ∧ thC (ldOf 0) % 8 = 4 ∧
    (∀ f ∈ [0, 3], ldCodes (sheaf2.lives.map ((reading (ldOf f)).ldThread 0 crs0 (reader (ldOf f)) sheaf2 (ldOf f))) = []) ∧
    (∀ f ∈ [1, 2], ldCodes (sheaf2.lives.map ((reading (ldOf f)).ldThread 0 crs0 (reader (ldOf f)) sheaf2 (ldOf f))) ≠ []) ∧
    (thAddr (ldOf 0) 0 % 4 = 0 ∧ inRange (reader (ldOf 0)).readable 0 4 = true ∧ (reading (ldOf 0)).rsOk 0 0 4 = true) ∧
    (thSub (stOf 4 64) = 4 ∧ thAddr (stOf 4 64) 0 = 64 ∧ inRange [paramWr (reader 0).param] 64 4 = true ∧ inRange [paramWr (reader 0).param] 0 4 = false ∧
      thSub (stOf 2 64) = 2 ∧ inRange [paramWr (reader 0).param] 64 16 = true ∧ inRange [paramWr (reader 0).param] 0 1 = false) := by decide +kernel
/-- A block of an image command at 0: tensors of four-byte elements at 1024, 2048 and 3072, the first `ch` channels deep and the others `co`, and words 6 and 7. -/
def imageBlock (ch co w6 w7 : Nat) : Memory :=
  let t := fun a c => a + 4 * 2 ^ 19 + (c - 1) * 2 ^ 32 + 0xFFFF * 2 ^ 48
  memOf [(0, t 16 ch), (16, t 32 co), (32, t 48 co), (48, w6), (56, w7)]
def imageAsked (ch co w6 w7 : Nat) : State := { stocked with rstore := imageBlock ch co w6 w7 }
/-- The codes a block breaks, for each command. -/
def imageBad (s : State) (op : Nat) : List Nat :=
  let b := vBlock (s.rsRead 0 0 128)
  let x := if op = 0x41 then dwconvCmd 0 b false else if op = 0x42 then poolCmd 0 b false else if op = 0x43 then resampCmd 0 b false
    else if op = 0x44 then boxdecCmd 0 b false else nmsCmd 0 b false
  broken ([(!b.reserved, 0x90)] ++ x.used.flatMap (s.tensorCodes crs0) ++ x.codes ++ s.rangeCodes 0 x.reads ++ [(!x.writes.all inStore, 0x92)])

/-- Each image command with a block that breaks no rule. -/
theorem test_hyps_ImageCommands_good :
    (∀ x ∈ [(0x41, 1, 1), (0x42, 1, 1), (0x43, 1, 1), (0x44, 4, 4), (0x45, 4, 1)], let s := imageAsked x.2.1 x.2.2 0 (64 * 2 ^ 32)
      imageBad s x.1 = [] ∧ Memory.wf s.rstore = true ∧ s.mayIssue 0 (word [(0, x.1)]) 0 = some crs0 ∧ s.rsOk 0 0 128 = true) ∧
    overlaps 2048 4 4096 4 = false := by decide +kernel
/-- An attention block at 0, BF16 in and FP32 out, with one head and one entry of one query and one key, for AT.FWD and, with `g`, for AT.BWD. -/
def attBlock (g : Bool) : Memory :=
  let x := if g then 1 else 0
  memOf [(0, 64 + 128 * 2 ^ 19 + 192 * 2 ^ 38 + 3 * 2 ^ 57), (8, 256 + 320 * 2 ^ 19 + 384 * 2 ^ 38), (16, 4 * 2 ^ 42), (24, 0x3F8000003F800000),
    (32, 2 ^ 64 - 1), (40, 1024), (48, x * (448 + 512 * 2 ^ 19 + 576 * 2 ^ 38)), (56, x * (2 ^ 64 - 1)), (64, x * (640 + 0xFFFF * 2 ^ 19)),
    (0x6000, 2 ^ 32), (0x6008, 2 ^ 32)]
def attAsked (g : Bool) : State := { stocked with rstore := attBlock g, rsWritten := List.range 16 }
def attBad (g : Bool) : List Nat :=
  let s := attAsked g
  let b := atBlock (s.rsRead 0 0 128)
  let es := s.ltEntries 0 b
  let w := fmtBytes b.fmt
  let v := fmtBytes b.ofmt
  broken (s.atCodes crs0 b ++ (if g then [([b.tidDO, b.tidDQ, b.tidDK, b.tidDV, b.tidDS].any (s.badTid crs0), 0x91)] else [(!b.noGrad, 0x90)]) ++
    s.rangeCodes 0 [(b.lt, 16 * b.nseq)] ++ [(!inStore (b.scr, 0x200000), 0x92)] ++ [(!ltRising es, 0x91)] ++
    s.rangeCodes 0 (es.flatMap fun e => [b.qRange b.q w e, b.kRange b.k w e, b.kRange b.v w e, b.qRange b.o v e, b.lseRange e, b.qRange b.dO w e,
      b.qRange b.dQ v e, b.kRange b.dK v e, b.kRange b.dV v e]))

set_option maxRecDepth 100000 in
/-- A batch that breaks no rule, its rows apart; one real key; a row of AT.BWD; no real key before position 0. -/
theorem test_hyps_AttentionOverABatch_good :
    attBad false = [] ∧ attBad true = [] ∧
    (∀ g ∈ [false, true], let s := attAsked g; let b := atBlock (s.rsRead 0 0 128); let w := fmtBytes b.ofmt
      s.ltEntries 0 b = [⟨0, 1, 0, 1⟩] ∧ b.hq = 1 ∧ b.hkv = 1 ∧ s.rsOk 0 0 128 = true ∧ SMap.rising s.rafts = true ∧ sigEn (word [(0, 0x80)]) = false ∧
      (s.raft 0).seg = none ∧ s.working = some crs0 ∧
      overlaps (b.qRange b.o w ⟨0, 1, 0, 1⟩).1 (b.qRange b.o w ⟨0, 1, 0, 1⟩).2 (b.lseRange ⟨0, 1, 0, 1⟩).1 (b.lseRange ⟨0, 1, 0, 1⟩).2 = false ∧
      (s.atMath b).real 0 0 = true ∧ ({ s.atMath b with mask := 1 } : AtMath).real (-1) 0 = false ∧ (g = true →
        [(b.qRange b.dQ w ⟨0, 1, 0, 1⟩, b.kRange b.dK w ⟨0, 1, 0, 1⟩), (b.qRange b.dQ w ⟨0, 1, 0, 1⟩, b.kRange b.dV w ⟨0, 1, 0, 1⟩),
          (b.kRange b.dK w ⟨0, 1, 0, 1⟩, b.kRange b.dV w ⟨0, 1, 0, 1⟩)].all (fun y => !overlaps y.1.1 y.1.2 y.2.1 y.2.2) = true)) := by decide +kernel
/-- A pool of eight pages, one layer of up to four blocks, its tables apart. -/
def conf1 : KvConf := { conf0 with mapBase := 0x100000, refBase := 0x200000, logBase := 0x300000, layers := 1, maxBlocks := 4, pages := 8 }

/-- FORK of a live sequence's one token to a free one, TRUNC to none and FREE; a token that opens a block, and one that writes to a block its
sequence must not write to. -/
theorem test_hyps_RolloutCache_edits :
    let k := conf1
    let w : State := { cached with kv := { cached.kv with seqs := [(0, ⟨.live, 1, 1, true, 1⟩)] } }
    cached.kvLog < 65536 ∧ cached.kvPast k = false ∧
    overlaps k.mapBase (4096 * k.layers * k.maxBlocks * 4) k.refBase (2 * k.pages) = false ∧
    overlaps k.mapBase (4096 * k.layers * k.maxBlocks * 4) k.logBase (2 ^ 20) = false ∧ overlaps k.refBase (2 * k.pages) k.logBase (2 ^ 20) = false ∧
    ((cached.kvSeq 4095).st = .free ∧ (cached.kvSeq 0).st = .live ∧ 1 ≤ (cached.kvSeq 0).len ∧ ceilDiv 1 128 = 1 ∧ 1 ≤ k.maxBlocks ∧
      cached.kvPages k 0 0 1 = [0] ∧ [0].Nodup ∧ 0 < k.pages ∧ cached.kvRef k 0 < 65535) ∧
    (0 ≤ (cached.kvSeq 0).len ∧ ceilDiv 0 128 = 0 ∧ (cached.kvSeq 0).nb = 1) ∧
    (128 / 128 = (cached.kvSeq 0).nb ∧ (decide ((cached.kvSeq 0).nb < (cached.kvSeq 0).top) && cached.kvBusy 0) = false ∧ k.layers ≤ cached.kvFree k) ∧
    (w.kvLog < 65536 ∧ 1 / 128 ≠ (w.kvSeq 0).nb ∧ (w.kvSeq 0).wp = true ∧ 1 / 128 + 1 = (w.kvSeq 0).nb ∧ w.kvBusy 0 = false ∧ 1 ≤ w.kvFree k) := by
  decide +kernel
/-- A migration whose source is dead: its granule served there, and served by a map-out that has moved it. -/
theorem test_hyps_HbmTemperatureScrubAndRetraining_dead :
    let g : Mig := ⟨0, 3, 3, some 32, 1, true⟩
    let m : State := { upWith [(Reg.MEM_LCH_MIG.TOTAL 0 3, 2), (Reg.MEM_LCH_MIG.DONE 0 1, 5)] with migs := [g], lam := [60] }
    let o : State := { m with migs := [⟨0, 1, 1, none, 1, true⟩, g] }
    up.power.fatal = none ∧ g.dead = true ∧ m.getF (Reg.MEM_LCH_MIG.DONE 0 3) + 1 ≠ m.getF (Reg.MEM_LCH_MIG.TOTAL 0 3) ∧
    (m.migOf 0 3 = some g ∧ (m.placeOf (m.migGranule g 0 * 4096)).1 = 20 * 3 + 0) ∧
    (o.migOf 0 3 = some g ∧ (o.placeOf (o.migGranule g 0 * 4096)).1 ≠ 20 * 3 + 0) := by decide +kernel
/-- Loads from loft and from the host, and a store to loft: loft 0 to 4095 written, one aperture page valid. -/
def lofted : State :=
  { streamed with
    regs := (streamed.setFs [(Reg.HIF_APT_CFG.EN, 1), (Reg.HIF_STATUS.LINK_UP, 1)]).regs, hbm := memOf [(0, 3 + 2 ^ 21)], loft := [(3, 7)], loftWritten := [0] }

theorem test_hyps_StreamerMovesBytes_tiers :
    let ld := word [(0, 0x20)]
    let st := word [(0, 0x21)]
    let l1 := word [(36, 1)]
    let l3 := word [(36, 3)]
    let sig := word [(0, 0x20), (13, 1)]
    (∀ b ∈ [false, true], let w := if b then l3 else l1
      lofted.mayIssue 0 ld w = some crs0 ∧ lofted.mayIssue 0 st w = some crs0 ∧ wellFormedWords 0x20 ld w = true ∧
      (stFields ld w).cls = 0 ∧ inStore ((stFields ld w).near, (stFields ld w).n) = true) ∧
    (stFields ld l1).tier = 1 ∧ (stFields st l1).tier = 1 ∧ (stFields st l1).comp = false ∧ wellFormedWords 0x21 st l1 = true ∧ lofted.inSave 1 0 = false ∧
    lofted.farBad 1 0 64 = false ∧ lofted.loftOk 0 0 64 = true ∧ lofted.rsOk 0 0 64 = true ∧
    (stFields ld l3).tier = 3 ∧ lofted.inSave 3 0 = false ∧ lofted.farBad 3 0 64 = false ∧ lofted.pieces crs0 3 0 64 false = [⟨3, 0, 64⟩] ∧
    lofted.getF Reg.HIF_CTRL.COH_MODE = 0 ∧ (lofted.aptAccess false false (aptPieces 0 64) []).1 ≠ none ∧
    (List.replicate 64 (0 : Byte)).length = (stFields ld l3).n ∧
    (sigEn sig = true ∧ lofted.event 0 (sigEv sig) < 0xFFFF ∧ (sigEv sig < (lofted.raft 0).events.length ∨ 12 ≤ sigEv sig)) := by decide +kernel

/-- A splice at instruction 0 of rafter 0 for save point 0, its segment at 0x420000; the save point discarded, lost, kept; its reloads none,
whole, and one not ended whose bytes have arrived in part. -/
def saved (dec : Decision) (lost : Bool) (ls : List RunAhead) : State :=
  { stocked.setRaft 0 { Raft.fresh with ahead := ls } with
    hbm := memOf [(0x4000C0, 2 ^ 16), (0x4000D0, 0x410000), (0x410008, 0x420000)], saves := [⟨0, 4096, 1, dec, 0, 4096, 0, 0, 0, 4096, lost, 5⟩] }
def reload (ended whole : Bool) : RunAhead := ⟨some 0, 0, 64, [⟨2, 0x4000C0, 64⟩], false, none, ended, whole, false, none, false, 0⟩

theorem test_hyps_PostedAccessesAndSplices_splice :
    (∀ d ∈ [Decision.discard, .keep, .host], ∀ lost ∈ [true, false], (saved d lost []).nextSplice crs0 0 = some ⟨0, 0, 0x420000, 0⟩ ∧
      (saved d lost []).saveAt 0 = some ⟨0, 4096, 1, d, 0, 4096, 0, 0, 0, 4096, lost, 5⟩ ∧ (saved d lost []).working = some crs0) ∧
    crs0.running.contains 0 = true ∧ SMap.rising (saved .keep false [reload true true]).rafts = true ∧
    (∀ x ∈ [(true, true), (false, false)], let s := saved .keep false [reload x.1 x.2]
      s.nextSplice crs0 0 = some ⟨0, 0, 0x420000, 0⟩ ∧ (s.raft 0).ahead.filter (fun l => l.reloads 0) = [reload x.1 x.2]) ∧
    (reload false false).sig = none ∧ (0 : Nat) < 64 ∧
    (∀ q ∈ sectorsOf 0x4000C0 64, (saved .keep false [reload false false]).sectorState q = .clean) := by decide +kernel
/-! Gutters, parapet, boot, trust and power. -/

/-- R502, R505, R508: the cycle of a pointer mismatch, a read in it, and the stale-tail timer before its end and at it. -/
theorem test_hyps_GuttersAndFaultFlags_cycle :
    let u : State := { upWith [(Reg.GUT_STALE.STALE_NS, 0)] with now := 100 }
    let x : GutRead := ⟨100, none, 5, false, 5⟩
    let rst := fun i => u.setGutter i { Gutter.fresh with resetAt := some 100, got := some x }
    let old := fun t => u.setGutter 0 { gutNear with timer := t, resetAt := some 99, got := some { x with at_ := 99 } }
    let hub := { u with power := { u.power with coreRails := false } }
    (∀ i ∈ [0, 1], (rst i).gutterLive i = true ∧ ((rst i).gutter i).resetAt = some 100 ∧ ((rst i).gutter i).got = some x ∧
      (u.gutter i).resetAt ≠ some 100 ∧ (u.gutter i).readNow 100 = none ∧ (u.gutter i).r = none) ∧
    (∀ y ∈ u.targets, y.2.queue = []) ∧ (0 : Nat) < u.hbmCap ∧ u.course = none ∧ u.getF Reg.GUT_STALE.STALE_NS ≤ 64 ∧
    ((old 36).gutter 0).occ ≠ 0 ∧ ((old 36).gutter 0).timer + max 64 ((old 36).getF Reg.GUT_STALE.STALE_NS) ≤ 100 ∧
    100 < ((old 37).gutter 0).timer + max 64 ((old 37).getF Reg.GUT_STALE.STALE_NS) ∧
    ((old 36).gutter 0).resetAt ≠ some 100 ∧
    ((u.setGutter 0 { Gutter.fresh with got := some x }).gutter 0).readNow 100 = some x ∧
    (∀ b ∈ [33, 43], isEventSource b = true ∧ 32 ≤ b ∧ b ≠ 36 ∧ b ≠ 44) ∧ isEventSource 44 = true ∧ hub.power.hubRails = true ∧
    hub.power.coreRails = false ∧ hub.mergeAt = none ∧ State.reset.mergeAt = none ∧ ({ up.power with step := .standby } : Power).step ≠ .off := by
  decide +kernel

/-- R528, R545: each other command passes every check but its own signature, which is a hypothesis here; SET_COOL under a manifest that
bounds its operands by 0. -/
theorem test_hyps_ParapetCommands_unsigned (sig : ∀ (s : State) (ws : List W64), s.ppSigned ws = true) :
    ∀ x ∈ [(2, (1 : W64), (0 : W64)), (4, 0, 1), (3, 0, 0), (5, 70, 0), (5, 110, 0), (6, 0, 0), (7, 0, 0)],
      let ws := [word [(0, 0x9A7E), (16, x.1)], 1, 0, x.2.1, x.2.2] ++ List.replicate 15 0
      wbits (ws.getD 0 0) 16 8 = x.1 ∧ (withBoot (served ppKey) { (served ppKey).boot with manifest := some [] }).ppCheck 0 ws = 0 := by
  simp only [State.ppCheck, sig]; decide +kernel

/-- R538, R339: the bounds of the warnings and of their clearing. -/
theorem test_hyps_ParapetGovernance_bounds :
    let s := served ppKey
    let f := { s with power := { s.power with floorOn := true, floorCw := 100 } }
    s.getF Reg.PPT_THERM.JT_WARN ≤ 255 ∧ (s.getF Reg.PPT_THERM.JT_WARN - 5) + 5 ≤ s.getF Reg.PPT_THERM.JT_WARN ∧ (105 : Nat) < 256 ∧
    (f.setF Reg.PPT_IDLE.IDLE_W 0).floorTarget < 100 ∧ (f.setF Reg.PPT_IDLE.IDLE_W 1).floorTarget = 100 ∧
    (s.getF Reg.FLT_LINES.LINES).testBit 39 = false ∧ (s.getF Reg.FLT_FATAL.FATAL).testBit 39 = true ∧ s.power.step = .good := by decide +kernel

/-- R552, R554, R555: an identity that failed, offered objects that fill their pages and that do not, a manifest to bring back, a host reset during a
host's offer. -/
theorem test_hyps_BootStages_offers :
    let b := up.boot
    let win := (withBoot (booting 4) { b with window := true, reading := some 2 }).setF Reg.SEC_BOOT_LEN.PAGES 2
    let old := withBoot up { b with manOld := some (some []) }
    ((booting 1).inStage 1 = true ∧ (booting 1).boot.idFail = false ∧ (withBoot (booting 1) { b with idFail := true }).boot.idFail = true) ∧
    win.boot.reading = some 2 ∧ win.getF Reg.SEC_BOOT_LEN.PAGES * 4096 = 8192 ∧ win.offered 2 none = none ∧ win.offered 2 (some [0]) = none ∧
    (win.offered 3 (some [0]) = some [0] ∧ objPurpose [0] ≠ 2 ∧ win.verifyObj [0] 1 ≠ 0) ∧ win.getF Reg.SEC_BOOT_STAT.ERR_VALID = 0 ∧
    old.boot.manOld = some (some []) ∧ (withBoot (booting 5) { b with chosen := some [] }).boot.chosen = some [] ∧
    ((booting 5).getF Reg.SEC_BOOT_STAT.SRC < 2 ∧ ((booting 5).setF Reg.SEC_BOOT_STAT.SRC 2).getF Reg.SEC_BOOT_STAT.SRC = 2) := by
  decide +kernel

/-- R565: messages of the domain and of another, before the lock, at it and after; PPS present; the time base off by less than a millisecond and more. -/
theorem test_hyps_TrustAndTime_ptp :
    let s := served admin1
    let lk := (withBoot { s with now := 1000000000, timeBase := 2000000000 } { s.boot with ppsAt := some 0 }).setF Reg.SEC_PTP.LOCKED 1
    s.getF Reg.SEC_PTP.DOMAIN ≠ 1 ∧ (-(2 ^ 31) : Int) ≤ 1000 ∧ (1000 : Int) < 2 ^ 31 ∧ (1000 : Int).natAbs ≤ 1000 ∧ 1000 < (1001 : Int).natAbs ∧
    (999999 : Int).natAbs < 1000000 ∧ 1000000 ≤ (1000000 : Int).natAbs ∧ lk.ppsPresent = true ∧ (1000000000 : Nat) ≤ 2000000000 ∧
    s.calNs + 1000000 < 1000001 ∧ ({ s with calNs := 1000001 } : State).calNs = 1000001 ∧
    (s.pldmSensors.isSome = true ∧ up.pldmSensors = none) ∧ up.bolyelUp = false := by decide +kernel

/-- R573, R577 to R580: every step with J1, REF25 and MODRST_N good and bad; R581: a trip during the rise. -/
theorem test_hyps_PowerSequence_steps :
    let p := fun (x : Power) => ({ up with power := x } : State)
    let w := { up.power with step := .wait, thermtripN := true, fails := 2, j1Ok := true, refOk := true }
    (p w).power.j1Ok = true ∧ (p w).power.refOk = true ∧ (p w).belowTrips 1 = true ∧ (p { w with j1Ok := false }).power.j1Ok = false ∧
    (p { w with refOk := false }).power.refOk = false ∧ (p { w with thermtripN := false }).power.thermtripN = false ∧
    (∀ x ∈ [PwrStep.rails, .plls], (p { w with step := x }).power.step = x ∧ (p { w with step := x }).power.hubRails = true ∧ (p { w with step := x }).rising = true) ∧
    (p { w with hubRails := false }).power.hubRails = false ∧ (p { w with modrstN := false }).power.modrstN = false ∧ w.modrstN = true ∧
    (up.power.step = .good ∧ up.power.modrstN = true ∧ (p { up.power with modrstN := false }).power.step = .good ∧
      (p { up.power with modrstN := false }).rising = true) ∧
    up.rising = false ∧ (p { up.power with step := .off }).power.step = .off ∧
    ((p { up.power with step := .off }).pending = [] ∧ (p { up.power with step := .off }).working = none ∧ up.pending = [] ∧ up.working = none ∧ up.power.step ≠ .off) ∧
    ((up.setF Reg.CRS_KV_STAT.ROLLBACK 1).getF Reg.CRS_KV_STAT.ROLLBACK ≠ 0 ∧ up.power.coreRails = true) := by decide +kernel

/-! The hot spare and the protected module; ports, timetables and media. -/

/-- The hot spare is position 7; module 7 is protected. -/
def hotSpare : State := paired.setFs [(Reg.SVL_HOT.HOTEN, 1), (Reg.SVL_HOT.HOTPOS, 7)]
def protecting : State := paired.setFs [(Reg.SVL_HOT.HEN, 1), (Reg.SVL_HOT.PROTECTS, 7)]
def sark7 (rt : Nat) : SarkHdr := ⟨rt, false, 7, 2, 9, 0xFFFFFFFFFFFF, 3, 0⟩

/-- R480, R481: pairing words that change the partner, the hot spare or the protected module, and that do not. R479, R482: records of the hot spare
and of the protected module, whose slot is free, and is filled from it. -/
theorem test_hyps_SarkStreamAndPairing_others :
    let hdr := fun rt => sarkOf (sarkHead (sark7 rt) (if rt = 1 then leBytes 64 2 else []))
    let f : Fill := ⟨1, 0, 9, none, [1, 2], false, false⟩
    ((5 : W32).toNat % 4096 = paired.getF Reg.SVL_PAIR.PARTNER ∧ (6 : W32).toNat % 4096 ≠ paired.getF Reg.SVL_PAIR.PARTNER) ∧
    ((0x70007 : W32).toNat / 2 ^ 16 % 4096 = hotSpare.getF Reg.SVL_HOT.HOTPOS ∧ (7 : W32).toNat / 2 ^ 16 % 4096 ≠ hotSpare.getF Reg.SVL_HOT.HOTPOS ∧
      (7 : W32).toNat % 4096 = protecting.getF Reg.SVL_HOT.PROTECTS ∧ (0 : W32).toNat % 4096 ≠ protecting.getF Reg.SVL_HOT.PROTECTS) ∧
    (∀ rt ∈ [1, 2, 3], (hdr rt).rtype = rt ∧ (hdr rt).spos = 7 ∧ (hdr rt).dom = 2 ∧ (hdr rt).push = false ∧ (hdr rt).base = 0xFFFFFFFFFFFF ∧
      (hdr rt).course = f.course) ∧
    (∀ s ∈ [hotSpare, protecting], (s.getF Reg.HIF_FUNC_EN.EN).testBit 3 = true ∧ s.gateStatus 0x103 = none ∧ s.sarkCut.contains 7 = false ∧
      s.refusedSrc.contains 7 = false ∧ s.getF Reg.SVL_PSTAT.OWN_DOM = 1 ∧ s.getF Reg.SVL_PAIR.PARTNER ≠ 7) ∧
    (hotSpare.getF Reg.SVL_HOT.HOTEN ≠ 0 ∧ hotSpare.getF Reg.SVL_HOT.HOTPOS = 7 ∧ hotSpare.getF Reg.SVL_HOT.HEN = 0) ∧
    (protecting.getF Reg.SVL_HOT.HEN ≠ 0 ∧ protecting.getF Reg.SVL_HOT.PROTECTS = 7 ∧ protecting.fillOf 1 = none ∧ protecting.otherSlot 1 = 0 ∧
      protecting.getF (Reg.SVL_SLOT.HOLD 1 0) = 0 ∧ protecting.slotStreams 1 0 = false ∧ paired.slotStreams 1 0 = false) ∧
    (let s := { protecting with fills := [f], partSrc0 := some 7 }
     s.fills = [f] ∧ f.slot < 2 ∧ (if f.slot = 0 then s.partSrc0 else s.partSrc1) = some 7) := by decide +kernel

/-- Their CRCs are right. -/
theorem test_hyps_SarkStreamAndPairing_others_whole :
    sarkGood (sarkHead (sark7 2) [] ++ List.replicate 8192 0) = true ∧ sarkGood (sarkHead (sark7 3) [] ++ []) = true ∧
    sarkGood (sarkHead (sark7 1) (leBytes 64 2) ++ List.replicate 4096 0) = true :=
  ⟨(sark_crc _ [] (List.replicate 8192 0) (by decide) 2 (by decide +kernel) (by decide)).1,
   (sark_crc _ [] [] (by decide) 3 (by decide +kernel) (by decide)).1,
   (sark_crc _ (leBytes 64 2) (List.replicate 4096 0) (by decide) 1 (by decide +kernel) (by decide)).1⟩

/-- R433, R434, R438: HELLO over eight lanes at the bounds of the latency; lanes adopted and not; a fatal fault; eight to fifteen lanes at the end. -/
theorem test_hyps_LinkBringUpAndLoss_lanes :
    let b := fun failed => up.setPort 31 { Port.fresh with step := 1, failed := failed }
    let d := up.setPort 31 { Port.fresh with step := 7, mapDue := true, adopted := [17] }
    let n := fun failed => up.setPort 31 { Port.fresh with step := 6, failed := failed }
    8 ≤ (b (List.range 10)).lanesTrained 31 ∧ (b (List.range 11)).lanesTrained 31 < 8 ∧ (2000 : Nat) < 2001 ∧
    (d.port 31).step = 7 ∧ (d.port 31).mapDue = true ∧ d.power.fatal = none ∧ (∀ l ∈ (d.port 31).adopted, l < 18) ∧
    ((0 : Nat) ∉ (d.port 31).adopted ∧ d.getF (Reg.LNK_LANE_STAT.STATE 31 0) = 0) ∧
    ({ d with power := { d.power with fatal := some 44 } } : State).power.fatal ≠ none ∧
    ((n []).lanesTrained 31 = 18 ∧ (n (List.range 10)).lanesTrained 31 = 8 ∧ (n [0, 1, 2]).lanesTrained 31 = 15 ∧ (n []).getF Reg.CRS_CTRL.ENABLE = 0) ∧
    (∀ p ∈ [0, 31], ∀ st ∈ [1, 5], 1 ≤ st ∧ st ≤ 5 ∧ (up.port p).step = 0) ∧ (d.setPort 31 { Port.fresh with fails := 2 , step := 6 }).port 31 ≠ Port.fresh := by
  decide +kernel

/-- R429 to R431, R458, R466: a bad codeword, a flit out of order, an idle ACK, idle flits that name a command; a repair a fatal fault forbids; a
notice for a course that has failed, that has been relayed, and of another timetable. -/
theorem test_hyps_FlitsRepairsAndNotices_more :
    let u := upWith [(Reg.LNK_STAT.UP 31, 1)]
    let bad : RxFlit := ⟨0, 0, false, [], 0⟩
    let c := fun failed relayed => { crs0 with img := { img0 with ttIdx := 0 }, failed := failed, relayed := relayed }
    bad.codeword = false ∧ (1 : Nat) ≠ ((u.port 31).rxSeq + 1) % 4096 ∧ (u.port 31).wait = [] ∧ (acked 0 (u.port 31).replay).length < 2048 ∧
    ({ u with power := { u.power with fatal := some 39 } } : State).power.fatal ≠ none ∧ u.power.fatal = none ∧
    (c true false).failed = true ∧ (c false false).failed = false ∧ (c true false).relayed = false ∧ (c false true).relayed = true ∧
    (c false false).img.hasTt = true ∧ u.ttId (c false false).img.ttIdx ≠ 1 ∧ (c false false).counter % 2 ^ 32 ≠ 8 ∧
    ({ u with course := some (c true false) } : State).course = some (c true false) := by decide +kernel

/-- Good flits: of FSEQ 1 and of data, and idle ones whose first byte names nothing, 0, and the last command. -/
theorem test_hyps_FlitsRepairsAndNotices_idle : ∀ x ∈ [(0, 5), (6, 5), (255, 5), (0, 0)], ∀ q ∈ [0, 1, 4095], ∀ nak ∈ [0, 1],
    let f := goodFlit x.1 (q + 2 ^ 24 * nak + 2 ^ 25 * x.2)
    rxGood f = true ∧ rxFtype f = x.2 ∧ rxFseq f = q ∧ rxNak f = decide (nak = 1) := by
  intro x hx q hq n hn
  have hl : x.2 < 8 ∧ q < 4096 ∧ n < 2 ∧ ([4, 6, 7].contains x.2) = false := by
    simp only [List.mem_cons, List.not_mem_nil, or_false] at hx hq hn
    rcases hx with rfl | rfl | rfl | rfl <;> rcases hq with rfl | rfl | rfl <;> rcases hn with rfl | rfl <;> decide
  have e : (q + 2 ^ 24 * n + 2 ^ 25 * x.2) / 2 ^ 25 % 8 = x.2 := by omega
  have a := flitOf_good (BitVec.ofNat 8 x.1 :: List.replicate 199 0) (q + 2 ^ 24 * n + 2 ^ 25 * x.2) (by simp only [List.length_cons, List.length_replicate])
    (by omega) (by rw [e]; exact hl.2.2.2)
  refine ⟨a.1, a.2.1.trans e, a.2.2.1.trans (by omega), a.2.2.2.2.trans ?_⟩
  rw [show (q + 2 ^ 24 * n + 2 ^ 25 * x.2) / 2 ^ 24 % 2 = n by omega]

/-- `ttRun` whose entries 0, 2 and 3 signal event 0, which counts `n`; entry 2 is of kind `k`, entry 3 reduces in BF16. -/
def ttSig (k n : Nat) : State :=
  { ttRun with
    hbm := [(0xA0, 2 ^ 50), (0x100, 25000 + 2 ^ 49 + k * 2 ^ 50), (0x120, 2 ^ 50), (0x160, 1 + 2 ^ 8 + 2 ^ 50), (0x408, 3 * 2 ^ 12)].foldl
      (fun m x => m.write x.1 (leBytes 8 x.2)) ttBytes, modEvents := SMap.put 0 0 n [] }
def ttSigAt (k n e : Nat) (st : SlotSt) : State := { ttSig k n with course := some { ttCrs with slots := ttCrs.slots.set e st } }

/-- R447, R448, R450, R454: entries that signal, below the event counter's end and at it; a reduction of BF16 of even and odd length, and one of FP32
of a length that is no multiple of 4; a header of kind 6. -/
theorem test_hyps_TimetableSlots_signals :
    let tx := (ttSigAt 0 0xFFFE 0 ⟨true, false, 0, false⟩).setPort 0 { Port.fresh with tx := some 0 }
    let x := fun k e => (ttSig k 0).slotE 0 e
    let got := fun n => (⟨false, true, n, false⟩ : SlotSt)
    let h := headerBytes 0 7 0 (x 6 2) 0
    (∀ n ∈ [0, 0xFFFE, 0xFFFF], (ttSig 0 n).coreUp ∧ SMap.rising (ttSig 0 n).modEvents = true ∧ SMap.look 0 0 (ttSig 0 n).modEvents = n) ∧
    tx.slotAt 0 = some ({ ttCrs with slots := ttCrs.slots.set 0 ⟨true, false, 0, false⟩ }, x 0 0, ⟨true, false, 0, false⟩) ∧
    (x 0 0).sigEn = true ∧ (x 0 0).sigEv = 0 ∧ (tx.port 0).tx = some 0 ∧ (x 0 0).kind = 0 ∧ (tx.port 0).wait = [] ∧ (tx.port 0).replay = [] ∧
    (∀ n ∈ [0xFFFE, 0xFFFF], (ttSigAt 0 n 2 (got 64)).slotAt 2 = some ({ ttCrs with slots := ttCrs.slots.set 2 (got 64) }, x 0 2, got 64)) ∧
    (x 0 2).sigEn = true ∧ (x 0 2).sigEv = 0 ∧ (x 0 2).kind = 0 ∧ (x 0 2).tier = 2 ∧ (x 0 2).addr + 64 ≤ ttRun.hbmCap ∧
    (∀ n ∈ [4, 5], (ttSigAt 0 0 3 (got n)).slotAt 3 = some ({ ttCrs with slots := ttCrs.slots.set 3 (got n) }, x 0 3, got n)) ∧
    (x 0 3).kind = 1 ∧ (x 0 3).tier = 2 ∧ ((ttSig 0 0).group 0 (x 0 3).arg).2 = 3 ∧ (∀ q ∈ sectorsOf (x 0 3).addr 4, ttRun.sectorState q = .clean) ∧
    (ttWith 3 (got 5)).slotAt 3 = some ({ ttCrs with slots := ttCrs.slots.set 3 (got 5) }, ttRun.slotE 0 3, got 5) ∧ 5 % 4 ≠ 0 ∧ 5 % 2 ≠ 0 ∧
    (x 6 2).kind = 6 ∧ (x 6 2).recv = true ∧ (ttSig 6 0).headerGood ttCrs (x 6 2) h = true ∧ (ttSig 6 0).slotAt 2 = some (ttCrs, x 6 2, SlotSt.fresh) :=
  ⟨fun n hn => ⟨coreOf _ (by rfl), by
    simp only [List.mem_cons, List.not_mem_nil, or_false] at hn; rcases hn with rfl | rfl | rfl <;> decide⟩, by and_intros <;> decide +kernel⟩

/-- A decode job table at 0x1000: one sample of a sensor and a camera, whose entry is at 0x2000 and whose region at 0x10000. The sensor's record
lies at its time; the camera's one frame a nanosecond off. -/
def decMem : Memory :=
  memOf [(0x1000, 0xDEC1 + 2 ^ 32), (0x1008, 0x10000), (0x1010, 2 ^ 32), (0x1018, 0x2000), (0x1038, 0xcd293be4),
    (0x1040, 1 + 3 * 2 ^ 5), (0x1090, 2), (0x10C0, 3 * 2 ^ 5), (0x1110, 3),
    (0x2040, 0x3000 + 2 ^ 43), (0x2048, 16), (0x2060, 0x4000 + 2 ^ 43), (0x2068, 64), (0x2070, 0x5000), (0x3008, 0x3F800000),
    (0x5000, 1), (0x5008, 2 ^ 40)]
/-- An encode job table at 0x6000: one picture of 64 × 64 from 0x10000 to 0x40000. -/
def encMem (tier : Nat) : Memory :=
  memOf [(0x6000, 0xE7C1 + 3 * 2 ^ 18), (0x6008, 63 + 63 * 2 ^ 16), (0x6010, 3224 * 2 ^ 32), (0x6018, 0x10000), (0x6020, 0x40000 + tier * 2 ^ 42),
    (0x6028, 4499), (0x6030, 0x50000), (0x6038, 0xcd604205)]
def mediaReq (a kind : Nat) : Req := reqOf 0 [word [(0, 0x10)], word [(0, a), (48, kind)]]
def mediaIdle : State := upWith [(Reg.MED_WORK_LEN.PAGES, 1)]
def decoding (retried : Bool) : State :=
  { mediaIdle with hbm := decMem, jobs := [⟨mediaReq 0x1000 0, false, 0, 0, [], retried, 0, [], []⟩] }
def encoding (retried : Bool) (faults : List (Nat × Nat)) : State :=
  { mediaIdle with hbm := encMem 2, jobs := [⟨mediaReq 0x6000 1, true, 0, 0, faults, retried, 0, [], []⟩] }

set_option maxRecDepth 100000 in
/-- R386, R393, R394, R403, R404, R412: a decode job that passes; buffers for a masked camera; a sample whose streams are whole and one whose
sensor's source fails, before the retry and at it; a fault of a pipeline that has the stream and of one that has not. The clause of the stream that
waits, and that of buffers past the work area, ask for a sequence header, which an opaque constant of Config reads: nothing concrete meets those. -/
theorem test_hyps_MediaDecodeJobs_more :
    let q := mediaReq 0x1000 0
    let a := { asked mediaIdle q with hbm := decMem }
    let t := decoding false
    let u := { t with poison := [0x3000 / 64] }
    let v := { decoding true with poison := [0x3000 / 64] }
    let d := t.decJob 0x1000
    let src : MSrc := ⟨.data [], .data [], 0⟩
    let plan := t.camOf d (t.streamCfg (0x1000 + 64 + 128)) 0x2000 1 src
    (a.nextReq 0 0x10 = some q ∧ wbits (q.word 1) 48 4 = 0 ∧ a.mediaGate false = none ∧ d.streams = 2 ∧ a.decodeCheck q = 0 ∧
      0x1000 + (64 + 128 * 2) ≤ a.hbmCap ∧ (∀ x ∈ sectorsOf 0x1000 (64 + 128 * 2), a.sectorState x = .clean)) ∧
    (∃ j : MJob, t.jobOf 0 false = some j ∧ j.retried = false ∧ j.committed = 0 ∧ j.req.jobAddr = 0x1000 ∧ j.pipeOf 1 0 = 0 ∧
      (((t.viaHost 0x2000 576 false).streamsRes j d 0x2000 [] (List.range d.streams) []).1.map fun os => sampleCause (t.entryBad 0x2000) os) = some (0, 0) ∧
      ((u.viaHost 0x2000 576 false).streamsRes j d 0x2000 [] (List.range d.streams) []).1 = none ∧
      ((u.viaHost 0x2000 576 false).streamsRes j d 0x2000 [] (List.range d.streams) []).2.1 = some 0) ∧
    (∃ j : MJob, v.jobOf 0 false = some j ∧ j.retried = true ∧ (v.decodeFails j []).1 = some 0 ∧ ((decoding true).decodeFails j []).1 = none) ∧
    t.bufs = [] ∧ 0 < d.samples ∧ d.stAddr = 0x2000 ∧ (∀ x ∈ sectorsOf 0x2000 576, t.sectorState x = .clean ∧ u.sectorState x = .clean) ∧
    (t.streamCfg (0x1000 + 64 + 128)).kind = 0 ∧ (plan.1.map fun x => (x.2.2.cause, bufPages x.2.2.heads)) = some (0, 0) ∧
    t.gateStatus 0 = none ∧ 0 ≤ t.getF Reg.MED_WORK_LEN.PAGES ∧ t.getF (Reg.MED_PIPE_STAT.LOGICAL 0) = 0 ∧
    (t.getF (Reg.MED_PIPE_STAT.STATE 23) = 0 ∧ t.getF (Reg.MED_PIPE_STAT.LOGICAL 23) = 23 ∧ t.mergeAt = none) := by
  refine ⟨by decide +kernel, ⟨⟨mediaReq 0x1000 0, false, 0, 0, [], false, 0, [], []⟩, by decide +kernel⟩,
    ⟨⟨mediaReq 0x1000 0, false, 0, 0, [], true, 0, [], []⟩, by decide +kernel⟩, by decide +kernel⟩

/-- A read of clean sectors that no one shares leaves the state as it was. -/
theorem readHbm_still (s : State) (a n : Nat) (hv : s.viaHost a n false = s) (hc : ∀ q ∈ sectorsOf a n, s.sectorState q = .clean) :
    (s.readHbm a n).2 = s := by
  have hb : s.badStacks a n = [] := by
    simp only [State.badStacks, List.map_eq_nil_iff, List.filter_eq_nil_iff]
    intro q hq; rw [hc q hq]; decide
  have he : ∀ l : List Nat, (∀ q ∈ l, s.sectorState q = .clean) → s.each l State.readSector = s := fun l => by
    induction l with
    | nil => intro _; rfl
    | cons q l ih =>
      intro h
      have hq : s.readSector q = s := by simp only [State.readSector, h q (List.mem_cons_self ..)]
      simp only [State.each, List.foldl_cons, hq] at ih ⊢
      exact ih fun x hx => h x (List.mem_cons_of_mem _ hx)
  simp only [State.readHbm, State.readQuiet, State.readRaw, hv, hb, he _ hc]
  rfl

/-- Its camera's plan leaves the state as it was. -/
theorem test_hyps_MediaDecodeJobs_plan :
    let t := decoding false
    (t.camOf (t.decJob 0x1000) (t.streamCfg (0x1000 + 64 + 128)) 0x2000 1 ⟨.data [], .data [], 0⟩).2 = t := by
  intro t
  have r : ∀ a n far, (∀ q ∈ sectorsOf a n, t.sectorState q = .clean) → (t.srcRead 2 a n far).2 = t := fun a n far h => readHbm_still t a n rfl h
  have ht : (t.srcEntry 0x2000 1).tier = 2 := by decide +kernel
  have h1 := r (t.srcEntry 0x2000 1).idx (16 * (t.srcEntry 0x2000 1).count) (.data []) (by decide +kernel)
  have h2 := r (t.srcEntry 0x2000 1).src (t.srcEntry 0x2000 1).len (.data []) (by decide +kernel)
  unfold State.camOf
  simp only [ht]
  split
  · rfl
  · split
    · next h => rw [h] at h1; exact h1
    · next ix u h =>
      rw [h] at h1
      have e : u = t := h1
      rw [e]
      split
      · next h => rw [h] at h2; exact h2
      · next h => rw [h] at h2; exact h2

set_option maxRecDepth 100000 in
/-- R415, R423, R424: an encode job that passes, its retry, and pipelines: the last, one without a job, and one whose job has failed twice. -/
theorem test_hyps_MediaEncodeJobs_more :
    let q := mediaReq 0x6000 1
    let a := { asked mediaIdle q with hbm := encMem 2 }
    let one := (encoding false []).setFs [(Reg.MED_ENC_STAT.STATE 1, 2), (Reg.MED_ENC_STAT.STATE 2, 2), (Reg.MED_ENC_STAT.STATE 3, 2)]
    let n := fun s : State => ((List.range 4).filter fun i => s.getF (Reg.MED_ENC_STAT.STATE i) = 0).length
    let mine := fun (s : State) k => s.jobs.filter fun o => o.encode && decide (o.pipe = k)
    (a.nextReq 0 0x10 = some q ∧ wbits (q.word 1) 48 4 = 1 ∧ a.mediaGate true = none ∧ a.encodeCheck q = 0 ∧ q.need = false ∧
      0x6000 + 128 ≤ a.hbmCap ∧ (∀ x ∈ sectorsOf 0x6000 128, a.sectorState x = .clean)) ∧
    (reqOf 0 [word [(0, 0x10), (16, 1)], word [(0, 0x6000), (48, 1)]]).word 1 = q.word 1 ∧
    (((encoding true []).jobOf 0 true).map MJob.retried = some true ∧ ((encoding false []).jobOf 0 true).map MJob.retried = some false) ∧
    ({ encoding true [] with poison := [0x10000 / 64] }.encodeOut ((encoding true []).encJob 0x6000) (.data [])).1 = none ∧
    ((encoding true []).encJob 0x6000).outTier = 2 ∧
    (n one = 1 ∧ one.getF (Reg.MED_ENC_STAT.STATE 0) = 0) ∧ n (encoding false []) = 4 ∧ mine (encoding false []) 3 = [] ∧
    ((mine (encoding false [(0, 2)]) 0).head?.map fun j => j.faults 0) = some 2 ∧
    ((encoding false []).encAfter 0).find? (fun i => decide (i ≠ 0) && ((encoding false []).gateStatus (0x20 + i)).isNone) = some 1 := by
  decide +kernel

set_option maxRecDepth 100000 in
/-- What it reads is clean, and its retry then succeeds. -/
theorem test_hyps_MediaEncodeJobs_whole :
    let e := (encoding true []).encJob 0x6000
    (∀ x ∈ sectorsOf e.inAddr (e.frames * e.frameBytes), (encoding true []).sectorState x = .clean) ∧
    ((encoding true []).encodeOut e (.data [])).1.isSome = true := by decide +kernel

/-- A point of zeros with its digest, loaded into slot 0 of the module's own area. -/
theorem load_good (s : State) (d : List Byte) (hn : d.length = 12288) (hb : ∀ k < 12288, d.getD k 0 = zeroByte zeroDigest k) (hh : s.hbm = [])
    (hp : s.poison = []) (he : s.symErr = []) (hi : ∀ st < 20, s.getF (Reg.MEM_INJECT.ARM st) = 0) (hm : s.getF Reg.HIF_CTRL.COH_MODE = 0)
    (hs : s.shared = []) (hc : s.slotAddr 0 0 + 12288 ≤ s.hbmCap) (hbad : s.badStacks (s.slotAddr 0 0) (3 * 4096) = []) :
    (s.writeHbm (s.slotAddr 0 0) d).slotBad 0 0 = false ∧ (s.writeHbm (s.slotAddr 0 0) d).digestGood 0 0 = true := by
  rw [writeHbm_plain s (s.slotAddr 0 0) d hp he hi hm hs (by rw [hn]; exact hc), hh]
  have z := zeroPoint_slot { s with hbm := Memory.write [] (s.slotAddr 0 0) d } 0 0 (s.slotAddr 0 0) zeroDigest zeroDigest_length (fun k hk => by
    rw [Memory.byte_write _ _ _ rfl, hn, if_pos (by omega), Nat.add_sub_cancel_left, hb _ hk]) rfl
  refine ⟨?_, z.2.trans (decide_eq_true rfl)⟩
  unfold State.slotBad
  rw [z.1, show ({ s with hbm := Memory.write [] (s.slotAddr 0 0) d } : State).badStacks
    (({ s with hbm := Memory.write [] (s.slotAddr 0 0) d } : State).slotAddr 0 0) (3 * 4096) = [] from hbad]
  rfl

def loading (is : List FlashImage) : State :=
  { sealed (snapOf 1 9) with svlOps := [⟨none, 1, 0, 0, 9, 0, 12288, (2, 9)⟩], flash := { up.flash with images := is } }

theorem test_hyps_SnapshotsAndHostCopies_load : ∃ i : FlashImage, i.course = 9 ∧ i.pages = 3 ∧
    (loading [i]).opOn 1 0 0 = some ⟨none, 1, 0, 0, 9, 0, 12288, (2, 9)⟩ ∧
    ((loading [i]).writeHbm ((loading [i]).slotAddr 0 0) (i.bytes.bytes 0 (i.pages * 4096))).slotBad 0 0 = false ∧
    ((loading [i]).writeHbm ((loading [i]).slotAddr 0 0) (i.bytes.bytes 0 (i.pages * 4096))).digestGood 0 0 = true := by
  have len : ((List.range 12288).map (zeroByte zeroDigest)).length = 12288 := by rw [List.length_map, List.length_range]
  have hz := zeroPoint_byte zeroDigest 12288
  generalize (List.range 12288).map (zeroByte zeroDigest) = l at len hz
  have hb : ∀ k < 12288, ((Memory.write [] 0 l).bytes 0 (3 * 4096)).getD k 0 = zeroByte zeroDigest k := fun k hk => by
    rw [List.getD_eq_getElem _ _ (by simp only [Memory.bytes, List.length_map, List.length_range]; omega)]
    simp only [Memory.bytes, List.getElem_map, List.getElem_range]
    rw [Memory.byte_write _ _ _ rfl, len, if_pos (by omega), Nat.zero_add, Nat.sub_zero, hz _ hk]
  have hn : ((Memory.write [] 0 l).bytes 0 (3 * 4096)).length = 12288 := by simp only [Memory.bytes, List.length_map, List.length_range]
  refine ⟨⟨9, 3, Memory.write [] 0 l⟩, rfl, rfl, ?_, ?_⟩
  · rfl
  · generalize (Memory.write [] 0 l) = m at hb hn
    have ns : ∀ i, (loading i).slotAddr 0 0 = (loading []).slotAddr 0 0 := fun _ => rfl
    exact load_good (loading [⟨9, 3, m⟩]) (m.bytes 0 (3 * 4096)) hn hb rfl rfl rfl
      (show ∀ st < 20, (loading []).getF (Reg.MEM_INJECT.ARM st) = 0 by decide +kernel)
      (show (loading []).getF Reg.HIF_CTRL.COH_MODE = 0 by decide +kernel) rfl
      (show (loading []).slotAddr 0 0 + 12288 ≤ (loading []).hbmCap by decide +kernel)
      (show (loading []).badStacks ((loading []).slotAddr 0 0) (3 * 4096) = [] by decide +kernel)

/-- R489, R491, R493: flash with no room left; a point copied from a host that does not answer. -/
theorem test_hyps_SnapshotsAndHostCopies_room :
    let s := loading [⟨1, flashPages, []⟩, ⟨2, 1, []⟩]
    let h := { loading [] with svlOps := [⟨none, 4, 0, 0, 9, 0, 12288, (2, 9)⟩] }
    (s.roomFor 9 3).2 = false ∧ ({ loading [] with svlOps := [⟨none, 0, 0, 0, 9, 0, 12288, (2, 9)⟩] } : State).opOn 0 0 0 ≠ none ∧
    h.opOn 4 0 0 = some ⟨none, 4, 0, 0, 9, 0, 12288, (2, 9)⟩ ∧ (h.aptLoad 0 4096 .error).1 = none := by decide +kernel

end Sys2Proof.Tests
end

section
/-! SUPPORT. Host accesses to the set-up registers (R8 to R13): when a write is ignored, what it leaves in each field by its access code,
and the statements about them. -/

namespace Sys2Proof.Machine

/-! ### States that differ in register fields alone -/

theorem State.onlyFields_refl (s : State) (fs : List Fld) : s.onlyFields s fs := ⟨fun _ _ => rfl, rfl⟩

theorem State.onlyFields_trans {s t u : State} {fs gs : List Fld} (h : s.onlyFields t fs) (k : t.onlyFields u gs) :
    s.onlyFields u (fs ++ gs) := by
  obtain ⟨h, hr⟩ := h
  obtain ⟨k, kr⟩ := k
  refine ⟨fun f hf => ?_, ?_⟩
  · rw [k f fun g hg => hf g (List.mem_append_right _ hg), h f fun g hg => hf g (List.mem_append_left _ hg)]
  · rw [← kr] at hr
    exact hr

/-- A field that a list of writes names once holds what is written to it, cut to its width. -/
theorem State.getF_setFs_mem (s : State) (l : List (Fld × Nat)) (w : SMap.rising s.regs = true)
    (nd : (l.map fun x => x.1.key).Nodup) : ∀ x ∈ l, (s.setFs l).getF x.1 = x.2 % 2 ^ x.1.w := by
  induction l generalizing s with
  | nil => simp
  | cons y t ih =>
    rw [List.map_cons, List.nodup_cons] at nd
    obtain ⟨fresh, nd⟩ := nd
    have w' := State.setF_rising s y.1 y.2 w
    intro x hx
    rw [State.setFs_cons]
    rcases List.mem_cons.1 hx with rfl | hx
    · rw [State.getF_setFs_other _ t x.1 w' fun z hz e => fresh (e ▸ List.mem_map_of_mem (f := fun x => x.1.key) hz),
        State.getF_setF s x.1 x.2 w]
    · exact ih _ w' nd x hx

/-! ### Bits of the word written -/

theorem bitsOf_mod (v lo w : Nat) : bitsOf v lo w % 2 ^ w = bitsOf v lo w := Nat.mod_mod _ _

theorem bitsOf_low (v w : Nat) : bitsOf v 0 w = v % 2 ^ w := rfl

theorem bitsOf_above (v : W64) : bitsOf v.toNat 12 52 = v.toNat / 2 ^ 12 := by
  rw [bitsOf, Nat.shiftRight_eq_div_pow, Nat.mod_eq_of_lt]
  have := v.isLt
  omega

/-- R10: `g` with the bits that `x` holds cleared. -/
theorem testBit_clear (g x b : Nat) : (g - (g &&& x)).testBit b = (g.testBit b && !x.testBit b) := by
  have le : g &&& x ≤ g := Nat.and_le_left
  have lowest : (g &&& x) % 2 = 1 ↔ g % 2 = 1 ∧ x % 2 = 1 := Nat.and_mod_two_eq_one
  induction b generalizing g x with
  | zero =>
    rw [Bool.eq_iff_iff]
    simp only [Nat.testBit_zero, Bool.and_eq_true, Bool.not_eq_true', decide_eq_true_eq, decide_eq_false_iff_not]
    omega
  | succ b ih =>
    have upper : (g - (g &&& x)) / 2 = g / 2 - (g / 2 &&& x / 2) := by
      rw [← Nat.and_div_two]
      omega
    rw [Nat.testBit_succ, Nat.testBit_succ, Nat.testBit_succ, upper, ih _ _ Nat.and_le_left Nat.and_mod_two_eq_one]

/-! ### One field, then every field of a register (R10) -/

/-- R10: what a host write of `v` leaves in a field that held `old`. -/
def storedBy (v old : Nat) (af : Acc × Fld) : Nat :=
  match af.1 with
  | .RW => bitsOf v (af.2.key % 64) af.2.w
  | .W1C => (old - (old &&& bitsOf v (af.2.key % 64) af.2.w)) % 2 ^ af.2.w
  | .RO | .PRO | .W1S | .RWS => old

/-- R10: the fields a host write can change by their access code alone. -/
def hostWritten (fs : List (Acc × Fld)) : List Fld := (fs.filter fun x => decide (x.1 = .RW ∨ x.1 = .W1C)).map fun x => x.2

theorem State.getF_writeField (s : State) (v : Nat) (af : Acc × Fld) (w : SMap.rising s.regs = true) :
    (s.writeField v af).getF af.2 = storedBy v (s.getF af.2) af := by
  obtain ⟨a, f⟩ := af
  cases a with
  | RW => exact (State.getF_setF s f _ w).trans (bitsOf_mod _ _ _)
  | W1C => exact State.getF_setF s f _ w
  | RO | PRO | W1S | RWS => rfl

theorem State.writeField_only (s : State) (v : Nat) (af : Acc × Fld) (w : SMap.rising s.regs = true) :
    s.onlyFields (s.writeField v af) (hostWritten [af]) := by
  obtain ⟨a, f⟩ := af
  cases a with
  | RW | W1C => exact State.setF_only s f _ w
  | RO | PRO | W1S | RWS => exact State.onlyFields_refl s _

theorem State.writeField_rising (s : State) (v : Nat) (af : Acc × Fld) (w : SMap.rising s.regs = true) :
    SMap.rising (s.writeField v af).regs = true := by
  obtain ⟨a, f⟩ := af
  cases a with
  | RW | W1C => exact State.setF_rising s f _ w
  | RO | PRO | W1S | RWS => exact w

theorem State.writeField_other (s : State) (v : Nat) (af : Acc × Fld) (f : Fld) (w : SMap.rising s.regs = true) (h : f.key ≠ af.2.key) :
    (s.writeField v af).getF f = s.getF f := by
  refine (State.writeField_only s v af w).1 f fun g hg => ?_
  obtain ⟨x, hx, rfl⟩ := List.mem_map.1 hg
  rw [List.mem_singleton.1 (List.mem_of_mem_filter hx)]
  exact h

theorem State.writeFields_cons (s : State) (v : Nat) (af : Acc × Fld) (fs : List (Acc × Fld)) :
    s.writeFields v (af :: fs) = (s.writeField v af).writeFields v fs := rfl

theorem hostWritten_cons (af : Acc × Fld) (fs : List (Acc × Fld)) : hostWritten (af :: fs) = hostWritten [af] ++ hostWritten fs := by
  simp only [hostWritten, ← List.map_append, ← List.filter_append, List.singleton_append]

theorem State.writeFields_only (s : State) (v : Nat) (fs : List (Acc × Fld)) (w : SMap.rising s.regs = true) :
    s.onlyFields (s.writeFields v fs) (hostWritten fs) := by
  induction fs generalizing s with
  | nil => exact State.onlyFields_refl s _
  | cons af fs ih =>
    rw [hostWritten_cons]
    exact State.onlyFields_trans (State.writeField_only s v af w) (ih _ (State.writeField_rising s v af w))

/-- Each field of a register that names its fields once takes the write by its own access code. -/
theorem State.getF_writeFields (s : State) (v : Nat) (fs : List (Acc × Fld)) (w : SMap.rising s.regs = true)
    (nd : (fs.map fun x => x.2.key).Nodup) : ∀ x ∈ fs, (s.writeFields v fs).getF x.2 = storedBy v (s.getF x.2) x := by
  induction fs generalizing s with
  | nil => simp
  | cons y t ih =>
    rw [List.map_cons, List.nodup_cons] at nd
    obtain ⟨fresh, nd⟩ := nd
    have w' := State.writeField_rising s v y w
    have ne : ∀ z ∈ t, z.2.key ≠ y.2.key := fun z hz e => fresh (e ▸ List.mem_map_of_mem (f := fun x => x.2.key) hz)
    intro x hx
    rw [State.writeFields_cons]
    rcases List.mem_cons.1 hx with rfl | hx
    · have kept : ∀ g ∈ hostWritten t, x.2.key ≠ g.key := fun g hg => by
        obtain ⟨z, hz, rfl⟩ := List.mem_map.1 hg
        exact (ne z (List.mem_of_mem_filter hz)).symm
      rw [(State.writeFields_only _ v t w').1 x.2 kept, State.getF_writeField s v x w]
    · rw [ih _ w' nd x hx, State.writeField_other s v y x.2 w (ne x hx)]

theorem storedBy_rw (v old : Nat) (x : Acc × Fld) (h : x.1 = .RW) : storedBy v old x = bitsOf v (x.2.key % 64) x.2.w := by
  rw [storedBy, h]

theorem storedBy_w1c (v old : Nat) (x : Acc × Fld) (h : x.1 = .W1C) (lt : old < 2 ^ x.2.w) :
    storedBy v old x = old - (old &&& bitsOf v (x.2.key % 64) x.2.w) := by
  rw [storedBy, h]
  exact Nat.mod_eq_of_lt (by omega)

theorem storedBy_kept (v old : Nat) (x : Acc × Fld) (notRw : x.1 ≠ .RW) (notW1c : x.1 ≠ .W1C) : storedBy v old x = old := by
  obtain ⟨a, f⟩ := x
  cases a with
  | RW => exact absurd rfl notRw
  | W1C => exact absurd rfl notW1c
  | RO | PRO | W1S | RWS => rfl

/-- R10: a W1C field of one bit is cleared by a 1 written at its place. -/
theorem storedBy_one_bit (v old : Nat) (f : Fld) (one : f.w = 1) (le : old ≤ 1) :
    storedBy v old (.W1C, f) = if v.testBit (f.key % 64) then 0 else old := by
  have place : bitsOf v (f.key % 64) 1 = (v.testBit (f.key % 64)).toNat := by
    rw [Nat.toNat_testBit, bitsOf, Nat.shiftRight_eq_div_pow, Nat.pow_one]
  rw [storedBy_w1c v old _ rfl (by rw [one]; exact Nat.lt_succ_of_le le), one, place]
  cases v.testBit (f.key % 64) <;> interval_cases old <;> rfl

/-! ### The shadow set (R13, R83) -/

theorem State.each_setF (s : State) (v : Nat) (fs : List (Acc × Fld)) :
    (s.each fs fun s af => s.setF af.2 (bitsOf v (af.2.key % 64) af.2.w)) =
      s.setFs (fs.map fun af => (af.2, bitsOf v (af.2.key % 64) af.2.w)) := by
  induction fs generalizing s with
  | nil => rfl
  | cons af fs ih => exact ih _

theorem writeShadow_free (r : RegRow) (v : Nat) (s : State) (h : s.getF Reg.CRS_STATUS.SWAP_PEND = 0) :
    writeShadow r v s = s.setFs (r.fields.map fun af => (af.2, bitsOf v (af.2.key % 64) af.2.w)) := by
  rw [writeShadow, State.on, h]
  exact State.each_setF s v r.fields

theorem writeShadow_only (r : RegRow) (v : Nat) (s : State) (c : s.Canon) (h : s.getF Reg.CRS_STATUS.SWAP_PEND = 0) :
    s.onlyFields (writeShadow r v s) (r.fields.map fun x => x.2) := by
  rw [writeShadow_free r v s h]
  simpa only [List.map_map, Function.comp_def] using State.setFs_only s (r.fields.map fun af => (af.2, bitsOf v (af.2.key % 64) af.2.w)) c.regs

theorem getF_writeShadow (r : RegRow) (v : Nat) (s : State) (c : s.Canon) (h : s.getF Reg.CRS_STATUS.SWAP_PEND = 0)
    (nd : (r.fields.map fun x => x.2.key).Nodup) :
    ∀ x ∈ r.fields, (writeShadow r v s).getF x.2 = bitsOf v (x.2.key % 64) x.2.w := by
  intro x hx
  rw [writeShadow_free r v s h,
    State.getF_setFs_mem s _ c.regs (by simpa only [List.map_map, Function.comp_def] using nd) _ (List.mem_map_of_mem hx), bitsOf_mod]

/-! ### The general write (R8, R9) -/

theorem State.answers_ready (s : State) (a : Nat) (h : s.ready = true) : s.answers a = true := by rw [State.answers, h, Bool.true_or]

theorem State.gated_ready (s : State) (a : Nat) (f : State → State) (h : s.ready = true) : s.gated a f = f s := if_pos (s.answers_ready a h)

theorem onHub_up (f : State → State) (s : State) (h : s.hubUp) : onHub f s = .next (f s) := by rw [onHub, if_pos h.1]

theorem State.coreUp_hubUp (s : State) (h : s.coreUp) : s.hubUp := ⟨h.1, h.2.2⟩

theorem exec_registerWrite (a n : Nat) (v : W64) (s : State) (h : s.hubUp) :
    exec (.registerWrite a n v) s = .next (registerWrite a n v.toNat s) := onHub_up _ s h

theorem registerWrite_misaligned (a n v : Nat) (s : State) (h : (n ≠ 4 ∧ n ≠ 8) ∨ a % n ≠ 0) : registerWrite a n v s = s := if_pos h

theorem registerWrite_unmatched (a n v : Nat) (s : State) (raw : rawArea a = false) (h : ∀ r, findReg a = some r → r.width ≠ 8 * n) :
    registerWrite a n v s = s := by
  unfold registerWrite
  split_ifs with bad off inRaw
  · rfl
  · rfl
  · rw [raw] at inRaw
    contradiction
  · split
    next r found => exact if_neg (h r found)
    next => rfl

/-- R8, R9: a write of `n` bytes at `a` reaches register `r`: it is aligned and of the register's width, and the register answers. -/
structure State.WriteReaches (s : State) (a n : Nat) (r : RegRow) : Prop where
  ready : s.ready = true
  raw : rawArea a = false
  found : findReg a = some r
  width : r.width = 8 * n
  size : n = 4 ∨ n = 8
  aligned : a % n = 0
  rails : a < 0x1000000 ∨ s.power.coreRails = true

/-- A 32-bit register of the hub die is reached once boot is ready. -/
theorem State.hubUp_reaches {s : State} {a : Nat} {r : RegRow} (up : s.hubUp) (found : findReg a = some r) (width : r.width = 32)
    (raw : rawArea a = false) (al : a % 4 = 0) (hub : a < 0x1000000) : s.WriteReaches a 4 r :=
  ⟨up.2, raw, found, width, .inl rfl, al, .inl hub⟩

theorem registerWrite_reaches {s : State} {a n : Nat} {r : RegRow} (h : s.WriteReaches a n r) (v : Nat) :
    registerWrite a n v s = writeReg r v s := by
  obtain ⟨ready, raw, found, width, size, aligned, rails⟩ := h
  have powered : ¬(0x1000000 ≤ a ∧ ¬s.power.coreRails = true) := fun ⟨ge, off⟩ => rails.elim (fun lt => absurd ge (by omega)) off
  rw [registerWrite, if_neg (by omega), if_neg powered, if_neg (by simp [raw]), found]
  exact (if_pos width).trans (s.gated_ready a _ ready)

/-- The register found at an address carries that address. -/
theorem findReg_addr {a : Nat} {r : RegRow} (h : findReg a = some r) : r.addr = a := by
  unfold findReg at h
  split at h
  next r' single =>
    cases h
    simpa using List.find?_some single
  next =>
    split_ifs at h
    obtain ⟨f, -, hf⟩ := List.exists_of_findSome?_eq_some h
    split_ifs at hf
    obtain ⟨ix, -, rfl⟩ := Option.map_eq_some_iff.1 hf
    rfl

/-! ### Registers without a rule of their own -/

theorem writeSingle_none (a v : Nat) (s : State) (h : ownRule a = false) : writeSingle a v s = none := by
  simp only [ownRule, decide_eq_false_iff_not, not_or] at h
  obtain ⟨single, -⟩ := h
  unfold writeSingle
  split
  case h_16 => rfl
  all_goals exact absurd (by decide) single

theorem writeRingReg_none (a v : Nat) (s : State) (h : ownRule a = false) : writeRingReg a v s = none := by
  simp only [ownRule, decide_eq_false_iff_not, not_or] at h
  obtain ⟨-, ring, -⟩ := h
  by_cases out : a < 0x28000 ∨ 0x30000 ≤ a
  · exact if_pos out
  · have other : a % 0x20 ∉ [0, 8, 0x10] := fun m => ring ⟨by omega, by omega, m⟩
    refine (if_neg out).trans ?_
    split
    case h_4 => rfl
    all_goals next e => exact absurd (by rw [e]; decide) other

theorem writeStackReg_none (a v : Nat) (s : State) (h : ownRule a = false) : writeStackReg a v s = none := by
  simp only [ownRule, decide_eq_false_iff_not, not_or] at h
  obtain ⟨-, -, stack, -⟩ := h
  simp only [List.mem_cons, List.not_mem_nil, or_false] at stack
  by_cases out : a < 0x2000000 ∨ 0x3400000 ≤ a
  · exact if_pos out
  · dsimp only [writeStackReg]
    rw [if_neg out, if_neg (by omega), if_neg (by omega), if_neg (by omega), if_neg (by omega)]

theorem writePortReg_none (a v : Nat) (s : State) (h : ownRule a = false) : writePortReg a v s = none := by
  simp only [ownRule, decide_eq_false_iff_not, not_or] at h
  obtain ⟨-, -, -, port⟩ := h
  exact if_pos (by omega)

theorem writeReg_byAccess (r : RegRow) (v : Nat) (s : State) (sh : r.shadow = false) (own : ownRule r.addr = false) :
    writeReg r v s = s.writeFields v r.fields := by
  rw [writeReg, sh, writeSingle_none _ v s own, writeRingReg_none _ v s own, writeStackReg_none _ v s own, writePortReg_none _ v s own]
  rfl

theorem writeReg_shadow (r : RegRow) (v : Nat) (s : State) (sh : r.shadow = true) : writeReg r v s = writeShadow r v s := if_pos sh

theorem registerWrite_byAccess {s : State} {a n : Nat} {r : RegRow} (h : s.WriteReaches a n r) (v : Nat) (sh : r.shadow = false)
    (own : ownRule a = false) : registerWrite a n v s = s.writeFields v r.fields := by
  rw [registerWrite_reaches h, writeReg_byAccess r v s sh (by rwa [findReg_addr h.found])]

theorem registerWrite_shadow {s : State} {a n : Nat} {r : RegRow} (h : s.WriteReaches a n r) (v : Nat) (sh : r.shadow = true) :
    registerWrite a n v s = writeShadow r v s := by rw [registerWrite_reaches h, writeReg_shadow r v s sh]

/-- R8 to R12: what a write leaves that reaches a register without a rule of its own. -/
theorem exec_registerWrite_byAccess {s : State} {a n : Nat} {r : RegRow} (up : s.hubUp) (c : s.Canon) (h : s.WriteReaches a n r) (v : W64)
    (sh : r.shadow = false) (own : ownRule a = false) (nd : (r.fields.map fun x => x.2.key).Nodup) :
    ∃ t, exec (.registerWrite a n v) s = .next t ∧ s.onlyFields t (hostWritten r.fields) ∧
      ∀ x ∈ r.fields, t.getF x.2 = storedBy v.toNat (s.getF x.2) x :=
  ⟨_, (exec_registerWrite a n v s up).trans (congrArg _ (registerWrite_byAccess h v.toNat sh own)),
    State.writeFields_only s v.toNat r.fields c.regs, State.getF_writeFields s v.toNat r.fields c.regs nd⟩

/-- R13, R83: with no swap pending, what a write leaves that reaches a register of the shadow set. -/
theorem exec_registerWrite_shadow {s : State} {a n : Nat} {r : RegRow} (up : s.hubUp) (c : s.Canon) (h : s.WriteReaches a n r) (v : W64)
    (sh : r.shadow = true) (free : s.getF Reg.CRS_STATUS.SWAP_PEND = 0) (nd : (r.fields.map fun x => x.2.key).Nodup) :
    ∃ t, exec (.registerWrite a n v) s = .next t ∧ s.onlyFields t (r.fields.map fun x => x.2) ∧
      ∀ x ∈ r.fields, t.getF x.2 = bitsOf v.toNat (x.2.key % 64) x.2.w :=
  ⟨_, (exec_registerWrite a n v s up).trans (congrArg _ (registerWrite_shadow h v.toNat sh)), writeShadow_only r v.toNat s c free,
    getF_writeShadow r v.toNat s c free nd⟩

/-- R87: with no swap pending, what a SHADOW_SET_WRITE leaves. -/
theorem exec_shadowSetWrite {s : State} {a : Nat} {r : RegRow} (up : s.hubUp) (c : s.Canon) (h : findReg a = some r) (v : W64)
    (sh : r.shadow = true) (free : s.getF Reg.CRS_STATUS.SWAP_PEND = 0) (nd : (r.fields.map fun x => x.2.key).Nodup) :
    ∃ t, exec (.shadowSetWrite a v) s = .next t ∧ s.onlyFields t (r.fields.map fun x => x.2) ∧
      ∀ x ∈ r.fields, t.getF x.2 = bitsOf v.toNat (x.2.key % 64) x.2.w := by
  have run : exec (.shadowSetWrite a v) s = .next (writeShadow r v.toNat s) := by
    rw [show exec (.shadowSetWrite a v) s = execShadowSetWrite a v s from rfl, execShadowSetWrite, onHub_up _ s up, h]
    exact congrArg _ ((if_pos sh).trans (s.gated_ready a _ up.2))
  exact ⟨_, run, writeShadow_only r v.toNat s c free, getF_writeShadow r v.toNat s c free nd⟩

/-! ### Reads (R8, R9, R117, R118) -/

theorem State.readReg_misaligned (s : State) (a n : Nat) (h : (n ≠ 4 ∧ n ≠ 8) ∨ a % n ≠ 0) : s.readReg a n = allOnes n := if_pos h

theorem State.readReg_noReg (s : State) (a n : Nat) (up : s.coreUp) (n48 : n = 4 ∨ n = 8) (al : a % n = 0) (raw : rawArea a = false)
    (h : findReg a = none) : s.readReg a n = if meetsReg a n = true then allOnes n else 0 := by
  obtain ⟨-, core, ready⟩ := up
  rw [State.readReg, if_neg (by omega), if_neg (by simp [s.answers_ready a ready, core]), if_neg (by simp [raw]), h]

theorem State.readBar2_sq (s : State) (r : Nat) (ready : s.ready = true) (h : r < 1024) :
    s.readBar2 (r * 0x1000) 8 = (s.ring r).sqDoorbell.toNat := by
  have page : r * 0x1000 / 0x1000 = r := by omega
  rw [State.readBar2, if_neg (by omega), ready, if_neg (by simp; omega), if_pos (by omega), if_neg (by omega), if_pos (by omega), page]

theorem State.readBar2_cq (s : State) (r : Nat) (ready : s.ready = true) (h : r < 1024) :
    s.readBar2 (r * 0x1000 + 8) 8 = (s.ring r).cqDoorbell.toNat := by
  have page : (r * 0x1000 + 8) / 0x1000 = r := by omega
  rw [State.readBar2, if_neg (by omega), ready, if_neg (by simp; omega), if_pos (by omega), if_neg (by omega), if_neg (by omega), page]

theorem State.readBar2_elsewhere (s : State) (a n : Nat) (n48 : n = 4 ∨ n = 8) (al : a % n = 0) (h : 16 ≤ a % 0x1000) :
    s.readBar2 a n = 0 := by
  rw [State.readBar2, if_neg (by omega), if_neg (show ¬a % 0x1000 < 16 by omega)]
  split_ifs <;> rfl

/-! ### The statements -/

/-- Settles O3: nothing is listed in any table of the reset state, so everything reads as its default. -/
theorem resetLeaves : Obligations.ResetLeaves :=
  ⟨fun _ => rfl, fun _ => rfl, rfl, rfl, rfl, fun _ => rfl, rfl, rfl⟩

/-- R87: a write to a register of the shadow set with a count and a base. -/
theorem shadowSetWrite_count_base {s : State} {a : Nat} {cnt base : Fld} (v : W64) (up : s.hubUp) (c : s.Canon)
    (free : s.getF Reg.CRS_STATUS.SWAP_PEND = 0) (found : findReg a = some ⟨a, 64, [(.RWS, cnt), (.RWS, base)]⟩)
    (cp : cnt.key % 64 = 0 ∧ cnt.w = 12) (bp : base.key % 64 = 12 ∧ base.w = 52) :
    ∃ t, exec (.shadowSetWrite a v) s = .next t ∧ t.getF cnt = v.toNat % 2 ^ 12 ∧ t.getF base = v.toNat / 2 ^ 12 ∧
      s.onlyFields t [cnt, base] := by
  have apart : cnt.key ≠ base.key := by omega
  obtain ⟨t, run, only, fields⟩ := exec_shadowSetWrite up c found v rfl free (by simpa using apart)
  have low := fields (.RWS, cnt) (by simp)
  have high := fields (.RWS, base) (by simp)
  rw [cp.1, cp.2, bitsOf_low] at low
  rw [bp.1, bp.2, bitsOf_above] at high
  exact ⟨t, run, low, high, only⟩

/-- R87: a write to a register of the shadow set with a base alone. -/
theorem shadowSetWrite_base {s : State} {a : Nat} {base : Fld} (v : W64) (up : s.hubUp) (c : s.Canon)
    (free : s.getF Reg.CRS_STATUS.SWAP_PEND = 0) (found : findReg a = some ⟨a, 64, [(.RWS, base)]⟩)
    (bp : base.key % 64 = 12 ∧ base.w = 52) :
    ∃ t, exec (.shadowSetWrite a v) s = .next t ∧ t.getF base = v.toNat / 2 ^ 12 ∧ s.onlyFields t [base] := by
  obtain ⟨t, run, only, fields⟩ := exec_shadowSetWrite up c found v rfl free (List.nodup_singleton _)
  have high := fields (.RWS, base) List.mem_cons_self
  rw [bp.1, bp.2, bitsOf_above] at high
  exact ⟨t, run, high, only⟩

/-- Settles O12: each of the five registers is found at its address, and the write stores its fields and nothing else. -/
theorem shadowSetWriteStores : Obligations.ShadowSetWriteStores := by
  intro s v up c free
  simp only [List.forall_mem_cons, List.not_mem_nil, false_imp_iff, implies_true, and_true]
  exact ⟨⟨shadowSetWrite_count_base v up c free rfl ⟨rfl, rfl⟩ ⟨rfl, rfl⟩,
      shadowSetWrite_count_base v up c free rfl ⟨rfl, rfl⟩ ⟨rfl, rfl⟩,
      shadowSetWrite_count_base v up c free rfl ⟨rfl, rfl⟩ ⟨rfl, rfl⟩⟩,
    shadowSetWrite_base v up c free rfl ⟨rfl, rfl⟩, shadowSetWrite_base v up c free rfl ⟨rfl, rfl⟩⟩

/-- A write to a 32-bit register of the hub die whose one field is read-write. -/
theorem exec_registerWrite_one_rw {s : State} {a : Nat} {f : Fld} (v : W64) (up : s.hubUp) (c : s.Canon)
    (h : s.WriteReaches a 4 ⟨a, 32, [(.RW, f)]⟩) (own : ownRule a = false) :
    ∃ t, exec (.registerWrite a 4 v) s = .next t ∧ t.getF f = bitsOf v.toNat (f.key % 64) f.w ∧ s.onlyFields t [f] := by
  obtain ⟨t, run, only, fields⟩ := exec_registerWrite_byAccess up c h v rfl own (List.nodup_singleton _)
  exact ⟨t, run, fields (.RW, f) List.mem_cons_self, only⟩

theorem crsStatus_reached {s : State} (up : s.hubUp) : s.WriteReaches 0x1000C 4 ⟨0x1000C, 32,
    [(.RO, Reg.CRS_STATUS.LOCKED), (.RO, Reg.CRS_STATUS.HOLDOVER), (.RO, Reg.CRS_STATUS.HELD), (.RO, Reg.CRS_STATUS.SWAP_PEND),
      (.W1C, Reg.CRS_STATUS.SWAP_ERR), (.W1C, Reg.CRS_STATUS.SHADOW_WERR), (.W1C, Reg.CRS_STATUS.LOCK_ERR),
      (.RO, Reg.CRS_STATUS.IDLE)]⟩ :=
  State.hubUp_reaches up rfl rfl rfl rfl (by decide)

/-- Settles O20: a write that reaches a register goes to its fields by their access codes, and any other is ignored. -/
theorem registerWritesFollowTheirAccessCode : Obligations.RegisterWritesFollowTheirAccessCode := by
  intro s a n v up c
  have run := exec_registerWrite a n v s up
  refine ⟨fun bad => ?_, fun raw none => ?_, fun r raw found wd => ?_, fun r raw found wd n48 al rails nd => ?_, ?_, ?_, ?_, ?_⟩
  · rw [run, registerWrite_misaligned a n _ s bad]
  · rw [run, registerWrite_unmatched a n _ s raw (by simp [none])]
  · rw [run, registerWrite_unmatched a n _ s raw (by simpa [found] using wd)]
  · have reaches : s.WriteReaches a n r := ⟨up.2, raw, found, wd, n48, al, rails⟩
    refine ⟨fun sh own => ?_, fun sh free => exec_registerWrite_shadow up c reaches v sh free nd⟩
    obtain ⟨t, run, only, fields⟩ := exec_registerWrite_byAccess up c reaches v sh own nd
    refine ⟨t, run, only, fun x hx => ⟨fun isRw => ?_, fun isW1c lt b => ?_, fun notRw notW1c => ?_⟩⟩ <;> rw [fields x hx]
    · rw [storedBy_rw _ _ x isRw]
    · rw [storedBy_w1c _ _ x isW1c lt, testBit_clear]
    · rw [storedBy_kept _ _ x notRw notW1c]
  · have ident : s.WriteReaches 0 4 _ := State.hubUp_reaches up rfl rfl rfl rfl (by decide)
    rw [exec_registerWrite 0 4 v s up, registerWrite_byAccess ident _ rfl rfl]
    rfl
  · exact exec_registerWrite_one_rw v up c (State.hubUp_reaches up rfl rfl rfl rfl (by decide)) rfl
  · exact exec_registerWrite_one_rw v up c (State.hubUp_reaches up rfl rfl rfl rfl (by decide)) rfl
  · obtain ⟨t, run, only, fields⟩ := exec_registerWrite_byAccess up c (crsStatus_reached up) v rfl rfl (by decide)
    refine ⟨t, run, only, ?_⟩
    simp only [List.forall_mem_cons, List.not_mem_nil, false_imp_iff, implies_true, and_true]
    exact ⟨fun le => (fields (.W1C, Reg.CRS_STATUS.SWAP_ERR) (by simp)).trans (storedBy_one_bit _ _ _ rfl le),
      fun le => (fields (.W1C, Reg.CRS_STATUS.SHADOW_WERR) (by simp)).trans (storedBy_one_bit _ _ _ rfl le),
      fun le => (fields (.W1C, Reg.CRS_STATUS.LOCK_ERR) (by simp)).trans (storedBy_one_bit _ _ _ rfl le)⟩

/-- Settles O44: by the checks of a register access, one after the other, and by the places of the doorbells in BAR2. -/
theorem registerAccessesOutsideTheMap : Obligations.RegisterAccessesOutsideTheMap := by
  intro s a n v up
  have write := exec_registerWrite a n v s (s.coreUp_hubUp up)
  have ready := (s.coreUp_hubUp up).2
  refine ⟨fun n48 al raw none => ⟨s.readReg_noReg a n up n48 al raw none, ?_⟩, fun bad => ⟨s.readReg_misaligned a n bad, ?_⟩,
    fun r lt => ⟨s.readBar2_sq r ready lt, s.readBar2_cq r ready lt⟩, s.readBar2_elsewhere a n⟩
  · rw [write, registerWrite_unmatched a n _ s raw (by simp [none])]
  · rw [write, registerWrite_misaligned a n _ s bad]

end Sys2Proof.Machine
end

section
/-! SUPPORT. The canonical form along a run (R24, R10): reset has it, a tick and every command keep it. -/

namespace Sys2Proof.Machine

/-- Settles O4: every memory and the register file of the reset state list nothing. -/
theorem resetIsCanonical : Obligations.ResetIsCanonical := ⟨rfl, rfl, rfl, rfl, rfl⟩

theorem tick_canon (s : State) (c : s.Canon) : (tick s).Canon := by
  obtain ⟨hbm, loft, rstore, acc, regs⟩ := c
  unfold tick
  split <;> exact ⟨hbm, loft, rstore, acc, regs⟩

theorem idle_canon (s : State) (c : s.Canon) : (idle s).Canon :=
  (State.countStarts_kept _ ⟨tick_canon s c, rfl, rfl⟩).canon

theorem exec_canon (i : Instr) (s t : State) (c : s.Canon) (run : exec i s = .next t) : t.Canon :=
  (exec_kept i s ⟨c, rfl, rfl⟩ t run).canon

theorem step_nil (s : State) (h : s.pending = []) : step s = .next (idle s) := by rw [step, h]

theorem step_cons (s : State) (i : Instr) (rest : List Instr) (h : s.pending = i :: rest) :
    step s = exec i { s with pending := rest } := by rw [step, h]

/-- Settles O5: an empty queue lets a nanosecond pass, and any other step is the command at its front on the state without it. -/
theorem stepKeepsCanonical : Obligations.StepKeepsCanonical := by
  intro s t c run
  cases queue : s.pending with
  | nil =>
    rw [step_nil s queue] at run
    cases run
    exact idle_canon s c
  | cons i rest =>
    rw [step_cons s i rest queue] at run
    exact exec_canon i { s with pending := rest } t ⟨c.hbm, c.loft, c.rstore, c.acc, c.regs⟩ run

end Sys2Proof.Machine
end

section
/-! SUPPORT. The actions of a ridge when a quiesce of that ridge aborts a snapshot operation on a slot that does not exist. R499 gives
SVL_SLOT two areas of two slots; a State may list an operation of any other area, and its fields then lie over those of another register. -/

namespace Sys2Proof.Machine

/-- A LOAD with no request into slot 0 of area 0x7900C. -/
def strayLoad : SvlOp := ⟨none, 1, 0x7900C, 0, 0, 0, 0, (0, 0)⟩

/-- SVL_SLOT of that slot lies over TRS_RAFT_STAT of physical rafter 8 of truss die 0: STATE over LOGICAL. -/
theorem strayLoad_overlays : (Reg.SVL_SLOT.STATE strayLoad.area strayLoad.slot).key = (Reg.TRS_RAFT_STAT.LOGICAL 0 8).key := rfl

/-- A module with rafter 3 of die 0 failed and due to be reslated, no limit on corrected errors, and a reset of the flash controller that
acts at the next ridge and aborts `strayLoad`. -/
def strayRidge : State :=
  { State.reset.setFs [(Reg.TRS_RAFT_STAT.STATE 0 3, 2), (Reg.HIF_QUI_DRAIN.DRAIN_US, 0), (Reg.TRS_CE_LIMIT.LIMIT 0, 0),
      (Reg.TRS_CE_LIMIT.LIMIT 1, 0), (Reg.TRS_CE_LIMIT.LIMIT 2, 0), (Reg.TRS_CE_LIMIT.LIMIT 3, 0)] with
    reslate := [(0, 3, false)]
    targets := [(0x31, { Target.fresh with queue := [(none, 0, false)] })]
    svlOps := [strayLoad] }

theorem strayRidge_canon : strayRidge.Canon := ⟨rfl, rfl, rfl, rfl, by decide⟩

/-- The commit of the spare map gives rafter 8 the logical identity 3 … -/
theorem strayRidge_commits : strayRidge.commitSpares.getF (Reg.TRS_RAFT_STAT.LOGICAL 0 8) = 3 := by decide +kernel

/-- … and the abort of `strayLoad`, later at the same ridge, empties the slot that overlays it: LOGICAL reads its reset value. -/
theorem strayRidge_loses : (strayRidge.ridgeActions .free).getF (Reg.TRS_RAFT_STAT.LOGICAL 0 8) = 0xF := by decide +kernel

/-- Refutes O18: its clause on reslating does not ask that the snapshot operations under way name slots that exist. In `strayRidge` the spare
takes logical rafter 3, and the abort of an operation of area 0x7900C at the same ridge overwrites the register that says so. -/
theorem not_ridgesAndWindows : ¬ Obligations.RidgesAndWindows := by
  rintro ⟨-, actions, -⟩
  obtain ⟨-, -, -, reslates, -⟩ := actions strayRidge _ .free strayRidge_canon rfl
  obtain ⟨-, logical, -⟩ := reslates 0 3 3 8 (by decide) (by decide) (by decide) (by decide) rfl rfl (by decide) (by decide) (by decide)
    (by decide) (by decide +kernel) (by decide +kernel) (by decide)
  rw [strayRidge_loses] at logical
  exact absurd logical (by decide)

end Sys2Proof.Machine
end

section
/-! SUPPORT. Management (R556 to R565): what each command that Bolyel answers leaves, and that it leaves nothing while Bolyel does not run. -/

namespace Sys2Proof.Machine

/-! ### Answering -/

/-- A command of the hub part acts while the hub rails are up. -/
theorem onHub_rails (f : State → State) {s : State} (rails : s.power.hubRails = true) : onHub f s = .next (f s) := by
  rw [onHub, if_pos rails]

/-- R564: a management command acts while Bolyel runs … -/
theorem onHub_viaBolyel {f : State → State} {s : State} (rails : s.power.hubRails = true) (up : s.bolyelUp = true) :
    onHub (fun s => s.viaBolyel f) s = .next (f s) := by
  rw [onHub_rails _ rails, State.viaBolyel, if_pos up]

/-- … and does nothing while it does not. -/
theorem onHub_viaBolyel_down {f : State → State} {s : State} (down : s.bolyelUp = false) : onHub (fun s => s.viaBolyel f) s = .next s := by
  rw [onHub, State.viaBolyel, down]
  simp

theorem exec_keyAdd {s : State} (rails : s.power.hubRails = true) (up : s.bolyelUp = true) (via : Nat) (e : List Byte) :
    exec (.keyAdd via e) s = .next (keyAdd via e s) := onHub_viaBolyel rails up

theorem exec_keyRevoke {s : State} (rails : s.power.hubRails = true) (up : s.bolyelUp = true) (via : Nat) (e : List Byte) :
    exec (.keyRevoke via e) s = .next (keyRevoke via e s) := onHub_viaBolyel rails up

theorem exec_keyClear {s : State} (rails : s.power.hubRails = true) (up : s.bolyelUp = true) (via : Nat) (e : List Byte) :
    exec (.keyClear via e) s = .next (keyClear via e s) := onHub_viaBolyel rails up

theorem exec_firmwareUpdate {s : State} (rails : s.power.hubRails = true) (up : s.bolyelUp = true) (o : List Byte) :
    exec (.firmwareUpdate o) s = .next (firmwareUpdate o s) := onHub_viaBolyel rails up

theorem exec_ptpMessage {s : State} (rails : s.power.hubRails = true) (up : s.bolyelUp = true) (m : PtpOffset) (time : Nat) :
    exec (.ptpMessage m time) s = .next (ptpMessage m time s) := onHub_viaBolyel rails up

/-! ### Attestation (R560) -/

/-- R560: the measurement of each index that the table lists. -/
theorem exec_getMeasurements_one {s : State} (rails : s.power.hubRails = true) (up : s.bolyelUp = true) {index : Nat} (nonce : List Byte)
    (one : index ≠ 0xFF) : exec (.getMeasurements index nonce) s = .next (s.signedReply 0x60 (s.measurement index) nonce) := by
  refine (onHub_viaBolyel rails up).trans ?_
  rw [if_neg one]

theorem exec_spdmUnsupportedRequest {s : State} (rails : s.power.hubRails = true) (up : s.bolyelUp = true) (code : Nat) :
    exec (.spdmUnsupportedRequest code) s = .next (if spdmListed code then s else s.reply (.spdmError 0x07)) := onHub_viaBolyel rails up

theorem spdmListed_iff (code : Nat) : spdmListed code = true ↔ code ∈ [0x81, 0x82, 0x83, 0x84, 0xE0, 0xE1, 0xE3] :=
  List.contains_iff_mem

/-! ### Owner keys (R558, R559) -/

theorem State.setKeys_flash (s : State) (ks : List KeyEntry) (kseq : Nat) :
    (s.setKeys ks kseq).flash = { s.flash with keys := ks, kseq := kseq } := rfl

theorem State.setKeys_mgmtOut (s : State) (ks : List KeyEntry) (kseq : Nat) :
    (s.setKeys ks kseq).mgmtOut = s.mgmtOut ++ [.keyEdit true] := rfl

theorem State.getF_setKeys_entries (s : State) (ks : List KeyEntry) (kseq : Nat) (c : s.Canon) :
    (s.setKeys ks kseq).getF Reg.SEC_KS.ENTRIES = ks.length % 2 ^ 5 :=
  State.getF_setFs_mem s [(Reg.SEC_KS.ENTRIES, ks.length), (Reg.SEC_KS.KSEQ, kseq)] c.regs (by decide : [25168384, 25168400].Nodup)
    (Reg.SEC_KS.ENTRIES, ks.length) (by simp)

theorem State.getF_setKeys_kseq (s : State) (ks : List KeyEntry) (kseq : Nat) (c : s.Canon) :
    (s.setKeys ks kseq).getF Reg.SEC_KS.KSEQ = kseq % 2 ^ 48 :=
  State.getF_setFs_mem s [(Reg.SEC_KS.ENTRIES, ks.length), (Reg.SEC_KS.KSEQ, kseq)] c.regs (by decide : [25168384, 25168400].Nodup)
    (Reg.SEC_KS.KSEQ, kseq) (by simp)

/-- R559: what an accepted edit meets. -/
theorem State.editOk_meets {s : State} {via : Nat} {e : List Byte} (ok : s.editOk via e = true) :
    via ≠ 1 ∧ s.flash.kseq < leNat (objAt e 8 8) ∧ ∃ k ∈ s.flash.keys, k.index = leNat (objAt e 4 1) ∧
      k.auth.testBit 0 = true ∧ sigVerify k.key (e.take 160) (objAt e 160 96) = true := by
  simp only [State.editOk, State.adminSigned, Bool.and_eq_true, decide_eq_true_eq, List.any_eq_true] at ok
  obtain ⟨⟨-, newer, -, notCxl⟩, k, held, ⟨index, admin⟩, signed⟩ := ok
  exact ⟨notCxl, newer, k, held, index, admin, signed⟩

/-- R559: the first ADD into an empty store. -/
theorem keyAdd_first {s : State} {e : List Byte} (empty : s.flash.keys = []) (form : keyFormOk e = true) (index : leNat (objAt e 2 1) = 0)
    (admin : leNat (objAt e 3 1) % 2 = 1) (signer : leNat (objAt e 4 1) = 0) (newer : s.flash.kseq < leNat (objAt e 8 8))
    (here : leNat (objAt e 16 8) = s.getF Reg.SEC_ID.IDHASH) (signed : sigVerify (objAt e 24 97) (e.take 160) (objAt e 160 96) = true) :
    keyAdd 0 e s = s.setKeys [readKeyEntry e] (leNat (objAt e 8 8)) := by
  have bit0 : (leNat (objAt e 3 1)).testBit 0 = true := by rw [Nat.testBit_zero, admin]; rfl
  simp only [keyAdd, empty, readKeyEntry, List.isEmpty_nil, form, index, signer, newer, here, bit0, signed, insertKey]
  simp

/-- R559: a later ADD, at an index that no entry holds. -/
theorem keyAdd_next {s : State} {via : Nat} {e : List Byte} (held : s.flash.keys ≠ []) (ok : s.editOk via e = true)
    (fresh : ∀ k ∈ s.flash.keys, k.index ≠ leNat (objAt e 2 1)) :
    keyAdd via e s = s.setKeys (insertKey (readKeyEntry e) s.flash.keys) (leNat (objAt e 8 8)) := by
  have free : (s.flash.keys.all fun x => decide (x.index ≠ (readKeyEntry e).index)) = true :=
    List.all_eq_true.2 fun k hk => decide_eq_true (fresh k hk)
  simp only [keyAdd, List.isEmpty_eq_false_iff.2 held, ok, free]
  rfl

/-- R559: an ADD whose edit is not accepted, other than the first over I3C. -/
theorem keyAdd_refused {s : State} {via : Nat} {e : List Byte} (bad : s.editOk via e = false) (other : s.flash.keys ≠ [] ∨ via ≠ 0) :
    keyAdd via e s = s.reply (.keyEdit false) := by
  by_cases empty : s.flash.keys = []
  · have notI3c : via ≠ 0 := other.resolve_left (not_not.2 empty)
    simp [keyAdd, empty, notI3c]
  · simp [keyAdd, empty, bad]

/-- The store without the entry that edit `e` names. -/
abbrev State.keysWithout (s : State) (e : List Byte) : List KeyEntry := s.flash.keys.filter fun k => decide (k.index ≠ leNat (objAt e 2 1))

theorem keyRevoke_accepted {s : State} {via : Nat} {e : List Byte} (ok : s.editOk via e = true)
    (held : ∃ k ∈ s.flash.keys, k.index = leNat (objAt e 2 1)) (left : adminLeft (s.keysWithout e) = true) :
    keyRevoke via e s = s.setKeys (s.keysWithout e) (leNat (objAt e 8 8)) := by
  have shorter : (s.keysWithout e).length < s.flash.keys.length := by
    rw [List.length_filter_lt_length_iff_exists]
    simpa using held
  rw [keyRevoke, ok, left, decide_eq_true shorter]
  rfl

theorem keyRevoke_refused {s : State} {via : Nat} {e : List Byte}
    (bad : s.editOk via e = false ∨ adminLeft (s.keysWithout e) = false) : keyRevoke via e s = s.reply (.keyEdit false) := by
  refine if_neg (show ¬ (s.editOk via e && adminLeft (s.keysWithout e) && _) = true from ?_)
  rcases bad with bad | bad <;> rw [bad] <;> simp

theorem keyClear_accepted {s : State} {via : Nat} {e : List Byte} (ok : s.editOk via e = true) :
    keyClear via e s = s.setKeys [] (leNat (objAt e 8 8)) := if_pos ok

theorem keyClear_refused {s : State} {via : Nat} {e : List Byte} (bad : s.editOk via e = false) :
    keyClear via e s = s.reply (.keyEdit false) := if_neg (by simp [bad])

/-! ### Firmware update (R549, R553, R563) -/

theorem State.faultCourse_none (s : State) (b : Nat) (fatal : Bool) (h : ∀ x, faultStatus b fatal x = none) : s.faultCourse b fatal = s := by
  unfold State.faultCourse
  split
  · rfl
  · rw [h]

/-- Latching a fault touches neither the course nor flash. -/
theorem State.latchFault_course_flash (s : State) (b : Nat) : (s.latchFault b).course = s.course ∧ (s.latchFault b).flash = s.flash := by
  unfold State.latchFault State.platformEvent State.openMerge State.faultIrq
  split_ifs <;> exact ⟨rfl, rfl⟩

/-- R73: a rise that is not fatal and has no status for the course leaves the course, and flash, as they are. -/
theorem State.raiseLine_course_flash (s : State) (b : Nat) (mild : (s.getF Reg.FLT_FATAL.FATAL).testBit b = false)
    (h : ∀ x, faultStatus b false x = none) : (s.raiseLine b).course = s.course ∧ (s.raiseLine b).flash = s.flash := by
  have latched : ∀ merged : Bool,
      let u := if merged then (s.bump Reg.FLT_MERGED.COUNT 1).setBit Reg.FLT_MERGED_SRC.SRC b else s.latchFault b
      u.course = s.course ∧ u.flash = s.flash
    | true => ⟨rfl, rfl⟩
    | false => State.latchFault_course_flash s b
  simp only [State.raiseLine, State.rise, mild, State.faultCourse_none _ b false h]
  exact latched _

/-- R554: a boot error leaves the course and flash as they are, unless bit 43 is fatal. -/
theorem State.bootError_course_flash (s : State) (code : Nat) (c : s.Canon) (mild : (s.getF Reg.FLT_FATAL.FATAL).testBit 43 = false) :
    (s.bootError code).course = s.course ∧ (s.bootError code).flash = s.flash := by
  obtain ⟨u, hu⟩ : ∃ u, u = if s.on Reg.SEC_BOOT_STAT.ERR_VALID then s
    else s.setFs [(Reg.SEC_BOOT_STAT.ERR, code), (Reg.SEC_BOOT_STAT.ERR_VALID, 1)] := ⟨_, rfl⟩
  have run : s.bootError code = if code = 9 then u else u.raiseLine 43 := by rw [hu]; rfl
  obtain ⟨course, flash, fatal⟩ : u.course = s.course ∧ u.flash = s.flash ∧ u.getF Reg.FLT_FATAL.FATAL = s.getF Reg.FLT_FATAL.FATAL := by
    rw [hu]
    split
    · exact ⟨rfl, rfl, rfl⟩
    · exact ⟨rfl, rfl, State.getF_setFs_other s _ _ c.regs (by simp)⟩
  rw [run, ← course, ← flash]
  split
  · exact ⟨rfl, rfl⟩
  · exact State.raiseLine_course_flash u 43 (by rw [fatal]; exact mild) fun _ => rfl

/-- R563: an object that fails its verification is a boot error. -/
theorem firmwareUpdate_bad {s : State} {o : List Byte} {purpose : Nat} (p : purpose = if objPurpose o = 2 then 2 else 1)
    (bad : s.verifyObj o purpose ≠ 0) : firmwareUpdate o s = (s.bootError (s.verifyObj o purpose)).reply (.pldm 2) := by
  subst p
  exact if_pos bad

/-- R563: an image that verifies goes to the cache slot chosen for it. -/
theorem firmwareUpdate_image {s : State} {o : List Byte} (image : objPurpose o ≠ 2) (good : s.verifyObj o 1 = 0) :
    firmwareUpdate o s = (s.startCacheWrite o).reply (.pldm 0) := by
  simp [firmwareUpdate, image, good]

/-- R563: a manifest that verifies is written where it is not older than the one in flash. -/
theorem firmwareUpdate_manifest {s : State} {o : List Byte} (manifest : objPurpose o = 2) (good : s.verifyObj o 2 = 0) :
    firmwareUpdate o s = (if s.manifestNewer o then s.writeManifest o else s).reply (.pldm 0) := by
  simp [firmwareUpdate, manifest, good]

theorem State.manifestNewer_of {s : State} {o : List Byte} (h : ∀ m, s.flash.manifest = some m → manMver m ≤ manMver o) :
    s.manifestNewer o = true := by
  unfold State.manifestNewer
  split
  next m held => exact decide_eq_true (h m held)
  next => rfl

theorem State.startCacheWrite_none {s : State} {o : List Byte} (h : s.cacheSlotFor o = none) : s.startCacheWrite o = s := by
  rw [State.startCacheWrite, h]

/-- R553: the write of a cache slot begins. -/
theorem State.startCacheWrite_some {s : State} {o : List Byte} {n : Nat} (h : s.cacheSlotFor o = some n) :
    (s.startCacheWrite o).course = s.course ∧ (s.startCacheWrite o).mgmtOut = s.mgmtOut ∧
    (s.startCacheWrite o).boot = { s.boot with cacheWrite := some n } ∧
    (s.startCacheWrite o).flash = (if n = 0 then { s.flash with cache0 := some (o, false) } else { s.flash with cache1 := some (o, false) }) := by
  rw [State.startCacheWrite, h]
  cases n with
  | zero => exact ⟨rfl, rfl, rfl, rfl⟩
  | succ n => exact ⟨rfl, rfl, rfl, rfl⟩

/-- R563: an update never touches the course, unless bit 43 is fatal. -/
theorem firmwareUpdate_course (s : State) (o : List Byte) (c : s.Canon) (mild : (s.getF Reg.FLT_FATAL.FATAL).testBit 43 = false) :
    (firmwareUpdate o s).course = s.course := by
  by_cases good : s.verifyObj o (if objPurpose o = 2 then 2 else 1) = 0
  · by_cases manifest : objPurpose o = 2
    · rw [if_pos manifest] at good
      rw [firmwareUpdate_manifest manifest good]
      split <;> rfl
    · rw [if_neg manifest] at good
      rw [firmwareUpdate_image manifest good]
      cases slot : s.cacheSlotFor o with
      | none => rw [State.startCacheWrite_none slot]; rfl
      | some n => exact (State.startCacheWrite_some slot).1
  · rw [firmwareUpdate_bad rfl good]
    exact (State.bootError_course_flash s _ c mild).1

/-- R563: an update that fails its verification leaves flash as it is. -/
theorem firmwareUpdate_bad_flash {s : State} {o : List Byte} {purpose : Nat} (c : s.Canon)
    (mild : (s.getF Reg.FLT_FATAL.FATAL).testBit 43 = false) (p : purpose = if objPurpose o = 2 then 2 else 1)
    (bad : s.verifyObj o purpose ≠ 0) : (firmwareUpdate o s).flash = s.flash := by
  rw [firmwareUpdate_bad p bad]
  exact (State.bootError_course_flash s _ c mild).2

/-- R563: an image that verifies is answered, and goes to the slot chosen for it. -/
theorem firmwareUpdate_image_leaves {s : State} {o : List Byte} (image : objPurpose o ≠ 2) (good : s.verifyObj o 1 = 0) :
    (firmwareUpdate o s).mgmtOut = s.mgmtOut ++ [.pldm 0] ∧ (s.cacheSlotFor o = none → (firmwareUpdate o s).flash = s.flash) ∧
      (∀ n : Nat, s.cacheSlotFor o = some n → (firmwareUpdate o s).boot = { s.boot with cacheWrite := some n } ∧
        (firmwareUpdate o s).flash =
          (if n = 0 then { s.flash with cache0 := some (o, false) } else { s.flash with cache1 := some (o, false) })) := by
  rw [firmwareUpdate_image image good]
  refine ⟨?_, fun held => by rw [State.startCacheWrite_none held]; rfl, fun n slot => ?_⟩
  · cases slot : s.cacheSlotFor o with
    | none => rw [State.startCacheWrite_none slot]; rfl
    | some n => exact congrArg (· ++ [MgmtMsg.pldm 0]) (State.startCacheWrite_some slot).2.1
  · obtain ⟨-, -, boot, flash⟩ := State.startCacheWrite_some slot
    exact ⟨boot, flash⟩

end Sys2Proof.Machine
end

section
/-! SUPPORT. Time (R565, R586): what a PTP message and a PPS edge make of the time base and of the calendar. -/

namespace Sys2Proof.Machine

theorem State.on_iff (s : State) (f : Fld) : s.on f = true ↔ s.getF f ≠ 0 := decide_eq_true_iff

theorem State.on_false_iff (s : State) (f : Fld) : s.on f = false ↔ s.getF f = 0 := by simp [State.on]

/-! ### Following an aim (R565) -/

/-- R565: `t` is `s` with the time base on its way to `aim`: an offset that is `small`, with no step pending, is slewed away; any other is
stepped where a step is allowed, and else slewed with STEP_PEND set. -/
def State.Follows (s t : State) (small : Bool) (aim : Nat) : Prop :=
  (small = true → s.getF Reg.SEC_PTP.STEP_PEND = 0 →
    t.timeBase = s.timeBase ∧ t.getF Reg.SEC_PTP.STEP_PEND = 0 ∧ t.boot.slew = (aim : Int) - s.timeBase) ∧
  ((small = false ∨ s.getF Reg.SEC_PTP.STEP_PEND ≠ 0) →
    (s.stepAllowed = true → t.timeBase = aim ∧ t.getF Reg.SEC_PTP.STEP_PEND = 0 ∧ t.boot.slew = 0) ∧
    (s.stepAllowed = false → t.timeBase = s.timeBase ∧ t.getF Reg.SEC_PTP.STEP_PEND = 1 ∧ t.boot.slew = (aim : Int) - s.timeBase))

theorem State.followPtp_follows (s : State) (small : Bool) (aim : Nat) (c : s.Canon) : s.Follows (s.followPtp small aim) small aim := by
  refine ⟨fun isSmall still => ?_, fun large => ?_⟩
  · have slewed : s.followPtp small aim = s.setSlew ((aim : Int) - s.timeBase) :=
      if_pos (by rw [isSmall, (State.on_false_iff s _).2 still]; rfl)
    rw [slewed]
    exact ⟨rfl, still, rfl⟩
  · have notSlewed : ¬ (small && !s.on Reg.SEC_PTP.STEP_PEND) = true := by
      rcases large with large | pending
      · simp [large]
      · simp [(State.on_iff s _).2 pending]
    refine ⟨fun allowed => ?_, fun held => ?_⟩
    · have stepped : s.followPtp small aim = { (s.setF Reg.SEC_PTP.STEP_PEND 0).setSlew 0 with timeBase := aim } :=
        (if_neg notSlewed).trans (if_pos allowed)
      rw [stepped]
      exact ⟨rfl, State.getF_setF s _ 0 c.regs, rfl⟩
    · have waits : s.followPtp small aim = (s.setF Reg.SEC_PTP.STEP_PEND 1).setSlew ((aim : Int) - s.timeBase) :=
        (if_neg notSlewed).trans (if_neg (by simp [held]))
      rw [waits]
      exact ⟨rfl, State.getF_setF s _ 1 c.regs, rfl⟩

/-- Following an aim touches STEP_PEND, the time base and the offset still to be slewed away. -/
theorem State.followPtp_only (s : State) (small : Bool) (aim : Nat) (c : s.Canon) :
    let t := s.followPtp small aim
    t = { s with regs := t.regs, timeBase := t.timeBase, boot := { s.boot with slew := t.boot.slew } } ∧
      s.fieldsKept t [Reg.SEC_PTP.STEP_PEND] := by
  have kept (v : Nat) : s.fieldsKept (s.setF Reg.SEC_PTP.STEP_PEND v) [Reg.SEC_PTP.STEP_PEND] := (State.setF_only s _ v c.regs).1
  unfold State.followPtp
  dsimp only
  split_ifs
  · exact ⟨rfl, fun _ _ => rfl⟩
  · exact ⟨rfl, kept 0⟩
  · exact ⟨rfl, kept 1⟩

/-- What `Follows` speaks of, read in states that agree on it. -/
theorem State.Follows.transfer {s s' t t' : State} {small : Bool} {aim : Nat} (h : s'.Follows t' small aim)
    (base : s'.timeBase = s.timeBase) (pend : s'.getF Reg.SEC_PTP.STEP_PEND = s.getF Reg.SEC_PTP.STEP_PEND)
    (allowed : s'.stepAllowed = s.stepAllowed) (base' : t'.timeBase = t.timeBase)
    (pend' : t'.getF Reg.SEC_PTP.STEP_PEND = t.getF Reg.SEC_PTP.STEP_PEND) (slew' : t'.boot.slew = t.boot.slew) : s.Follows t small aim := by
  simpa only [State.Follows, base, pend, allowed, base', pend', slew'] using h

/-! ### The calendar (R543, R565) -/

/-- Setting the calendar touches PPT_CAL_STAT, the line of bit 42 and the calendar. -/
theorem State.setCalendar_only (s : State) (ns src : Nat) (c : s.Canon) :
    let t := s.setCalendar ns src
    t = { s with regs := t.regs, calNs := ns } ∧ s.fieldsKept t [Reg.PPT_CAL_STAT.INVALID, Reg.PPT_CAL_STAT.SRC, Reg.FLT_LINES.LINES] := by
  have set := State.setFs_only s [(Reg.PPT_CAL_STAT.INVALID, 0), (Reg.PPT_CAL_STAT.SRC, src)] c.regs
  have rising := State.setFs_rising s [(Reg.PPT_CAL_STAT.INVALID, 0), (Reg.PPT_CAL_STAT.SRC, src)] c.regs
  have named : s.fieldsKept (s.setFs [(Reg.PPT_CAL_STAT.INVALID, 0), (Reg.PPT_CAL_STAT.SRC, src)])
      [Reg.PPT_CAL_STAT.INVALID, Reg.PPT_CAL_STAT.SRC, Reg.FLT_LINES.LINES] :=
    fun f h => set.1 f fun g hg => h g (by simp only [List.map_cons, List.map_nil, List.mem_cons, List.not_mem_nil] at hg ⊢; tauto)
  unfold State.setCalendar State.dropLine State.clrBit
  dsimp only
  split_ifs
  · exact ⟨rfl, named⟩
  · exact ⟨rfl, fun f h => (State.getF_setF_other _ f _ _ rising (h _ (by simp))).trans (named f h)⟩
  · exact ⟨rfl, named⟩

/-- R543: PPT_CAL_STAT says that the calendar is set, and by whom. -/
theorem State.getF_setCalendar (s : State) (ns src : Nat) (c : s.Canon) :
    (s.setCalendar ns src).getF Reg.PPT_CAL_STAT.SRC = src % 2 ^ 2 ∧ (s.setCalendar ns src).getF Reg.PPT_CAL_STAT.INVALID = 0 := by
  have set := State.getF_setFs_mem s [(Reg.PPT_CAL_STAT.INVALID, 0), (Reg.PPT_CAL_STAT.SRC, src)] c.regs
    (by decide : [20977165, 20977166].Nodup)
  have rising := State.setFs_rising s [(Reg.PPT_CAL_STAT.INVALID, 0), (Reg.PPT_CAL_STAT.SRC, src)] c.regs
  have source := set (Reg.PPT_CAL_STAT.SRC, src) (by simp)
  have valid := set (Reg.PPT_CAL_STAT.INVALID, 0) (by simp)
  unfold State.setCalendar State.dropLine State.clrBit
  dsimp only
  split_ifs
  · exact ⟨source, valid⟩
  · exact ⟨(State.getF_setF_other _ _ _ _ rising (by decide)).trans source, (State.getF_setF_other _ _ _ _ rising (by decide)).trans valid⟩
  · exact ⟨source, valid⟩

theorem State.calFromPtp_unlocked {s : State} (time : Nat) (h : s.getF Reg.SEC_PTP.LOCKED = 0) : s.calFromPtp time = s :=
  if_neg fun locked => (State.on_iff s _).1 locked.1 h

theorem State.calFromPtp_sets {s : State} {time : Nat} (locked : s.getF Reg.SEC_PTP.LOCKED ≠ 0)
    (off : s.calNs + 1000000 < time ∨ time + 1000000 < s.calNs) : s.calFromPtp time = s.setCalendar time 1 :=
  if_pos ⟨(State.on_iff s _).2 locked, .inr off⟩

theorem State.calFromPtp_only (s : State) (time : Nat) (c : s.Canon) :
    let t := s.calFromPtp time
    t = { s with regs := t.regs, calNs := t.calNs } ∧
      s.fieldsKept t [Reg.PPT_CAL_STAT.INVALID, Reg.PPT_CAL_STAT.SRC, Reg.FLT_LINES.LINES] := by
  unfold State.calFromPtp
  dsimp only
  split_ifs
  · obtain ⟨eq, kept⟩ := State.setCalendar_only s time 1 c
    have set : (s.setCalendar time 1).calNs = time := congrArg State.calNs eq
    rw [set]
    exact ⟨eq, kept⟩
  · exact ⟨rfl, fun _ _ => rfl⟩

/-! ### A PTP message (R565) -/

/-- R565: the state once a message's offset has been recorded and counted. -/
def State.noted (s : State) (o : Int) : State :=
  { s.setF Reg.SEC_PTP.OFFSET_NS (satOffset o) with
    boot := { s.boot with ptpGood := if o.natAbs ≤ 1000 then s.boot.ptpGood + 1 else 0 } }

/-- R565: what a message of this clock's domain makes of the time base. -/
def State.heed (s : State) (o : Int) (time : Nat) : State :=
  if s.on Reg.SEC_PTP.LOCKED then (s.noted o).followPtp (decide (o.natAbs < 1000000)) (s.ptpTarget time)
  else if 16 ≤ (s.noted o).boot.ptpGood then ((s.noted o).setF Reg.SEC_PTP.LOCKED 1).followPtp false time
  else s.noted o

theorem State.noted_canon {s : State} (o : Int) (c : s.Canon) : (s.noted o).Canon :=
  ⟨c.hbm, c.loft, c.rstore, c.acc, State.setF_rising s _ _ c.regs⟩

theorem State.setF_canon {s : State} (f : Fld) (v : Nat) (c : s.Canon) : (s.setF f v).Canon :=
  ⟨c.hbm, c.loft, c.rstore, c.acc, State.setF_rising s f v c.regs⟩

theorem State.followPtp_canon {s : State} (small : Bool) (aim : Nat) (c : s.Canon) : (s.followPtp small aim).Canon :=
  (State.followPtp_kept s small aim ⟨c, rfl, rfl⟩).canon

theorem State.heed_canon {s : State} (o : Int) (time : Nat) (c : s.Canon) : (s.heed o time).Canon := by
  have c' := State.noted_canon o c
  unfold State.heed
  split_ifs
  · exact State.followPtp_canon _ _ c'
  · exact State.followPtp_canon _ _ (State.setF_canon _ _ c')
  · exact c'

theorem State.noted_kept (s : State) (o : Int) (c : s.Canon) : s.fieldsKept (s.noted o) [Reg.SEC_PTP.OFFSET_NS] :=
  (State.setF_only s _ _ c.regs).1

/-- A step is allowed or not by CRS_STATUS.LOCKED and CRS_CTRL.ENABLE alone. -/
theorem State.stepAllowed_congr {s t : State} (locked : t.getF Reg.CRS_STATUS.LOCKED = s.getF Reg.CRS_STATUS.LOCKED)
    (enable : t.getF Reg.CRS_CTRL.ENABLE = s.getF Reg.CRS_CTRL.ENABLE) : t.stepAllowed = s.stepAllowed := by
  simp only [State.stepAllowed, State.on, locked, enable]

theorem ptpMessage_other {s : State} {m : PtpOffset} (time : Nat) (h : m.domain ≠ s.getF Reg.SEC_PTP.DOMAIN) : ptpMessage m time s = s :=
  if_pos h

theorem ptpMessage_own {s : State} (o : Int) (time : Nat) (c : s.Canon) :
    ptpMessage ⟨s.getF Reg.SEC_PTP.DOMAIN, o⟩ time s = (s.heed o time).calFromPtp time := by
  have locked : (s.noted o).on Reg.SEC_PTP.LOCKED = s.on Reg.SEC_PTP.LOCKED := by
    rw [State.on, State.on, State.noted_kept s o c _ (by simp)]
  refine (if_neg (not_not.2 rfl)).trans ?_
  show State.calFromPtp (if (s.noted o).on Reg.SEC_PTP.LOCKED then _ else _) time = _
  rw [locked]
  rfl

/-- R565: where the registers of a message's state come from: OFFSET_NS, LOCKED and STEP_PEND aside they are as before. -/
theorem State.heed_only (s : State) (o : Int) (time : Nat) (c : s.Canon) :
    let t := s.heed o time
    t = { s with regs := t.regs, timeBase := t.timeBase, boot := { (s.noted o).boot with slew := t.boot.slew } } ∧
      (s.noted o).fieldsKept t [Reg.SEC_PTP.LOCKED, Reg.SEC_PTP.STEP_PEND] := by
  have c' := State.noted_canon o c
  have c'' := State.setF_canon Reg.SEC_PTP.LOCKED 1 c'
  unfold State.heed
  dsimp only
  split_ifs
  · obtain ⟨eq, kept⟩ := State.followPtp_only (s.noted o) (decide (o.natAbs < 1000000)) (s.ptpTarget time) c'
    exact ⟨eq, fun f h => kept f fun g hg => h g (List.mem_cons_of_mem _ hg)⟩
  · obtain ⟨eq, kept⟩ := State.followPtp_only ((s.noted o).setF Reg.SEC_PTP.LOCKED 1) false time c''
    refine ⟨eq, fun f h => (kept f fun g hg => h g (List.mem_cons_of_mem _ hg)).trans ?_⟩
    exact State.getF_setF_other _ f _ _ c'.regs (h _ List.mem_cons_self)
  · exact ⟨rfl, fun _ _ => rfl⟩

/-- R565: an unlocked clock that has not had sixteen good offsets only counts them. -/
theorem State.heed_counts {s : State} {o : Int} (time : Nat) (free : s.getF Reg.SEC_PTP.LOCKED = 0)
    (few : 1000 < o.natAbs ∨ s.boot.ptpGood < 15) : s.heed o time = s.noted o := by
  have short : ¬ 16 ≤ (s.noted o).boot.ptpGood := by
    show ¬ 16 ≤ if o.natAbs ≤ 1000 then s.boot.ptpGood + 1 else 0
    split <;> omega
  rw [State.heed, if_neg (by simp [(State.on_false_iff s _).2 free]), if_neg short]

/-- R565: the sixteenth good offset locks the clock, and the time base goes to TAI. -/
theorem State.heed_locks {s : State} {o : Int} (time : Nat) (free : s.getF Reg.SEC_PTP.LOCKED = 0) (good : o.natAbs ≤ 1000)
    (enough : 15 ≤ s.boot.ptpGood) : s.heed o time = ((s.noted o).setF Reg.SEC_PTP.LOCKED 1).followPtp false time := by
  have sixteen : 16 ≤ (s.noted o).boot.ptpGood := by
    show 16 ≤ if o.natAbs ≤ 1000 then s.boot.ptpGood + 1 else 0
    rw [if_pos good]
    omega
  rw [State.heed, if_neg (by simp [(State.on_false_iff s _).2 free]), if_pos sixteen]

theorem State.heed_locked {s : State} (o : Int) (time : Nat) (locked : s.getF Reg.SEC_PTP.LOCKED ≠ 0) :
    s.heed o time = (s.noted o).followPtp (decide (o.natAbs < 1000000)) (s.ptpTarget time) :=
  if_pos ((State.on_iff s _).2 locked)

/-- A message leaves everything but the clocks, the count of good offsets and registers. -/
theorem ptpMessage_boot (s : State) (o : Int) (time : Nat) (c : s.Canon) :
    let t := ptpMessage ⟨s.getF Reg.SEC_PTP.DOMAIN, o⟩ time s
    t.beat = s.beat ∧ t.boot = { s.boot with ptpGood := if o.natAbs ≤ 1000 then s.boot.ptpGood + 1 else 0, slew := t.boot.slew } ∧
      t.timeBase = (s.heed o time).timeBase ∧ t.boot.slew = (s.heed o time).boot.slew := by
  obtain ⟨heeded, -⟩ := State.heed_only s o time c
  obtain ⟨set, -⟩ := State.calFromPtp_only (s.heed o time) time (State.heed_canon o time c)
  have beat := congrArg State.beat heeded
  have boot := congrArg State.boot heeded
  intro t
  have own : t = (s.heed o time).calFromPtp time := ptpMessage_own o time c
  have tBoot : t.boot = (s.heed o time).boot := by rw [own, set]
  rw [tBoot]
  exact ⟨by rw [own, set]; exact beat, boot, by rw [own, set], rfl⟩

/-- What a message leaves of a register that neither the offset, the lock, the step pending nor the calendar has. -/
theorem ptpMessage_field (s : State) (o : Int) (time : Nat) (c : s.Canon) :
    (s.heed o time).fieldsKept (ptpMessage ⟨s.getF Reg.SEC_PTP.DOMAIN, o⟩ time s)
      [Reg.PPT_CAL_STAT.INVALID, Reg.PPT_CAL_STAT.SRC, Reg.FLT_LINES.LINES] := by
  rw [ptpMessage_own o time c]
  exact (State.calFromPtp_only _ time (State.heed_canon o time c)).2

/-- R566: an offset within 32 bits is recorded as it is. -/
theorem satOffset_in_range {o : Int} (low : -(2 ^ 31) ≤ o) (high : o < 2 ^ 31) : ((satOffset o % 2 ^ 32 : Nat) : Int) = o % 2 ^ 32 := by
  unfold satOffset
  omega

theorem ptpMessage_offset {s : State} {o : Int} (time : Nat) (c : s.Canon) (low : -(2 ^ 31) ≤ o) (high : o < 2 ^ 31) :
    ((ptpMessage ⟨s.getF Reg.SEC_PTP.DOMAIN, o⟩ time s).getF Reg.SEC_PTP.OFFSET_NS : Int) = o % 2 ^ 32 := by
  rw [ptpMessage_field s o time c _ (by simp), (State.heed_only s o time c).2 _ (by simp), ← satOffset_in_range low high]
  exact congrArg Nat.cast (State.getF_setF s Reg.SEC_PTP.OFFSET_NS (satOffset o) c.regs)

/-- R565: a message follows its aim as the state it found does. -/
theorem ptpMessage_follows {s u : State} {o : Int} {small : Bool} {aim time : Nat} (c : s.Canon) (cu : u.Canon)
    (heeded : s.heed o time = u.followPtp small aim) (base : u.timeBase = s.timeBase)
    (kept : s.fieldsKept u [Reg.SEC_PTP.OFFSET_NS, Reg.SEC_PTP.LOCKED]) :
    s.Follows (ptpMessage ⟨s.getF Reg.SEC_PTP.DOMAIN, o⟩ time s) small aim := by
  obtain ⟨-, -, base', slew'⟩ := ptpMessage_boot s o time c
  have pend' := ptpMessage_field s o time c Reg.SEC_PTP.STEP_PEND (by simp)
  refine (State.followPtp_follows u small aim cu).transfer base (kept _ (by simp))
    (State.stepAllowed_congr (kept _ (by simp)) (kept _ (by simp))) ?_ ?_ ?_ <;> rw [← heeded]
  exacts [base'.symm, pend'.symm, slew'.symm]

/-- R565: before the lock, and not at it, nothing but the offset and the count of good ones moves. -/
theorem ptpMessage_counts {s : State} {o : Int} (time : Nat) (c : s.Canon) (free : s.getF Reg.SEC_PTP.LOCKED = 0)
    (few : 1000 < o.natAbs ∨ s.boot.ptpGood < 15) :
    let t := ptpMessage ⟨s.getF Reg.SEC_PTP.DOMAIN, o⟩ time s
    t.getF Reg.SEC_PTP.LOCKED = 0 ∧ t.timeBase = s.timeBase ∧ t.calNs = s.calNs ∧ t.boot.slew = s.boot.slew := by
  have stays : (s.noted o).getF Reg.SEC_PTP.LOCKED = 0 := (State.noted_kept s o c _ (by simp)).trans free
  have same : ptpMessage ⟨s.getF Reg.SEC_PTP.DOMAIN, o⟩ time s = s.noted o := by
    rw [ptpMessage_own o time c, State.heed_counts time free few, State.calFromPtp_unlocked time stays]
  rw [same]
  exact ⟨stays, rfl, rfl, rfl⟩

/-- R565: at the lock the time base goes to TAI, as for a large offset. -/
theorem ptpMessage_locks {s : State} {o : Int} (time : Nat) (c : s.Canon) (free : s.getF Reg.SEC_PTP.LOCKED = 0) (good : o.natAbs ≤ 1000)
    (enough : 15 ≤ s.boot.ptpGood) :
    let t := ptpMessage ⟨s.getF Reg.SEC_PTP.DOMAIN, o⟩ time s
    t.getF Reg.SEC_PTP.LOCKED = 1 ∧ s.Follows t false time := by
  have c' := State.noted_canon o c
  have c'' := State.setF_canon Reg.SEC_PTP.LOCKED 1 c'
  have heeded := State.heed_locks time free good enough
  have kept : s.fieldsKept ((s.noted o).setF Reg.SEC_PTP.LOCKED 1) [Reg.SEC_PTP.OFFSET_NS, Reg.SEC_PTP.LOCKED] := fun f h =>
    (State.getF_setF_other _ f _ _ c'.regs (h _ (by simp))).trans
      (State.noted_kept s o c f fun g hg => h g (by rw [List.mem_singleton.1 hg]; simp))
  refine ⟨?_, ptpMessage_follows c c'' heeded rfl kept⟩
  rw [ptpMessage_field s o time c _ (by simp), heeded, (State.followPtp_only _ false time c'').2 _ (by simp)]
  exact State.getF_setF _ _ 1 c'.regs

/-- R565: a locked clock follows the target of the message. -/
theorem ptpMessage_locked {s : State} (o : Int) (time : Nat) (c : s.Canon) (locked : s.getF Reg.SEC_PTP.LOCKED ≠ 0) :
    s.Follows (ptpMessage ⟨s.getF Reg.SEC_PTP.DOMAIN, o⟩ time s) (decide (o.natAbs < 1000000)) (s.ptpTarget time) :=
  ptpMessage_follows c (State.noted_canon o c) (State.heed_locked o time locked) rfl fun f h =>
    State.noted_kept s o c f fun g hg => h g (by rw [List.mem_singleton.1 hg]; simp)

/-- R565: while locked the calendar is set from a message that it differs from by more than 1 ms. -/
theorem ptpMessage_calendar {s : State} (o : Int) {time : Nat} (c : s.Canon) (locked : s.getF Reg.SEC_PTP.LOCKED ≠ 0)
    (off : s.calNs + 1000000 < time ∨ time + 1000000 < s.calNs) :
    let t := ptpMessage ⟨s.getF Reg.SEC_PTP.DOMAIN, o⟩ time s
    t.calNs = time ∧ t.getF Reg.PPT_CAL_STAT.SRC = 1 ∧ t.getF Reg.PPT_CAL_STAT.INVALID = 0 := by
  have c' := State.heed_canon o time c
  have still : (s.heed o time).getF Reg.SEC_PTP.LOCKED ≠ 0 := by
    rw [State.heed_locked o time locked, (State.followPtp_only _ _ _ (State.noted_canon o c)).2 _ (by simp),
      State.noted_kept s o c _ (by simp)]
    exact locked
  have calNs : (s.heed o time).calNs = s.calNs := by rw [(State.heed_only s o time c).1]
  have set : ptpMessage ⟨s.getF Reg.SEC_PTP.DOMAIN, o⟩ time s = (s.heed o time).setCalendar time 1 := by
    rw [ptpMessage_own o time c, State.calFromPtp_sets still (by rw [calNs]; exact off)]
  rw [set]
  exact ⟨congrArg State.calNs (State.setCalendar_only _ time 1 c').1, State.getF_setCalendar _ time 1 c'⟩

/-! ### PPS edges (R565) -/

theorem State.ptpTarget_alone {s : State} (time : Nat) (h : s.boot.ppsAt = none) : s.ptpTarget time = time :=
  if_neg (by simp [State.ppsPresent, h])

/-- R565: with PPS edges present a message moves the aim of the slew that runs by whole seconds, to the one nearest its own time. -/
theorem State.ptpTarget_seconds {s : State} {time : Nat} (present : s.ppsPresent = true) (late : 1000000000 ≤ time) :
    ((s.ptpTarget time : Int) - s.timeBase - s.boot.slew) % 1000000000 = 0 ∧ s.ptpTarget time ≤ time + 500000000 ∧
      time ≤ s.ptpTarget time + 500000000 := by
  have aim : s.ptpTarget time = ((s.timeBase : Int) + s.boot.slew +
      ((time : Int) - s.timeBase - s.boot.slew + 500000000) / 1000000000 * 1000000000).toNat := if_pos present
  omega

/-- The second nearest to a time base. -/
def nearestSecond (ns : Nat) : Nat := (ns + 500000000) / 1000000000 * 1000000000

theorem nearestSecond_near (ns : Nat) :
    nearestSecond ns % 1000000000 = 0 ∧ nearestSecond ns ≤ ns + 500000000 ∧ ns < nearestSecond ns + 500000000 := by
  unfold nearestSecond
  omega

theorem exec_ppsEdge {s : State} (rails : s.power.hubRails = true) : exec .ppsEdge s = .next (ppsEdge s) := onHub_rails ppsEdge rails

theorem ppsEdge_unlocked {s : State} (free : s.getF Reg.SEC_PTP.LOCKED = 0) :
    ppsEdge s = { s with boot := { s.boot with ppsAt := some s.now } } :=
  if_neg fun on => (State.on_iff s _).1 on free

/-- R565: the time of an edge at a locked clock is kept, and the time base follows the second nearest to it. -/
theorem ppsEdge_locked {s : State} (c : s.Canon) (locked : s.getF Reg.SEC_PTP.LOCKED ≠ 0) :
    let t := ppsEdge s
    let aim := nearestSecond s.timeBase
    t = { s with regs := t.regs, timeBase := t.timeBase, boot := { s.boot with ppsAt := some s.now, slew := t.boot.slew } } ∧
      s.fieldsKept t [Reg.SEC_PTP.STEP_PEND] ∧ s.Follows t (decide (((aim : Int) - s.timeBase).natAbs < 1000000)) aim := by
  have edge : ({ s with boot := { s.boot with ppsAt := some s.now } } : State).Canon := ⟨c.hbm, c.loft, c.rstore, c.acc, c.regs⟩
  have run : ppsEdge s = ({ s with boot := { s.boot with ppsAt := some s.now } } : State).followPtp
      (decide (((nearestSecond s.timeBase : Int) - s.timeBase).natAbs < 1000000)) (nearestSecond s.timeBase) :=
    if_pos ((State.on_iff s _).2 locked)
  rw [run]
  obtain ⟨only, kept⟩ := State.followPtp_only _ _ _ edge
  exact ⟨only, kept, State.followPtp_follows _ _ _ edge⟩

end Sys2Proof.Machine
end

section
/-! SUPPORT. The statement about management and time. -/

namespace Sys2Proof.Machine

/-- R551, R564: none of these commands does anything while Bolyel does not run. -/
theorem exec_management_down {s : State} (down : s.bolyelUp = false) (x : List Byte) (a b : Nat) (o : PtpOffset) :
    ∀ i ∈ [Instr.getVersion, .getCapabilities, .negotiateAlgorithms, .getDigests, .getCertificate a b, .challenge x, .getMeasurements a x,
        .spdmUnsupportedRequest a, .keyAdd a x, .keyRevoke a x, .keyClear a x, .firmwareUpdate x, .activateFirmware, .ptpMessage o a],
      exec i s = .next s := by
  simp only [List.forall_mem_cons, List.not_mem_nil, false_imp_iff, implies_true, and_true]
  refine ⟨?_, ?_, ?_, ?_, ?_, ?_, ?_, ?_, ?_, ?_, ?_, ?_, ?_, ?_⟩ <;> exact onHub_viaBolyel_down down

/-- Settles O59: each command by its own lemma; a message and an edge by what following an aim makes of the time base. -/
theorem trustAndTime : Obligations.TrustAndTime := by
  intro s rails c
  refine ⟨rfl, fun i x a b o down => exec_management_down down x a b o i, fun up => ?_, fun free => ?_, fun locked => ?_⟩
  · refine ⟨onHub_viaBolyel rails up, onHub_viaBolyel rails up, onHub_viaBolyel rails up, onHub_viaBolyel rails up,
      fun off len => onHub_viaBolyel rails up, ?_, ?_, fun code => ⟨fun listed => ?_, fun other => ?_⟩, onHub_viaBolyel rails up,
      fun via e => ⟨?_, ?_, ?_, ?_, State.editOk_meets, ?_, ?_⟩, fun o mild => ?_, fun m time other => ?_, fun o time => ?_⟩
    · rintro nonce b rfl
      exact onHub_viaBolyel rails up
    · rintro index nonce m b listed rfl
      simp only [List.mem_cons, Prod.mk.injEq, List.not_mem_nil, or_false] at listed
      rcases listed with ⟨rfl, rfl⟩ | ⟨rfl, rfl⟩ | ⟨rfl, rfl⟩ | ⟨rfl, rfl⟩ | ⟨rfl, rfl⟩ | ⟨rfl, rfl⟩ <;>
        exact exec_getMeasurements_one rails up nonce (by decide)
    · rw [exec_spdmUnsupportedRequest rails up, if_pos ((spdmListed_iff code).2 listed)]
    · rw [exec_spdmUnsupportedRequest rails up, if_neg (mt (spdmListed_iff code).1 other)]
      rfl
    · rintro empty form rfl index admin signer newer here signed
      refine ⟨_, exec_keyAdd rails up 0 e, ?_⟩
      rw [keyAdd_first empty form index admin signer newer here signed]
      exact ⟨rfl, State.getF_setKeys_entries s _ _ c, State.getF_setKeys_kseq s _ _ c, rfl⟩
    · intro held ok fresh
      exact ⟨_, exec_keyAdd rails up via e, by rw [keyAdd_next held ok fresh]; exact ⟨rfl, rfl⟩⟩
    · intro ok held left
      exact ⟨_, exec_keyRevoke rails up via e, by rw [keyRevoke_accepted ok held left]; exact ⟨rfl, rfl⟩⟩
    · intro ok
      exact ⟨_, exec_keyClear rails up via e, by rw [keyClear_accepted ok]; exact ⟨rfl, State.getF_setKeys_entries s _ _ c, rfl⟩⟩
    · intro bad other
      simp only [List.forall_mem_cons, List.not_mem_nil, false_imp_iff, implies_true, and_true]
      rw [exec_keyAdd rails up, exec_keyRevoke rails up, exec_keyClear rails up, keyAdd_refused bad other, keyRevoke_refused (.inl bad),
        keyClear_refused bad]
      exact ⟨rfl, rfl, rfl⟩
    · intro ok last
      rw [exec_keyRevoke rails up, keyRevoke_refused (.inr last)]
      rfl
    · refine ⟨_, exec_firmwareUpdate rails up o, firmwareUpdate_course s o c mild, fun image bad => ?_,
        fun image good => firmwareUpdate_image_leaves image good, fun manifest bad => ?_, fun manifest good newer => ?_⟩
      · exact firmwareUpdate_bad_flash c mild (if_neg image).symm bad
      · exact firmwareUpdate_bad_flash c mild (if_pos manifest).symm bad
      · rw [firmwareUpdate_manifest manifest good, if_pos (State.manifestNewer_of newer)]
        exact ⟨rfl, rfl⟩
    · rw [exec_ptpMessage rails up, ptpMessage_other time other]
    · obtain ⟨beat, boot, -, -⟩ := ptpMessage_boot s o time c
      refine ⟨_, exec_ptpMessage rails up _ time, beat, ptpMessage_offset time c, boot, fun free few => ptpMessage_counts time c free few,
        fun free good enough => ?_, State.ptpTarget_alone time, State.ptpTarget_seconds, fun locked => ?_⟩
      · obtain ⟨lock, -, large⟩ := ptpMessage_locks time c free good enough
        exact ⟨lock, large (.inl rfl)⟩
      · obtain ⟨slewed, large⟩ := ptpMessage_locked o time c locked
        have isLarge (h : 1000000 ≤ o.natAbs ∨ s.getF Reg.SEC_PTP.STEP_PEND ≠ 0) :
            decide (o.natAbs < 1000000) = false ∨ s.getF Reg.SEC_PTP.STEP_PEND ≠ 0 := h.imp_left fun h => by simpa using h
        exact ⟨fun small still => slewed (by simpa using small) still, fun h allowed => (large (isLarge h)).1 allowed,
          fun h held => (large (isLarge h)).2 held, ptpMessage_calendar o c locked⟩
  · rw [exec_ppsEdge rails, ppsEdge_unlocked free]
  · obtain ⟨only, kept, slewed, large⟩ := ppsEdge_locked c locked
    obtain ⟨whole, low, high⟩ := nearestSecond_near s.timeBase
    exact ⟨_, _, exec_ppsEdge rails, only, kept, whole, low, high, fun small still => slewed (by simpa using small) still,
      fun h => large (h.imp_left fun h => by simpa using h)⟩

end Sys2Proof.Machine
end

section
/-! SUPPORT. What the operations that move data or post records leave alone: every part of the state but the memories' contents, the queues
towards the host and the links, and the registers that count them. -/

namespace Sys2Proof.Machine

/-! ### Registers picked by their place -/

theorem SMap.filter_put {α : Type} [DecidableEq α] (d : α) (k : Nat) (v : α) (p : Nat → Bool) (h : p k = false) (m : SMap α) :
    (SMap.put d k v m).filter (fun x => p x.1) = m.filter fun x => p x.1 := by
  induction m with
  | nil => unfold SMap.put; split <;> simp [h]
  | cons x t ih =>
    unfold SMap.put
    split_ifs with _ _ same <;> simp [List.filter_cons, h, ih]
    all_goals rw [← same, h]

theorem SMap.look_filter {α : Type} (d : α) (k : Nat) (p : Nat → Bool) (h : p k = true) (m : SMap α) (w : SMap.rising m = true) :
    SMap.look d k (m.filter fun x => p x.1) = SMap.look d k m := by
  induction m with
  | nil => rfl
  | cons x t ih =>
    obtain ⟨j, v⟩ := x
    simp only [SMap.rising, Bool.and_eq_true] at w
    obtain ⟨above, w⟩ := w
    rw [List.filter_cons]
    split_ifs with keep
    · simp only [SMap.look, ih w]
    · have other : k ≠ j := fun e => keep (e ▸ h)
      rw [ih w, SMap.look, if_neg other]
      split_ifs with below
      · exact SMap.look_above d k t (SMap.above_mono (Nat.le_of_lt below) t above) k (Nat.le_refl k)
      · rfl

/-- The registers whose fields stand at the places `p` picks. -/
def State.regsOn (s : State) (p : Nat → Bool) : SMap Nat := s.regs.filter fun x => p x.1

theorem State.regsOn_setF (s : State) (p : Nat → Bool) (f : Fld) (v : Nat) (h : p f.key = false) : (s.setF f v).regsOn p = s.regsOn p :=
  SMap.filter_put f.reset f.key _ p h s.regs

/-- Fields read alike in two states whose registers agree there. -/
theorem State.getF_of_regsOn {s t : State} {p : Nat → Bool} (h : t.regsOn p = s.regsOn p) (ws : SMap.rising s.regs = true)
    (wt : SMap.rising t.regs = true) {f : Fld} (hf : p f.key = true) : t.getF f = s.getF f := by
  unfold State.getF
  rw [← SMap.look_filter f.reset f.key p hf s.regs ws, ← SMap.look_filter f.reset f.key p hf t.regs wt]
  exact congrArg _ h

/-! ### Moving data -/

/-- The registers of the beat and of the courses (0x10000 to 0x1FFFF), with FLT_STATUS, FLT_LINES and FLT_FATAL. -/
def courseKey (k : Nat) : Bool :=
  decide (k < 8388608 ∨ k = Reg.FLT_STATUS.STATUS.key ∨ k = Reg.FLT_LINES.LINES.key ∨ k = Reg.FLT_FATAL.FATAL.key)

/-- A state without what moving data changes. -/
def State.inner (s : State) : State :=
  { s with
    regs := s.regsOn courseKey
    rings := [], ports := [], hbm := [], poison := [], symErr := [], retrainPend := [], winLines := [], cxlOut := [], hostOut := [], msiOut := []
    heldRecs := [], flitOut := [], inj := none, freeCtr := 0 }

theorem State.inner_upd (s : State) {rings ports hbm poison symErr retrainPend winLines cxlOut hostOut msiOut heldRecs flitOut inj freeCtr} :
    ({ s with
      rings := rings, ports := ports, hbm := hbm, poison := poison, symErr := symErr, retrainPend := retrainPend, winLines := winLines
      cxlOut := cxlOut, hostOut := hostOut, msiOut := msiOut, heldRecs := heldRecs, flitOut := flitOut, inj := inj, freeCtr := freeCtr }
      : State).inner = s.inner := rfl

theorem State.getF_of_inner {s t : State} (h : t.inner = s.inner) (ws : SMap.rising s.regs = true) (wt : SMap.rising t.regs = true) {f : Fld}
    (hf : courseKey f.key = true) : t.getF f = s.getF f :=
  State.getF_of_regsOn (congrArg State.regs h) ws wt hf

theorem courseKey_of_ring (r b : Nat) (h : b % 2048 ∉ [0, 512, 1536]) : courseKey ((0x28000 + r * 0x20) * 64 + b) = false := by
  simp only [List.mem_cons, List.not_mem_nil, or_false] at h
  simp only [courseKey, decide_eq_false_iff_not]
  omega

theorem State.inner_setF (s : State) (f : Fld) (v : Nat) (h : courseKey f.key = false) : (s.setF f v).inner = s.inner := by
  unfold State.inner
  rw [s.regsOn_setF courseKey f v h]
  rfl

theorem State.inner_bump (s : State) (f : Fld) (n : Nat) (h : courseKey f.key = false) : (s.bump f n).inner = s.inner := s.inner_setF f _ h

theorem State.inner_each {α : Type} (s : State) (xs : List α) (f : State → α → State) (h : ∀ s x, (f s x).inner = s.inner) :
    (s.each xs f).inner = s.inner := by
  unfold State.each
  induction xs generalizing s with
  | nil => rfl
  | cons x t ih => exact (ih _).trans (h s x)

@[simp] theorem State.inner_setRing (s : State) (r : Nat) (x : Ring) : (s.setRing r x).inner = s.inner := rfl
@[simp] theorem State.inner_setPort (s : State) (p : Nat) (x : Port) : (s.setPort p x).inner = s.inner := rfl
@[simp] theorem State.inner_msi (s : State) (v : Nat) : (s.msi v).inner = s.inner := rfl
@[simp] theorem State.inner_nextFree (s : State) : s.nextFree.inner = s.inner := rfl
@[simp] theorem State.inner_amendRecord (s : State) (q : Req) (code : Nat) : (s.amendRecord q code).inner = s.inner := rfl

@[simp] theorem State.inner_coalesce (s : State) (r : Nat) : (s.coalesce r).inner = s.inner := by
  unfold State.coalesce
  split <;> rfl

@[simp] theorem State.inner_sendCxl (s : State) (kind : CxlKind) (a n : Nat) : (s.sendCxl kind a n).inner = s.inner := by
  unfold State.sendCxl
  split <;> rfl

@[simp] theorem State.inner_writeRec (s : State) (c : CRec) : (s.writeRec c).inner = s.inner := by
  have tail : courseKey (Reg.HIF_RING_PTR.CQ_TAIL c.ring).key = false := by
    simpa [Nat.add_mul, Nat.add_assoc] using courseKey_of_ring c.ring 1568 (by decide)
  rw [State.writeRec, State.inner_coalesce, State.inner_setRing, State.inner_setF _ _ _ tail, State.inner_sendCxl]
  rfl

@[simp] theorem State.inner_killCq (s : State) (r : Nat) : (s.killCq r).inner = s.inner := by
  have err : courseKey (Reg.HIF_RING_STAT.ERR r).key = false := by
    simpa [Nat.add_mul, Nat.add_assoc] using courseKey_of_ring r 1282 (by decide)
  have code : courseKey (Reg.HIF_RING_STAT.ERR_CODE r).key = false := by
    simpa [Nat.add_mul, Nat.add_assoc] using courseKey_of_ring r 1288 (by decide)
  rw [State.killCq, State.inner_setRing, State.setFs_cons, State.setFs_cons, State.setFs_nil, State.inner_setF _ _ _ code,
    State.inner_setF _ _ _ err]

@[simp] theorem State.inner_post (s : State) (c : CRec) : (s.post c).inner = s.inner := by
  have lost (n : Nat) : (s.bump Reg.HIF_HL_LOST.LOST n).inner = s.inner := s.inner_bump _ n rfl
  unfold State.post
  split_ifs
  · exact lost 1
  · rfl
  · exact lost 1
  · exact s.inner_writeRec c
  · exact s.inner_killCq c.ring

@[simp] theorem State.inner_flushEnd (s : State) (r : Nat) : (s.flushEnd r).inner = s.inner := by
  dsimp only [State.flushEnd]
  split
  · split <;> simp
  · rfl

@[simp] theorem State.inner_flushRecs (s : State) (r : Nat) (qs : List Req) : (s.flushRecs r qs).inner = s.inner := by
  induction qs generalizing s with
  | nil => rfl
  | cons q qs ih =>
    unfold State.flushRecs
    split
    · rfl
    · rw [ih, State.inner_post, State.inner_setRing]

@[simp] theorem State.inner_complete (s : State) (q : Req) (status detail : Nat) : (s.complete q status detail).inner = s.inner := by
  dsimp only [State.complete]
  split <;> simp

@[simp] theorem State.inner_finish (s : State) (q : Req) (status : Nat) : (s.finish q status).inner = s.inner := by simp [State.finish]

@[simp] theorem State.inner_retrainNext (s : State) (i : Nat) : (s.retrainNext i).inner = s.inner := by
  have state (c v : Nat) : (s.setF (Reg.MEM_LCH_STAT.STATE (i / 34) c) v).inner = s.inner := s.inner_setF _ v (by simp +arith [courseKey])
  dsimp only [State.retrainNext]
  split_ifs
  · exact state _ 1
  · rfl

@[simp] theorem State.inner_targetFails (s : State) (sec : Nat) : (s.targetFails sec).inner = s.inner := by
  unfold State.targetFails
  split <;> simp

@[simp] theorem State.inner_readSector (s : State) (sec : Nat) : (s.readSector sec).inner = s.inner := by
  unfold State.readSector
  split
  · rfl
  · exact s.inner_bump _ 1 (by simp +arith [courseKey])
  · exact (State.inner_targetFails _ sec).trans (s.inner_bump _ 1 (by simp +arith [courseKey]))

@[simp] theorem State.inner_viaHost (s : State) (a n : Nat) (store : Bool) : (s.viaHost a n store).inner = s.inner := by
  unfold State.viaHost
  split_ifs <;> rfl

@[simp] theorem State.inner_readQuiet (s : State) (a n : Nat) : (s.readQuiet a n).2.2.inner = s.inner :=
  (State.inner_each _ _ _ State.inner_readSector).trans (s.inner_viaHost a n false)

@[simp] theorem State.inner_checkReads (s : State) (rs : List (Nat × Nat)) : (s.checkReads rs).2.inner = s.inner :=
  s.inner_each rs _ fun s r => s.inner_readQuiet r.1 r.2

@[simp] theorem State.inner_storeSector (s : State) (sec : Nat) : (s.storeSector sec).inner = s.inner := by
  have arm (st : Nat) : (s.setF (Reg.MEM_INJECT.ARM st) 0).inner = s.inner := s.inner_setF _ 0 (by simp +arith [courseKey])
  dsimp only [State.storeSector]
  split
  · exact arm _
  · rfl

@[simp] theorem State.inner_writeHbm (s : State) (a : Nat) (bs : List Byte) : (s.writeHbm a bs).inner = s.inner :=
  (State.inner_upd _).trans ((State.inner_each _ _ _ State.inner_storeSector).trans (s.inner_viaHost a _ true))

@[simp] theorem State.inner_useInject (s : State) : s.useInject.inner = s.inner :=
  (State.inner_bump _ Reg.FLT_INJ_COUNT.COUNT 1 rfl).trans (s.inner_setF Reg.FLT_INJECT.ARM 0 rfl)

@[simp] theorem State.inner_putFlit (s : State) (p : Nat) (q : FlitReq) : (s.putFlit p q).inner = s.inner := by
  dsimp only [State.putFlit]
  exact (State.inner_upd _).trans (by split_ifs <;> simp)

@[simp] theorem State.inner_sendFlit (s : State) (p ftype : Nat) (payload : List Byte) : (s.sendFlit p ftype payload).inner = s.inner := by
  dsimp only [State.sendFlit, State.sendFlitN]
  split <;> simp

@[simp] theorem State.inner_sendFail (s : State) (counter : Nat) : (s.sendFail counter).inner = s.inner :=
  s.inner_each _ _ fun s p => s.inner_sendFlit p 5 _

@[simp] theorem State.inner_sendBeats (s : State) : s.sendBeats.inner = s.inner := s.inner_each _ _ fun s p => s.inner_sendFlit p 5 _

@[simp] theorem State.inner_setSeed (s : State) (v : Nat) : (s.setSeed v).inner = s.inner :=
  s.inner_each _ _ fun s n => s.inner_setF (Reg.TRS_VEC_SEED.SEED n) v (by simp +arith [courseKey])

end Sys2Proof.Machine
end

section
/-! SUPPORT. Commands that write one register of the course block: CRS_RESUME, CRS_SWAP, the shadow set and CRS_CTRL (R76 to R83, R52). -/

namespace Sys2Proof.Machine

/-- Settles O6: the queue and the clock are part of what every command keeps. -/
theorem commandsKeepQueueAndClock : Obligations.CommandsKeepQueueAndClock := by
  intro i s t c run
  obtain ⟨-, queue, clock⟩ := exec_kept i s ⟨c, rfl, rfl⟩ t run
  exact ⟨queue, clock⟩

/-! ### Running a command -/

theorem onCore_up (f : State → State) (s : State) (h : s.coreUp) : onCore f s = .next (f s) := by
  obtain ⟨hub, core, -⟩ := h
  rw [onCore, if_pos ⟨hub, core⟩]

theorem onHub_gated (a : Nat) (f : State → State) (s : State) (h : s.hubUp) : onHub (fun s => s.gated a f) s = .next (f s) :=
  (onHub_up _ s h).trans (congrArg _ (s.gated_ready a f h.2))

theorem State.on_eq_true {s : State} {f : Fld} (h : s.getF f ≠ 0) : s.on f = true := decide_eq_true h
theorem State.on_eq_false {s : State} {f : Fld} (h : s.getF f = 0) : s.on f = false := decide_eq_false (not_not.2 h)

/-! ### CRS_RESUME (R76, R298) -/

theorem writeResume_free {s : State} {v : Nat} (one : v.testBit 0 = true) (free : s.getF Reg.CRS_KV_STAT.ROLLBACK = 0) :
    writeResume v s = s.setF Reg.CRS_STATUS.HELD 0 := by
  rw [writeResume, one, State.on_eq_false free]
  rfl

theorem writeResume_rolling {s : State} {v : Nat} (one : v.testBit 0 = true) (rolling : s.getF Reg.CRS_KV_STAT.ROLLBACK ≠ 0) :
    writeResume v s = { s with resumePend := true } := by
  rw [writeResume, one, State.on_eq_true rolling]
  rfl

theorem writeResume_zero {s : State} {v : Nat} (zero : v.testBit 0 = false) : writeResume v s = s := by
  rw [writeResume, zero]
  rfl

theorem kvRollbackDone_pending {s : State} (rolling : s.getF Reg.CRS_KV_STAT.ROLLBACK ≠ 0) (pend : s.resumePend = true) :
    kvRollbackDone s = { (s.setF Reg.CRS_KV_STAT.ROLLBACK 0).setF Reg.CRS_STATUS.HELD 0 with resumePend := false } := by
  rw [kvRollbackDone, if_pos (State.on_eq_true rolling)]
  exact if_pos pend

/-- Settles O8: by the branches of the write, and of the end of the rollback. -/
theorem resumeClearsHeld : Obligations.ResumeClearsHeld := by
  intro s v up c
  have run : exec (.crsResume v) s = .next (writeResume v.toNat s) := onHub_gated 0x10048 _ s up
  refine ⟨fun one free => ⟨_, run, ?_⟩, fun one rolling => ⟨?_, fun core => ?_⟩, fun zero => ?_⟩
  · rw [writeResume_free one free]
    exact ⟨State.getF_setF _ _ _ c.regs, State.setF_only _ _ _ c.regs⟩
  · rw [run, writeResume_rolling one rolling]
  · have ended := kvRollbackDone_pending (s := { s with resumePend := true }) rolling rfl
    refine ⟨_, onCore_up kvRollbackDone _ ⟨up.1, core, up.2⟩, ?_⟩
    rw [ended]
    have w := State.setF_rising { s with resumePend := true } Reg.CRS_KV_STAT.ROLLBACK 0 c.regs
    exact ⟨State.getF_setF _ _ _ w, (State.getF_setF_other _ _ _ _ w (by decide)).trans (State.getF_setF _ _ _ c.regs), rfl⟩
  · rw [run, writeResume_zero zero]

/-! ### The shadow set while a swap is pending (R83) -/

theorem writeShadow_pending (r : RegRow) (v : Nat) {s : State} (h : s.getF Reg.CRS_STATUS.SWAP_PEND ≠ 0) :
    writeShadow r v s = s.setF Reg.CRS_STATUS.SHADOW_WERR 1 := if_pos (State.on_eq_true h)

/-- R83: a register of the shadow set answers SHADOW_SET_WRITE and REGISTER_WRITE alike, with SHADOW_WERR alone. -/
theorem shadow_guarded {s : State} {a : Nat} {r : RegRow} (up : s.hubUp) (c : s.Canon) (pending : s.getF Reg.CRS_STATUS.SWAP_PEND ≠ 0)
    (reaches : s.WriteReaches a 8 r) (sh : r.shadow = true) (v : W64) :
    ∃ t, exec (.shadowSetWrite a v) s = .next t ∧ exec (.registerWrite a 8 v) s = .next t ∧
      t.getF Reg.CRS_STATUS.SHADOW_WERR = 1 ∧ s.onlyFields t [Reg.CRS_STATUS.SHADOW_WERR] := by
  have single : exec (.shadowSetWrite a v) s = .next (writeShadow r v.toNat s) := by
    rw [show exec (.shadowSetWrite a v) s = execShadowSetWrite a v s from rfl, execShadowSetWrite, onHub_up _ s up, reaches.found]
    exact congrArg _ ((if_pos sh).trans (s.gated_ready a _ up.2))
  have general : exec (.registerWrite a 8 v) s = .next (writeShadow r v.toNat s) := by
    rw [exec_registerWrite a 8 v s up, registerWrite_shadow reaches _ sh]
  rw [writeShadow_pending r _ pending] at single general
  exact ⟨_, single, general, State.getF_setF _ _ _ c.regs, State.setF_only _ _ _ c.regs⟩

/-- Settles O11: each of the five registers is found at its address and is one of the shadow set. -/
theorem pendingSwapGuardsTheShadowSet : Obligations.PendingSwapGuardsTheShadowSet := by
  intro s v a up c ha pending
  simp only [List.mem_cons, List.not_mem_nil, or_false] at ha
  rcases ha with rfl | rfl | rfl | rfl | rfl <;>
    exact shadow_guarded up c pending ⟨up.2, rfl, rfl, rfl, .inr rfl, rfl, .inl (by decide)⟩ rfl v

/-! ### CRS_SWAP (R81) -/

@[simp] theorem State.inner_imgTableOk (s : State) : s.imgTableOk.2.inner = s.inner := s.inner_checkReads _

@[simp] theorem State.inner_planOk (s : State) : s.planOk.2.inner = s.inner := s.inner_checkReads _

@[simp] theorem State.inner_ttOk (s : State) (i : Nat) : (s.ttOk i).2.inner = s.inner := s.inner_checkReads _

/-- The timetables are read one after the other. -/
theorem State.inner_ttOks (p : Bool × State) (is : List Nat) :
    (is.foldl (fun x i => let q := x.2.ttOk i; (x.1 && q.1, q.2)) p).2.inner = p.2.inner := by
  induction is generalizing p with
  | nil => rfl
  | cons i is ih => exact (ih _).trans (p.2.inner_ttOk i)

@[simp] theorem State.inner_ttsOk (s : State) : s.ttsOk.2.inner = s.inner := by
  dsimp only [State.ttsOk]
  split
  · exact (State.inner_ttOks _ _).trans (s.inner_checkReads _)
  · exact s.inner_checkReads _

@[simp] theorem State.inner_recipesOk (s : State) : s.recipesOk.2.inner = s.inner := by
  dsimp only [State.recipesOk]
  split
  · exact (State.inner_checkReads _ _).trans (s.inner_checkReads _)
  · exact s.inner_checkReads _

theorem thenCheck_snd (x : Bool × State) (f : State → Bool × State) : (thenCheck x f).2 = (f x.2).2 := rfl

@[simp] theorem State.inner_setOk (s : State) : s.setOk.2.inner = s.inner := by
  unfold State.setOk
  split
  · rfl
  · rw [thenCheck_snd, State.inner_recipesOk, thenCheck_snd, State.inner_planOk, thenCheck_snd, State.inner_ttsOk, State.inner_imgTableOk]

/-- R82: the fields of the active set, and the epoch. -/
def activeFields : List Fld :=
  [Reg.CRS_ACT_IMGTAB.COUNT, Reg.CRS_ACT_IMGTAB.BASE, Reg.CRS_ACT_TTAB.COUNT, Reg.CRS_ACT_TTAB.BASE, Reg.CRS_ACT_PLAN.BASE,
    Reg.CRS_ACT_RECIPE.COUNT, Reg.CRS_ACT_RECIPE.BASE, Reg.CRS_ACT_LEDGER.BASE, Reg.CRS_EPOCH.EPOCH]

theorem State.keepActive_eq (t s : State) : t.keepActive s = t.setFs (activeFields.map fun f => (f, s.getF f)) := rfl

theorem State.getF_keepActive {t : State} (s : State) (w : SMap.rising t.regs = true) {f : Fld} (hf : f ∈ activeFields) :
    (t.keepActive s).getF f = s.getF f % 2 ^ f.w := by
  rw [State.keepActive_eq]
  exact State.getF_setFs_mem t _ w (by simp only [List.map_map, Function.comp_def]; decide) (f, s.getF f) (List.mem_map_of_mem hf)

theorem State.keepActive_only {t : State} (s : State) (w : SMap.rising t.regs = true) : t.onlyFields (t.keepActive s) activeFields := by
  have only := State.setFs_only t (activeFields.map fun f => (f, s.getF f)) w
  simpa only [List.map_map, Function.comp_def, List.map_id', State.keepActive_eq] using only

theorem State.swapSets_only {s : State} (w : SMap.rising s.regs = true) : s.onlyFields s.swapSets activeFields := State.setFs_only s _ w

/-- R81: what a swap request finds of the shadow set, and what its reads leave. -/
theorem State.swapCheck_kept (s : State) (c : s.Canon) :
    (s.swapSets.setOk.2.keepActive s).Canon ∧
      (s.swapSets.setOk.2.keepActive s).getF Reg.CRS_STATUS.SWAP_PEND = s.getF Reg.CRS_STATUS.SWAP_PEND ∧
      ∀ f ∈ activeFields, (s.swapSets.setOk.2.keepActive s).getF f = s.getF f % 2 ^ f.w := by
  have kept : Kept s.pending s.now s := ⟨c, rfl, rfl⟩
  have keptSwap := State.swapSets_kept s kept
  have keptOk := State.setOk_kept _ keptSwap
  have swap := keptSwap.canon
  have ok := keptOk.canon
  refine ⟨(State.keepActive_kept _ s keptOk kept).canon, ?_, fun f hf => State.getF_keepActive s ok.regs hf⟩
  calc (s.swapSets.setOk.2.keepActive s).getF Reg.CRS_STATUS.SWAP_PEND
    _ = s.swapSets.setOk.2.getF Reg.CRS_STATUS.SWAP_PEND := (State.keepActive_only s ok.regs).1 _ (by decide)
    _ = s.swapSets.getF Reg.CRS_STATUS.SWAP_PEND := State.getF_of_inner (State.inner_setOk _) swap.regs ok.regs rfl
    _ = s.getF Reg.CRS_STATUS.SWAP_PEND := (State.swapSets_only c.regs).1 _ (by decide)

/-- R81: a state with a swap validated at `n` ns. -/
def State.swapTaken (t : State) (n : Nat) : State :=
  { t.setFs [(Reg.CRS_STATUS.SWAP_PEND, 1), (Reg.CRS_SWAP.REQ, 1)] with swapAt := n }

theorem State.swapTaken_fields {t : State} (n : Nat) (w : SMap.rising t.regs = true) :
    (t.swapTaken n).getF Reg.CRS_STATUS.SWAP_PEND = 1 ∧ (t.swapTaken n).getF Reg.CRS_SWAP.REQ = 1 ∧
      t.fieldsKept (t.swapTaken n) [Reg.CRS_STATUS.SWAP_PEND, Reg.CRS_SWAP.REQ] := by
  have fields := State.getF_setFs_mem t [(Reg.CRS_STATUS.SWAP_PEND, 1), (Reg.CRS_SWAP.REQ, 1)] w (by decide)
  have only := (State.setFs_only t [(Reg.CRS_STATUS.SWAP_PEND, 1), (Reg.CRS_SWAP.REQ, 1)] w).1
  exact ⟨fields (Reg.CRS_STATUS.SWAP_PEND, 1) (by simp), fields (Reg.CRS_SWAP.REQ, 1) (by simp), only⟩

theorem writeSwap_pending {s : State} (v : Nat) (h : s.getF Reg.CRS_STATUS.SWAP_PEND ≠ 0) : writeSwap v s = s :=
  if_pos (by rw [State.on_eq_true h, Bool.or_true])

theorem writeSwap_asked {s : State} {v : Nat} (one : v.testBit 0 = true) (free : s.getF Reg.CRS_STATUS.SWAP_PEND = 0) :
    writeSwap v s = if s.swapSets.setOk.1 = true then (s.swapSets.setOk.2.keepActive s).swapTaken s.now
      else (s.swapSets.setOk.2.keepActive s).setF Reg.CRS_STATUS.SWAP_ERR 1 :=
  if_neg (by rw [one, State.on_eq_false free]; decide)

/-- Settles O10: the check reads the shadow set as the active one, and the active fields are then put back. -/
theorem swapRequestIsValidated : Obligations.SwapRequestIsValidated := by
  intro s v up c one
  have run : exec (.crsSwapReq v) s = .next (writeSwap v.toNat s) := onHub_gated 0x10040 _ s up
  obtain ⟨canon, pend, active⟩ := s.swapCheck_kept c
  refine ⟨fun pending => by rw [run, writeSwap_pending _ pending], fun free => ⟨_, run, ?_⟩⟩
  rw [writeSwap_asked one free]
  generalize s.swapSets.setOk.2.keepActive s = t at canon pend active ⊢
  have same {u : State} {fs : List Fld} (only : t.fieldsKept u fs) (apart : ∀ f ∈ activeFields, ∀ g ∈ fs, f.key ≠ g.key) :
      ∀ f ∈ activeFields, u.getF f % 2 ^ f.w = s.getF f % 2 ^ f.w := fun f hf => by
    rw [only f (apart f hf), active f hf, Nat.mod_mod]
  by_cases valid : s.swapSets.setOk.1 = true
  · rw [if_pos valid, if_pos valid]
    obtain ⟨swapPend, req, only⟩ := State.swapTaken_fields s.now canon.regs
    exact ⟨⟨swapPend, req, rfl⟩, same only (by decide)⟩
  · rw [if_neg valid, if_neg valid]
    have only := State.setF_only t Reg.CRS_STATUS.SWAP_ERR 1 canon.regs
    exact ⟨⟨State.getF_setF _ _ _ canon.regs, (only.1 _ (by decide)).trans (pend.trans free)⟩, same only.1 (by decide)⟩

/-! ### Waiting courses withdrawn (R76) -/

@[simp] theorem State.inner_withdraw (s : State) : s.withdraw.inner =
    { s.inner with waiting := [], prev := if s.waiting.isEmpty then s.prev else s.prev.map PrevCourse.ended } := by
  unfold State.withdraw
  split_ifs with none
  · rw [show s.inner = { s.inner with waiting := s.inner.waiting, prev := s.inner.prev } from rfl,
      show s.inner.waiting = [] from List.isEmpty_iff.1 none]
    rfl
  · exact State.inner_each _ _ _ fun s a => s.inner_finish a.req 0x48

theorem State.withdraw_waiting (s : State) : s.withdraw.waiting = [] := (congrArg State.waiting s.inner_withdraw :)
theorem State.withdraw_course (s : State) : s.withdraw.course = s.course := (congrArg State.course s.inner_withdraw :)

theorem State.withdraw_canon {s : State} (c : s.Canon) : s.withdraw.Canon := (State.withdraw_kept s ⟨c, rfl, rfl⟩).canon

theorem State.getF_withdraw {s : State} (c : s.Canon) {f : Fld} (hf : courseKey f.key = true) : s.withdraw.getF f = s.getF f :=
  State.getF_of_regsOn (congrArg State.regs s.inner_withdraw) c.regs (State.withdraw_canon c).regs hf

/-! ### Holdover (R52) -/

/-- R52, R53: the beat as it stands when holdover begins or the beat is lost. -/
def Beat.adrift (b : Beat) : Beat := { b with edges := [], missed := 0, holdBeats := 0, pulling := false }

theorem State.enterHoldover_eq {s : State} (c : s.Canon) (h : s.getF Reg.CRS_HOLDMAX.HOLD_BEATS ≠ 0) :
    s.enterHoldover = { s.setF Reg.CRS_STATUS.HOLDOVER 1 with beat := s.beat.adrift } :=
  if_neg fun zero => h ((State.getF_setF_other s _ Reg.CRS_STATUS.HOLDOVER 1 c.regs (by decide)).symm.trans zero)

/-- R78: a change of source touches HOLDOVER and the beat alone; while the module is locked, holdover it is. -/
theorem State.changeSource_only {s : State} (c : s.Canon) (h : s.getF Reg.CRS_HOLDMAX.HOLD_BEATS ≠ 0) :
    s.onlyFields { s.changeSource with beat := s.beat } [Reg.CRS_STATUS.HOLDOVER] ∧
      (s.getF Reg.CRS_STATUS.LOCKED ≠ 0 → s.changeSource.getF Reg.CRS_STATUS.HOLDOVER ≠ 0) := by
  unfold State.changeSource
  split_ifs with steady
  · rw [State.enterHoldover_eq c h]
    refine ⟨State.setF_only s _ 1 c.regs, fun _ => ?_⟩
    rw [show ({ s.setF Reg.CRS_STATUS.HOLDOVER 1 with beat := s.beat.adrift } : State).getF Reg.CRS_STATUS.HOLDOVER = 1 from
      State.getF_setF s _ 1 c.regs]
    decide
  · refine ⟨State.onlyFields_refl s _, fun locked zero => steady ?_⟩
    rw [State.on_eq_true locked, show s.on Reg.CRS_STATUS.HOLDOVER = false from State.on_eq_false zero]
    rfl

/-! ### CRS_CTRL (R78) -/

theorem bitsOf_div (v lo w : Nat) : bitsOf v lo w = v / 2 ^ lo % 2 ^ w := by rw [bitsOf, Nat.shiftRight_eq_div_pow]

/-- R78, R86: the fields of CRS_CTRL as a write of `v` leaves them, before a change of source takes effect. -/
def State.ctrlStored (s : State) (v : Nat) : State :=
  (if s.on Reg.CRS_CTRL.ENABLE then s else s.setF Reg.CRS_CTRL.TIMED_RING (bitsOf v 16 10)).setFs
    [(Reg.CRS_CTRL.ENABLE, bitsOf v 0 1), (Reg.CRS_CTRL.BEAT_SRC, bitsOf v 1 2), (Reg.CRS_CTRL.BEAT_PORT, bitsOf v 3 5)]

/-- R76, R78: … and the waiting courses withdrawn when ENABLE falls. -/
def State.ctrlWithdrawn (s : State) (v : Nat) : State :=
  if s.on Reg.CRS_CTRL.ENABLE && !v.testBit 0 then (s.ctrlStored v).withdraw else s.ctrlStored v

/-- R78: a write to CRS_CTRL changes the source, or leaves it as it is. -/
theorem writeCrsCtrl_cases (v : Nat) (s : State) : writeCrsCtrl v s = (s.ctrlWithdrawn v).changeSource ∨
    (writeCrsCtrl v s = s.ctrlWithdrawn v ∧ bitsOf v 1 2 = s.getF Reg.CRS_CTRL.BEAT_SRC) := by
  have eq : writeCrsCtrl v s =
      if bitsOf v 1 2 ≠ s.getF Reg.CRS_CTRL.BEAT_SRC ∨ (s.getF Reg.CRS_CTRL.BEAT_SRC = 1 ∧ bitsOf v 3 5 ≠ s.getF Reg.CRS_CTRL.BEAT_PORT) then
        (s.ctrlWithdrawn v).changeSource else s.ctrlWithdrawn v := rfl
  rw [eq]
  split_ifs with changed
  · exact .inl rfl
  · exact .inr ⟨rfl, by_contra fun other => changed (.inl other)⟩

/-- What `ctrlStored` leaves: the four fields of CRS_CTRL, and nothing else changed. -/
theorem State.ctrlStored_fields {s : State} (c : s.Canon) (v : Nat) :
    (s.ctrlStored v).Canon ∧
      s.onlyFields (s.ctrlStored v) [Reg.CRS_CTRL.TIMED_RING, Reg.CRS_CTRL.ENABLE, Reg.CRS_CTRL.BEAT_SRC, Reg.CRS_CTRL.BEAT_PORT] ∧
      (s.ctrlStored v).getF Reg.CRS_CTRL.ENABLE = v % 2 ∧ (s.ctrlStored v).getF Reg.CRS_CTRL.BEAT_SRC = v / 2 % 4 ∧
      (s.ctrlStored v).getF Reg.CRS_CTRL.BEAT_PORT = v / 8 % 32 ∧
      (s.ctrlStored v).getF Reg.CRS_CTRL.TIMED_RING =
        if s.getF Reg.CRS_CTRL.ENABLE = 0 then v / 65536 % 1024 else s.getF Reg.CRS_CTRL.TIMED_RING := by
  have first : (if s.on Reg.CRS_CTRL.ENABLE then s else s.setF Reg.CRS_CTRL.TIMED_RING (bitsOf v 16 10)).Canon ∧
      s.onlyFields (if s.on Reg.CRS_CTRL.ENABLE then s else s.setF Reg.CRS_CTRL.TIMED_RING (bitsOf v 16 10)) [Reg.CRS_CTRL.TIMED_RING] ∧
      (if s.on Reg.CRS_CTRL.ENABLE then s else s.setF Reg.CRS_CTRL.TIMED_RING (bitsOf v 16 10)).getF Reg.CRS_CTRL.TIMED_RING =
        if s.getF Reg.CRS_CTRL.ENABLE = 0 then v / 65536 % 1024 else s.getF Reg.CRS_CTRL.TIMED_RING := by
    by_cases was : s.getF Reg.CRS_CTRL.ENABLE = 0
    · rw [State.on_eq_false was, if_pos was]
      exact ⟨State.setF_canon _ _ c, State.setF_only s _ _ c.regs,
        (State.getF_setF s _ _ c.regs).trans ((bitsOf_mod v 16 10).trans (bitsOf_div v 16 10))⟩
    · rw [State.on_eq_true was, if_neg was]
      exact ⟨c, State.onlyFields_refl s _, rfl⟩
  unfold State.ctrlStored
  generalize (if s.on Reg.CRS_CTRL.ENABLE then s else s.setF Reg.CRS_CTRL.TIMED_RING (bitsOf v 16 10)) = u at first ⊢
  obtain ⟨cu, only, ring⟩ := first
  have stored := State.setFs_only u
    [(Reg.CRS_CTRL.ENABLE, bitsOf v 0 1), (Reg.CRS_CTRL.BEAT_SRC, bitsOf v 1 2), (Reg.CRS_CTRL.BEAT_PORT, bitsOf v 3 5)] cu.regs
  have fields := State.getF_setFs_mem u
    [(Reg.CRS_CTRL.ENABLE, bitsOf v 0 1), (Reg.CRS_CTRL.BEAT_SRC, bitsOf v 1 2), (Reg.CRS_CTRL.BEAT_PORT, bitsOf v 3 5)] cu.regs (by simp)
  have read (f : Fld) (lo : Nat) (hf : (f, bitsOf v lo f.w) ∈
      [(Reg.CRS_CTRL.ENABLE, bitsOf v 0 1), (Reg.CRS_CTRL.BEAT_SRC, bitsOf v 1 2), (Reg.CRS_CTRL.BEAT_PORT, bitsOf v 3 5)]) :
      (u.setFs [(Reg.CRS_CTRL.ENABLE, bitsOf v 0 1), (Reg.CRS_CTRL.BEAT_SRC, bitsOf v 1 2), (Reg.CRS_CTRL.BEAT_PORT, bitsOf v 3 5)]).getF f =
        v / 2 ^ lo % 2 ^ f.w := (fields _ hf).trans ((bitsOf_mod v lo f.w).trans (bitsOf_div v lo f.w))
  refine ⟨(State.setFs_kept u _ ⟨cu, rfl, rfl⟩).canon, State.onlyFields_trans only stored, ?_, read _ 1 (by simp), read _ 3 (by simp),
    (stored.1 _ (by simp)).trans ring⟩
  simpa using read Reg.CRS_CTRL.ENABLE 0 (by simp)

/-- Settles O13: the fields are stored, the waiting courses withdrawn when ENABLE falls, and a new source begins holdover. -/
theorem timedControl : Obligations.TimedControl := by
  intro s v up c beats i hi
  have run : exec i s = .next (writeCrsCtrl v.toNat s) := by
    simp only [List.mem_cons, List.not_mem_nil, or_false] at hi
    rcases hi with rfl | rfl | rfl <;> exact onHub_gated 0x10000 _ s up
  refine ⟨_, run, ?_⟩
  obtain ⟨cu, only, en, src, port, ring⟩ := State.ctrlStored_fields c v.toNat
  have course : (s.ctrlStored v.toNat).course = s.course := (congrArg State.course only.2 :)
  have waiting : (s.ctrlStored v.toNat).waiting = s.waiting := (congrArg State.waiting only.2 :)
  have withdrawn : (s.ctrlWithdrawn v.toNat).Canon ∧ (s.ctrlWithdrawn v.toNat).course = s.course ∧
      (s.ctrlWithdrawn v.toNat).waiting = (if s.getF Reg.CRS_CTRL.ENABLE ≠ 0 ∧ v.toNat % 2 = 0 then [] else s.waiting) ∧
      ∀ f : Fld, courseKey f.key = true → (s.ctrlWithdrawn v.toNat).getF f = (s.ctrlStored v.toNat).getF f := by
    unfold State.ctrlWithdrawn
    have falls : (s.on Reg.CRS_CTRL.ENABLE && !v.toNat.testBit 0) = true ↔ s.getF Reg.CRS_CTRL.ENABLE ≠ 0 ∧ v.toNat % 2 = 0 := by
      simp [State.on]
    by_cases down : s.getF Reg.CRS_CTRL.ENABLE ≠ 0 ∧ v.toNat % 2 = 0
    · rw [if_pos (falls.2 down), if_pos down]
      exact ⟨State.withdraw_canon cu, (State.withdraw_course _).trans course, State.withdraw_waiting _, fun f hf => State.getF_withdraw cu hf⟩
    · rw [if_neg (mt falls.1 down), if_neg down]
      exact ⟨cu, course, waiting, fun f _ => rfl⟩
  obtain ⟨cw, course, waiting, kept⟩ := withdrawn
  have locked : (s.ctrlWithdrawn v.toNat).getF Reg.CRS_STATUS.LOCKED = s.getF Reg.CRS_STATUS.LOCKED :=
    (kept _ rfl).trans (only.1 _ (by decide))
  have beats : (s.ctrlWithdrawn v.toNat).getF Reg.CRS_HOLDMAX.HOLD_BEATS ≠ 0 := by
    rw [kept _ rfl, only.1 _ (by decide)]
    exact beats
  rw [← kept _ rfl] at en src port ring
  rcases writeCrsCtrl_cases v.toNat s with changes | ⟨stays, same⟩
  · rw [changes]
    obtain ⟨⟨fields, rest⟩, holds⟩ := State.changeSource_only cw beats
    have sameCourse : (s.ctrlWithdrawn v.toNat).changeSource.course = (s.ctrlWithdrawn v.toNat).course := (congrArg State.course rest :)
    have sameWaiting : (s.ctrlWithdrawn v.toNat).changeSource.waiting = (s.ctrlWithdrawn v.toNat).waiting := (congrArg State.waiting rest :)
    exact ⟨(fields _ (by decide)).trans en, (fields _ (by decide)).trans src, (fields _ (by decide)).trans port,
      (fields _ (by decide)).trans ring, sameCourse.trans course, sameWaiting.trans waiting, (fields _ (by decide)).trans locked,
      fun isLocked _ => holds (by rwa [locked])⟩
  · rw [stays]
    exact ⟨en, src, port, ring, course, waiting, locked, fun _ other => absurd (same.symm.trans (bitsOf_div _ 1 2)) other⟩

end Sys2Proof.Machine
end

section
/-! SUPPORT. How a course fails (R74, R76, R298), and what else of the state its failure leaves alone. -/

namespace Sys2Proof.Machine

/-! ### Registers of the course block that stay -/

/-- Every field of the beat and of the courses, and of FLT_STATUS, FLT_LINES and FLT_FATAL, that `fs` does not name reads in `t` as in `s`. -/
def State.courseKept (s t : State) (fs : List Fld) : Prop :=
  ∀ f : Fld, courseKey f.key = true → (∀ g ∈ fs, f.key ≠ g.key) → t.getF f = s.getF f

theorem State.courseKept_of_inner {s t : State} {fs : List Fld} (cs : s.Canon) (ct : t.Canon) (h : t.inner = s.inner) : s.courseKept t fs :=
  fun _ hf _ => State.getF_of_inner h cs.regs ct.regs hf

theorem State.courseKept_of_fields {s t : State} {fs : List Fld} (h : s.fieldsKept t fs) : s.courseKept t fs := fun f _ => h f

theorem State.courseKept_mono {s t : State} {fs gs : List Fld} (h : s.courseKept t fs) (sub : ∀ f ∈ fs, f ∈ gs) : s.courseKept t gs :=
  fun f hf hg => h f hf fun g hgs => hg g (sub g hgs)

theorem State.courseKept_trans {s t u : State} {fs gs : List Fld} (h : s.courseKept t fs) (k : t.courseKept u gs) :
    s.courseKept u (fs ++ gs) := fun f hf hg =>
  (k f hf fun g hgs => hg g (List.mem_append_right _ hgs)).trans (h f hf fun g hfs => hg g (List.mem_append_left _ hfs))

/-! ### The hold (R76) and the rollback (R298) -/

theorem State.hold_canon {s : State} (c : s.Canon) : s.hold.Canon := (State.hold_kept s ⟨c, rfl, rfl⟩).canon

theorem State.hold_inner (s : State) : ∃ (regs : SMap Nat) (prev : Option PrevCourse),
    s.hold.inner = { s.inner with regs := regs, waiting := [], prev := prev } := ⟨_, _, State.inner_withdraw _⟩

theorem State.hold_fields {s : State} (c : s.Canon) : s.hold.getF Reg.CRS_STATUS.HELD = 1 ∧ s.courseKept s.hold [Reg.CRS_STATUS.HELD] := by
  have canon : (s.setF Reg.CRS_STATUS.HELD 1).Canon := State.setF_canon _ _ c
  exact ⟨(State.getF_withdraw canon rfl).trans (State.getF_setF _ _ _ c.regs),
    fun f hf other => (State.getF_withdraw canon hf).trans (State.getF_setF_other _ _ _ _ c.regs (other _ List.mem_cons_self))⟩

/-- R303: the fields that the rollout cache reports. -/
def kvFields : List Fld :=
  [Reg.CRS_KV_STAT.CONF, Reg.CRS_KV_STAT.LIVE, Reg.CRS_KV_STAT.WALKERS, Reg.CRS_KV_VER.VER, Reg.CRS_KV_PAGES.FREE, Reg.CRS_KV_PAGES.PENDING]

theorem State.kvReport_only {s : State} (c : s.Canon) : s.onlyFields s.kvReport kvFields := State.setFs_only s _ c.regs

/-- R298: the map entries are written back, and ROLLBACK set. -/
def State.kvRestored (s : State) : State :=
  if s.kvLog = 0 then s.each s.kvUndoMem fun s x => s.writeHbm x.1 x.2
  else (s.each s.kvUndoMem fun s x => s.writeHbm x.1 x.2).setF Reg.CRS_KV_STAT.ROLLBACK 1

theorem State.kvRollback_eq (s : State) :
    s.kvRollback = ({ s.kvRestored with kv := s.kvUndo, kvUndoMem := [], kvLog := 0 } : State).kvReport := rfl

/-- The course in progress, its rafters, the waiting courses, and the vote of the step. -/
def State.courseParts (s : State) : Option Course × SMap Raft × List Adm × Bool := (s.course, s.rafts, s.waiting, s.stepVote)

theorem State.waiting_of_inner {s t : State} (h : t.inner = s.inner) : t.waiting = s.waiting := (congrArg State.waiting h :)

theorem State.kvUndo_of_inner {s t : State} (h : t.inner = s.inner) : t.kvUndo = s.kvUndo := (congrArg State.kvUndo h :)

theorem State.setF_parts (s : State) (f : Fld) (v : Nat) : (s.setF f v).courseParts = s.courseParts := rfl

theorem State.setFs_parts (s : State) (xs : List (Fld × Nat)) : (s.setFs xs).courseParts = s.courseParts := by
  rw [State.setFs_eq]
  rfl

theorem State.courseParts_of_inner {s t : State} (h : t.inner = s.inner) : t.courseParts = s.courseParts :=
  (congrArg State.courseParts h :)

theorem State.kvRestored_parts (s : State) : s.kvRestored.courseParts = s.courseParts := by
  have written := s.inner_each s.kvUndoMem (fun s x => s.writeHbm x.1 x.2) fun s x => s.inner_writeHbm x.1 x.2
  unfold State.kvRestored
  split
  · exact State.courseParts_of_inner written
  · exact (State.setF_parts _ _ _).trans (State.courseParts_of_inner written)

theorem State.kvReport_parts (s : State) : s.kvReport.courseParts = s.courseParts ∧ s.kvReport.kv = s.kv := ⟨rfl, rfl⟩

theorem State.kvRollback_parts (s : State) : s.kvRollback.courseParts = s.courseParts ∧ s.kvRollback.kv = s.kvUndo := by
  rw [State.kvRollback_eq, (State.kvReport_parts _).1, (State.kvReport_parts _).2]
  exact ⟨s.kvRestored_parts, rfl⟩

theorem State.kvRestored_kept {s : State} (c : s.Canon) : s.kvRestored.Canon ∧ s.courseKept s.kvRestored [Reg.CRS_KV_STAT.ROLLBACK] := by
  have canon := (State.each_kept s s.kvUndoMem (fun s x => s.writeHbm x.1 x.2) ⟨c, rfl, rfl⟩ fun s x k => State.writeHbm_kept s x.1 x.2 k).canon
  have written := s.inner_each s.kvUndoMem (fun s x => s.writeHbm x.1 x.2) fun s x => s.inner_writeHbm x.1 x.2
  unfold State.kvRestored
  split
  · exact ⟨canon, State.courseKept_of_inner c canon written⟩
  · exact ⟨State.setF_canon _ _ canon,
      State.courseKept_trans (fs := []) (State.courseKept_of_inner c canon written)
        (State.courseKept_of_fields (State.setF_only _ _ 1 canon.regs).1)⟩

theorem State.kvRollback_fields {s : State} (c : s.Canon) : s.courseKept s.kvRollback (Reg.CRS_KV_STAT.ROLLBACK :: kvFields) := by
  obtain ⟨canon, kept⟩ := State.kvRestored_kept c
  have canon' : ({ s.kvRestored with kv := s.kvUndo, kvUndoMem := [], kvLog := 0 } : State).Canon :=
    ⟨canon.hbm, canon.loft, canon.rstore, canon.acc, canon.regs⟩
  exact State.courseKept_trans kept (State.courseKept_of_fields (State.kvReport_only canon').1)

theorem State.hold_parts (s : State) : s.hold.courseParts = (s.course, s.rafts, [], s.stepVote) ∧ s.hold.kvUndo = s.kvUndo := by
  obtain ⟨regs, prev, held⟩ := s.hold_inner
  exact ⟨(congrArg State.courseParts held :), (congrArg State.kvUndo held :)⟩

/-- R74, R76, R298: a hold and a rollback together. -/
theorem State.holdRollback {s : State} (c : s.Canon) :
    s.hold.kvRollback.Canon ∧ s.hold.kvRollback.courseParts = (s.course, s.rafts, [], s.stepVote) ∧ s.hold.kvRollback.kv = s.kvUndo ∧
      s.hold.kvRollback.getF Reg.CRS_STATUS.HELD = 1 ∧
      s.courseKept s.hold.kvRollback (Reg.CRS_STATUS.HELD :: Reg.CRS_KV_STAT.ROLLBACK :: kvFields) := by
  have canon := State.hold_canon c
  obtain ⟨parts, undo⟩ := s.hold_parts
  obtain ⟨rolledParts, kv⟩ := s.hold.kvRollback_parts
  obtain ⟨held, kept⟩ := State.hold_fields c
  have rolled := State.kvRollback_fields canon
  exact ⟨(State.kvRollback_kept _ ⟨canon, rfl, rfl⟩).canon, rolledParts.trans parts, kv.trans undo, (rolled _ rfl (by decide)).trans held,
    State.courseKept_trans kept rolled⟩

/-! ### Failing (R74) -/

/-- R74: the course in progress no longer runs, nor does any rafter of it. -/
def State.stopRafters (s : State) (c : Course) : State :=
  { s with
    course := some { c with failed := true, working := false, running := [] }
    rafts := [], saves := [], heldSaves := [], poolHeld := 0, stepVote := false, stepNonfin := false, amax := [], watch := [], peerWait := []
    prev := some ⟨c.img.stepLast, true⟩ }

theorem State.stopRafters_parts (s : State) (c : Course) :
    (s.stopRafters c).courseParts = (some { c with failed := true, working := false, running := [] }, [], s.waiting, false) ∧
      (s.stopRafters c).kvUndo = s.kvUndo ∧ (s.stopRafters c).regs = s.regs := ⟨rfl, rfl, rfl⟩

theorem State.stopRafters_canon {s : State} (c : Course) (h : s.Canon) : (s.stopRafters c).Canon := ⟨h.hbm, h.loft, h.rstore, h.acc, h.regs⟩

/-- R74, R378, R458: the placement log written and FAIL notices sent. -/
def State.failTold (s : State) (c : Course) (code : Nat) : State := (s.writeHbm s.logSlot (placementLog c s.saves code)).sendFail c.counter

/-- R74, R75: the course stopped, and CRS_LAST set. -/
def State.showStopped (s : State) (c : Course) (code : Nat) : State :=
  ((s.stopRafters c).setF Reg.CRS_STATUS.IDLE 1).setLast code c.counter false false

/-- R249, R113: the seed back as it was, and the completion record posted. -/
def State.reportStopped (s : State) (c : Course) (code : Nat) : State :=
  (s.setSeed s.seedBefore.toNat).complete c.req code (courseDetail c.counter false false)

theorem State.failCourse_eq {s : State} {c : Course} (code : Nat) (running : s.course = some c) (alive : c.failed = false) :
    s.failCourse code = (((s.failTold c code).showStopped c code).reportStopped c code).hold.kvRollback := by
  rw [State.failCourse, running, State.reportStopped, State.showStopped, State.failTold, State.stopRafters]
  exact if_neg (by rw [alive]; decide)

theorem State.failCourse_none {s : State} (code : Nat) (h : s.course = none) : s.failCourse code = s := by rw [State.failCourse, h]

theorem State.failCourse_failed {s : State} {c : Course} (code : Nat) (running : s.course = some c) (failed : c.failed = true) :
    s.failCourse code = s := by
  rw [State.failCourse, running]
  exact if_pos failed

theorem State.setLast_fields {s : State} (c : s.Canon) (status counter : Nat) (committed suppressed : Bool) :
    (s.setLast status counter committed suppressed).getF Reg.CRS_LAST.STATUS = status % 2 ^ 8 ∧
      (s.setLast status counter committed suppressed).getF Reg.CRS_LAST.COMMITTED = bit committed % 2 ^ 1 ∧
      (s.setLast status counter committed suppressed).getF Reg.CRS_LAST.SUPPRESSED = bit suppressed % 2 ^ 1 ∧
      (s.setLast status counter committed suppressed).getF Reg.CRS_LAST.COURSE = counter % 2 ^ 48 ∧
      s.onlyFields (s.setLast status counter committed suppressed)
        [Reg.CRS_LAST.STATUS, Reg.CRS_LAST.COMMITTED, Reg.CRS_LAST.SUPPRESSED, Reg.CRS_LAST.COURSE] := by
  have fields := State.getF_setFs_mem s [(Reg.CRS_LAST.STATUS, status), (Reg.CRS_LAST.COMMITTED, bit committed),
    (Reg.CRS_LAST.SUPPRESSED, bit suppressed), (Reg.CRS_LAST.COURSE, counter)] c.regs (by simp +arith)
  exact ⟨fields _ (.head _), fields _ (.tail _ (.head _)), fields _ (.tail _ (.tail _ (.head _))), fields _ (.tail _ (.tail _ (.tail _ (.head _)))),
    State.setFs_only s _ c.regs⟩

/-- R74, R75: the fields that tell of a course's failure. -/
def failedFields : List Fld :=
  [Reg.CRS_STATUS.IDLE, Reg.CRS_LAST.STATUS, Reg.CRS_LAST.COMMITTED, Reg.CRS_LAST.SUPPRESSED, Reg.CRS_LAST.COURSE, Reg.CRS_STATUS.HELD,
    Reg.CRS_KV_STAT.ROLLBACK] ++ kvFields

/-- R74, R75: what `t` shows of the failure of course `c` in `s`, with status `code`. -/
structure State.FailedWith (s t : State) (c : Course) (code : Nat) : Prop where
  canon : t.Canon
  parts : t.courseParts = (some { c with failed := true, working := false, running := [] }, [], [], false)
  kv : t.kv = s.kvUndo
  held : t.getF Reg.CRS_STATUS.HELD = 1
  idle : t.getF Reg.CRS_STATUS.IDLE = 1
  status : t.getF Reg.CRS_LAST.STATUS = code % 2 ^ 8
  committed : t.getF Reg.CRS_LAST.COMMITTED = 0
  suppressed : t.getF Reg.CRS_LAST.SUPPRESSED = 0
  counter : t.getF Reg.CRS_LAST.COURSE = c.counter % 2 ^ 48
  kept : s.courseKept t failedFields

theorem State.failTold_kept {s : State} (h : s.Canon) (c : Course) (code : Nat) :
    (s.failTold c code).Canon ∧ s.courseKept (s.failTold c code) [] ∧ (s.failTold c code).waiting = s.waiting ∧
      (s.failTold c code).kvUndo = s.kvUndo := by
  have told : (s.failTold c code).inner = s.inner := by simp [State.failTold]
  have canon : (s.failTold c code).Canon := (State.sendFail_kept _ _ (State.writeHbm_kept s _ _ ⟨h, rfl, rfl⟩)).canon
  exact ⟨canon, State.courseKept_of_inner h canon told, State.waiting_of_inner told, State.kvUndo_of_inner told⟩

theorem State.showStopped_parts (s : State) (c : Course) (code : Nat) :
    (s.showStopped c code).courseParts = (some { c with failed := true, working := false, running := [] }, [], s.waiting, false) ∧
      (s.showStopped c code).kvUndo = s.kvUndo := by
  obtain ⟨parts, undo, -⟩ := s.stopRafters_parts c
  rw [State.showStopped, ← parts, ← undo]
  exact ⟨State.setFs_parts _ _, rfl⟩

theorem State.showStopped_fields {s : State} (h : s.Canon) (c : Course) (code : Nat) :
    (s.showStopped c code).Canon ∧ (s.showStopped c code).getF Reg.CRS_STATUS.IDLE = 1 ∧
      (s.showStopped c code).getF Reg.CRS_LAST.STATUS = code % 2 ^ 8 ∧ (s.showStopped c code).getF Reg.CRS_LAST.COMMITTED = 0 ∧
      (s.showStopped c code).getF Reg.CRS_LAST.SUPPRESSED = 0 ∧ (s.showStopped c code).getF Reg.CRS_LAST.COURSE = c.counter % 2 ^ 48 ∧
      s.courseKept (s.showStopped c code)
        [Reg.CRS_STATUS.IDLE, Reg.CRS_LAST.STATUS, Reg.CRS_LAST.COMMITTED, Reg.CRS_LAST.SUPPRESSED, Reg.CRS_LAST.COURSE] := by
  have canon := State.stopRafters_canon c h
  have same : s.courseKept (s.stopRafters c) [] := fun _ _ _ => rfl
  rw [State.showStopped]
  generalize s.stopRafters c = w at canon same ⊢
  have idleCanon : (w.setF Reg.CRS_STATUS.IDLE 1).Canon := State.setF_canon _ _ canon
  obtain ⟨status, committed, suppressed, counter, only⟩ := State.setLast_fields idleCanon code c.counter false false
  have onlyIdle := State.setF_only w Reg.CRS_STATUS.IDLE 1 canon.regs
  have kept := State.courseKept_trans same (State.courseKept_trans (State.courseKept_of_fields onlyIdle.1) (State.courseKept_of_fields only.1))
  exact ⟨(State.setLast_kept _ _ _ _ _ ⟨idleCanon, rfl, rfl⟩).canon, (only.1 _ (by decide)).trans (State.getF_setF w _ 1 canon.regs), status,
    committed, suppressed, counter, kept⟩

theorem State.reportStopped_kept {s : State} (h : s.Canon) (c : Course) (code : Nat) :
    (s.reportStopped c code).Canon ∧ s.courseKept (s.reportStopped c code) [] ∧ (s.reportStopped c code).courseParts = s.courseParts ∧
      (s.reportStopped c code).kvUndo = s.kvUndo := by
  have reported : (s.reportStopped c code).inner = s.inner := (State.inner_complete _ _ _ _).trans (State.inner_setSeed _ _)
  have canon : (s.reportStopped c code).Canon := (State.complete_kept _ _ _ _ (State.setSeed_kept _ _ ⟨h, rfl, rfl⟩)).canon
  exact ⟨canon, State.courseKept_of_inner h canon reported, State.courseParts_of_inner reported, State.kvUndo_of_inner reported⟩

theorem State.failCourse_fields {s : State} (h : s.Canon) {c : Course} (code : Nat) (running : s.course = some c) (alive : c.failed = false) :
    s.FailedWith (s.failCourse code) c code := by
  obtain ⟨toldCanon, toldKept, toldWaiting, toldUndo⟩ := State.failTold_kept h c code
  rw [State.failCourse_eq code running alive]
  generalize s.failTold c code = told at toldCanon toldKept toldWaiting toldUndo ⊢
  obtain ⟨canon, idle, status, committed, suppressed, counter, kept⟩ := State.showStopped_fields toldCanon c code
  obtain ⟨parts, undo⟩ := told.showStopped_parts c code
  rw [toldWaiting] at parts
  generalize told.showStopped c code = shown at canon idle status committed suppressed counter kept parts undo ⊢
  obtain ⟨reportCanon, reportKept, reportParts, reportUndo⟩ := State.reportStopped_kept canon c code
  generalize shown.reportStopped c code = u at reportCanon reportKept reportParts reportUndo ⊢
  obtain ⟨uCourse, uRafts, -, uVote⟩ : u.course = _ ∧ u.rafts = _ ∧ u.waiting = _ ∧ u.stepVote = _ := by
    simpa only [State.courseParts, Prod.mk.injEq] using reportParts.trans parts
  obtain ⟨rolledCanon, rolledParts, kv, held, rolledKept⟩ := State.holdRollback reportCanon
  rw [uCourse, uRafts, uVote] at rolledParts
  have after := State.courseKept_trans reportKept rolledKept
  exact ⟨rolledCanon, rolledParts, kv.trans (reportUndo.trans (undo.trans toldUndo)), held, (after _ rfl (by decide)).trans idle,
    (after _ rfl (by decide)).trans status, (after _ rfl (by decide)).trans committed, (after _ rfl (by decide)).trans suppressed,
    (after _ rfl (by decide)).trans counter,
    State.courseKept_mono (State.courseKept_trans toldKept (State.courseKept_trans kept after)) (by decide)⟩

/-- Settles O9: a write of 1 is a failure with 0x86. -/
theorem abortFailsTheCourse : Obligations.AbortFailsTheCourse := by
  intro s v up canon one
  have run : exec (.crsAbort v) s = .next (s.failCourse 0x86) := by
    rw [show exec (.crsAbort v) s = _ from onHub_gated 0x1004C (writeAbort v.toNat) s up, writeAbort, if_pos (show v.toNat.testBit 0 = true from one)]
  refine ⟨fun c running alive => ⟨_, run, ?_⟩, fun none => by rw [run, State.failCourse_none _ none],
    fun c running failed => by rw [run, State.failCourse_failed _ running failed]⟩
  have failed := State.failCourse_fields canon 0x86 running alive
  have parts := failed.parts
  simp only [State.courseParts, Prod.mk.injEq] at parts
  obtain ⟨course, rafts, waiting, vote⟩ := parts
  exact ⟨course, rafts, waiting, failed.kv, vote, failed.held, failed.idle, failed.status, failed.committed, failed.suppressed, failed.counter,
    failed.kept _ rfl (by decide)⟩

end Sys2Proof.Machine
end

section
/-! SUPPORT. Edges of the beat (R50, R52), and the loss of the beat (R53). -/

namespace Sys2Proof.Machine

/-! ### Edges while the module is locked (R50, R52) -/

theorem State.coreUp_ready {s : State} (h : s.coreUp) : s.ready = true := (coreUp_hubUp s h).2

/-- R50: locked and not in holdover, an edge is accepted when it is expected, and else changes nothing. -/
theorem State.beatEdge_locked {s : State} (ready : s.ready = true) (locked : s.getF Reg.CRS_STATUS.LOCKED ≠ 0)
    (steady : s.getF Reg.CRS_STATUS.HOLDOVER = 0) (t : Nat) (beat : Option Nat) :
    s.beatEdge t beat = if s.beat.expected t = true then { s with beat := { s.beat with lastEdge := 7 * t, missed := 0 } } else s := by
  rw [State.beatEdge, ready, State.on_eq_true locked, State.on_eq_false steady]
  rfl

/-- R50, R52: a missing edge is counted, and the third begins holdover. -/
theorem missingEdge_locked {s : State} (ready : s.ready = true) (locked : s.getF Reg.CRS_STATUS.LOCKED ≠ 0)
    (steady : s.getF Reg.CRS_STATUS.HOLDOVER = 0) :
    missingEdge s = if 2 ≤ s.beat.missed then s.enterHoldover
      else { s with beat := { s.beat with missed := s.beat.missed + 1, lastEdge := s.beat.lastEdge + s.beat.period7 } } := by
  rw [missingEdge, ready, State.on_eq_true locked, State.on_eq_false steady]
  rfl

theorem beatFlit_inForce {s : State} {p : Nat} (hp : p < 32) (src : s.getF Reg.CRS_CTRL.BEAT_SRC = 1)
    (port : s.getF Reg.CRS_CTRL.BEAT_PORT = p) (up : s.getF (Reg.LNK_STAT.UP p) ≠ 0) (n frac : Nat) :
    beatFlit p n frac s = s.beatEdge ((s.now - s.getF (Reg.LNK_LAT.ONEWAY_NS p)) * 1000 + frac % 1000) (some n) :=
  if_pos ⟨hp, src, port, State.on_eq_true up⟩

/-- Settles O14: by the branches of an edge and of a missing edge. -/
theorem beatEdgesWhileLocked : Obligations.BeatEdgesWhileLocked := by
  intro s up c locked steady
  have ready := State.coreUp_ready up
  have edge (frac : Nat) : exec (.beatEdge frac) s = .next (beatEdge frac s) := onCore_up _ s up
  have missing : exec .missingEdge s = .next (missingEdge s) := onCore_up _ s up
  rw [missingEdge_locked ready locked steady] at missing
  refine ⟨fun frac pin => ?_, fun frac other => ?_, fun p n frac hp src port portUp => ⟨_, rfl, ?_⟩, fun few => ?_, fun third beats => ?_⟩
  · rw [edge, beatEdge, if_pos pin, State.beatEdge_locked ready locked steady]
  · rw [edge, beatEdge, if_neg other]
  · rw [show exec (.beatFlit p n frac) s = .next (beatFlit p n frac s) from onCore_up _ s up, beatFlit_inForce hp src port portUp,
      State.beatEdge_locked ready locked steady]
  · rw [missing, if_neg (Nat.not_le.2 few)]
  · rw [if_pos third, State.enterHoldover_eq c beats] at missing
    exact ⟨_, missing, State.getF_setF s _ 1 c.regs, State.getF_setF_other s _ _ 1 c.regs (by decide), rfl, rfl, rfl⟩

/-! ### A line held (R510 to R515) and the course it fails (R73) -/

theorem State.courseKept_of_regs {s t : State} {fs : List Fld} (h : t.regs = s.regs) : s.courseKept t fs := fun f _ _ => by
  rw [State.getF, h, State.getF]

theorem State.courseKept_setF_out (s : State) {f : Fld} (v : Nat) (h : courseKey f.key = false) (w : SMap.rising s.regs = true) :
    s.courseKept (s.setF f v) [] := fun g hg _ =>
  State.getF_setF_other s g f v w fun same => by rw [same, h] at hg; cases hg

theorem State.getF_setBit_self {s : State} {f : Fld} {b : Nat} (w : SMap.rising s.regs = true) (fits : b < f.w) :
    ((s.setBit f b).getF f).testBit b = true := by
  rw [State.setBit, State.getF_setF s f _ w]
  simp [Nat.testBit_mod_two_pow, fits]

theorem State.setBit_canon {s : State} (f : Fld) (b : Nat) (c : s.Canon) : (s.setBit f b).Canon := State.setF_canon _ _ c

theorem State.faultIrq_same (s : State) (b : Nat) : (s.faultIrq b).regs = s.regs ∧ (s.faultIrq b).course = s.course := by
  unfold State.faultIrq
  split <;> exact ⟨rfl, rfl⟩

theorem State.openMerge_same (s : State) : s.openMerge.regs = s.regs ∧ s.openMerge.course = s.course := by
  unfold State.openMerge
  split <;> exact ⟨rfl, rfl⟩

theorem State.platformEvent_same (s : State) (b : Nat) : (s.platformEvent b).regs = s.regs ∧ (s.platformEvent b).course = s.course := by
  unfold State.platformEvent
  split <;> exact ⟨rfl, rfl⟩

/-- R511: a bit latched is set in FLT_STATUS, and no register of the courses is another. -/
theorem State.latchFault_fields {s : State} (c : s.Canon) {b : Nat} (fits : b < Reg.FLT_STATUS.STATUS.w) :
    s.courseKept (s.latchFault b) [Reg.FLT_STATUS.STATUS] ∧ (s.latchFault b).course = s.course ∧
      ((s.latchFault b).getF Reg.FLT_STATUS.STATUS).testBit b = true := by
  by_cases already : (s.getF Reg.FLT_STATUS.STATUS).testBit b = true
  · rw [State.latchFault, if_pos already]
    exact ⟨fun _ _ _ => rfl, rfl, already⟩
  · rw [State.latchFault, if_neg already]
    have set := State.setF_only s Reg.FLT_STATUS.STATUS (s.getF Reg.FLT_STATUS.STATUS ||| 1 <<< b) c.regs
    have bit : ((s.setBit Reg.FLT_STATUS.STATUS b).getF Reg.FLT_STATUS.STATUS).testBit b = true := State.getF_setBit_self c.regs fits
    have course : (s.setBit Reg.FLT_STATUS.STATUS b).course = s.course := rfl
    have kept : s.courseKept (s.setBit Reg.FLT_STATUS.STATUS b) [Reg.FLT_STATUS.STATUS] := State.courseKept_of_fields set.1
    generalize s.setBit Reg.FLT_STATUS.STATUS b = u at bit course kept ⊢
    have regs : ((u.faultIrq b).openMerge.platformEvent b).regs = u.regs :=
      (State.platformEvent_same _ b).1.trans ((State.openMerge_same _).1.trans (u.faultIrq_same b).1)
    refine ⟨State.courseKept_mono (State.courseKept_trans kept (State.courseKept_of_regs (fs := []) regs)) (by simp),
      (State.platformEvent_same _ b).2.trans ((State.openMerge_same _).2.trans ((u.faultIrq_same b).2.trans course)), ?_⟩
    rw [State.getF, regs]
    exact bit

theorem State.failCourse_keeps {s : State} (c : s.Canon) (code : Nat) : s.courseKept (s.failCourse code) failedFields := by
  cases running : s.course with
  | none =>
    rw [State.failCourse_none code running]
    exact fun _ _ _ => rfl
  | some c' =>
    cases alive : c'.failed with
    | true =>
      rw [State.failCourse_failed code running alive]
      exact fun _ _ _ => rfl
    | false => exact (State.failCourse_fields c code running alive).kept

@[simp] theorem State.inner_withdrawProg (s : State) (t : Fall) : (s.withdrawProg t).inner = s.inner := by
  dsimp only [State.withdrawProg]
  split
  · simp only [State.setFs_cons, State.setFs_nil]
    iterate 5 rw [State.inner_setF _ _ _ (by simp +arith [courseKey])]
  · rfl

/-- R73: a status amended is that of CRS_LAST. -/
theorem State.amendStatus_keeps {s : State} (h : s.Canon) (c : Course) (code : Nat) :
    s.courseKept (s.amendStatus c code) [Reg.CRS_LAST.STATUS] := by
  have set := State.courseKept_of_fields (State.setF_only s Reg.CRS_LAST.STATUS code h.regs).1
  have canon : (s.setF Reg.CRS_LAST.STATUS code).Canon := State.setF_canon _ _ h
  have written : (s.amendStatus c code).inner = (s.setF Reg.CRS_LAST.STATUS code).inner :=
    (State.inner_amendRecord _ _ _).trans (State.inner_writeHbm _ _ _)
  exact State.courseKept_trans set (State.courseKept_of_inner (fs := []) canon (State.amendStatus_kept s c code ⟨h, rfl, rfl⟩).canon written)

theorem State.courseKept_forget (s : State) : s.courseKept { s with fell := none } [] := fun _ _ _ => rfl

theorem State.failByFault_keeps {s : State} (h : s.Canon) (code : Nat) : s.courseKept (s.failByFault code) failedFields := by
  rw [State.failByFault]
  cases s.fellNow with
  | none => exact State.failCourse_keeps h code
  | some t =>
    cases s.course with
    | none => exact State.failCourse_keeps h code
    | some c =>
      have canon := (State.withdrawProg_kept s t ⟨h, rfl, rfl⟩).canon
      have kept := State.courseKept_trans (State.courseKept_of_inner (fs := []) h canon (s.inner_withdrawProg t))
        (State.amendStatus_keeps canon c code)
      exact State.courseKept_mono (State.courseKept_trans kept (State.courseKept_forget _)) (by decide)

theorem State.faultCourse_keeps {s : State} (h : s.Canon) (b : Nat) (fatal : Bool) : s.courseKept (s.faultCourse b fatal) failedFields := by
  unfold State.faultCourse
  split
  · exact fun _ _ _ => rfl
  · split
    · exact fun _ _ _ => rfl
    · exact State.failByFault_keeps h _

/-- R73: a course that has not failed fails with the status of the fault. -/
theorem State.faultCourse_alive {s : State} {c : Course} {b code : Nat} {fatal : Bool} (running : s.course = some c) (alive : c.failed = false)
    (status : faultStatus b fatal c.img.hostBytes = some code) : s.faultCourse b fatal = s.failCourse code := by
  have notFallen : s.fellNow = none := by simp [State.fellNow, running, alive]
  simp only [State.faultCourse, running, status, State.failByFault, notFallen]

theorem State.fatalReaction_keeps {s : State} (h : s.Canon) (b : Nat) : s.courseKept (s.fatalReaction b) [] := by
  have alive : s.courseKept (s.setF Reg.FLT_ALIVE.RUN 0) [] := State.courseKept_setF_out s 0 rfl h.regs
  have canon : (s.setF Reg.FLT_ALIVE.RUN 0).Canon := State.setF_canon _ _ h
  have after (f : Fld) (v : Nat) (out : courseKey f.key = false) : s.courseKept ((s.setF Reg.FLT_ALIVE.RUN 0).setF f v) [] :=
    State.courseKept_trans alive (State.courseKept_setF_out _ v out canon.regs)
  dsimp only [State.fatalReaction, State.stopAlive]
  split_ifs
  · exact after Reg.PPT_COOL.DUTY 100 rfl
  · exact after Reg.PPT_COOL.DUTY 100 rfl
  · exact after Reg.PPT_TARGET.TARGET_W 0 rfl

/-- R514: a rise is counted as merged, or latched. -/
def State.noteFault (s : State) (b : Nat) (merged : Bool) : State :=
  if merged then (s.bump Reg.FLT_MERGED.COUNT 1).setBit Reg.FLT_MERGED_SRC.SRC b else s.latchFault b

theorem State.noteFault_canon {s : State} (c : s.Canon) (b : Nat) (merged : Bool) : (s.noteFault b merged).Canon := by
  unfold State.noteFault
  split
  · exact State.setF_canon _ _ (State.setF_canon _ _ c)
  · exact (State.latchFault_kept s b ⟨c, rfl, rfl⟩).canon

theorem State.noteFault_fields {s : State} (c : s.Canon) {b : Nat} (fits : b < Reg.FLT_STATUS.STATUS.w) (merged : Bool) :
    s.courseKept (s.noteFault b merged) [Reg.FLT_STATUS.STATUS] ∧ (s.noteFault b merged).course = s.course ∧
      (merged = false → ((s.noteFault b merged).getF Reg.FLT_STATUS.STATUS).testBit b = true) := by
  cases merged with
  | false =>
    obtain ⟨kept, course, bit⟩ := State.latchFault_fields c fits
    exact ⟨kept, course, fun _ => bit⟩
  | true =>
    have counted : (s.bump Reg.FLT_MERGED.COUNT 1).Canon := State.setF_canon _ _ c
    exact ⟨State.courseKept_mono (State.courseKept_trans (State.courseKept_setF_out s _ rfl c.regs)
      (State.courseKept_setF_out _ _ rfl counted.regs)) (by simp), rfl, fun no => nomatch no⟩

/-- R514: a rise that a merge window takes in. -/
def State.mergedIn (s : State) (b : Nat) : Bool :=
  (match s.mergeAt with | some t => decide (t < s.now) | none => false) && !(s.getF Reg.FLT_FATAL.FATAL).testBit b

/-- R510, R514: the line held, and its rise counted or latched. -/
def State.lineHeld (s : State) (b : Nat) : State := (s.setBit Reg.FLT_LINES.LINES b).noteFault b (s.mergedIn b)

theorem State.holdLine_down {s : State} {b : Nat} (down : (s.getF Reg.FLT_LINES.LINES).testBit b = false) :
    s.holdLine b = if (s.getF Reg.FLT_FATAL.FATAL).testBit b = true
      then ((s.lineHeld b).faultCourse b ((s.getF Reg.FLT_FATAL.FATAL).testBit b)).fatalReaction b
      else (s.lineHeld b).faultCourse b ((s.getF Reg.FLT_FATAL.FATAL).testBit b) :=
  if_neg (by rw [down]; decide)

theorem State.holdLine_up {s : State} {b : Nat} (up : (s.getF Reg.FLT_LINES.LINES).testBit b = true) : s.holdLine b = s := if_pos up

theorem State.lineHeld_canon {s : State} (c : s.Canon) (b : Nat) : (s.lineHeld b).Canon := State.noteFault_canon (State.setBit_canon _ b c) b _

theorem State.lineHeld_fields {s : State} (c : s.Canon) {b : Nat} (fits : b < Reg.FLT_STATUS.STATUS.w) :
    s.courseKept (s.lineHeld b) [Reg.FLT_LINES.LINES, Reg.FLT_STATUS.STATUS] ∧ (s.lineHeld b).course = s.course ∧
      ((s.lineHeld b).getF Reg.FLT_LINES.LINES).testBit b = true ∧
      (s.mergeAt = none → ((s.lineHeld b).getF Reg.FLT_STATUS.STATUS).testBit b = true) := by
  obtain ⟨kept, course, latched⟩ := State.noteFault_fields (State.setBit_canon Reg.FLT_LINES.LINES b c) fits (s.mergedIn b)
  have line : s.courseKept (s.setBit Reg.FLT_LINES.LINES b) [Reg.FLT_LINES.LINES] := State.courseKept_of_fields (State.setF_only s _ _ c.regs).1
  refine ⟨State.courseKept_trans line kept, course, ?_, fun open_ => latched (by simp [State.mergedIn, open_])⟩
  rw [State.lineHeld, kept _ rfl (by decide)]
  exact State.getF_setBit_self c.regs fits

/-- What holding line `b` shows: its bit in FLT_LINES, and in FLT_STATUS when it was down and no merge window is open. -/
theorem State.holdLine_fields {s : State} (c : s.Canon) {b : Nat} (fits : b < Reg.FLT_STATUS.STATUS.w) :
    s.courseKept (s.holdLine b) ([Reg.FLT_LINES.LINES, Reg.FLT_STATUS.STATUS] ++ failedFields) ∧
      ((s.holdLine b).getF Reg.FLT_LINES.LINES).testBit b = true ∧
      (s.mergeAt = none → (s.getF Reg.FLT_LINES.LINES).testBit b = false → ((s.holdLine b).getF Reg.FLT_STATUS.STATUS).testBit b = true) := by
  cases down : (s.getF Reg.FLT_LINES.LINES).testBit b with
  | true =>
    rw [State.holdLine_up down]
    exact ⟨fun _ _ _ => rfl, down, fun _ no => nomatch no⟩
  | false =>
    obtain ⟨kept, -, line, status⟩ := State.lineHeld_fields c fits
    have canon := State.lineHeld_canon c b
    have fails : (s.lineHeld b).courseKept (s.holdLine b) failedFields := by
      have failed := State.faultCourse_keeps canon b ((s.getF Reg.FLT_FATAL.FATAL).testBit b)
      rw [State.holdLine_down down]
      split
      · exact State.courseKept_mono (State.courseKept_trans failed
          (State.fatalReaction_keeps (State.faultCourse_kept _ b _ ⟨canon, rfl, rfl⟩).canon b)) (by decide)
      · exact failed
    exact ⟨State.courseKept_trans kept fails, by rw [fails _ rfl (by decide)]; exact line,
      fun unmerged _ => by rw [fails _ rfl (by decide)]; exact status unmerged⟩

/-- R53, R73: a course that has not failed fails with 0x82 at the loss of the beat, by the line or after it. -/
theorem State.holdLine_fails {s : State} (h : s.Canon) {c : Course} (running : s.course = some c) (alive : c.failed = false)
    (notFatal : (s.getF Reg.FLT_FATAL.FATAL).testBit 41 = false) : ∃ u : State, u.FailedWith ((s.holdLine 41).failCourse 0x82) c 0x82 := by
  cases down : (s.getF Reg.FLT_LINES.LINES).testBit 41 with
  | true =>
    rw [State.holdLine_up down]
    exact ⟨s, State.failCourse_fields h 0x82 running alive⟩
  | false =>
    have canon := State.lineHeld_canon h 41
    have course := (State.lineHeld_fields h (b := 41) (by decide)).2.1.trans running
    have failed := State.failCourse_fields canon 0x82 course alive
    have now : s.holdLine 41 = (s.lineHeld 41).failCourse 0x82 := by
      rw [State.holdLine_down down, notFatal, if_neg (by decide), State.faultCourse_alive course alive (by rfl)]
    have still : (s.holdLine 41).course = some { c with failed := true, working := false, running := [] } := by
      rw [now]
      exact congrArg Prod.fst failed.parts
    rw [State.failCourse_failed 0x82 still rfl, now]
    exact ⟨_, failed⟩

/-! ### The loss of the beat (R53, R58) -/

/-- R53, R58: the window that was open when the beat was lost is over. -/
def State.windowLost (s : State) : State :=
  { (if s.course.isSome then s.dropCourse else s).setF Reg.CRS_STATUS.IDLE 1 with
    beat := s.beat.adrift }

theorem State.loseBeat_eq (s : State) : s.loseBeat =
    (((s.setFs [(Reg.CRS_STATUS.LOCKED, 0), (Reg.CRS_STATUS.HOLDOVER, 0)]).holdLine 41).failCourse 0x82).windowLost := rfl

theorem State.sealBuild_dropped {s : State} (h : s.Canon) :
    s.courseKept (s.sealBuild none none) [] ∧ (s.sealBuild none none).waiting = s.waiting := by
  rw [State.sealBuild]
  cases s.build with
  | none => exact ⟨fun _ _ _ => rfl, rfl⟩
  | some b =>
    have out : courseKey (Reg.SVL_SLOT.STATE 0 b.slot).key = false := by simp +arith [courseKey]
    exact ⟨State.courseKept_setF_out { s with build := none } 0 out h.regs, rfl⟩

/-- The window is over, and no course is open. -/
def State.windowOver (s : State) : State := { s with course := none, rafts := [], power := { s.power with windowClosedAt := s.now } }

theorem State.dropCourse_cases (s : State) : s.dropCourse = s.windowOver ∨ s.dropCourse = (s.sealBuild none none).windowOver := by
  rw [State.dropCourse]
  cases s.course with
  | none => exact .inl (congrArg State.windowOver (if_neg Bool.false_ne_true))
  | some c =>
    by_cases failed : c.failed = true
    · exact .inr (congrArg State.windowOver (if_pos failed))
    · exact .inl (congrArg State.windowOver (if_neg failed))

theorem State.dropCourse_fields {s : State} (h : s.Canon) :
    s.courseKept s.dropCourse [] ∧ s.dropCourse.waiting = s.waiting ∧ s.dropCourse.course = none := by
  obtain ⟨kept, waiting⟩ := State.sealBuild_dropped h
  rcases s.dropCourse_cases with e | e <;> rw [e]
  · exact ⟨fun _ _ _ => rfl, rfl, rfl⟩
  · exact ⟨kept, waiting, rfl⟩

theorem State.windowLost_fields {s : State} (h : s.Canon) :
    s.courseKept s.windowLost [Reg.CRS_STATUS.IDLE] ∧ s.windowLost.waiting = s.waiting ∧ s.windowLost.course = none ∧
      s.windowLost.getF Reg.CRS_STATUS.IDLE = 1 := by
  have dropped : (if s.course.isSome then s.dropCourse else s).Canon ∧ s.courseKept (if s.course.isSome then s.dropCourse else s) [] ∧
      (if s.course.isSome then s.dropCourse else s).waiting = s.waiting ∧ (if s.course.isSome then s.dropCourse else s).course = none := by
    split
    · exact ⟨(State.dropCourse_kept s ⟨h, rfl, rfl⟩).canon, State.dropCourse_fields h⟩
    · next none => exact ⟨h, fun _ _ _ => rfl, rfl, by simpa using none⟩
  unfold State.windowLost
  generalize (if s.course.isSome then s.dropCourse else s) = u at dropped ⊢
  obtain ⟨canon, kept, waiting, course⟩ := dropped
  exact ⟨State.courseKept_trans kept (State.courseKept_of_fields (State.setF_only u _ 1 canon.regs).1), waiting, course,
    State.getF_setF u Reg.CRS_STATUS.IDLE 1 canon.regs⟩

/-- Settles O17: LOCKED and HOLDOVER cleared, then the line, the failure and the end of the window, none of which touches what is claimed. -/
theorem beatIsLost : Obligations.BeatIsLost := by
  intro s up c locked holdover last
  have ready := State.coreUp_ready up
  have atLoss : s.atLoss = true := by
    rw [State.atLoss, State.on_eq_true holdover, decide_eq_true last]
    rfl
  have lost : exec .beatLoss s = .next s.loseBeat := by
    rw [show exec .beatLoss s = .next (beatLoss s) from onCore_up _ s up, beatLoss, ready, atLoss]
    rfl
  have noBeat : exec .internalBeat s = .next s.loseBeat := by
    rw [show exec .internalBeat s = .next (internalBeat s) from onCore_up _ s up, internalBeat, ready, State.on_eq_true locked, atLoss]
    rfl
  refine ⟨_, lost, noBeat, ?_⟩
  rw [State.loseBeat_eq]
  have unlockedCanon := (State.setFs_kept s [(Reg.CRS_STATUS.LOCKED, 0), (Reg.CRS_STATUS.HOLDOVER, 0)] ⟨c, rfl, rfl⟩).canon
  have cleared := State.getF_setFs_mem s [(Reg.CRS_STATUS.LOCKED, 0), (Reg.CRS_STATUS.HOLDOVER, 0)] c.regs (by decide)
  have unlockedOnly := State.setFs_only s [(Reg.CRS_STATUS.LOCKED, 0), (Reg.CRS_STATUS.HOLDOVER, 0)] c.regs
  generalize s.setFs [(Reg.CRS_STATUS.LOCKED, 0), (Reg.CRS_STATUS.HOLDOVER, 0)] = u at unlockedCanon cleared unlockedOnly ⊢
  have unlocked : u.getF Reg.CRS_STATUS.LOCKED = 0 := cleared _ (.head _)
  have steady : u.getF Reg.CRS_STATUS.HOLDOVER = 0 := cleared _ (.tail _ (.head _))
  have sameCourse : u.course = s.course := (congrArg State.course unlockedOnly.2 :)
  have sameMerge : u.mergeAt = s.mergeAt := (congrArg State.mergeAt unlockedOnly.2 :)
  obtain ⟨heldKept, line, status⟩ := State.holdLine_fields unlockedCanon (b := 41) (by decide)
  have heldCanon := (State.holdLine_kept u 41 ⟨unlockedCanon, rfl, rfl⟩).canon
  have failedKept := State.failCourse_keeps heldCanon 0x82
  have failedCanon := (State.failCourse_kept _ 0x82 ⟨heldCanon, rfl, rfl⟩).canon
  have fails (c : Course) := State.holdLine_fails (c := c) unlockedCanon
  generalize u.holdLine 41 = v at heldKept line status heldCanon failedKept failedCanon fails ⊢
  obtain ⟨lostKept, waiting, course, idle⟩ := State.windowLost_fields failedCanon
  have after := State.courseKept_trans failedKept lostKept
  have all := State.courseKept_trans heldKept after
  have before (f : Fld) (h : ∀ g ∈ [Reg.CRS_STATUS.LOCKED, Reg.CRS_STATUS.HOLDOVER], f.key ≠ g.key) : u.getF f = s.getF f := unlockedOnly.1 f h
  refine ⟨(all _ rfl (by decide)).trans unlocked, (all _ rfl (by decide)).trans steady, idle, course,
    (all _ rfl (by decide)).trans (before _ (by decide)), (all _ rfl (by decide)).trans (before _ (by decide)), ?_, fun unmerged down => ?_,
    fun notFatal c running alive => ?_⟩
  · rw [after _ rfl (by decide)]
    exact line
  · rw [after _ rfl (by decide)]
    exact status (sameMerge.trans unmerged) (by rw [before _ (by decide)]; exact down)
  · obtain ⟨w, failed⟩ := fails c (sameCourse.trans running) alive (by rw [before _ (by decide)]; exact notFatal)
    exact ⟨(lostKept _ rfl (by decide)).trans failed.status, (lostKept _ rfl (by decide)).trans failed.counter,
      (lostKept _ rfl (by decide)).trans failed.held, waiting.trans (congrArg (fun x => x.2.2.1) failed.parts)⟩

end Sys2Proof.Machine
end

section
/-! SUPPORT. The end of a window whose course was asked for on a ring that does not exist. The module serves 1,024 rings (before R109); a State may hold a
request of any other index, and the fields of such a ring then lie over those of another register. -/

namespace Sys2Proof.Machine

/-- The ring at which HIF_RING_PTR lies over MEM_INJECT of stack 16: SQ_HEAD over ARM. -/
def strayRing : Nat := 0x17EC00

theorem strayRing_overlays : (Reg.HIF_RING_PTR.SQ_HEAD strayRing).key = (Reg.MEM_INJECT.ARM 16).key := rfl

/-- A course of image 0 (which ends no step) asked for on `strayRing`, with its work done. -/
def strayCourse : Course :=
  { req := ⟨strayRing, List.replicate 8 0, false⟩
    img := { idx := 0, seed := 0, beats := 4, stepFirst := true, stepLast := false, epoch := 0, progAddr := 0, ttIdx := 0xFFFF, recipeIdx := 0
             envIdx := 0xFFFF, footprint := 0, starts := [0], deadlines := [1000], hostBytes := false, power := [100] }
    beatsLeft := 1, counter := 7, working := false, reserve := false, failed := false, running := [], ports := [], slots := [], known := []
    result := true, counts := [], planned := [], hostMoved := 0, peerMoved := 0, hostBusy := 0, peerBusy := 0, hostSince := none
    peerSince := none, rateH := 0, rateP := 0, poolUsed := 0, scales := [], sentVote := none, routes := [], relayed := false }

/-- A module that is up with that course in its window: the recipe at 0x2000 puts the watch buffer at 0x10000, the plan at 0x3000 puts the
placement log at 0x40000, and an injection is armed for the next sector written in stack 16, channel 0. -/
def strayWindow : State :=
  let base : State := State.reset.setFs [(Reg.SEC_BOOT_STAT.READY, 1), (Reg.CRS_ACT_LEDGER.BASE, 1), (Reg.CRS_ACT_RECIPE.BASE, 2),
    (Reg.CRS_ACT_PLAN.BASE, 3), (Reg.HIF_STATUS.LINK_UP, 1), (Reg.FLT_FATAL.FATAL, 0), (Reg.MEM_INJECT.ARM 16, 1)]
  { base.setRing strayRing { Ring.fresh with outstanding := [strayCourse.req] } with
    power := { State.reset.power with step := .good, coreRails := true, hubRails := true }
    hbm := (Memory.write [] 0x2008 (leBytes 8 0x10000)).write 0x3028 (leBytes 8 0x40000)
    course := some strayCourse }

theorem strayWindow_canon : strayWindow.Canon := ⟨by decide +kernel, rfl, rfl, rfl, by decide +kernel⟩

/-- The ring reads as one with SQ_HEAD 1, that can take a record … -/
theorem strayWindow_ring : strayWindow.getF (Reg.HIF_RING_PTR.SQ_HEAD strayRing) = 1 ∧ SMap.rising strayWindow.rings = true ∧
    (strayWindow.ring strayRing).outstanding = [strayCourse.req] ∧ (strayWindow.ring strayRing).waitingRecs = [] ∧
    (strayWindow.ring strayRing).endRec = none ∧ (strayWindow.ring strayRing).cqDead = false ∧ strayWindow.suspended = false ∧
    strayWindow.hostReachable = true ∧ strayWindow.getF (Reg.HIF_RING_CFG.IRQ_EN strayRing) = 0 := by decide +kernel

/-- … the course's work has ended … -/
theorem strayWindow_ended : strayWindow.course = some strayCourse ∧ strayWindow.programsDone strayCourse = true ∧
    strayWindow.slotsDone strayCourse = true ∧ strayWindow.build = none := by decide +kernel

/-- … its watch record and its placement log have room … -/
theorem strayWindow_room :
    rangesClear [(strayWindow.ledgerAddr 0, 128 * (strayWindow.tensors strayCourse + 1)),
      (strayWindow.getF Reg.CRS_ACT_RECIPE.BASE * 4096 + strayCourse.img.recipeIdx * 128, 128), (strayWindow.planBase, 128),
      (strayWindow.watchAddr strayCourse, (strayWindow.watchRecord strayCourse (strayWindow.voteResult strayCourse)).length),
      (strayWindow.logSlot, (placementLog strayCourse strayWindow.saves 0).length)] = true ∧
    strayWindow.watchAddr strayCourse + (strayWindow.watchRecord strayCourse (strayWindow.voteResult strayCourse)).length ≤ strayWindow.hbmCap ∧
    strayWindow.logSlot + (placementLog strayCourse strayWindow.saves 0).length ≤ strayWindow.hbmCap ∧
    strayWindow.ledgerAddr 0 + 128 * (strayWindow.tensors strayCourse + 1) ≤ strayWindow.hbmCap := by decide +kernel

/-- … and the watch record, at 0x10000 in stack 16, uses the injection up: the completion record written after it shows an SQ_HEAD of 0. -/
theorem strayWindow_record : strayWindow.closeWindow.hostOut =
    [⟨0, (CRec.mk strayRing 0 strayCourse.req.seq strayCourse.req.tag strayCourse.req.opcode 7).bytes true 0 0⟩] := by decide +kernel

/-- … where the statement asks for the SQ_HEAD the ring had when the window closed. -/
theorem strayWindow_claimed : strayWindow.hostOut ++ [⟨strayWindow.getF (Reg.HIF_RING_CQ.BASE strayRing) * 4096 +
      strayWindow.getF (Reg.HIF_RING_PTR.CQ_TAIL strayRing) * 32,
      (CRec.mk strayRing 0 strayCourse.req.seq strayCourse.req.tag strayCourse.req.opcode
        (strayCourse.counter % 2 ^ 48 + bit (strayCourse.img.stepLast && !strayWindow.voteResult strayCourse) * 2 ^ 48 +
          bit (strayCourse.img.stepLast && strayWindow.voteResult strayCourse) * 2 ^ 49)).bytes (strayWindow.ring strayRing).cqPhase
        (strayWindow.getF (Reg.HIF_RING_PTR.SQ_HEAD strayRing)) strayWindow.timeBase⟩] ≠
    [⟨0, (CRec.mk strayRing 0 strayCourse.req.seq strayCourse.req.tag strayCourse.req.opcode 7).bytes true 0 0⟩] := by decide +kernel

/-- Refutes O16: its clause on the completion record does not ask that the course's ring exists. In `strayWindow` the course was asked for on
`strayRing`, whose SQ_HEAD lies over the ARM of an injection that the watch record uses up before the completion record is written. -/
theorem not_internalBeats : ¬ Obligations.InternalBeats := by
  rintro ⟨-, -, completes, -⟩
  obtain ⟨-, rising, outstanding, noRecs, noEnd, alive, running, reachable, quiet⟩ := strayWindow_ring
  obtain ⟨course, programs, slots, noBuild⟩ := strayWindow_ended
  obtain ⟨clear, watch, log, ledger⟩ := strayWindow_room
  obtain ⟨_, rfl, -, -, -, -, -, -, -, -, -, -, -, -, -, -, record⟩ :=
    completes strayWindow strayCourse strayWindow_canon course rfl rfl programs slots noBuild _ _ _ _ _ _ rfl rfl rfl rfl rfl rfl (nomatch ·)
      clear watch log ledger
  exact strayWindow_claimed ((record strayRing rfl rising outstanding noRecs noEnd alive running reachable quiet).symm.trans strayWindow_record)

end Sys2Proof.Machine
end

section
/-! SUPPORT. Admission (R64 to R68, R82, R85): what the reads of a check leave alone, and the checks in their order. -/

namespace Sys2Proof.Machine

/-! ### What a check leaves of the rings -/

/-- The places of ACTIVE of the rings. -/
def activeKey (k : Nat) : Bool := decide (10485760 ≤ k ∧ k % 2048 = 1280)

theorem activeKey_active (r : Nat) : activeKey (Reg.HIF_RING_STAT.ACTIVE r).key = true := by
  simp only [activeKey, decide_eq_true_eq]
  omega

theorem State.active_retrainNext (s : State) (i : Nat) : (s.retrainNext i).regsOn activeKey = s.regsOn activeKey := by
  have state (c v : Nat) : (s.setF (Reg.MEM_LCH_STAT.STATE (i / 34) c) v).regsOn activeKey = s.regsOn activeKey :=
    s.regsOn_setF _ _ v (by simp only [activeKey, decide_eq_false_iff_not]; omega)
  dsimp only [State.retrainNext]
  split_ifs
  · exact state _ 1
  · rfl

theorem State.active_readSector (s : State) (sec : Nat) : (s.readSector sec).regsOn activeKey = s.regsOn activeKey := by
  have ce (st p v : Nat) : (s.setF (Reg.MEM_PCH_CE.CE st p) v).regsOn activeKey = s.regsOn activeKey :=
    s.regsOn_setF _ _ v (by simp only [activeKey, decide_eq_false_iff_not]; omega)
  have ue (st p v : Nat) : (s.setF (Reg.MEM_PCH_UE.UE_READ st p) v).regsOn activeKey = s.regsOn activeKey :=
    s.regsOn_setF _ _ v (by simp only [activeKey, decide_eq_false_iff_not]; omega)
  dsimp only [State.readSector]
  split
  · rfl
  · exact ce _ _ _
  · rw [State.targetFails]
    split_ifs
    · exact (State.active_retrainNext _ _).trans (ue _ _ _)
    · exact ue _ _ _

theorem State.regsOn_each {α : Type} (p : Nat → Bool) (s : State) (xs : List α) (f : State → α → State)
    (h : ∀ s x, (f s x).regsOn p = s.regsOn p) : (s.each xs f).regsOn p = s.regsOn p := by
  unfold State.each
  induction xs generalizing s with
  | nil => rfl
  | cons x t ih => exact (ih _).trans (h s x)

/-- R93: a read asks the host for the lines it shares, and changes nothing else. -/
theorem State.viaHost_read (s : State) (a n : Nat) : ∃ out, s.viaHost a n false = { s with cxlOut := out } := by
  simp only [State.viaHost, Bool.false_eq_true, if_false]
  split_ifs
  · exact ⟨s.cxlOut, rfl⟩
  · exact ⟨s.cxlOut, rfl⟩
  · exact ⟨_, rfl⟩
  · exact ⟨s.cxlOut, rfl⟩

theorem State.active_checkReads (s : State) (rs : List (Nat × Nat)) : (s.checkReads rs).2.regsOn activeKey = s.regsOn activeKey := by
  refine State.regsOn_each _ _ _ _ fun s r => ?_
  obtain ⟨out, via⟩ := s.viaHost_read r.1 r.2
  have read := State.regsOn_each activeKey (s.viaHost r.1 r.2 false) (sectorsOf r.1 r.2) State.readSector State.active_readSector
  refine read.trans ?_
  rw [via]
  rfl

theorem State.active_setFs (s : State) (l : List (Fld × Nat)) (h : ∀ x ∈ l, activeKey x.1.key = false) :
    (s.setFs l).regsOn activeKey = s.regsOn activeKey := by
  induction l generalizing s with
  | nil => rfl
  | cons x l ih =>
    rw [State.setFs_cons, ih _ fun y hy => h y (List.mem_cons_of_mem _ hy), State.regsOn_setF _ _ _ _ (h x List.mem_cons_self)]

theorem State.admitImage_bad {s : State} {a : Nat} {r : Bool × State} (bad : (r.1 && s.imgFormOk a) = false) (idx : Nat) (seed : W64)
    (prev : Option PrevCourse) (ns : Nat) : s.admitImage a idx seed prev ns r = (⟨0x46, Image.unread idx seed, 0, 0⟩, r.2) :=
  if_pos (by rw [bad]; rfl)

theorem State.admitImage_epoch {s : State} {a idx : Nat} {seed : W64} {r : Bool × State} (ok : (r.1 && s.imgFormOk a) = true)
    (other : (s.imageAt a idx seed).epoch ≠ s.getF Reg.CRS_EPOCH.EPOCH) (prev : Option PrevCourse) (ns : Nat) :
    s.admitImage a idx seed prev ns r = (⟨0x43, s.imageAt a idx seed, 0, 0⟩, r.2) := by
  rw [State.admitImage, ok]
  exact if_pos other

theorem State.admitImage_tables {s : State} {a idx : Nat} {seed : W64} {r : Bool × State} (ok : (r.1 && s.imgFormOk a) = true)
    (same : (s.imageAt a idx seed).epoch = s.getF Reg.CRS_EPOCH.EPOCH) (prev : Option PrevCourse) (ns : Nat) :
    s.admitImage a idx seed prev ns r =
      s.admitTables a (s.imageAt a idx seed) prev ns (r.2.checkReads (s.imgRegions (s.imageAt a idx seed))) := by
  rw [State.admitImage, ok]
  exact if_neg (not_not.2 same)

theorem State.admitTables_snd (s : State) (a : Nat) (i : Image) (prev : Option PrevCourse) (ns : Nat) (q : Bool × State) :
    (s.admitTables a i prev ns q).2 = q.2 := rfl

/-- R67: the check of an image leaves what its reads leave. -/
theorem State.admitImage_snd (s : State) (a idx : Nat) (seed : W64) (prev : Option PrevCourse) (ns : Nat) (r : Bool × State) :
    (s.admitImage a idx seed prev ns r).2 = r.2 ∨ ∃ rs, (s.admitImage a idx seed prev ns r).2 = (r.2.checkReads rs).2 := by
  cases ok : r.1 && s.imgFormOk a with
  | false => exact .inl (by rw [State.admitImage_bad ok])
  | true =>
    by_cases same : (s.imageAt a idx seed).epoch = s.getF Reg.CRS_EPOCH.EPOCH
    · exact .inr ⟨s.imgRegions (s.imageAt a idx seed), by rw [State.admitImage_tables ok same, State.admitTables_snd]⟩
    · exact .inl (by rw [State.admitImage_epoch ok same])

theorem State.active_admitAt (s : State) (a idx : Nat) (seed : W64) (prev : Option PrevCourse) (ns : Nat) :
    (s.admitAt a idx seed prev ns).2.regsOn activeKey = s.regsOn activeKey := by
  unfold State.admitAt
  generalize read : s.checkReads _ = r
  have kept : r.2.regsOn activeKey = s.regsOn activeKey := by rw [← read, State.active_checkReads]
  rcases s.admitImage_snd a idx seed prev ns r with e | ⟨rs, e⟩ <;> rw [e]
  · exact kept
  · rw [State.active_checkReads, kept]

theorem State.active_tryAdmit (s : State) (idx : Nat) (seed : W64) (prev : Option PrevCourse) (ns : Nat) :
    (s.tryAdmit idx seed prev ns).2.regsOn activeKey = s.regsOn activeKey := by
  unfold State.tryAdmit
  split_ifs
  · rfl
  · rfl
  · exact State.active_admitAt _ _ _ _ _ _

theorem State.active_admitNext (s : State) (idx : Nat) (seed : W64) (prev : Option PrevCourse) (ns : Nat) :
    (s.admitNext idx seed prev ns).2.regsOn activeKey = s.regsOn activeKey := by
  unfold State.admitNext
  split
  · exact (State.active_setFs _ _ (by simp +decide)).trans ((State.active_tryAdmit _ _ _ _ _).trans (s.active_setFs _ (by simp +decide)))
  · exact s.active_tryAdmit idx seed prev ns

theorem State.active_reportAdmission (s : State) (v : Verdict) : (s.reportAdmission v).regsOn activeKey = s.regsOn activeKey :=
  s.active_setFs _ (by simp +decide)

/-! ### What a check leaves of the waiting courses -/

theorem State.inner_admitAt (s : State) (a idx : Nat) (seed : W64) (prev : Option PrevCourse) (ns : Nat) :
    (s.admitAt a idx seed prev ns).2.inner = s.inner := by
  unfold State.admitAt
  generalize read : s.checkReads _ = r
  have kept : r.2.inner = s.inner := by rw [← read, State.inner_checkReads]
  rcases s.admitImage_snd a idx seed prev ns r with e | ⟨rs, e⟩ <;> rw [e]
  · exact kept
  · rw [State.inner_checkReads, kept]

@[simp] theorem State.inner_tryAdmit (s : State) (idx : Nat) (seed : W64) (prev : Option PrevCourse) (ns : Nat) :
    (s.tryAdmit idx seed prev ns).2.inner = s.inner := by
  unfold State.tryAdmit
  split_ifs
  · rfl
  · rfl
  · exact State.inner_admitAt _ _ _ _ _ _

/-- The courses that wait, the one before them, and the time. -/
def State.queueParts (s : State) : List Adm × Option PrevCourse × Nat := (s.waiting, s.prev, s.now)

theorem State.queueParts_setFs (s : State) (l : List (Fld × Nat)) : (s.setFs l).queueParts = s.queueParts := by
  rw [State.setFs_eq]
  rfl

theorem State.queueParts_of_inner {s t : State} (h : t.inner = s.inner) : t.queueParts = s.queueParts := (congrArg State.queueParts h :)

theorem State.queueParts_admitNext (s : State) (idx : Nat) (seed : W64) (prev : Option PrevCourse) (ns : Nat) :
    (s.admitNext idx seed prev ns).2.queueParts = s.queueParts := by
  unfold State.admitNext
  split
  · dsimp only
    rw [State.keepActive_eq, State.queueParts_setFs, State.queueParts_of_inner (State.inner_tryAdmit _ _ _ _ _), State.swapSets,
      State.queueParts_setFs]
  · exact State.queueParts_of_inner (State.inner_tryAdmit _ _ _ _ _)

theorem State.queueParts_nextFree (s : State) : s.nextFree.queueParts = s.queueParts := rfl

theorem State.queueParts_reportAdmission (s : State) (v : Verdict) : (s.reportAdmission v).queueParts = s.queueParts := by
  rw [State.reportAdmission, State.queueParts_nextFree, State.queueParts_setFs]

/-! ### A COURSE_RUN as it is read (R64, R112, R124) -/

/-- R64, R67: the check of the image a COURSE_RUN names, for the window that opens next. -/
def State.checkRun (s : State) (q : Req) : Verdict × State := s.admitNext (wbits (q.word 1) 0 12) (q.word 2) s.prev (s.nextOpening - s.now)

/-- What a check leaves: the waiting courses, the ring's ACTIVE, and a state in canonical form. -/
theorem State.checkRun_left {s : State} (c : s.Canon) (q : Req) (r : Nat) :
    ((s.checkRun q).2.reportAdmission (s.checkRun q).1).queueParts = s.queueParts ∧
      ((s.checkRun q).2.reportAdmission (s.checkRun q).1).getF (Reg.HIF_RING_STAT.ACTIVE r) = s.getF (Reg.HIF_RING_STAT.ACTIVE r) := by
  have canon : ((s.checkRun q).2.reportAdmission (s.checkRun q).1).Canon :=
    (State.reportAdmission_kept _ _ (State.admitNext_kept s _ _ _ _ ⟨c, rfl, rfl⟩)).canon
  refine ⟨?_, State.getF_of_regsOn ?_ c.regs canon.regs (activeKey_active r)⟩
  · rw [State.queueParts_reportAdmission, State.checkRun, State.queueParts_admitNext]
  · rw [State.active_reportAdmission, State.checkRun, State.active_admitNext]

/-- R64: a course admitted waits behind those admitted before it. -/
def State.enqueue (s : State) (q : Req) (img : Image) : State :=
  { s with waiting := s.waiting ++ [⟨q, img, s.now + 25000, s.prev⟩], prev := some ⟨img.stepLast, false⟩ }

theorem courseRun_held {s : State} {r : Nat} {q : Req} (next : s.nextReq r 0x01 = some q)
    (held : (s.markStarted q).getF Reg.CRS_STATUS.HELD ≠ 0 ∨ (s.markStarted q).getF Reg.CRS_CTRL.ENABLE = 0) :
    courseRun r s = (s.markStarted q).finish q 0x48 := by
  rw [courseRun, State.onReq, next]
  refine if_pos ?_
  rcases held with held | off
  · rw [State.on_eq_true held, Bool.true_or]
  · rw [State.on_eq_false off, Bool.not_false, Bool.or_true]

theorem courseRun_checked {s : State} {r : Nat} {q : Req} (next : s.nextReq r 0x01 = some q)
    (free : (s.markStarted q).getF Reg.CRS_STATUS.HELD = 0) (on : (s.markStarted q).getF Reg.CRS_CTRL.ENABLE ≠ 0) {a : Verdict × State}
    (ha : (s.markStarted q).checkRun q = a) :
    courseRun r s = if a.1.status ≠ 0 then (a.2.reportAdmission a.1).finish q a.1.status
      else if (!(a.2.reportAdmission a.1).on (Reg.HIF_RING_STAT.ACTIVE r)) = true then
        { a.2.reportAdmission a.1 with prev := some ⟨a.1.img.stepLast, true⟩ }.finish q 0x48
      else (a.2.reportAdmission a.1).enqueue q a.1.img := by
  subst ha
  rw [courseRun, State.onReq, next]
  exact if_neg (by rw [State.on_eq_false free, State.on_eq_true on]; decide)

theorem State.markStarted_canon {s : State} (c : s.Canon) (q : Req) : (s.markStarted q).Canon := ⟨c.hbm, c.loft, c.rstore, c.acc, c.regs⟩

/-! ### The check in its order (R67) -/

theorem State.reportAdmission_fields {s : State} (c : s.Canon) (v : Verdict) :
    (s.reportAdmission v).getF Reg.CRS_ADM_STATUS.STATUS = v.status % 2 ^ 8 ∧
      (s.reportAdmission v).getF Reg.CRS_ADM_END.END_NS = v.endNs % 2 ^ 64 ∧
      (s.reportAdmission v).getF Reg.CRS_ADM_WIN.WIN_NS = v.winNs % 2 ^ 64 ∧
      s.fieldsKept (s.reportAdmission v) [Reg.CRS_ADM_STATUS.STATUS, Reg.CRS_ADM_END.END_NS, Reg.CRS_ADM_WIN.WIN_NS] := by
  have fields := State.getF_setFs_mem s
    [(Reg.CRS_ADM_STATUS.STATUS, v.status), (Reg.CRS_ADM_END.END_NS, v.endNs), (Reg.CRS_ADM_WIN.WIN_NS, v.winNs)] c.regs (by simp +arith)
  have only := State.setFs_only s
    [(Reg.CRS_ADM_STATUS.STATUS, v.status), (Reg.CRS_ADM_END.END_NS, v.endNs), (Reg.CRS_ADM_WIN.WIN_NS, v.winNs)] c.regs
  exact ⟨fields _ (.head _), fields _ (.tail _ (.head _)), fields _ (.tail _ (.tail _ (.head _))), only.1⟩

theorem State.tryAdmit_unlocked {s : State} (unlocked : s.getF Reg.CRS_STATUS.LOCKED = 0) (idx : Nat) (seed : W64) (prev : Option PrevCourse)
    (ns : Nat) : (s.tryAdmit idx seed prev ns).1.status = 0x45 := by
  rw [State.tryAdmit, if_pos (by rw [State.on_eq_false unlocked]; rfl)]

theorem State.tryAdmit_beyond {s : State} {idx : Nat} (locked : s.getF Reg.CRS_STATUS.LOCKED ≠ 0) (beyond : s.getF Reg.CRS_ACT_IMGTAB.COUNT < idx)
    (seed : W64) (prev : Option PrevCourse) (ns : Nat) : (s.tryAdmit idx seed prev ns).1.status = 0x46 := by
  rw [State.tryAdmit, if_neg (by rw [State.on_eq_true locked]; decide), if_pos beyond]

theorem State.tryAdmit_read {s : State} {idx : Nat} (locked : s.getF Reg.CRS_STATUS.LOCKED ≠ 0) (within : idx ≤ s.getF Reg.CRS_ACT_IMGTAB.COUNT)
    (seed : W64) (prev : Option PrevCourse) (ns : Nat) : s.tryAdmit idx seed prev ns = s.admitAt (s.imgAddr idx) idx seed prev ns := by
  rw [State.tryAdmit, if_neg (by rw [State.on_eq_true locked]; decide), if_neg (Nat.not_lt.2 within)]

/-- R341, R342: the reads of a check are good when every range lies below HBM_CAP and no sector of it is uncorrectable. -/
theorem State.checkReads_iff (s : State) (rs : List (Nat × Nat)) :
    (s.checkReads rs).1 = true ↔ ∀ x ∈ rs, x.1 + x.2 ≤ s.hbmCap ∧ ∀ q ∈ sectorsOf x.1 x.2, s.sectorState q ≠ .bad := by
  simp [State.checkReads, State.badStacks, List.filter_eq_nil_iff, Nat.ble_eq]

theorem State.readSector_clean {s : State} {q : Nat} (clean : s.sectorState q = .clean) : s.readSector q = s := by
  rw [State.readSector, clean]

theorem State.readSectors_clean {s : State} (qs : List Nat) (clean : ∀ q ∈ qs, s.sectorState q = .clean) : s.each qs State.readSector = s := by
  unfold State.each
  induction qs with
  | nil => rfl
  | cons q qs ih =>
    rw [List.foldl_cons, State.readSector_clean (clean q List.mem_cons_self)]
    exact ih fun x hx => clean x (List.mem_cons_of_mem _ hx)

/-- R93, R342: reads of sectors without errors send what the coherence of the window asks for, and change nothing else. -/
theorem State.checkReads_clean {s : State} (rs : List (Nat × Nat)) (clean : ∀ x ∈ rs, ∀ q ∈ sectorsOf x.1 x.2, s.sectorState q = .clean) :
    ∃ out, (s.checkReads rs).2 = { s with cxlOut := out } := by
  unfold State.checkReads State.each
  dsimp only
  induction rs generalizing s with
  | nil => exact ⟨s.cxlOut, rfl⟩
  | cons x rs ih =>
    obtain ⟨out, via⟩ := s.viaHost_read x.1 x.2
    have read : (s.readQuiet x.1 x.2).2.2 = { s with cxlOut := out } := by
      rw [State.readQuiet, via]
      exact State.readSectors_clean _ (clean x List.mem_cons_self)
    rw [List.foldl_cons, read]
    exact ih (s := { s with cxlOut := out }) fun y hy => clean y (List.mem_cons_of_mem _ hy)

theorem State.checkReads_cxlOut (s : State) (out : List CxlReq) (rs : List (Nat × Nat)) :
    ({ s with cxlOut := out }.checkReads rs).1 = (s.checkReads rs).1 := by
  rw [Bool.eq_iff_iff, State.checkReads_iff, State.checkReads_iff]
  rfl

/-! ### The phase loop and the window (R67) -/

/-- A phase above the power limit is found before any phase is late. -/
theorem State.phaseLoop_power {s : State} {limit : Nat} (slots : List SlotE) {ps : List Phase} (timed : ∀ p ∈ ps, (s.phaseTime p).isSome = true)
    (above : ∃ p ∈ ps, limit < p.power) (t : Rat) (ds : List (Nat × Nat)) : s.phaseLoop limit slots ps t ds = .refused 0x44 := by
  induction ps generalizing t ds with
  | nil => simp at above
  | cons p ps ih =>
    rw [State.phaseLoop]
    by_cases tooMuch : limit < p.power
    · rw [if_pos tooMuch]
    · rw [if_neg tooMuch]
      obtain ⟨d, time⟩ := Option.isSome_iff_exists.1 (timed p List.mem_cons_self)
      have rest : ∃ p ∈ ps, limit < p.power := by
        obtain ⟨q, hq, high⟩ := above
        rcases List.mem_cons.1 hq with rfl | hq
        · exact absurd high tooMuch
        · exact ⟨q, hq, high⟩
      simp only [time]
      exact ih (fun q hq => timed q (List.mem_cons_of_mem _ hq)) rest _ _

/-- One phase, which depends on no slot. -/
theorem State.phaseLoop_single {s : State} {limit : Nat} {p : Phase} {d : Rat} (slots : List SlotE) (within : p.power ≤ limit)
    (free : p.dep = 0xFFFF) (time : s.phaseTime p = some d) (t : Rat) :
    s.phaseLoop limit slots [p] t [] = .ends (t + d + 5000) [(t.floor.toNat, (t + d + 5000).ceil.toNat)] := by
  rw [State.phaseLoop, if_neg (Nat.not_lt.2 within)]
  simp only [free, if_true, time]
  rfl

theorem State.timeCheck_refused {s : State} {limit st : Nat} {i : Image} {ps : List Phase}
    (h : s.phaseLoop limit (s.slotsOf i) ps 25000 [] = .refused st) : (s.timeCheck limit i ps).status = st := by
  simp only [State.timeCheck, h]

/-- R66, R67: the window, in ns, at the locked period less 500 ppm. -/
def State.window (s : State) (i : Image) : Rat := mkRat (i.beats * s.beat.period7 * 9995) 70000000

/-- R67, R68: phases that end at `t` are held against the window, and their slots after them. -/
theorem State.timeCheck_ends {s : State} {limit : Nat} {i : Image} {ps : List Phase} {t : Rat} {ds : List (Nat × Nat)}
    (h : s.phaseLoop limit (s.slotsOf i) ps 25000 [] = .ends t ds) :
    s.timeCheck limit i ps =
      ⟨if !((t + 15000 : Rat) ≤ s.window i) then 0x40 else if (s.slotsOf i).any (s.slotBad? (s.window i)) then 0x41 else 0,
        { i with starts := ds.map Prod.fst, deadlines := ds.map Prod.snd }, (t + 15000).ceil.toNat, (s.window i).floor.toNat⟩ := by
  have slots : s.slotsOf { i with starts := ds.map Prod.fst, deadlines := ds.map Prod.snd } = s.slotsOf i := rfl
  unfold State.window
  by_cases inTime : (t + 15000 : Rat) ≤ mkRat (i.beats * s.beat.period7 * 9995) 70000000
  · cases bad : (s.slotsOf i).any (s.slotBad? (mkRat (i.beats * s.beat.period7 * 9995) 70000000)) <;>
      simp [State.timeCheck, h, slots, inTime, bad]
  · simp [State.timeCheck, h, inTime]

/-! ### The verdict on an image whose tables have been read (R67) -/

section
variable {s : State} {i : Image} {ps : List Phase} {prev : Option PrevCourse} {ns : Nat} {ok : Bool}

theorem State.admitVerdict_names (bad : (ok && s.imgNamesOk i ps) = false) : (s.admitVerdict i ps prev ns ok).status = 0x46 := by
  simp [State.admitVerdict, bad]

theorem State.admitVerdict_step (good : (ok && s.imgNamesOk i ps) = true) (bad : stepOk i.stepFirst prev = false) :
    (s.admitVerdict i ps prev ns ok).status = 0x49 := by
  simp [State.admitVerdict, good, bad]

theorem State.admitVerdict_resources (good : (ok && s.imgNamesOk i ps) = true) (step : stepOk i.stepFirst prev = true)
    (bad : (s.usesDegraded i || decide (s.hbmCap < i.footprint * 2 ^ 20) || !s.envFits i) = true) :
    (s.admitVerdict i ps prev ns ok).status = 0x42 := by
  simp only [State.admitVerdict, good, step, bad, Bool.not_true, Bool.false_eq_true, if_false, if_true]

theorem State.admitVerdict_vote (good : (ok && s.imgNamesOk i ps) = true) (step : stepOk i.stepFirst prev = true)
    (resources : (s.usesDegraded i || decide (s.hbmCap < i.footprint * 2 ^ 20) || !s.envFits i) = false)
    (bad : (i.stepLast && i.hasTt && !(s.slotsOf i).any fun x => Nat.beq x.kind 4) = true) :
    (s.admitVerdict i ps prev ns ok).status = 0x70 := by
  simp only [State.admitVerdict, good, step, resources, bad, Bool.not_true, Bool.false_eq_true, if_false, if_true]

theorem State.admitVerdict_times (good : (ok && s.imgNamesOk i ps) = true) (step : stepOk i.stepFirst prev = true)
    (resources : (s.usesDegraded i || decide (s.hbmCap < i.footprint * 2 ^ 20) || !s.envFits i) = false)
    (vote : (i.stepLast && i.hasTt && !(s.slotsOf i).any fun x => Nat.beq x.kind 4) = false) :
    s.admitVerdict i ps prev ns ok = s.timeCheck (s.powerLimit ns) i ps := by
  simp only [State.admitVerdict, good, step, resources, vote, Bool.not_true, Bool.false_eq_true, if_false]

end

/-! ### The times of an image (R67, R68) -/

/-- R67, R68: an image of one phase that depends on no slot, against its window. -/
theorem State.timeCheck_single {s : State} {limit : Nat} {i : Image} {p : Phase} {d w : Rat} (within : p.power ≤ limit) (free : p.dep = 0xFFFF)
    (time : s.phaseTime p = some d) (hw : w = mkRat (i.beats * s.beat.period7 * 9995) 70000000) :
    (w < 25000 + d + 5000 + 15000 → (s.timeCheck limit i [p]).status = 0x40 ∧
      (s.timeCheck limit i [p]).endNs = (25000 + d + 5000 + 15000 : Rat).ceil.toNat) ∧
    (25000 + d + 5000 + 15000 ≤ w → (∃ x ∈ s.slotsOf i, w < mkRat x.stop 1 + 15000) → (s.timeCheck limit i [p]).status = 0x41) ∧
    (25000 + d + 5000 + 15000 ≤ w → (s.slotsOf i).any (s.slotBad? w) = false → (s.timeCheck limit i [p]).status = 0 ∧
      (s.timeCheck limit i [p]).endNs = (25000 + d + 5000 + 15000 : Rat).ceil.toNat ∧ (s.timeCheck limit i [p]).winNs = w.floor.toNat ∧
      (s.timeCheck limit i [p]).img = { i with starts := [25000], deadlines := [(25000 + d + 5000 : Rat).ceil.toNat] }) := by
  have start : (25000 : Rat).floor.toNat = 25000 := by decide +kernel
  rw [State.timeCheck_ends (State.phaseLoop_single (s.slotsOf i) within free time 25000), start, show s.window i = w from hw.symm]
  refine ⟨fun late => ⟨?_, rfl⟩, fun inTime slot => ?_, fun inTime slots => ⟨?_, rfl, rfl, rfl⟩⟩
  · simp only [not_le.2 late, decide_false, Bool.not_false, if_true]
  · have bad : (s.slotsOf i).any (s.slotBad? w) = true := by
      obtain ⟨x, hx, ends⟩ := slot
      refine List.any_eq_true.2 ⟨x, hx, ?_⟩
      simp only [State.slotBad?, not_le.2 ends, decide_false, Bool.not_false, Bool.true_or]
    simp only [inTime, bad, decide_true, Bool.not_true, Bool.false_eq_true, if_false, if_true]
  · simp only [inTime, slots, decide_true, Bool.not_true, Bool.false_eq_true, if_false]

theorem stepOk_iff (first : Bool) (prev : Option PrevCourse) :
    stepOk first prev = true ↔ first = true ∨ ∃ p, prev = some p ∧ p.stepLast = false ∧ p.endedBad = false := by
  cases prev <;> simp [stepOk]

/-- R67: the order of the checks once the tables of an image are good. -/
theorem State.admitVerdict_order {s : State} {i : Image} {ps : List Phase} {ok : Bool} (good : (ok && s.imgNamesOk i ps) = true)
    (prev : Option PrevCourse) (ns : Nat) {v : Verdict} (hv : v = s.admitVerdict i ps prev ns ok) :
    (i.stepFirst = false → (∀ p : PrevCourse, prev = some p → p.stepLast = true ∨ p.endedBad = true) → v.status = 0x49) ∧
    ((i.stepFirst = true ∨ ∃ p : PrevCourse, prev = some p ∧ p.stepLast = false ∧ p.endedBad = false) →
      ((s.usesDegraded i = true ∨ s.hbmCap < i.footprint * 2 ^ 20 ∨ s.envFits i = false) → v.status = 0x42) ∧
      (s.usesDegraded i = false → i.footprint * 2 ^ 20 ≤ s.hbmCap → s.envFits i = true →
        (i.stepLast = true → i.hasTt = true → (∀ x ∈ s.slotsOf i, x.kind ≠ 4) → v.status = 0x70) ∧
        ((i.stepLast = false ∨ i.hasTt = false ∨ ∃ x ∈ s.slotsOf i, x.kind = 4) → v = s.timeCheck (s.powerLimit ns) i ps))) := by
  subst hv
  refine ⟨fun first none => ?_, fun step => ⟨fun lacks => ?_, fun sound fits env => ⟨fun last tt noVote => ?_, fun vote => ?_⟩⟩⟩
  · refine State.admitVerdict_step good (Bool.eq_false_iff.2 fun step => ?_)
    rcases (stepOk_iff _ _).1 step with isFirst | ⟨p, here, open_, well⟩
    · rw [first] at isFirst
      cases isFirst
    · rcases none p here with closed | bad
      · rw [open_] at closed
        cases closed
      · rw [well] at bad
        cases bad
  · refine State.admitVerdict_resources good ((stepOk_iff _ _).2 step) ?_
    simp only [Bool.or_eq_true, decide_eq_true_eq, Bool.not_eq_true']
    exact or_assoc.2 lacks
  · refine State.admitVerdict_vote good ((stepOk_iff _ _).2 step) (by simpa [sound, env] using fits) ?_
    simpa [last, tt, Nat.beq_eq] using noVote
  · refine State.admitVerdict_times good ((stepOk_iff _ _).2 step) (by simpa [sound, env] using fits) ?_
    rcases vote with notLast | noTt | ⟨x, hx, kind⟩
    · simp [notLast]
    · simp [noTt]
    · have found : ((s.slotsOf i).any fun x => Nat.beq x.kind 4) = true := List.any_eq_true.2 ⟨x, hx, by rw [kind]; rfl⟩
      simp [found]

/-- R82, R85: which set a check reads, and that the active set stays. -/
theorem State.admitNext_sets {s : State} (c : s.Canon) (idx : Nat) (seed : W64) (prev : Option PrevCourse) (ns : Nat) :
    (s.getF Reg.CRS_STATUS.SWAP_PEND ≠ 0 → s.swapAt + 10000 ≤ s.now + ns →
      (s.admitNext idx seed prev ns).1 = (s.swapSets.tryAdmit idx seed prev ns).1 ∧
      ∀ f ∈ activeFields, (s.admitNext idx seed prev ns).2.getF f % 2 ^ f.w = s.getF f % 2 ^ f.w) ∧
    ((s.getF Reg.CRS_STATUS.SWAP_PEND = 0 ∨ s.now + ns < s.swapAt + 10000) → s.admitNext idx seed prev ns = s.tryAdmit idx seed prev ns) := by
  refine ⟨fun pending due => ?_, fun none => ?_⟩
  · have swap : s.admitNext idx seed prev ns =
        ((s.swapSets.tryAdmit idx seed prev ns).1, (s.swapSets.tryAdmit idx seed prev ns).2.keepActive s) :=
      if_pos (by rw [State.on_eq_true pending, Nat.ble_eq_true_of_le due]; rfl)
    have canon := (State.tryAdmit_kept s.swapSets idx seed prev ns (State.swapSets_kept s ⟨c, rfl, rfl⟩)).canon
    rw [swap]
    exact ⟨rfl, fun f hf => by rw [State.getF_keepActive s canon.regs hf, Nat.mod_mod]⟩
  · refine if_neg fun swap => ?_
    rw [Bool.and_eq_true, State.on_iff, Nat.ble_eq] at swap
    obtain ⟨pending, due⟩ := swap
    rcases none with none | early
    · exact pending none
    · omega

theorem State.checkReads_bad {s : State} {rs : List (Nat × Nat)}
    (bad : ∃ x ∈ rs, s.hbmCap < x.1 + x.2 ∨ ∃ q ∈ sectorsOf x.1 x.2, s.sectorState q = .bad) : (s.checkReads rs).1 = false := by
  refine Bool.eq_false_iff.2 fun good => ?_
  obtain ⟨x, hx, bad⟩ := bad
  obtain ⟨within, sound⟩ := (s.checkReads_iff rs).1 good x hx
  rcases bad with beyond | ⟨q, hq, bad⟩
  · omega
  · exact sound q hq bad

/-- Settles O19: the branches of a COURSE_RUN, the three registers of a check, and the checks in their order. -/
theorem courseRunIsAdmittedOrRefused : Obligations.CourseRunIsAdmittedOrRefused := by
  refine ⟨fun s r q up next => ?_, fun s t v c ht => ?_, fun s idx seed prev ns c => ?_⟩
  · have run : exec (.courseRun r) s = .next (courseRun r s) := onHub_up _ s up
    refine ⟨fun held => by rw [run, courseRun_held next held], fun free on => ⟨s.markStarted q, (s.markStarted q).checkRun q, rfl, rfl, ?_⟩⟩
    have checked := courseRun_checked next free on rfl
    refine ⟨fun bad => ?_, fun good canon active => ?_, fun good canon inactive => ?_⟩
    · rw [run, checked, if_pos bad]
    · obtain ⟨parts, stays⟩ := State.checkRun_left (State.markStarted_canon canon q) q r
      rw [if_neg (not_not.2 good), if_neg (by rw [State.on_eq_true (stays.trans_ne active)]; decide)] at checked
      have same : _ = (s.waiting, s.prev, s.now) := parts
      simp only [State.queueParts, Prod.mk.injEq] at same
      obtain ⟨waiting, before, now⟩ := same
      refine ⟨_, run.trans (congrArg _ checked), ?_, rfl, rfl⟩
      rw [State.enqueue, waiting, before, now]
    · obtain ⟨-, stays⟩ := State.checkRun_left (State.markStarted_canon canon q) q r
      rw [run, checked, if_neg (not_not.2 good), if_pos (by rw [State.on_eq_false (stays.trans inactive)]; rfl)]
  · rw [ht]
    exact State.reportAdmission_fields c v
  · obtain ⟨swap, noSwap⟩ := State.admitNext_sets c idx seed prev ns
    refine ⟨fun pending due => ⟨(swap pending due).1, fun f hf => (swap pending due).2 f ?_⟩, noSwap,
      fun unlocked => State.tryAdmit_unlocked unlocked idx seed prev ns, fun locked beyond => State.tryAdmit_beyond locked beyond seed prev ns,
      fun locked within a i ps read1 read2 v ha hi hps hv hread1 hread2 => ?_⟩
    · revert f
      decide
    · rw [State.tryAdmit_read locked within, ← ha, State.admitAt, ← hread1] at hv
      have refused (bad : ((s.checkReads read1).1 && s.imgFormOk a) = false) : v.status = 0x46 := by rw [hv, State.admitImage_bad bad]
      have unread (bad : ∃ x ∈ read1, s.hbmCap < x.1 + x.2 ∨ ∃ q ∈ sectorsOf x.1 x.2, s.sectorState q = .bad) : v.status = 0x46 :=
        refused (by rw [State.checkReads_bad bad, Bool.false_and])
      refine ⟨fun ⟨x, hx, beyond⟩ => unread ⟨x, hx, .inl beyond⟩, fun ⟨x, hx, bad⟩ => unread ⟨x, hx, .inr bad⟩,
        fun bad => refused (by rw [bad, Bool.and_false]), fun clean form => ?_⟩
      have good : ((s.checkReads read1).1 && s.imgFormOk a) = true := by
        rw [form, Bool.and_true, State.checkReads_iff]
        exact fun x hx => ⟨(clean x hx).1, fun q hq bad => nomatch ((clean x hx).2 q hq).symm.trans bad⟩
      obtain ⟨out, left⟩ := State.checkReads_clean read1 fun x hx => (clean x hx).2
      refine ⟨fun other => ?_, fun same => ?_⟩
      · rw [hi] at other
        rw [hv, State.admitImage_epoch good other]
      · rw [hi] at same
        rw [State.admitImage_tables good same, ← hi, left, State.admitTables, ← hps, ← hread2, State.checkReads_cxlOut] at hv
        refine ⟨fun bad => ?_, fun bad => ?_, fun sound names => ?_⟩
        · rw [hv]
          exact State.admitVerdict_names (by rw [State.checkReads_bad bad, Bool.false_and])
        · rw [hv]
          exact State.admitVerdict_names (by rw [bad, Bool.and_false])
        · have good : ((s.checkReads read2).1 && s.imgNamesOk i ps) = true := by
            rw [names, Bool.and_true, State.checkReads_iff]
            exact sound
          obtain ⟨stepBad, stepGood⟩ := State.admitVerdict_order good prev ns hv
          refine ⟨stepBad, fun step => ⟨(stepGood step).1, fun undegraded fits env => ?_⟩⟩
          obtain ⟨noVote, timed⟩ := (stepGood step).2 undegraded fits env
          refine ⟨noVote, fun vote => ?_⟩
          rw [timed vote]
          refine ⟨fun times above => State.timeCheck_refused (State.phaseLoop_power _ times above _ _),
            fun p single power free d time w hw => ?_⟩
          rw [single]
          exact State.timeCheck_single power free time hw

end Sys2Proof.Machine
end

section
/-! SUPPORT. What a ridge keeps of the beat: the beat itself, LOCKED, PERIOD_NS, the beat and ridge counts, and the lines held. One lemma for
each operation that a ridge is made of, in the order of the definitions, tagged so that the lemma for an operation follows from those for the
operations it calls. None of the registers such an operation writes lies at one of the places of `beatKey`, whatever its index; that is what
the lemmas check. -/

namespace Sys2Proof.Machine

/-! ### The view -/

/-- The places of LOCKED, PERIOD_NS, BEATS, RIDGES and LINES. -/
@[simp] def beatKey (k : Nat) : Bool :=
  decide (k ∈ [Reg.CRS_STATUS.LOCKED.key, Reg.CRS_BEAT_PERIOD.PERIOD_NS.key, Reg.CRS_BEAT_COUNT.BEATS.key, Reg.CRS_RIDGE_COUNT.RIDGES.key,
    Reg.FLT_LINES.LINES.key])

/-- The beat and its registers. -/
def State.beatView (s : State) : Beat × SMap Nat := (s.beat, s.regsOn beatKey)

/-- An update that names neither the registers nor the beat keeps the view. -/
@[simp] theorem State.beatView_mk (s : State) {
      pending now timeBase calNs rings shared biasJobs aptCache aptJobs hostLines winLines cxlOut lastRead hdmBase l0Left selfReset
      suspended heldRecs targets hostOut hostReads msiOut swapAt waiting prev course resumePend watch amax stepVote stepNonfin seedBefore
      rafts dieEvents modEvents rstore rsWritten loft loftWritten acc hbm poison symErr lam migs retrainPend retraining retrained deadChans
      integ fell badStore badAcc mapOutDue chanBase hbmDegraded kv kvUndo kvUndoMem kvLog saves heldSaves poolHeld predHist rateH rateP
      jobs jobsDone bufs ports flitOut peerOut peerWait peerTag reslate build fills changed0 changed1 stepsDone since0 since1 stepCourse
      recipe ackPartner ackHot cursors pushCursor refusedSrc sarkCut partSrc0 partSrc1 svlOps verifySlot flashCount gutters faultMsiAt inj
      mergeAt power flash boot mgmtOut freeCtr} :
    ({ s with
      pending := pending, now := now, timeBase := timeBase, calNs := calNs, rings := rings, shared := shared, biasJobs := biasJobs,
      aptCache := aptCache, aptJobs := aptJobs, hostLines := hostLines, winLines := winLines, cxlOut := cxlOut, lastRead := lastRead,
      hdmBase := hdmBase, l0Left := l0Left, selfReset := selfReset, suspended := suspended, heldRecs := heldRecs, targets := targets,
      hostOut := hostOut, hostReads := hostReads, msiOut := msiOut, swapAt := swapAt, waiting := waiting, prev := prev, course := course,
      resumePend := resumePend, watch := watch, amax := amax, stepVote := stepVote, stepNonfin := stepNonfin, seedBefore := seedBefore,
      rafts := rafts, dieEvents := dieEvents, modEvents := modEvents, rstore := rstore, rsWritten := rsWritten, loft := loft,
      loftWritten := loftWritten, acc := acc, hbm := hbm, poison := poison, symErr := symErr, lam := lam, migs := migs,
      retrainPend := retrainPend, retraining := retraining, retrained := retrained, deadChans := deadChans, integ := integ, fell := fell,
      badStore := badStore, badAcc := badAcc, mapOutDue := mapOutDue, chanBase := chanBase, hbmDegraded := hbmDegraded, kv := kv,
      kvUndo := kvUndo, kvUndoMem := kvUndoMem, kvLog := kvLog, saves := saves, heldSaves := heldSaves, poolHeld := poolHeld,
      predHist := predHist, rateH := rateH, rateP := rateP, jobs := jobs, jobsDone := jobsDone, bufs := bufs, ports := ports,
      flitOut := flitOut, peerOut := peerOut, peerWait := peerWait, peerTag := peerTag, reslate := reslate, build := build, fills := fills,
      changed0 := changed0, changed1 := changed1, stepsDone := stepsDone, since0 := since0, since1 := since1, stepCourse := stepCourse,
      recipe := recipe, ackPartner := ackPartner, ackHot := ackHot, cursors := cursors, pushCursor := pushCursor, refusedSrc := refusedSrc,
      sarkCut := sarkCut, partSrc0 := partSrc0, partSrc1 := partSrc1, svlOps := svlOps, verifySlot := verifySlot, flashCount := flashCount,
      gutters := gutters, faultMsiAt := faultMsiAt, inj := inj, mergeAt := mergeAt, power := power, flash := flash, boot := boot,
      mgmtOut := mgmtOut, freeCtr := freeCtr } : State).beatView = s.beatView := rfl

@[simp] theorem State.beatView_ite {c : Prop} [Decidable c] (s t : State) : (if c then s else t).beatView = if c then s.beatView else t.beatView :=
  apply_ite State.beatView c s t

theorem courseKey_of_beatKey {k : Nat} (h : beatKey k = true) : courseKey k = true := by
  simp only [beatKey, List.mem_cons, List.not_mem_nil, or_false, decide_eq_true_eq] at h
  rcases h with rfl | rfl | rfl | rfl | rfl <;> rfl

/-- What moves data keeps the view. -/
theorem State.beatView_of_inner {s t : State} (h : t.inner = s.inner) : t.beatView = s.beatView := by
  have regs (u : State) : u.regsOn beatKey = u.inner.regs.filter fun x => beatKey x.1 := by
    refine ((List.filter_filter ..).trans (List.filter_congr fun x _ => ?_)).symm
    cases hx : beatKey x.1 with
    | false => rfl
    | true => rw [courseKey_of_beatKey hx]; rfl
  exact Prod.ext (congrArg State.beat h :) (by rw [State.beatView, State.beatView, regs, regs, h])

@[simp] theorem State.beatView_setF {s : State} {f : Fld} {v : Nat} (h : beatKey f.key = false) : (s.setF f v).beatView = s.beatView :=
  Prod.ext rfl (s.regsOn_setF beatKey f v h)

@[simp] theorem State.beatView_bump {s : State} {f : Fld} {n : Nat} (h : beatKey f.key = false) : (s.bump f n).beatView = s.beatView :=
  State.beatView_setF h

@[simp] theorem State.beatView_setBit {s : State} {f : Fld} {b : Nat} (h : beatKey f.key = false) : (s.setBit f b).beatView = s.beatView :=
  State.beatView_setF h

@[simp] theorem State.beatView_clrBit {s : State} {f : Fld} {b : Nat} (h : beatKey f.key = false) : (s.clrBit f b).beatView = s.beatView := by
  unfold State.clrBit
  split
  · exact State.beatView_setF h
  · rfl

@[simp] theorem State.beatView_setFs {s : State} {l : List (Fld × Nat)} (h : ∀ x ∈ l, beatKey x.1.key = false) :
    (s.setFs l).beatView = s.beatView := by
  induction l generalizing s with
  | nil => rfl
  | cons x l ih =>
    rw [State.setFs_cons, ih fun y hy => h y (List.mem_cons_of_mem _ hy), State.beatView_setF (h x List.mem_cons_self)]

@[simp] theorem State.beatView_each {α : Type} {s : State} {xs : List α} {f : State → α → State} (h : ∀ s x, (f s x).beatView = s.beatView) :
    (s.each xs f).beatView = s.beatView := by
  unfold State.each
  induction xs generalizing s with
  | nil => rfl
  | cons x t ih => exact ih.trans (h s x)

/-! ### Records, rings and memory -/

@[simp] theorem State.beatView_setTarget (s : State) (t : Nat) (x : Target) : (s.setTarget t x).beatView = s.beatView := by
  simp [State.setTarget]

@[simp] theorem State.beatView_setRaft (s : State) (l : Nat) (x : Raft) : (s.setRaft l x).beatView = s.beatView := by
  simp [State.setRaft]

@[simp] theorem State.beatView_setPort (s : State) (p : Nat) (x : Port) : (s.setPort p x).beatView = s.beatView :=
  State.beatView_of_inner (State.inner_setPort _ _ _)

@[simp] theorem State.beatView_setGutter (s : State) (i : Nat) (x : Gutter) : (s.setGutter i x).beatView = s.beatView := by
  simp [State.setGutter]

@[simp] theorem State.beatView_nextFree (s : State) : s.nextFree.beatView = s.beatView :=
  State.beatView_of_inner (State.inner_nextFree _)

@[simp] theorem State.beatView_msi (s : State) (v : Nat) : (s.msi v).beatView = s.beatView :=
  State.beatView_of_inner (State.inner_msi _ _)

@[simp] theorem State.beatView_sendCxl (s : State) (kind : CxlKind) (a n : Nat) : (s.sendCxl kind a n).beatView = s.beatView :=
  State.beatView_of_inner (State.inner_sendCxl _ _ _ _)

@[simp] theorem State.beatView_complete (s : State) (q : Req) (status detail : Nat) :
    (s.complete q status detail).beatView = s.beatView :=
  State.beatView_of_inner (State.inner_complete _ _ _ _)

@[simp] theorem State.beatView_retrainNext (s : State) (i : Nat) : (s.retrainNext i).beatView = s.beatView :=
  State.beatView_of_inner (State.inner_retrainNext _ _)

@[simp] theorem State.beatView_readQuiet (s : State) (a n : Nat) : (s.readQuiet a n).2.2.beatView = s.beatView :=
  State.beatView_of_inner (State.inner_readQuiet _ _ _)

@[simp] theorem State.beatView_writeHbm (s : State) (a : Nat) (all : List Byte) : (s.writeHbm a all).beatView = s.beatView :=
  State.beatView_of_inner (State.inner_writeHbm _ _ _)

@[simp] theorem State.beatView_finish (s : State) (q : Req) (status : Nat) : (s.finish q status).beatView = s.beatView :=
  State.beatView_of_inner (State.inner_finish _ _ _)

@[simp] theorem State.beatView_setLast (s : State) (status counter : Nat) (committed suppressed : Bool) :
    (s.setLast status counter committed suppressed).beatView = s.beatView := by
  simp [State.setLast]

@[simp] theorem State.beatView_useInject (s : State) : s.useInject.beatView = s.beatView :=
  State.beatView_of_inner (State.inner_useInject _)

@[simp] theorem State.beatView_sendFlit (s : State) (p ftype : Nat) (payload : List Byte) :
    (s.sendFlit p ftype payload).beatView = s.beatView :=
  State.beatView_of_inner (State.inner_sendFlit _ _ _ _)

@[simp] theorem State.beatView_sendFail (s : State) (counter : Nat) : (s.sendFail counter).beatView = s.beatView :=
  State.beatView_of_inner (State.inner_sendFail _ _)

/-! ### A course that fails -/

@[simp] theorem State.beatView_withdraw (s : State) : s.withdraw.beatView = s.beatView := by
  simp [State.withdraw]

@[simp] theorem State.beatView_hold (s : State) : s.hold.beatView = s.beatView := by
  simp [State.hold]

@[simp] theorem State.beatView_kvReport (s : State) : s.kvReport.beatView = s.beatView := by
  simp [State.kvReport]

@[simp] theorem State.beatView_kvRollback (s : State) : s.kvRollback.beatView = s.beatView := by
  simp [State.kvRollback]

@[simp] theorem State.beatView_setSeed (s : State) (v : Nat) : (s.setSeed v).beatView = s.beatView :=
  State.beatView_of_inner (State.inner_setSeed _ _)

theorem State.beatView_stopRafters (s : State) (c : Course) : (s.stopRafters c).beatView = s.beatView := rfl

@[simp] theorem State.beatView_failCourse (s : State) (code : Nat) : (s.failCourse code).beatView = s.beatView := by
  cases running : s.course with
  | none => rw [State.failCourse_none code running]
  | some c =>
    cases alive : c.failed with
    | true => rw [State.failCourse_failed code running alive]
    | false =>
      rw [State.failCourse_eq code running alive, State.beatView_kvRollback, State.beatView_hold, State.reportStopped, State.beatView_complete,
        State.beatView_setSeed, State.showStopped, State.beatView_setLast, State.beatView_setF rfl, State.beatView_stopRafters, State.failTold,
        State.beatView_sendFail, State.beatView_writeHbm]

@[simp] theorem State.beatView_amendRecord (s : State) (q : Req) (code : Nat) : (s.amendRecord q code).beatView = s.beatView :=
  State.beatView_of_inner (State.inner_amendRecord _ _ _)

@[simp] theorem State.beatView_amendStatus (s : State) (c : Course) (code : Nat) : (s.amendStatus c code).beatView = s.beatView := by
  simp [State.amendStatus]

@[simp] theorem State.beatView_withdrawProg (s : State) (t : Fall) : (s.withdrawProg t).beatView = s.beatView :=
  State.beatView_of_inner (State.inner_withdrawProg _ _)

theorem State.beatView_forget (s : State) : ({ s with fell := none } : State).beatView = s.beatView := rfl

@[simp] theorem State.beatView_failByFault (s : State) (code : Nat) : (s.failByFault code).beatView = s.beatView := by
  rw [State.failByFault]
  cases s.fellNow with
  | none => exact State.beatView_failCourse s code
  | some t =>
    cases s.course with
    | none => exact State.beatView_failCourse s code
    | some c => exact (State.beatView_forget _).trans ((State.beatView_amendStatus _ c code).trans (State.beatView_withdrawProg s t))

/-! ### Faults -/

@[simp] theorem State.beatView_stopAlive (s : State) : s.stopAlive.beatView = s.beatView := by
  simp [State.stopAlive]

@[simp] theorem State.beatView_platformEvent (s : State) (b : Nat) : (s.platformEvent b).beatView = s.beatView := by
  simp [State.platformEvent]

@[simp] theorem State.beatView_faultIrq (s : State) (b : Nat) : (s.faultIrq b).beatView = s.beatView := by
  simp [State.faultIrq]

@[simp] theorem State.beatView_openMerge (s : State) : s.openMerge.beatView = s.beatView := by
  simp [State.openMerge]

@[simp] theorem State.beatView_latchFault (s : State) (b : Nat) : (s.latchFault b).beatView = s.beatView := by
  simp [State.latchFault]

@[simp] theorem State.beatView_fatalReaction (s : State) (b : Nat) : (s.fatalReaction b).beatView = s.beatView := by
  have alive : s.stopAlive.beatView = s.beatView := State.beatView_setF rfl
  dsimp only [State.fatalReaction]
  split_ifs
  · exact (State.beatView_setF rfl).trans alive
  · exact (State.beatView_setF rfl).trans alive
  · exact (State.beatView_setF rfl).trans alive

@[simp] theorem State.beatView_faultCourse (s : State) (b : Nat) (fatal : Bool) : (s.faultCourse b fatal).beatView = s.beatView := by
  rw [State.faultCourse]
  split
  · rfl
  · split
    · rfl
    · exact s.beatView_failByFault _

@[simp] theorem State.beatView_rise (s : State) (b : Nat) : (s.rise b false).beatView = s.beatView := by
  simp only [State.rise, Bool.false_eq_true, if_false]
  split_ifs <;> simp

@[simp] theorem State.beatView_raiseLine (s : State) (b : Nat) : (s.raiseLine b).beatView = s.beatView := by
  simp [State.raiseLine]

@[simp] theorem State.beatView_readHbm (s : State) (a n : Nat) : (s.readHbm a n).2.beatView = s.beatView := by
  simp [State.readHbm]

/-! ### Channels, spares and targets -/

@[simp] theorem State.beatView_closeChannelCounts (s : State) (closes : Bool) : (s.closeChannelCounts closes).beatView = s.beatView := by
  simp [State.closeChannelCounts]

@[simp] theorem State.beatView_startRetrains (s : State) : s.startRetrains.beatView = s.beatView := by
  simp +arith [State.startRetrains]

@[simp] theorem State.beatView_degradeStack (s : State) (st p : Nat) (dead : Bool) :
    (s.degradeStack st p dead).beatView = s.beatView := by
  simp [State.degradeStack]

@[simp] theorem State.beatView_mapOut (s : State) (lam : Nat) (dead migrate : Bool) :
    (s.mapOut lam dead migrate).beatView = s.beatView := by
  simp +arith [State.mapOut]

@[simp] theorem State.beatView_checkWindow (s : State) : s.checkWindow.beatView = s.beatView := by
  simp [State.checkWindow]

@[simp] theorem State.beatView_takeMapOuts (s : State) : s.takeMapOuts.beatView = s.beatView := by
  simp [State.takeMapOuts]

@[simp] theorem State.beatView_failRaft (s : State) (n k cause : Nat) : (s.failRaft n k cause).beatView = s.beatView := by
  simp +arith [State.failRaft]

@[simp] theorem State.beatView_requestReslate (s : State) (kind unit : Nat) (late : Bool) :
    (s.requestReslate kind unit late).beatView = s.beatView := by
  dsimp only [State.requestReslate]
  split <;> simp

theorem State.beatKey_raftMapFld (n : Nat) : beatKey (raftMapFld n).key = false := by
  unfold raftMapFld
  split <;> rfl

@[simp] theorem State.beatView_spareRaft (s : State) (n i : Nat) : (s.spareRaft n i).beatView = s.beatView := by
  rw [State.spareRaft]
  split
  · rfl
  · split
    · rfl
    · refine State.beatView_setFs ?_
      rw [List.forall_mem_cons]
      exact ⟨State.beatKey_raftMapFld n, by simp +arith⟩

@[simp] theorem State.beatView_spareVec (s : State) (n k e : Nat) : (s.spareVec n k e).beatView = s.beatView := by
  rw [State.spareVec]
  split
  · rfl
  · split
    · rfl
    · simp +arith

@[simp] theorem State.beatView_countVecs (s : State) : s.countVecs.beatView = s.beatView := by
  simp [State.countVecs]

@[simp] theorem State.beatView_spareDec (s : State) (d : Nat) : (s.spareDec d).beatView = s.beatView := by
  rw [State.spareDec]
  split
  · rfl
  · split
    · rfl
    · simp +arith

@[simp] theorem State.beatView_countDec (s : State) : s.countDec.beatView = s.beatView := by
  simp [State.countDec]

@[simp] theorem State.beatView_markUnit (s : State) (kind unit : Nat) : (s.markUnit kind unit).beatView = s.beatView := by
  dsimp only [State.markUnit]
  split <;> simp +arith

@[simp] theorem State.beatView_bumpSpareVer (s : State) : s.bumpSpareVer.beatView = s.beatView := by
  simp [State.bumpSpareVer]

@[simp] theorem State.beatView_commitSpares (s : State) : s.commitSpares.beatView = s.beatView := by
  simp [State.commitSpares]

@[simp] theorem State.beatView_noteJob (s : State) (q : Req) (status : Nat) : (s.noteJob q status).beatView = s.beatView := by
  simp [State.noteJob]

@[simp] theorem State.beatView_countJobs (s : State) : s.countJobs.beatView = s.beatView := by
  dsimp only [State.countJobs]
  split <;> simp

@[simp] theorem State.beatView_portOff (s : State) (p : Nat) : (s.portOff p).beatView = s.beatView := by
  simp +arith [State.portOff]

@[simp] theorem State.beatView_releaseSlot (s : State) (o : SvlOp) (undo : Bool) : (s.releaseSlot o undo).beatView = s.beatView := by
  simp +arith [State.releaseSlot]

@[simp] theorem State.beatView_stopFill (s : State) (o : SvlOp) : (s.stopFill o).beatView = s.beatView := by
  simp +arith [State.stopFill]

@[simp] theorem State.beatView_killTag (s : State) (t tag : Nat) : (s.killTag t tag).beatView = s.beatView := by
  simp [State.killTag]

@[simp] theorem State.beatView_abortTarget (s : State) (t : Nat) : (s.abortTarget t).beatView = s.beatView := by
  unfold State.abortTarget
  extract_lets x held u mine rings v w z
  have hu : u.beatView = s.beatView := s.beatView_setTarget _ _
  clear_value u
  have hv : v.beatView = u.beatView := State.beatView_each fun s j => by simp
  clear_value v
  have hw : w.beatView = v.beatView := (State.beatView_countJobs _).trans rfl
  clear_value w
  have hz : z.beatView = w.beatView := State.beatView_each fun s o => by split <;> simp
  clear_value z
  exact (hz.trans hw).trans (hv.trans hu)

@[simp] theorem State.beatView_resetGutter (s : State) (i : Nat) : (s.resetGutter i).beatView = s.beatView := by
  simp +arith [State.resetGutter]

@[simp] theorem State.beatView_actTarget (s : State) (t action : Nat) : (s.actTarget t action).beatView = s.beatView := by
  simp [State.actTarget]

@[simp] theorem State.beatView_funcPoweredDown (s : State) (t : Nat) : (s.funcPoweredDown t).beatView = s.beatView := by
  simp [State.funcPoweredDown]

@[simp] theorem State.beatView_finishQuiesce (s : State) (t : Nat) : (s.finishQuiesce t).beatView = s.beatView := by
  unfold State.finishQuiesce
  split
  · rfl
  · next req action late rest e =>
    extract_lets u x v
    have hv : v.beatView = s.beatView :=
      (State.beatView_setTarget _ _ _).trans ((State.beatView_actTarget _ _ _).trans (s.beatView_abortTarget t))
    clear_value v
    split
    · exact (v.beatView_finish _ _).trans hv
    · split
      · exact (v.beatView_funcPoweredDown t).trans hv
      · exact hv

@[simp] theorem State.beatView_startQuiesce (s : State) (t : Nat) : (s.startQuiesce t).beatView = s.beatView := by
  dsimp only [State.startQuiesce]
  split <;> simp

@[simp] theorem State.beatView_drainQueue (s : State) (t n : Nat) : (s.drainQueue t n).beatView = s.beatView := by
  induction n generalizing s with
  | zero => rfl
  | succ n ih =>
    unfold State.drainQueue
    split
    · extract_lets u
      split
      · exact (ih u).trans (s.beatView_startQuiesce t)
      · exact s.beatView_startQuiesce t
    · rfl

@[simp] theorem State.beatView_pumpTarget (s : State) (t : Nat) : (s.pumpTarget t).beatView = s.beatView := by
  simp [State.pumpTarget]

/-! ### The host: the window and the aperture -/

@[simp] theorem State.beatView_hifFlag (s : State) (f : Fld) (h : beatKey f.key = false) : (s.hifFlag f).beatView = s.beatView := by
  unfold State.hifFlag
  split
  · rfl
  · exact (State.beatView_msi _ _).trans (State.beatView_setF h)

@[simp] theorem State.beatView_evict (s : State) (xs : List HostLine) : (s.evict xs).beatView = s.beatView := by
  simp [State.evict]

/-- A line of the host cache takes the bytes of an access. -/
def State.takeLine (s : State) (a : Nat) (bs : List Byte) (store : Bool) (l : Nat) : State :=
  { s with hostLines := (s.hostLines.filter fun x => !Nat.beq x.line l) ++
      [((s.hostLines.find? fun x => Nat.beq x.line l).getD ⟨l, List.replicate 64 none⟩).take a bs store] }

theorem State.beatView_takeLine (s : State) (a : Nat) (bs : List Byte) (store : Bool) (l : Nat) :
    (s.takeLine a bs store l).beatView = s.beatView := rfl

theorem State.holdLines_eq (s : State) (a : Nat) (bs : List Byte) (store : Bool) :
    ∃ xs, s.holdLines a bs store = (s.each (sectorsOf a bs.length) fun s l => s.takeLine a bs store l).evict xs := ⟨_, rfl⟩

@[simp] theorem State.beatView_holdLines (s : State) (a : Nat) (bs : List Byte) (store : Bool) :
    (s.holdLines a bs store).beatView = s.beatView := by
  obtain ⟨xs, e⟩ := s.holdLines_eq a bs store
  rw [e, State.beatView_evict, State.beatView_each fun s x => s.beatView_takeLine a bs store x]

@[simp] theorem State.beatView_moveWindow (s : State) : s.moveWindow.beatView = s.beatView := by
  unfold State.moveWindow
  split
  · extract_lets b u
    have hu : u.beatView = s.beatView := State.beatView_setF rfl
    clear_value u
    split
    · exact (State.beatView_hifFlag _ _ rfl).trans ((State.beatView_setF rfl).trans hu)
    · exact (State.beatView_checkWindow _).trans hu
  · rfl

@[simp] theorem State.beatView_aptFault (s : State) (a cause : Nat) : (s.aptFault a cause).beatView = s.beatView := by
  simp [State.aptFault]

theorem State.beatView_aptCache (s : State) (es : List (Nat × W64)) : ({ s with aptCache := es } : State).beatView = s.beatView := rfl

@[simp] theorem State.beatView_aptEntry (s : State) (i : Nat) : (s.aptEntry i).2.beatView = s.beatView := by
  unfold State.aptEntry
  split
  · rfl
  · extract_lets r e
    have read : r.2.2.beatView = s.beatView := s.beatView_readQuiet _ _
    clear_value r
    split
    · exact read
    · exact (State.beatView_aptCache _ _).trans read

@[simp] theorem State.beatView_aptPage (s : State) (a : Nat) (store err : Bool) : (s.aptPage a store err).2.beatView = s.beatView := by
  have entry := s.beatView_aptEntry (a / 2 ^ 21)
  unfold State.aptPage
  extract_lets i r
  split
  · rfl
  · split
    · exact entry
    · split_ifs <;> exact entry

@[simp] theorem State.beatView_aptAccess (s : State) (store err : Bool) (ps acc : List (Nat × Nat)) :
    (s.aptAccess store err ps acc).2.beatView = s.beatView := by
  induction ps generalizing s acc with
  | nil => rfl
  | cons p ps ih =>
    have page := s.beatView_aptPage p.1 store err
    unfold State.aptAccess
    split
    · next c u e =>
      rw [e] at page
      exact (State.beatView_aptFault u p.1 c).trans page
    · next h u e =>
      rw [e] at page
      exact (ih u _).trans page

@[simp] theorem State.beatView_askLines (s : State) (kind : CxlKind) (ls : List Nat) : (s.askLines kind ls).beatView = s.beatView := by
  simp [State.askLines]

@[simp] theorem State.beatView_hostLoads (s : State) (hs : List (Nat × Nat)) (bs : List Byte) :
    (s.hostLoads hs bs).2.beatView = s.beatView := by
  induction hs generalizing s bs with
  | nil => rfl
  | cons h hs ih =>
    unfold State.hostLoads
    split
    · exact (ih _ _).trans (by simp)
    · exact (ih _ _).trans (by simp)

@[simp] theorem State.beatView_aptLoad (s : State) (a n : Nat) (far : FarAns) : (s.aptLoad a n far).2.beatView = s.beatView := by
  dsimp only [State.aptLoad]
  split <;> simp

@[simp] theorem State.beatView_hostStores (s : State) (hs : List (Nat × Nat)) (bs : List Byte) :
    (s.hostStores hs bs).beatView = s.beatView := by
  induction hs generalizing s bs with
  | nil => rfl
  | cons h hs ih =>
    unfold State.hostStores
    extract_lets ls part own u w
    have hu : u.beatView = s.beatView := (State.beatView_askLines _ _ _).trans (s.beatView_askLines _ _)
    clear_value u
    split
    · exact (ih _ _).trans (by simp)
    · exact (ih _ _).trans hu

@[simp] theorem State.beatView_aptStore (s : State) (a : Nat) (bs : List Byte) (far : FarAns) :
    (s.aptStore a bs far).2.beatView = s.beatView := by
  dsimp only [State.aptStore]
  split <;> simp

/-! ### Points and their streams -/

@[simp] theorem State.beatView_setSlot (s : State) (a n : Nat) (state course : Nat) :
    (s.setSlot a n state course).beatView = s.beatView := by
  simp +arith [State.setSlot]

@[simp] theorem State.beatView_pointSince (s : State) (n k : Nat) : (s.pointSince n k).beatView = s.beatView := by
  simp [State.pointSince]

@[simp] theorem State.beatView_holdStreams (s : State) : s.holdStreams.beatView = s.beatView := by
  simp +arith [State.holdStreams]

@[simp] theorem State.beatView_countAck (s : State) : s.countAck.beatView = s.beatView := by
  simp [State.countAck]

@[simp] theorem State.beatView_rejectSlot (s : State) (a n : Nat) : (s.rejectSlot a n).beatView = s.beatView := by
  simp +arith [State.rejectSlot]

/-! ### Loads and stores of a course -/

@[simp] theorem State.beatView_injectStore (s : State) (u word : Nat) : (s.injectStore u word).beatView = s.beatView := by
  dsimp only [State.injectStore]
  split <;> simp

@[simp] theorem State.beatView_rsMark (s : State) (lr : Nat) (bs : List Nat) : (s.rsMark lr bs).beatView = s.beatView := by
  simp [State.rsMark]

@[simp] theorem State.beatView_rsPut (s : State) (lr a : Nat) (bs : List Byte) : (s.rsPut lr a bs).beatView = s.beatView := by
  simp [State.rsPut]

@[simp] theorem State.beatView_setEvent (s : State) (lr ev v : Nat) : (s.setEvent lr ev v).beatView = s.beatView := by
  simp [State.setEvent]

@[simp] theorem State.beatView_recordProg (s : State) (lr code : Nat) : (s.recordProg lr code).beatView = s.beatView := by
  simp +arith [State.recordProg]

@[simp] theorem State.beatView_progError (s : State) (lr code : Nat) : (s.progError lr code).beatView = s.beatView := by
  dsimp only [State.progError]
  split <;> simp

@[simp] theorem State.beatView_signal (s : State) (lr ev : Nat) : (s.signal lr ev).beatView = s.beatView := by
  simp [State.signal]

@[simp] theorem State.beatView_signalOpt (s : State) (lr : Nat) (ev : Option Nat) : (s.signalOpt lr ev).beatView = s.beatView := by
  dsimp only [State.signalOpt]
  split <;> simp

@[simp] theorem State.beatView_markBusy (s : State) : s.markBusy.beatView = s.beatView := by
  dsimp only [State.markBusy]
  split <;> simp

@[simp] theorem State.beatView_moved (s : State) (ps : List Piece) : (s.moved ps).beatView = s.beatView := by
  dsimp only [State.moved]
  split <;> simp

@[simp] theorem State.beatView_putPeer (s : State) (m : PeerMsg) : (s.putPeer m).beatView = s.beatView := by
  dsimp only [State.putPeer]
  split <;> simp

@[simp] theorem State.beatView_askPeer (s : State) (rs : List (Nat × Nat × Nat)) : (s.askPeer rs).2.beatView = s.beatView := by
  simp [State.askPeer]

@[simp] theorem State.beatView_addAhead (s : State) (lr : Nat) (l : RunAhead) : (s.addAhead lr l).beatView = s.beatView := by
  simp [State.addAhead]

@[simp] theorem State.beatView_refetch (s : State) (lr : Nat) (l : RunAhead) (p : Piece) : (s.refetch lr l p).beatView = s.beatView := by
  unfold State.refetch
  extract_lets u l
  have hu : u.beatView = s.beatView := State.beatView_bump rfl
  clear_value u
  split
  · split
    · exact (State.beatView_addAhead _ _ _).trans ((State.beatView_askPeer _ _).trans hu)
    · exact (State.beatView_failCourse _ _).trans hu
  · exact (State.beatView_addAhead _ _ _).trans hu

@[simp] theorem State.beatView_loadFailed (s : State) (lr : Nat) (l : RunAhead) : (s.loadFailed lr l).beatView = s.beatView := by
  dsimp only [State.loadFailed]
  split <;> simp

@[simp] theorem State.beatView_saveOutcome (s : State) (i v : Nat) : (s.saveOutcome i v).beatView = s.beatView := by
  dsimp only [State.saveOutcome]
  split <;> simp

@[simp] theorem State.beatView_crossBridges (s : State) (n : Nat) (p : Piece) : (s.crossBridges n p).beatView = s.beatView := by
  dsimp only [State.crossBridges]
  split <;> simp

@[simp] theorem State.beatView_readHost (s : State) (p : Piece) (bs : List Byte) : (s.readHost p bs).2.2.beatView = s.beatView := by
  unfold State.readHost
  extract_lets k r
  have hr : r.2.beatView = s.beatView := s.beatView_aptLoad _ _ _
  clear_value r
  split
  · exact hr
  · split
    · exact (State.beatView_aptLoad _ _ _ _).trans hr
    · exact hr

@[simp] theorem State.beatView_readPiece (s : State) (lr : Nat) (p : Piece) (far : FarAns) :
    (s.readPiece lr p far).2.2.beatView = s.beatView := by
  unfold State.readPiece
  extract_lets u
  have hu : u.beatView = s.beatView := s.beatView_crossBridges _ p
  clear_value u
  split
  · exact hu
  · exact hu
  · exact (u.beatView_readHbm _ _).trans hu
  · split
    · exact (u.beatView_readHost _ _).trans hu
    · exact (u.beatView_aptLoad _ _ _).trans hu
  · split <;> exact hu

@[simp] theorem State.beatView_readPieces (s : State) (lr : Nat) (far : FarAns) (ps : List Piece) (acc : List Byte) :
    (s.readPieces lr far ps acc).2.2.beatView = s.beatView := by
  induction ps generalizing s far acc with
  | nil => rfl
  | cons p ps ih =>
    unfold State.readPieces
    extract_lets r
    split
    · exact s.beatView_readPiece lr p far
    · exact (ih _ _ _).trans (s.beatView_readPiece lr p far)

@[simp] theorem State.beatView_deliver (s : State) (lr near : Nat) (bs : List Byte) (partial_ : Bool) :
    (s.deliver lr near bs partial_).beatView = s.beatView := by
  simp [State.deliver]

@[simp] theorem State.beatView_endBadly (s : State) (lr : Nat) (l : RunAhead) : (s.endBadly lr l).beatView = s.beatView := by
  simp [State.endBadly]

@[simp] theorem State.beatView_reloaded (s : State) (l : RunAhead) : (s.reloaded l).beatView = s.beatView := by
  dsimp only [State.reloaded]
  split <;> simp

@[simp] theorem State.beatView_endLoad (s : State) (lr : Nat) (l : RunAhead) (far : FarAns) :
    (s.endLoad lr l far).beatView = s.beatView := by
  simp [State.endLoad]

@[simp] theorem State.beatView_takeAhead (s : State) (lr i : Nat) : (s.takeAhead lr i).beatView = s.beatView := by
  simp [State.takeAhead]

@[simp] theorem State.beatView_mapSave (s : State) (i : Option Nat) (f : SavePt → SavePt) : (s.mapSave i f).beatView = s.beatView := by
  dsimp only [State.mapSave]
  split <;> simp

@[simp] theorem State.beatView_putHost (s : State) (far : FarAns) (ps : List Piece) (bs : List Byte) :
    (s.putHost far ps bs).2.beatView = s.beatView := by
  induction ps generalizing s bs with
  | nil => rfl
  | cons p ps ih =>
    unfold State.putHost
    split
    · extract_lets r
      split
      · exact (ih _ _).trans (s.beatView_aptStore _ _ _)
      · exact s.beatView_aptStore _ _ _
    · exact ih _ _

@[simp] theorem State.beatView_storeFailed (s : State) (d : Downpipe) : (s.storeFailed d).beatView = s.beatView := by
  simp [State.storeFailed]

@[simp] theorem State.beatView_endStore (s : State) (lr : Nat) (d : Downpipe) (far : FarAns) :
    (s.endStore lr d far).beatView = s.beatView := by
  simp [State.endStore]

@[simp] theorem State.beatView_takeDown (s : State) (lr i : Nat) : (s.takeDown lr i).beatView = s.beatView := by
  simp [State.takeDown]

@[simp] theorem State.beatView_downEnd (s : State) (lr i : Nat) (far : FarAns) : (s.downEnd lr i far).beatView = s.beatView := by
  dsimp only [State.downEnd]
  split <;> simp

@[simp] theorem State.beatView_aheadEnd (s : State) (lr i : Nat) (far : FarAns) : (s.aheadEnd lr i far).beatView = s.beatView := by
  dsimp only [State.aheadEnd]
  split <;> simp

@[simp] theorem State.beatView_tagEnd (s : State) (lr tag : Nat) (far : FarAns) : (s.tagEnd lr tag far).beatView = s.beatView := by
  rw [State.tagEnd]
  split
  · exact s.beatView_downEnd _ _ _
  · split
    · exact s.beatView_aheadEnd _ _ _
    · rfl

@[simp] theorem State.beatView_peerEnd (s : State) (tag : Nat) (far : FarAns) : (s.peerEnd tag far).beatView = s.beatView := by
  simp [State.peerEnd]

@[simp] theorem State.beatView_strandPeer (s : State) (pos : Nat) : (s.strandPeer pos).beatView = s.beatView := by
  dsimp only [State.strandPeer]
  split <;> simp

@[simp] theorem State.beatView_reportRates (s : State) : s.reportRates.beatView = s.beatView := by
  simp [State.reportRates]

@[simp] theorem State.beatView_measure (s : State) (c : Course) : (s.measure c).beatView = s.beatView := by
  simp [State.measure]

@[simp] theorem State.beatView_countPlan (s : State) : s.countPlan.beatView = s.beatView := by
  simp [State.countPlan]

@[simp] theorem State.beatView_plan (s : State) (img : Image) : (s.plan img).beatView = s.beatView := by
  unfold State.plan
  extract_lets held rh rp es fresh old base ks ts b ps all sorted named u v
  have hu : u.beatView = s.beatView := rfl
  clear_value u
  have hv : v.beatView = u.beatView := (State.beatView_reportRates _).trans ((State.beatView_countPlan _).trans (State.beatView_setF rfl))
  clear_value v
  split
  · exact hv.trans hu
  · exact hv.trans hu

@[simp] theorem State.beatView_releaseSaves (s : State) : s.releaseSaves.beatView = s.beatView := by
  simp [State.releaseSaves]

/-! ### Links -/

@[simp] theorem State.beatView_failLane (s : State) (p l : Nat) : (s.failLane p l).beatView = s.beatView := by
  simp +arith [State.failLane]

theorem State.beatKey_laneMapFld (p l : Nat) : beatKey (laneMapFld p l).key = false := by
  unfold laneMapFld
  split <;> simp +arith

@[simp] theorem State.beatView_spareLane (s : State) (p k : Nat) : (s.spareLane p k).beatView = s.beatView := by
  rw [State.spareLane]
  split
  · rfl
  · split
    · rfl
    · refine State.beatView_setFs ?_
      rw [List.forall_mem_cons, List.forall_mem_cons, List.forall_mem_singleton]
      exact ⟨by simp +arith, by simp +arith, State.beatKey_laneMapFld p k⟩

@[simp] theorem State.beatView_countPort (s : State) (p : Nat) : (s.countPort p).beatView = s.beatView := by
  simp +arith [State.countPort]

@[simp] theorem State.beatView_countLanes (s : State) : s.countLanes.beatView = s.beatView := by
  simp [State.countLanes]

@[simp] theorem State.beatView_mapLanes (s : State) (p : Nat) (failed : List Nat) : (s.mapLanes p failed).beatView = s.beatView := by
  simp [State.mapLanes]

@[simp] theorem State.beatView_portUp (s : State) (p : Nat) : (s.portUp p).beatView = s.beatView := by
  simp +arith [State.portUp]

@[simp] theorem State.beatView_partnerLost (s : State) : s.partnerLost.beatView = s.beatView := by
  simp [State.partnerLost]

@[simp] theorem State.beatView_announce (s : State) (p itype : Nat) : (s.announce p itype).beatView = s.beatView := by
  simp [State.announce]

@[simp] theorem State.beatView_repairPort (s : State) (b p : Nat) : (s.repairPort b p).beatView = s.beatView := by
  simp +arith [State.repairPort]

@[simp] theorem State.beatView_ridgeUp (s : State) (p : Nat) : (s.ridgeUp p).beatView = s.beatView := by
  simp [State.ridgeUp]

@[simp] theorem State.beatView_judgeLane (s : State) (closes : Bool) (p l : Nat) :
    (s.judgeLane closes p l).beatView = s.beatView := by
  simp +arith [State.judgeLane]

@[simp] theorem State.beatView_proposePort (s : State) (p : Nat) : (s.proposePort p).beatView = s.beatView := by
  simp [State.proposePort]

/-! ### The point that is built -/

@[simp] theorem State.beatView_buildReads (s : State) (r : Nat) : (s.buildReads r).2.beatView = s.beatView := by
  simp [State.buildReads]

@[simp] theorem State.beatView_compareReads (s : State) (m blocks : Nat) : (s.compareReads m blocks).2.beatView = s.beatView := by
  simp [State.compareReads]

@[simp] theorem State.beatView_setChanged (s : State) (n : Nat) (bs : List Nat) : (s.setChanged n bs).beatView = s.beatView := by
  simp [State.setChanged]

@[simp] theorem State.beatView_buildDecision (s : State) (c : Course) : (s.buildDecision c).beatView = s.beatView := by
  simp [State.buildDecision]

@[simp] theorem State.beatView_writeHead (s : State) (b : Build) (committed : Bool) (tt : Option (Nat × Nat)) :
    (s.writeHead b committed tt).beatView = s.beatView := by
  simp [State.writeHead]

@[simp] theorem State.beatView_countFlash (s : State) : s.countFlash.beatView = s.beatView := by
  simp [State.countFlash]

@[simp] theorem State.beatView_setImages (s : State) (is : List FlashImage) : (s.setImages is).beatView = s.beatView := by
  simp [State.setImages]

@[simp] theorem State.beatView_startOp (s : State) (o : SvlOp) : (s.startOp o).beatView = s.beatView := by
  rw [State.startOp, State.beatView_mk (s.setF _ _)]
  exact State.beatView_setF (by simp +arith)

@[simp] theorem State.beatView_roomFails (s : State) (c need : Nat) : (s.roomFails c need).beatView = s.beatView := by
  simp [State.roomFails]

theorem State.startSave_some {s t u : State} {q : Option Req} {a n : Nat} (h : s.startSave q a n = (some t, u)) :
    t.beatView = s.beatView := by
  unfold State.startSave at h
  extract_lets c at h
  split at h
  · cases h
    exact State.beatView_startOp _ _
  · cases h

@[simp] theorem State.beatView_startSave (s : State) (q : Option Req) (a n : Nat) : (s.startSave q a n).2.beatView = s.beatView := by
  unfold State.startSave
  extract_lets c
  split
  · rfl
  · exact s.beatView_roomFails _ _

@[simp] theorem State.beatView_autoSave (s : State) (n : Nat) : (s.autoSave n).beatView = s.beatView := by
  unfold State.autoSave
  extract_lets k u
  split
  · rfl
  · split
    · rfl
    · have hu : u.beatView = s.beatView := rfl
      clear_value u
      split
      · exact hu
      · split
        · next t v e => exact (State.startSave_some e).trans hu
        · next t e => exact (congrArg (fun x => State.beatView x.2) e).symm.trans ((State.beatView_startSave _ _ _ _).trans hu)

@[simp] theorem State.beatView_sealBuild (s : State) (done : Option Bool) (tt : Option (Nat × Nat)) :
    (s.sealBuild done tt).beatView = s.beatView := by
  unfold State.sealBuild
  split
  · rfl
  · next b _ =>
    extract_lets whole u
    have hu : u.beatView = s.beatView := rfl
    clear_value u
    split
    · exact (State.beatView_setF (by simp +arith)).trans hu
    · split
      · exact (State.beatView_rejectSlot _ _ _).trans hu
      · split
        · exact (State.beatView_bump rfl).trans ((State.beatView_setF (by simp +arith)).trans hu)
        · extract_lets v w
          have hv : v.beatView = u.beatView := (State.beatView_setSlot _ _ _ _ _).trans (State.beatView_writeHead _ _ _ _)
          clear_value v
          have hw : w.beatView = v.beatView := (State.beatView_pointSince _ _ _).trans (State.beatView_bump rfl)
          clear_value w
          exact (State.beatView_autoSave _ _).trans ((State.beatView_countAck _).trans (hw.trans (hv.trans hu)))

@[simp] theorem State.beatView_setFill (s : State) (a : Nat) (f : Option Fill) : (s.setFill a f).beatView = s.beatView := by
  simp [State.setFill]

@[simp] theorem State.beatView_dropFill (s : State) (a : Nat) : (s.dropFill a).beatView = s.beatView := by
  dsimp only [State.dropFill]
  split <;> simp +arith

@[simp] theorem State.beatView_dropLost (s : State) : s.dropLost.beatView = s.beatView :=
  State.beatView_each fun s a => by
    split
    · split <;> simp
    · rfl

@[simp] theorem State.beatView_slotsInRange (s : State) : s.slotsInRange.beatView = s.beatView := by
  simp +arith [State.slotsInRange]

/-! ### Slots -/

@[simp] theorem State.beatView_setSlotSt (s : State) (e : Nat) (x : SlotSt) : (s.setSlotSt e x).beatView = s.beatView := by
  dsimp only [State.setSlotSt]
  split <;> simp

@[simp] theorem State.beatView_linkErr (s : State) (x : SlotE) (code : Nat) : (s.linkErr x code).beatView = s.beatView := by
  simp [State.linkErr]

@[simp] theorem State.beatView_signalSlot (s : State) (x : SlotE) : (s.signalSlot x).beatView = s.beatView := by
  simp [State.signalSlot]

@[simp] theorem State.beatView_voteCheck (s : State) : s.voteCheck.beatView = s.beatView := by
  dsimp only [State.voteCheck]
  split <;> simp

@[simp] theorem State.beatView_slotDone (s : State) (e : Nat) (x : SlotE) (st : SlotSt) : (s.slotDone e x st).beatView = s.beatView := by
  simp [State.slotDone]

@[simp] theorem State.beatView_sarkEntriesEnd (s : State) (c : Course) : (s.sarkEntriesEnd c).beatView = s.beatView := by
  simp [State.sarkEntriesEnd]

@[simp] theorem State.beatView_commitReserveStart (s : State) : (commitReserveStart s).beatView = s.beatView := by
  unfold commitReserveStart
  split
  · rfl
  · next c _ =>
    split
    · exact s.beatView_linkErr _ _
    · extract_lets u
      have hu : u.beatView = s.beatView := s.beatView_sarkEntriesEnd c
      clear_value u
      split <;> exact hu

/-! ### Sets, and the check at the opening ridge -/

@[simp] theorem State.beatView_swapSets (s : State) : s.swapSets.beatView = s.beatView := by
  simp [State.swapSets]

@[simp] theorem State.beatView_tryAdmit (s : State) (idx : Nat) (seed : W64) (prev : Option PrevCourse) (ns : Nat) :
    (s.tryAdmit idx seed prev ns).2.beatView = s.beatView :=
  State.beatView_of_inner (State.inner_tryAdmit _ _ _ _ _)

@[simp] theorem State.beatView_reportAdmission (s : State) (v : Verdict) : (s.reportAdmission v).beatView = s.beatView := by
  simp [State.reportAdmission]

/-! ### Gutters and the rollout cache -/

@[simp] theorem State.beatView_putGutter (s : State) (i : Nat) (g : Gutter) : (s.putGutter i g).beatView = s.beatView := by
  simp +arith [State.putGutter]

@[simp] theorem State.beatView_setKvSeq (s : State) (q : Nat) (x : KvSeq) : (s.setKvSeq q x).beatView = s.beatView := by
  simp [State.setKvSeq]

@[simp] theorem State.beatView_kvFreed (s : State) (x : Pend) : (s.kvFreed x).beatView = s.beatView := by
  dsimp only [State.kvFreed]
  split <;> simp

@[simp] theorem State.beatView_kvReclaim (s : State) : s.kvReclaim.beatView = s.beatView := by
  simp [State.kvReclaim]

/-! ### The end of a window -/

@[simp] theorem State.beatView_updateLedger (s : State) (c : Course) (committed : Bool) :
    (s.updateLedger c committed).2.beatView = s.beatView := by
  unfold State.updateLedger
  generalize List.range (s.tensors c + 1) = ts
  suffices h : ∀ p : Nat × State, (ts.foldl _ p).2.beatView = p.2.beatView from h (0, s)
  induction ts with
  | nil => exact fun _ => rfl
  | cons t ts ih =>
    intro p
    refine (ih _).trans ?_
    dsimp only
    split <;> simp

@[simp] theorem State.beatView_endStep (s : State) (c : Course) (result : Bool) : (s.endStep c result).beatView = s.beatView := by
  simp [State.endStep]

@[simp] theorem State.beatView_endPoint (s : State) (c : Course) (result : Bool) : (s.endPoint c result).beatView = s.beatView := by
  unfold State.endPoint
  extract_lets verified u
  have hu : u.beatView = s.beatView := (State.beatView_sealBuild _ _ _).trans rfl
  clear_value u
  split
  · exact (State.beatView_setF (s := u) (f := Reg.SVL_STAT.VERIFY) rfl).trans hu
  · exact hu

@[simp] theorem State.beatView_completeCourse (s : State) (c : Course) : (s.completeCourse c).beatView = s.beatView := by
  simp [State.completeCourse]

@[simp] theorem State.beatView_readLedger (s : State) (c : Course) : (s.readLedger c).beatView = s.beatView := by
  simp [State.readLedger]

@[simp] theorem State.beatView_holdScales (s : State) (c : Course) : (s.holdScales c).beatView = s.beatView := by
  dsimp only [State.holdScales]
  split <;> simp

@[simp] theorem State.beatView_reserved (s : State) : s.reserved.beatView = s.beatView := by
  simp [State.reserved]

@[simp] theorem State.beatView_settleCourse (s : State) : s.settleCourse.beatView = s.beatView := by
  unfold State.settleCourse
  extract_lets u
  have hu : u.beatView = s.beatView := s.beatView_reserved
  clear_value u
  split
  · exact hu
  · next c _ =>
    split
    · exact (u.beatView_raiseLine 45).trans hu
    · extract_lets v
      have hv : v.beatView = u.beatView := by
        dsimp only [v]
        split
        · exact u.beatView_readLedger c
        · rfl
      clear_value v
      split
      · exact hv.trans hu
      · exact (v.beatView_completeCourse _).trans (hv.trans hu)

@[simp] theorem State.beatView_dropCourse (s : State) : s.dropCourse.beatView = s.beatView := by
  simp [State.dropCourse]

@[simp] theorem State.beatView_closeWindow (s : State) : s.closeWindow.beatView = s.beatView := by
  dsimp only [State.closeWindow]
  split <;> simp

/-! ### The actions of a ridge -/

@[simp] theorem State.beatView_takeSwap (s : State) : s.takeSwap.beatView = s.beatView := by
  simp [State.takeSwap]

@[simp] theorem State.beatView_ceLimits (s : State) : s.ceLimits.beatView = s.beatView := by
  simp [State.ceLimits]

@[simp] theorem State.beatView_emptyGutters (s : State) : s.emptyGutters.beatView = s.beatView := by
  simp [State.emptyGutters]

@[simp] theorem State.beatView_ridgeLanes (s : State) (closes : Bool) : (s.ridgeLanes closes).beatView = s.beatView := by
  simp [State.ridgeLanes]

@[simp] theorem State.beatView_ridgeQuiesces (s : State) : s.ridgeQuiesces.beatView = s.beatView := by
  simp [State.ridgeQuiesces]

@[simp] theorem State.beatView_oneVersion (s : State) (v : Nat) : (s.oneVersion v).beatView = s.beatView := by
  simp [State.oneVersion]

@[simp] theorem State.beatView_ridgeActions (s : State) (sort : RidgeSort) : (s.ridgeActions sort).beatView = s.beatView := by
  simp [State.ridgeActions]

/-! ### The opening of a window -/

@[simp] theorem State.beatView_clearDie (s : State) : s.clearDie.beatView = s.beatView := by
  simp [State.clearDie]

@[simp] theorem State.beatView_refuseCourse (s : State) (q : Req) (img : Image) (code : Nat) :
    (s.refuseCourse q img code).beatView = s.beatView := by
  simp [State.refuseCourse]

@[simp] theorem State.beatView_startStep (s : State) (img : Image) (n : Nat) : (s.startStep img n).beatView = s.beatView := by
  simp [State.startStep]

@[simp] theorem State.beatView_nameTt (s : State) (c : Course) : (s.nameTt c).beatView = s.beatView := by
  simp [State.nameTt]

@[simp] theorem State.beatView_passStep (s : State) (img : Image) : (s.passStep img).beatView = s.beatView := by
  dsimp only [State.passStep]
  split <;> simp

@[simp] theorem State.beatView_startCourse (s : State) (q : Req) (img : Image) : (s.startCourse q img).beatView = s.beatView := by
  simp [State.startCourse]

@[simp] theorem State.beatView_openCourse (s : State) (a : Adm) : (s.openCourse a).beatView = s.beatView := by
  unfold State.openCourse
  extract_lets r u
  have hu : u.beatView = s.beatView := (State.beatView_reportAdmission _ _).trans (s.beatView_tryAdmit _ _ _ _)
  clear_value u
  split
  · exact (u.beatView_refuseCourse _ _ _).trans hu
  · split
    · exact (u.beatView_refuseCourse _ _ _).trans hu
    · exact (u.beatView_startCourse _ _).trans hu

@[simp] theorem State.beatView_openWindow (s : State) : s.openWindow.beatView = s.beatView := by
  dsimp only [State.openWindow]
  split <;> simp

@[simp] theorem State.beatView_announceAll (s : State) : s.announceAll.beatView = s.beatView := by
  simp [State.announceAll]

end Sys2Proof.Machine
end

section
/-! SUPPORT. The lock (R48, R49, R51): the eight edges, the rounding of the period and of the beat count, and the first ridge. -/

namespace Sys2Proof.Machine

/-! ### A ridge and the beat (R49, R57) -/

theorem State.beatView_withBeat (s : State) (b : Beat) : ({ s with beat := b } : State).beatView = (b, s.regsOn beatKey) := rfl

/-- R57: a ridge counts, and is the ridge at which later ones are measured; the rest of the beat stays. -/
theorem State.ridge_beat {s : State} (c : s.Canon) (sort : RidgeSort) :
    (s.ridge sort).beat = { s.beat with ridgeAt := s.now } ∧
      (s.ridge sort).getF Reg.CRS_RIDGE_COUNT.RIDGES = (s.getF Reg.CRS_RIDGE_COUNT.RIDGES + 1) % 2 ^ 64 ∧
      ∀ f : Fld, beatKey f.key = true → f.key ≠ Reg.CRS_RIDGE_COUNT.RIDGES.key → (s.ridge sort).getF f = s.getF f := by
  have canon : (s.ridge sort).Canon := (State.ridge_kept s sort ⟨c, rfl, rfl⟩).canon
  have closedKept := State.closeWindow_kept s ⟨c, rfl, rfl⟩
  have closedView := s.beatView_closeWindow
  unfold State.ridge at canon ⊢
  generalize s.closeWindow = u at closedKept closedView canon ⊢
  have view (v : State) : ((v.ridgeActions sort).openWindow.announceAll).beatView = v.beatView := by simp
  have counted : (u.bump Reg.CRS_RIDGE_COUNT.RIDGES 1).Canon := State.setF_canon _ _ closedKept.canon
  have now : (u.bump Reg.CRS_RIDGE_COUNT.RIDGES 1).now = s.now := closedKept.clock
  have beat : (u.bump Reg.CRS_RIDGE_COUNT.RIDGES 1).beat = s.beat := (congrArg Prod.fst closedView :)
  have before (f : Fld) (hf : beatKey f.key = true) : u.getF f = s.getF f :=
    State.getF_of_regsOn (congrArg Prod.snd closedView) c.regs closedKept.canon.regs hf
  have ridges : (u.bump Reg.CRS_RIDGE_COUNT.RIDGES 1).getF Reg.CRS_RIDGE_COUNT.RIDGES = (u.getF Reg.CRS_RIDGE_COUNT.RIDGES + 1) % 2 ^ 64 :=
    State.getF_setF u _ _ closedKept.canon.regs
  have other (f : Fld) (hf : f.key ≠ Reg.CRS_RIDGE_COUNT.RIDGES.key) : (u.bump Reg.CRS_RIDGE_COUNT.RIDGES 1).getF f = u.getF f :=
    State.getF_setF_other u _ _ _ closedKept.canon.regs hf
  dsimp only at canon ⊢
  generalize u.bump Reg.CRS_RIDGE_COUNT.RIDGES 1 = v at canon counted now beat ridges other ⊢
  have after := (view { v with beat := { v.beat with ridgeAt := v.now } }).trans (v.beatView_withBeat _)
  generalize (State.ridgeActions _ sort).openWindow.announceAll = t at canon after ⊢
  have fields (f : Fld) (hf : beatKey f.key = true) : t.getF f = v.getF f :=
    State.getF_of_regsOn (congrArg Prod.snd after) counted.regs canon.regs hf
  refine ⟨(congrArg Prod.fst after).trans ?_, ?_, fun f hf apart => (fields f hf).trans ((other f apart).trans (before f hf))⟩
  · rw [← now, ← beat]
  · rw [← before Reg.CRS_RIDGE_COUNT.RIDGES rfl, ← ridges]
    exact fields _ rfl

/-! ### Rounding (R48, R51) -/

/-- R48, R51: `roundEven` gives the nearest integer, and the even one of two that are equally near. -/
theorem roundEven_nearest (n : Nat) {d : Nat} (pos : 0 < d) :
    2 * ((d : Int) * roundEven n d - n).natAbs ≤ d ∧ (2 * ((d : Int) * roundEven n d - n).natAbs = d → roundEven n d % 2 = 0) := by
  have split : (n : Int) = d * (n / d : Nat) + (n % d : Nat) := by exact_mod_cast (Nat.div_add_mod n d).symm
  have low := Nat.mod_lt n pos
  have up : roundEven n d = n / d + 1 ∧ (d < 2 * (n % d) ∨ (2 * (n % d) = d ∧ n / d % 2 = 1)) ∨
      roundEven n d = n / d ∧ ¬ d < 2 * (n % d) ∧ ¬ (2 * (n % d) = d ∧ n / d % 2 = 1) := by
    unfold roundEven
    dsimp only
    split_ifs with above tie
    · exact .inl ⟨rfl, .inl above⟩
    · exact .inl ⟨rfl, .inr tie⟩
    · exact .inr ⟨rfl, above, tie⟩
  generalize n / d = q at *
  generalize n % d = r at *
  rcases up with ⟨e, up⟩ | ⟨e, notAbove, notTie⟩
  · have diff : (d : Int) * (q + 1 : Nat) - n = d - r := by rw [split]; push_cast; ring
    rw [e, diff]
    omega
  · have diff : (d : Int) * q - n = -r := by rw [split]; ring
    rw [e, diff]
    omega

/-! ### The eight edges (R48) -/

/-- R48: `evenEdges` looks at each interval between neighbouring edges. -/
theorem evenEdges_iff (edges : List Nat) (sum : Nat) : evenEdges edges sum = true ↔
    ∀ i, i + 1 < edges.length → (7 * ((edges.getD i 0 : Int) - edges.getD (i + 1) 0) - sum).natAbs * 1000000 ≤ 100 * sum := by
  induction edges with
  | nil => simp [evenEdges]
  | cons a edges ih =>
    cases edges with
    | nil => simp [evenEdges]
    | cons b edges =>
      rw [evenEdges, Bool.and_eq_true, ih, decide_eq_true_eq]
      constructor
      · rintro ⟨first, rest⟩ i hi
        cases i with
        | zero => simpa using first
        | succ i => simpa using rest i (by simpa using hi)
      · intro all
        exact ⟨by simpa using all 0 (by simp), fun i hi => by simpa using all (i + 1) (by simpa using hi)⟩

/-- R48: the train of eight edges, seen by the newest of them. -/
theorem Beat.train_see (b : Beat) (t : Nat) {edges : List Nat} (he : edges = (t :: b.edges).take 8) {sum : Nat}
    (hs : sum = edges.headD 0 - edges.getLastD 0) {even : Bool}
    (heven : even = true ↔ edges.length = 8 ∧ 700000000 ≤ sum ∧ sum ≤ 70000000000 ∧
      ∀ i < 7, ((7 * ((edges.getD i 0 : Int) - edges.getD (i + 1) 0) - sum).natAbs * 10000 ≤ sum)) :
    (b.see t).train = if even = true then some sum else none := by
  have seen : (b.see t).edges = edges := he.symm
  have short : edges.length ≤ 8 := by rw [he]; exact List.length_take_le 8 _
  have scale (x : Nat) : x * 1000000 ≤ 100 * sum ↔ x * 10000 ≤ sum := by omega
  have iff : even = true ↔ ¬ edges.length < 8 ∧ (periodInRange sum && evenEdges edges sum) = true := by
    rw [heven, Bool.and_eq_true, periodInRange, decide_eq_true_eq, evenEdges_iff]
    constructor
    · rintro ⟨length, low, high, each⟩
      exact ⟨by omega, ⟨low, high⟩, fun i hi => (scale _).2 (each i (by omega))⟩
    · rintro ⟨length, ⟨low, high⟩, each⟩
      exact ⟨by omega, low, high, fun i hi => (scale _).1 (each i (by omega))⟩
  rw [Beat.train, seen, ← hs]
  by_cases enough : edges.length < 8
  · rw [if_pos enough, if_neg fun h => (iff.1 h).1 enough]
  · rw [if_neg enough]
    by_cases good : (periodInRange sum && evenEdges edges sum) = true
    · rw [if_pos good, if_pos (iff.2 ⟨enough, good⟩)]
    · rw [if_neg good, if_neg fun h => good (iff.1 h).2]

/-! ### The lock (R49, R51) -/

/-- R48, R49, R51: the period, LOCKED and the beat number stored, and the train of edges forgotten. -/
def State.lockStored (s : State) (t sum n : Nat) : State :=
  { (s.setPeriod sum).setFs [(Reg.CRS_STATUS.LOCKED, 1), (Reg.CRS_BEAT_COUNT.BEATS, n)] with
    beat := { s.beat with period7 := sum, edges := [], lastEdge := 7 * t, missed := 0, holdBeats := 0, pulling := false } }

/-- R49, R51: the beat number the time base gives, or the BEAT flit. -/
def State.beatNumber (s : State) : Option Nat → Nat
  | some n => n % 2 ^ 32
  | none => roundEven s.timeBase (s.getF Reg.CRS_BEAT_NOM.NOM_NS)

/-- R49: the state in which the first ridge falls. -/
def State.lockReady (s : State) (t sum n : Nat) : State := ((s.lockStored t sum n).dropLine 41).sendBeats

theorem State.lock_eq (s : State) (t sum : Nat) (beat : Option Nat) :
    s.lock t sum beat = (s.lockReady t sum (s.beatNumber beat)).ridge .first := by
  cases beat <;> rfl

theorem State.lockStored_canon {s : State} (c : s.Canon) (t sum n : Nat) : (s.lockStored t sum n).Canon := by
  have stored := (State.setFs_kept _ [(Reg.CRS_STATUS.LOCKED, 1), (Reg.CRS_BEAT_COUNT.BEATS, n)]
    (State.setF_kept s Reg.CRS_BEAT_PERIOD.PERIOD_NS (roundEven sum 7000) ⟨c, rfl, rfl⟩)).canon
  exact ⟨stored.hbm, stored.loft, stored.rstore, stored.acc, stored.regs⟩

theorem State.lockStored_fields {s : State} (c : s.Canon) (t sum n : Nat) :
    (s.lockStored t sum n).getF Reg.CRS_STATUS.LOCKED = 1 ∧
      (s.lockStored t sum n).getF Reg.CRS_BEAT_PERIOD.PERIOD_NS = roundEven sum 7000 % 2 ^ 24 ∧
      (s.lockStored t sum n).getF Reg.CRS_BEAT_COUNT.BEATS = n % 2 ^ 64 ∧
      s.fieldsKept (s.lockStored t sum n) [Reg.CRS_BEAT_PERIOD.PERIOD_NS, Reg.CRS_STATUS.LOCKED, Reg.CRS_BEAT_COUNT.BEATS] := by
  have same (f : Fld) : (s.lockStored t sum n).getF f = ((s.setF Reg.CRS_BEAT_PERIOD.PERIOD_NS (roundEven sum 7000)).setFs
    [(Reg.CRS_STATUS.LOCKED, 1), (Reg.CRS_BEAT_COUNT.BEATS, n)]).getF f := rfl
  simp only [same, State.fieldsKept]
  have period := State.getF_setF s Reg.CRS_BEAT_PERIOD.PERIOD_NS (roundEven sum 7000) c.regs
  have onlyPeriod := (State.setF_only s Reg.CRS_BEAT_PERIOD.PERIOD_NS (roundEven sum 7000) c.regs).1
  have rising := State.setF_rising s Reg.CRS_BEAT_PERIOD.PERIOD_NS (roundEven sum 7000) c.regs
  generalize s.setF Reg.CRS_BEAT_PERIOD.PERIOD_NS (roundEven sum 7000) = u at period onlyPeriod rising ⊢
  have fields := State.getF_setFs_mem u [(Reg.CRS_STATUS.LOCKED, 1), (Reg.CRS_BEAT_COUNT.BEATS, n)] rising (by simp +arith)
  have only := (State.setFs_only u [(Reg.CRS_STATUS.LOCKED, 1), (Reg.CRS_BEAT_COUNT.BEATS, n)] rising).1
  refine ⟨fields _ (.head _), (only _ (by simp +arith)).trans period, fields _ (.tail _ (.head _)), fun f apart => ?_⟩
  simp only [List.forall_mem_cons, List.not_mem_nil, false_imp_iff, implies_true, and_true] at apart
  obtain ⟨notPeriod, notLocked, notBeats⟩ := apart
  exact (only f (by simp [notLocked, notBeats])).trans (onlyPeriod f (by simp [notPeriod]))

/-- The line of a condition that has ended reads 0 in FLT_LINES. -/
theorem State.dropLine_fields {s : State} (c : s.Canon) {b : Nat} (fits : b < Reg.FLT_LINES.LINES.w) :
    ((s.dropLine b).getF Reg.FLT_LINES.LINES).testBit b = false ∧ s.fieldsKept (s.dropLine b) [Reg.FLT_LINES.LINES] ∧
      (s.dropLine b).beat = s.beat := by
  unfold State.dropLine State.clrBit
  cases up : (s.getF Reg.FLT_LINES.LINES).testBit b with
  | false => exact ⟨by simpa using up, fun _ _ => rfl, rfl⟩
  | true =>
    refine ⟨?_, (State.setF_only s _ _ c.regs).1, rfl⟩
    rw [if_pos rfl, State.getF_setF s _ _ c.regs, Nat.testBit_mod_two_pow, decide_eq_true fits, Bool.true_and, Nat.one_shiftLeft]
    have quotient : (s.getF Reg.FLT_LINES.LINES - 2 ^ b) / 2 ^ b = s.getF Reg.FLT_LINES.LINES / 2 ^ b - 1 := by
      simpa using Nat.sub_mul_div (s.getF Reg.FLT_LINES.LINES) (2 ^ b) 1
    rw [Nat.testBit_eq_decide_div_mod_eq, decide_eq_true_eq] at up
    rw [Nat.testBit_eq_decide_div_mod_eq, decide_eq_false_iff_not, quotient]
    omega

theorem State.lockReady_fields {s : State} (c : s.Canon) (t sum n : Nat) :
    (s.lockReady t sum n).Canon ∧ (s.lockReady t sum n).now = s.now ∧
      (s.lockReady t sum n).beat =
        { s.beat with period7 := sum, edges := [], lastEdge := 7 * t, missed := 0, holdBeats := 0, pulling := false } ∧
      (s.lockReady t sum n).getF Reg.CRS_STATUS.LOCKED = 1 ∧
      (s.lockReady t sum n).getF Reg.CRS_BEAT_PERIOD.PERIOD_NS = roundEven sum 7000 % 2 ^ 24 ∧
      (s.lockReady t sum n).getF Reg.CRS_BEAT_COUNT.BEATS = n % 2 ^ 64 ∧
      (s.lockReady t sum n).getF Reg.CRS_RIDGE_COUNT.RIDGES = s.getF Reg.CRS_RIDGE_COUNT.RIDGES ∧
      ((s.lockReady t sum n).getF Reg.FLT_LINES.LINES).testBit 41 = false := by
  have storedCanon := State.lockStored_canon c t sum n
  obtain ⟨locked, period, beats, stored⟩ := State.lockStored_fields c t sum n
  have clock : (s.lockStored t sum n).now = s.now := rfl
  have beat : (s.lockStored t sum n).beat =
    { s.beat with period7 := sum, edges := [], lastEdge := 7 * t, missed := 0, holdBeats := 0, pulling := false } := rfl
  have ridges := stored Reg.CRS_RIDGE_COUNT.RIDGES (by decide)
  unfold State.lockReady
  generalize s.lockStored t sum n = u at storedCanon locked period beats clock beat ridges ⊢
  have droppedKept := State.dropLine_kept u 41 ⟨storedCanon, rfl, rfl⟩
  obtain ⟨line, dropped, sameBeat⟩ := State.dropLine_fields storedCanon (b := 41) (by decide)
  generalize u.dropLine 41 = v at droppedKept line dropped sameBeat ⊢
  have sentKept := State.sendBeats_kept v droppedKept
  have sent : v.sendBeats.beatView = v.beatView := State.beatView_of_inner v.inner_sendBeats
  have fields (f : Fld) (hf : beatKey f.key = true) : v.sendBeats.getF f = v.getF f :=
    State.getF_of_regsOn (congrArg Prod.snd sent) droppedKept.canon.regs sentKept.canon.regs hf
  refine ⟨sentKept.canon, sentKept.clock.trans clock, (congrArg Prod.fst sent).trans (sameBeat.trans beat),
    (fields _ rfl).trans ((dropped _ (by decide)).trans locked), (fields _ rfl).trans ((dropped _ (by decide)).trans period),
    (fields _ rfl).trans ((dropped _ (by decide)).trans beats), (fields _ rfl).trans ((dropped _ (by decide)).trans ridges), ?_⟩
  rw [fields _ rfl]
  exact line

/-! ### An edge while the module looks for a beat (R48) -/

theorem State.beatEdge_unlocked {s : State} (ready : s.ready = true) (unlocked : s.getF Reg.CRS_STATUS.LOCKED = 0) (t : Nat) (beat : Option Nat) :
    s.beatEdge t beat = s.seekEdge t beat := by
  rw [State.beatEdge, ready, State.on_eq_false unlocked]
  rfl

/-- The edge remembered. -/
def State.remember (s : State) (edges : List Nat) : State := { s with beat := { s.beat with edges := edges } }

theorem State.seekEdge_eq {s : State} {t : Nat} {edges : List Nat} (he : edges = (t :: s.beat.edges).take 8)
    (steady : s.getF Reg.CRS_STATUS.HOLDOVER = 0) (beat : Option Nat) {nom : Nat} (hn : nom = s.getF Reg.CRS_BEAT_NOM.NOM_NS) :
    s.seekEdge t beat = match (s.beat.see t).train with
      | none => s.remember edges
      | some sum =>
        if !nearNominal sum nom then (s.remember edges).setF Reg.CRS_STATUS.LOCK_ERR 1
        else if !nominalOk nom then s.remember edges
        else (s.remember edges).lock t sum beat := by
  subst he hn
  have notHeld : (s.remember ((t :: s.beat.edges).take 8)).on Reg.CRS_STATUS.HOLDOVER = false := State.on_eq_false steady
  rw [State.seekEdge]
  have seen : ({ s with beat := s.beat.see t } : State) = s.remember ((t :: s.beat.edges).take 8) := rfl
  simp only [seen, notHeld]
  rfl

theorem State.remember_canon {s : State} (c : s.Canon) (edges : List Nat) : (s.remember edges).Canon := ⟨c.hbm, c.loft, c.rstore, c.acc, c.regs⟩

/-- Settles O15: the train of edges decides, and the lock is followed through its first ridge, which keeps what is claimed of the beat. -/
theorem lockAtTheEighthEdge : Obligations.LockAtTheEighthEdge := by
  intro s frac up c unlocked steady i e loaded given edges sum nom he hs hn even heven
  have ready := State.coreUp_ready up
  have run : exec i s = .next (s.seekEdge e loaded) := by
    rcases given with ⟨pin, rfl, rfl, rfl⟩ | ⟨p, n, hp, src, port, portUp, rfl, rfl, rfl⟩
    · rw [show exec (.beatEdge frac) s = .next (beatEdge frac s) from onCore_up _ s up, beatEdge, if_pos pin,
        State.beatEdge_unlocked ready unlocked]
    · rw [show exec (.beatFlit p n frac) s = .next (beatFlit p n frac s) from onCore_up _ s up, beatFlit_inForce hp src port portUp,
        State.beatEdge_unlocked ready unlocked]
  rw [State.seekEdge_eq he steady loaded hn, s.beat.train_see e he hs heven] at run
  have near : nearNominal sum nom = decide (((sum : Int) - 7000 * nom).natAbs * 1000000 ≤ 500 * (7000 * nom)) := rfl
  have inRange : nominalOk nom = decide (100000 ≤ nom ∧ nom ≤ 10000000) := rfl
  refine ⟨fun short => ?_, fun full far => ?_, fun full close out => ?_, fun full close low high => ?_⟩
  · rw [run, if_neg (by rw [short]; decide)]
    rfl
  · rw [if_pos full] at run
    have notNear : nearNominal sum nom = false := by rw [near]; exact decide_eq_false (Nat.not_le.2 far)
    simp only [notNear] at run
    exact ⟨_, run, State.getF_setF (s.remember edges) _ _ c.regs, State.setF_only s _ 1 c.regs, rfl⟩
  · rw [if_pos full] at run
    have isNear : nearNominal sum nom = true := by rw [near]; exact decide_eq_true close
    have notOk : nominalOk nom = false := by rw [inRange]; exact decide_eq_false (by omega)
    simp only [isNear, notOk] at run
    exact run
  · rw [if_pos full] at run
    have isNear : nearNominal sum nom = true := by rw [near]; exact decide_eq_true close
    have ok : nominalOk nom = true := by rw [inRange]; exact decide_eq_true ⟨low, high⟩
    simp only [isNear, ok, Bool.not_true, Bool.false_eq_true, if_false] at run
    have remembered := State.remember_canon c edges
    obtain ⟨canon, now, beat, locked, period, beats, ridges, line⟩ :=
      State.lockReady_fields remembered e sum ((s.remember edges).beatNumber loaded)
    rw [State.lock_eq] at run
    generalize (s.remember edges).lockReady e sum ((s.remember edges).beatNumber loaded) = u at run canon now beat locked period beats ridges line
    obtain ⟨ridgeBeat, counted, kept⟩ := State.ridge_beat canon .first
    have positive : 0 < nom := by omega
    obtain ⟨nearPeriod, tiePeriod⟩ := roundEven_nearest sum (d := 7000) (by decide)
    obtain ⟨nearBeat, tieBeat⟩ := roundEven_nearest s.timeBase positive
    refine ⟨_, roundEven sum 7000, roundEven s.timeBase nom, run, (kept _ rfl (by decide)).trans locked, ?_,
      (kept _ rfl (by decide)).trans period, nearPeriod, tiePeriod, ((kept _ rfl (by decide)).trans beats).trans ?_, nearBeat, tieBeat,
      counted.trans (congrArg (fun x => (x + 1) % 2 ^ 64) ridges), ?_, ?_, ?_, ?_, ?_⟩
    · rw [ridgeBeat, beat]
    · cases loaded with
      | none => rw [hn]; rfl
      | some n => exact Nat.mod_eq_of_lt ((Nat.mod_lt n (by decide)).trans (by decide))
    · rw [ridgeBeat, now]
      rfl
    · rw [ridgeBeat, beat]
    · rw [ridgeBeat, beat]
    · rw [ridgeBeat, beat]
    · rw [kept _ rfl (by decide)]
      exact line

end Sys2Proof.Machine
end

section
/-! SUPPORT. Tables and registers of the host attachment read back, and the part of the state that a record posted, data moved, a course that
fails and a line that rises leave alone. -/

namespace Sys2Proof.Machine

/-! ### Tables -/

theorem SMap.put_below {α : Type} [DecidableEq α] (d : α) (k : Nat) (v : α) (m : SMap α) (a : SMap.above k m = true) :
    SMap.put d k v m = if v = d then m else (k, v) :: m := by
  cases m with
  | nil => rfl
  | cons x t =>
    simp only [SMap.above, Bool.and_eq_true, decide_eq_true_eq] at a
    rw [SMap.put, if_pos a.1]

theorem SMap.put_front {α : Type} [DecidableEq α] (d : α) (k : Nat) (v u : α) (m : SMap α) :
    SMap.put d k v ((k, u) :: m) = if v = d then m else (k, v) :: m := by
  rw [SMap.put, if_neg (Nat.lt_irrefl k), if_pos rfl]

/-- Of two values put at a place the second stands. -/
theorem SMap.put_put {α : Type} [DecidableEq α] (d : α) (k : Nat) (v u : α) (m : SMap α) (w : SMap.rising m = true) :
    SMap.put d k v (SMap.put d k u m) = SMap.put d k v m := by
  have twice (t : SMap α) (a : SMap.above k t = true) : SMap.put d k v (if u = d then t else (k, u) :: t) = if v = d then t else (k, v) :: t := by
    split
    · exact SMap.put_below d k v t a
    · exact SMap.put_front d k v u t
  induction m with
  | nil => exact twice [] rfl
  | cons x t ih =>
    obtain ⟨j, y⟩ := x
    simp only [SMap.rising, Bool.and_eq_true] at w
    rcases Nat.lt_trichotomy k j with below | rfl | beyond
    · have a : SMap.above k ((j, y) :: t) = true := by
        simp [SMap.above, below, SMap.above_mono (Nat.le_of_lt below) t w.1]
      rw [SMap.put_below d k u _ a, SMap.put_below d k v _ a]
      exact twice _ a
    · rw [SMap.put_front, SMap.put_front]
      exact twice t w.1
    · have past (z : α) (t : SMap α) : SMap.put d k z ((j, y) :: t) = (j, y) :: SMap.put d k z t := by
        rw [SMap.put, if_neg (by omega), if_neg (by omega)]
      rw [past, past, past, ih w.2]

theorem State.ring_setRing {s : State} (r : Nat) (x : Ring) (w : SMap.rising s.rings = true) : (s.setRing r x).ring r = x :=
  SMap.look_put_same _ _ _ _ w

theorem State.setRing_rising {s : State} (r : Nat) (x : Ring) (w : SMap.rising s.rings = true) : SMap.rising (s.setRing r x).rings = true :=
  SMap.put_rising _ _ _ _ w

theorem State.setRing_setRing {s : State} (r : Nat) (x y : Ring) (w : SMap.rising s.rings = true) :
    (s.setRing r x).setRing r y = s.setRing r y := congrArg (fun m => { s with rings := m }) (SMap.put_put _ _ _ _ _ w)

theorem State.target_setTarget {s : State} (t : Nat) (x : Target) (w : SMap.rising s.targets = true) : (s.setTarget t x).target t = x :=
  SMap.look_put_same _ _ _ _ w

theorem State.target_setTarget_other {s : State} {t u : Nat} (x : Target) (w : SMap.rising s.targets = true) (h : t ≠ u) :
    (s.setTarget u x).target t = s.target t := SMap.look_put_other _ _ _ _ _ _ w h

theorem State.setTarget_rising {s : State} (t : Nat) (x : Target) (w : SMap.rising s.targets = true) :
    SMap.rising (s.setTarget t x).targets = true := SMap.put_rising _ _ _ _ w

theorem State.setTarget_setTarget {s : State} (t : Nat) (x y : Target) (w : SMap.rising s.targets = true) :
    (s.setTarget t x).setTarget t y = s.setTarget t y := congrArg (fun m => { s with targets := m }) (SMap.put_put _ _ _ _ _ w)

@[simp] theorem State.getF_setRing (s : State) (r : Nat) (x : Ring) (f : Fld) : (s.setRing r x).getF f = s.getF f := rfl
@[simp] theorem State.getF_setTarget (s : State) (t : Nat) (x : Target) (f : Fld) : (s.setTarget t x).getF f = s.getF f := rfl
@[simp] theorem State.getF_msi (s : State) (v : Nat) (f : Fld) : (s.msi v).getF f = s.getF f := rfl

theorem State.getF_sendCxl (s : State) (kind : CxlKind) (a n : Nat) (f : Fld) : (s.sendCxl kind a n).getF f = s.getF f := by
  unfold State.sendCxl
  split <;> rfl

theorem State.setF_fields {s : State} (f : Fld) (v : Nat) (c : s.Canon) : s.fieldsKept (s.setF f v) [f] := (State.setF_only s f v c.regs).1

theorem State.setFs_fields {s : State} (l : List (Fld × Nat)) (c : s.Canon) : s.fieldsKept (s.setFs l) (l.map Prod.fst) :=
  (State.setFs_only s l c.regs).1

theorem State.setFs_canon {s : State} (l : List (Fld × Nat)) (c : s.Canon) : (s.setFs l).Canon := (State.setFs_kept s l ⟨c, rfl, rfl⟩).canon

theorem State.fieldsKept_trans {s t u : State} {fs gs : List Fld} (h : s.fieldsKept t fs) (k : t.fieldsKept u gs) :
    s.fieldsKept u (fs ++ gs) := fun f hf =>
  (k f fun g hg => hf g (List.mem_append_right _ hg)).trans (h f fun g hg => hf g (List.mem_append_left _ hg))

theorem State.fieldsKept_mono {s t : State} {fs gs : List Fld} (h : s.fieldsKept t fs) (sub : ∀ f ∈ fs, f ∈ gs) : s.fieldsKept t gs :=
  fun f hf => h f fun g hg => hf g (sub g hg)

/-! ### The view -/

/-- The registers of the host attachment, with the states of the snapshot slots: all but HIF_APT_FAULT and HIF_HL_LOST, and of a ring's all but
ERR, ERR_CODE and CQ_TAIL, which a record may write. -/
def hostKey (k : Nat) : Bool :=
  decide (8388608 ≤ k ∧ k < 8391168 ∨ 8391680 ≤ k ∧ k < 8394240 ∨
    10485760 ≤ k ∧ k < 12582912 ∧ k % 2048 ≠ 1282 ∧ k % 2048 ≠ 1288 ∧ k % 2048 ≠ 1568 ∨
    58728448 ≤ k ∧ k ≤ 58731520 ∧ k % 1024 = 0)

/-- Quiesce targets, suspension, bias table, translation cache, self-reset, snapshot operations, and the registers of `hostKey`. -/
def State.hostView (s : State) : SMap Target × Bool × List Nat × List (Nat × W64) × Bool × List SvlOp × SMap Nat :=
  (s.targets, s.suspended, s.shared, s.aptCache, s.selfReset, s.svlOps, s.regsOn hostKey)

theorem State.getF_of_hostView {s t : State} (h : t.hostView = s.hostView) (cs : s.Canon) (ct : t.Canon) {f : Fld}
    (hf : hostKey f.key = true) : t.getF f = s.getF f :=
  State.getF_of_regsOn (congrArg (fun x => x.2.2.2.2.2.2) h) cs.regs ct.regs hf

@[simp] theorem State.hostView_setF {s : State} {f : Fld} {v : Nat} (h : hostKey f.key = false) : (s.setF f v).hostView = s.hostView := by
  rw [State.hostView, State.regsOn_setF s hostKey f v h]
  rfl

@[simp] theorem State.hostView_bump {s : State} {f : Fld} {n : Nat} (h : hostKey f.key = false) : (s.bump f n).hostView = s.hostView :=
  State.hostView_setF h

@[simp] theorem State.hostView_setBit {s : State} {f : Fld} {b : Nat} (h : hostKey f.key = false) : (s.setBit f b).hostView = s.hostView :=
  State.hostView_setF h

@[simp] theorem State.hostView_clrBit {s : State} {f : Fld} {b : Nat} (h : hostKey f.key = false) : (s.clrBit f b).hostView = s.hostView := by
  unfold State.clrBit
  split
  · exact State.hostView_setF h
  · rfl

@[simp] theorem State.hostView_setFs {s : State} {l : List (Fld × Nat)} (h : ∀ x ∈ l, hostKey x.1.key = false) :
    (s.setFs l).hostView = s.hostView := by
  induction l generalizing s with
  | nil => rfl
  | cons x t ih =>
    rw [State.setFs_cons, ih fun y hy => h y (List.mem_cons_of_mem _ hy), State.hostView_setF (h x List.mem_cons_self)]

@[simp] theorem State.hostView_each {α : Type} {s : State} {xs : List α} {f : State → α → State} (h : ∀ s x, (f s x).hostView = s.hostView) :
    (s.each xs f).hostView = s.hostView := by
  unfold State.each
  induction xs generalizing s with
  | nil => rfl
  | cons x t ih => exact ih.trans (h s x)

theorem hostKey_of_ring (r b : Nat) (h : b % 2048 ∈ [1282, 1288, 1568]) : hostKey ((0x28000 + r * 0x20) * 64 + b) = false := by
  simp only [List.mem_cons, List.not_mem_nil, or_false] at h
  simp only [hostKey, decide_eq_false_iff_not]
  omega

/-- Two states reach the host alike when the link's flags and the self-reset are alike. -/
theorem State.hostReachable_congr {s t : State} (up : t.getF Reg.HIF_STATUS.LINK_UP = s.getF Reg.HIF_STATUS.LINK_UP)
    (lost : t.getF Reg.HIF_STATUS.HOST_LOST = s.getF Reg.HIF_STATUS.HOST_LOST) (due : t.selfReset = s.selfReset) :
    t.hostReachable = s.hostReachable := by
  rw [State.hostReachable, State.hostReachable, State.on, State.on, State.on, State.on, up, lost, due]

/-! ### Records (R113 to R116, R122) -/

@[simp] theorem State.hostView_setRing (s : State) (r : Nat) (x : Ring) : (s.setRing r x).hostView = s.hostView := rfl
@[simp] theorem State.hostView_setPort (s : State) (p : Nat) (x : Port) : (s.setPort p x).hostView = s.hostView := rfl
@[simp] theorem State.hostView_msi (s : State) (v : Nat) : (s.msi v).hostView = s.hostView := rfl
@[simp] theorem State.hostView_nextFree (s : State) : s.nextFree.hostView = s.hostView := rfl

@[simp] theorem State.hostView_coalesce (s : State) (r : Nat) : (s.coalesce r).hostView = s.hostView := by
  unfold State.coalesce
  split <;> rfl

@[simp] theorem State.hostView_sendCxl (s : State) (kind : CxlKind) (a n : Nat) : (s.sendCxl kind a n).hostView = s.hostView := by
  unfold State.sendCxl
  split <;> rfl

theorem hostKey_cqTail (r : Nat) : hostKey (Reg.HIF_RING_PTR.CQ_TAIL r).key = false := by
  simpa [Nat.add_mul, Nat.add_assoc] using hostKey_of_ring r 1568 (by decide)

theorem hostKey_err (r : Nat) : hostKey (Reg.HIF_RING_STAT.ERR r).key = false := by
  simpa [Nat.add_mul, Nat.add_assoc] using hostKey_of_ring r 1282 (by decide)

theorem hostKey_errCode (r : Nat) : hostKey (Reg.HIF_RING_STAT.ERR_CODE r).key = false := by
  simpa [Nat.add_mul, Nat.add_assoc] using hostKey_of_ring r 1288 (by decide)

@[simp] theorem State.hostView_writeRec (s : State) (c : CRec) : (s.writeRec c).hostView = s.hostView := by
  rw [State.writeRec, State.hostView_coalesce, State.hostView_setRing, State.hostView_setF (hostKey_cqTail c.ring), State.hostView_sendCxl]
  rfl

@[simp] theorem State.hostView_killCq (s : State) (r : Nat) : (s.killCq r).hostView = s.hostView := by
  rw [State.killCq, State.hostView_setRing, State.setFs_cons, State.setFs_cons, State.setFs_nil, State.hostView_setF (hostKey_errCode r),
    State.hostView_setF (hostKey_err r)]

@[simp] theorem State.hostView_post (s : State) (c : CRec) : (s.post c).hostView = s.hostView := by
  have lost (n : Nat) : (s.bump Reg.HIF_HL_LOST.LOST n).hostView = s.hostView := State.hostView_bump rfl
  unfold State.post
  split_ifs
  · exact lost 1
  · rfl
  · exact lost 1
  · exact s.hostView_writeRec c
  · exact s.hostView_killCq c.ring

@[simp] theorem State.hostView_flushEnd (s : State) (r : Nat) : (s.flushEnd r).hostView = s.hostView := by
  dsimp only [State.flushEnd]
  split
  · split <;> simp
  · rfl

@[simp] theorem State.hostView_flushRecs (s : State) (r : Nat) (qs : List Req) : (s.flushRecs r qs).hostView = s.hostView := by
  induction qs generalizing s with
  | nil => rfl
  | cons q qs ih =>
    unfold State.flushRecs
    split
    · rfl
    · rw [ih, State.hostView_post, State.hostView_setRing]

@[simp] theorem State.hostView_complete (s : State) (q : Req) (status detail : Nat) : (s.complete q status detail).hostView = s.hostView := by
  dsimp only [State.complete]
  split <;> simp

@[simp] theorem State.hostView_finish (s : State) (q : Req) (status : Nat) : (s.finish q status).hostView = s.hostView := by
  simp [State.finish]

@[simp] theorem State.hostView_endRing (s : State) (r code seq : Nat) : (s.endRing r code seq).hostView = s.hostView := by
  have set : (s.setFs [(Reg.HIF_RING_STAT.ERR r, 1), (Reg.HIF_RING_STAT.ERR_CODE r, code)]).hostView = s.hostView := by
    simp only [State.setFs_cons, State.setFs_nil, State.hostView_setF (hostKey_errCode r), State.hostView_setF (hostKey_err r)]
  dsimp only [State.endRing]
  split_ifs <;> simpa using set

end Sys2Proof.Machine
end

section
/-! SUPPORT. Doorbells (R117 to R120), and the registers of a ring that a record or the end of the ring writes (R113 to R116, R122). -/

namespace Sys2Proof.Machine

/-! ### What a record writes -/

@[simp] theorem State.getF_coalesce (s : State) (r : Nat) (f : Fld) : (s.coalesce r).getF f = s.getF f := by
  unfold State.coalesce
  split <;> rfl

theorem State.writeRec_fields {s : State} (k : s.Canon) (c : CRec) : s.fieldsKept (s.writeRec c) [Reg.HIF_RING_PTR.CQ_TAIL c.ring] := by
  intro f hf
  have canon : (({ s with hostOut := s.hostOut ++ [(⟨s.getF (Reg.HIF_RING_CQ.BASE c.ring) * 4096 + s.getF (Reg.HIF_RING_PTR.CQ_TAIL c.ring) * 32,
    c.bytes (s.ring c.ring).cqPhase (s.getF (Reg.HIF_RING_PTR.SQ_HEAD c.ring)) s.timeBase⟩ : HostWrite)] } : State)).Canon :=
    ⟨k.hbm, k.loft, k.rstore, k.acc, k.regs⟩
  rw [State.writeRec, State.getF_coalesce, State.getF_setRing,
    State.getF_setF_other _ _ _ _ (State.sendCxl_kept _ .wrCur _ 32 ⟨canon, rfl, rfl⟩).canon.regs (hf _ List.mem_cons_self), State.getF_sendCxl]
  rfl

/-- A record that no unreachable host refuses writes CQ_TAIL of its ring, or counts in HIF_HL_LOST. -/
theorem State.post_fields {s : State} (k : s.Canon) (c : CRec) (open_ : s.hostReachable = true ∨ s.suspended = true) :
    s.fieldsKept (s.post c) [Reg.HIF_RING_PTR.CQ_TAIL c.ring, Reg.HIF_HL_LOST.LOST] := by
  have lost : s.fieldsKept (s.bump Reg.HIF_HL_LOST.LOST 1) [Reg.HIF_RING_PTR.CQ_TAIL c.ring, Reg.HIF_HL_LOST.LOST] :=
    State.fieldsKept_mono (State.setF_fields _ _ k) (by simp)
  unfold State.post
  split_ifs with dead held room reach
  · exact lost
  · exact fun _ _ => rfl
  · exact lost
  · exact State.fieldsKept_mono (State.writeRec_fields k c) (by simp)
  · exact absurd open_ (by simp [held, reach])

/-- No record clears the ERR of a ring. -/
theorem State.post_err {s : State} (k : s.Canon) (c : CRec) {r : Nat} (err : s.getF (Reg.HIF_RING_STAT.ERR r) = 1) :
    (s.post c).getF (Reg.HIF_RING_STAT.ERR r) = 1 := by
  by_cases open_ : s.hostReachable = true ∨ s.suspended = true
  · rw [State.post_fields k c open_ (Reg.HIF_RING_STAT.ERR r) (by simp; omega), err]
  · simp only [not_or, Bool.not_eq_true] at open_
    obtain ⟨unreached, running⟩ := open_
    unfold State.post
    split_ifs with dead held room reach
    · exact (State.setF_fields _ _ k (Reg.HIF_RING_STAT.ERR r) (by simp; omega)).trans err
    · exact absurd held (by simp [running])
    · exact absurd held (by simp [running])
    · exact absurd reach (by simp [unreached])
    · by_cases same : r = c.ring
      · subst same
        exact State.getF_setFs_mem s _ k.regs (by simp) (Reg.HIF_RING_STAT.ERR c.ring, 1) (by simp)
      · exact (State.getF_setFs_other s _ _ k.regs (by simp; omega)).trans err

/-! ### The end of a ring -/

theorem State.flushEnd_cases (s : State) (r : Nat) :
    s.flushEnd r = s ∨ ∃ (rings : SMap Ring) (c : CRec), s.flushEnd r = { s with rings := rings }.post c := by
  dsimp only [State.flushEnd]
  split
  · split
    · exact .inr ⟨_, _, rfl⟩
    · exact .inl rfl
  · exact .inl rfl

/-- R122: ERR and ERR_CODE set, then at most one record. -/
theorem State.endRing_cases (s : State) (r code seq : Nat) : ∃ (rings : SMap Ring) (n : Nat) (u : State),
    u = { s.setFs [(Reg.HIF_RING_STAT.ERR r, 1), (Reg.HIF_RING_STAT.ERR_CODE r, code)] with rings := rings, freeCtr := n } ∧
      (s.endRing r code seq = u ∨ ∃ c, s.endRing r code seq = u.post c) := by
  dsimp only [State.endRing]
  split_ifs
  · exact ⟨_, _, _, rfl, .inl rfl⟩
  · exact ⟨_, _, _, rfl, .inr ⟨_, rfl⟩⟩
  · rcases State.flushEnd_cases (State.setRing (State.nextFree (s.setFs _)) r _) r with kept | ⟨rings, c, posted⟩
    · exact ⟨_, _, _, rfl, .inl kept⟩
    · exact ⟨_, _, _, rfl, .inr ⟨c, posted⟩⟩

theorem State.endRing_fields {s : State} (k : s.Canon) (r code seq : Nat) :
    (s.endRing r code seq).getF (Reg.HIF_RING_STAT.ERR r) = 1 ∧
      (s.hostReachable = true ∨ s.suspended = true → (s.endRing r code seq).getF (Reg.HIF_RING_STAT.ERR_CODE r) = code % 2 ^ 8) := by
  obtain ⟨rings, n, u, hu, ends⟩ := s.endRing_cases r code seq
  have written := State.getF_setFs_mem s [(Reg.HIF_RING_STAT.ERR r, 1), (Reg.HIF_RING_STAT.ERR_CODE r, code)] k.regs (by simp)
  have kept := State.setFs_fields [(Reg.HIF_RING_STAT.ERR r, 1), (Reg.HIF_RING_STAT.ERR_CODE r, code)] k
  have canon : u.Canon := by
    have canon := State.setFs_canon [(Reg.HIF_RING_STAT.ERR r, 1), (Reg.HIF_RING_STAT.ERR_CODE r, code)] k
    rw [hu]
    exact ⟨canon.hbm, canon.loft, canon.rstore, canon.acc, canon.regs⟩
  have err : u.getF (Reg.HIF_RING_STAT.ERR r) = 1 := by
    rw [hu]
    exact written (Reg.HIF_RING_STAT.ERR r, 1) (by simp)
  have code' : u.getF (Reg.HIF_RING_STAT.ERR_CODE r) = code % 2 ^ 8 := by
    rw [hu]
    exact written (Reg.HIF_RING_STAT.ERR_CODE r, code) (by simp)
  have reach : u.hostReachable = s.hostReachable := by
    rw [hu]
    exact State.hostReachable_congr (kept _ (by simp; omega)) (kept _ (by simp; omega)) rfl
  have suspended : u.suspended = s.suspended := by rw [hu]; rfl
  rcases ends with ends | ⟨c, ends⟩ <;> rw [ends]
  · exact ⟨err, fun _ => code'⟩
  · refine ⟨State.post_err canon c err, fun open_ => ?_⟩
    rw [State.post_fields canon c (by rwa [reach, suspended]) _ (by simp; omega), code']

/-! ### Errors of doorbells (R119, R120) -/

/-- A doorbell error writes its flag and RING, and signals at most one vector. -/
theorem State.doorbellError_fields {s : State} (k : s.Canon) {f : Fld} (one : f.w = 1) (apart : f.key ≠ Reg.HIF_DB_ERR.RING.key)
    {r : Nat} (hr : r < 1024) :
    (s.doorbellError f r).getF f = 1 ∧ (s.doorbellError f r).getF Reg.HIF_DB_ERR.RING = r ∧
      s.fieldsKept (s.doorbellError f r) [f, Reg.HIF_DB_ERR.RING] ∧ { s.doorbellError f r with regs := s.regs, msiOut := s.msiOut } = s := by
  have regs : (s.doorbellError f r).regs = (s.setFs [(f, 1), (Reg.HIF_DB_ERR.RING, r)]).regs := by
    dsimp only [State.doorbellError]
    split <;> rfl
  have read (g : Fld) : (s.doorbellError f r).getF g = (s.setFs [(f, 1), (Reg.HIF_DB_ERR.RING, r)]).getF g := by
    rw [State.getF, State.getF, regs]
  have written := State.getF_setFs_mem s [(f, 1), (Reg.HIF_DB_ERR.RING, r)] k.regs (by simpa using apart)
  refine ⟨?_, ?_, fun g hg => ?_, ?_⟩
  · rw [read, written (f, 1) (by simp), one]
    rfl
  · rw [read, written (Reg.HIF_DB_ERR.RING, r) (by simp)]
    exact Nat.mod_eq_of_lt hr
  · rw [read]
    exact State.setFs_fields _ k g (by simpa using hg)
  · dsimp only [State.doorbellError]
    split <;> rfl

theorem State.doorbellError_canon {s : State} (k : s.Canon) (f : Fld) (r : Nat) : (s.doorbellError f r).Canon :=
  (State.doorbellError_kept s f r ⟨k, rfl, rfl⟩).canon

/-! ### Writes of BAR2 (R117, R118) -/

theorem execSqDoorbell_up {s : State} (up : s.hubUp) (off n : Nat) (v : W64) : exec (.sqDoorbell off n v) s = .next (bar2Write off n v s) :=
  onHub_up _ s up

theorem execCqDoorbell_up {s : State} (up : s.hubUp) (off n : Nat) (v : W64) : exec (.cqDoorbell off n v) s = .next (bar2Write off n v s) :=
  onHub_up _ s up

theorem bar2Write_sq {s : State} (ready : s.ready = true) {r : Nat} (hr : r < 1024) (v : W64) :
    bar2Write (r * 0x1000) 8 v s = sqDoorbell r v s := by
  dsimp only [bar2Write]
  rw [if_neg (by rw [ready, Nat.mul_div_cancel _ (by decide)]; simpa using hr), if_pos (by omega), Nat.mul_div_cancel _ (by decide)]

theorem bar2Write_cq {s : State} (ready : s.ready = true) {r : Nat} (hr : r < 1024) (v : W64) :
    bar2Write (r * 0x1000 + 8) 8 v s = cqDoorbell r v s := by
  have page : (r * 0x1000 + 8) / 0x1000 = r := by omega
  dsimp only [bar2Write]
  rw [page, if_neg (by rw [ready]; simpa using hr), if_neg (by omega), if_pos (by omega)]

/-- A doorbell written with another width than 64 bits. -/
theorem bar2Write_narrow {s : State} (ready : s.ready = true) {r o n : Nat} (hr : r < 1024) (ho : o < 16) (hn : n ≠ 8) (v : W64) :
    bar2Write (r * 0x1000 + o) n v s = s.doorbellError Reg.HIF_DB_ERR.BADPAGE r := by
  have page : (r * 0x1000 + o) / 0x1000 = r := by omega
  dsimp only [bar2Write]
  rw [page, if_neg (by rw [ready]; simpa using hr), if_neg (by omega), if_neg (by omega), if_pos (by omega)]

/-! ### A submission doorbell (R120) -/

theorem sqDoorbell_inactive {s : State} {r : Nat} (v : W64)
    (h : s.getF (Reg.HIF_RING_STAT.ACTIVE r) = 0 ∨ s.getF (Reg.HIF_RING_STAT.BUSY r) ≠ 0 ∨ s.getF (Reg.HIF_RING_STAT.ERR r) ≠ 0) :
    sqDoorbell r v s = s.doorbellError Reg.HIF_DB_ERR.DISCARD r := by
  refine if_pos ?_
  rcases h with h | h | h <;> simp [State.on, h]

theorem sqDoorbell_active {s : State} {r : Nat} (v : W64)
    (h : ¬(s.getF (Reg.HIF_RING_STAT.ACTIVE r) = 0 ∨ s.getF (Reg.HIF_RING_STAT.BUSY r) ≠ 0 ∨ s.getF (Reg.HIF_RING_STAT.ERR r) ≠ 0)) :
    sqDoorbell r v s =
      if wbits v 32 10 ≠ r ∨ wbits v 42 22 ≠ 0 ∨ s.ringSize r ≤ wbits v 0 16 then s.doorbellError Reg.HIF_DB_ERR.BADPAGE r
      else if (wbits v 16 16 + 65536 - (s.ring r).lastSeq) % 65536 ≠
          (wbits v 0 16 + s.ringSize r - s.getF (Reg.HIF_RING_PTR.SQ_TAIL r)) % s.ringSize r then
        (s.doorbellError Reg.HIF_DB_ERR.MISMATCH r).endRing r 0x56 (wbits v 16 16)
      else (s.setF (Reg.HIF_RING_PTR.SQ_TAIL r) (wbits v 0 16)).setRing r { s.ring r with lastSeq := wbits v 16 16, sqDoorbell := v } := by
  refine if_neg ?_
  simpa [State.on, not_or, and_assoc] using h

/-- A mismatch: the flag, and the end of the ring with 0x56. -/
theorem State.mismatch_fields {s : State} (k : s.Canon) {r : Nat} (hr : r < 1024) (seq : Nat) {t : State}
    (ht : t = (s.doorbellError Reg.HIF_DB_ERR.MISMATCH r).endRing r 0x56 seq) :
    t.getF Reg.HIF_DB_ERR.MISMATCH = 1 ∧ t.getF (Reg.HIF_RING_STAT.ERR r) = 1 ∧
      (s.hostReachable = true ∨ s.suspended = true → t.getF (Reg.HIF_RING_STAT.ERR_CODE r) = 0x56) ∧
      t.getF (Reg.HIF_RING_PTR.SQ_TAIL r) = s.getF (Reg.HIF_RING_PTR.SQ_TAIL r) := by
  obtain ⟨flag, -, kept, same⟩ := State.doorbellError_fields k (f := Reg.HIF_DB_ERR.MISMATCH) rfl (by decide) hr
  have canon := State.doorbellError_canon k Reg.HIF_DB_ERR.MISMATCH r
  have suspended : (s.doorbellError Reg.HIF_DB_ERR.MISMATCH r).suspended = s.suspended := (congrArg State.suspended same :)
  have due : (s.doorbellError Reg.HIF_DB_ERR.MISMATCH r).selfReset = s.selfReset := (congrArg State.selfReset same :)
  generalize s.doorbellError Reg.HIF_DB_ERR.MISMATCH r = u at *
  have reach := State.hostReachable_congr (kept _ (by decide)) (kept _ (by decide)) due
  obtain ⟨err, code⟩ := State.endRing_fields canon r 0x56 seq
  have ended : t.Canon := ht ▸ (State.endRing_kept u r 0x56 seq ⟨canon, rfl, rfl⟩).canon
  have view : t.hostView = u.hostView := ht ▸ u.hostView_endRing r 0x56 seq
  rw [reach, suspended] at code
  refine ⟨(State.getF_of_hostView view canon ended rfl).trans flag, ht ▸ err, fun open_ => ht ▸ code open_, ?_⟩
  rw [State.getF_of_hostView view canon ended (by simp [hostKey]; omega), kept _ (by simp; omega)]

/-- Settles O21, by the checks of a submission doorbell in their order. -/
theorem submissionDoorbell : Obligations.SubmissionDoorbell := by
  intro s r v up k hr
  have badPage := State.doorbellError_fields k (f := Reg.HIF_DB_ERR.BADPAGE) rfl (by decide) hr
  have discard := State.doorbellError_fields k (f := Reg.HIF_DB_ERR.DISCARD) rfl (by decide) hr
  refine ⟨fun n i narrow hi => ?_, ?_⟩
  · have run : exec i s = .next (s.doorbellError Reg.HIF_DB_ERR.BADPAGE r) := by
      rcases hi with rfl | rfl
      · rw [execSqDoorbell_up up, ← bar2Write_narrow up.2 hr (o := 0) (by decide) narrow v, Nat.add_zero]
      · rw [execCqDoorbell_up up, ← bar2Write_narrow up.2 hr (o := 8) (by decide) narrow v]
    obtain ⟨flag, ring, -, same⟩ := badPage
    exact ⟨_, run, flag, ring, same⟩
  · refine ⟨_, execSqDoorbell_up up _ _ v, ?_⟩
    rw [bar2Write_sq up.2 hr]
    split_ifs with inactive malformed mismatch
    · rwa [sqDoorbell_inactive v inactive]
    · rwa [sqDoorbell_active v inactive, if_pos malformed]
    · rw [sqDoorbell_active v inactive, if_neg malformed, if_pos mismatch]
      exact State.mismatch_fields k hr _ rfl
    · rw [sqDoorbell_active v inactive, if_neg malformed, if_neg mismatch]
      refine ⟨(State.getF_setF s _ _ k.regs).trans (Nat.mod_mod _ _), State.setF_fields _ _ k, rfl⟩

end Sys2Proof.Machine
end

section
/-! SUPPORT. The completion-head doorbell (R119), and a ring's enable, disable and shut-down (R123 to R126). -/

namespace Sys2Proof.Machine

/-! ### Signalling (R140) -/

theorem State.signalRing_only (s : State) (r : Nat) : { s.signalRing r with msiOut := s.msiOut, rings := s.rings } = s := rfl

theorem State.coalesce_quiet {s : State} {r : Nat}
    (h : s.getF (Reg.HIF_RING_CFG.IRQ_EN r) = 0 ∨ (s.ring r).unsignalled ≤ s.getF (Reg.HIF_RING_CFG.COAL r)) : s.coalesce r = s := by
  refine if_neg ?_
  rcases h with h | h <;> simp [State.on, h]

theorem State.coalesce_signals {s : State} {r : Nat} (irq : s.getF (Reg.HIF_RING_CFG.IRQ_EN r) ≠ 0)
    (h : s.getF (Reg.HIF_RING_CFG.COAL r) < (s.ring r).unsignalled) : s.coalesce r = s.signalRing r :=
  if_pos (by simp only [State.on, Bool.and_eq_true, decide_eq_true_eq]; exact ⟨irq, h⟩)

theorem State.coalesce_canon {s : State} (k : s.Canon) (r : Nat) : (s.coalesce r).Canon := (State.coalesce_kept s r ⟨k, rfl, rfl⟩).canon

theorem State.coalesce_rings_rising {s : State} (w : SMap.rising s.rings = true) (r : Nat) : SMap.rising (s.coalesce r).rings = true := by
  unfold State.coalesce
  split
  · exact State.setRing_rising r _ w
  · exact w

/-! ### The completion-head doorbell (R119) -/

theorem cqDoorbell_idle {s : State} {r : Nat} (v : W64) (h : s.getF (Reg.HIF_RING_STAT.ACTIVE r) = 0 ∧ s.getF (Reg.HIF_RING_STAT.BUSY r) = 0) :
    cqDoorbell r v s = s.doorbellError Reg.HIF_DB_ERR.DISCARD r := if_pos (by simp [State.on, h])

theorem cqDoorbell_served {s : State} {r : Nat} (v : W64)
    (h : ¬(s.getF (Reg.HIF_RING_STAT.ACTIVE r) = 0 ∧ s.getF (Reg.HIF_RING_STAT.BUSY r) = 0)) : cqDoorbell r v s =
      if wbits v 32 10 ≠ r ∨ wbits v 16 16 ≠ 0 ∨ wbits v 42 22 ≠ 0 ∨ s.ringSize r ≤ wbits v 0 16 then
        s.doorbellError Reg.HIF_DB_ERR.BADPAGE r
      else if (s.ring r).unconsumed < (wbits v 0 16 + s.ringSize r - (s.ring r).cqHead) % s.ringSize r then
        s.doorbellError Reg.HIF_DB_ERR.CQHEAD r
      else s.setRing r { s.ring r with
        cqHead := wbits v 0 16, cqDoorbell := v,
        unconsumed := (s.ring r).unconsumed - (wbits v 0 16 + s.ringSize r - (s.ring r).cqHead) % s.ringSize r } :=
  if_neg (by simpa [State.on] using h)

/-! ### HIF_RING_CFG (R123, R126) -/

theorem bitsOf_one (v b : Nat) : bitsOf v b 1 = bit (v.testBit b) := by
  rw [bitsOf, Nat.shiftRight_eq_div_pow, Nat.pow_one, ← Nat.toNat_testBit]
  cases v.testBit b <;> rfl

theorem State.setFs_append (s : State) (xs ys : List (Fld × Nat)) : (s.setFs xs).setFs ys = s.setFs (xs ++ ys) := by
  induction xs generalizing s with
  | nil => rfl
  | cons x t ih => exact ih _

/-- R126: the fields that a write stores while the ring is neither active nor busy. -/
def ringShape (r v : Nat) : List (Fld × Nat) :=
  [(Reg.HIF_RING_CFG.CLASS r, bitsOf v 1 2), (Reg.HIF_RING_CFG.SIZE_LOG2 r, bitsOf v 3 4), (Reg.HIF_RING_CFG.VECTOR r, bitsOf v 8 10),
    (Reg.HIF_RING_CFG.COAL r, bitsOf v 24 8)]

/-- R126: the fields that every write stores. -/
def ringSwitches (r v : Nat) : List (Fld × Nat) := [(Reg.HIF_RING_CFG.IRQ_EN r, bitsOf v 7 1), (Reg.HIF_RING_CFG.ENABLE r, bit (v.testBit 0))]

/-- R126: the fields that a write of `v` stores now. -/
def State.ringStores (s : State) (r v : Nat) : List (Fld × Nat) :=
  if s.getF (Reg.HIF_RING_STAT.ACTIVE r) = 0 ∧ s.getF (Reg.HIF_RING_STAT.BUSY r) = 0 then ringShape r v ++ ringSwitches r v else ringSwitches r v

/-- R126, R140: the fields stored, and what that signals. -/
def State.ringConfigured (s : State) (r v : Nat) : State := (s.setFs (s.ringStores r v)).coalesce r

theorem ringStores_nodup (s : State) (r v : Nat) : ((s.ringStores r v).map fun x => x.1.key).Nodup := by
  unfold State.ringStores
  split <;> simp [ringShape, ringSwitches]

theorem writeRingCfg_eq (r v : Nat) (s : State) : writeRingCfg r v s =
    (if !s.on (Reg.HIF_RING_CFG.ENABLE r) && v.testBit 0 then
      if (s.ringConfigured r v).on (Reg.HIF_RING_STAT.BUSY r) then s.ringConfigured r v else (s.ringConfigured r v).enableRing r
    else if s.on (Reg.HIF_RING_CFG.ENABLE r) && !v.testBit 0 then
      if (s.ringConfigured r v).on (Reg.HIF_RING_STAT.BUSY r) then s.ringConfigured r v else
      let t := (s.ringConfigured r v).setFs [(Reg.HIF_RING_STAT.ACTIVE r, 0), (Reg.HIF_RING_STAT.BUSY r, 1)]
      if r = t.getF Reg.CRS_CTRL.TIMED_RING then t.withdraw else t
    else s.ringConfigured r v) := by
  have stored : s.ringConfigured r v = (State.setFs
      (if !s.on (Reg.HIF_RING_STAT.ACTIVE r) && !s.on (Reg.HIF_RING_STAT.BUSY r) then s.setFs (ringShape r v) else s)
      (ringSwitches r v)).coalesce r := by
    rw [State.ringConfigured, State.ringStores]
    by_cases free : s.getF (Reg.HIF_RING_STAT.ACTIVE r) = 0 ∧ s.getF (Reg.HIF_RING_STAT.BUSY r) = 0
    · rw [if_pos free, if_pos (by simpa [State.on] using free), State.setFs_append]
    · rw [if_neg free, if_neg (by simpa [State.on] using free)]
  rw [stored]
  rfl

section
variable {s : State} (k : s.Canon) (r v : Nat)
include k

theorem State.ringConfigured_canon : (s.ringConfigured r v).Canon := State.coalesce_canon (State.setFs_canon _ k) r

theorem State.getF_ringConfigured : ∀ x ∈ s.ringStores r v, (s.ringConfigured r v).getF x.1 = x.2 % 2 ^ x.1.w := fun x hx =>
  (State.getF_coalesce _ _ _).trans (State.getF_setFs_mem s _ k.regs (ringStores_nodup s r v) x hx)

theorem State.ringConfigured_fields : s.fieldsKept (s.ringConfigured r v) ((s.ringStores r v).map Prod.fst) := fun f hf =>
  (State.getF_coalesce _ _ _).trans (State.setFs_fields _ k f hf)

/-- The ring's status, pointers and bases are no part of its configuration. -/
theorem State.ringConfigured_apart {f : Fld} (apart : f.key / 64 ≠ 0x28010 + r * 0x20) : (s.ringConfigured r v).getF f = s.getF f := by
  refine State.ringConfigured_fields k r v f ?_
  unfold State.ringStores
  split <;> simp [ringShape, ringSwitches] <;> omega

end

/-! ### Enable (R123) -/

theorem State.enableRing_refused {s : State} {r : Nat} (h : s.getF (Reg.HIF_RING_SQ.BASE r) = 0 ∨ s.getF (Reg.HIF_RING_CQ.BASE r) = 0 ∨
    s.getF (Reg.HIF_RING_CFG.SIZE_LOG2 r) < 4 ∨ s.getF (Reg.HIF_RING_CFG.CLASS r) = 3) :
    s.enableRing r = s.setFs [(Reg.HIF_RING_STAT.ERR r, 1), (Reg.HIF_RING_STAT.ERR_CODE r, 0x50)] := if_pos h

theorem State.enableRing_accepted {s : State} {r : Nat} (h : ¬(s.getF (Reg.HIF_RING_SQ.BASE r) = 0 ∨ s.getF (Reg.HIF_RING_CQ.BASE r) = 0 ∨
    s.getF (Reg.HIF_RING_CFG.SIZE_LOG2 r) < 4 ∨ s.getF (Reg.HIF_RING_CFG.CLASS r) = 3)) :
    s.enableRing r = (s.setFs [(Reg.HIF_RING_STAT.ACTIVE r, 1), (Reg.HIF_RING_PTR.SQ_HEAD r, 0), (Reg.HIF_RING_PTR.SQ_TAIL r, 0),
      (Reg.HIF_RING_PTR.CQ_TAIL r, 0), (Reg.HIF_RING_PTR.EXP_SEQ r, 0)]).setRing r (s.ring r).restart := if_neg h

theorem execRingEnable_up {s : State} (up : s.hubUp) {r : Nat} (hr : r < 1024) (v : W32) :
    exec (.ringEnable r v) s = .next (writeRingCfg r v.toNat s) := by
  rw [show exec (.ringEnable r v) s = _ from onHub_up _ s up, if_pos hr, State.gated_ready _ _ _ up.2]

theorem execRingDisable_up {s : State} (up : s.hubUp) {r : Nat} (hr : r < 1024) (v : W32) :
    exec (.ringDisable r v) s = .next (writeRingCfg r v.toNat s) := by
  rw [show exec (.ringDisable r v) s = _ from onHub_up _ s up, if_pos hr, State.gated_ready _ _ _ up.2]

/-- R123: a ring out of service whose ENABLE goes from 0 to 1 is enabled. -/
theorem writeRingCfg_enables {s : State} (k : s.Canon) {r v : Nat} (was : s.getF (Reg.HIF_RING_CFG.ENABLE r) = 0)
    (quiet : s.getF (Reg.HIF_RING_STAT.BUSY r) = 0) (one : v.testBit 0 = true) :
    writeRingCfg r v s = (s.ringConfigured r v).enableRing r := by
  have still : (s.ringConfigured r v).on (Reg.HIF_RING_STAT.BUSY r) = false :=
    State.on_eq_false ((State.ringConfigured_apart k r v (by simp; omega)).trans quiet)
  rw [writeRingCfg_eq, State.on_eq_false was, one, still]
  rfl

/-- R124: a ring in service whose ENABLE goes from 1 to 0 begins to shut down. -/
theorem writeRingCfg_disables {s : State} (k : s.Canon) {r v : Nat} (was : s.getF (Reg.HIF_RING_CFG.ENABLE r) ≠ 0)
    (quiet : s.getF (Reg.HIF_RING_STAT.BUSY r) = 0) (zero : v.testBit 0 = false) (other : r ≠ s.getF Reg.CRS_CTRL.TIMED_RING) :
    writeRingCfg r v s = (s.ringConfigured r v).setFs [(Reg.HIF_RING_STAT.ACTIVE r, 0), (Reg.HIF_RING_STAT.BUSY r, 1)] := by
  have still : (s.ringConfigured r v).on (Reg.HIF_RING_STAT.BUSY r) = false :=
    State.on_eq_false ((State.ringConfigured_apart k r v (by simp; omega)).trans quiet)
  have timed : ((s.ringConfigured r v).setFs [(Reg.HIF_RING_STAT.ACTIVE r, 0), (Reg.HIF_RING_STAT.BUSY r, 1)]).getF Reg.CRS_CTRL.TIMED_RING =
      s.getF Reg.CRS_CTRL.TIMED_RING :=
    (State.setFs_fields _ (State.ringConfigured_canon k r v) _ (by simp; omega)).trans (State.ringConfigured_apart k r v (by simp; omega))
  rw [writeRingCfg_eq, State.on_eq_true was, zero, still]
  exact if_neg (timed ▸ other)

/-- R126: a write that leaves ENABLE at 1 stores its fields and no more. -/
theorem writeRingCfg_stays {s : State} {r v : Nat} (was : s.getF (Reg.HIF_RING_CFG.ENABLE r) ≠ 0) (one : v.testBit 0 = true) :
    writeRingCfg r v s = s.ringConfigured r v := by
  rw [writeRingCfg_eq, State.on_eq_true was, one]
  rfl

/-- R123: what a write leaves of the configuration of an idle ring that it enables. -/
theorem State.ringConfigured_idle {s : State} (k : s.Canon) {r : Nat} (v : Nat) (idle : s.getF (Reg.HIF_RING_STAT.ACTIVE r) = 0)
    (quiet : s.getF (Reg.HIF_RING_STAT.BUSY r) = 0) :
    (s.ringConfigured r v).getF (Reg.HIF_RING_CFG.CLASS r) = bitsOf v 1 2 ∧
      (s.ringConfigured r v).getF (Reg.HIF_RING_CFG.SIZE_LOG2 r) = bitsOf v 3 4 ∧
      (s.ringConfigured r v).getF (Reg.HIF_RING_CFG.ENABLE r) = bit (v.testBit 0) := by
  have read := State.getF_ringConfigured k r v
  rw [State.ringStores, if_pos ⟨idle, quiet⟩] at read
  refine ⟨(read (Reg.HIF_RING_CFG.CLASS r, bitsOf v 1 2) (by simp [ringShape])).trans (bitsOf_mod _ _ _),
    (read (Reg.HIF_RING_CFG.SIZE_LOG2 r, bitsOf v 3 4) (by simp [ringShape])).trans (bitsOf_mod _ _ _),
    (read (Reg.HIF_RING_CFG.ENABLE r, bit (v.testBit 0)) (by simp [ringSwitches])).trans ?_⟩
  cases v.testBit 0 <;> rfl

/-- R123: an enable that fails its checks. -/
theorem State.enableRing_refused_fields {s : State} (k : s.Canon) {r : Nat} (bad : s.getF (Reg.HIF_RING_SQ.BASE r) = 0 ∨
    s.getF (Reg.HIF_RING_CQ.BASE r) = 0 ∨ s.getF (Reg.HIF_RING_CFG.SIZE_LOG2 r) < 4 ∨ s.getF (Reg.HIF_RING_CFG.CLASS r) = 3) :
    (s.enableRing r).getF (Reg.HIF_RING_STAT.ERR r) = 1 ∧ (s.enableRing r).getF (Reg.HIF_RING_STAT.ERR_CODE r) = 0x50 ∧
      s.onlyFields (s.enableRing r) [Reg.HIF_RING_STAT.ERR r, Reg.HIF_RING_STAT.ERR_CODE r] := by
  rw [State.enableRing_refused bad]
  have read := State.getF_setFs_mem s [(Reg.HIF_RING_STAT.ERR r, 1), (Reg.HIF_RING_STAT.ERR_CODE r, 0x50)] k.regs (by simp)
  exact ⟨read (Reg.HIF_RING_STAT.ERR r, 1) (by simp), read (Reg.HIF_RING_STAT.ERR_CODE r, 0x50) (by simp), State.setFs_only s _ k.regs⟩

/-- R123: an enable that passes its checks. -/
theorem State.enableRing_accepted_fields {s : State} (k : s.Canon) {r : Nat} (good : ¬(s.getF (Reg.HIF_RING_SQ.BASE r) = 0 ∨
    s.getF (Reg.HIF_RING_CQ.BASE r) = 0 ∨ s.getF (Reg.HIF_RING_CFG.SIZE_LOG2 r) < 4 ∨ s.getF (Reg.HIF_RING_CFG.CLASS r) = 3)) :
    (s.enableRing r).getF (Reg.HIF_RING_STAT.ACTIVE r) = 1 ∧
      (∀ f ∈ [Reg.HIF_RING_PTR.SQ_HEAD r, Reg.HIF_RING_PTR.SQ_TAIL r, Reg.HIF_RING_PTR.CQ_TAIL r, Reg.HIF_RING_PTR.EXP_SEQ r],
        (s.enableRing r).getF f = 0) ∧
      (∀ f : Fld, f.key / 64 = 0x28010 + r * 0x20 → (s.enableRing r).getF f = s.getF f) ∧
      (s.enableRing r).rings = (s.setRing r (s.ring r).restart).rings := by
  rw [State.enableRing_accepted good]
  simp only [State.getF_setRing]
  have read := State.getF_setFs_mem s [(Reg.HIF_RING_STAT.ACTIVE r, 1), (Reg.HIF_RING_PTR.SQ_HEAD r, 0), (Reg.HIF_RING_PTR.SQ_TAIL r, 0),
      (Reg.HIF_RING_PTR.CQ_TAIL r, 0), (Reg.HIF_RING_PTR.EXP_SEQ r, 0)] k.regs (by simp; omega)
  refine ⟨read (Reg.HIF_RING_STAT.ACTIVE r, 1) (by simp), fun f hf => ?_, fun f hf => State.getF_setFs_other s _ f k.regs (by simp; omega), rfl⟩
  have zero := read (f, 0) (by simpa using hf)
  exact zero.trans (Nat.zero_mod _)

/-- Settles O22, by the checks of a completion-head doorbell in their order, and by the pointers of a ring accepted by its enable. -/
theorem completionHeadDoorbell : Obligations.CompletionHeadDoorbell := by
  intro s r v up k hr
  have refused (f : Fld) (one : f.w = 1) (apart : f.key ≠ Reg.HIF_DB_ERR.RING.key) :=
    And.imp_right And.right (State.doorbellError_fields k one apart hr)
  refine ⟨⟨_, execCqDoorbell_up up _ _ v, ?_⟩, fun w rising was idle quiet one sq cq size notReserved => ?_⟩
  · rw [bar2Write_cq up.2 hr]
    split_ifs with inactive malformed beyond
    · rw [cqDoorbell_idle v inactive]
      exact refused _ rfl (by decide)
    · rw [cqDoorbell_served v inactive, if_pos malformed]
      exact refused _ rfl (by decide)
    · rw [cqDoorbell_served v inactive, if_neg malformed, if_pos beyond]
      exact refused _ rfl (by decide)
    · rw [cqDoorbell_served v inactive, if_neg malformed, if_neg beyond]
  · have canon := State.ringConfigured_canon k r w.toNat
    obtain ⟨class_, sizeLog, -⟩ := State.ringConfigured_idle k w.toNat idle quiet
    have good : ¬((s.ringConfigured r w.toNat).getF (Reg.HIF_RING_SQ.BASE r) = 0 ∨
        (s.ringConfigured r w.toNat).getF (Reg.HIF_RING_CQ.BASE r) = 0 ∨
        (s.ringConfigured r w.toNat).getF (Reg.HIF_RING_CFG.SIZE_LOG2 r) < 4 ∨
        (s.ringConfigured r w.toNat).getF (Reg.HIF_RING_CFG.CLASS r) = 3) := by
      rw [State.ringConfigured_apart k r _ (by simp; omega), State.ringConfigured_apart k r _ (by simp; omega), sizeLog, class_]
      omega
    obtain ⟨active, -, -, rings⟩ := State.enableRing_accepted_fields canon good
    have ringsRise : SMap.rising (s.ringConfigured r w.toNat).rings = true :=
      State.coalesce_rings_rising (s := s.setFs _) (by rw [State.setFs_eq]; exact rising) r
    refine ⟨_, (execRingEnable_up up hr w).trans (congrArg _ (writeRingCfg_enables k was quiet one)), active, ?_⟩
    rw [State.ring, rings]
    exact congrArg Ring.cqHead (State.ring_setRing r _ ringsRise)

/-! ### Shut-down (R124, R125) -/

/-- R124, R125: the fields that read 0 when the last record of a shutting ring has been posted. -/
def ringCleared (r : Nat) : List (Fld × Nat) :=
  [(Reg.HIF_RING_PTR.SQ_HEAD r, 0), (Reg.HIF_RING_PTR.SQ_TAIL r, 0), (Reg.HIF_RING_PTR.CQ_TAIL r, 0), (Reg.HIF_RING_PTR.EXP_SEQ r, 0),
    (Reg.HIF_RING_STAT.ERR r, 0), (Reg.HIF_RING_STAT.ERR_CODE r, 0), (Reg.HIF_RING_STAT.BUSY r, 0)]

theorem ringShutdownDone_out {s : State} (k : s.Canon) {r : Nat} (busy : s.getF (Reg.HIF_RING_STAT.BUSY r) ≠ 0) (out : s.recordsOut r = true)
    (off : s.getF (Reg.HIF_RING_CFG.ENABLE r) = 0) :
    ringShutdownDone r s = (s.setFs (ringCleared r)).setRing r (s.ring r).restart := by
  dsimp only [ringShutdownDone]
  rw [if_pos (by rw [State.on_eq_true busy, out]; rfl)]
  refine if_neg (Bool.not_eq_true _ ▸ State.on_eq_false ?_)
  rw [State.getF_setRing, State.getF_setFs_other s _ (Reg.HIF_RING_CFG.ENABLE r) k.regs (by simp; omega), off]

theorem State.getF_setFs_irqEn {s : State} (k : s.Canon) (r v : Nat) :
    (s.setFs (s.ringStores r v)).getF (Reg.HIF_RING_CFG.IRQ_EN r) = bit (v.testBit 7) := by
  have listed : (Reg.HIF_RING_CFG.IRQ_EN r, bitsOf v 7 1) ∈ s.ringStores r v := by
    unfold State.ringStores
    split <;> simp [ringSwitches]
  rw [State.getF_setFs_mem s _ k.regs (ringStores_nodup s r v) _ listed, bitsOf_one]
  cases v.testBit 7 <;> rfl

/-- R140: with IRQ_EN written 0, or no more than COAL records unsignalled, nothing is signalled. -/
theorem State.ringConfigured_quiet {s : State} (k : s.Canon) {r v coal : Nat}
    (hc : (s.setFs (s.ringStores r v)).getF (Reg.HIF_RING_CFG.COAL r) = coal)
    (few : v.testBit 7 = false ∨ (s.ring r).unsignalled ≤ coal) : s.ringConfigured r v = s.setFs (s.ringStores r v) := by
  have same : (s.setFs (s.ringStores r v)).ring r = s.ring r := by rw [State.setFs_eq]; rfl
  refine State.coalesce_quiet ?_
  rw [State.getF_setFs_irqEn k, hc, same]
  exact few.imp_left fun off => by rw [off]; rfl

/-- Of a ring in service a write stores IRQ_EN and ENABLE alone. -/
theorem State.ringStores_active {s : State} {r : Nat} (v : Nat) (active : s.getF (Reg.HIF_RING_STAT.ACTIVE r) ≠ 0) :
    s.ringStores r v = ringSwitches r v := if_neg fun h => active h.1

theorem State.getF_setFs_coal {s : State} (k : s.Canon) {r : Nat} (v : Nat) (active : s.getF (Reg.HIF_RING_STAT.ACTIVE r) ≠ 0) :
    (s.setFs (s.ringStores r v)).getF (Reg.HIF_RING_CFG.COAL r) = s.getF (Reg.HIF_RING_CFG.COAL r) := by
  rw [State.ringStores_active v active]
  exact State.getF_setFs_other s _ _ k.regs (by simp [ringSwitches])

/-- R123: the enable of a ring out of service. -/
theorem ringEnable_idle {s : State} (k : s.Canon) {r v : Nat} (was : s.getF (Reg.HIF_RING_CFG.ENABLE r) = 0)
    (idle : s.getF (Reg.HIF_RING_STAT.ACTIVE r) = 0) (quiet : s.getF (Reg.HIF_RING_STAT.BUSY r) = 0) (one : v.testBit 0 = true)
    (few : v.testBit 7 = false ∨ (s.ring r).unsignalled ≤ bitsOf v 24 8) :
    let t := writeRingCfg r v s
    t.getF (Reg.HIF_RING_CFG.ENABLE r) = 1 ∧ t.getF (Reg.HIF_RING_CFG.SIZE_LOG2 r) = bitsOf v 3 4 ∧
      t.getF (Reg.HIF_RING_CFG.CLASS r) = bitsOf v 1 2 ∧
      (if s.getF (Reg.HIF_RING_SQ.BASE r) = 0 ∨ s.getF (Reg.HIF_RING_CQ.BASE r) = 0 ∨ bitsOf v 3 4 < 4 ∨ bitsOf v 1 2 = 3 then
        t.getF (Reg.HIF_RING_STAT.ERR r) = 1 ∧ t.getF (Reg.HIF_RING_STAT.ERR_CODE r) = 0x50 ∧ t.getF (Reg.HIF_RING_STAT.ACTIVE r) = 0 ∧
          t.rings = s.rings
      else t.getF (Reg.HIF_RING_STAT.ACTIVE r) = 1 ∧ t.getF (Reg.HIF_RING_PTR.SQ_HEAD r) = 0 ∧ t.getF (Reg.HIF_RING_PTR.SQ_TAIL r) = 0 ∧
        t.getF (Reg.HIF_RING_PTR.CQ_TAIL r) = 0 ∧ t.getF (Reg.HIF_RING_PTR.EXP_SEQ r) = 0 ∧
        t.rings = (s.setRing r (s.ring r).restart).rings) := by
  have canon := State.ringConfigured_canon k r v
  obtain ⟨class_, size, enable⟩ := State.ringConfigured_idle k v idle quiet
  rw [one] at enable
  have apart (f : Fld) (h : f.key / 64 ≠ 0x28010 + r * 0x20) := State.ringConfigured_apart k r v (f := f) h
  have rings : (s.ringConfigured r v).rings = s.rings := by
    have coal : (s.setFs (s.ringStores r v)).getF (Reg.HIF_RING_CFG.COAL r) = bitsOf v 24 8 := by
      rw [State.getF_setFs_mem s _ k.regs (ringStores_nodup s r v) (Reg.HIF_RING_CFG.COAL r, bitsOf v 24 8)
        (by simp [State.ringStores, idle, quiet, ringShape])]
      exact bitsOf_mod _ _ _
    rw [State.ringConfigured_quiet k coal few, State.setFs_eq]
  have checks : ((s.ringConfigured r v).getF (Reg.HIF_RING_SQ.BASE r) = 0 ∨ (s.ringConfigured r v).getF (Reg.HIF_RING_CQ.BASE r) = 0 ∨
      (s.ringConfigured r v).getF (Reg.HIF_RING_CFG.SIZE_LOG2 r) < 4 ∨ (s.ringConfigured r v).getF (Reg.HIF_RING_CFG.CLASS r) = 3) ↔
      (s.getF (Reg.HIF_RING_SQ.BASE r) = 0 ∨ s.getF (Reg.HIF_RING_CQ.BASE r) = 0 ∨ bitsOf v 3 4 < 4 ∨ bitsOf v 1 2 = 3) := by
    rw [apart (Reg.HIF_RING_SQ.BASE r) (by simp; omega), apart (Reg.HIF_RING_CQ.BASE r) (by simp; omega), size, class_]
  have active := (apart (Reg.HIF_RING_STAT.ACTIVE r) (by simp; omega)).trans idle
  intro t
  have ht : t = (s.ringConfigured r v).enableRing r := writeRingCfg_enables k was quiet one
  rw [ht]
  generalize s.ringConfigured r v = u at *
  split_ifs with bad
  · obtain ⟨err, code, kept, same⟩ := State.enableRing_refused_fields canon (checks.2 bad)
    exact ⟨(kept _ (by simp; omega)).trans enable, (kept _ (by simp; omega)).trans size, (kept _ (by simp; omega)).trans class_, err, code,
      (kept _ (by simp)).trans active, (congrArg State.rings same).trans rings⟩
  · obtain ⟨inService, pointers, kept, restarted⟩ := State.enableRing_accepted_fields canon (mt checks.1 bad)
    refine ⟨(kept _ (by simp; omega)).trans enable, (kept _ (by simp; omega)).trans size, (kept _ (by simp; omega)).trans class_, inService,
      pointers _ (by simp), pointers _ (by simp), pointers _ (by simp), pointers _ (by simp), ?_⟩
    rw [restarted, State.setRing, State.setRing, State.ring, State.ring, rings]

/-- Settles O25: an enable, a disable, IRQ_EN set, and the end of a shut-down. -/
theorem ringEnableAndShutdown : Obligations.RingEnableAndShutdown := by
  intro s r v up k hr
  refine ⟨fun was idle quiet one few => ?_, fun was active quiet zero other few => ?_, fun was active one irq rising many => ?_,
    fun busy out off => ?_⟩
  · exact ⟨_, execRingEnable_up up hr v, ringEnable_idle k was idle quiet one few⟩
  · have run := (execRingDisable_up up hr v).trans (congrArg _ (writeRingCfg_disables k was quiet zero other))
    rw [State.ringConfigured_quiet k (State.getF_setFs_coal k v.toNat active) few, State.ringStores_active v.toNat active, State.setFs_append] at run
    have read := State.getF_setFs_mem s (ringSwitches r v.toNat ++ [(Reg.HIF_RING_STAT.ACTIVE r, 0), (Reg.HIF_RING_STAT.BUSY r, 1)]) k.regs
      (by simp [ringSwitches]; omega)
    refine ⟨_, run, (read (Reg.HIF_RING_CFG.ENABLE r, bit (v.toNat.testBit 0)) (by simp [ringSwitches])).trans ?_,
      read (Reg.HIF_RING_STAT.ACTIVE r, 0) (by simp), read (Reg.HIF_RING_STAT.BUSY r, 1) (by simp), ?_⟩
    · rw [show v.toNat.testBit 0 = false from zero]
      rfl
    · obtain ⟨kept, same⟩ := State.setFs_only s
        (ringSwitches r v.toNat ++ [(Reg.HIF_RING_STAT.ACTIVE r, 0), (Reg.HIF_RING_STAT.BUSY r, 1)]) k.regs
      exact ⟨State.fieldsKept_mono kept (by simp [ringSwitches]), same⟩
  · have run := (execRingEnable_up up hr v).trans (congrArg _ (writeRingCfg_stays was one))
    have irqOn : (s.setFs (s.ringStores r v.toNat)).getF (Reg.HIF_RING_CFG.IRQ_EN r) = 1 := by
      rw [State.getF_setFs_irqEn k, show v.toNat.testBit 7 = true from irq]
      rfl
    have same : { s.setFs (s.ringStores r v.toNat) with regs := s.regs } = s := by rw [State.setFs_eq]
    have vector : (s.setFs (s.ringStores r v.toNat)).getF (Reg.HIF_RING_CFG.VECTOR r) = s.getF (Reg.HIF_RING_CFG.VECTOR r) := by
      rw [State.ringStores_active v.toNat active]
      exact State.getF_setFs_other s _ _ k.regs (by simp [ringSwitches])
    have coal := State.getF_setFs_coal k v.toNat active
    rw [State.ringConfigured] at run
    generalize s.setFs (s.ringStores r v.toNat) = u at *
    have rings : u.rings = s.rings := (congrArg State.rings same :)
    rw [State.coalesce_signals (by rw [irqOn]; decide) (by rw [coal, State.ring, rings]; exact many)] at run
    refine ⟨_, run, ?_, ?_, irqOn, ?_⟩
    · rw [← vector, ← (congrArg State.msiOut same :)]
      rfl
    · exact congrArg Ring.unsignalled (State.ring_setRing r _ (by rw [rings]; exact rising))
    · rw [← same]
      rfl
  · have read := State.getF_setFs_mem s (ringCleared r) k.regs (by simp [ringCleared]; omega)
    have same : { s.setFs (ringCleared r) with regs := s.regs } = s := by rw [State.setFs_eq]
    refine ⟨_, (onHub_up _ s up).trans (congrArg _ (ringShutdownDone_out k busy out off)), ?_⟩
    generalize s.setFs (ringCleared r) = u at *
    simp only [State.getF_setRing]
    refine ⟨read (Reg.HIF_RING_STAT.BUSY r, 0) (by simp [ringCleared]), read (Reg.HIF_RING_STAT.ERR r, 0) (by simp [ringCleared]),
      read (Reg.HIF_RING_PTR.SQ_HEAD r, 0) (by simp [ringCleared]), read (Reg.HIF_RING_PTR.SQ_TAIL r, 0) (by simp [ringCleared]),
      read (Reg.HIF_RING_PTR.CQ_TAIL r, 0) (by simp [ringCleared]), ?_, ?_⟩
    · rw [← same]
      rfl
    · rw [← same]
      rfl

end Sys2Proof.Machine
end

section
/-! SUPPORT. Descriptors read (R109, R110, R121), records refused by the host and the coalescing limit (R115, R122, R140), and the record of a
NOP (R111, R113 to R116). -/

namespace Sys2Proof.Machine

/-! ### The read of a slot (R121) -/

/-- R121: the request for the slot at the head. -/
theorem State.askSlot_reached {s : State} {r : Nat} (reach : s.hostReachable = true) : s.askSlot r = { s with
    cxlOut := s.cxlOut ++ [⟨.rdCurr, s.getF (Reg.HIF_RING_SQ.BASE r) * 64 + s.getF (Reg.HIF_RING_PTR.SQ_HEAD r), 1⟩] } := by
  have line (b h : Nat) : (b * 4096 + h * 64) / 64 = b * 64 + h ∧ (b * 4096 + h * 64 + 64 - 1) / 64 - (b * 4096 + h * 64) / 64 + 1 = 1 := by omega
  obtain ⟨first, one⟩ := line (s.getF (Reg.HIF_RING_SQ.BASE r)) (s.getF (Reg.HIF_RING_PTR.SQ_HEAD r))
  rw [State.askSlot, if_pos reach, State.sendCxl, if_neg (by decide), one, first]

theorem State.askSlot_only (s : State) (r : Nat) : ∃ out : List CxlReq, s.askSlot r = { s with cxlOut := out } := by
  by_cases reach : s.hostReachable = true
  · exact ⟨_, State.askSlot_reached reach⟩
  · exact ⟨s.cxlOut, if_neg reach⟩

/-- R121: the pointers and expectations move on, and the descriptor becomes the newest request of its ring. -/
def State.slotTaken (s : State) (r : Nat) (q : Req) : State :=
  (s.setFs [(Reg.HIF_RING_PTR.SQ_HEAD r, (s.getF (Reg.HIF_RING_PTR.SQ_HEAD r) + 1) % s.ringSize r),
    (Reg.HIF_RING_PTR.EXP_SEQ r, s.getF (Reg.HIF_RING_PTR.EXP_SEQ r) + 1)]).setRing r { s.ring r with
      tries := 0, outstanding := (s.ring r).outstanding ++ [q],
      expPhase := if (s.getF (Reg.HIF_RING_PTR.SQ_HEAD r) + 1) % s.ringSize r = 0 then !(s.ring r).expPhase else (s.ring r).expPhase }

theorem State.slotTaken_fields {s : State} (k : s.Canon) (r : Nat) (q : Req) :
    (s.slotTaken r q).getF (Reg.HIF_RING_PTR.SQ_HEAD r) = (s.getF (Reg.HIF_RING_PTR.SQ_HEAD r) + 1) % s.ringSize r % 2 ^ 16 ∧
      (s.slotTaken r q).getF (Reg.HIF_RING_PTR.EXP_SEQ r) = (s.getF (Reg.HIF_RING_PTR.EXP_SEQ r) + 1) % 2 ^ 16 ∧
      s.fieldsKept (s.slotTaken r q) [Reg.HIF_RING_PTR.SQ_HEAD r, Reg.HIF_RING_PTR.EXP_SEQ r] := by
  have read := State.getF_setFs_mem s [(Reg.HIF_RING_PTR.SQ_HEAD r, (s.getF (Reg.HIF_RING_PTR.SQ_HEAD r) + 1) % s.ringSize r),
    (Reg.HIF_RING_PTR.EXP_SEQ r, s.getF (Reg.HIF_RING_PTR.EXP_SEQ r) + 1)] k.regs (by simp)
  refine ⟨?_, ?_, fun f hf => ?_⟩ <;> rw [State.slotTaken, State.getF_setRing]
  · exact read (Reg.HIF_RING_PTR.SQ_HEAD r, (s.getF (Reg.HIF_RING_PTR.SQ_HEAD r) + 1) % s.ringSize r) (by simp)
  · exact read (Reg.HIF_RING_PTR.EXP_SEQ r, s.getF (Reg.HIF_RING_PTR.EXP_SEQ r) + 1) (by simp)
  · exact State.setFs_fields _ k f hf

theorem State.slotTaken_only (s : State) (r : Nat) (q : Req) : s.slotTaken r q = { s with
    regs := (s.slotTaken r q).regs
    rings := (s.setRing r { s.ring r with
      tries := 0, outstanding := (s.ring r).outstanding ++ [q],
      expPhase := if (s.getF (Reg.HIF_RING_PTR.SQ_HEAD r) + 1) % s.ringSize r = 0 then !(s.ring r).expPhase else (s.ring r).expPhase }).rings } := by
  rw [State.slotTaken, State.setFs_eq]
  rfl

theorem State.slotTaken_canon {s : State} (k : s.Canon) (r : Nat) (q : Req) : (s.slotTaken r q).Canon :=
  (State.setRing_kept _ _ _ ⟨State.setFs_canon _ k, rfl, rfl⟩).canon

/-- What rejects a descriptor looks at the ring's class and the timed ring alone. -/
theorem State.rejectStatus_congr {s t : State} {q : Req} (class_ : t.getF (Reg.HIF_RING_CFG.CLASS q.ring) = s.getF (Reg.HIF_RING_CFG.CLASS q.ring))
    (timed : t.getF Reg.CRS_CTRL.TIMED_RING = s.getF Reg.CRS_CTRL.TIMED_RING) : t.rejectStatus q = s.rejectStatus q := by
  rw [State.rejectStatus, State.rejectStatus, State.ringClass, State.ringClass, class_, timed]

@[simp] theorem State.hostView_noteJob (s : State) (q : Req) (status : Nat) : (s.noteJob q status).hostView = s.hostView := by
  unfold State.noteJob
  split <;> rfl

@[simp] theorem State.hostView_mediaReject (s : State) (q : Req) (code : Nat) : (s.mediaReject q code).hostView = s.hostView := by
  have err : (s.mediaErr q code false 0 0).hostView = s.hostView := by
    unfold State.mediaErr
    split
    · rfl
    · refine State.hostView_setFs fun x hx => ?_
      fin_cases hx <;> rfl
  rw [State.mediaReject, State.hostView_complete, State.hostView_noteJob, err]

/-- R121: a descriptor that nothing rejects. -/
theorem State.takeDescriptor_accepted {s : State} (k : s.Canon) {r : Nat} {d : List W64} (none_ : s.rejectStatus ⟨r, d, false⟩ = none) :
    s.takeDescriptor r d = s.slotTaken r ⟨r, d, false⟩ := by
  have kept := (State.slotTaken_fields k r ⟨r, d, false⟩).2.2
  have class_ := kept (Reg.HIF_RING_CFG.CLASS r) (by simp; omega)
  have timed := kept Reg.CRS_CTRL.TIMED_RING (by simp; omega)
  have still : (s.slotTaken r ⟨r, d, false⟩).rejectStatus ⟨r, d, false⟩ = none :=
    (State.rejectStatus_congr (q := ⟨r, d, false⟩) class_ timed).trans none_
  have waits : (s.rejectStatus ⟨r, d, false⟩).isSome = false := by rw [none_]; rfl
  dsimp only [State.takeDescriptor]
  rw [waits]
  change State.rejectStatus (s.slotTaken r ⟨r, d, false⟩) _ = _ at still
  split
  next rejected => exact absurd (still.symm.trans rejected) (by simp)
  next rejected => exact absurd (still.symm.trans rejected) (by simp)
  next => rfl

/-- R121: a rejected descriptor too leaves the registers of the host attachment as one taken, but those its record writes. -/
theorem State.hostView_takeDescriptor (s : State) (r : Nat) (d : List W64) :
    ∃ q : Req, (s.takeDescriptor r d).hostView = (s.slotTaken r q).hostView := by
  refine ⟨⟨r, d, (s.rejectStatus ⟨r, d, false⟩).isSome⟩, ?_⟩
  dsimp only [State.takeDescriptor]
  split
  · exact State.hostView_mediaReject _ _ _
  · exact (State.hostView_finish _ _ _).trans (State.hostView_noteJob _ _ _)
  · rfl

theorem State.readSlot_fresh {s : State} {r : Nat} {d : List W64} (reach : s.hostReachable = true) (fresh : s.fresh r d = true) :
    s.readSlot r (some d) = (s.askSlot r).takeDescriptor r d := by
  obtain ⟨out, asked⟩ := s.askSlot_only r
  have good : ((s.askSlot r).hostReachable && (s.askSlot r).fresh r d) = true := by
    rw [asked]
    exact Bool.and_eq_true _ _ ▸ ⟨reach, fresh⟩
  rw [State.readSlot, Option.filter_some, if_pos good]

theorem State.readSlot_stale {s : State} {r : Nat} {ans : Option (List W64)}
    (stale : ans.filter (fun d => s.hostReachable && s.fresh r d) = none) :
    s.readSlot r ans = if (s.ring r).tries = 64 then
        ((s.askSlot r).setRing r { s.ring r with tries := 0 }).endRing r 0x52 (s.getF (Reg.HIF_RING_PTR.EXP_SEQ r))
      else ((s.askSlot r).bump Reg.HIF_REREADS.REREADS 1).setRing r { s.ring r with tries := (s.ring r).tries + 1 } := by
  obtain ⟨out, asked⟩ := s.askSlot_only r
  have none_ : ans.filter (fun d => (s.askSlot r).hostReachable && (s.askSlot r).fresh r d) = none := by
    rw [asked]
    exact stale
  rw [State.readSlot, none_, asked]
  rfl

/-! ### The commands (R109, R121) -/

/-- R109, R121: a first read by the ring whose turn it is, or a later read of a ring that has met a stale slot. -/
theorem exec_descriptorRead {s u : State} (up : s.hubUp) {r : Nat} {ans : Option (List W64)} (may : s.canFetch r = true) {c : Instr}
    (h : (c = .descriptorFetch r ans ∧ s.pickRing = some r ∧ u = s.noteRead r) ∨
      (c = .descriptorReread r ans ∧ (s.ring r).tries ≠ 0 ∧ u = s)) : exec c s = .next (u.readSlot r ans) := by
  rcases h with ⟨rfl, turn, rfl⟩ | ⟨rfl, again, rfl⟩
  · rw [show exec (.descriptorFetch r ans) s = .next (descriptorFetch r ans s) from onHub_up _ s up, descriptorFetch, if_pos turn]
  · rw [show exec (.descriptorReread r ans) u = .next (descriptorReread r ans u) from onHub_up _ u up, descriptorReread,
      if_pos (by rw [may, decide_eq_true again]; rfl)]

theorem State.canFetch_ring {s : State} {r : Nat} (may : s.canFetch r = true) : r < 1024 := by
  simp only [State.canFetch, Bool.and_eq_true, decide_eq_true_eq] at may
  omega

/-- Settles O23, by the two ways a read of a slot ends. -/
theorem descriptorReads : Obligations.DescriptorReads := by
  intro s r ans up k may c u hc
  have run := exec_descriptorRead up may hc
  have hr := State.canFetch_ring may
  obtain ⟨last, hu⟩ : ∃ last : SMap Nat, u = { s with lastRead := last } := by
    rcases hc with ⟨-, -, rfl⟩ | ⟨-, -, rfl⟩
    · exact ⟨_, rfl⟩
    · exact ⟨_, rfl⟩
  obtain ⟨out, asked⟩ := u.askSlot_only r
  have same : u.askSlot r = { s with lastRead := last, cxlOut := out } := by rw [asked, hu]
  have canon : (u.askSlot r).Canon := by
    rw [same]
    exact ⟨k.hbm, k.loft, k.rstore, k.acc, k.regs⟩
  have read (f : Fld) : (u.askSlot r).getF f = s.getF f := by rw [same]; rfl
  have size : (u.askSlot r).ringSize r = s.ringSize r := by rw [same]; rfl
  have fresh (d : List W64) : u.fresh r d = s.fresh r d := by rw [hu]; rfl
  have reach : u.hostReachable = s.hostReachable := by rw [hu]; rfl
  have ring : u.ring r = s.ring r := by rw [hu]; rfl
  refine ⟨?_, ?_, fun stale few => ?_, fun stale last_ => ?_⟩
  · rintro d rfl isFresh reached
    obtain ⟨q, view⟩ := (u.askSlot r).hostView_takeDescriptor r d
    have head := (State.slotTaken_fields canon r q).1
    rw [read, size] at head
    refine ⟨?_, run.trans (congrArg _ (State.readSlot_fresh (reach.trans reached) ((fresh d).trans isFresh)))⟩
    have after : ((u.askSlot r).takeDescriptor r d).Canon := (State.takeDescriptor_kept _ r d ⟨canon, rfl, rfl⟩).canon
    exact (State.getF_of_hostView view (State.slotTaken_canon canon r q) after (by simp [hostKey]; omega)).trans head
  · rintro d rfl isFresh reached accepted
    rw [State.readSlot_fresh (reach.trans reached) ((fresh d).trans isFresh),
      State.takeDescriptor_accepted canon
        ((show (u.askSlot r).rejectStatus ⟨r, d, false⟩ = s.rejectStatus ⟨r, d, false⟩ by rw [same]; rfl).trans
        accepted)] at run
    obtain ⟨-, seq, kept⟩ := State.slotTaken_fields canon r ⟨r, d, false⟩
    refine ⟨_, run, seq.trans (by rw [read]), fun f hf => (kept f hf).trans (read f), ?_, ?_⟩
    · rw [State.slotTaken, State.setRing_cxlOut, State.setFs_eq, State.askSlot_reached (reach.trans reached), hu]
      rfl
    · refine (State.slotTaken_only _ r _).trans ?_
      rw [same, hu]
      rfl
  · have stale' : ans.filter (fun d => u.hostReachable && u.fresh r d) = none := by simpa only [reach, fresh] using stale
    rw [State.readSlot_stale stale', ring, if_neg (by omega)] at run
    have bumped : ((u.askSlot r).bump Reg.HIF_REREADS.REREADS 1).getF Reg.HIF_REREADS.REREADS = (s.getF Reg.HIF_REREADS.REREADS + 1) % 2 ^ 64 := by
      rw [State.bump, State.getF_setF _ _ _ canon.regs, read]
    refine ⟨_, run, (State.getF_setRing _ _ _ _).trans bumped, fun f hf => ?_, ?_⟩
    · rw [State.getF_setRing, State.bump, State.setF_fields _ _ canon f hf, read]
    · rw [same, hu]
      rfl
  · have stale' : ans.filter (fun d => u.hostReachable && u.fresh r d) = none := by simpa only [reach, fresh] using stale
    rw [State.readSlot_stale stale', ring, if_pos last_] at run
    have canon' : ((u.askSlot r).setRing r { s.ring r with tries := 0 }).Canon := (State.setRing_kept _ _ _ ⟨canon, rfl, rfl⟩).canon
    obtain ⟨err, code⟩ := State.endRing_fields canon' r 0x52 (u.getF (Reg.HIF_RING_PTR.EXP_SEQ r))
    refine ⟨_, run, err, fun reached => code (.inl ?_)⟩
    rw [same]
    exact reached

/-! ### A record write refused (R115, R122) -/

theorem State.killCq_fields {s : State} (k : s.Canon) (r : Nat) :
    (s.killCq r).getF (Reg.HIF_RING_STAT.ERR r) = 1 ∧ (s.killCq r).getF (Reg.HIF_RING_STAT.ERR_CODE r) = 0x59 ∧
      (s.killCq r).msiOut = s.msiOut ∧ (s.killCq r).hostOut = s.hostOut := by
  have read := State.getF_setFs_mem s [(Reg.HIF_RING_STAT.ERR r, 1), (Reg.HIF_RING_STAT.ERR_CODE r, 0x59)] k.regs (by simp)
  rw [State.killCq, State.getF_setRing, State.getF_setRing]
  exact ⟨read (Reg.HIF_RING_STAT.ERR r, 1) (by simp), read (Reg.HIF_RING_STAT.ERR_CODE r, 0x59) (by simp), rfl, rfl⟩

theorem State.ring_killCq {s : State} (w : SMap.rising s.rings = true) (r : Nat) : (s.killCq r).ring r = { s.ring r with cqDead := true } := by
  rw [State.killCq, State.setFs_eq]
  exact State.ring_setRing r _ w

/-- R115: of the records still to be signalled one fewer waits. -/
theorem State.unsignal_waiting {s : State} {r j : Nat} (h : j < (s.ring r).unsignalled) :
    s.unsignal r j = s.setRing r { s.ring r with unsignalled := (s.ring r).unsignalled - 1 } := if_pos h

theorem State.unsignal_killCq {s : State} (k : s.Canon) (w : SMap.rising s.rings = true) {r j : Nat} (h : j < (s.ring r).unsignalled) :
    let t := (s.unsignal r j).killCq r
    t.getF (Reg.HIF_RING_STAT.ERR r) = 1 ∧ t.getF (Reg.HIF_RING_STAT.ERR_CODE r) = 0x59 ∧ (t.ring r).cqDead = true ∧
      (t.ring r).unsignalled + 1 = (s.ring r).unsignalled ∧ t.hostOut = s.hostOut ∧ t.msiOut = s.msiOut := by
  rw [State.unsignal_waiting h]
  have canon := (State.setRing_kept s r { s.ring r with unsignalled := (s.ring r).unsignalled - 1 } ⟨k, rfl, rfl⟩).canon
  obtain ⟨err, code, msi, out⟩ := State.killCq_fields canon r
  have ring := (State.ring_killCq (State.setRing_rising r { s.ring r with unsignalled := (s.ring r).unsignalled - 1 } w) r)
  rw [State.ring_setRing r _ w] at ring
  exact ⟨err, code, congrArg Ring.cqDead ring, by rw [ring]; exact Nat.sub_add_cancel (by omega), out, msi⟩

/-- R115: the write of a record withdrawn: the latest to its slot. -/
def State.withdrawWrite (s : State) (a : Nat) : State :=
  { s with hostOut := (s.hostOut.reverse.eraseP fun w : HostWrite => decide (w.addr = a)).reverse }

theorem State.withdrawWrite_length {s : State} {a : Nat} (sent : ∃ w ∈ s.hostOut, w.addr = a) :
    (s.withdrawWrite a).hostOut.length + 1 = s.hostOut.length := by
  obtain ⟨w, hw, ha⟩ := sent
  have shorter := List.length_eraseP_of_mem (p := fun w : HostWrite => decide (w.addr = a)) (List.mem_reverse.2 hw) (decide_eq_true ha)
  have some_ := List.length_pos_of_mem hw
  rw [List.length_reverse] at shorter
  rw [State.withdrawWrite, List.length_reverse, shorter]
  omega

theorem cqWriteFail_sent {s : State} {r j a : Nat} (ha : a = s.getF (Reg.HIF_RING_CQ.BASE r) * 4096 +
      (s.getF (Reg.HIF_RING_PTR.CQ_TAIL r) + s.ringSize r - (j + 1) % s.ringSize r) % s.ringSize r * 32)
    (unconsumed : j < (s.ring r).unconsumed) (alive : (s.ring r).cqDead = false) (running : s.suspended = false)
    (sent : ∃ w ∈ s.hostOut, w.addr = a) : cqWriteFail r j s = ((s.withdrawWrite a).unsignal r j).killCq r := by
  have found : (s.hostOut.any fun w => decide (w.addr = a)) = true := by simpa using sent
  subst ha
  dsimp only [cqWriteFail]
  refine if_neg ?_
  rw [alive, running, found]
  simpa using unconsumed

/-! ### The coalescing limit (R140) -/

theorem coalesceTimeout_due {s : State} {r : Nat} (irq : s.getF (Reg.HIF_RING_CFG.IRQ_EN r) ≠ 0) (waits : (s.ring r).unsignalled ≠ 0) :
    coalesceTimeout r s = s.signalRing r := if_pos (by simp [State.on, irq, waits])

theorem coalesceTimeout_off {s : State} {r : Nat} (off : s.getF (Reg.HIF_RING_CFG.IRQ_EN r) = 0) : coalesceTimeout r s = s :=
  if_neg (by simp [State.on, off])

/-- Settles O26: the write withdrawn, one record fewer to signal, and the ring ended; and the limit of coalescing. -/
theorem completionWriteFailsAndCoalescing : Obligations.CompletionWriteFailsAndCoalescing := by
  intro s r up k rising
  refine ⟨fun j unconsumed unsignalled alive running sent => ?_, fun irq waits => ?_, fun off => ?_⟩
  · have run : exec (.cqWriteFail ⟨r, j⟩) s = .next (cqWriteFail r j s) := onHub_up _ s up
    have shorter := State.withdrawWrite_length sent
    rw [cqWriteFail_sent rfl unconsumed alive running sent] at run
    generalize s.getF (Reg.HIF_RING_CQ.BASE r) * 4096 +
      (s.getF (Reg.HIF_RING_PTR.CQ_TAIL r) + s.ringSize r - (j + 1) % s.ringSize r) % s.ringSize r * 32 = a at run shorter
    obtain ⟨err, code, dead, fewer, out, msi⟩ :=
      State.unsignal_killCq (s := s.withdrawWrite a) ⟨k.hbm, k.loft, k.rstore, k.acc, k.regs⟩ rising unsignalled
    exact ⟨_, run, err, code, dead, fewer, by rw [out, shorter], msi⟩
  · have run : exec (.interruptCoalesceTimeout r) s = .next (coalesceTimeout r s) := onHub_up _ s up
    rw [coalesceTimeout_due irq waits] at run
    exact ⟨_, run, rfl, congrArg Ring.unsignalled (State.ring_setRing r _ rising), s.signalRing_only r⟩
  · rw [show exec (.interruptCoalesceTimeout r) s = .next (coalesceTimeout r s) from onHub_up _ s up, coalesceTimeout_off off]

/-! ### The record of a NOP (R111, R113 to R116) -/

theorem State.nextReq_single {s : State} {r op : Nat} {q : Req} (single : (s.ring r).outstanding = [q]) (ring : q.ring = r)
    (fresh : q.started = false) (hop : q.opcode = op) (none_ : (s.ring r).waitingRecs = []) : s.nextReq r op = some q := by
  simp [State.nextReq, State.recordDue, single, ring, fresh, hop, none_]

/-- R113, R115: the write of a record to the next completion slot, and the request that carries it. -/
def State.recSent (s : State) (c : CRec) : State :=
  { s with
    hostOut := s.hostOut ++ [⟨s.getF (Reg.HIF_RING_CQ.BASE c.ring) * 4096 + s.getF (Reg.HIF_RING_PTR.CQ_TAIL c.ring) * 32,
      c.bytes (s.ring c.ring).cqPhase (s.getF (Reg.HIF_RING_PTR.SQ_HEAD c.ring)) s.timeBase⟩]
    cxlOut := s.cxlOut ++ [⟨.wrCur, s.getF (Reg.HIF_RING_CQ.BASE c.ring) * 64 + s.getF (Reg.HIF_RING_PTR.CQ_TAIL c.ring) / 2, 1⟩] }

/-- R113, R115: the ring once a record has gone to the slot before `next`. -/
def Ring.posted (x : Ring) (next : Nat) : Ring :=
  { x with cqPhase := if next = 0 then !x.cqPhase else x.cqPhase, unconsumed := x.unconsumed + 1, unsignalled := x.unsignalled + 1 }

theorem State.writeRec_eq (s : State) (c : CRec) : s.writeRec c =
    State.coalesce (((s.recSent c).setF (Reg.HIF_RING_PTR.CQ_TAIL c.ring)
      ((s.getF (Reg.HIF_RING_PTR.CQ_TAIL c.ring) + 1) % s.ringSize c.ring)).setRing c.ring
        ((s.ring c.ring).posted ((s.getF (Reg.HIF_RING_PTR.CQ_TAIL c.ring) + 1) % s.ringSize c.ring))) c.ring := by
  have line (b n : Nat) : (b * 4096 + n * 32) / 64 = b * 64 + n / 2 ∧
      (b * 4096 + n * 32 + 32 - 1) / 64 - (b * 4096 + n * 32) / 64 + 1 = 1 := by omega
  obtain ⟨first, one⟩ := line (s.getF (Reg.HIF_RING_CQ.BASE c.ring)) (s.getF (Reg.HIF_RING_PTR.CQ_TAIL c.ring))
  dsimp only [State.writeRec, State.sendCxl]
  rw [if_neg (by decide), one, first]
  rfl

/-- A record of a ring that does not interrupt. -/
theorem State.writeRec_silent {s : State} {c : CRec} (k : s.Canon) (off : s.getF (Reg.HIF_RING_CFG.IRQ_EN c.ring) = 0) :
    s.writeRec c = ((s.recSent c).setF (Reg.HIF_RING_PTR.CQ_TAIL c.ring)
      ((s.getF (Reg.HIF_RING_PTR.CQ_TAIL c.ring) + 1) % s.ringSize c.ring)).setRing c.ring
        ((s.ring c.ring).posted ((s.getF (Reg.HIF_RING_PTR.CQ_TAIL c.ring) + 1) % s.ringSize c.ring)) := by
  rw [State.writeRec_eq]
  refine State.coalesce_quiet (.inl ?_)
  rw [State.getF_setRing, State.getF_setF_other (s.recSent c) _ _ _ k.regs (by simp; omega)]
  exact off

/-- R114, R116: the only request of a ring, with no record of its ring waiting, completes: its record is posted at once. -/
theorem State.complete_alone {s : State} {q o : Req} (w : SMap.rising s.rings = true) (alone : (s.ring q.ring).outstanding = [o])
    (seq : o.seq = q.seq) (none_ : (s.ring q.ring).waitingRecs = []) (status detail : Nat) :
    s.complete q status detail = ((s.setRing q.ring { s.ring q.ring with outstanding := [], waitingRecs := [] }).post
      ⟨q.ring, status, q.seq, q.tag, q.opcode, detail⟩).flushEnd q.ring := by
  have ordered : s.sameOrder q o = true := decide_eq_true (.inr (.inr seq))
  obtain ⟨x, hx⟩ : ∃ x : Ring, x = { s.ring q.ring with
    outstanding := [o], waitingRecs := [⟨q.ring, status, q.seq, q.tag, q.opcode, detail⟩] } := ⟨_, rfl⟩
  have flushed : (s.setRing q.ring x).flushRecs q.ring [o] =
      ((s.setRing q.ring x).setRing q.ring { x with outstanding := [], waitingRecs := [] }).post
        ⟨q.ring, status, q.seq, q.tag, q.opcode, detail⟩ := by
    rw [State.flushRecs, State.ring_setRing _ _ w, hx]
    simp [seq, State.flushRecs]
  dsimp only [State.complete]
  rw [alone, none_, if_pos (by simp [seq]), List.filter_cons_of_pos ordered, List.filter_nil, List.nil_append, ← hx, flushed, hx,
    State.setRing_setRing _ _ _ w]

theorem State.flushEnd_none {s : State} {r : Nat} (h : (s.ring r).endRec = none) : s.flushEnd r = s := by
  dsimp only [State.flushEnd]
  rw [h]

/-- R114, R115: a record posted to the host by a ring that does not interrupt and whose own end has no record waiting. -/
theorem State.post_silent {s : State} {c : CRec} {y : Ring} (k : s.Canon) (w : SMap.rising s.rings = true)
    (phase : y.cqPhase = (s.ring c.ring).cqPhase) (noEnd : y.endRec = none) (alive : y.cqDead = false) (running : s.suspended = false)
    (reach : s.hostReachable = true) (off : s.getF (Reg.HIF_RING_CFG.IRQ_EN c.ring) = 0) :
    ((s.setRing c.ring y).post c).flushEnd c.ring = ((s.recSent c).setF (Reg.HIF_RING_PTR.CQ_TAIL c.ring)
      ((s.getF (Reg.HIF_RING_PTR.CQ_TAIL c.ring) + 1) % s.ringSize c.ring)).setRing c.ring
        (y.posted ((s.getF (Reg.HIF_RING_PTR.CQ_TAIL c.ring) + 1) % s.ringSize c.ring)) := by
  have ring := State.ring_setRing c.ring y w
  have canon : (s.setRing c.ring y).Canon := ⟨k.hbm, k.loft, k.rstore, k.acc, k.regs⟩
  have sent : (s.setRing c.ring y).recSent c = (s.recSent c).setRing c.ring y := by
    rw [State.recSent, ring, phase]
    rfl
  have reach' : (s.setRing c.ring y).hostReachable = true := reach
  have running' : (s.setRing c.ring y).suspended = false := running
  have written : (s.setRing c.ring y).post c = ((s.recSent c).setF (Reg.HIF_RING_PTR.CQ_TAIL c.ring)
      ((s.getF (Reg.HIF_RING_PTR.CQ_TAIL c.ring) + 1) % s.ringSize c.ring)).setRing c.ring
        (y.posted ((s.getF (Reg.HIF_RING_PTR.CQ_TAIL c.ring) + 1) % s.ringSize c.ring)) := by
    rw [State.post, ring, alive, running', reach', State.writeRec_silent canon off, sent, ring]
    exact State.setRing_setRing (s := (s.recSent c).setF _ _) c.ring y _ w
  rw [written]
  have after := State.ring_setRing (s := (s.recSent c).setF (Reg.HIF_RING_PTR.CQ_TAIL c.ring)
    ((s.getF (Reg.HIF_RING_PTR.CQ_TAIL c.ring) + 1) % s.ringSize c.ring)) c.ring
    (y.posted ((s.getF (Reg.HIF_RING_PTR.CQ_TAIL c.ring) + 1) % s.ringSize c.ring)) w
  exact State.flushEnd_none ((congrArg Ring.endRec after).trans noEnd)

/-- R111: a NOP asked for alone on a ring in service that does not interrupt. -/
theorem State.nop_alone {s : State} {r : Nat} {q : Req} {c : CRec} (k : s.Canon) (w : SMap.rising s.rings = true) (ring : q.ring = r)
    (nop : q.opcode = 0) (fresh : q.started = false) (alone : (s.ring r).outstanding = [q]) (none_ : (s.ring r).waitingRecs = [])
    (noEnd : (s.ring r).endRec = none) (alive : (s.ring r).cqDead = false) (running : s.suspended = false) (reach : s.hostReachable = true)
    (off : s.getF (Reg.HIF_RING_CFG.IRQ_EN r) = 0) (hc : c = ⟨r, 0, q.seq, q.tag, 0, Config.openDetail s.freeCtr⟩) :
    s.onReq r 0x00 (fun q s => s.finish q 0) = (((s.recSent c).setF (Reg.HIF_RING_PTR.CQ_TAIL r)
      ((s.getF (Reg.HIF_RING_PTR.CQ_TAIL r) + 1) % s.ringSize r)).setRing r
        (Ring.posted { s.ring r with outstanding := [], waitingRecs := [] }
          ((s.getF (Reg.HIF_RING_PTR.CQ_TAIL r) + 1) % s.ringSize r))).nextFree := by
  subst ring
  have next := State.nextReq_single alone rfl fresh nop none_
  obtain ⟨m, hm⟩ : ∃ m : State, m = s.setRing q.ring { s.ring q.ring with outstanding := [{ q with started := true }] } := ⟨_, rfl⟩
  have started : s.markStarted q = m := by
    rw [State.markStarted, alone, hm]
    simp
  have detail : q.idleDetail m.freeCtr = Config.openDetail s.freeCtr := by
    rw [hm, Req.idleDetail, nop]
    rfl
  have mRing : m.ring q.ring = { s.ring q.ring with outstanding := [{ q with started := true }] } := by rw [hm, State.ring_setRing _ _ w]
  have completed := State.complete_alone (s := m) (q := q) (o := { q with started := true })
    (by rw [hm]; exact State.setRing_rising _ _ w) (by rw [mRing]) rfl
    (by rw [mRing]; exact none_) 0 (Config.openDetail s.freeCtr)
  rw [mRing, hm, State.setRing_setRing _ _ _ w, ← hm, nop, ← hc] at completed
  rw [State.onReq, next]
  dsimp only
  rw [started, State.finish, detail, completed, show q.ring = c.ring by rw [hc]]
  exact congrArg State.nextFree (State.post_silent k w (by rw [hc]) (by rw [hc]; exact noEnd) (by rw [hc]; exact alive) running reach
    (by rw [hc]; exact off))

/-- Settles O24, by the record posted at once. -/
theorem completionRecord : Obligations.CompletionRecord := by
  intro s r q up k ring nop fresh alone none_ noEnd alive running reach off w
  obtain ⟨c, hc⟩ : ∃ c : CRec, c = ⟨r, 0, q.seq, q.tag, 0, Config.openDetail s.freeCtr⟩ := ⟨_, rfl⟩
  have run : exec (.nop r) s = .next (s.onReq r 0x00 fun q s => s.finish q 0) :=
    onHub_up (fun s => s.onReq r 0x00 fun q s => s.finish q 0) s up
  rw [State.nop_alone k w ring nop fresh alone none_ noEnd alive running reach off hc] at run
  have apart : SMap.rising ((s.recSent c).setF (Reg.HIF_RING_PTR.CQ_TAIL r)
      ((s.getF (Reg.HIF_RING_PTR.CQ_TAIL r) + 1) % s.ringSize r)).rings = true := w
  have record := State.ring_setRing r
    (Ring.posted { s.ring r with outstanding := [], waitingRecs := [] } ((s.getF (Reg.HIF_RING_PTR.CQ_TAIL r) + 1) % s.ringSize r)) apart
  have sent : (s.recSent c).hostOut = s.hostOut ++ [⟨s.getF (Reg.HIF_RING_CQ.BASE r) * 4096 + s.getF (Reg.HIF_RING_PTR.CQ_TAIL r) * 32,
      c.bytes (s.ring r).cqPhase (s.getF (Reg.HIF_RING_PTR.SQ_HEAD r)) s.timeBase⟩] ∧
      (s.recSent c).cxlOut = s.cxlOut ++ [⟨.wrCur, s.getF (Reg.HIF_RING_CQ.BASE r) * 64 + s.getF (Reg.HIF_RING_PTR.CQ_TAIL r) / 2, 1⟩] := by
    rw [hc]
    exact ⟨rfl, rfl⟩
  refine ⟨_, run, hc ▸ sent.1, ?_, sent.2, ?_, congrArg Ring.outstanding record, congrArg Ring.unconsumed record, rfl⟩
  · exact State.getF_setF (s.recSent c) (Reg.HIF_RING_PTR.CQ_TAIL r) _ k.regs
  · exact (State.setF_only (s.recSent c) (Reg.HIF_RING_PTR.CQ_TAIL r) _ k.regs).1

end Sys2Proof.Machine
end

section
/-! SUPPORT. The bias table, the host aperture, the window and the host-line cache (R93 to R108). -/

namespace Sys2Proof.Machine

/-! ### Rising lists -/

theorem mem_insertSorted {a k : Nat} {l : List Nat} : a ∈ insertSorted k l ↔ a = k ∨ a ∈ l := by
  induction l with
  | nil => simp [insertSorted]
  | cons x xs ih =>
    unfold insertSorted
    split_ifs with below same
    · exact List.mem_cons
    · subst same
      simp
    · rw [List.mem_cons, ih, List.mem_cons]
      tauto

theorem mem_foldl_insertSorted {a : Nat} {ks l : List Nat} : a ∈ ks.foldl (fun l k => insertSorted k l) l ↔ a ∈ ks ∨ a ∈ l := by
  induction ks generalizing l with
  | nil => simp
  | cons x xs ih =>
    rw [List.foldl_cons, ih, mem_insertSorted, List.mem_cons]
    tauto

theorem RangeJob.has_iff (j : RangeJob) (i : Nat) : j.has i = true ↔ j.first ≤ i ∧ i < j.first + j.count := decide_eq_true_iff

theorem RangeJob.mem_pages (j : RangeJob) (i : Nat) : i ∈ j.pages ↔ j.has i = true := by
  rw [RangeJob.has_iff, RangeJob.pages, List.mem_map]
  constructor
  · rintro ⟨n, hn, rfl⟩
    rw [List.mem_range] at hn
    omega
  · rintro ⟨low, high⟩
    exact ⟨i - j.first, List.mem_range.2 (by omega), by omega⟩

/-! ### BIAS_SET and APT_INVAL (R95, R96, R106) -/

theorem State.onReq_next {s : State} {r op : Nat} {q : Req} (next : s.nextReq r op = some q) (f : Req → State → State) :
    s.onReq r op f = f q (s.markStarted q) := by rw [State.onReq, next]

/-- The range job that a BIAS_SET asks for. -/
def biasJob (q : Req) : RangeJob := ⟨q, wbits (q.word 1) 0 22, wbits (q.word 1) 32 22 + 1, wbits (q.word 1) 63 1 = 1, []⟩

/-- The range job that an APT_INVAL asks for. -/
def aptJob (q : Req) : RangeJob := ⟨q, wbits (q.word 1) 0 21, wbits (q.word 1) 32 21 + 1, false, []⟩

/-- R95, R98: a BIAS_SET past the window, or in full-coherence mode. -/
theorem biasSet_refused {s : State} {r : Nat} {q : Req} (next : s.nextReq r 0x20 = some q)
    (bad : 4194304 < (biasJob q).first + (biasJob q).count ∨ s.getF Reg.HIF_CTRL.COH_MODE ≠ 0) :
    biasSet r s = (s.markStarted q).finish q 0x55 := by
  rw [biasSet, State.onReq_next next]
  exact if_pos (bad.imp_right State.on_eq_true)

/-- R95: the job of a BIAS_SET joins the others, and pages to be shared are shared at once. -/
theorem biasSet_starts {s : State} {r : Nat} {q : Req} (next : s.nextReq r 0x20 = some q)
    (good : ¬(4194304 < (biasJob q).first + (biasJob q).count ∨ s.getF Reg.HIF_CTRL.COH_MODE ≠ 0)) :
    ∃ (j : RangeJob) (sh : List Nat), biasSet r s = { s.markStarted q with biasJobs := s.biasJobs ++ [j], shared := sh } ∧
      ∀ p : Nat, p ∈ sh ↔ p ∈ s.shared ∨ ((biasJob q).bias = true ∧ (biasJob q).has p = true) := by
  have free : ¬(4194304 < (biasJob q).first + (biasJob q).count ∨ (s.markStarted q).on Reg.HIF_CTRL.COH_MODE = true) := fun bad =>
    good (bad.imp_right fun on => (State.on_iff s _).1 on)
  rw [biasSet, State.onReq_next next]
  by_cases bias : (biasJob q).bias = true
  · refine ⟨_, _, (if_neg free).trans (if_pos bias), fun p => ?_⟩
    rw [mem_foldl_insertSorted, List.mem_filter, RangeJob.mem_pages]
    change (biasJob q).has p = true ∧ (!s.shared.contains p) = true ∨ p ∈ s.shared ↔ _
    simp only [Bool.not_eq_true', List.contains_eq_mem, decide_eq_false_iff_not, bias, true_and]
    tauto
  · refine ⟨biasJob q, s.shared, (if_neg free).trans (if_neg bias), fun p => ?_⟩
    simp [bias]

/-- R95, R96: the end of the oldest BIAS_SET. -/
theorem biasSetDone_ends {s : State} {j : RangeJob} {rest : List RangeJob} (jobs : s.biasJobs = j :: rest) :
    biasSetDone s = ({ s with
        biasJobs := rest
        shared := if j.bias then j.pages.foldl (fun l p => insertSorted p l) s.shared else s.shared.filter fun p => !j.has p
        winLines := if j.bias then s.winLines else s.winLines.filter fun l => !j.has (l / 64)
        cxlOut := s.cxlOut ++ if j.bias then [] else j.pages.map fun p => CxlReq.mk .rdOwnNoData (64 * p) 64 } : State).finish j.req 0 := by
  rw [biasSetDone, jobs]
  dsimp only
  split_ifs with bias
  · rw [List.append_nil]
  · rfl

/-- R106: an APT_INVAL past the table. -/
theorem aptInval_refused {s : State} {r : Nat} {q : Req} (next : s.nextReq r 0x21 = some q)
    (bad : s.getF Reg.HIF_APT_CFG.COUNT + 1 < (aptJob q).first + (aptJob q).count) : aptInval r s = (s.markStarted q).finish q 0x57 := by
  rw [aptInval, State.onReq_next next]
  exact if_pos bad

theorem aptInval_starts {s : State} {r : Nat} {q : Req} (next : s.nextReq r 0x21 = some q)
    (good : ¬s.getF Reg.HIF_APT_CFG.COUNT + 1 < (aptJob q).first + (aptJob q).count) :
    aptInval r s = { s.markStarted q with aptJobs := s.aptJobs ++ [aptJob q] } := by
  rw [aptInval, State.onReq_next next]
  exact if_neg good

/-- Settles O27, by the start and the end of each kind of range job. -/
theorem biasAndAperture : Obligations.BiasAndAperture := by
  intro s up
  refine ⟨fun r q next => ?_, fun j rest jobs => ?_, fun r q next => ?_, fun j rest jobs => ⟨fun busy => ?_, fun idle => ?_⟩⟩
  · have run : exec (.biasSet r) s = .next (biasSet r s) := onHub_up _ s up
    split_ifs with bad
    · rw [run, biasSet_refused next bad]
    · obtain ⟨j, sh, started, shared⟩ := biasSet_starts next bad
      rw [started] at run
      refine ⟨_, run, by simp, rfl, rfl, fun p => (shared p).trans ?_⟩
      rw [RangeJob.has_iff]
      exact Iff.or Iff.rfl (and_congr_left' decide_eq_true_iff)
  · have run : exec .biasSetDone s = .next (biasSetDone s) := onHub_up _ s up
    rw [biasSetDone_ends jobs] at run
    refine ⟨_, _, run, fun p => ?_, fun l => ?_⟩
    · by_cases bias : j.bias = true
      · rw [if_pos bias, mem_foldl_insertSorted, RangeJob.mem_pages]
        split <;> simp [*]
      · rw [if_neg bias, List.mem_filter]
        split <;> simp [*]
    · by_cases bias : j.bias = true
      · simp [bias]
      · simp [bias]
  · have run : exec (.aptInval r) s = .next (aptInval r s) := onHub_up _ s up
    split_ifs with bad
    · rw [run, aptInval_refused next bad]
    · rw [aptInval_starts next bad] at run
      exact ⟨_, run, by simp, rfl⟩
  · have run : exec .aptInvalDone s = .next (aptInvalDone s) := onHub_up _ s up
    rw [run, aptInvalDone, jobs]
    exact congrArg _ (if_pos busy)
  · have run : exec .aptInvalDone s = .next (aptInvalDone s) := onHub_up _ s up
    refine ⟨s.aptCache.filter fun e => !j.has e.1, ?_, fun e => ?_⟩
    · rw [run, aptInvalDone, jobs]
      exact congrArg _ (if_neg (by rw [idle]; decide))
    · rw [List.mem_filter, ← RangeJob.has_iff]
      simp

end Sys2Proof.Machine
end

section
/-! SUPPORT. COH_MODE, the window's base, host accesses of the window and host snoops (R94, R98 to R104). -/

namespace Sys2Proof.Machine

/-! ### HIF_CTRL and HIF_HDM (R99, R100, R101, R140) -/

theorem State.hifFlag_fields {s : State} (f : Fld) (c : s.Canon) (wide : 0 < f.w) :
    (s.hifFlag f).getF f ≠ 0 ∧ s.fieldsKept (s.hifFlag f) [f] := by
  unfold State.hifFlag
  split_ifs with on
  · exact ⟨(State.on_iff s f).1 on, fun _ _ => rfl⟩
  · refine ⟨?_, s.setF_fields f 1 c⟩
    rw [State.getF_msi, State.getF_setF s f 1 c.regs, Nat.mod_eq_of_lt (Nat.one_lt_two_pow (by omega))]
    decide

theorem State.anyRing_setHlMode {s : State} (v : Nat) (c : s.Canon) : (s.setF Reg.HIF_CTRL.HL_MODE v).anyRing = s.anyRing := by
  unfold State.anyRing State.on
  refine congrArg _ (funext fun r => ?_)
  rw [State.getF_setF_other s _ _ v c.regs (by simp; omega), State.getF_setF_other s _ _ v c.regs (by simp; omega)]

theorem State.evict_all (s : State) : (s.evict s.hostLines).hostLines = [] := by
  simp [State.evict]

/-- R99: whether COH_MODE may be written is read after HL_MODE has been stored. -/
theorem writeHifCtrl_locked {s : State} (v : Nat) (c : s.Canon) (used : s.getF Reg.CRS_CTRL.ENABLE ≠ 0 ∨ s.anyRing = true) :
    writeHifCtrl v s = (s.setF Reg.HIF_CTRL.HL_MODE (bitsOf v 0 1)).hifFlag Reg.HIF_STATUS.MODE_ERR := by
  refine if_pos ?_
  rw [State.anyRing_setHlMode _ c, Bool.or_eq_true, State.on_iff, State.getF_setF_other s _ _ _ c.regs (by simp)]
  exact used

theorem writeHifCtrl_idle {s : State} (v : Nat) (c : s.Canon) (off : s.getF Reg.CRS_CTRL.ENABLE = 0) (idle : s.anyRing = false) :
    writeHifCtrl v s = if bitsOf v 1 1 = s.getF Reg.HIF_CTRL.COH_MODE then s.setF Reg.HIF_CTRL.HL_MODE (bitsOf v 0 1)
      else { ((s.setF Reg.HIF_CTRL.HL_MODE (bitsOf v 0 1)).evict s.hostLines).setF Reg.HIF_CTRL.COH_MODE (bitsOf v 1 1) with winLines := [] } := by
  rw [← State.getF_setF_other s Reg.HIF_CTRL.COH_MODE Reg.HIF_CTRL.HL_MODE (bitsOf v 0 1) c.regs (by simp)]
  refine if_neg ?_
  rw [State.anyRing_setHlMode _ c, idle, Bool.or_false, State.on_iff, State.getF_setF_other s _ _ _ c.regs (by simp), off]
  decide

theorem getF_setHlMode {s : State} (v : Nat) (c : s.Canon) : (s.setF Reg.HIF_CTRL.HL_MODE (bitsOf v 0 1)).getF Reg.HIF_CTRL.HL_MODE = v % 2 := by
  rw [State.getF_setF s _ _ c.regs]
  exact bitsOf_mod _ _ _

/-! ### Host accesses of the window (R94) -/

theorem sectorsOf_sector {a : Nat} (h : a % 64 = 0) : sectorsOf a 64 = [a / 64] := by
  rw [sectorsOf, if_neg (by decide), show (a + 64 - 1) / 64 - a / 64 + 1 = 1 by omega]
  simp

theorem blocksOf_sector {a : Nat} (h : a % 64 = 0) : blocksOf a 64 = [a / 4096] := by
  rw [blocksOf, if_neg (by decide), show (a + 64 - 1) / 4096 - a / 4096 + 1 = 1 by omega]
  simp

/-- What a read of a sector finds hangs on the memory's registers, not on the host attachment's, the bias table or the lines lent. -/
theorem State.sectorState_congr {s : State} (t : State) (sh wl : List Nat) (sec : Nat)
    (cap : t.getF Reg.GEN_SPARES.HBM_CAP = s.getF Reg.GEN_SPARES.HBM_CAP)
    (phys : ∀ st c, t.getF (Reg.MEM_LCH_STAT.PHYS st c) = s.getF (Reg.MEM_LCH_STAT.PHYS st c))
    (done : ∀ st c, t.getF (Reg.MEM_LCH_MIG.DONE st c) = s.getF (Reg.MEM_LCH_MIG.DONE st c)) :
    ({ s with regs := t.regs, shared := sh, winLines := wl } : State).sectorState sec = s.sectorState sec := by
  generalize hu : ({ s with regs := t.regs, shared := sh, winLines := wl } : State) = u
  have read (f : Fld) : u.getF f = t.getF f := by
    rw [← hu]
    rfl
  have lam : u.lam = s.lam := by rw [← hu]
  have migs : u.migs = s.migs := by rw [← hu]
  have place a : u.placeOf a = s.placeOf a := by
    have mark : u.watermark = s.watermark := funext fun x => (read _).trans (done _ _)
    rw [State.placeOf, State.placeOf, State.watermarks, State.watermarks, State.marks, State.marks, mark, lam, migs]
  have channel : u.channelOf sec = s.channelOf sec := by
    simp only [State.channelOf, State.physOf, place, migs, read, phys, done]
  have dead : u.deadSector sec = s.deadSector sec := by
    simp only [State.deadSector, channel, place, migs, read, done]
    rw [← hu]
  rw [State.sectorState, State.sectorState, State.hbmCap, State.hbmCap, dead, read, cap, ← hu]

theorem windowRead_clean {s : State} {a : Nat} (h : a % 64 = 0) (clean : s.sectorState (a / 64) = .clean) :
    s.windowRead a 64 = (s.hbm.bytes a 64, false, s) := by
  have none : s.badStacks a 64 = [] := by
    simp [State.badStacks, sectorsOf_sector h, clean]
  have read : s.each (sectorsOf a 64) State.readSector = s :=
    State.readSectors_clean _ fun q hq => by
      rw [sectorsOf_sector h, List.mem_singleton] at hq
      rw [hq, clean]
  rw [State.windowRead, State.readRaw, none, read]
  rfl

/-- R98: a host read lends lines, which only HDM-DB keeps account of. -/
theorem State.lendLines_eq (s : State) (off n : Nat) :
    ∃ w, s.lendLines off n = { s with winLines := w } ∧ (s.hdmDb = false → w = s.winLines) := by
  unfold State.lendLines
  split_ifs with db
  · exact ⟨_, rfl, fun off => absurd (db.symm.trans off) (by decide)⟩
  · exact ⟨s.winLines, rfl, fun _ => rfl⟩

theorem State.hdmDb_congr {s t : State} (mode : t.getF Reg.HIF_CTRL.COH_MODE = s.getF Reg.HIF_CTRL.COH_MODE)
    (rate : t.getF Reg.HIF_LINK.RATE = s.getF Reg.HIF_LINK.RATE) : t.hdmDb = s.hdmDb := by
  rw [State.hdmDb, State.hdmDb, State.on, State.on, mode, rate]

theorem pageShared_of_mem {s : State} {p : Nat} (h : p ∈ s.shared) : s.pageShared p = true := by
  simp [State.pageShared, h]

/-- R94: a host read of one sector without errors, inside HBM, of a page that is device-owned. -/
theorem hdmHostAccess_flips {s : State} {off : Nat} (c : s.Canon) (ready : s.ready = true) (whole : off % 64 = 0)
    (within : off + 64 ≤ 16 * 2 ^ 30) (link : s.getF Reg.HIF_STATUS.LINK_UP ≠ 0) (cap : s.hdmBase * 2 ^ 30 + off + 64 ≤ s.hbmCap)
    (clean : s.sectorState ((s.hdmBase * 2 ^ 30 + off) / 64) = .clean) (owned : s.pageShared (off / 4096) = false) :
    ∃ w, (s.hdmDb = false → w = s.winLines) ∧ hdmHostAccess off (.read 64) s = { s.bump Reg.HIF_BIAS_FLIPS.FLIPS 1 with
      shared := insertSorted (off / 4096) s.shared
      winLines := w
      hostReads := s.hostReads ++ [(s.hbm.bytes (s.hdmBase * 2 ^ 30 + off) 64, false)] } := by
  have flip : s.each (blocksOf off 64) State.flipPage =
      { s.bump Reg.HIF_BIAS_FLIPS.FLIPS 1 with shared := insertSorted (off / 4096) s.shared } := by
    rw [blocksOf_sector whole]
    exact if_neg (by rw [owned]; decide)
  obtain ⟨w, lent, unlent⟩ :=
    State.lendLines_eq ({ s.bump Reg.HIF_BIAS_FLIPS.FLIPS 1 with shared := insertSorted (off / 4096) s.shared } : State) off 64
  have kept (f : Fld) (h : f.key ≠ Reg.HIF_BIAS_FLIPS.FLIPS.key) : (s.bump Reg.HIF_BIAS_FLIPS.FLIPS 1).getF f = s.getF f :=
    State.getF_setF_other s f _ _ c.regs h
  have same : (s.bump Reg.HIF_BIAS_FLIPS.FLIPS 1).hbmCap = s.hbmCap := congrArg (· * 0x20000000) (kept _ (by simp))
  have clean' : ({ s.bump Reg.HIF_BIAS_FLIPS.FLIPS 1 with shared := insertSorted (off / 4096) s.shared, winLines := w } : State).sectorState
      ((s.hdmBase * 2 ^ 30 + off) / 64) = .clean :=
    (State.sectorState_congr (s.bump Reg.HIF_BIAS_FLIPS.FLIPS 1) (insertSorted (off / 4096) s.shared) w _
      (kept _ (by simp)) (fun _ _ => kept _ (by simp; omega)) (fun _ _ => kept _ (by simp; omega))).trans clean
  have db : ({ s.bump Reg.HIF_BIAS_FLIPS.FLIPS 1 with shared := insertSorted (off / 4096) s.shared } : State).hdmDb = s.hdmDb :=
    State.hdmDb_congr (kept Reg.HIF_CTRL.COH_MODE (by simp)) (kept Reg.HIF_LINK.RATE (by simp))
  refine ⟨w, fun off => unlent (db.trans off), ?_⟩
  have go : ¬((!s.ready) = true ∨ (!s.on Reg.HIF_STATUS.LINK_UP) = true ∨ (64 : Nat) = 0 ∨ 16 * 2 ^ 30 < off + 64) := by
    simp only [ready, State.on_eq_true link, Bool.not_true, Bool.false_eq_true, false_or]
    omega
  refine (if_neg go).trans ?_
  dsimp only
  rw [flip]
  dsimp only
  have cap' : ({ s.bump Reg.HIF_BIAS_FLIPS.FLIPS 1 with shared := insertSorted (off / 4096) s.shared } : State).hbmCap = s.hbmCap := same
  rw [cap', Nat.min_eq_left (by omega), lent, windowRead_clean (by omega) clean']
  rfl

/-! ### Host snoops (R98) -/

theorem dirtyRuns_clean {xs : List (Option (Byte × Bool))} (clean : ∀ y ∈ xs, ∀ b : Byte, y ≠ some (b, true)) (a : Nat) :
    dirtyRuns a xs = [] := by
  induction xs generalizing a with
  | nil => rfl
  | cons x xs ih =>
    have rest := ih (fun y hy => clean y (List.mem_cons_of_mem _ hy)) (a + 1)
    match x, clean x List.mem_cons_self with
    | none, _ => exact rest
    | some (b, true), dirty => exact absurd rfl (dirty b)
    | some (_, false), _ => exact rest

theorem hostSnoop_lines {s : State} {line : Nat} (x : HostLine) :
    x ∈ (s.evict (s.hostLines.filter fun x => Nat.beq x.line line)).hostLines ↔ x ∈ s.hostLines ∧ x.line ≠ line := by
  simp only [State.evict, List.mem_filter, Bool.not_eq_true', List.contains_eq_mem, decide_eq_false_iff_not, not_and]
  refine and_congr_right fun held => ?_
  rw [forall_prop_of_true held, Bool.not_eq_true, ← Bool.not_eq_true, Nat.beq_eq]

/-- Settles O28, register by register, the host access and the snoop last. -/
theorem windowAndCoherence : Obligations.WindowAndCoherence := by
  intro s up c
  have hub : s.hubUp := ⟨up.1, up.2.2⟩
  have hl (v : Nat) : (s.setF Reg.HIF_CTRL.HL_MODE v).Canon := (State.setF_kept s _ v ⟨c, rfl, rfl⟩).canon
  have write (v : W32) : exec (.cohModeWrite v) s = .next (writeHifCtrl v.toNat s) := onHub_gated 0x20000 _ s hub
  have move (v : W64) : exec (.hdmMoveRequest v) s = .next (writeHdm v.toNat s) := onHub_gated 0x20010 _ s hub
  refine ⟨fun v same off idle => ?_, fun v used => ?_, fun v other off idle => ?_, fun v fits => ?_, fun v tall => ?_,
    fun off whole within link cap clean owned => ?_, fun line => ⟨fun per => ?_, fun full => ?_⟩⟩
  · refine ⟨_, write v, ?_⟩
    rw [writeHifCtrl_idle _ c off idle, if_pos same]
    exact ⟨getF_setHlMode _ c, s.setF_only _ _ c.regs⟩
  · refine ⟨_, write v, ?_⟩
    rw [writeHifCtrl_locked _ c used]
    obtain ⟨flag, kept⟩ := State.hifFlag_fields Reg.HIF_STATUS.MODE_ERR (hl (bitsOf v.toNat 0 1)) (by decide)
    refine ⟨flag, (kept _ (by simp)).trans (getF_setHlMode _ c), ?_⟩
    exact State.fieldsKept_mono (State.fieldsKept_trans (State.setF_fields _ _ c) kept) (by simp)
  · refine ⟨_, write v, ?_⟩
    rw [writeHifCtrl_idle _ c off idle, if_neg other]
    have kept := State.setF_fields Reg.HIF_CTRL.COH_MODE (bitsOf v.toNat 1 1) (hl (bitsOf v.toNat 0 1))
    refine ⟨?_, (kept _ (by simp)).trans (getF_setHlMode _ c), s.evict_all, ?_⟩
    · refine (State.getF_setF _ Reg.HIF_CTRL.COH_MODE (bitsOf v.toNat 1 1) (hl (bitsOf v.toNat 0 1)).regs).trans ?_
      exact (bitsOf_mod _ _ _).trans (bitsOf_div _ _ _)
    · exact State.fieldsKept_mono (State.fieldsKept_trans (State.setF_fields _ _ c) kept) (by simp)
  · have run := move v
    rw [writeHdm, if_pos fits] at run
    have read := State.getF_setFs_mem s [(Reg.HIF_HDM.BASE_GIB, bitsOf v.toNat 0 10), (Reg.HIF_HDM.MOVE_PEND, 1)] c.regs (by simp)
    exact ⟨_, run, (read (Reg.HIF_HDM.BASE_GIB, bitsOf v.toNat 0 10) (by simp)).trans (bitsOf_mod _ _ _),
      read (Reg.HIF_HDM.MOVE_PEND, 1) (by simp), by rw [State.setFs_eq], s.setFs_only _ c.regs⟩
  · have run := move v
    rw [writeHdm, if_neg (by omega)] at run
    obtain ⟨flag, kept⟩ := State.hifFlag_fields Reg.HIF_STATUS.HDM_ERR c (by decide)
    refine ⟨_, run, flag, kept, ?_⟩
    unfold State.hifFlag
    split <;> rfl
  · have run : exec (.hdmHostAccess off (.read 64)) s = .next (hdmHostAccess off (.read 64) s) := onCore_up _ s up
    obtain ⟨w, unlent, read⟩ := hdmHostAccess_flips c up.2.2 whole within link cap clean owned
    rw [read] at run
    exact ⟨_, run, rfl, pageShared_of_mem (mem_insertSorted.2 (.inl rfl)), State.getF_setF s _ _ c.regs, s.setF_fields _ _ c, unlent, rfl⟩
  · have run : exec (.hostSnoop line) s = .next (hostSnoop line s) := onHub_up _ s hub
    rw [run, hostSnoop, if_neg (by rw [State.on_eq_false per]; decide)]
  · have run : exec (.hostSnoop line) s = .next (hostSnoop line s) := onHub_up _ s hub
    rw [hostSnoop, if_pos (State.on_eq_true full)] at run
    refine ⟨_, run, hostSnoop_lines, fun clean => ?_, rfl⟩
    refine (congrArg (s.hostOut ++ ·) (List.flatMap_eq_nil_iff.2 fun x hx => ?_)).trans (List.append_nil _)
    rw [List.mem_filter, Nat.beq_eq] at hx
    exact dirtyRuns_clean (clean x hx.1 hx.2) _

end Sys2Proof.Machine
end

section
/-! SUPPORT. What a failed course, an abort and the act of a quiesce leave alone, and the quiesce queue (R127 to R132). -/

namespace Sys2Proof.Machine

/-! ### Data moved, and a course that fails -/

theorem State.hostView_upd (s : State) {hbm inj flitOut heldRecs hostOut mgmtOut faultMsiAt mergeAt power fell waiting prev kv kvUndoMem kvLog} :
    ({ s with
      hbm := hbm, inj := inj, flitOut := flitOut, heldRecs := heldRecs, hostOut := hostOut, mgmtOut := mgmtOut, faultMsiAt := faultMsiAt
      mergeAt := mergeAt, power := power, fell := fell, waiting := waiting, prev := prev, kv := kv, kvUndoMem := kvUndoMem, kvLog := kvLog
      : State }).hostView = s.hostView := rfl

@[simp] theorem State.hostView_viaHost (s : State) (a n : Nat) (store : Bool) : (s.viaHost a n store).hostView = s.hostView := by
  unfold State.viaHost
  split_ifs <;> rfl

@[simp] theorem State.hostView_storeSector (s : State) (sec : Nat) : (s.storeSector sec).hostView = s.hostView := by
  have arm (st : Nat) : (s.setF (Reg.MEM_INJECT.ARM st) 0).hostView = s.hostView := State.hostView_setF (by simp [hostKey]; omega)
  dsimp only [State.storeSector]
  split
  · exact arm _
  · rfl

@[simp] theorem State.hostView_writeHbm (s : State) (a : Nat) (bs : List Byte) : (s.writeHbm a bs).hostView = s.hostView :=
  (State.hostView_upd _).trans ((State.hostView_each State.hostView_storeSector).trans (s.hostView_viaHost a _ true))

@[simp] theorem State.hostView_useInject (s : State) : s.useInject.hostView = s.hostView :=
  (State.hostView_upd _).trans ((State.hostView_bump rfl).trans (State.hostView_setF (f := Reg.FLT_INJECT.ARM) rfl))

@[simp] theorem State.hostView_sendFlit (s : State) (p ftype : Nat) (payload : List Byte) :
    (s.sendFlit p ftype payload).hostView = s.hostView := by
  have put (q : FlitReq) : (s.putFlit p q).hostView = s.hostView := by
    dsimp only [State.putFlit]
    refine (State.hostView_upd _).trans ((State.hostView_setPort _ _ _).trans ?_)
    split
    · exact s.hostView_useInject
    · rfl
  dsimp only [State.sendFlit, State.sendFlitN]
  split
  · exact put _
  · rfl

@[simp] theorem State.hostView_sendFail (s : State) (counter : Nat) : (s.sendFail counter).hostView = s.hostView :=
  State.hostView_each fun s p => s.hostView_sendFlit p 5 _

@[simp] theorem State.hostView_setLast (s : State) (status counter : Nat) (committed suppressed : Bool) :
    (s.setLast status counter committed suppressed).hostView = s.hostView :=
  State.hostView_setFs (by intro x hx; fin_cases hx <;> rfl)

@[simp] theorem State.hostView_setSeed (s : State) (v : Nat) : (s.setSeed v).hostView = s.hostView :=
  State.hostView_each fun s n => State.hostView_setF (by simp [hostKey]; omega)

@[simp] theorem State.hostView_withdraw (s : State) : s.withdraw.hostView = s.hostView := by
  unfold State.withdraw
  split
  · rfl
  · exact State.hostView_each fun s a => s.hostView_finish a.req 0x48

@[simp] theorem State.hostView_hold (s : State) : s.hold.hostView = s.hostView :=
  (State.hostView_withdraw _).trans (State.hostView_setF rfl)

@[simp] theorem State.hostView_kvReport (s : State) : s.kvReport.hostView = s.hostView :=
  State.hostView_setFs (by intro x hx; fin_cases hx <;> rfl)

@[simp] theorem State.hostView_kvRollback (s : State) : s.kvRollback.hostView = s.hostView := by
  have written : (s.each s.kvUndoMem fun s x => s.writeHbm x.1 x.2).hostView = s.hostView :=
    State.hostView_each fun s x => s.hostView_writeHbm x.1 x.2
  refine (State.hostView_kvReport _).trans ((State.hostView_upd _).trans ?_)
  split
  · exact written
  · exact (State.hostView_setF (f := Reg.CRS_KV_STAT.ROLLBACK) rfl).trans written

theorem State.hostView_stopRafters (s : State) (c : Course) : (s.stopRafters c).hostView = s.hostView := rfl

@[simp] theorem State.hostView_failCourse (s : State) (code : Nat) : (s.failCourse code).hostView = s.hostView := by
  cases running : s.course with
  | none => rw [State.failCourse_none code running]
  | some c =>
    cases alive : c.failed with
    | true => rw [State.failCourse_failed code running alive]
    | false =>
      rw [State.failCourse_eq code running alive, State.hostView_kvRollback, State.hostView_hold, State.reportStopped, State.hostView_complete,
        State.hostView_setSeed, State.showStopped, State.hostView_setLast, State.hostView_setF rfl, State.hostView_stopRafters, State.failTold,
        State.hostView_sendFail, State.hostView_writeHbm]

/-! ### HIF_FUNC_EN and HIF_FUNC_BUSY through an abort and an act -/

/-- The places of HIF_FUNC_EN and HIF_FUNC_BUSY. -/
def funcKey (k : Nat) : Bool := decide (k = 8392960 ∨ k = 8393216)

/-- HIF_FUNC_EN and HIF_FUNC_BUSY. -/
def State.funcView (s : State) : SMap Nat := s.regsOn funcKey

theorem State.getF_of_funcView {s t : State} (h : t.funcView = s.funcView) (cs : s.Canon) (ct : t.Canon) {f : Fld}
    (hf : funcKey f.key = true) : t.getF f = s.getF f := State.getF_of_regsOn h cs.regs ct.regs hf

theorem hostKey_of_funcKey {k : Nat} (h : funcKey k = true) : hostKey k = true := by
  simp only [funcKey, decide_eq_true_eq] at h
  rcases h with rfl | rfl <;> rfl

theorem State.funcView_of_hostView {s t : State} (h : t.hostView = s.hostView) : t.funcView = s.funcView := by
  have regs (u : State) : u.regsOn funcKey = (u.regsOn hostKey).filter fun x => funcKey x.1 := by
    refine ((List.filter_filter ..).trans (List.filter_congr fun x _ => ?_)).symm
    cases hx : funcKey x.1 with
    | false => rfl
    | true => rw [hostKey_of_funcKey hx]; rfl
  have same : t.regsOn hostKey = s.regsOn hostKey := congrArg (fun x => x.2.2.2.2.2.2) h
  rw [State.funcView, State.funcView, regs, regs, same]

theorem State.funcView_setF {s : State} {f : Fld} {v : Nat} (h : funcKey f.key = false) : (s.setF f v).funcView = s.funcView :=
  s.regsOn_setF funcKey f v h

theorem State.funcView_setFs {s : State} {l : List (Fld × Nat)} (h : ∀ x ∈ l, funcKey x.1.key = false) :
    (s.setFs l).funcView = s.funcView := by
  induction l generalizing s with
  | nil => rfl
  | cons x t ih =>
    rw [State.setFs_cons, ih fun y hy => h y (List.mem_cons_of_mem _ hy), State.funcView_setF (h x List.mem_cons_self)]

theorem State.funcView_setPort (s : State) (p : Nat) (x : Port) : (s.setPort p x).funcView = s.funcView := rfl
theorem State.funcView_setGutter (s : State) (i : Nat) (x : Gutter) : (s.setGutter i x).funcView = s.funcView := rfl

theorem State.funcView_each {α : Type} {s : State} {xs : List α} {f : State → α → State} (h : ∀ s x, (f s x).funcView = s.funcView) :
    (s.each xs f).funcView = s.funcView := by
  unfold State.each
  induction xs generalizing s with
  | nil => rfl
  | cons x t ih => exact ih.trans (h s x)

theorem State.targets_each {α : Type} {s : State} {xs : List α} {f : State → α → State} (h : ∀ s x, (f s x).targets = s.targets) :
    (s.each xs f).targets = s.targets := by
  unfold State.each
  induction xs generalizing s with
  | nil => rfl
  | cons x t ih => exact ih.trans (h s x)

/-! ### An abort (R129, R130) -/

/-- Gate, generation and queue of a target, which an abort keeps. -/
def Target.fence (x : Target) : Gate × Nat × List (Option Req × Nat × Bool) := (x.gate, x.gen, x.queue)

/-- From `s` to `u` targets have changed in their tags alone, none of which is new, and HIF_FUNC_EN and HIF_FUNC_BUSY not at all. -/
structure State.TagsDropped (s u : State) : Prop where
  func : u.funcView = s.funcView
  rising : SMap.rising s.targets = true → SMap.rising u.targets = true
  fence : SMap.rising s.targets = true → ∀ t, (u.target t).fence = (s.target t).fence
  empty : SMap.rising s.targets = true → ∀ t, (s.target t).tags = [] → (u.target t).tags = []

theorem State.TagsDropped.trans {s u v : State} (h : s.TagsDropped u) (k : u.TagsDropped v) : s.TagsDropped v :=
  ⟨k.func.trans h.func, fun w => k.rising (h.rising w), fun w t => (k.fence (h.rising w) t).trans (h.fence w t),
    fun w t e => k.empty (h.rising w) t (h.empty w t e)⟩

theorem State.tagsDropped_of_targets {s u : State} (targets : u.targets = s.targets) (func : u.funcView = s.funcView) : s.TagsDropped u := by
  have same t : u.target t = s.target t := by rw [State.target, State.target, targets]
  exact ⟨func, fun w => targets ▸ w, fun _ t => congrArg Target.fence (same t), fun _ t e => (congrArg Target.tags (same t)).trans e⟩

theorem State.tagsDropped_of_hostView {s u : State} (h : u.hostView = s.hostView) : s.TagsDropped u :=
  State.tagsDropped_of_targets (congrArg Prod.fst h) (State.funcView_of_hostView h)

theorem State.tagsDropped_each {α : Type} {s : State} {xs : List α} {f : State → α → State} (h : ∀ (s : State) x, s.TagsDropped (f s x)) :
    s.TagsDropped (s.each xs f) := by
  unfold State.each
  induction xs generalizing s with
  | nil => exact State.tagsDropped_of_targets rfl rfl
  | cons x t ih => exact (h s x).trans ih

theorem State.killTag_drops (s : State) (t tag : Nat) : s.TagsDropped (s.killTag t tag) := by
  dsimp only [State.killTag]
  split
  · refine ⟨rfl, State.setTarget_rising t _, fun w u => ?_, fun w u none => ?_⟩
    · by_cases e : u = t
      · rw [e, State.target_setTarget t _ w]
        rfl
      · rw [State.target_setTarget_other _ w e]
    · by_cases e : u = t
      · rw [e] at none ⊢
        rw [State.target_setTarget t _ w, none]
        rfl
      · rw [State.target_setTarget_other _ w e, none]
  · exact State.tagsDropped_of_targets rfl rfl

theorem State.hostView_countJobs (s : State) : s.countJobs.hostView = s.hostView := by
  have busy (v : Nat) : (s.setF Reg.MED_STAT.BUSY v).hostView = s.hostView := State.hostView_setF rfl
  dsimp only [State.countJobs]
  split
  · exact (State.hostView_setFs (by intro x hx; fin_cases hx <;> rfl)).trans (busy _)
  · exact busy _

theorem State.stopFill_drops (s : State) (o : SvlOp) : s.TagsDropped (s.stopFill o) := by
  have hold (n : Nat) (b : Bool) (f : State) (k : funcKey (Reg.SVL_SLOT.HOLD o.area o.slot).key = false) :
      (f.clrBit (Reg.SVL_SLOT.HOLD o.area o.slot) n).funcView = f.funcView := by
    unfold State.clrBit
    split
    · exact State.funcView_setF k
    · rfl
  have targets : (s.stopFill o).targets = s.targets := by
    dsimp only [State.stopFill, State.releaseSlot, State.clrBit]
    split_ifs <;> rfl
  refine State.tagsDropped_of_targets targets ?_
  have released : (s.releaseSlot o false).funcView = s.funcView := by
    have held := hold (holdBit o.kind) false s (by simp [funcKey]; omega)
    dsimp only [State.releaseSlot]
    rw [Bool.false_and, if_neg (by decide)]
    split
    · exact (State.funcView_setF rfl).trans held
    · exact held
  dsimp only [State.stopFill]
  split
  · exact (State.funcView_setF (by simp [funcKey]; omega)).trans released
  · exact released

/-- R129, R130: an abort empties a target of its tags and keeps its gate, its generation and its queue. -/
theorem State.abortTarget_drops {s : State} (t : Nat) (w : SMap.rising s.targets = true) :
    (s.abortTarget t).funcView = s.funcView ∧ SMap.rising (s.abortTarget t).targets = true ∧
      ((s.abortTarget t).target t).fence = (s.target t).fence ∧ ((s.abortTarget t).target t).tags = [] := by
  unfold State.abortTarget
  extract_lets x held u mine rings v y z
  have uTarget : u.target t = { x with tags := [], dead := x.dead ++ held } := State.target_setTarget t _ w
  have uRising : SMap.rising u.targets = true := State.setTarget_rising t _ w
  have uFunc : u.funcView = s.funcView := rfl
  clear_value u
  have hv : u.TagsDropped v := State.tagsDropped_each fun s j =>
    (State.tagsDropped_each fun s t => s.killTag_drops t _).trans
      ((State.tagsDropped_of_hostView (State.hostView_noteJob _ _ _)).trans (State.tagsDropped_of_hostView (State.hostView_complete _ _ _ _)))
  clear_value v
  have hy : v.TagsDropped y := (State.tagsDropped_of_targets rfl rfl).trans (State.tagsDropped_of_hostView (State.hostView_countJobs _))
  clear_value y
  have hz : y.TagsDropped z := State.tagsDropped_each fun s o => by
    split
    · exact (s.stopFill_drops o).trans (State.tagsDropped_of_hostView (State.hostView_complete _ _ _ _))
    · exact s.stopFill_drops o
  clear_value z
  obtain ⟨func, rising, fence, empty⟩ := hv.trans (hy.trans hz)
  refine ⟨func.trans uFunc, rising uRising, (fence uRising t).trans ?_, empty uRising t ?_⟩
  · rw [uTarget]
    rfl
  · rw [uTarget]

/-! ### The act of a quiesce, and its queue (R129, R131, R132) -/

/-- R129 Act: what acts beside the target's gate and generation. -/
theorem State.actTarget_eq (s : State) (t action : Nat) : ∃ u : State, u.targets = s.targets ∧ u.funcView = s.funcView ∧
    s.actTarget t action = u.setTarget t { s.target t with gate := if action = 1 then .off else .opened, gen := ((s.target t).gen + 1) % 4 } := by
  have set (s : State) (l : List (Fld × Nat)) : (s.setFs l).targets = s.targets := by rw [State.setFs_eq]
  have port (p : Nat) : (s.portOff p).targets = s.targets ∧ (s.portOff p).funcView = s.funcView := by
    rw [State.portOff, State.setPort_targets, set, State.funcView_setPort]
    exact ⟨rfl, State.funcView_setFs (by simp [funcKey]; omega)⟩
  have gutter (s : State) (i : Nat) : (s.resetGutter i).targets = s.targets ∧ (s.resetGutter i).funcView = s.funcView := by
    rw [State.resetGutter, State.setGutter_targets, set, State.funcView_setGutter]
    exact ⟨rfl, State.funcView_setFs (by simp [funcKey]; omega)⟩
  unfold State.actTarget
  extract_lets a b c x
  have ha : a.targets = s.targets ∧ a.funcView = s.funcView := by
    dsimp only [a]
    split
    · exact port _
    · exact ⟨rfl, rfl⟩
  clear_value a
  have hb : b.targets = a.targets ∧ b.funcView = a.funcView := by
    dsimp only [b]
    split
    · exact ⟨rfl, rfl⟩
    · exact ⟨State.targets_each fun s i => (gutter s i).1, State.funcView_each fun s i => (gutter s i).2⟩
  clear_value b
  have hc : c.targets = b.targets ∧ c.funcView = b.funcView := by
    dsimp only [c]
    split
    · exact ⟨rfl, State.funcView_setF rfl⟩
    · exact ⟨rfl, rfl⟩
  clear_value c
  have targets := hc.1.trans (hb.1.trans ha.1)
  have same : x = s.target t := by rw [State.target, ← targets]; rfl
  exact ⟨c, targets, hc.2.trans (hb.2.trans ha.2), by rw [same]⟩

theorem State.actTarget_acts {s : State} (t action : Nat) (w : SMap.rising s.targets = true) :
    (s.actTarget t action).funcView = s.funcView ∧ SMap.rising (s.actTarget t action).targets = true ∧
      (s.actTarget t action).target t =
        { s.target t with gate := if action = 1 then .off else .opened, gen := ((s.target t).gen + 1) % 4 } := by
  obtain ⟨u, targets, func, eq⟩ := s.actTarget_eq t action
  have w' : SMap.rising u.targets = true := targets ▸ w
  rw [eq]
  exact ⟨func, State.setTarget_rising t _ w', State.target_setTarget t _ w'⟩

/-- A target aborted, acted on and given the queue `rest`. -/
def State.quiesced (s : State) (t action : Nat) (rest : List (Option Req × Nat × Bool)) : State :=
  ((s.abortTarget t).actTarget t action).setTarget t { ((s.abortTarget t).actTarget t action).target t with queue := rest }

theorem State.quiesced_canon {s : State} (c : s.Canon) (t action : Nat) (rest : List (Option Req × Nat × Bool)) :
    (s.quiesced t action rest).Canon :=
  (State.setTarget_kept _ _ _ (State.actTarget_kept _ _ _ (State.abortTarget_kept s t ⟨c, rfl, rfl⟩))).canon

theorem State.quiesced_target {s : State} (t action : Nat) (rest : List (Option Req × Nat × Bool)) (w : SMap.rising s.targets = true) :
    (s.quiesced t action rest).funcView = s.funcView ∧ SMap.rising (s.quiesced t action rest).targets = true ∧
      ((s.quiesced t action rest).target t).queue = rest ∧ ((s.quiesced t action rest).target t).tags = [] ∧
      ((s.quiesced t action rest).target t).gate = (if action = 1 then .off else .opened) ∧
      ((s.quiesced t action rest).target t).gen = ((s.target t).gen + 1) % 4 := by
  obtain ⟨func, rising, fence, tags⟩ := State.abortTarget_drops t w
  obtain ⟨func', rising', target⟩ := State.actTarget_acts (s := s.abortTarget t) t action rising
  have gen : ((s.abortTarget t).target t).gen = (s.target t).gen := congrArg (fun x => x.2.1) fence
  have same := State.target_setTarget (s := (s.abortTarget t).actTarget t action) t
    { ((s.abortTarget t).actTarget t action).target t with queue := rest } rising'
  refine ⟨func'.trans func, State.setTarget_rising t _ rising', ?_⟩
  rw [State.quiesced, same, target, gen]
  exact ⟨rfl, tags, rfl, rfl⟩

theorem State.finishQuiesce_request {s : State} {t action : Nat} {q : Req} {b : Bool} {rest : List (Option Req × Nat × Bool)}
    (front : (s.target t).queue = (some q, action, b) :: rest) : s.finishQuiesce t = (s.quiesced t action rest).finish q 0 := by
  rw [State.finishQuiesce, front]
  rfl

theorem State.finishQuiesce_function {s : State} {t action : Nat} {b : Bool} {rest : List (Option Req × Nat × Bool)}
    (front : (s.target t).queue = (none, action, b) :: rest) :
    s.finishQuiesce t = if action = 1 then (s.quiesced t action rest).funcPoweredDown t else s.quiesced t action rest := by
  rw [State.finishQuiesce, front]
  rfl

theorem State.drainQueue_empty {s : State} {t : Nat} (none : (s.target t).queue = []) (n : Nat) : s.drainQueue t n = s := by
  cases n with
  | zero => rfl
  | succ n => rw [State.drainQueue, none]

theorem State.pumpTarget_empty {s : State} {t : Nat} (none : (s.target t).queue = []) : s.pumpTarget t = s := State.drainQueue_empty none _

/-- A target with one quiesce in its queue, not started. -/
def State.queued (s : State) (t : Nat) (req : Option Req) (action : Nat) : State :=
  s.setTarget t { s.target t with queue := [(req, action, false)] }

theorem State.queued_target {s : State} (t : Nat) (req : Option Req) (action : Nat) (w : SMap.rising s.targets = true) :
    (s.queued t req action).target t = { s.target t with queue := [(req, action, false)] } := State.target_setTarget t _ w

/-- R131: a quiesce that waits behind no other starts. -/
theorem State.queueQuiesce_alone {s : State} {t : Nat} (w : SMap.rising s.targets = true) (none : (s.target t).queue = []) (req : Option Req)
    (action : Nat) : s.queueQuiesce t req action = (s.queued t req action).startQuiesce t := by
  have queue := congrArg Target.queue (State.queued_target t req action w)
  dsimp only [State.queueQuiesce]
  rw [none, List.nil_append, ← State.queued, State.pumpTarget, State.drainQueue, queue]
  dsimp only
  split_ifs with shorter
  · exact State.drainQueue_empty (List.length_eq_zero_iff.1 (Nat.lt_one_iff.1 shorter)) _
  · rfl

/-- R132: with NOW 0 a quiesce waits for the course that uses its target. -/
theorem State.startQuiesce_waits {s : State} {t action : Nat} {q : Req} {rest : List (Option Req × Nat × Bool)}
    (front : (s.target t).queue = (some q, action, false) :: rest) (used : s.targetInUse t = true) (later : wbits (q.word 1) 10 1 = 0) :
    s.startQuiesce t = s := by
  rw [State.startQuiesce, front]
  simp [used, later]

/-- A target fenced off, with a quiesce under way at the front of its queue. -/
def State.fenced (s : State) (t : Nat) (req : Option Req) (action : Nat) (rest : List (Option Req × Nat × Bool)) : State :=
  s.setTarget t { s.target t with
    gate := if (s.target t).gate = .off then .off else .draining, queue := (req, action, true) :: rest }

theorem State.startQuiesce_free {s : State} {t action : Nat} {req : Option Req} {rest : List (Option Req × Nat × Bool)}
    (front : (s.target t).queue = (req, action, false) :: rest) (free : s.targetInUse t = false) :
    s.startQuiesce t = if s.getF Reg.HIF_QUI_DRAIN.DRAIN_US = 0 then (s.fenced t req action rest).finishQuiesce t
      else s.fenced t req action rest := by
  rw [State.startQuiesce, front]
  simp only [free, Bool.false_and, Bool.false_eq_true, if_false]
  rfl

/-- R132: with NOW 1 the course that uses the target fails with 0x86, and the quiesce starts. -/
theorem State.startQuiesce_now {s : State} {t action : Nat} {q : Req} {rest : List (Option Req × Nat × Bool)}
    (front : (s.target t).queue = (some q, action, false) :: rest) (used : s.targetInUse t = true) (now : wbits (q.word 1) 10 1 = 1)
    (free : (s.failCourse 0x86).targetInUse t = false) (drain : (s.failCourse 0x86).getF Reg.HIF_QUI_DRAIN.DRAIN_US ≠ 0) :
    s.startQuiesce t = (s.failCourse 0x86).fenced t (some q) action rest := by
  rw [State.startQuiesce, front]
  simp only [used, now, decide_true, Bool.and_self, if_true, free, Bool.false_eq_true, if_false, State.getF_setTarget, drain]
  rfl

theorem State.targetInUse_course {s : State} {t : Nat} (used : s.targetInUse t = true) : ∃ c, s.course = some c ∧ c.failed = false := by
  unfold State.targetInUse at used
  split at used
  · next c running =>
    simp only [Bool.and_eq_true, Bool.not_eq_true'] at used
    exact ⟨c, running, used.1.1⟩
  · exact absurd used (by decide)

end Sys2Proof.Machine
end

section
/-! SUPPORT. QUIESCE, its drain limit, the replies of a target, and HIF_FUNC_EN (R127 to R132). -/

namespace Sys2Proof.Machine

/-! ### The end of a function's power-down (R127) -/

theorem testBit_clrBit {s : State} {f : Fld} {b : Nat} (c : s.Canon) (within : b < f.w) : ((s.clrBit f b).getF f).testBit b = false := by
  unfold State.clrBit
  split_ifs with on
  · rw [State.getF_setF s f _ c.regs, Nat.testBit_mod_two_pow, decide_eq_true within, Bool.true_and, Nat.shiftLeft_eq, Nat.one_mul]
    have even : s.getF f = 2 ^ b + (s.getF f - 2 ^ b) := by
      have := Nat.ge_two_pow_of_testBit on
      omega
    rw [even, Nat.testBit_two_pow_add_eq] at on
    simpa using on
  · simpa using on

/-- R127: HIF_FUNC_BUSY is clear and the gate is off, or open where HIF_FUNC_EN has been written again. -/
theorem State.funcPoweredDown_ends {s : State} {i : Nat} (c : s.Canon) (w : SMap.rising s.targets = true) (func : i < 4)
    (off : (s.target (funcTarget i)).gate = .off) :
    ((s.funcPoweredDown (funcTarget i)).target (funcTarget i)).queue = (s.target (funcTarget i)).queue ∧
      ((s.funcPoweredDown (funcTarget i)).target (funcTarget i)).tags = (s.target (funcTarget i)).tags ∧
      (((s.funcPoweredDown (funcTarget i)).getF Reg.HIF_FUNC_BUSY.BUSY).testBit i) = false ∧
      ((s.funcPoweredDown (funcTarget i)).target (funcTarget i)).gate =
        if (s.getF Reg.HIF_FUNC_EN.EN).testBit i then .opened else .off := by
  have number : (if funcTarget i = 0x31 then 2 else funcTarget i - 0x100) = i := by
    interval_cases i <;> rfl
  have clr : (s.clrBit Reg.HIF_FUNC_BUSY.BUSY i).Canon := (State.clrBit_kept s _ _ ⟨c, rfl, rfl⟩).canon
  have targets : (s.clrBit Reg.HIF_FUNC_BUSY.BUSY i).targets = s.targets := by
    unfold State.clrBit
    split <;> rfl
  have en : (s.clrBit Reg.HIF_FUNC_BUSY.BUSY i).getF Reg.HIF_FUNC_EN.EN = s.getF Reg.HIF_FUNC_EN.EN := by
    unfold State.clrBit
    split
    · exact State.getF_setF_other s _ _ _ c.regs (by decide)
    · rfl
  have busy := testBit_clrBit (f := Reg.HIF_FUNC_BUSY.BUSY) c func
  rw [State.funcPoweredDown, number, en]
  generalize s.clrBit Reg.HIF_FUNC_BUSY.BUSY i = u at clr targets busy ⊢
  have same : u.target (funcTarget i) = s.target (funcTarget i) := by rw [State.target, State.target, targets]
  split_ifs with on
  · obtain ⟨func, -, target⟩ := State.actTarget_acts (s := u) (funcTarget i) 2 (targets ▸ w)
    have kept := State.getF_of_funcView (f := Reg.HIF_FUNC_BUSY.BUSY) func clr (State.actTarget_kept u _ 2 ⟨clr, rfl, rfl⟩).canon rfl
    rw [target, same, kept]
    exact ⟨rfl, rfl, busy, rfl⟩
  · rw [same]
    exact ⟨rfl, rfl, busy, off⟩

/-! ### QUIESCE (R128, R129, R132) -/

/-- A QUIESCE request of ACTION `a` taken up. -/
theorem quiesce_taken {s : State} {r a : Nat} {q : Req} (next : s.nextReq r 0x22 = some q) (action : wbits (q.word 1) 8 2 = a) :
    quiesce a r s = if !targetDefined (wbits (q.word 1) 0 8) then (s.markStarted q).finish q 0x58
      else (s.markStarted q).queueQuiesce (wbits (q.word 1) 0 8) (some q) a := by
  rw [quiesce, next]
  exact if_neg (not_not.2 action)

theorem State.quiesce_used {s : State} {t a : Nat} {q : Req} (w : SMap.rising s.targets = true) (none : (s.target t).queue = [])
    (used : s.targetInUse t = true) (later : wbits (q.word 1) 10 1 = 0) : s.queueQuiesce t (some q) a = s.queued t (some q) a := by
  rw [State.queueQuiesce_alone w none]
  exact State.startQuiesce_waits (congrArg Target.queue (State.queued_target t (some q) a w)) used later

/-- R132: the course in progress gives up the target at once. -/
theorem State.quiesce_now {s : State} {t a : Nat} {q : Req} (c : s.Canon) (w : SMap.rising s.targets = true) (none : (s.target t).queue = [])
    (used : s.targetInUse t = true) (now : wbits (q.word 1) 10 1 = 1) (drain : s.getF Reg.HIF_QUI_DRAIN.DRAIN_US ≠ 0) :
    (s.queueQuiesce t (some q) a).getF Reg.CRS_LAST.STATUS = 0x86 ∧ (s.queueQuiesce t (some q) a).getF Reg.CRS_STATUS.HELD = 1 ∧
      ((s.queueQuiesce t (some q) a).target t).queue = [(some q, a, true)] := by
  rw [State.queueQuiesce_alone w none]
  have target := State.queued_target t (some q) a w
  have w' : SMap.rising (s.queued t (some q) a).targets = true := State.setTarget_rising t _ w
  have used' : (s.queued t (some q) a).targetInUse t = true := used
  have canon : (s.queued t (some q) a).Canon := (State.setTarget_kept _ _ _ ⟨c, rfl, rfl⟩).canon
  have drain' : (s.queued t (some q) a).getF Reg.HIF_QUI_DRAIN.DRAIN_US ≠ 0 := drain
  generalize s.queued t (some q) a = u at target w' used' canon drain' ⊢
  obtain ⟨course, running, alive⟩ := State.targetInUse_course used'
  have failed := State.failCourse_fields canon 0x86 running alive
  have view := u.hostView_failCourse 0x86
  have targets : (u.failCourse 0x86).targets = u.targets := congrArg Prod.fst view
  have free : (u.failCourse 0x86).targetInUse t = false := by
    have stopped : (u.failCourse 0x86).course = some { course with failed := true, working := false, running := [] } :=
      congrArg Prod.fst failed.parts
    rw [State.targetInUse, stopped]
    rfl
  have kept := State.getF_of_hostView (f := Reg.HIF_QUI_DRAIN.DRAIN_US) view canon failed.canon rfl
  rw [State.startQuiesce_now (congrArg Target.queue target) used' now free (by rwa [kept])]
  refine ⟨failed.status, failed.held, ?_⟩
  rw [State.fenced, State.target_setTarget t _ (by rwa [targets])]

theorem State.fenced_queued {s : State} {t a : Nat} {req : Option Req} (w : SMap.rising s.targets = true) :
    (s.queued t req a).fenced t req a [] = s.fenced t req a [] := by
  rw [State.fenced, State.queued_target t req a w, State.queued, State.setTarget_setTarget t _ _ w]
  rfl

/-- R129: a quiesce that waits for nothing fences its target off; with a DRAIN_US of 0 it then ends at once. -/
theorem State.quiesce_fences {s : State} {t a : Nat} {req : Option Req} (w : SMap.rising s.targets = true) (none : (s.target t).queue = [])
    (free : s.targetInUse t = false) :
    s.queueQuiesce t req a = if s.getF Reg.HIF_QUI_DRAIN.DRAIN_US = 0 then (s.fenced t req a []).finishQuiesce t else s.fenced t req a [] := by
  rw [State.queueQuiesce_alone w none, State.startQuiesce_free (congrArg Target.queue (State.queued_target t req a w)) free,
    State.fenced_queued w]
  rfl

/-- R129: what a quiesce of a request, or a power-up, at the front of a queue of one leaves of its target. -/
theorem State.finishQuiesce_last {s : State} {t a : Nat} {p : Option Req} (w : SMap.rising s.targets = true)
    (front : (s.target t).queue = [(p, a, true)]) (h : p ≠ none ∨ a ≠ 1) :
    ((s.finishQuiesce t).target t).queue = [] ∧ ((s.finishQuiesce t).target t).tags = [] ∧
      ((s.finishQuiesce t).target t).gate = (if a = 1 then .off else .opened) ∧
      ((s.finishQuiesce t).target t).gen = ((s.target t).gen + 1) % 4 := by
  obtain ⟨-, -, done⟩ := State.quiesced_target t a [] w
  cases p with
  | none =>
    rw [State.finishQuiesce_function front, if_neg (h.resolve_left (not_not.2 rfl))]
    exact done
  | some q =>
    have same : ((s.quiesced t a []).finish q 0).target t = (s.quiesced t a []).target t := by
      have targets : ((s.quiesced t a []).finish q 0).targets = (s.quiesced t a []).targets :=
        congrArg Prod.fst (State.hostView_finish _ q 0)
      rw [State.target, State.target, targets]
    rw [State.finishQuiesce_request front, same]
    exact done

theorem quiesceDrainLimit_last {s : State} {t a : Nat} {p : Option Req} (front : (s.target t).queue = [(p, a, true)])
    (empty : ((s.finishQuiesce t).target t).queue = []) : quiesceDrainLimit t s = s.finishQuiesce t := by
  rw [quiesceDrainLimit, front]
  exact State.pumpTarget_empty empty

/-- Settles O29: the request by its target's state, then the drain limit, then the replies. -/
theorem quiesceSteps : Obligations.QuiesceSteps := by
  intro s up canon w
  refine ⟨fun r q next c member action => ?_, fun t p a front h => ?_, fun i func front => ?_, fun t tag gen stale => ?_,
    fun t tag alive held => ?_⟩
  · have run : exec c.1 s = .next (quiesce c.2 r s) := by
      simp only [List.mem_cons, List.not_mem_nil, or_false] at member
      rcases member with rfl | rfl | rfl <;> exact onHub_up _ s up
    rw [quiesce_taken next action] at run
    have canon' := State.markStarted_canon canon q
    have w' : SMap.rising (s.markStarted q).targets = true := w
    generalize wbits (q.word 1) 0 8 = t at run ⊢
    refine ⟨fun reserved => ?_, fun defined none used later => ?_, fun defined none used now drain => ?_, fun defined none free drain => ?_,
      fun defined none free drain => ?_⟩
    · rw [run, reserved]
      rfl
    · rw [run, defined, State.quiesce_used (s := s.markStarted q) w' none used later]
      rfl
    · rw [defined] at run
      exact ⟨_, run, State.quiesce_now canon' w' none used now drain⟩
    · rw [run, defined, State.quiesce_fences (s := s.markStarted q) w' none free]
      exact congrArg _ (if_neg drain)
    · rw [defined] at run
      refine ⟨_, run, ?_⟩
      have fenced := State.target_setTarget (s := s.markStarted q) t { s.target t with
        gate := if (s.target t).gate = .off then .off else .draining, queue := [(some q, c.2, true)] } w'
      have gen := congrArg Target.gen fenced
      have last := State.finishQuiesce_last (s := (s.markStarted q).fenced t (some q) c.2 []) (State.setTarget_rising t _ w')
        (congrArg Target.queue fenced) (.inl (Option.some_ne_none q))
      rw [if_neg (by decide), State.quiesce_fences (s := s.markStarted q) w' none free, if_pos (show (s.markStarted q).getF _ = 0 from drain)]
      exact ⟨last.1, last.2.1, last.2.2.1, last.2.2.2.trans (congrArg (fun g => (g + 1) % 4) gen)⟩
  · have run : exec (.quiesceDrainLimit t) s = .next (quiesceDrainLimit t s) := onHub_up _ s up
    have last := State.finishQuiesce_last w front h
    rw [quiesceDrainLimit_last front last.1] at run
    exact ⟨_, run, last⟩
  · have run : exec (.quiesceDrainLimit (funcTarget i)) s = .next (quiesceDrainLimit (funcTarget i) s) := onHub_up _ s up
    have done : s.finishQuiesce (funcTarget i) = (s.quiesced (funcTarget i) 1 []).funcPoweredDown (funcTarget i) :=
      State.finishQuiesce_function front
    obtain ⟨func', rising, queue, tags, gate, -⟩ := State.quiesced_target (funcTarget i) 1 [] w
    have canon' := State.quiesced_canon canon (funcTarget i) 1 []
    obtain ⟨queue', tags', busy, gate'⟩ := State.funcPoweredDown_ends canon' rising func gate
    rw [quiesceDrainLimit_last front (by rw [done, queue', queue]), done] at run
    refine ⟨_, run, queue'.trans queue, tags'.trans tags, busy, ?_⟩
    rw [gate', State.getF_of_funcView (f := Reg.HIF_FUNC_EN.EN) func' canon canon' rfl]
  · have run : exec (.targetReply t tag gen) s = .next (targetReply t tag gen s) := onHub_up _ s up
    rw [run, targetReply]
    refine congrArg _ (if_pos ?_)
    simpa using stale
  · have run : exec (.targetReply t tag (s.target t).gen) s = .next (targetReply t tag (s.target t).gen s) := onHub_up _ s up
    rw [run, targetReply]
    refine congrArg _ (if_neg ?_)
    simp [alive, held]

/-! ### HIF_FUNC_EN (R127) -/

theorem funcTarget_free (s : State) {i : Nat} (func : i < 4) : s.targetInUse (funcTarget i) = false := by
  have outside : decide (0x40 ≤ funcTarget i ∧ funcTarget i ≤ 0x5F) = false := by
    interval_cases i <;> rfl
  unfold State.targetInUse
  split
  · rw [outside, Bool.and_false, Bool.false_and]
  · rfl

/-- What a write to HIF_FUNC_EN does to function `i`. -/
def State.switchFunc (s : State) (old v i : Nat) : State :=
  if old.testBit i && !v.testBit i then
    if (s.getF Reg.HIF_FUNC_BUSY.BUSY).testBit i then s else (s.setBit Reg.HIF_FUNC_BUSY.BUSY i).queueQuiesce (funcTarget i) none 1
  else if !old.testBit i && v.testBit i then
    if (s.getF Reg.HIF_FUNC_BUSY.BUSY).testBit i then s
    else if (s.target (funcTarget i)).queue.isEmpty then s.actTarget (funcTarget i) 2 else s.queueQuiesce (funcTarget i) none 2
  else s

theorem State.switchFunc_same {s : State} {old v i : Nat} (same : v.testBit i = old.testBit i) : s.switchFunc old v i = s := by
  rw [State.switchFunc, same]
  cases old.testBit i <;> rfl

/-- A write that changes one bit switches one function. -/
theorem writeFuncEn_one {s : State} {v i : Nat} (func : i < 4)
    (others : ∀ j < 4, j ≠ i → v.testBit j = (s.getF Reg.HIF_FUNC_EN.EN).testBit j) :
    writeFuncEn v s = (s.setF Reg.HIF_FUNC_EN.EN (v % 16)).switchFunc (s.getF Reg.HIF_FUNC_EN.EN) v i := by
  have all : writeFuncEn v s =
      (s.setF Reg.HIF_FUNC_EN.EN (v % 16)).each (List.range 4) fun s' j => s'.switchFunc (s.getF Reg.HIF_FUNC_EN.EN) v j := rfl
  rw [all]
  generalize s.setF Reg.HIF_FUNC_EN.EN (v % 16) = u
  generalize s.getF Reg.HIF_FUNC_EN.EN = old at others ⊢
  have still (j : Nat) (hj : j < 4) (ne : j ≠ i) (s : State) : s.switchFunc old v j = s := State.switchFunc_same (others j hj ne)
  change (((u.switchFunc old v 0).switchFunc old v 1).switchFunc old v 2).switchFunc old v 3 = _
  interval_cases i <;> simp [still]

/-- Settles O30: the one function whose bit changes. -/
theorem functionPower : Obligations.FunctionPower := by
  intro s i v up canon func w none drain _ idle others
  have canon' : (s.setF Reg.HIF_FUNC_EN.EN (v.toNat % 16)).Canon := (State.setF_kept s _ _ ⟨canon, rfl, rfl⟩).canon
  have stored : (s.setF Reg.HIF_FUNC_EN.EN (v.toNat % 16)).getF Reg.HIF_FUNC_EN.EN = v.toNat % 16 :=
    (State.getF_setF s _ _ canon.regs).trans (Nat.mod_mod _ _)
  have idle' : (s.setF Reg.HIF_FUNC_EN.EN (v.toNat % 16)).getF Reg.HIF_FUNC_BUSY.BUSY = 0 :=
    (State.getF_setF_other s _ _ _ canon.regs (by decide)).trans idle
  have drain' : (s.setF Reg.HIF_FUNC_EN.EN (v.toNat % 16)).getF Reg.HIF_QUI_DRAIN.DRAIN_US ≠ 0 := by
    rwa [State.getF_setF_other s _ _ _ canon.regs (by decide)]
  have free : ¬((s.setF Reg.HIF_FUNC_EN.EN (v.toNat % 16)).getF Reg.HIF_FUNC_BUSY.BUSY).testBit i = true := by simp [idle']
  have w' : SMap.rising (s.setF Reg.HIF_FUNC_EN.EN (v.toNat % 16)).targets = true := w
  have none' : ((s.setF Reg.HIF_FUNC_EN.EN (v.toNat % 16)).target (funcTarget i)).queue = [] := none
  refine ⟨fun was now => ?_, fun was now => ?_⟩
  · have run : exec (.funcPowerDown v) s = .next (writeFuncEn v.toNat s) := onHub_gated 0x20044 _ s up
    rw [writeFuncEn_one func others, State.switchFunc, was, now] at run
    refine ⟨_, run, ?_⟩
    rw [if_pos (by decide), if_neg free]
    have set : ((s.setF Reg.HIF_FUNC_EN.EN (v.toNat % 16)).setBit Reg.HIF_FUNC_BUSY.BUSY i).getF Reg.HIF_FUNC_BUSY.BUSY = 2 ^ i := by
      rw [State.setBit, State.getF_setF _ _ _ canon'.regs, idle', Nat.zero_or, Nat.shiftLeft_eq, Nat.one_mul]
      exact Nat.mod_eq_of_lt (Nat.pow_lt_pow_right (by decide) func)
    have en : ((s.setF Reg.HIF_FUNC_EN.EN (v.toNat % 16)).setBit Reg.HIF_FUNC_BUSY.BUSY i).getF Reg.HIF_FUNC_EN.EN = v.toNat % 16 :=
      (State.getF_setF_other _ _ _ _ canon'.regs (by decide)).trans stored
    have drain'' : ((s.setF Reg.HIF_FUNC_EN.EN (v.toNat % 16)).setBit Reg.HIF_FUNC_BUSY.BUSY i).getF Reg.HIF_QUI_DRAIN.DRAIN_US ≠ 0 := by
      rwa [State.setBit, State.getF_setF_other _ _ _ _ canon'.regs (by decide)]
    rw [State.quiesce_fences (s := (s.setF Reg.HIF_FUNC_EN.EN (v.toNat % 16)).setBit Reg.HIF_FUNC_BUSY.BUSY i) w none (funcTarget_free _ func),
      if_neg drain'']
    refine ⟨en, set, ?_⟩
    rw [State.fenced, State.target_setTarget (s := (s.setF Reg.HIF_FUNC_EN.EN (v.toNat % 16)).setBit Reg.HIF_FUNC_BUSY.BUSY i) _ _ w]
    rfl
  · have run : exec (.funcPowerUp v) s = .next (writeFuncEn v.toNat s) := onHub_gated 0x20044 _ s up
    rw [writeFuncEn_one func others, State.switchFunc, was, now] at run
    refine ⟨_, run, ?_⟩
    rw [if_neg (by decide), if_pos (by decide), if_neg free, none', if_pos List.isEmpty_nil]
    obtain ⟨view, -, target⟩ := State.actTarget_acts (funcTarget i) 2 w'
    rw [target]
    have acted := (State.actTarget_kept _ (funcTarget i) 2 ⟨canon', rfl, rfl⟩).canon
    exact ⟨(State.getF_of_funcView (f := Reg.HIF_FUNC_EN.EN) view canon' acted rfl).trans stored, rfl, rfl⟩

end Sys2Proof.Machine
end

section
/-! SUPPORT. The link, loss of the host and its return (R89, R90, R133 to R136, R493). -/

namespace Sys2Proof.Machine

/-! ### Faults leave the host attachment alone (R73, R510 to R516, R540) -/

@[simp] theorem State.hostView_amendRecord (s : State) (q : Req) (code : Nat) : (s.amendRecord q code).hostView = s.hostView := rfl

@[simp] theorem State.hostView_amendStatus (s : State) (c : Course) (code : Nat) : (s.amendStatus c code).hostView = s.hostView := by
  rw [State.amendStatus, State.hostView_amendRecord, State.hostView_writeHbm, State.hostView_setF rfl]

@[simp] theorem State.hostView_withdrawProg (s : State) (t : Fall) : (s.withdrawProg t).hostView = s.hostView := by
  dsimp only [State.withdrawProg]
  split
  · exact State.hostView_setFs (by simp [hostKey]; omega)
  · rfl

@[simp] theorem State.hostView_failByFault (s : State) (code : Nat) : (s.failByFault code).hostView = s.hostView := by
  rw [State.failByFault]
  cases s.fellNow with
  | none => exact State.hostView_failCourse s code
  | some t =>
    cases s.course with
    | none => exact State.hostView_failCourse s code
    | some c => exact (State.hostView_upd _).trans ((State.hostView_amendStatus _ c code).trans (State.hostView_withdrawProg s t))

@[simp] theorem State.hostView_latchFault (s : State) (b : Nat) : (s.latchFault b).hostView = s.hostView := by
  have event (s : State) : (s.platformEvent b).hostView = s.hostView := by
    unfold State.platformEvent
    split <;> rfl
  have merge (s : State) : s.openMerge.hostView = s.hostView := by
    unfold State.openMerge
    split <;> rfl
  have irq (s : State) : (s.faultIrq b).hostView = s.hostView := by
    unfold State.faultIrq
    split <;> rfl
  unfold State.latchFault
  split
  · rfl
  · rw [event, merge, irq, State.hostView_setBit rfl]

@[simp] theorem State.hostView_lineHeld (s : State) (b : Nat) : (s.lineHeld b).hostView = s.hostView := by
  have held : (s.setBit Reg.FLT_LINES.LINES b).hostView = s.hostView := State.hostView_setBit rfl
  unfold State.lineHeld State.noteFault
  split
  · rw [State.hostView_setBit rfl, State.hostView_bump rfl, held]
  · rw [State.hostView_latchFault, held]

@[simp] theorem State.hostView_fatalReaction (s : State) (b : Nat) : (s.fatalReaction b).hostView = s.hostView := by
  have alive : s.stopAlive.hostView = s.hostView := State.hostView_setF rfl
  dsimp only [State.fatalReaction]
  split_ifs
  · exact (State.hostView_setF (f := Reg.PPT_COOL.DUTY) rfl).trans alive
  · exact (State.hostView_setF (f := Reg.PPT_COOL.DUTY) rfl).trans alive
  · exact (State.hostView_setF (f := Reg.PPT_TARGET.TARGET_W) rfl).trans alive

@[simp] theorem State.hostView_faultCourse (s : State) (b : Nat) (fatal : Bool) : (s.faultCourse b fatal).hostView = s.hostView := by
  rw [State.faultCourse]
  split
  · rfl
  · split
    · rfl
    · exact s.hostView_failByFault _

/-- A condition that begins changes nothing of the host attachment. -/
theorem State.hostView_holdLine (s : State) (b : Nat) : (s.holdLine b).hostView = s.hostView := by
  cases down : (s.getF Reg.FLT_LINES.LINES).testBit b with
  | true => rw [State.holdLine_up down]
  | false =>
    rw [State.holdLine_down down]
    split <;> simp

/-! ### A HOST_COPY that meets host loss (R493) -/

/-- The registers of `hostKey` but for the states of the snapshot slots. -/
def linkKey (k : Nat) : Bool := hostKey k && decide (k < 58728448)

/-- Suspension, bias table, translation cache, self-reset, and the registers of `linkKey`. -/
def State.linkView (s : State) : Bool × List Nat × List (Nat × W64) × Bool × SMap Nat :=
  (s.suspended, s.shared, s.aptCache, s.selfReset, s.regsOn linkKey)

theorem State.getF_of_linkView {s t : State} (h : t.linkView = s.linkView) (cs : s.Canon) (ct : t.Canon) {f : Fld}
    (hf : linkKey f.key = true) : t.getF f = s.getF f :=
  State.getF_of_regsOn (congrArg (fun x => x.2.2.2.2) h) cs.regs ct.regs hf

theorem State.linkView_of_hostView {s t : State} (h : t.hostView = s.hostView) : t.linkView = s.linkView := by
  have regs (u : State) : u.regsOn linkKey = (u.regsOn hostKey).filter fun x => linkKey x.1 := by
    refine ((List.filter_filter ..).trans (List.filter_congr fun x _ => ?_)).symm
    simp [linkKey, Bool.and_comm, Bool.and_left_comm]
  have parts := h
  simp only [State.hostView, Prod.mk.injEq] at parts
  obtain ⟨-, suspended, shared, cache, due, -, same⟩ := parts
  rw [State.linkView, State.linkView, regs, regs, suspended, shared, cache, due, same]

theorem State.linkView_setF {s : State} {f : Fld} {v : Nat} (h : linkKey f.key = false) : (s.setF f v).linkView = s.linkView := by
  rw [State.linkView, State.regsOn_setF s linkKey f v h]
  rfl

theorem State.linkView_clrBit {s : State} {f : Fld} {b : Nat} (h : linkKey f.key = false) : (s.clrBit f b).linkView = s.linkView := by
  unfold State.clrBit
  split
  · exact State.linkView_setF h
  · rfl

/-- Two operations of the same kind on the same slot. -/
def SvlOp.same (o p : SvlOp) : Bool := decide (p.kind = o.kind) && decide (p.area = o.area) && decide (p.slot = o.slot)

/-- The states of the own and peer slots that are EMPTY stay so. -/
def State.emptied (s t : State) : Prop := ∀ a < 2, ∀ n < 2, s.slotState a n = 0 → t.slotState a n = 0

theorem State.emptied_trans {s t u : State} (h : s.emptied t) (k : t.emptied u) : s.emptied u := fun a ha n hn e =>
  k a ha n hn (h a ha n hn e)

theorem State.emptied_setF {s : State} (c : s.Canon) {f : Fld} (v : Nat) (h : ∀ a n, (Reg.SVL_SLOT.STATE a n).key ≠ f.key) :
    s.emptied (s.setF f v) := fun a _ n _ e => (State.getF_setF_other s _ f v c.regs (h a n)).trans e

theorem State.emptied_setEmpty {s : State} (c : s.Canon) (area slot : Nat) : s.emptied (s.setF (Reg.SVL_SLOT.STATE area slot) 0) := by
  intro a _ n _ e
  by_cases same : (Reg.SVL_SLOT.STATE area slot).key = (Reg.SVL_SLOT.STATE a n).key
  · have field : Reg.SVL_SLOT.STATE area slot = Reg.SVL_SLOT.STATE a n := congrArg (fun k => Fld.mk k 3 0) same
    rw [field]
    exact State.getF_setF s _ 0 c.regs
  · exact (State.getF_setF_other s _ _ 0 c.regs fun h => same h.symm).trans e

theorem State.emptied_of_hostView {s t : State} (h : t.hostView = s.hostView) (cs : s.Canon) (ct : t.Canon) : s.emptied t :=
  fun a ha n hn e => (State.getF_of_hostView (f := Reg.SVL_SLOT.STATE a n) h cs ct (by simp [hostKey]; omega)).trans e

/-- An operation given up: its HOLD bit clears, and the slot it was filling is EMPTY. -/
theorem State.stopFill_copy {s : State} {o : SvlOp} (c : s.Canon) (copy : o.kind = 3 ∨ o.kind = 4) :
    (s.stopFill o).linkView = s.linkView ∧ (s.stopFill o).svlOps = s.svlOps ∧ s.emptied (s.stopFill o) ∧
      (o.kind = 4 → (s.stopFill o).slotState o.area o.slot = 0) := by
  have eq : s.stopFill o = if o.kind = 4 then (s.clrBit (Reg.SVL_SLOT.HOLD o.area o.slot) (holdBit o.kind)).setF
      (Reg.SVL_SLOT.STATE o.area o.slot) 0 else s.clrBit (Reg.SVL_SLOT.HOLD o.area o.slot) (holdBit o.kind) := by
    rcases copy with kind | kind <;> simp [State.stopFill, State.releaseSlot, kind]
  rw [eq]
  have view : (s.clrBit (Reg.SVL_SLOT.HOLD o.area o.slot) (holdBit o.kind)).linkView = s.linkView :=
    State.linkView_clrBit (by simp [linkKey]; omega)
  have ops : (s.clrBit (Reg.SVL_SLOT.HOLD o.area o.slot) (holdBit o.kind)).svlOps = s.svlOps := by
    unfold State.clrBit
    split <;> rfl
  have canon := (State.clrBit_kept s (Reg.SVL_SLOT.HOLD o.area o.slot) (holdBit o.kind) ⟨c, rfl, rfl⟩).canon
  have empty : s.emptied (s.clrBit (Reg.SVL_SLOT.HOLD o.area o.slot) (holdBit o.kind)) := by
    unfold State.clrBit
    split
    · exact State.emptied_setF c _ fun a n => by simp; omega
    · exact fun _ _ _ _ e => e
  generalize s.clrBit (Reg.SVL_SLOT.HOLD o.area o.slot) (holdBit o.kind) = u at view ops canon empty ⊢
  split_ifs with fills
  · exact ⟨(State.linkView_setF (by simp [linkKey]; omega)).trans view, ops, State.emptied_trans empty (State.emptied_setEmpty canon _ _),
      fun _ => State.getF_setF u _ 0 canon.regs⟩
  · exact ⟨view, ops, empty, fun h => absurd h fills⟩

theorem State.aptFault_link {s : State} (c : s.Canon) (a cause : Nat) :
    (s.aptFault a cause).linkView = s.linkView ∧ (s.aptFault a cause).svlOps = s.svlOps ∧
      ∀ area slot, (s.aptFault a cause).slotState area slot = s.slotState area slot := by
  unfold State.aptFault
  split
  · exact ⟨rfl, rfl, fun _ _ => rfl⟩
  · refine ⟨State.linkView_of_hostView (State.hostView_setFs (by intro x hx; fin_cases hx <;> rfl)), by rw [State.setFs_eq], fun area slot => ?_⟩
    exact State.getF_setFs_other s _ _ c.regs (by simp; omega)

/-- From `s` to `t` the copies `os` have been lost. -/
structure State.Lost (s t : State) (os : List SvlOp) : Prop where
  canon : t.Canon
  link : t.linkView = s.linkView
  ops : t.svlOps = s.svlOps.filter fun p => !os.any fun o => o.same p
  emptied : s.emptied t
  filled : ∀ o ∈ os, o.kind = 4 → o.area < 2 → o.slot < 2 → t.slotState o.area o.slot = 0

/-- A copy that is lost, its failed access recorded. -/
def State.copyFailed (s : State) (o : SvlOp) : State :=
  (s.stopFill o).aptFault (o.addr + 64 * (Config.openPart s.freeCtr % max 1 (o.room / 64))) 3

/-- A copy that is lost, before its completion is posted. -/
def State.copyDropped (s : State) (o : SvlOp) : State :=
  { (s.copyFailed o).nextFree with svlOps := (s.copyFailed o).svlOps.filter fun p => !o.same p }

theorem State.copyFailed_link {s : State} {o : SvlOp} (c : s.Canon) (copy : o.kind = 3 ∨ o.kind = 4) :
    (s.copyFailed o).Canon ∧ (s.copyFailed o).linkView = s.linkView ∧ (s.copyFailed o).svlOps = s.svlOps ∧ s.emptied (s.copyFailed o) ∧
      (o.kind = 4 → (s.copyFailed o).slotState o.area o.slot = 0) := by
  obtain ⟨view, ops, empty, fill⟩ := State.stopFill_copy c copy
  have canon := (State.stopFill_kept s o ⟨c, rfl, rfl⟩).canon
  unfold State.copyFailed
  generalize o.addr + 64 * (Config.openPart s.freeCtr % max 1 (o.room / 64)) = a
  obtain ⟨view', ops', slots⟩ := State.aptFault_link canon a 3
  exact ⟨(State.aptFault_kept _ a 3 ⟨canon, rfl, rfl⟩).canon, view'.trans view, ops'.trans ops,
    fun a ha n hn e => (slots a n).trans (empty a ha n hn e), fun kind => (slots _ _).trans (fill kind)⟩

theorem State.copyDropped_lost {s : State} {o : SvlOp} (c : s.Canon) (copy : o.kind = 3 ∨ o.kind = 4) : s.Lost (s.copyDropped o) [o] := by
  obtain ⟨canon, view, ops, empty, fill⟩ := State.copyFailed_link c copy
  unfold State.copyDropped
  generalize s.copyFailed o = u at canon view ops empty fill ⊢
  refine ⟨⟨canon.hbm, canon.loft, canon.rstore, canon.acc, canon.regs⟩, view, ?_, empty, fun p hp kind _ _ => ?_⟩
  · rw [ops]
    exact List.filter_congr fun p _ => by rw [List.any_cons, List.any_nil, Bool.or_false]
  · rw [List.mem_singleton] at hp
    rw [hp] at kind ⊢
    exact fill kind

theorem State.copyLost_lost {s : State} {o : SvlOp} (c : s.Canon) (copy : o.kind = 3 ∨ o.kind = 4) : s.Lost (s.copyLost o) [o] := by
  have dropped := State.copyDropped_lost c copy
  have eq : s.copyLost o = match o.req with
      | some q => (s.copyDropped o).complete q 0x7B (o.course % 2 ^ 48)
      | none => s.copyDropped o := rfl
  rw [eq]
  cases o.req with
  | none => exact dropped
  | some q =>
    obtain ⟨canon, link, ops, emptied, filled⟩ := dropped
    have view := State.hostView_complete (s.copyDropped o) q 0x7B (o.course % 2 ^ 48)
    have canon' := (State.complete_kept (s.copyDropped o) q 0x7B (o.course % 2 ^ 48) ⟨canon, rfl, rfl⟩).canon
    have still := State.emptied_of_hostView view canon canon'
    exact ⟨canon', (State.linkView_of_hostView view).trans link, (congrArg (fun x => x.2.2.2.2.2.1) view).trans ops,
      State.emptied_trans emptied still, fun p hp kind a n => still _ a _ n (filled p hp kind a n)⟩

theorem State.copiesLost {s : State} (c : s.Canon) {os : List SvlOp} (copies : ∀ o ∈ os, o.kind = 3 ∨ o.kind = 4) :
    s.Lost (s.each os State.copyLost) os := by
  unfold State.each
  induction os generalizing s with
  | nil => exact ⟨c, rfl, (List.filter_true _).symm, fun _ _ _ _ e => e, by simp⟩
  | cons o os ih =>
    have first := State.copyLost_lost c (copies o List.mem_cons_self)
    have rest := ih first.canon fun p hp => copies p (List.mem_cons_of_mem _ hp)
    refine ⟨rest.canon, rest.link.trans first.link, ?_, State.emptied_trans first.emptied rest.emptied, fun p hp kind a n => ?_⟩
    · refine rest.ops.trans ?_
      rw [first.ops, List.filter_filter]
      exact List.filter_congr fun p _ => by simp [Bool.and_comm]
    · rcases List.mem_cons.1 hp with rfl | later
      · exact rest.emptied _ a _ n (first.filled p List.mem_cons_self kind a n)
      · exact rest.filled p later kind a n

end Sys2Proof.Machine
end

section
/-! SUPPORT. Host loss as a whole, training of the link, and the host's return (R89, R90, R133 to R136). -/

namespace Sys2Proof.Machine

/-! ### Host loss (R133 to R135) -/

/-- The link down and the rings suspended. -/
def State.linkLost (s : State) : State :=
  { s.setFs [(Reg.HIF_STATUS.LINK_UP, 0), (Reg.HIF_LINK.RATE, 0), (Reg.HIF_LINK.WIDTH, 0)] with
    l0Left := none, suspended := true, hostLines := [], winLines := [] }

/-- Fallback where HL_MODE is set, else a self-reset due. -/
def State.lossMode (s : State) : State :=
  if s.on Reg.HIF_CTRL.HL_MODE then { s.setF Reg.HIF_STATUS.HOST_LOST 1 with shared := [], aptCache := [] }
  else { s with selfReset := true }

theorem hostLoss_eq {s : State} (there : s.getF Reg.HIF_STATUS.HOST_LOST = 0) (notDue : s.selfReset = false) : hostLoss s =
    (s.linkLost.lossMode.each (s.linkLost.lossMode.svlOps.filter fun o => decide (o.kind = 3 ∨ o.kind = 4)) State.copyLost).holdLine 32 :=
  if_neg (by rw [State.on_eq_false there, notDue]; decide)

theorem State.linkLost_fields {s : State} (c : s.Canon) :
    s.linkLost.Canon ∧ s.linkLost.getF Reg.HIF_STATUS.LINK_UP = 0 ∧ s.linkLost.getF Reg.HIF_LINK.RATE = 0 ∧
      s.linkLost.getF Reg.HIF_LINK.WIDTH = 0 ∧ s.fieldsKept s.linkLost [Reg.HIF_STATUS.LINK_UP, Reg.HIF_LINK.RATE, Reg.HIF_LINK.WIDTH] := by
  have canon := State.setFs_canon [(Reg.HIF_STATUS.LINK_UP, 0), (Reg.HIF_LINK.RATE, 0), (Reg.HIF_LINK.WIDTH, 0)] c
  have read := State.getF_setFs_mem s [(Reg.HIF_STATUS.LINK_UP, 0), (Reg.HIF_LINK.RATE, 0), (Reg.HIF_LINK.WIDTH, 0)] c.regs (by simp)
  exact ⟨⟨canon.hbm, canon.loft, canon.rstore, canon.acc, canon.regs⟩, read (Reg.HIF_STATUS.LINK_UP, 0) (by simp),
    read (Reg.HIF_LINK.RATE, 0) (by simp), read (Reg.HIF_LINK.WIDTH, 0) (by simp),
    State.setFs_fields [(Reg.HIF_STATUS.LINK_UP, 0), (Reg.HIF_LINK.RATE, 0), (Reg.HIF_LINK.WIDTH, 0)] c⟩

theorem State.linkLost_rest (s : State) : s.linkLost.suspended = true ∧ s.linkLost.selfReset = s.selfReset ∧ s.linkLost.svlOps = s.svlOps := by
  rw [State.linkLost, State.setFs_eq]
  exact ⟨rfl, rfl, rfl⟩

theorem State.lossMode_rest (s : State) : s.lossMode.suspended = s.suspended ∧ s.lossMode.svlOps = s.svlOps := by
  unfold State.lossMode
  split <;> exact ⟨rfl, rfl⟩

theorem State.lossMode_fields {s : State} (c : s.Canon) : s.lossMode.Canon ∧ s.fieldsKept s.lossMode [Reg.HIF_STATUS.HOST_LOST] := by
  have canon := (State.setF_kept s Reg.HIF_STATUS.HOST_LOST 1 ⟨c, rfl, rfl⟩).canon
  unfold State.lossMode
  split
  · exact ⟨⟨canon.hbm, canon.loft, canon.rstore, canon.acc, canon.regs⟩, State.setF_fields _ _ c⟩
  · exact ⟨⟨c.hbm, c.loft, c.rstore, c.acc, c.regs⟩, fun _ _ => rfl⟩

/-- R135: in fallback mode the host is lost, every page is device-owned, and no translation is held. -/
theorem State.lossMode_fallback {s : State} (c : s.Canon) (mode : s.getF Reg.HIF_CTRL.HL_MODE ≠ 0) :
    s.lossMode.getF Reg.HIF_STATUS.HOST_LOST = 1 ∧ s.lossMode.shared = [] ∧ s.lossMode.aptCache = [] ∧ s.lossMode.selfReset = s.selfReset := by
  rw [State.lossMode, if_pos (State.on_eq_true mode)]
  exact ⟨State.getF_setF s _ 1 c.regs, rfl, rfl, rfl⟩

/-- R134: in self-reset mode a self-reset is due. -/
theorem State.lossMode_reset {s : State} (mode : s.getF Reg.HIF_CTRL.HL_MODE = 0) :
    s.lossMode.selfReset = true ∧ s.lossMode.getF Reg.HIF_STATUS.HOST_LOST = s.getF Reg.HIF_STATUS.HOST_LOST := by
  rw [State.lossMode, if_neg (by rw [State.on_eq_false mode]; decide)]
  exact ⟨rfl, rfl⟩

/-- `t` is `s` after the loss of its host. -/
def State.hostGone (s t : State) : Prop :=
  t.suspended = true ∧ t.getF Reg.HIF_STATUS.LINK_UP = 0 ∧ t.getF Reg.HIF_LINK.WIDTH = 0 ∧ t.getF Reg.HIF_LINK.RATE = 0 ∧
    (s.getF Reg.HIF_CTRL.HL_MODE ≠ 0 → t.getF Reg.HIF_STATUS.HOST_LOST = 1 ∧ t.shared = [] ∧ t.aptCache = [] ∧ t.selfReset = false) ∧
    (s.getF Reg.HIF_CTRL.HL_MODE = 0 → t.selfReset = true ∧ t.getF Reg.HIF_STATUS.HOST_LOST = 0) ∧
    t.svlOps = s.svlOps.filter (fun o => !decide (o.kind = 3 ∨ o.kind = 4)) ∧
    ((∀ o ∈ s.svlOps, o.area < 2 ∧ o.slot < 2) → ∀ o ∈ s.svlOps, o.kind = 4 → t.slotState o.area o.slot = 0)

theorem SvlOp.any_same {os : List SvlOp} {p : SvlOp} (member : p ∈ os) :
    ((os.filter fun o => decide (o.kind = 3 ∨ o.kind = 4)).any fun o => o.same p) = decide (p.kind = 3 ∨ p.kind = 4) := by
  rw [Bool.eq_iff_iff, List.any_eq_true, decide_eq_true_eq]
  constructor
  · rintro ⟨o, held, same⟩
    have copy := (List.mem_filter.1 held).2
    simp only [SvlOp.same, Bool.and_eq_true, decide_eq_true_eq] at same copy
    rwa [same.1.1]
  · exact fun copy => ⟨p, List.mem_filter.2 ⟨member, decide_eq_true copy⟩, by simp [SvlOp.same]⟩

theorem hostLoss_gone {s : State} (c : s.Canon) (there : s.getF Reg.HIF_STATUS.HOST_LOST = 0) (notDue : s.selfReset = false) :
    s.hostGone (hostLoss s) := by
  obtain ⟨downCanon, linkUp, rate, width, downKept⟩ := State.linkLost_fields c
  obtain ⟨downSuspended, downDue, downOps⟩ := s.linkLost_rest
  have mode : s.linkLost.getF Reg.HIF_CTRL.HL_MODE = s.getF Reg.HIF_CTRL.HL_MODE := downKept _ (by simp)
  have here : s.linkLost.getF Reg.HIF_STATUS.HOST_LOST = 0 := (downKept _ (by simp)).trans there
  rw [hostLoss_eq there notDue]
  generalize s.linkLost = down at downCanon linkUp rate width downSuspended downDue downOps mode here ⊢
  obtain ⟨modeCanon, modeKept⟩ := State.lossMode_fields downCanon
  obtain ⟨suspended, ops⟩ := down.lossMode_rest
  have fallback := State.lossMode_fallback downCanon
  have reset := State.lossMode_reset (s := down)
  generalize down.lossMode = u at modeCanon modeKept suspended ops fallback reset ⊢
  have lost := State.copiesLost modeCanon (os := u.svlOps.filter fun o => decide (o.kind = 3 ∨ o.kind = 4)) fun o ho =>
    of_decide_eq_true (List.mem_filter.1 ho).2
  generalize hcopies : u.each (u.svlOps.filter fun o => decide (o.kind = 3 ∨ o.kind = 4)) State.copyLost = v at lost ⊢
  have view := v.hostView_holdLine 32
  have canon := (State.holdLine_kept v 32 ⟨lost.canon, rfl, rfl⟩).canon
  have still := State.emptied_of_hostView view lost.canon canon
  have viewOps : (v.holdLine 32).svlOps = v.svlOps := congrArg (fun x => x.2.2.2.2.2.1) view
  have link := (State.linkView_of_hostView view).trans lost.link
  generalize v.holdLine 32 = t at canon still viewOps link ⊢
  have read (f : Fld) (hf : linkKey f.key = true) : t.getF f = u.getF f := State.getF_of_linkView link modeCanon canon hf
  have parts := link
  simp only [State.linkView, Prod.mk.injEq] at parts
  obtain ⟨tSuspended, tShared, tCache, tDue, -⟩ := parts
  have svlOps : u.svlOps = s.svlOps := ops.trans downOps
  refine ⟨tSuspended.trans (suspended.trans downSuspended), ?_, ?_, ?_, fun on => ?_, fun off => ?_, ?_, fun slots o member kind => ?_⟩
  · exact (read Reg.HIF_STATUS.LINK_UP rfl).trans ((modeKept _ (by simp)).trans linkUp)
  · exact (read Reg.HIF_LINK.WIDTH rfl).trans ((modeKept _ (by simp)).trans width)
  · exact (read Reg.HIF_LINK.RATE rfl).trans ((modeKept _ (by simp)).trans rate)
  · obtain ⟨gone, shared, cache, due⟩ := fallback (by rwa [mode])
    exact ⟨(read Reg.HIF_STATUS.HOST_LOST rfl).trans gone, tShared.trans shared, tCache.trans cache,
      tDue.trans (due.trans (downDue.trans notDue))⟩
  · obtain ⟨due, gone⟩ := reset (mode.trans off)
    exact ⟨tDue.trans due, (read Reg.HIF_STATUS.HOST_LOST rfl).trans (gone.trans here)⟩
  · rw [viewOps, lost.ops, svlOps]
    exact List.filter_congr fun p hp => congrArg _ (SvlOp.any_same hp)
  · obtain ⟨area, slot⟩ := slots o member
    have copy : o ∈ u.svlOps.filter fun o => decide (o.kind = 3 ∨ o.kind = 4) :=
      List.mem_filter.2 ⟨svlOps ▸ member, decide_eq_true (.inr kind)⟩
    exact still _ area _ slot (lost.filled o copy kind area slot)

/-! ### HOSTRST_N (R551) -/

/-- The component registers of the CXL controller back at reset. -/
def State.cxlReset (s : State) : State :=
  { s with regs := s.regs.filter fun x => !decide (0x30000 * 64 ≤ x.1 ∧ x.1 < 0x40000 * 64) }

theorem State.cxlReset_canon {s : State} (c : s.Canon) : s.cxlReset.Canon :=
  ⟨c.hbm, c.loft, c.rstore, c.acc, SMap.filter_rising _ _ c.regs⟩

theorem State.getF_cxlReset {s : State} (c : s.Canon) {f : Fld} (h : f.key < 0x30000 * 64) : s.cxlReset.getF f = s.getF f :=
  SMap.look_filter f.reset f.key (fun k => !decide (0x30000 * 64 ≤ k ∧ k < 0x40000 * 64)) (by simp; omega) s.regs c.regs

theorem hostrstAssert_eq {s : State} (h : s.boot.reading ≠ some 2) : hostrstAssert s = hostLoss s.cxlReset := if_neg h

/-- HOSTRST_N loses the host as the host lost by itself. -/
theorem State.hostGone_cxlReset {s t : State} (c : s.Canon) (gone : s.cxlReset.hostGone t) : s.hostGone t := by
  have mode := State.getF_cxlReset (f := Reg.HIF_CTRL.HL_MODE) c (by decide)
  obtain ⟨suspended, up, width, rate, fallback, reset, ops, slots⟩ := gone
  exact ⟨suspended, up, width, rate, fun on => fallback (by rwa [mode]), fun off => reset (by rwa [mode]), ops, slots⟩

/-! ### Training, and the host's return (R89, R136) -/

theorem State.getF_setL0Left (s : State) (l : Option Nat) (f : Fld) : ({ s with l0Left := l } : State).getF f = s.getF f := rfl

theorem bestLink_bounds {o : LinkOffer} {rate width : Nat} (best : bestLink o = some (rate, width)) : rate < 2 ^ 3 ∧ width < 2 ^ 5 := by
  obtain ⟨-, best⟩ := Option.ite_none_left_eq_some.1 best
  simp only [Option.some.injEq, Prod.mk.injEq] at best
  obtain ⟨rfl, rfl⟩ := best
  constructor <;> split_ifs <;> decide

theorem linkTrained_trains {s : State} {o : LinkOffer} {rate width : Nat} (notDue : s.selfReset = false) (best : bestLink o = some (rate, width)) :
    linkTrained o s = { s.setFs [(Reg.HIF_LINK.RATE, rate), (Reg.HIF_LINK.WIDTH, width),
      (Reg.HIF_STATUS.LINK_UP, bit (!s.on Reg.HIF_STATUS.HOST_LOST))] with l0Left := none } := by
  rw [linkTrained, if_neg (by rw [notDue]; decide), best]

theorem linkTrained_fields {s : State} {o : LinkOffer} {rate width : Nat} (c : s.Canon) (notDue : s.selfReset = false)
    (best : bestLink o = some (rate, width)) :
    (linkTrained o s).getF Reg.HIF_LINK.RATE = rate ∧ (linkTrained o s).getF Reg.HIF_LINK.WIDTH = width ∧
      (s.getF Reg.HIF_STATUS.HOST_LOST = 0 → (linkTrained o s).getF Reg.HIF_STATUS.LINK_UP = 1) := by
  obtain ⟨rateFits, widthFits⟩ := bestLink_bounds best
  have read := State.getF_setFs_mem s [(Reg.HIF_LINK.RATE, rate), (Reg.HIF_LINK.WIDTH, width),
    (Reg.HIF_STATUS.LINK_UP, bit (!s.on Reg.HIF_STATUS.HOST_LOST))] c.regs (by simp)
  have trained (f : Fld) : (linkTrained o s).getF f = (s.setFs [(Reg.HIF_LINK.RATE, rate), (Reg.HIF_LINK.WIDTH, width),
      (Reg.HIF_STATUS.LINK_UP, bit (!s.on Reg.HIF_STATUS.HOST_LOST))]).getF f := by
    rw [linkTrained_trains notDue best, State.getF_setL0Left]
  rw [trained, trained, trained]
  refine ⟨(read (Reg.HIF_LINK.RATE, rate) (by simp)).trans (Nat.mod_eq_of_lt rateFits),
    (read (Reg.HIF_LINK.WIDTH, width) (by simp)).trans (Nat.mod_eq_of_lt widthFits), fun there => ?_⟩
  refine (read (Reg.HIF_STATUS.LINK_UP, bit (!s.on Reg.HIF_STATUS.HOST_LOST)) (by simp)).trans ?_
  rw [State.on_eq_false there]
  decide

theorem linkTrained_loses {s : State} {o : LinkOffer} (notDue : s.selfReset = false) (best : bestLink o = none) : linkTrained o s = hostLoss s := by
  rw [linkTrained, if_neg (by rw [notDue]; decide), best]

/-- R136 step 2: the host has enumerated again. -/
theorem reattach_returns {s : State} (c : s.Canon) (lost : s.getF Reg.HIF_STATUS.HOST_LOST ≠ 0) (trained : s.getF Reg.HIF_LINK.WIDTH ≠ 0) :
    (reattach s).getF Reg.HIF_STATUS.HOST_LOST = 0 ∧ (reattach s).getF Reg.HIF_STATUS.LINK_UP = 1 ∧
      (reattach s).getF Reg.HIF_STATUS.REATTACH ≠ 0 ∧ (reattach s).suspended = s.suspended := by
  rw [reattach, if_pos (by rw [State.on_eq_true lost, State.on_eq_true trained]; rfl)]
  have read := State.getF_setFs_mem s [(Reg.HIF_STATUS.HOST_LOST, 0), (Reg.HIF_STATUS.LINK_UP, 1), (Reg.HIF_STATUS.REATTACH, 1)] c.regs
    (by simp)
  have set := State.setFs_canon [(Reg.HIF_STATUS.HOST_LOST, 0), (Reg.HIF_STATUS.LINK_UP, 1), (Reg.HIF_STATUS.REATTACH, 1)] c
  have away : (s.setFs [(Reg.HIF_STATUS.HOST_LOST, 0), (Reg.HIF_STATUS.LINK_UP, 1), (Reg.HIF_STATUS.REATTACH, 1)]).suspended = s.suspended := by
    rw [State.setFs_eq]
  generalize s.setFs [(Reg.HIF_STATUS.HOST_LOST, 0), (Reg.HIF_STATUS.LINK_UP, 1), (Reg.HIF_STATUS.REATTACH, 1)] = u at read set away ⊢
  have kept := (State.dropLine_fields (s := u.msi 1025) (b := 32) ⟨set.hbm, set.loft, set.rstore, set.acc, set.regs⟩ (by decide)).2.1
  have still : ((u.msi 1025).dropLine 32).suspended = u.suspended :=
    congrArg (fun x => x.2.1) ((State.hostView_clrBit (f := Reg.FLT_LINES.LINES) (b := 32) rfl).trans (u.hostView_msi 1025))
  refine ⟨?_, ?_, ?_, still.trans away⟩
  · rw [kept _ (by simp), State.getF_msi]
    exact read (Reg.HIF_STATUS.HOST_LOST, 0) (by simp)
  · rw [kept _ (by simp), State.getF_msi]
    exact read (Reg.HIF_STATUS.LINK_UP, 1) (by simp)
  · rw [kept _ (by simp), State.getF_msi, read (Reg.HIF_STATUS.REATTACH, 1) (by simp)]
    decide

theorem State.writeRec_heldRecs (s : State) (c : CRec) : (s.writeRec c).heldRecs = s.heldRecs := by
  rw [State.writeRec_eq, State.coalesce]
  split <;> rfl

/-- R136: ATTACH.RESUME posts what is held; nothing stays held. -/
theorem writeAttach_resumes {s : State} {v : Nat} (resume : v.testBit 0 = true) (suspended : s.suspended = true)
    (there : s.getF Reg.HIF_STATUS.HOST_LOST = 0) (notDue : s.selfReset = false) :
    (writeAttach v s).suspended = false ∧ (writeAttach v s).heldRecs = [] := by
  have go : (v.testBit 0 && s.suspended && !s.on Reg.HIF_STATUS.HOST_LOST && !s.selfReset) = true := by
    rw [resume, suspended, State.on_eq_false there, notDue]
    rfl
  have post (s : State) (c : CRec) :
      (if s.on (Reg.HIF_RING_STAT.ACTIVE c.ring) then s.writeRec c else s.bump Reg.HIF_HL_LOST.LOST 1).hostView = s.hostView := by
    split
    · exact State.hostView_writeRec s c
    · exact State.hostView_bump rfl
  have held (s : State) (c : CRec) :
      (if s.on (Reg.HIF_RING_STAT.ACTIVE c.ring) then s.writeRec c else s.bump Reg.HIF_HL_LOST.LOST 1).heldRecs = s.heldRecs := by
    split
    · exact State.writeRec_heldRecs s c
    · rfl
  rw [writeAttach, if_pos go]
  refine ⟨congrArg (fun x => x.2.1) (State.hostView_each (s := { s with suspended := false, heldRecs := [] }) post), ?_⟩
  unfold State.each
  generalize hu : ({ s with suspended := false, heldRecs := [] } : State) = u
  have none : u.heldRecs = [] := by rw [← hu]
  clear hu
  induction s.heldRecs generalizing u with
  | nil => exact none
  | cons c cs ih => exact ih _ ((held u c).trans none)

/-- Settles O31: training, the ways to lose the host, and its return. -/
theorem lossOfTheHost : Obligations.LossOfTheHost := by
  intro s up canon
  refine ⟨fun o due => ?_, fun o rate width best notDue => ?_, fun link => ?_, fun c way there notDue => ?_, fun due => ?_, fun lost trained => ?_,
    fun v resume suspended there notDue => ?_⟩
  · have run : exec (.linkTrained o) s = .next (linkTrained o s) := onHub_up _ s up
    rw [run, linkTrained, if_pos due]
  · have run : exec (.linkTrained o) s = .next (linkTrained o s) := onHub_up _ s up
    exact ⟨_, run, linkTrained_fields canon notDue best⟩
  · have run : exec .linkLeaveL0 s = .next (linkLeaveL0 s) := onHub_up _ s up
    rw [linkLeaveL0, if_pos (State.on_eq_true link)] at run
    exact ⟨_, run, State.getF_setF s _ 0 canon.regs, rfl, State.setF_fields _ _ canon⟩
  · rcases way with rfl | ⟨rfl, left⟩ | ⟨rfl, idle⟩ | ⟨o, rfl, best⟩
    · exact ⟨_, onHub_up hostLoss s up, hostLoss_gone canon there notDue⟩
    · have run : exec .linkDownTimeout s = .next (linkDownTimeout s) := onHub_up _ s up
      rw [linkDownTimeout, if_pos (Option.isSome_iff_ne_none.2 left)] at run
      exact ⟨_, run, hostLoss_gone canon there notDue⟩
    · have run : exec .hostrstAssert s = .next (hostrstAssert s) := onHub_up _ s up
      rw [hostrstAssert_eq idle] at run
      have there' : s.cxlReset.getF Reg.HIF_STATUS.HOST_LOST = 0 := (State.getF_cxlReset canon (by decide)).trans there
      exact ⟨_, run, State.hostGone_cxlReset canon (hostLoss_gone (State.cxlReset_canon canon) there' notDue)⟩
    · have run : exec (.linkTrained o) s = .next (linkTrained o s) := onHub_up _ s up
      rw [linkTrained_loses notDue best] at run
      exact ⟨_, run, hostLoss_gone canon there notDue⟩
  · have run : exec .hostLossSelfReset s = .next (hostLossSelfReset s) := onHub_up _ s up
    rw [run, hostLossSelfReset, if_pos due]
  · have run : exec .reattach s = .next (reattach s) := onHub_up _ s up
    exact ⟨_, run, reattach_returns canon lost trained⟩
  · have run : exec (.attachResume v) s = .next (writeAttach v.toNat s) := onHub_gated 0x20064 _ s up
    exact ⟨_, run, writeAttach_resumes resume suspended there notDue⟩

end Sys2Proof.Machine
end

section
/-! SUPPORT. The frame in which an instruction of a rafter issues (R168 to R176), its signal, and the errors of programs (R184, R185, R190). -/

namespace Sys2Proof.Machine

/-! ### A course that is worked on -/

theorem State.working_some {s : State} {c : Course} (h : s.working = some c) : s.course = some c ∧ c.failed = false := by
  rw [State.working] at h
  split at h
  · split at h
    · next alive =>
      simp only [Bool.and_eq_true, Bool.not_eq_true'] at alive
      cases h
      exact ⟨‹_›, alive.2⟩
    · cases h
  · cases h

theorem State.working_congr {s t : State} (h : t.course = s.course) : t.working = s.working := by rw [State.working, h, State.working]

theorem State.working_isNone {s : State} {c : Course} (h : s.working = some c) : s.working.isNone = false := by rw [h]; rfl

theorem State.working_failed {s : State} {c : Course} (running : s.course = some c) (failed : c.failed = true) : s.working = none := by
  simp [State.working, running, failed]

theorem State.mayIssue_some {s : State} {lr : Nat} {w0 w1 : W64} {c : Course} (h : s.mayIssue lr w0 w1 = some c) : s.working = some c := by
  rw [State.mayIssue] at h
  split at h
  · cases h
  · next c' working =>
    dsimp only at h
    split_ifs at h
    exact working.trans h

/-- R171: an instruction waits for its counter. -/
theorem State.mayIssue_waits {s : State} {lr : Nat} {w0 : W64} (en : waitEn w0 = true) (low : s.event lr (waitEv w0) < waitVal w0) (w1 : W64) :
    s.mayIssue lr w0 w1 = none := by
  rw [State.mayIssue]
  split
  · rfl
  · exact if_neg (by simp [en, Nat.not_le.2 low])

theorem State.fellNow_none {s : State} (h : ∀ c, s.course = some c → c.failed = false) : s.fellNow = none := by
  cases course : s.course with
  | none => simp [State.fellNow, course]
  | some c => simp [State.fellNow, course, h c course]

theorem State.fellNow_working {s : State} {c : Course} (h : s.working = some c) : s.fellNow = none :=
  State.fellNow_none fun c' running => by
    obtain ⟨course, alive⟩ := State.working_some h
    cases course.symm.trans running
    exact alive

theorem State.progTie_none {s : State} (h : s.fellNow = none) (lr : Nat) (run : State → State) : s.progTie lr run = run s := by
  rw [State.progTie, h]

/-- R328: in a course that has not failed, an instruction runs as it stands. -/
theorem State.leggettTie_alive {s : State} (h : ∀ c, s.course = some c → c.failed = false) (lr port : Nat) (run : State → State) :
    s.leggettTie lr port run = run s := by
  have none : s.integNow = none := by
    cases course : s.course with
    | none => simp [State.integNow, course]
    | some c => simp [State.integNow, course, h c course]
  rw [State.leggettTie, none]
  cases s.course <;> rfl

theorem State.leggettTie_working {s : State} {c : Course} (h : s.working = some c) (lr port : Nat) (run : State → State) :
    s.leggettTie lr port run = run s :=
  State.leggettTie_alive (fun c' running => by
    obtain ⟨course, alive⟩ := State.working_some h
    cases course.symm.trans running
    exact alive) lr port run

/-! ### Issuing (R170 to R176) -/

/-- R170, R185: what the answer of an instruction's body leaves: `s` is the state it issues in, and `r` the one its body began with. -/
def Eff.leaves (s r : State) (lr : Nat) (w0 : W64) : Eff → State
  | .done t => t.settle lr (sigOf w0)
  | .posted t => t.settle lr none
  | .began t => t
  | .hold => s
  | .bad codes => r.progError lr (lowest codes)
  | .fail t code => t.failCourse code

theorem State.issue_waits {s : State} {lr op : Nat} {w0 w1 : W64} (fell : s.fellNow = none) (waits : s.mayIssue lr w0 w1 = none)
    (rd wr : List (Nat × Nat)) (body : Course → State → Eff) : s.issue lr op w0 w1 rd wr body = s := by
  rw [State.issue, State.progTie_none fell, State.issueNow, waits, ite_self]

theorem State.issue_malformed {s : State} {lr op : Nat} {w0 w1 : W64} {c : Course} (may : s.mayIssue lr w0 w1 = some c)
    (opcode : opcodeOf w0 = op) (bad : wellFormedWords op w0 w1 = false) (rd wr : List (Nat × Nat)) (body : Course → State → Eff) :
    s.issue lr op w0 w1 rd wr body = s.progError lr 0x90 := by
  rw [State.issue, State.progTie_none (State.fellNow_working (State.mayIssue_some may)), State.issueNow, if_pos opcode, may]
  exact if_pos (by rw [bad]; rfl)

theorem State.dropUnread_course (s : State) (lr : Nat) (wr : List (Nat × Nat)) : (s.dropUnread lr wr).course = s.course := by
  dsimp only [State.dropUnread]
  split <;> rfl

/-- R170 to R176: a well-formed instruction that need not wait and meets no error in what it reads does what its body says. -/
theorem State.issue_runs {s : State} {lr op : Nat} {w0 w1 : W64} {c : Course} {rd wr : List (Nat × Nat)} (may : s.mayIssue lr w0 w1 = some c)
    (opcode : opcodeOf w0 = op) (formed : wellFormedWords op w0 w1 = true)
    (free : ((s.raft lr).loading (rd ++ wr) || (s.raft lr).sourcing wr) = false) (unread : (s.raft lr).unread rd = none)
    (sound : s.storeCheck lr rd = s) (body : Course → State → Eff) :
    s.issue lr op w0 w1 rd wr body = (body c (s.dropUnread lr wr)).leaves s (s.dropUnread lr wr) lr w0 := by
  have working : (s.dropUnread lr wr).working.isNone = false :=
    State.working_isNone ((State.working_congr (s.dropUnread_course lr wr)).trans (State.mayIssue_some may))
  rw [State.issue, State.progTie_none (State.fellNow_working (State.mayIssue_some may)), State.issueNow, if_pos opcode, may]
  dsimp only
  rw [formed, free, unread, sound]
  dsimp only
  rw [working]
  rfl

theorem State.storeCheck_sound {s : State} (sound : s.badStore = []) (lr : Nat) (rd : List (Nat × Nat)) : s.storeCheck lr rd = s := by
  rw [State.storeCheck, sound]
  rfl

theorem State.storeCheck_nil (s : State) (lr : Nat) : s.storeCheck lr [] = s := by
  rw [State.storeCheck, List.filter_eq_nil_iff.2 (by simp)]
  rfl

theorem State.accCheck_sound {s : State} (sound : s.badAcc = []) (lr k n : Nat) : s.accCheck lr k n = s := by
  rw [State.accCheck, sound]
  rfl

/-- R170: an instruction that reads and writes nothing in the rafter store waits for no load. -/
theorem State.issue_storeless {s : State} {lr op : Nat} {w0 w1 : W64} {c : Course} (may : s.mayIssue lr w0 w1 = some c)
    (opcode : opcodeOf w0 = op) (formed : wellFormedWords op w0 w1 = true) (body : Course → State → Eff) :
    s.issue lr op w0 w1 [] [] body = (body c s).leaves s s lr w0 :=
  State.issue_runs may opcode formed (by simp [Raft.loading, Raft.sourcing]) (by simp [Raft.unread]) (s.storeCheck_nil lr) body

/-- R170, R183: with no load listed and no stored word in error, an instruction that writes nothing to the rafter store runs. -/
theorem State.issue_reads {s : State} {lr op : Nat} {w0 w1 : W64} {c : Course} (may : s.mayIssue lr w0 w1 = some c) (opcode : opcodeOf w0 = op)
    (formed : wellFormedWords op w0 w1 = true) (ahead : (s.raft lr).ahead = []) (sound : s.badStore = []) (rd : List (Nat × Nat))
    (body : Course → State → Eff) : s.issue lr op w0 w1 rd [] body = (body c s).leaves s s lr w0 :=
  State.issue_runs may opcode formed (by simp [Raft.loading, Raft.sourcing, ahead]) (by simp [Raft.unread, ahead])
    (State.storeCheck_sound sound lr rd) body

/-! ### Signals (R171, R172) -/

theorem State.signal_due {s : State} {lr ev : Nat} (low : s.event lr ev < 0xFFFF) :
    s.signal lr ev = s.setEvent lr ev (s.event lr ev + 1) := if_neg (Nat.not_le.2 low)

theorem State.signal_full {s : State} {lr ev : Nat} (full : s.event lr ev = 0xFFFF) : s.signal lr ev = s.progError lr 0x95 :=
  if_pos (Nat.le_of_eq full.symm)

theorem State.setEvent_course (s : State) (lr ev v : Nat) : (s.setEvent lr ev v).course = s.course := by
  dsimp only [State.setEvent]
  split_ifs <;> rfl

theorem sigOf_none {w0 : W64} (h : sigEn w0 = false) : sigOf w0 = none := by rw [sigOf, h]; rfl
theorem sigOf_some {w0 : W64} (h : sigEn w0 = true) : sigOf w0 = some (sigEv w0) := by rw [sigOf, h]; rfl

theorem State.settle_silent {s : State} {c : Course} (working : s.working = some c) (lr : Nat) : s.settle lr none = s.advance lr := by
  simp [State.settle, State.signalOpt, working]

theorem State.settle_signals {s : State} {c : Course} {lr ev : Nat} (working : s.working = some c) (low : s.event lr ev < 0xFFFF) :
    s.settle lr (some ev) = (s.setEvent lr ev (s.event lr ev + 1)).advance lr := by
  have still := State.working_congr (s.setEvent_course lr ev (s.event lr ev + 1))
  simp [State.settle, State.signalOpt, working, State.signal_due low, still]

/-! ### A course that fails -/

theorem State.failCourse_parts {s : State} {c : Course} (code : Nat) (running : s.course = some c) (alive : c.failed = false) :
    (s.failCourse code).courseParts = (some { c with failed := true, working := false, running := [] }, [], [], false) := by
  have reported (t : State) : (t.reportStopped c code).inner = t.inner := (State.inner_complete _ _ _ _).trans (State.inner_setSeed _ _)
  rw [State.failCourse_eq code running alive, (State.kvRollback_parts _).1, (State.hold_parts _).1]
  obtain ⟨course, rafts, -, vote⟩ : _ = _ ∧ _ = _ ∧ _ = _ ∧ _ = _ := by
    simpa only [State.courseParts, Prod.mk.injEq] using
      (State.courseParts_of_inner (reported _)).trans ((s.failTold c code).showStopped_parts c code).1
  rw [course, rafts, vote]

/-! ### Program errors (R184, R190) -/

theorem State.recordProg_course (s : State) (lr code : Nat) : (s.recordProg lr code).course = s.course := by
  dsimp only [State.recordProg]
  split
  · rfl
  · rw [State.setFs_eq]

theorem State.progError_eq {s : State} {c : Course} (lr code : Nat) (running : s.course = some c) (alive : c.failed = false) :
    s.progError lr code = { (s.recordProg lr code).failCourse code with fell := some (s.fallOf c lr code) } := by
  rw [State.progError, running]
  exact if_neg (by rw [alive]; decide)

theorem State.progError_working {s : State} {c : Course} (lr code : Nat) (working : s.working = some c) :
    (s.progError lr code).working = none := by
  obtain ⟨running, alive⟩ := State.working_some working
  rw [State.progError_eq lr code running alive]
  have parts := State.failCourse_parts code ((s.recordProg_course lr code).trans running) alive
  exact State.working_failed (congrArg Prod.fst parts) rfl

theorem State.settle_overflows {s : State} {c : Course} {lr ev : Nat} (working : s.working = some c) (full : s.event lr ev = 0xFFFF) :
    s.settle lr (some ev) = s.progError lr 0x95 := by
  have failed := State.progError_working lr 0x95 working
  simp [State.settle, State.signalOpt, working, State.signal_full full, failed]

end Sys2Proof.Machine
end

section
/-! SUPPORT. The registers that neither data moved, a record posted nor a course that fails write, whatever stands in them: TRS_PROG_ERR and
the counters of thatch are among them (R190, R330). -/

namespace Sys2Proof.Machine

/-- The places that data moved, a record posted and a course that fails may write: those of `courseKey`, HIF_HL_LOST, the injections and the
memory, TRS_VEC_SEED, and of a ring ERR, ERR_CODE and CQ_TAIL. -/
def failKey (k : Nat) : Bool :=
  courseKey k || decide (k = Reg.HIF_HL_LOST.LOST.key ∨ k = Reg.FLT_INJECT.ARM.key ∨ k = Reg.FLT_INJ_COUNT.COUNT.key ∨ 2147483648 ≤ k ∨
    1073741824 ≤ k ∧ k % 2048 = 0 ∨ 10485760 ≤ k ∧ k % 2048 ∈ [1282, 1288, 1568])

theorem failKey_of_course {k : Nat} (h : courseKey k = true) : failKey k = true := by rw [failKey, h]; rfl

theorem failKey_of_ring (r b : Nat) (h : b % 2048 ∈ [1282, 1288, 1568]) : failKey ((0x28000 + r * 0x20) * 64 + b) = true := by
  simp only [List.mem_cons, List.not_mem_nil, or_false] at h
  simp only [failKey, Bool.or_eq_true, decide_eq_true_eq, List.mem_cons, List.not_mem_nil, or_false]
  omega

theorem failKey_of_memory {k : Nat} (h : 2147483648 ≤ k) : failKey k = true := by
  simp only [failKey, Bool.or_eq_true, decide_eq_true_eq]
  exact .inr (.inr (.inr (.inr (.inl h))))

theorem failKey_seed (n : Nat) : failKey (Reg.TRS_VEC_SEED.SEED n).key = true := by
  simp only [failKey, Bool.or_eq_true, decide_eq_true_eq]
  exact .inr (.inr (.inr (.inr (.inr (.inl (by omega))))))

/-- An update that does not name the registers. -/
theorem State.regsOn_upd (s : State) (p : Nat → Bool) {rings ports hbm poison symErr winLines cxlOut hostOut heldRecs flitOut inj freeCtr waiting
      prev course rafts saves heldSaves poolHeld stepVote stepNonfin amax watch peerWait kv kvUndoMem kvLog} :
    ({ s with
      rings := rings, ports := ports, hbm := hbm, poison := poison, symErr := symErr, winLines := winLines, cxlOut := cxlOut
      hostOut := hostOut, heldRecs := heldRecs, flitOut := flitOut, inj := inj, freeCtr := freeCtr, waiting := waiting, prev := prev
      course := course, rafts := rafts, saves := saves, heldSaves := heldSaves, poolHeld := poolHeld, stepVote := stepVote
      stepNonfin := stepNonfin, amax := amax, watch := watch, peerWait := peerWait, kv := kv, kvUndoMem := kvUndoMem, kvLog := kvLog
      : State }).regsOn p = s.regsOn p := rfl

theorem State.regsOn_setRing (s : State) (r : Nat) (x : Ring) (p : Nat → Bool) : (s.setRing r x).regsOn p = s.regsOn p := rfl

section
variable {p : Nat → Bool} (h : ∀ k, failKey k = true → p k = false)
include h

theorem State.aside_setF {f : Fld} (hf : failKey f.key = true) (s : State) (v : Nat) : (s.setF f v).regsOn p = s.regsOn p :=
  s.regsOn_setF p f v (h _ hf)

theorem State.aside_setFs (s : State) (l : List (Fld × Nat)) (hl : ∀ x ∈ l, failKey x.1.key = true) : (s.setFs l).regsOn p = s.regsOn p := by
  induction l generalizing s with
  | nil => rfl
  | cons x t ih =>
    rw [State.setFs_cons, ih _ fun y hy => hl y (List.mem_cons_of_mem _ hy), State.aside_setF h (hl x List.mem_cons_self)]

/-! ### Records and memory -/

theorem State.aside_writeRec (s : State) (c : CRec) : (s.writeRec c).regsOn p = s.regsOn p := by
  have tail : failKey (Reg.HIF_RING_PTR.CQ_TAIL c.ring).key = true := by
    simpa [Nat.add_mul, Nat.add_assoc] using failKey_of_ring c.ring 1568 (by decide)
  have rung (t : State) (r : Nat) : (t.coalesce r).regsOn p = t.regsOn p := by
    unfold State.coalesce
    split <;> rfl
  have sent (t : State) (kind : CxlKind) (a n : Nat) : (t.sendCxl kind a n).regsOn p = t.regsOn p := by
    unfold State.sendCxl
    split <;> rfl
  rw [State.writeRec, rung, State.regsOn_setRing, State.aside_setF h tail, sent, State.regsOn_upd]

theorem State.aside_post (s : State) (c : CRec) : (s.post c).regsOn p = s.regsOn p := by
  have lost : (s.bump Reg.HIF_HL_LOST.LOST 1).regsOn p = s.regsOn p := State.aside_setF h rfl s _
  have err : failKey (Reg.HIF_RING_STAT.ERR c.ring).key = true := by
    simpa [Nat.add_mul, Nat.add_assoc] using failKey_of_ring c.ring 1282 (by decide)
  have code : failKey (Reg.HIF_RING_STAT.ERR_CODE c.ring).key = true := by
    simpa [Nat.add_mul, Nat.add_assoc] using failKey_of_ring c.ring 1288 (by decide)
  unfold State.post
  split_ifs
  · exact lost
  · exact State.regsOn_upd s p
  · exact lost
  · exact State.aside_writeRec h s c
  · rw [State.killCq, State.regsOn_setRing, State.setFs_cons, State.setFs_cons, State.setFs_nil, State.aside_setF h code, State.aside_setF h err]

theorem State.aside_complete (s : State) (q : Req) (status detail : Nat) : (s.complete q status detail).regsOn p = s.regsOn p := by
  have flushed (t : State) (r : Nat) (qs : List Req) : (t.flushRecs r qs).regsOn p = t.regsOn p := by
    induction qs generalizing t with
    | nil => rfl
    | cons q qs ih =>
      unfold State.flushRecs
      split
      · rfl
      · rw [ih, State.aside_post h, State.regsOn_setRing]
  have ended (t : State) (r : Nat) : (t.flushEnd r).regsOn p = t.regsOn p := by
    dsimp only [State.flushEnd]
    split
    · split
      · rw [State.aside_post h, State.regsOn_setRing]
      · rfl
    · rfl
  dsimp only [State.complete]
  split
  · rw [ended, flushed, State.regsOn_setRing]
  · rfl

theorem State.aside_writeHbm (s : State) (a : Nat) (bs : List Byte) : (s.writeHbm a bs).regsOn p = s.regsOn p := by
  have stored (t : State) (sec : Nat) : (t.storeSector sec).regsOn p = t.regsOn p := by
    have armed (st : Nat) : failKey (Reg.MEM_INJECT.ARM st).key = true := failKey_of_memory (by simp only []; omega)
    dsimp only [State.storeSector]
    split
    · exact (State.regsOn_upd _ p).trans (State.aside_setF h (armed _) t 0)
    · exact State.regsOn_upd t p
  have shared (n : Nat) : (s.viaHost a n true).regsOn p = s.regsOn p := by
    unfold State.viaHost
    split_ifs <;> rfl
  exact (State.regsOn_upd _ p).trans ((State.regsOn_each p _ _ _ stored).trans (shared _))

theorem State.aside_sendFail (s : State) (counter : Nat) : (s.sendFail counter).regsOn p = s.regsOn p := by
  have used (t : State) : t.useInject.regsOn p = t.regsOn p :=
    (State.regsOn_upd _ p).trans
      ((State.aside_setF h (f := Reg.FLT_INJ_COUNT.COUNT) rfl _ _).trans (State.aside_setF h (f := Reg.FLT_INJECT.ARM) rfl t 0))
  have put (t : State) (port : Nat) (x : Port) : (t.setPort port x).regsOn p = t.regsOn p := rfl
  refine State.regsOn_each p _ _ _ fun t port => ?_
  dsimp only [State.sendFlit, State.sendFlitN, State.putFlit]
  split
  · refine (State.regsOn_upd _ p).trans ((put _ _ _).trans ?_)
    split
    · exact used t
    · rfl
  · exact put _ _ _

/-! ### A course that fails -/

theorem State.aside_withdraw (s : State) : s.withdraw.regsOn p = s.regsOn p := by
  unfold State.withdraw
  split
  · rfl
  · refine (State.regsOn_each p _ _ _ fun t a => ?_).trans (State.regsOn_upd s p)
    rw [State.finish, State.nextFree, State.regsOn_upd, State.aside_complete h]

theorem State.aside_kvRollback (s : State) : s.kvRollback.regsOn p = s.regsOn p := by
  have restored : s.kvRestored.regsOn p = s.regsOn p := by
    have written := State.regsOn_each p s s.kvUndoMem (fun s x => s.writeHbm x.1 x.2) fun t x => State.aside_writeHbm h t x.1 x.2
    unfold State.kvRestored
    split
    · exact written
    · exact (State.aside_setF h (f := Reg.CRS_KV_STAT.ROLLBACK) rfl _ _).trans written
  rw [State.kvRollback_eq, State.kvReport, State.aside_setFs h _ _ (by intro x hx; fin_cases hx <;> exact failKey_of_course rfl),
    State.regsOn_upd, restored]

theorem State.aside_failCourse (s : State) (code : Nat) : (s.failCourse code).regsOn p = s.regsOn p := by
  cases running : s.course with
  | none => rw [State.failCourse_none code running]
  | some c =>
    cases alive : c.failed with
    | true => rw [State.failCourse_failed code running alive]
    | false =>
      have told : (s.failTold c code).regsOn p = s.regsOn p := (State.aside_sendFail h _ _).trans (State.aside_writeHbm h s _ _)
      have stopped (t : State) : (t.stopRafters c).regsOn p = t.regsOn p := rfl
      have shown (t : State) : (t.showStopped c code).regsOn p = t.regsOn p := by
        rw [State.showStopped, State.setLast, State.aside_setFs h _ _ (by intro x hx; fin_cases hx <;> exact failKey_of_course rfl),
          State.aside_setF h (f := Reg.CRS_STATUS.IDLE) rfl, stopped]
      have reported (t : State) : (t.reportStopped c code).regsOn p = t.regsOn p :=
        (State.aside_complete h _ _ _ _).trans
          (State.regsOn_each p _ _ _ fun t n => State.aside_setF h (f := Reg.TRS_VEC_SEED.SEED n) (failKey_seed n) t _)
      have held (t : State) : t.hold.regsOn p = t.regsOn p :=
        (State.aside_withdraw h _).trans (State.aside_setF h (f := Reg.CRS_STATUS.HELD) rfl t 1)
      rw [State.failCourse_eq code running alive, State.aside_kvRollback h, held, reported, shown, told]

end

end Sys2Proof.Machine
end

section
/-! SUPPORT. NOP, END and reserved opcodes, and what a program error leaves (R169, R171, R172, R176, R190). -/

namespace Sys2Proof.Machine

/-! ### What a program error leaves (R76, R185, R190) -/

/-- R190: the fields of TRS_PROG_ERR that tell of an error. -/
def progFields (n : Nat) : List Fld :=
  [Reg.TRS_PROG_ERR.STATUS n, Reg.TRS_PROG_ERR.LRAFT n, Reg.TRS_PROG_ERR.VALID n, Reg.TRS_PROG_ERR.PC n, Reg.TRS_PROG_ERR.COURSE n]

/-- The places of TRS_PROG_ERR of the truss dies. -/
def progKey (k : Nat) : Bool := decide (1073741824 ≤ k ∧ k < 2147483648 ∧ 512 ≤ k % 2048 ∧ k % 2048 < 576)

theorem progKey_prog {n : Nat} (die : n < 4) : ∀ f ∈ progFields n, progKey f.key = true := by
  simp only [progFields, List.mem_cons, List.not_mem_nil, or_false, progKey, decide_eq_true_eq]
  rintro f (rfl | rfl | rfl | rfl | rfl) <;> simp only [] <;> omega

theorem failKey_progKey (k : Nat) (h : failKey k = true) : progKey k = false := by
  simp only [failKey, courseKey, Bool.or_eq_true, decide_eq_true_eq, List.mem_cons, List.not_mem_nil, or_false] at h
  simp only [progKey, decide_eq_false_iff_not]
  omega

theorem State.recordProg_held {s : State} {lr : Nat} (valid : s.getF (Reg.TRS_PROG_ERR.VALID (lr / 8)) ≠ 0) (code : Nat) :
    s.recordProg lr code = s := if_pos (State.on_eq_true valid)

theorem State.recordProg_free {s : State} {lr : Nat} {c : Course} (free : s.getF (Reg.TRS_PROG_ERR.VALID (lr / 8)) = 0)
    (running : s.course = some c) (code : Nat) : s.recordProg lr code =
      s.setFs [(Reg.TRS_PROG_ERR.STATUS (lr / 8), code), (Reg.TRS_PROG_ERR.LRAFT (lr / 8), lr % 8), (Reg.TRS_PROG_ERR.VALID (lr / 8), 1),
        (Reg.TRS_PROG_ERR.PC (lr / 8), (s.raft lr).pc), (Reg.TRS_PROG_ERR.COURSE (lr / 8), c.counter)] := by
  rw [State.recordProg, running]
  exact if_neg (by rw [State.on_eq_false free]; decide)

/-- R190: TRS_PROG_ERR as a program error leaves it. -/
theorem State.recordProg_fields {s : State} {lr code : Nat} {c : Course} (canon : s.Canon) (running : s.course = some c) (fits : code < 256) :
    (s.recordProg lr code).getF (Reg.TRS_PROG_ERR.VALID (lr / 8)) ≠ 0 ∧
      (s.getF (Reg.TRS_PROG_ERR.VALID (lr / 8)) = 0 →
        (s.recordProg lr code).getF (Reg.TRS_PROG_ERR.STATUS (lr / 8)) = code ∧
          (s.recordProg lr code).getF (Reg.TRS_PROG_ERR.LRAFT (lr / 8)) = lr % 8 ∧
          (s.recordProg lr code).getF (Reg.TRS_PROG_ERR.PC (lr / 8)) = (s.raft lr).pc % 2 ^ (Reg.TRS_PROG_ERR.PC (lr / 8)).w ∧
          (s.recordProg lr code).getF (Reg.TRS_PROG_ERR.COURSE (lr / 8)) = c.counter % 2 ^ (Reg.TRS_PROG_ERR.COURSE (lr / 8)).w) := by
  by_cases free : s.getF (Reg.TRS_PROG_ERR.VALID (lr / 8)) = 0
  · rw [State.recordProg_free free running]
    have fields := State.getF_setFs_mem s [(Reg.TRS_PROG_ERR.STATUS (lr / 8), code), (Reg.TRS_PROG_ERR.LRAFT (lr / 8), lr % 8),
      (Reg.TRS_PROG_ERR.VALID (lr / 8), 1), (Reg.TRS_PROG_ERR.PC (lr / 8), (s.raft lr).pc), (Reg.TRS_PROG_ERR.COURSE (lr / 8), c.counter)]
      canon.regs (by simp)
    refine ⟨?_, fun _ => ⟨?_, ?_, fields (Reg.TRS_PROG_ERR.PC (lr / 8), (s.raft lr).pc) (by simp),
      fields (Reg.TRS_PROG_ERR.COURSE (lr / 8), c.counter) (by simp)⟩⟩
    · rw [fields (Reg.TRS_PROG_ERR.VALID (lr / 8), 1) (by simp)]
      exact Nat.one_ne_zero
    · rw [fields (Reg.TRS_PROG_ERR.STATUS (lr / 8), code) (by simp)]
      exact Nat.mod_eq_of_lt fits
    · rw [fields (Reg.TRS_PROG_ERR.LRAFT (lr / 8), lr % 8) (by simp)]
      exact Nat.mod_mod _ _
  · rw [State.recordProg_held free]
    exact ⟨free, fun no => absurd no free⟩

/-- R190: nothing of a course's failure but the record itself writes TRS_PROG_ERR. -/
theorem State.progError_record {s : State} {c : Course} {lr : Nat} (canon : s.Canon) (running : s.course = some c) (alive : c.failed = false)
    (logical : lr < 32) (code : Nat) : ∀ f ∈ progFields (lr / 8), (s.progError lr code).getF f = (s.recordProg lr code).getF f := by
  intro f hf
  rw [State.progError_eq lr code running alive]
  have recorded := (State.recordProg_kept s lr code ⟨canon, rfl, rfl⟩).canon
  exact State.getF_of_regsOn (State.aside_failCourse failKey_progKey _ code) recorded.regs
    (State.failCourse_kept _ code ⟨recorded, rfl, rfl⟩).canon.regs (progKey_prog (by omega) f hf)

/-- R76, R185: a program error is a failure of the course, told of after TRS_PROG_ERR. -/
theorem State.progError_fails {s : State} {c : Course} (canon : s.Canon) (running : s.course = some c) (alive : c.failed = false)
    (lr code : Nat) : (s.recordProg lr code).FailedWith (s.progError lr code) c code := by
  rw [State.progError_eq lr code running alive]
  have recorded := (State.recordProg_kept s lr code ⟨canon, rfl, rfl⟩).canon
  obtain ⟨canon, parts, kv, held, idle, status, committed, suppressed, counter, kept⟩ :=
    State.failCourse_fields recorded code ((s.recordProg_course lr code).trans running) alive
  exact ⟨⟨canon.hbm, canon.loft, canon.rstore, canon.acc, canon.regs⟩, parts, kv, held, idle, status, committed, suppressed, counter, kept⟩

/-! ### END and reserved opcodes (R169, R176) -/

theorem endProgram_runs {s : State} {lr : Nat} {w0 w1 : W64} {c : Course} (may : s.mayIssue lr w0 w1 = some c) (opcode : opcodeOf w0 = 0x01)
    (formed : wellFormedWords 0x01 w0 w1 = true) (silent : sigEn w0 = false) : endProgram lr w0 w1 s = endInstr lr c s := by
  have working := State.mayIssue_some may
  rw [endProgram, State.progTie_none (State.fellNow_working working), if_pos opcode, may]
  simp only [formed, sigOf_none silent, State.signalOpt, working]
  rfl

theorem endProgram_waits {s : State} {lr : Nat} {w0 w1 : W64} (fell : s.fellNow = none) (waits : s.mayIssue lr w0 w1 = none) :
    endProgram lr w0 w1 s = s := by
  rw [endProgram, State.progTie_none fell, waits, ite_self]

theorem reservedRafter_fails {s : State} {lr : Nat} {w0 w1 : W64} {c : Course} (may : s.mayIssue lr w0 w1 = some c)
    (reserved : reservedOf (opcodeOf w0) = none) : reservedRafter lr w0 w1 s = s.progError lr 0x90 := by
  rw [reservedRafter, reserved, State.progTie_none (State.fellNow_working (State.mayIssue_some may)), may]
  rfl

/-- Settles O32: NOP and the program errors by what an issue leaves, END and reserved opcodes by their own frames, the wait by the check of the
counter. -/
theorem rafterProgramsSignalWaitAndEnd : Obligations.RafterProgramsSignalWaitAndEnd := by
  intro s lr w0 w1 c up
  have nop : exec (.rafterNop lr w0 w1) s = .next (s.issue lr 0x00 w0 w1 [] [] fun _ s => .done s) :=
    onCore_up (fun s => s.issue lr 0x00 w0 w1 [] [] fun _ s => .done s) s up
  have ends : exec (.endProgram lr w0 w1) s = .next (endProgram lr w0 w1 s) := onCore_up _ s up
  refine ⟨fun may opcode formed => ?_, fun may opcode bad => ?_, fun may opcode formed silent => ⟨fun g seg => ?_, fun seg => ?_⟩,
    fun may reserved => ?_, fun en low => ⟨fun fell => ?_, fun alive => ?_⟩, ?_⟩
  · have working := State.mayIssue_some may
    rw [nop, State.issue_storeless may opcode formed]
    refine ⟨fun silent => ?_, fun sig below => ?_, fun sig full => ?_⟩
    · rw [Eff.leaves, sigOf_none silent, State.settle_silent working]
    · rw [Eff.leaves, sigOf_some sig, State.settle_signals working below]
    · rw [Eff.leaves, sigOf_some sig, State.settle_overflows working full]
  · rw [nop, State.issue_malformed may opcode bad]
  · rw [ends, endProgram_runs may opcode formed silent, endInstr, seg]
  · rw [ends, endProgram_runs may opcode formed silent, endInstr, seg]
  · rw [show exec (.reservedRafterOpcode lr w0 w1) s = .next (reservedRafter lr w0 w1 s) from onCore_up _ s up,
      reservedRafter_fails may reserved]
  · have waits := State.mayIssue_waits en low w1
    refine ⟨?_, ?_, ?_, ?_⟩
    · rw [nop, State.issue_waits fell waits]
    · rw [ends, endProgram_waits fell waits]
    · rw [show exec (.vxKernel lr w0 w1) s = .next (vxKernel lr w0 w1 s) from onCore_up _ s up, vxKernel, State.issue_waits fell waits]
    · rw [show exec (.atFwd lr w0 w1) s = .next (atFwd lr w0 w1 s) from onCore_up _ s up, atFwd, State.attend, State.issue_waits fell waits]
  · have waits := State.mayIssue_waits en low w1
    have fell := State.fellNow_none alive
    refine ⟨?_, ?_⟩
    · rw [show exec (.mxLdb lr w0 w1) s = .next (mxLdb lr w0 w1 s) from onCore_up _ s up, mxLdb, State.leggettTie_alive alive,
        State.issue_waits fell waits]
    · rw [show exec (.mxMm lr w0 w1) s = .next (mxMm lr w0 w1 s) from onCore_up _ s up, mxMm, State.leggettTie_alive alive,
        State.issue_waits fell waits]
  · rintro code n t canon running alive logical rfl fits rfl
    have failed := State.progError_fails canon running alive lr code
    have record := State.progError_record canon running alive logical code
    obtain ⟨valid, first⟩ := State.recordProg_fields (lr := lr) canon running fits
    have parts := failed.parts
    simp only [State.courseParts, Prod.mk.injEq] at parts
    obtain ⟨course, rafts, waiting, -⟩ := parts
    refine ⟨course, State.working_failed course rfl, rafts, waiting, failed.status.trans (Nat.mod_eq_of_lt fits), failed.committed,
      failed.counter, failed.held, ?_, fun free => ?_, fun held f hf => ?_⟩
    · rw [record _ (by simp [progFields])]
      exact valid
    · rw [record _ (by simp [progFields]), record _ (by simp [progFields]), record _ (by simp [progFields]), record _ (by simp [progFields])]
      exact first free
    · have told : f ∈ progFields (lr / 8) := by
        simp only [List.mem_cons, List.not_mem_nil, or_false] at hf
        rcases hf with rfl | rfl | rfl | rfl <;> simp [progFields]
      rw [record f told, State.recordProg_held held]

end Sys2Proof.Machine
end

section
/-! SUPPORT. MX.LDB (R144, R150, R151, R178): the block that its stored rows make, and the instruction around it. -/

namespace Sys2Proof.Machine

/-! ### The instruction -/

theorem State.armed_none {s : State} (quiet : s.inj = none) (checker unit : Nat) : s.armed checker unit = none := by rw [State.armed, quiet]

theorem State.injectArray_none {s : State} (quiet : s.inj = none) (u : Nat) : s.injectArray u = s := by
  rw [State.injectArray, State.armed_none quiet]

theorem checked_sound {cs : List (Bool × Nat)} (sound : broken cs = []) (e : Eff) : checked cs e = e :=
  if_pos (by rw [sound]; rfl)

/-- R185: the codes broken, and those the effect itself finds. -/
theorem checked_broken {cs : List (Bool × Nat)} (bad : broken cs ≠ []) (e : Eff) :
    ∃ ds, checked cs e = .bad (broken cs ++ ds) ∧ (ds = [] ∨ e = .bad ds) := by
  unfold checked
  rw [if_neg (by simpa using bad)]
  cases e with
  | bad ds => exact ⟨ds, rfl, .inr rfl⟩
  | done s | posted s | began s | hold | fail s code => exact ⟨[], congrArg Eff.bad (List.append_nil _).symm, .inl rfl⟩

/-- The lowest of some codes is one of them that is not above any other. -/
theorem lowest_eq {c : Nat} {codes : List Nat} (mem : c ∈ codes) (low : ∀ d ∈ codes, c ≤ d) (byte : c ≤ 0xFF) : lowest codes = c := by
  have least (m : Nat) (ds : List Nat) : ds.foldl min m = m ∨ ds.foldl min m ∈ ds := by
    induction ds generalizing m with
    | nil => exact .inl rfl
    | cons d ds ih =>
      rcases ih (min m d) with e | e
      · rw [List.foldl_cons, e]
        rcases Nat.le_total m d with le | le
        · exact .inl (Nat.min_eq_left le)
        · exact .inr (by rw [Nat.min_eq_right le]; exact List.mem_cons_self)
      · exact .inr (List.mem_cons_of_mem _ e)
  have below (m : Nat) (ds : List Nat) : ds.foldl min m ≤ m ∧ ∀ d ∈ ds, ds.foldl min m ≤ d := by
    induction ds generalizing m with
    | nil => simp
    | cons d ds ih =>
      obtain ⟨first, rest⟩ := ih (min m d)
      refine ⟨first.trans (Nat.min_le_left _ _), fun x hx => ?_⟩
      rcases List.mem_cons.1 hx with rfl | hx
      · exact first.trans (Nat.min_le_right _ _)
      · exact rest x hx
  refine Nat.le_antisymm ((below 0xFF codes).2 c mem) ?_
  rcases least 0xFF codes with e | e
  · rw [lowest, e]
    exact byte
  · exact low _ e

/-- What an MX.LDB of format `f` does, whose rows pass or fail the checks of the rafter store. -/
def State.ldbBody (s : State) (lr f trans split kr nc a pitch : Nat) : Eff :=
  checked (ldbCodes f trans split kr) <|
    if f = 2 ∧ pitch ≠ 0 then s.ldbFp4 lr a pitch kr nc
    else (s.operandRows lr a pitch f (if trans = 1 then nc else kr) (if trans = 1 then kr else nc)).use s lr 1 fun rows =>
      .done ((s.loadBlock lr ⟨f, split, kr, nc, codes32 (if trans = 1 then transpose kr rows else rows), []⟩).injectArray (s.unitOf lr))

theorem execMxLdb_runs {s : State} {lr : Nat} {w0 w1 : W64} {c : Course} (up : s.coreUp) (may : s.mayIssue lr w0 w1 = some c)
    (sound : s.badStore = []) (opcode : opcodeOf w0 = 0x10) (formed : wellFormedWords 0x10 w0 w1 = true) (ahead : (s.raft lr).ahead = []) :
    exec (.mxLdb lr w0 w1) s = .next ((s.ldbBody lr (wbits w0 37 3) (wbits w0 40 1) (wbits w0 41 2) (wbits w0 43 10 + 1) (wbits w0 53 9 + 1)
      (wbits w1 0 19 * 64) (wbits w1 19 19 * 64)).leaves s s lr w0) := by
  rw [show exec (.mxLdb lr w0 w1) s = .next (mxLdb lr w0 w1 s) from onCore_up _ s up, mxLdb,
    State.leggettTie_working (State.mayIssue_some may), State.issue_reads may opcode formed ahead sound]
  rfl

/-- R144, R170: a block loaded, and the sequencer past the instruction. -/
theorem State.loadBlock_leaves {s : State} {c : Course} {w0 : W64} (working : s.working = some c) (quiet : s.inj = none)
    (silent : sigEn w0 = false) (lr : Nat) (b : Block) :
    (Eff.done ((s.loadBlock lr b).injectArray (s.unitOf lr))).leaves s s lr w0 =
      (s.setRaft lr { s.raft lr with standby := some b }).advance lr := by
  rw [Eff.leaves, sigOf_none silent, State.injectArray_none (s := s.loadBlock lr b) quiet]
  exact State.settle_silent (s := s.loadBlock lr b) working lr

/-! ### The rows of a block -/

theorem codes32_getD (rows : List (List Nat)) (k n : Nat) :
    ((codes32 rows).getD k []).getD n 0 = BitVec.ofNat 32 ((rows.getD k []).getD n 0) := by
  simp only [codes32, List.getD_eq_getElem?_getD, List.getElem?_map]
  cases rows[k]? with
  | none => rfl
  | some row =>
    simp only [Option.map_some, Option.getD_some, List.getElem?_map]
    cases row[n]? <;> rfl

theorem getD_map_range {α : Type} (g : Nat → α) (d : α) {i n : Nat} (h : i < n) : ((List.range n).map g).getD i d = g i := by
  rw [List.getD_eq_getElem?_getD, List.getElem?_map, List.getElem?_range h]
  rfl

theorem transpose_getD (rows : List (List Nat)) {k n : Nat} (h : k < n) : (transpose n rows).getD k [] = rows.map (·.getD k 0) :=
  getD_map_range _ _ h

theorem State.readRows_sound {s : State} {lr a pitch f r e : Nat}
    (sound : broken (s.rangeCodes lr ((List.range r).map fun j => (a + j * pitch, rowBytes f e))) = []) :
    s.readRows lr a pitch f r e = .rows ((List.range r).map fun j => rowElems f e (s.rsRead lr (a + j * pitch) (rowBytes f e))) := by
  rw [State.readRows, sound, List.map_map]
  rfl

theorem State.operandRows_plain {s : State} {lr a pitch f r e : Nat} (plain : pitch ≠ 0)
    (sound : broken (s.rangeCodes lr ((List.range r).map fun j => (a + j * pitch, rowBytes f e))) = []) :
    s.operandRows lr a pitch f r e = .rows ((List.range r).map fun j => rowElems f e (s.rsRead lr (a + j * pitch) (rowBytes f e))) := by
  rw [State.operandRows, if_neg plain, State.readRows_sound sound]

/-! ### The codes of an MX.LDB -/

/-- R165, R174: the rules on ranges of the rafter store have the codes 0x92 and 0x94. -/
theorem State.rangeCodes_codes {s : State} {lr : Nat} {rs : List (Nat × Nat)} {d : Nat} (h : d ∈ broken (s.rangeCodes lr rs)) :
    d = 0x92 ∨ d = 0x94 := by
  simp only [broken, State.rangeCodes, List.mem_map, List.mem_filter, List.mem_cons, List.not_mem_nil, or_false] at h
  obtain ⟨x, ⟨rfl | rfl, -⟩, rfl⟩ := h
  · exact .inl rfl
  · exact .inr rfl

/-- R320: the codes that the rows of an operand break. -/
theorem State.operandRows_codes {s : State} {lr a pitch f r e : Nat} {ds : List Nat} (h : s.operandRows lr a pitch f r e = .bad ds) :
    ∀ d ∈ ds, 0x91 ≤ d := by
  have ranges (rs : List (Nat × Nat)) : ∀ d ∈ broken (s.rangeCodes lr rs), 0x91 ≤ d := fun d hd => by
    rcases State.rangeCodes_codes hd with rfl | rfl <;> decide
  have shape (x y : Bool) : ∀ d ∈ broken [(x, 0x98), (y, 0x99)], 0x91 ≤ d := by
    simp only [broken, List.mem_map, List.mem_filter, List.mem_cons, List.not_mem_nil, or_false]
    rintro d ⟨z, ⟨rfl | rfl, -⟩, rfl⟩ <;> simp only [] <;> omega
  rw [State.operandRows] at h
  split at h
  · rw [State.readSection] at h
    split at h
    · cases h
      exact ranges _
    · dsimp only at h
      split at h
      · cases h
      · split at h
        · cases h
          exact ranges _
        · split at h
          · cases h
            exact shape _ _
          · split at h <;> cases h
  · dsimp only [State.readRows] at h
    split at h
    · cases h
    · cases h
      exact ranges _

theorem Delivered.use_bad {d : Delivered} {s : State} {lr port : Nat} {k : List (List Nat) → Eff} {ds : List Nat}
    (h : d.use s lr port k = .bad ds) (done : ∀ rs, k rs ≠ .bad ds) : d = .bad ds := by
  cases d with
  | rows rs => exact absurd h (done rs)
  | bad cs => cases h; rfl
  | broken cause yelm => cases h

/-- R178: a KROWS above 512 of a format other than E2M1 breaks 0x91, and no rule with a lower code. -/
theorem ldbBody_large {s : State} {lr f trans split kr nc a pitch : Nat} (known : f < 5) (other : f ≠ 2) (large : 512 < kr) :
    ∃ codes, s.ldbBody lr f trans split kr nc a pitch = .bad codes ∧ lowest codes = 0x91 := by
  have breaks : 0x91 ∈ broken (ldbCodes f trans split kr) := by simp [broken, ldbCodes, other, large]
  have own : ∀ d ∈ broken (ldbCodes f trans split kr), 0x91 ≤ d := by
    simp only [broken, ldbCodes, List.mem_map, List.mem_filter, List.mem_cons, List.not_mem_nil, or_false]
    rintro d ⟨x, ⟨rfl | rfl | rfl | rfl | rfl, hx⟩, rfl⟩
    · exact absurd (of_decide_eq_true hx) (by omega)
    all_goals exact Nat.le_refl _
  obtain ⟨ds, bad, found⟩ := checked_broken (List.ne_nil_of_mem breaks)
    (if f = 2 ∧ pitch ≠ 0 then s.ldbFp4 lr a pitch kr nc
    else (s.operandRows lr a pitch f (if trans = 1 then nc else kr) (if trans = 1 then kr else nc)).use s lr 1 fun rows =>
      .done ((s.loadBlock lr ⟨f, split, kr, nc, codes32 (if trans = 1 then transpose kr rows else rows), []⟩).injectArray (s.unitOf lr)))
  refine ⟨_, bad, lowest_eq (List.mem_append_left _ breaks) (fun d hd => ?_) (by decide)⟩
  rcases List.mem_append.1 hd with hd | hd
  · exact own d hd
  · rcases found with rfl | found
    · cases hd
    · rw [if_neg fun both => other both.1] at found
      exact State.operandRows_codes (Delivered.use_bad found fun rs no => nomatch no) d hd

/-- Settles O33: the checks of the instruction, the rows it reads, and the block they make. -/
theorem blockLoad : Obligations.BlockLoad := by
  intro s lr w0 w1 c f trans split kr nc a p up may sound quiet opcode formed ahead hf ht hs hk hn ha hp known
  have working := State.mayIssue_some may
  have run := execMxLdb_runs up may sound opcode formed ahead
  rw [← hf, ← ht, ← hs, ← hk, ← hn, ← ha, ← hp] at run
  clear hf ht hs hk hn ha hp
  refine ⟨fun e2m1 straight whole plain silent ranges => ?_, fun other large => ?_, fun other codes plain silent ranges => ?_⟩
  · subst e2m1 straight whole
    have fp4 : s.ldbBody lr 2 0 0 kr nc a p = s.ldbFp4 lr a p kr nc := by
      rw [State.ldbBody, checked_sound (by simp [broken, ldbCodes]), if_pos ⟨rfl, plain⟩]
    rw [run, fp4, State.ldbFp4]
    dsimp only [dataRow, scaleRow]
    rw [checked_sound ranges, State.loadBlock_leaves working quiet silent]
    refine ⟨_, rfl, rfl, rfl, rfl, fun i hi => ?_, fun k hk n _ => ?_⟩
    · simp only [List.map_map, getD_map_range _ _ hi]
      rfl
    · rw [codes32_getD, List.map_map, getD_map_range _ _ hk]
      rfl
  · obtain ⟨codes, bad, low⟩ := ldbBody_large (s := s) (lr := lr) (trans := trans) (split := split) (nc := nc) (a := a) (pitch := p)
      known other large
    rw [run, bad, Eff.leaves, low]
  · have rows := State.operandRows_plain plain ranges
    rw [run, State.ldbBody, checked_sound codes, if_neg fun both => other both.1, rows, Delivered.use,
      State.loadBlock_leaves working quiet silent]
    refine ⟨_, rfl, rfl, rfl, rfl, rfl, rfl, fun k hk n hn => ?_⟩
    rw [codes32_getD]
    by_cases turned : trans = 1
    · simp only [if_pos turned, transpose_getD _ hk, List.map_map, getD_map_range _ _ hn]
      rfl
    · simp only [if_neg turned, getD_map_range _ _ hk]

end Sys2Proof.Machine
end

section
/-! SUPPORT. MX.MM (R143, R144, R154, R155, R157, R179, R200): accumulator memory and the tiles as an instruction leaves them. -/

namespace Sys2Proof.Machine

/-! ### Tables -/

/-- A value other than the default reads back, in whatever order the keys stand. -/
theorem SMap.look_put_live {α : Type} [DecidableEq α] {d v : α} (live : v ≠ d) (k : Nat) (m : SMap α) : SMap.look d k (SMap.put d k v m) = v := by
  induction m with
  | nil => simp [SMap.put, SMap.look, live]
  | cons x t ih =>
    unfold SMap.put
    split_ifs with below same
    · simp [SMap.look]
    · simp [SMap.look]
    · simp only [SMap.look]
      rw [if_neg same, if_neg below]
      exact ih

theorem State.raft_setRaft_live {x : Raft} (live : x ≠ Raft.fresh) (s : State) (lr : Nat) : (s.setRaft lr x).raft lr = x :=
  SMap.look_put_live live lr s.rafts

theorem Raft.active_live {x : Raft} {b : Block} (h : x.active = some b) : x ≠ Raft.fresh := by
  rintro rfl
  cases h

/-- Places cleared one after the other. -/
theorem SMap.look_clear {α : Type} [DecidableEq α] (ks : List Nat) (m : SMap (Option α)) (w : SMap.rising m = true) (j : Nat) :
    SMap.rising (ks.foldl (fun m k => SMap.put none k none m) m) = true ∧
      SMap.look none j (ks.foldl (fun m k => SMap.put none k none m) m) = if j ∈ ks then none else SMap.look none j m := by
  induction ks generalizing m with
  | nil => exact ⟨w, by simp⟩
  | cons k ks ih =>
    obtain ⟨rising, look⟩ := ih _ (SMap.put_rising none k none m w)
    refine ⟨rising, look.trans ?_⟩
    by_cases later : j ∈ ks
    · simp [later]
    · by_cases same : j = k
      · subst same
        simp [later, SMap.look_put_same none j none m w]
      · simp [later, same, SMap.look_put_other none none j k none m w same]

theorem SMap.rising_of_wf {α : Type} [DecidableEq α] {d : α} {m : SMap α} (w : SMap.wf d m = true) : SMap.rising m = true := by
  induction m with
  | nil => rfl
  | cons x t ih =>
    simp only [SMap.wf, Bool.and_eq_true] at w
    simp [SMap.rising, w.1.2, ih w.2]

/-! ### Accumulator memory (R154) -/

/-- A word read after values were written is the one written there, and elsewhere what it was. -/
theorem look_accPut (m : SMap W32) (k : Nat) (vs : List W32) (w : SMap.rising m = true) (i : Nat) :
    SMap.look 0 i (accPut m k vs) = if k ≤ i ∧ i < k + vs.length then vs.getD (i - k) 0 else SMap.look 0 i m := by
  induction vs generalizing m k with
  | nil =>
    rw [if_neg (by simp)]
    rfl
  | cons v vs ih =>
    rw [accPut, ih _ _ (SMap.put_rising 0 k v m w), List.length_cons]
    rcases Nat.lt_trichotomy i k with below | rfl | above
    · rw [if_neg (by omega), if_neg (by omega)]
      exact SMap.look_put_other 0 0 i k v m w (by omega)
    · rw [if_neg (by omega), if_pos (by omega), Nat.sub_self]
      exact SMap.look_put_same 0 i v m w
    · by_cases within : i < k + 1 + vs.length
      · rw [if_pos (by omega), if_pos (by omega), show i - k = i - (k + 1) + 1 by omega]
        rfl
      · rw [if_neg (by omega), if_neg (by omega)]
        exact SMap.look_put_other 0 0 i k v m w (by omega)

/-- Rows of one length, one after the other. -/
theorem length_flatRows {α : Type} {n : Nat} (rows : List (List α)) (even : ∀ r ∈ rows, r.length = n) :
    (rows.flatMap fun r => r).length = rows.length * n := by
  induction rows with
  | nil => simp
  | cons x rows ih =>
    rw [List.flatMap_cons, List.length_append, even x List.mem_cons_self, ih fun r hr => even r (List.mem_cons_of_mem _ hr), List.length_cons,
      Nat.succ_mul, Nat.add_comm]

theorem getD_flatRows {α : Type} {n : Nat} (d : α) (rows : List (List α)) (even : ∀ r ∈ rows, r.length = n) (r : Nat) {k : Nat} (hk : k < n) :
    (rows.flatMap fun x => x).getD (r * n + k) d = (rows.getD r []).getD k d := by
  induction rows generalizing r with
  | nil => rfl
  | cons x rows ih =>
    have len := even x List.mem_cons_self
    rw [List.flatMap_cons]
    cases r with
    | zero =>
      rw [Nat.zero_mul, Nat.zero_add, List.getD_append _ _ _ _ (by omega)]
      rfl
    | succ r =>
      rw [List.getD_append_right _ _ _ _ (by rw [len, Nat.succ_mul]; omega), len, Nat.succ_mul,
        show r * n + n + k - n = r * n + k by omega, ih (fun y hy => even y (List.mem_cons_of_mem _ hy)) r]
      rfl

/-! ### The product (R143, R200) -/

theorem mmRows_length (b : Block) (fa : Nat) (arows ascales : List (List Nat)) (old : Option (List (List W32))) :
    (mmRows b fa arows ascales old).length = arows.length := by simp [mmRows]

theorem mmRows_even (b : Block) (fa : Nat) (arows ascales : List (List Nat)) (old : Option (List (List W32))) :
    ∀ r ∈ mmRows b fa arows ascales old, r.length = b.ncols := by
  simp only [mmRows, List.mem_map]
  rintro r ⟨x, -, rfl⟩
  simp

/-- R200: element (r, k) of a product. -/
theorem mmRows_getD (b : Block) (fa : Nat) (arows ascales : List (List Nat)) (old : Option (List (List W32))) {r k : Nat}
    (hr : r < arows.length) (hk : k < b.ncols) : ((mmRows b fa arows ascales old).getD r []).getD k 0 =
      mmElem b ((arows.getD r []).map (decodeF fa)) (ascales.getD r []) (b.elems.map fun e => decodeF b.fmt (e.getD k 0).toNat)
        (b.scales.map fun e => (e.getD k 0).toNat) (old.map fun o => (o.getD r []).getD k 0) := by
  simp [mmRows, List.getD_eq_getElem?_getD, List.getElem?_zipIdx, List.getElem?_eq_getElem hr, List.getElem?_range hk]

/-! ### Tiles (R155, R157) -/

/-- R157: the tile recorded at unit `k` of `m` overlaps one of the shape of `g` at unit `u`. -/
def metBy (u : Nat) (g : SlotState) (m : SMap (Option SlotState)) (k : Nat) : Bool :=
  match SMap.look none k m with
  | some o => overlaps k (shapeUnits o.shape) u (shapeUnits g.shape)
  | none => false

/-- R155, R157: the tiles of a rafter once one is recorded at unit `u`. -/
def tilesWith (u : Nat) (g : SlotState) (m : SMap (Option SlotState)) : SMap (Option SlotState) :=
  SMap.put none u (some g) (((List.range 32).filter (metBy u g m)).foldl (fun m k => SMap.put none k none m) m)

theorem State.setTile_eq (s : State) (lr u : Nat) (g : SlotState) :
    s.setTile lr u g = s.setRaft lr { s.raft lr with slots := tilesWith u g (s.raft lr).slots } := rfl

theorem look_tilesWith_same (u : Nat) (g : SlotState) (m : SMap (Option SlotState)) : SMap.look none u (tilesWith u g m) = some g :=
  SMap.look_put_live (by simp) u _

/-- R157: the tiles that the new one overlaps are gone, and the others are as they were. -/
theorem look_tilesWith_other {u k : Nat} (g : SlotState) {m : SMap (Option SlotState)} (w : SMap.rising m = true) (unit : k < 32) (h : k ≠ u) :
    SMap.look none k (tilesWith u g m) =
      (SMap.look none k m).filter fun o => !overlaps k (shapeUnits o.shape) u (shapeUnits g.shape) := by
  obtain ⟨rising, look⟩ := SMap.look_clear ((List.range 32).filter (metBy u g m)) m w k
  rw [tilesWith, SMap.look_put_other none none k u _ _ rising h, look]
  simp only [List.mem_filter, List.mem_range, unit, true_and, metBy]
  cases SMap.look none k m with
  | none => rfl
  | some o => cases meet : overlaps k (shapeUnits o.shape) u (shapeUnits g.shape) <;> simp [Option.filter, meet]

/-! ### The instruction (R179) -/

theorem broken_eq_nil {cs : List (Bool × Nat)} (h : broken cs = []) : ∀ x ∈ cs, x.1 = false := by
  intro x hx
  rw [broken, List.map_eq_nil_iff, List.filter_eq_nil_iff] at h
  simpa using h x hx

/-- R155: a tile that is accumulated into has the shape, the rows and the columns of the product. -/
theorem mmCodes_tile {s : State} {lr : Nat} {x : MmF} {b : Block} (sound : broken (s.mmCodes lr x (some b)) = []) (acc : x.acc = true) :
    ∃ g : SlotState, s.tile lr x.slot = some g ∧ g.mrows = x.m ∧ g.ncols = b.ncols := by
  have checks : ∀ y ∈ mmCheck (s.tile lr x.slot) x.acc x.shape x.m (some b.ncols) x.kblk, y.1 = false := fun y hy =>
    broken_eq_nil sound y (by simp [State.mmCodes, hy])
  cases tile : s.tile lr x.slot with
  | none => simp [mmCheck, tile, acc] at checks
  | some g =>
    simp only [mmCheck, tile, acc, List.mem_cons, List.not_mem_nil, or_false, forall_eq_or_imp, forall_eq, Bool.not_true, Bool.false_eq_true,
      if_false, Option.getD_some, decide_eq_false_iff_not, not_or, not_not] at checks
    obtain ⟨-, ⟨-, rows, cols⟩, -⟩ := checks
    exact ⟨g, rfl, rows, cols.symm⟩

/-- R143: what the product is added to. -/
def State.mmOld (s : State) (lr : Nat) (x : MmF) : Option (List (List W32)) :=
  if x.acc then (s.tile lr x.slot).map (s.tileRows lr x.slot) else none

/-- R155: the tile as an MX.MM leaves it. -/
def MmF.tile (x : MmF) (b : Block) : SlotState := ⟨x.shape, x.m, b.ncols, if x.acc then x.kblk + 1 else 1, x.last⟩

/-- R144, R155: the rafter as an MX.MM without statistics leaves it, before the sequencer moves on. -/
def Raft.multiplied (y : Raft) (x : MmF) (b : Block) : Raft :=
  { y with active := some b, standby := none, slots := tilesWith x.slot (x.tile b) y.slots }

/-- R144, R154, R155: an MX.MM without statistics writes its rafter and the words of its tile. -/
theorem State.mmWrite_plain {s : State} (quiet : s.inj = none) (lr : Nat) {x : MmF} (plain : x.stat = 0) (b : Block)
    (arows ascales : List (List Nat)) : ∃ (rafts : SMap Raft) (bad : List (Nat × Bool)),
      SMap.look Raft.fresh lr rafts = (s.raft lr).multiplied x b ∧
        s.mmWrite lr x b arows ascales = { s with
          rafts := rafts, badAcc := bad
          acc := accPut s.acc (accKey lr x.slot b.ncols 0 0) ((mmRows b x.fa arows ascales (s.mmOld lr x)).flatMap fun r => r) } := by
  have taken := State.raft_setRaft_live (Raft.active_live (x := { s.raft lr with active := some b, standby := none }) rfl) s lr
  have tiled : (if x.acc then (s.setRaft lr { s.raft lr with active := some b, standby := none }).setTile lr x.slot
        ⟨x.shape, x.m, b.ncols, x.kblk + 1, x.last⟩
      else (s.setRaft lr { s.raft lr with active := some b, standby := none }).setTile lr x.slot ⟨x.shape, x.m, b.ncols, 1, x.last⟩) =
      (s.setRaft lr { s.raft lr with active := some b, standby := none }).setRaft lr ((s.raft lr).multiplied x b) := by
    have both (n : Nat) := (s.setRaft lr { s.raft lr with active := some b, standby := none }).setTile_eq lr x.slot
      ⟨x.shape, x.m, b.ncols, n, x.last⟩
    rw [both, both, taken, Raft.multiplied, MmF.tile]
    split <;> rfl
  have silent (t : State) (rows : List (List W32)) (n : Nat) : t.mmStats lr x rows n = t := by simp [State.mmStats, plain]
  have kept (t : State) (calm : t.inj = none) (u word : Nat) : t.injectAcc u word = t := by rw [State.injectAcc, State.armed_none calm]
  have live : (s.raft lr).multiplied x b ≠ Raft.fresh := Raft.active_live (b := b) rfl
  let key := accKey lr x.slot b.ncols 0 0
  refine ⟨_, renewWords key (key + ((mmRows b x.fa arows ascales (s.mmOld lr x)).flatMap fun r => r).length) s.badAcc,
    State.raft_setRaft_live live (s.setRaft lr { s.raft lr with active := some b, standby := none }) lr, ?_⟩
  unfold State.mmWrite
  dsimp only
  rw [tiled, silent, State.accWrite]
  exact kept _ (by exact quiet) _ _

/-- R152: the rows of A, `k` elements each, read from plain stored rows. -/
def State.mmARows (s : State) (lr : Nat) (x : MmF) (k : Nat) : List (List Nat) :=
  if x.trans = 1 then transpose x.m ((List.range k).map fun j => rowElems x.fa x.m (s.rsRead lr (x.a + j * x.pitch) (rowBytes x.fa x.m)))
  else (List.range x.m).map fun j => rowElems x.fa k (s.rsRead lr (x.a + j * x.pitch) (rowBytes x.fa k))

theorem State.mmARows_length (s : State) (lr : Nat) (x : MmF) (k : Nat) : (s.mmARows lr x k).length = x.m := by
  rw [State.mmARows]
  split <;> simp [transpose]

theorem State.mmARows_getD (s : State) (lr : Nat) {x : MmF} (k : Nat) {r : Nat} (hr : r < x.m) : (s.mmARows lr x k).getD r [] =
    if x.trans = 1 then (List.range k).map fun i => (rowElems x.fa x.m (s.rsRead lr (x.a + i * x.pitch) (rowBytes x.fa x.m))).getD r 0
    else rowElems x.fa k (s.rsRead lr (x.a + r * x.pitch) (rowBytes x.fa k)) := by
  rw [State.mmARows]
  split
  · rw [transpose_getD _ hr, List.map_map]
    rfl
  · exact getD_map_range _ _ hr

theorem State.aRows_plain {s : State} {lr k : Nat} {x : MmF} (other : x.fa ≠ 2) (plain : x.pitch ≠ 0)
    (sound : broken (s.rangeCodes lr ((List.range (if x.trans = 1 then k else x.m)).map
      fun j => (x.a + j * x.pitch, rowBytes x.fa (if x.trans = 1 then x.m else k)))) = []) (kont : List (List Nat) → List (List Nat) → Eff) :
    s.aRows lr x.a x.pitch x.fa x.trans x.m k kont = kont (s.mmARows lr x k) [] := by
  rw [State.aRows, if_neg fun both => other both.1, State.operandRows_plain plain sound, Delivered.use,
    State.mmARows]
  by_cases turned : x.trans = 1
  · simp only [if_pos turned]
  · simp only [if_neg turned]

theorem State.advance_plain {s : State} {lr : Nat} (main : (s.raft lr).seg = none) :
    s.advance lr = s.setRaft lr { s.raft lr with pc := (s.raft lr).pc + 1, spliced := [] } := by
  dsimp only [State.advance]
  split
  · rfl
  · next g seg => cases main.symm.trans seg

/-- What an MX.MM of `x` with block `b` does. -/
def State.mmBody (s : State) (lr : Nat) (x : MmF) (b : Block) : Eff :=
  checked (s.mmCodes lr x (some b)) <|
    s.aRows lr x.a x.pitch x.fa x.trans x.m b.krows fun rows scales =>
      let t := match (if x.acc then s.tile lr x.slot else none) with | some t => s.tileCheck lr x.slot t | none => s
      .done (if t.working.isNone then t else (t.mmWrite lr x b rows scales).injectArray (s.unitOf lr))

theorem execMxMm_runs {s : State} {lr : Nat} {w0 w1 : W64} {c : Course} {b : Block} (up : s.coreUp) (may : s.mayIssue lr w0 w1 = some c)
    (sound : s.badStore = []) (opcode : opcodeOf w0 = 0x11) (formed : wellFormedWords 0x11 w0 w1 = true) (ahead : (s.raft lr).ahead = [])
    (block : (s.raft lr).block = some b) :
    exec (.mxMm lr w0 w1) s = .next ((s.mmBody lr (mmFields w0 w1) b).leaves s s lr w0) := by
  rw [show exec (.mxMm lr w0 w1) s = .next (mxMm lr w0 w1 s) from onCore_up _ s up, mxMm,
    State.leggettTie_working (State.mayIssue_some may), State.issue_reads may opcode formed ahead sound, block]
  rfl

/-- R152, R179: an MX.MM that passes its checks multiplies the rows of A as they are read. -/
theorem State.mmBody_sound {s : State} {lr : Nat} {x : MmF} {b : Block} {c : Course} (working : s.working = some c) (quiet : s.inj = none)
    (whole : s.badAcc = []) (other : x.fa ≠ 2) (pitch : x.pitch ≠ 0) (plain : x.stat = 0) (codes : broken (s.mmCodes lr x (some b)) = [])
    (ranges : broken (s.rangeCodes lr ((List.range (if x.trans = 1 then b.krows else x.m)).map
      fun j => (x.a + j * x.pitch, rowBytes x.fa (if x.trans = 1 then x.m else b.krows)))) = []) :
    s.mmBody lr x b = .done (s.mmWrite lr x b (s.mmARows lr x b.krows) []) := by
  have read : (match (if x.acc then s.tile lr x.slot else none) with | some t => s.tileCheck lr x.slot t | none => s) = s := by
    split
    · exact State.accCheck_sound whole _ _ _
    · rfl
  rw [State.mmBody, checked_sound codes, State.aRows_plain other pitch ranges]
  dsimp only
  rw [read, State.working_isNone working]
  obtain ⟨rafts, bad, -, written⟩ := State.mmWrite_plain quiet lr plain b (s.mmARows lr x b.krows) []
  have calm : (s.mmWrite lr x b (s.mmARows lr x b.krows) []).inj = none := by rw [written]; exact quiet
  rw [if_neg Bool.false_ne_true, State.injectArray_none calm]

/-- R144, R154, R155, R170: the rafter and accumulator memory once the sequencer has moved past an MX.MM without statistics. -/
theorem State.mmWrite_leaves {s : State} {c : Course} {w0 : W64} (working : s.working = some c) (quiet : s.inj = none)
    (silent : sigEn w0 = false) {lr : Nat} (main : (s.raft lr).seg = none) {x : MmF} (plain : x.stat = 0) (b : Block)
    (arows ascales : List (List Nat)) : ∃ (rafts : SMap Raft) (bad : List (Nat × Bool)),
      SMap.look Raft.fresh lr rafts = { (s.raft lr).multiplied x b with pc := (s.raft lr).pc + 1, spliced := [] } ∧
        (Eff.done (s.mmWrite lr x b arows ascales)).leaves s s lr w0 = { s with
          rafts := rafts, badAcc := bad
          acc := accPut s.acc (accKey lr x.slot b.ncols 0 0) ((mmRows b x.fa arows ascales (s.mmOld lr x)).flatMap fun r => r) } := by
  obtain ⟨rafts, bad, look, written⟩ := State.mmWrite_plain quiet lr plain b arows ascales
  have raft : (s.mmWrite lr x b arows ascales).raft lr = (s.raft lr).multiplied x b := by rw [written]; exact look
  have still : (s.mmWrite lr x b arows ascales).working = some c := (State.working_congr (by rw [written])).trans working
  have live : { (s.raft lr).multiplied x b with pc := (s.raft lr).pc + 1, spliced := [] } ≠ Raft.fresh := Raft.active_live (b := b) rfl
  refine ⟨_, bad, SMap.look_put_live live lr rafts, ?_⟩
  rw [Eff.leaves, sigOf_none silent, State.settle_silent still, State.advance_plain (by rw [raft]; exact main), raft, written]
  rfl

/-- R143: the element that a product is added to. -/
theorem State.mmOld_elem {s : State} {lr : Nat} {x : MmF} {b : Block} (codes : broken (s.mmCodes lr x (some b)) = []) {r k : Nat}
    (hr : r < x.m) (hk : k < b.ncols) : ((s.mmOld lr x).map fun o => (o.getD r []).getD k 0) =
      if x.acc then some (SMap.look 0 (accKey lr x.slot b.ncols r k) s.acc) else none := by
  rw [State.mmOld]
  split
  · next acc =>
    obtain ⟨g, tile, rows, cols⟩ := mmCodes_tile codes acc
    rw [tile, Option.map_some, Option.map_some, State.tileRows, rows, cols, getD_map_range _ _ hr, getD_map_range _ _ hk]
  · rfl

/-- Settles O34: the rafter and accumulator memory as the product leaves them, read element by element and tile by tile. -/
theorem tileProduct : Obligations.TileProduct := by
  intro s lr w0 w1 c x b up canon may opcode formed ahead hx block _ other plain pitch silent quiet codes main sound whole ranges
  have working := State.mayIssue_some may
  have run := execMxMm_runs up may sound opcode formed ahead block
  obtain ⟨rafts, bad, raft, leaves⟩ := State.mmWrite_leaves working quiet silent main plain b (s.mmARows lr x b.krows) []
  rw [← hx, State.mmBody_sound working quiet whole other pitch plain codes ranges, leaves] at run
  have even := mmRows_even b x.fa (s.mmARows lr x b.krows) [] (s.mmOld lr x)
  have len := length_flatRows _ even
  rw [mmRows_length, State.mmARows_length] at len
  have words := look_accPut s.acc (accKey lr x.slot b.ncols 0 0)
    ((mmRows b x.fa (s.mmARows lr x b.krows) [] (s.mmOld lr x)).flatMap fun r => r) (SMap.rising_of_wf canon.acc)
  rw [len] at words
  have tiles := congrArg (fun y : Raft => y.slots) raft
  refine ⟨_, run, rfl, rfl, rfl, rfl, ?_, congrArg (fun y : Raft => y.active) raft, congrArg (fun y : Raft => y.standby) raft,
    congrArg (fun y : Raft => y.pc) raft, fun order k unit apart => ?_, fun r hr k hk => ?_, fun i out => ?_⟩
  · exact (congrArg (SMap.look none x.slot) tiles).trans (look_tilesWith_same _ _ _)
  · exact (congrArg (SMap.look none k) tiles).trans (look_tilesWith_other _ order unit apart)
  · have place : accKey lr x.slot b.ncols r k = accKey lr x.slot b.ncols 0 0 + (r * b.ncols + k) := by simp only [accKey]; omega
    have within : r * b.ncols + k < x.m * b.ncols :=
      calc r * b.ncols + k < (r + 1) * b.ncols := by rw [Nat.succ_mul]; omega
        _ ≤ x.m * b.ncols := Nat.mul_le_mul_right _ hr
    have element := mmRows_getD b x.fa (s.mmARows lr x b.krows) [] (s.mmOld lr x) (by rw [State.mmARows_length]; exact hr) hk
    rw [State.mmOld_elem codes hr hk, State.mmARows_getD s lr b.krows hr] at element
    refine (words _).trans ?_
    rw [place, if_pos (by omega), Nat.add_sub_cancel_left, getD_flatRows 0 _ even r hk, element, place]
    rfl
  · refine (words i).trans (if_neg ?_)
    simp only [accKey] at out ⊢
    omega

end Sys2Proof.Machine
end

section
/-! SUPPORT. What the sequencer of a rafter goes by, and how it moves past an instruction of the streamer (R170, R171, R364). -/

namespace Sys2Proof.Machine

/-! ### The view -/

/-- What the sequencer of rafter `lr` goes by outside splice segments: its place, counters, and accesses in flight, and the course. -/
def State.seqView (s : State) (lr : Nat) :
    Nat × Option Segment × List Nat × List Downpipe × List RunAhead × SMap Nat × SMap Nat × Bool × Option Course :=
  ((s.raft lr).pc, (s.raft lr).seg, (s.raft lr).events, (s.raft lr).down, (s.raft lr).ahead, s.dieEvents, s.modEvents, SMap.rising s.rafts,
    s.course)

theorem State.seqView_of_inner {s t : State} (h : t.inner = s.inner) (lr : Nat) : t.seqView lr = s.seqView lr :=
  (congrArg (fun u => u.seqView lr) h :)

/-- Rafter `lr` may signal `sig` and move on in the program of a course that is worked on, with nothing of its own in flight and no
injection armed. -/
structure State.Streams (s : State) (lr : Nat) (sig : Option Nat) : Prop where
  canon : s.Canon
  quiet : s.inj = none
  working : s.working.isNone = false
  main : (s.raft lr).seg = none
  down : (s.raft lr).down = []
  ahead : (s.raft lr).ahead = []
  rising : SMap.rising s.rafts = true
  room : ∀ ev, sig = some ev → s.event lr ev < 0xFFFF ∧ (12 ≤ ev ∨ ev < (s.raft lr).events.length)

theorem State.seqView_fields {s t : State} {lr : Nat} (h : t.seqView lr = s.seqView lr) : (t.raft lr).pc = (s.raft lr).pc ∧
    (∀ ev, t.event lr ev = s.event lr ev) := by
  simp only [State.seqView, Prod.mk.injEq] at h
  obtain ⟨pc, -, events, -, -, die, mod, -, -⟩ := h
  exact ⟨pc, fun ev => by rw [State.event, State.event, events, die, mod]⟩

theorem State.Streams.move {s t : State} {lr : Nat} {sig : Option Nat} (st : s.Streams lr sig) (canon : t.Canon) (quiet : t.inj = none)
    (h : t.seqView lr = s.seqView lr) : t.Streams lr sig := by
  obtain ⟨-, event⟩ := State.seqView_fields h
  simp only [State.seqView, Prod.mk.injEq] at h
  obtain ⟨-, seg, events, down, ahead, -, -, rising, course⟩ := h
  exact ⟨canon, quiet, by rw [State.working_congr course, st.working], seg.trans st.main, down.trans st.down, ahead.trans st.ahead,
    rising.trans st.rising, fun ev hev => by rw [event, events]; exact st.room ev hev⟩

/-! ### Moving on (R170, R171) -/

/-- `t` is `s` with rafter `lr` past an instruction that signalled `sig`: only rafters, counters and what the course keeps of rates differ. -/
structure State.Past (s t : State) (lr : Nat) (sig : Option Nat) : Prop where
  rest : ∃ rafts die mod course, t = { s with rafts := rafts, dieEvents := die, modEvents := mod, course := course }
  pc : (t.raft lr).pc = (s.raft lr).pc + 1
  signal : ∀ ev, sig = some ev → t.event lr ev = s.event lr ev + 1

theorem State.raft_setRaft {s : State} (lr : Nat) (x : Raft) (w : SMap.rising s.rafts = true) : (s.setRaft lr x).raft lr = x :=
  SMap.look_put_same _ _ _ _ w

theorem State.setRaft_rising {s : State} (lr : Nat) (x : Raft) (w : SMap.rising s.rafts = true) : SMap.rising (s.setRaft lr x).rafts = true :=
  SMap.put_rising _ _ _ _ w

/-- R171: a counter set, and the rafter beside it. -/
theorem State.setEvent_next {s : State} {lr ev v : Nat} (w : SMap.rising s.rafts = true) (live : v ≠ 0)
    (there : 12 ≤ ev ∨ ev < (s.raft lr).events.length) : ∃ rafts die mod evs,
      s.setEvent lr ev v = { s with rafts := rafts, dieEvents := die, modEvents := mod } ∧ SMap.rising rafts = true ∧
        SMap.look Raft.fresh lr rafts = { s.raft lr with events := evs } ∧ (s.setEvent lr ev v).event lr ev = v := by
  dsimp only [State.setEvent]
  split_ifs with own die
  · have raft := State.raft_setRaft lr { s.raft lr with events := (s.raft lr).events.set ev v } w
    refine ⟨_, _, _, (s.raft lr).events.set ev v, rfl, State.setRaft_rising lr _ w, raft, ?_⟩
    rw [State.event, if_pos own, raft, List.getD_eq_getElem?_getD, List.getElem?_set_self (by omega)]
    rfl
  · refine ⟨_, _, _, (s.raft lr).events, rfl, w, rfl, ?_⟩
    rw [State.event, if_neg own, if_pos die]
    exact SMap.look_put_live live _ _
  · refine ⟨_, _, _, (s.raft lr).events, rfl, w, rfl, ?_⟩
    rw [State.event, if_neg own, if_neg die]
    exact SMap.look_put_live live _ _

/-- R171: an instruction's signal. -/
theorem State.signalOpt_next {s : State} {lr : Nat} {sig : Option Nat} (st : s.Streams lr sig) : ∃ rafts die mod evs,
    s.signalOpt lr sig = { s with rafts := rafts, dieEvents := die, modEvents := mod } ∧ SMap.rising rafts = true ∧
      SMap.look Raft.fresh lr rafts = { s.raft lr with events := evs } ∧
      ∀ ev, sig = some ev → (s.signalOpt lr sig).event lr ev = s.event lr ev + 1 := by
  cases sig with
  | none => exact ⟨_, _, _, (s.raft lr).events, rfl, st.rising, rfl, fun ev no => nomatch no⟩
  | some ev =>
    obtain ⟨low, there⟩ := st.room ev rfl
    obtain ⟨rafts, die, mod, evs, set, rising, look, read⟩ := State.setEvent_next (v := s.event lr ev + 1) st.rising (Nat.succ_ne_zero _) there
    rw [State.signalOpt, State.signal_due low]
    refine ⟨rafts, die, mod, evs, set, rising, look, fun e same => ?_⟩
    cases same
    exact read

/-- R170: the next instruction of a program is up, and no counter has changed. -/
theorem State.advance_next {s : State} {lr : Nat} (w : SMap.rising s.rafts = true) (main : (s.raft lr).seg = none) :
    ∃ rafts, s.advance lr = { s with rafts := rafts } ∧ ((s.advance lr).raft lr).pc = (s.raft lr).pc + 1 ∧
      ∀ ev, (s.advance lr).event lr ev = s.event lr ev := by
  rw [State.advance_plain main]
  have raft := State.raft_setRaft lr { s.raft lr with pc := (s.raft lr).pc + 1, spliced := [] } w
  refine ⟨_, rfl, by rw [raft], fun ev => ?_⟩
  rw [State.event, State.event, raft]
  rfl

theorem State.working_isNone_some {s : State} (h : s.working.isNone = false) : ∃ c, s.working = some c := by
  cases working : s.working with
  | none => rw [working] at h; cases h
  | some c => exact ⟨c, rfl⟩

theorem State.working_alike {s t : State} {c c' : Course} (running : s.course = some c) (course : t.course = some c')
    (w : c'.working = c.working) (f : c'.failed = c.failed) : t.working.isNone = s.working.isNone := by
  rw [State.working, State.working, running, course]
  dsimp only
  rw [w, f]
  split <;> rfl

/-- R364: what is kept of rates is the course's alone, and tells nothing of whether it is worked on. -/
theorem State.markBusy_next (s : State) : ∃ course, s.markBusy = { s with course := course } ∧ s.markBusy.working.isNone = s.working.isNone := by
  unfold State.markBusy
  split
  · exact ⟨s.course, rfl, rfl⟩
  · next c running => exact ⟨_, rfl, State.working_alike running rfl rfl rfl⟩

theorem State.moved_next (s : State) (ps : List Piece) :
    ∃ course, s.moved ps = { s with course := course } ∧ (s.moved ps).working.isNone = s.working.isNone := by
  unfold State.moved
  split
  · exact ⟨s.course, rfl, rfl⟩
  · next c running => exact ⟨_, rfl, State.working_alike running rfl rfl rfl⟩

/-- R170, R171: an instruction has taken effect. -/
theorem State.settle_past {s : State} {lr : Nat} {sig : Option Nat} (st : s.Streams lr sig) : s.Past (s.settle lr sig) lr sig := by
  obtain ⟨rafts, die, mod, evs, signalled, rising, look, event⟩ := State.signalOpt_next st
  have course : (s.signalOpt lr sig).course = s.course := by rw [signalled]
  have working : (s.signalOpt lr sig).working.isNone = false := by rw [State.working_congr course, st.working]
  have goes : s.settle lr sig = (s.signalOpt lr sig).advance lr := by
    rw [State.settle, st.working]
    dsimp only
    rw [working]
    rfl
  have raft : (s.signalOpt lr sig).raft lr = { s.raft lr with events := evs } := by rw [signalled]; exact look
  obtain ⟨rafts', advanced, pc, kept⟩ := State.advance_next (s := s.signalOpt lr sig) (lr := lr) (by rw [signalled]; exact rising)
    (by rw [raft]; exact st.main)
  rw [goes]
  refine ⟨⟨rafts', die, mod, s.course, by rw [advanced, signalled]⟩, by rw [pc, raft], fun ev hev => by rw [kept, event ev hev]⟩

/-- R171, R364, R376: a load without anything left in flight signals, is taken out of the rates, and the sequencer moves on. -/
theorem State.signalBusy_past {s : State} {lr : Nat} {sig : Option Nat} (st : s.Streams lr sig) :
    s.Past ((s.signalOpt lr sig).markBusy.settle lr none) lr sig := by
  obtain ⟨rafts, die, mod, evs, signalled, rising, look, event⟩ := State.signalOpt_next st
  obtain ⟨course, busy, working⟩ := (s.signalOpt lr sig).markBusy_next
  have same : (s.signalOpt lr sig).course = s.course := by rw [signalled]
  have alive : (s.signalOpt lr sig).markBusy.working.isNone = false := by rw [working, State.working_congr same, st.working]
  obtain ⟨c, alive⟩ := State.working_isNone_some alive
  have raft : (s.signalOpt lr sig).markBusy.raft lr = { s.raft lr with events := evs } := by rw [busy, signalled]; exact look
  obtain ⟨rafts', advanced, pc, kept⟩ := State.advance_next (s := (s.signalOpt lr sig).markBusy) (lr := lr)
    (by rw [busy, signalled]; exact rising) (by rw [raft]; exact st.main)
  rw [State.settle_silent alive]
  refine ⟨⟨rafts', die, mod, course, by rw [advanced, busy, signalled]⟩, by rw [pc, raft], fun ev hev => ?_⟩
  rw [kept, ← event ev hev, busy]
  rfl

/-! ### What a rafter that moves on leaves alone -/

section
variable {s t : State} {lr : Nat} {sig : Option Nat} (h : s.Past t lr sig)
include h

theorem State.Past.regs : t.regs = s.regs := by obtain ⟨_, _, _, _, rest⟩ := h.rest; rw [rest]
theorem State.Past.hbm : t.hbm = s.hbm := by obtain ⟨_, _, _, _, rest⟩ := h.rest; rw [rest]
theorem State.Past.loft : t.loft = s.loft := by obtain ⟨_, _, _, _, rest⟩ := h.rest; rw [rest]
theorem State.Past.rstore : t.rstore = s.rstore := by obtain ⟨_, _, _, _, rest⟩ := h.rest; rw [rest]
theorem State.Past.rsWritten : t.rsWritten = s.rsWritten := by obtain ⟨_, _, _, _, rest⟩ := h.rest; rw [rest]
theorem State.Past.acc : t.acc = s.acc := by obtain ⟨_, _, _, _, rest⟩ := h.rest; rw [rest]

end

end Sys2Proof.Machine
end

section
/-! SUPPORT. Stores to the module (R93, R159, R164, R165, R220): what a store of one piece leaves, and the counters of thatch beside it (R330). -/

namespace Sys2Proof.Machine

/-! ### HBM written (R93, R341) -/

/-- R93, R341: what a write of HBM may change. -/
theorem State.writeHbm_form (s : State) (a : Nat) (all : List Byte) : ∃ regs poison symErr winLines cxlOut,
    s.writeHbm a all = { s with
      hbm := s.hbm.write a (all.take (s.hbmCap - a)), regs := regs, poison := poison, symErr := symErr, winLines := winLines, cxlOut := cxlOut } := by
  have shared (t : State) (n : Nat) : ∃ winLines cxlOut, t.viaHost a n true = { t with winLines := winLines, cxlOut := cxlOut } := by
    unfold State.viaHost
    split_ifs <;> exact ⟨_, _, rfl⟩
  have stored (t : State) (sec : Nat) : ∃ regs poison symErr, t.storeSector sec = { t with regs := regs, poison := poison, symErr := symErr } := by
    dsimp only [State.storeSector]
    split <;> exact ⟨_, _, _, rfl⟩
  have all_stored (qs : List Nat) (t : State) :
      ∃ regs poison symErr, t.each qs State.storeSector = { t with regs := regs, poison := poison, symErr := symErr } := by
    induction qs generalizing t with
    | nil => exact ⟨_, _, _, rfl⟩
    | cons q qs ih =>
      obtain ⟨regs, poison, symErr, one⟩ := stored t q
      obtain ⟨regs', poison', symErr', rest⟩ := ih (t.storeSector q)
      exact ⟨regs', poison', symErr', rest.trans (by rw [one])⟩
  obtain ⟨winLines, cxlOut, via⟩ := shared s (all.take (s.hbmCap - a)).length
  obtain ⟨regs, poison, symErr, written⟩ := all_stored (sectorsOf a (all.take (s.hbmCap - a)).length)
    (s.viaHost a (all.take (s.hbmCap - a)).length true)
  refine ⟨regs, poison, symErr, winLines, cxlOut, ?_⟩
  dsimp only [State.writeHbm]
  rw [written, via]

theorem State.writeHbm_hbm {s : State} {a : Nat} {bs : List Byte} (below : a + bs.length ≤ s.hbmCap) :
    (s.writeHbm a bs).hbm = s.hbm.write a bs := by
  obtain ⟨regs, poison, symErr, winLines, cxlOut, form⟩ := s.writeHbm_form a bs
  rw [form, List.take_of_length_le (by omega)]

theorem State.writeHbm_inj (s : State) (a : Nat) (bs : List Byte) : (s.writeHbm a bs).inj = s.inj := by
  obtain ⟨regs, poison, symErr, winLines, cxlOut, form⟩ := s.writeHbm_form a bs
  rw [form]

theorem State.rstore_of_inner {s t : State} (h : t.inner = s.inner) : t.rstore = s.rstore := (congrArg State.rstore h :)
theorem State.acc_of_inner {s t : State} (h : t.inner = s.inner) : t.acc = s.acc := (congrArg State.acc h :)

/-! ### The counters of thatch -/

/-- R330, R331: the counters of thatch that a compressing store moves, and its injection. -/
def thcFields : List Fld := [Reg.THC_RAW.BYTES, Reg.THC_STORED.BYTES, Reg.THC_TPASS.PASSES, Reg.THC_INJECT.ARM]

def thcKey (k : Nat) : Bool := (thcFields.map Fld.key).contains k

/-- R330: nothing that data moved or a course that fails writes is a counter of thatch. -/
theorem thcKey_aside (k : Nat) (h : failKey k = true) : thcKey k = false := by
  rw [Bool.eq_false_iff]
  intro thc
  have cases : k = 50333184 ∨ k = Reg.THC_STORED.BYTES.key ∨ k = Reg.THC_TPASS.PASSES.key ∨ k = Reg.THC_INJECT.ARM.key := by
    simpa [thcKey, thcFields] using thc
  rcases cases with rfl | rfl | rfl | rfl <;> exact absurd h (by decide)

theorem thcKey_field {f : Fld} (hf : f ∈ thcFields) : thcKey f.key = true := by
  rw [thcKey, List.contains_iff_mem]
  exact List.mem_map_of_mem hf

/-! ### A store that the module takes -/

theorem State.crossBridges_none {s : State} (quiet : s.inj = none) (n : Nat) (p : Piece) : s.crossBridges n p = s := by
  rw [State.crossBridges, quiet]

theorem Raft.farBusy_idle {y : Raft} (down : y.down = []) (ahead : y.ahead = []) (ps : List Piece) (write : Bool) : y.farBusy ps write = false := by
  rw [Raft.farBusy, down, ahead]
  simp

/-- R165, R366: a store of the normal class whose one piece lies on the module is written as it issues. -/
theorem State.storeOut_module {s : State} {lr : Nat} {sig : Option Nat} (st : s.Streams lr sig) {x : StF} (normal : x.cls = 0)
    (outside : s.inSave x.tier x.far = false) {c : Course} {bs : List Byte} {p : Piece} (one : s.pieces c x.tier x.far bs.length true = [p])
    (onModule : p.tier < 3) (whole : p.len = bs.length) (w0 : W64) (far : FarAns) :
    s.storeOut c lr x w0 bs far = .done ((s.bump Reg.CRS_PLC_SPILL.BYTES 0).writePiece lr p bs) := by
  have save : s.saveIdx x.tier x.far = none := by rw [State.saveIdx, outside]; rfl
  have idle := Raft.farBusy_idle st.down st.ahead [p] true
  have low : [p].filter (fun p => decide (3 ≤ p.tier)) = [] := by simp [Nat.not_le.2 onModule]
  have all : bs.take p.len = bs := by rw [whole, List.take_length]
  dsimp only [State.storeOut]
  rw [one, save, idle, low]
  simp only [State.saveInFlight, Option.isSome_none, Bool.false_and, normal, ne_eq, not_true_eq_false, false_and, and_false, decide_false,
    Bool.or_false, Bool.false_eq_true, if_false, List.isEmpty_nil, Bool.true_or, if_true, Option.bind_none, spillBytes, State.mapSave,
    State.writePieces, all]

/-- `t` is `s` with `bs` stored in HBM at `a` and rafter `lr` past the instruction, which signalled `sig`. -/
structure State.StoredHbm (s t : State) (lr a : Nat) (bs : List Byte) (sig : Option Nat) : Prop where
  bytes : t.hbm.bytes a bs.length = bs
  other : ∀ b, (b < a ∨ a + bs.length ≤ b) → t.hbm.byte b = s.hbm.byte b
  rstore : t.rstore = s.rstore
  acc : t.acc = s.acc
  pc : (t.raft lr).pc = (s.raft lr).pc + 1
  signal : ∀ ev, sig = some ev → t.event lr ev = s.event lr ev + 1

theorem Memory.bytes_write_whole (m : Memory) (a : Nat) (bs : List Byte) (w : SMap.rising m = true) : (m.write a bs).bytes a bs.length = bs := by
  simpa using Memory.bytes_write m a bs w 0 bs.length (by omega)

theorem Memory.byte_write_other (m : Memory) (a : Nat) (bs : List Byte) (w : SMap.rising m = true) {b : Nat} (h : b < a ∨ a + bs.length ≤ b) :
    (m.write a bs).byte b = m.byte b := by
  rw [Memory.byte_write m a bs w, if_neg (by omega)]

/-- R93, R165, R171: the bytes of a store in HBM, and the sequencer past it; the counters of thatch stand as they did. -/
theorem State.settle_stored {s : State} {lr : Nat} {sig : Option Nat} (st : s.Streams lr sig) {a : Nat} {bs : List Byte}
    (below : a + bs.length ≤ s.hbmCap) (n : Nat) :
    s.StoredHbm (((s.bump Reg.CRS_PLC_SPILL.BYTES 0).writePiece lr ⟨2, a, n⟩ bs).settle lr sig) lr a bs sig ∧
      ∀ f ∈ thcFields, (((s.bump Reg.CRS_PLC_SPILL.BYTES 0).writePiece lr ⟨2, a, n⟩ bs).settle lr sig).getF f = s.getF f := by
  let u := s.bump Reg.CRS_PLC_SPILL.BYTES 0
  have counted : u.Canon := State.setF_canon _ _ st.canon
  have canon : (u.writeHbm a bs).Canon := (State.writeHbm_kept _ _ _ ⟨counted, rfl, rfl⟩).canon
  have view : (u.writeHbm a bs).seqView lr = s.seqView lr := State.seqView_of_inner (State.inner_writeHbm u a bs) lr
  have cap : u.hbmCap = s.hbmCap := by
    rw [State.hbmCap, State.hbmCap, show u.getF Reg.GEN_SPARES.HBM_CAP = s.getF _ from State.getF_setF_other s _ _ _ st.canon.regs (by decide)]
  have hbm : (u.writeHbm a bs).hbm = s.hbm.write a bs := State.writeHbm_hbm (by rw [cap]; exact below)
  have thc : (u.writeHbm a bs).regsOn thcKey = s.regsOn thcKey :=
    (State.aside_writeHbm thcKey_aside u a bs).trans
      (State.aside_setF thcKey_aside (f := Reg.CRS_PLC_SPILL.BYTES) (failKey_of_course rfl) s _)
  have quiet : (u.writeHbm a bs).inj = none := (State.writeHbm_inj u a bs).trans st.quiet
  have past := State.settle_past (st.move canon quiet view)
  obtain ⟨pc, event⟩ := State.seqView_fields view
  have rising := SMap.rising_of_wf st.canon.hbm
  have piece : u.writePiece lr ⟨2, a, n⟩ bs = u.writeHbm a bs :=
    congrArg (fun v : State => v.writeHbm a bs) (State.crossBridges_none (s := u) st.quiet (lr / 8) ⟨2, a, n⟩)
  have inner := State.inner_writeHbm u a bs
  rw [piece]
  refine ⟨⟨?_, fun b hb => ?_, past.rstore.trans (State.rstore_of_inner (s := u) inner), past.acc.trans (State.acc_of_inner (s := u) inner),
    past.pc.trans (by rw [pc]), fun ev hev => ?_⟩, fun f hf => ?_⟩
  · rw [past.hbm, hbm]
    exact Memory.bytes_write_whole _ a bs rising
  · rw [past.hbm, hbm]
    exact Memory.byte_write_other _ a bs rising hb
  · rw [past.signal ev hev, event]
  · exact (congrArg (SMap.look f.reset f.key) past.regs).trans
      (State.getF_of_regsOn thc st.canon.regs canon.regs (thcKey_field hf))

end Sys2Proof.Machine
end

section
/-! SUPPORT. ST.STORE and ST.DRAIN of the normal class whose bytes stay on the module, plain and through thatch (R159, R165, R174, R180, R181,
R306, R318, R330, R331). -/

namespace Sys2Proof.Machine

/-! ### Checks that pass (R164, R165, R174) -/

theorem broken_append (xs ys : List (Bool × Nat)) : broken (xs ++ ys) = broken xs ++ broken ys := by
  rw [broken, List.filter_append, List.map_append]
  rfl

theorem State.rangeCodes_sound {s : State} {lr a n : Nat} (within : inStore (a, n) = true) (written : s.rsOk lr a n = true) :
    broken (s.rangeCodes lr [(a, n)]) = [] := by
  simp [broken, State.rangeCodes, within, written]

theorem State.farCodes_sound {s : State} {x : StF} {n : Nat} (normal : x.cls = 0) (outside : s.inSave x.tier x.far = false)
    (far : s.farBad x.tier x.far n = false) : broken (s.farCodes x n) = [] := by
  simp [broken, State.farCodes, State.saveBad, normal, outside, far]

/-! ### The streamer's instructions (R180, R181) -/

theorem stFields_n (w0 w1 : W64) : 0 < (stFields w0 w1).n := by
  rw [stFields]
  exact Nat.mul_pos (Nat.succ_pos _) (by decide)

theorem execStStore_runs {s : State} {lr : Nat} {w0 w1 : W64} {c : Course} (up : s.coreUp) (may : s.mayIssue lr w0 w1 = some c)
    (opcode : opcodeOf w0 = 0x21) (formed : wellFormedWords 0x21 w0 w1 = true) (ahead : (s.raft lr).ahead = []) (sound : s.badStore = [])
    (normal : (stFields w0 w1).cls = 0) (tier : (stFields w0 w1).tier ≠ 0) (far : FarAns) :
    exec (if (stFields w0 w1).comp then .stStoreComp lr w0 w1 far else .stStore lr w0 w1 far) s =
      .next ((s.storeInstr c lr (stFields w0 w1) w0 far).leaves s s lr w0) := by
  have runs (want : StF → Bool) (wanted : want (stFields w0 w1) = true) :
      stStore want lr w0 w1 far s = (s.storeInstr c lr (stFields w0 w1) w0 far).leaves s s lr w0 := by
    rw [stStore, wanted, if_neg tier, State.issue_reads may opcode formed ahead sound]
    rfl
  cases comp : (stFields w0 w1).comp with
  | true =>
    exact (onCore_up (stStore (fun x => x.comp && decide (x.cls ≠ 1)) lr w0 w1 far) s up).trans
      (by rw [runs _ (by simp [comp, normal])])
  | false =>
    exact (onCore_up (stStore (fun x => !x.comp && decide (x.cls ≠ 1)) lr w0 w1 far) s up).trans
      (by rw [runs _ (by simp [comp, normal])])

theorem execStDrain_runs {s : State} {lr : Nat} {w0 w1 : W64} {c : Course} (up : s.coreUp) (may : s.mayIssue lr w0 w1 = some c)
    (opcode : opcodeOf w0 = 0x22) (formed : wellFormedWords 0x22 w0 w1 = true) (tier : (stFields w0 w1).tier ≠ 0) (far : FarAns) :
    exec (if (stFields w0 w1).comp then .stDrainComp lr w0 w1 far else .stDrain lr w0 w1 far) s =
      .next ((s.drainInstr c lr (stFields w0 w1) w0 far).leaves s s lr w0) := by
  have runs : stDrain (stFields w0 w1).comp lr w0 w1 far s = (s.drainInstr c lr (stFields w0 w1) w0 far).leaves s s lr w0 := by
    rw [stDrain, if_neg (fun differ => differ rfl), if_neg tier, State.issue_storeless may opcode formed]
  rw [← runs]
  cases comp : (stFields w0 w1).comp with
  | true => exact onCore_up (stDrain true lr w0 w1 far) s up
  | false => exact onCore_up (stDrain false lr w0 w1 far) s up

/-! ### Through thatch (R311, R314, R330, R331) -/

/-- R330, R331: a section counted, and the injection into it spent. -/
def State.counted (s : State) (raw stored yelms raws misses : Nat) : State :=
  (((((s.bump Reg.THC_RAW.BYTES raw).bump Reg.THC_STORED.BYTES stored).bump Reg.THC_YCOMP.YELMS yelms).bump Reg.THC_YRAW.YELMS raws).bump
    Reg.THC_YMISS.YELMS misses).setF Reg.THC_INJECT.ARM 0

theorem State.getF_bump {s : State} (w : SMap.rising s.regs = true) (f : Fld) (n : Nat) : (s.bump f n).getF f = (s.getF f + n) % 2 ^ f.w :=
  s.getF_setF f _ w

theorem State.getF_bump_other {s : State} (w : SMap.rising s.regs = true) {f g : Fld} (h : f.key ≠ g.key) (n : Nat) :
    (s.bump g n).getF f = s.getF f := s.getF_setF_other f g _ w h

theorem State.bump_rising {s : State} (w : SMap.rising s.regs = true) (f : Fld) (n : Nat) : SMap.rising (s.bump f n).regs = true :=
  s.setF_rising f _ w

theorem State.counted_fields {s : State} (w : SMap.rising s.regs = true) (raw stored yelms raws misses : Nat) :
    (s.counted raw stored yelms raws misses).getF Reg.THC_RAW.BYTES = (s.getF Reg.THC_RAW.BYTES + raw) % 2 ^ 64 ∧
      (s.counted raw stored yelms raws misses).getF Reg.THC_STORED.BYTES = (s.getF Reg.THC_STORED.BYTES + stored) % 2 ^ 64 ∧
      (s.counted raw stored yelms raws misses).getF Reg.THC_TPASS.PASSES = s.getF Reg.THC_TPASS.PASSES ∧
      (s.counted raw stored yelms raws misses).getF Reg.THC_INJECT.ARM = 0 := by
  have w1 := State.bump_rising w Reg.THC_RAW.BYTES raw
  have w2 := State.bump_rising w1 Reg.THC_STORED.BYTES stored
  have w3 := State.bump_rising w2 Reg.THC_YCOMP.YELMS yelms
  have w4 := State.bump_rising w3 Reg.THC_YRAW.YELMS raws
  have w5 := State.bump_rising w4 Reg.THC_YMISS.YELMS misses
  refine ⟨?_, ?_, ?_, State.getF_setF _ _ 0 w5⟩
  · rw [State.counted, State.getF_setF_other _ _ _ _ w5 (by decide), State.getF_bump_other w4 (by decide), State.getF_bump_other w3 (by decide),
      State.getF_bump_other w2 (by decide), State.getF_bump_other w1 (by decide), State.getF_bump w]
  · rw [State.counted, State.getF_setF_other _ _ _ _ w5 (by decide), State.getF_bump_other w4 (by decide), State.getF_bump_other w3 (by decide),
      State.getF_bump_other w2 (by decide), State.getF_bump w1, State.getF_bump_other w (by decide)]
  · rw [State.counted, State.getF_setF_other _ _ _ _ w5 (by decide), State.getF_bump_other w4 (by decide), State.getF_bump_other w3 (by decide),
      State.getF_bump_other w2 (by decide), State.getF_bump_other w1 (by decide), State.getF_bump_other w (by decide)]

/-- `t` is `s` but for registers that no course goes by, and for what rafter `lr` keeps of tables. -/
structure State.Coded (s t : State) (lr : Nat) : Prop where
  form : ∃ rafts regs, t = { s with rafts := rafts, regs := regs }
  view : t.seqView lr = s.seqView lr
  regs : t.regsOn courseKey = s.regsOn courseKey
  canon : t.Canon

theorem State.Coded.trans {s t u : State} {lr : Nat} (h : s.Coded t lr) (k : t.Coded u lr) : s.Coded u lr := by
  obtain ⟨rafts, regs, rfl⟩ := h.form
  obtain ⟨rafts', regs', rfl⟩ := k.form
  exact ⟨⟨rafts', regs', rfl⟩, k.view.trans h.view, k.regs.trans h.regs, k.canon⟩

theorem State.Coded.refl {s : State} (canon : s.Canon) (lr : Nat) : s.Coded s lr := ⟨⟨s.rafts, s.regs, rfl⟩, rfl, rfl, canon⟩

theorem State.coded_setF {s : State} (canon : s.Canon) (lr : Nat) {f : Fld} (hf : courseKey f.key = false) (v : Nat) : s.Coded (s.setF f v) lr :=
  ⟨⟨s.rafts, _, rfl⟩, rfl, s.regsOn_setF courseKey f v hf, State.setF_canon f v canon⟩

theorem State.coded_bump {s : State} (canon : s.Canon) (lr : Nat) {f : Fld} (hf : courseKey f.key = false) (n : Nat) : s.Coded (s.bump f n) lr :=
  State.coded_setF canon lr hf _

theorem State.coded_counted {s : State} (canon : s.Canon) (lr raw stored yelms raws misses : Nat) :
    s.Coded (s.counted raw stored yelms raws misses) lr := by
  have a := State.coded_bump canon lr (f := Reg.THC_RAW.BYTES) rfl raw
  have b := State.coded_bump a.canon lr (f := Reg.THC_STORED.BYTES) rfl stored
  have c := State.coded_bump b.canon lr (f := Reg.THC_YCOMP.YELMS) rfl yelms
  have d := State.coded_bump c.canon lr (f := Reg.THC_YRAW.YELMS) rfl raws
  have e := State.coded_bump d.canon lr (f := Reg.THC_YMISS.YELMS) rfl misses
  exact a.trans (b.trans (c.trans (d.trans (e.trans (State.coded_setF e.canon lr (f := Reg.THC_INJECT.ARM) rfl 0)))))

/-- R311, R312: a rafter keeps a table beside what its sequencer goes by. -/
theorem State.coded_tabs {s : State} {lr : Nat} (canon : s.Canon) (w : SMap.rising s.rafts = true) (tabs : SMap (Option TabSlot))
    (epochs : SMap Nat) : s.Coded (s.setRaft lr { s.raft lr with tabs := tabs, tabEpochs := epochs }) lr := by
  have raft := State.raft_setRaft lr { s.raft lr with tabs := tabs, tabEpochs := epochs } w
  have rising := State.setRaft_rising lr { s.raft lr with tabs := tabs, tabEpochs := epochs } w
  refine ⟨⟨_, s.regs, rfl⟩, ?_, rfl, (State.setRaft_kept _ _ _ ⟨canon, rfl, rfl⟩).canon⟩
  rw [State.seqView, raft, rising, State.seqView, w]
  rfl

/-- R311, R312: a table pass is counted once; a reuse is not. -/
theorem State.tableFor_coded {s : State} {lr : Nat} (canon : s.Canon) (w : SMap.rising s.rafts = true) (d : ThD) (rows : List (List Nat)) :
    s.Coded (s.tableFor lr d rows).2.2 lr ∧
      ∀ f : Fld, (s.tableFor lr d rows).2.2.getF f = (if d.tmode = 2 then s else s.bump Reg.THC_TPASS.PASSES 1).getF f := by
  unfold State.tableFor
  by_cases reuse : d.tmode = 2
  · rw [if_pos reuse, if_pos reuse]
    exact ⟨.refl canon lr, fun _ => rfl⟩
  · have pass := State.coded_setF canon lr (f := Reg.THC_TPASS.PASSES) rfl (s.getF Reg.THC_TPASS.PASSES + 1)
    rw [if_neg reuse, if_neg reuse]
    dsimp only
    split
    · exact ⟨pass.trans (State.coded_tabs pass.canon w _ _), fun _ => rfl⟩
    · exact ⟨pass, fun _ => rfl⟩

/-- R330, R331: what the counters of thatch read once a section of rows `rows` and `stored` bytes is coded. -/
structure State.ThatchCounted (s t : State) (raw stored : Nat) (pass : Prop) [Decidable pass] : Prop where
  raw : t.getF Reg.THC_RAW.BYTES = (s.getF Reg.THC_RAW.BYTES + raw) % 2 ^ 64
  stored : t.getF Reg.THC_STORED.BYTES = (s.getF Reg.THC_STORED.BYTES + stored) % 2 ^ 64
  pass : t.getF Reg.THC_TPASS.PASSES = if pass then s.getF Reg.THC_TPASS.PASSES else (s.getF Reg.THC_TPASS.PASSES + 1) % 2 ^ 64
  arm : t.getF Reg.THC_INJECT.ARM = 0

theorem State.compress_coded {s : State} {lr : Nat} (canon : s.Canon) (w : SMap.rising s.rafts = true) (d : ThD) (rows : List (List Nat)) :
    s.Coded (s.compress lr d rows true).2 lr ∧ s.ThatchCounted (s.compress lr d rows true).2 (rows.length * d.elems * fmtBytes d.fmt)
      (s.compress lr d rows true).1.length (d.tmode = 2) := by
  obtain ⟨coded, fields⟩ := State.tableFor_coded canon w d rows
  let u := (s.tableFor lr d rows).2.2
  let o := encodeSection d.fmt rows (s.tableFor lr d rows).1 (s.tableFor lr d rows).2.1 u.thcInject
  have eq : s.compress lr d rows true =
      (o.bytes, u.counted (rows.length * d.elems * fmtBytes d.fmt) o.bytes.length (o.yelms - o.raws) o.raws o.misses) := rfl
  obtain ⟨raw, stored, pass, arm⟩ := State.counted_fields coded.canon.regs (rows.length * d.elems * fmtBytes d.fmt) o.bytes.length
    (o.yelms - o.raws) o.raws o.misses
  have same {f : Fld} (h : f.key ≠ Reg.THC_TPASS.PASSES.key) : u.getF f = s.getF f := by
    rw [fields f]
    split
    · rfl
    · exact State.getF_bump_other canon.regs h 1
  rw [eq]
  refine ⟨coded.trans (State.coded_counted coded.canon lr _ _ _ _ _), ?_, ?_, ?_, arm⟩
  · rw [raw, same (by decide)]
  · rw [stored, same (by decide)]
  · rw [pass, fields]
    split
    · rfl
    · exact State.getF_bump canon.regs _ 1

end Sys2Proof.Machine
end

section
/-! SUPPORT. The stores and drains of the streamer, as far as HBM and the lofts: the instructions that pass their checks (R159, R165, R174, R180,
R181, R306, R318), and those that do not (R155, R159). -/

namespace Sys2Proof.Machine

/-! ### After coding -/

section
variable {s t : State} {lr : Nat} (h : s.Coded t lr) (canon : s.Canon)
include h canon

theorem State.Coded.getF {f : Fld} (hf : courseKey f.key = true) : t.getF f = s.getF f :=
  State.getF_of_regsOn h.regs canon.regs h.canon.regs hf

theorem State.Coded.planW (i : Nat) : t.planW i = s.planW i := by
  have base : t.planBase = s.planBase := by rw [State.planBase, State.planBase, h.getF canon rfl]
  obtain ⟨_, _, form⟩ := h.form
  rw [State.planW, State.planW, base, State.peekW, State.peekW, form]

theorem State.Coded.inSave (tier far : Nat) : t.inSave tier far = s.inSave tier far := by
  rw [State.inSave, State.inSave, State.saveBase, State.saveBase, State.saveSpan, State.saveSpan, h.planW canon, h.planW canon]

/-- R220: an access outside the save window goes where it went. -/
theorem State.Coded.pieces {tier far : Nat} (outside : s.inSave tier far = false) (c : Course) (n : Nat) (write : Bool) :
    t.pieces c tier far n write = s.pieces c tier far n write := by
  have word (r i : Nat) : t.recipeW r i = s.recipeW r i := by
    obtain ⟨_, _, form⟩ := h.form
    rw [State.recipeW, State.recipeW, h.getF canon rfl, State.peekW, State.peekW, form]
  have par := h.getF canon (f := Reg.CRS_NUM_STATE.PAR) rfl
  have outside' := (h.inSave canon tier far).trans outside
  simp only [State.pieces, outside, outside', Bool.false_eq_true, if_false, par, State.hState, State.aState, word]

theorem State.Coded.hbmCap : t.hbmCap = s.hbmCap := by rw [State.hbmCap, State.hbmCap, h.getF canon rfl]

end

theorem State.Coded.streams {s t : State} {lr : Nat} {sig : Option Nat} (h : s.Coded t lr) (st : s.Streams lr sig) : t.Streams lr sig :=
  st.move h.canon (by obtain ⟨_, _, form⟩ := h.form; rw [form]; exact st.quiet) h.view

theorem State.StoredHbm.of_coded {s r t : State} {lr a : Nat} {bs : List Byte} {sig : Option Nat} (stored : r.StoredHbm t lr a bs sig)
    (h : s.Coded r lr) : s.StoredHbm t lr a bs sig := by
  obtain ⟨pc, event⟩ := State.seqView_fields h.view
  obtain ⟨_, _, form⟩ := h.form
  exact ⟨stored.bytes, fun b hb => (stored.other b hb).trans (by rw [form]), stored.rstore.trans (by rw [form]), stored.acc.trans (by rw [form]),
    stored.pc.trans (by rw [pc]), fun ev hev => (stored.signal ev hev).trans (by rw [event])⟩

/-! ### What goes to HBM -/

section
variable {s : State} {lr a : Nat} {w0 : W64} {c : Course} {x : StF} (st : s.Streams lr (sigOf w0)) (normal : x.cls = 0)
  (outside : s.inSave x.tier x.far = false) (tier : x.tier = 2)
include st normal outside tier

/-- R165, R180, R181: bytes stored in HBM as they are. -/
theorem State.storeOut_leaves {bs : List Byte} (one : s.pieces c 2 x.far bs.length true = [⟨2, a, bs.length⟩])
    (below : a + bs.length ≤ s.hbmCap) (far : FarAns) :
    ∃ t, (s.storeOut c lr x w0 bs far).leaves s s lr w0 = t ∧ s.StoredHbm t lr a bs (sigOf w0) ∧ ∀ f ∈ thcFields, t.getF f = s.getF f := by
  rw [State.storeOut_module st normal outside (by rw [tier]; exact one) (Nat.lt_succ_self 2) rfl, Eff.leaves]
  exact ⟨_, rfl, State.settle_stored st below _⟩

/-- R306, R318, R330: rows stored in HBM as a section. -/
theorem State.storeSection_leaves {d : ThD} {rows : List (List Nat)} {bs : List Byte} (coded : bs = (s.compress lr d rows true).1)
    (kept : s.pieces c 2 x.far 64 true ≠ []) (one : s.pieces c 2 x.far bs.length true = [⟨2, a, bs.length⟩])
    (below : a + bs.length ≤ s.hbmCap) (far : FarAns) :
    ∃ t, (s.storeSection c lr x w0 d rows far).leaves s s lr w0 = t ∧ s.StoredHbm t lr a bs (sigOf w0) ∧
      s.ThatchCounted t (rows.length * d.elems * fmtBytes d.fmt) bs.length (d.tmode = 2) := by
  obtain ⟨same, counted⟩ := State.compress_coded (lr := lr) st.canon st.rising d rows
  rw [← coded] at counted
  have keeps : (!(s.pieces c x.tier x.far 64 true).isEmpty) = true := by simpa [tier] using kept
  dsimp only [State.storeSection]
  rw [keeps, ← coded]
  generalize (s.compress lr d rows true).2 = r at same counted ⊢
  have outside' := (same.inSave st.canon x.tier x.far).trans outside
  have there : r.pieces c 2 x.far bs.length true = [⟨2, a, bs.length⟩] := (same.pieces st.canon (tier ▸ outside) c _ true).trans one
  rw [← same.hbmCap st.canon] at below
  obtain ⟨t, left, stored, thc⟩ := State.storeOut_leaves (c := c) (same.streams st) normal outside' tier there below far
  rw [State.storeOut_module (same.streams st) normal outside' (by rw [tier]; exact there) (Nat.lt_succ_self 2) rfl, Eff.leaves] at left ⊢
  refine ⟨t, left, stored.of_coded same, ?_, ?_, ?_, ?_⟩
  · rw [thc _ (by simp [thcFields]), counted.raw]
  · rw [thc _ (by simp [thcFields]), counted.stored]
  · rw [thc _ (by simp [thcFields]), counted.pass]
  · rw [thc _ (by simp [thcFields]), counted.arm]

end

/-! ### The instructions -/

theorem Memory.length_bytes (m : Memory) (a n : Nat) : (m.bytes a n).length = n := by simp [Memory.bytes]

theorem State.storeOut_bad (s : State) (c : Course) (lr : Nat) (x : StF) (w0 : W64) (bs : List Byte) (far : FarAns) (ds : List Nat) :
    s.storeOut c lr x w0 bs far ≠ .bad ds := by
  dsimp only [State.storeOut]
  split_ifs <;> exact fun no => nomatch no

section
variable {s : State} {lr : Nat} {w0 w1 : W64} {c : Course} {x : StF} (up : s.coreUp) (may : s.mayIssue lr w0 w1 = some c)
  (st : s.Streams lr (sigOf w0)) (fields : x = stFields w0 w1) (normal : x.cls = 0) (outside : s.inSave x.tier x.far = false)
include up may st fields normal outside

/-! ST.STORE (R165, R174, R180, R316). -/

section
variable (sound : s.badStore = []) (opcode : opcodeOf w0 = 0x21) (formed : wellFormedWords 0x21 w0 w1 = true)
include sound opcode formed

theorem execStStore_plain (tier : x.tier ≠ 0) (plain : x.comp = false) (within : inStore (x.near, x.n) = true)
    (written : s.rsOk lr x.near x.n = true) (room : s.farBad x.tier x.far x.n = false) (far : FarAns) :
    exec (.stStore lr w0 w1 far) s = .next ((s.storeOut c lr x w0 (s.rsRead lr x.near x.n) far).leaves s s lr w0) := by
  have codes : broken (s.rangeCodes lr [(x.near, x.n)] ++ s.farCodes x x.n) = [] := by
    rw [broken_append, State.rangeCodes_sound within written, State.farCodes_sound normal outside room]
    rfl
  have run := execStStore_runs up may opcode formed st.ahead sound (fields ▸ normal) (fields ▸ tier) far
  rw [← fields, plain, if_neg Bool.false_ne_true, State.storeInstr, plain, if_neg Bool.false_ne_true, checked_sound codes] at run
  exact run

theorem execStStore_loft (tier : x.tier = 1) (plain : x.comp = false) (within : inStore (x.near, x.n) = true)
    (written : s.rsOk lr x.near x.n = true) (room : s.farBad 1 x.far x.n = false) (far : FarAns) :
    ∃ t, exec (.stStore lr w0 w1 far) s = .next t ∧
      t.loft.bytes (lr / 8 * loftSize + x.far) x.n = s.rstore.bytes (lr * rsSize + x.near) x.n ∧
      (∀ b : Nat, (b < lr / 8 * loftSize + x.far ∨ lr / 8 * loftSize + x.far + x.n ≤ b) → t.loft.byte b = s.loft.byte b) ∧
      t.hbm = s.hbm ∧ t.rstore = s.rstore ∧ (t.raft lr).pc = (s.raft lr).pc + 1 := by
  have run := execStStore_plain up may st fields normal outside sound opcode formed (by rw [tier]; decide) plain within written
    (by rw [tier]; exact room) far
  have length : (s.rsRead lr x.near x.n).length = x.n := Memory.length_bytes _ _ _
  have some : 0 < x.n := by rw [fields]; exact stFields_n w0 w1
  have one : s.pieces c x.tier x.far (s.rsRead lr x.near x.n).length true = [⟨1, x.far, x.n⟩] := by
    rw [length, State.pieces, outside, tier]
    simp [piecesOf, Nat.ne_of_gt some]
  let u := s.bump Reg.CRS_PLC_SPILL.BYTES 0
  have bumped : u.Streams lr (sigOf w0) := st.move (State.setF_canon _ _ st.canon) st.quiet rfl
  have piece : u.writePiece lr ⟨1, x.far, x.n⟩ (s.rsRead lr x.near x.n) = u.loftWrite (lr / 8) x.far (s.rsRead lr x.near x.n) :=
    congrArg (fun v : State => v.loftWrite (lr / 8) x.far (s.rsRead lr x.near x.n))
      (State.crossBridges_none (s := u) st.quiet (lr / 8) ⟨1, x.far, x.n⟩)
  have canon : (u.loftWrite (lr / 8) x.far (s.rsRead lr x.near x.n)).Canon := (State.loftWrite_kept _ _ _ _ ⟨bumped.canon, rfl, rfl⟩).canon
  have past := State.settle_past (bumped.move canon st.quiet rfl)
  have rising := SMap.rising_of_wf st.canon.loft
  have loft : (u.loftWrite (lr / 8) x.far (s.rsRead lr x.near x.n)).loft =
    s.loft.write (lr / 8 * loftSize + x.far) (s.rsRead lr x.near x.n) := rfl
  rw [State.storeOut_module st normal outside one (Nat.lt_succ_of_lt (Nat.lt_succ_self 1)) length.symm, Eff.leaves, piece] at run
  refine ⟨_, run, ?_, fun b hb => ?_, past.hbm, past.rstore, past.pc⟩
  · have whole := Memory.bytes_write_whole s.loft (lr / 8 * loftSize + x.far) (s.rsRead lr x.near x.n) rising
    rw [length] at whole
    rw [past.loft, loft, whole]
    rfl
  · rw [past.loft, loft]
    exact Memory.byte_write_other _ _ _ rising (by rw [length]; exact hb)

theorem execStStore_hbm {a : Nat} (tier : x.tier = 2) (plain : x.comp = false) (within : inStore (x.near, x.n) = true)
    (written : s.rsOk lr x.near x.n = true) (room : s.farBad 2 x.far x.n = false) (one : s.pieces c 2 x.far x.n true = [⟨2, a, x.n⟩])
    (below : a + x.n ≤ s.hbmCap) (far : FarAns) :
    ∃ t, exec (.stStore lr w0 w1 far) s = .next t ∧ s.StoredHbm t lr a (s.rsRead lr x.near x.n) (sigOf w0) := by
  have run := execStStore_plain up may st fields normal outside sound opcode formed (by rw [tier]; decide) plain within written
    (by rw [tier]; exact room) far
  have length : (s.rsRead lr x.near x.n).length = x.n := Memory.length_bytes _ _ _
  rw [← length] at one
  rw [← length] at below
  obtain ⟨t, left, stored, -⟩ := State.storeOut_leaves st normal outside tier one below far
  exact ⟨t, by rw [run, left], stored⟩

theorem execStStoreComp_hbm {a : Nat} {d : ThD} {bs : List Byte} (tier : x.tier = 2) (comp : x.comp = true)
    (head : inStore (x.near, 64) = true) (headWritten : s.rsOk lr x.near 64 = true) (desc : d = thDesc (s.rsRead lr x.near 64))
    (within : inStore (x.near + 64, x.n) = true) (written : s.rsOk lr (x.near + 64) x.n = true) (codes : broken (s.compCodes lr x d) = [])
    (coded : bs = (s.compress lr d (rawRows d (s.rsRead lr (x.near + 64) x.n)) true).1) (kept : s.pieces c 2 x.far 64 true ≠ [])
    (one : s.pieces c 2 x.far bs.length true = [⟨2, a, bs.length⟩]) (below : a + bs.length ≤ s.hbmCap) (far : FarAns) :
    ∃ t, exec (.stStoreComp lr w0 w1 far) s = .next t ∧ s.StoredHbm t lr a bs (sigOf w0) ∧
      s.ThatchCounted t ((rawRows d (s.rsRead lr (x.near + 64) x.n)).length * d.elems * fmtBytes d.fmt) bs.length (d.tmode = 2) := by
  have first : broken (s.rangeCodes lr [(x.near, 64)]) = [] := State.rangeCodes_sound head headWritten
  have all : broken (s.rangeCodes lr [(x.near + 64, x.n)] ++ s.compCodes lr x d) = [] := by
    rw [broken_append, State.rangeCodes_sound within written, codes]
    rfl
  have run := execStStore_runs up may opcode formed st.ahead sound (fields ▸ normal) (by rw [← fields, tier]; decide) far
  rw [← fields, comp, if_pos rfl, State.storeInstr, comp, if_pos rfl, State.storeComp, first] at run
  dsimp only at run
  rw [← desc, checked_sound all, if_neg (by simp)] at run
  obtain ⟨t, left, stored, counted⟩ := State.storeSection_leaves st normal outside tier coded kept one below far
  exact ⟨t, by rw [run, left], stored, counted⟩

end

/-! ST.DRAIN (R155, R159, R181, R318). -/

section
variable (whole : s.badAcc = []) (opcode : opcodeOf w0 = 0x22) (formed : wellFormedWords 0x22 w0 w1 = true) (tier : x.tier = 2)
include opcode formed tier

omit st normal outside in
theorem execStDrain_drains (far : FarAns) :
    exec (if x.comp then .stDrainComp lr w0 w1 far else .stDrain lr w0 w1 far) s =
      .next ((s.drainInstr c lr x w0 far).leaves s s lr w0) := by
  have run := execStDrain_runs up may opcode formed (by rw [← fields, tier]; decide) far
  rw [← fields] at run
  exact run

omit st in
/-- R159: a drain of units that no tile starts at. -/
theorem execStDrain_missing (none : s.tile lr (wbits w0 40 5) = none) (room : s.farBad 2 x.far 64 = false) (far : FarAns) :
    exec (if x.comp then .stDrainComp lr w0 w1 far else .stDrain lr w0 w1 far) s = .next (s.progError lr 0x94) := by
  have codes : broken (s.farCodes x 64) = [] := State.farCodes_sound normal outside (by rw [tier]; exact room)
  rw [execStDrain_drains up may fields opcode formed tier, State.drainInstr, none]
  dsimp only
  rw [show broken ((true, 0x94) :: s.farCodes x 64) = 0x94 :: broken (s.farCodes x 64) from rfl, codes]
  rfl

omit st in
/-- R155: a drain of a tile of another shape. -/
theorem execStDrain_shape {g : SlotState} (tile : s.tile lr (wbits w0 40 5) = some g) (other : g.shape ≠ wbits w0 45 2)
    (room : s.farBad 2 x.far (if x.comp then worstSize 4 g.mrows g.ncols else g.mrows * drainPitch g.ncols) = false) (far : FarAns) :
    exec (if x.comp then .stDrainComp lr w0 w1 far else .stDrain lr w0 w1 far) s = .next (s.progError lr 0x93) := by
  have codes : broken (s.farCodes x (if x.comp then worstSize 4 g.mrows g.ncols else g.mrows * drainPitch g.ncols)) = [] :=
    State.farCodes_sound normal outside (by rw [tier]; exact room)
  rw [execStDrain_drains up may fields opcode formed tier, State.drainInstr, tile]
  dsimp only
  rw [decide_eq_true other]
  obtain ⟨ds, bad, found⟩ := checked_broken (cs := (true, 0x93) :: s.farCodes x
    (if x.comp then worstSize 4 g.mrows g.ncols else g.mrows * drainPitch g.ncols)) (List.cons_ne_nil 0x93 _)
    (if (s.tileCheck lr (wbits w0 40 5) g).working.isNone then .done (s.tileCheck lr (wbits w0 40 5) g)
      else if x.comp then (s.tileCheck lr (wbits w0 40 5) g).storeSection c lr x w0 ⟨4, 0, 0, g.ncols, 0, true⟩
        (drainRows (s.tileCheck lr (wbits w0 40 5) g) lr (wbits w0 40 5) g) far
      else (s.tileCheck lr (wbits w0 40 5) g).storeOut c lr x w0
        (drainBytes g.ncols ((s.tileCheck lr (wbits w0 40 5) g).tileRows lr (wbits w0 40 5) g)) far)
  have own : ds = [] := by
    refine found.resolve_right ?_
    split_ifs
    · exact fun no => nomatch no
    · exact State.storeOut_bad _ _ _ _ _ _ _ _
    · exact State.storeOut_bad _ _ _ _ _ _ _ _
  rw [bad, own, show broken ((true, 0x93) :: s.farCodes x _) = 0x93 :: broken (s.farCodes x _) from rfl, codes]
  rfl

include whole

/-- R159, R181, R318: a drain of the tile at its units. -/
theorem execStDrain_hbm {g : SlotState} {a : Nat} {bs : List Byte} (tile : s.tile lr (wbits w0 40 5) = some g)
    (shape : g.shape = wbits w0 45 2)
    (room : s.farBad 2 x.far (if x.comp then worstSize 4 g.mrows g.ncols else g.mrows * drainPitch g.ncols) = false)
    (drained : bs = (if x.comp then
        (s.compress lr ⟨4, 0, 0, g.ncols, 0, true⟩ ((s.tileRows lr (wbits w0 40 5) g).map fun r => r.map BitVec.toNat) true).1
      else drainBytes g.ncols (s.tileRows lr (wbits w0 40 5) g)))
    (kept : s.pieces c 2 x.far 64 true ≠ []) (one : s.pieces c 2 x.far bs.length true = [⟨2, a, bs.length⟩])
    (below : a + bs.length ≤ s.hbmCap) (far : FarAns) :
    ∃ t, exec (if x.comp then .stDrainComp lr w0 w1 far else .stDrain lr w0 w1 far) s = .next t ∧ s.StoredHbm t lr a bs (sigOf w0) ∧
      (x.comp = true → s.ThatchCounted t (g.mrows * g.ncols * 4) bs.length False) := by
  have codes : broken ((decide (g.shape ≠ wbits w0 45 2), 0x93) ::
      s.farCodes x (if x.comp then worstSize 4 g.mrows g.ncols else g.mrows * drainPitch g.ncols)) = [] := by
    rw [decide_eq_false (not_not.2 shape)]
    exact State.farCodes_sound normal outside (by rw [tier]; exact room)
  have checked : s.tileCheck lr (wbits w0 40 5) g = s := State.accCheck_sound whole _ _ _
  have run := execStDrain_drains up may fields opcode formed tier far
  rw [State.drainInstr, tile] at run
  dsimp only at run
  rw [checked_sound codes, checked, st.working, if_neg Bool.false_ne_true] at run
  cases comp : x.comp with
  | false =>
    rw [comp, if_neg Bool.false_ne_true] at drained
    rw [comp, if_neg Bool.false_ne_true, if_neg Bool.false_ne_true, ← drained] at run
    obtain ⟨t, left, stored, -⟩ := State.storeOut_leaves st normal outside tier one below far
    exact ⟨t, by rw [if_neg Bool.false_ne_true, run, left], stored, fun no => nomatch no⟩
  | true =>
    rw [comp, if_pos rfl] at drained
    rw [comp, if_pos rfl, if_pos rfl] at run
    obtain ⟨t, left, stored, counted⟩ := State.storeSection_leaves st normal outside tier drained kept one below far
    have rows : ((s.tileRows lr (wbits w0 40 5) g).map fun r => r.map BitVec.toNat).length = g.mrows := by simp [State.tileRows]
    have four : fmtBytes 4 = 4 := by decide
    rw [rows] at counted
    exact ⟨t, by rw [if_pos rfl, run, ← left]; rfl, stored,
      fun _ => ⟨by simpa only [four] using counted.raw, counted.stored, counted.pass, counted.arm⟩⟩

end

end

end Sys2Proof.Machine
end

section
/-! SUPPORT. Reads of HBM, of a loft and through the host aperture (R93, R105 to R108, R341): what they deliver, and what they leave of the rest. -/

namespace Sys2Proof.Machine

/-! ### What a read may change -/

/-- `t` is `s` after reads: registers of the host attachment but HIF_APT_FAULT stand as they did, and only what reads keep beside may differ. -/
structure State.ReadTo (s t : State) : Prop where
  form : ∃ regs symErr retrainPend cxlOut aptCache, t = { s with
    regs := regs, symErr := symErr, retrainPend := retrainPend, cxlOut := cxlOut, aptCache := aptCache }
  host : t.regsOn hostKey = s.regsOn hostKey

theorem State.ReadTo.refl (s : State) : s.ReadTo s := ⟨⟨s.regs, s.symErr, s.retrainPend, s.cxlOut, s.aptCache, rfl⟩, rfl⟩

theorem State.ReadTo.trans {s t u : State} (h : s.ReadTo t) (k : t.ReadTo u) : s.ReadTo u := by
  obtain ⟨_, _, _, _, _, rfl⟩ := h.form
  obtain ⟨regs, symErr, retrainPend, cxlOut, aptCache, rfl⟩ := k.form
  exact ⟨⟨regs, symErr, retrainPend, cxlOut, aptCache, rfl⟩, k.host.trans h.host⟩

theorem State.readTo_setF (s : State) {f : Fld} (hf : hostKey f.key = false) (v : Nat) : s.ReadTo (s.setF f v) :=
  ⟨⟨_, s.symErr, s.retrainPend, s.cxlOut, s.aptCache, rfl⟩, s.regsOn_setF hostKey f v hf⟩

theorem State.readTo_cxlOut (s : State) (out : List CxlReq) : s.ReadTo { s with cxlOut := out } :=
  ⟨⟨s.regs, s.symErr, s.retrainPend, out, s.aptCache, rfl⟩, rfl⟩

theorem hostKey_memory {k : Nat} (h : 2147483648 ≤ k) : hostKey k = false := by
  simp only [hostKey, decide_eq_false_iff_not]
  omega

theorem State.readTo_readSector (s : State) (q : Nat) : s.ReadTo (s.readSector q) := by
  have next (t : State) (i : Nat) : t.ReadTo (t.retrainNext i) := by
    have state (c : Nat) := t.readTo_setF (f := Reg.MEM_LCH_STAT.STATE (i / 34) c) (hostKey_memory (by simp only []; omega)) 1
    have pend (u : State) (l : List Nat) : u.ReadTo { u with retrainPend := l } := ⟨⟨u.regs, u.symErr, l, u.cxlOut, u.aptCache, rfl⟩, rfl⟩
    dsimp only [State.retrainNext]
    split
    · exact (state _).trans (pend _ _)
    · exact pend _ _
  have fails (t : State) : t.ReadTo (t.targetFails q) := by
    unfold State.targetFails
    split
    · exact next t _
    · exact .refl t
  have known (t : State) (m : SMap Nat) : t.ReadTo { t with symErr := m } := ⟨⟨t.regs, m, t.retrainPend, t.cxlOut, t.aptCache, rfl⟩, rfl⟩
  unfold State.readSector
  split
  · exact .refl s
  · exact (s.readTo_setF (hostKey_memory (by simp only []; omega)) _).trans (known _ _)
  · exact (s.readTo_setF (hostKey_memory (by simp only []; omega)) _).trans (fails _)

theorem State.readTo_readQuiet (s : State) (a n : Nat) : s.ReadTo (s.readQuiet a n).2.2 := by
  have all (qs : List Nat) (t : State) : t.ReadTo (t.each qs State.readSector) := by
    induction qs generalizing t with
    | nil => exact .refl t
    | cons q qs ih => exact (t.readTo_readSector q).trans (ih _)
  obtain ⟨out, via⟩ := s.viaHost_read a n
  have sent := s.readTo_cxlOut out
  rw [← via] at sent
  exact sent.trans (all _ _)

theorem State.readTo_aptEntry (s : State) (i : Nat) : s.ReadTo (s.aptEntry i).2 := by
  have cached (t : State) (l : List (Nat × W64)) : t.ReadTo { t with aptCache := l } := ⟨⟨t.regs, t.symErr, t.retrainPend, t.cxlOut, l, rfl⟩, rfl⟩
  unfold State.aptEntry
  split
  · exact .refl s
  · extract_lets r e
    have quiet : s.ReadTo r.2.2 := s.readTo_readQuiet _ _
    clear_value r
    split
    · exact quiet
    · exact quiet.trans (cached r.2.2 _)

theorem State.readTo_aptPage (s : State) (a : Nat) (store err : Bool) : s.ReadTo (s.aptPage a store err).2 := by
  have entry := s.readTo_aptEntry (a / 2 ^ 21)
  dsimp only [State.aptPage]
  generalize s.aptEntry (a / 2 ^ 21) = r at entry
  split
  · exact .refl s
  · split
    · exact entry
    · split_ifs <;> exact entry

theorem State.readTo_aptFault (s : State) (a cause : Nat) : s.ReadTo (s.aptFault a cause) := by
  unfold State.aptFault
  split
  · exact .refl s
  · exact (s.readTo_setF (f := Reg.HIF_APT_FAULT.ADDR) (by decide) a).trans
      ((State.readTo_setF _ (f := Reg.HIF_APT_FAULT.CAUSE) (by decide) cause).trans (State.readTo_setF _ (f := Reg.HIF_APT_FAULT.VALID) (by decide) 1))

theorem State.readTo_aptAccess (s : State) (store err : Bool) (ps acc : List (Nat × Nat)) : s.ReadTo (s.aptAccess store err ps acc).2 := by
  induction ps generalizing s acc with
  | nil => exact .refl s
  | cons p ps ih =>
    have page := s.readTo_aptPage p.1 store err
    unfold State.aptAccess
    cases res : s.aptPage p.1 store err with
    | mk r t =>
      rw [res] at page
      cases r with
      | error c => exact page.trans (t.readTo_aptFault p.1 c)
      | ok h => exact page.trans (ih t _)

/-! ### Rafters beside a read -/

/-- The rafters replaced. -/
def State.withRafts (s : State) (m : SMap Raft) : State := { s with rafts := m }

theorem State.withRafts_readSector (s : State) (m : SMap Raft) (q : Nat) : (s.withRafts m).readSector q = (s.readSector q).withRafts m := by
  have next (t : State) (i : Nat) : (t.withRafts m).retrainNext i = (t.retrainNext i).withRafts m := by
    dsimp only [State.retrainNext]
    rw [show (t.withRafts m).getF (Reg.MEM_PCH_STAT.LOGICAL (i / 34) (i % 34)) = t.getF (Reg.MEM_PCH_STAT.LOGICAL (i / 34) (i % 34)) from rfl,
      show (t.withRafts m).getF (Reg.MEM_LCH_STAT.STATE (i / 34) (t.getF (Reg.MEM_PCH_STAT.LOGICAL (i / 34) (i % 34)))) =
        t.getF (Reg.MEM_LCH_STAT.STATE (i / 34) (t.getF (Reg.MEM_PCH_STAT.LOGICAL (i / 34) (i % 34)))) from rfl]
    split <;> rfl
  have fails (t : State) : (t.withRafts m).targetFails q = (t.targetFails q).withRafts m := by
    unfold State.targetFails
    rw [show (t.withRafts m).atTarget (q / 64) = t.atTarget (q / 64) from rfl, show (t.withRafts m).poison = t.poison from rfl]
    split
    · exact next t _
    · rfl
  unfold State.readSector
  rw [show (s.withRafts m).sectorState q = s.sectorState q from rfl]
  cases s.sectorState q with
  | clean => rfl
  | corrected => rfl
  | bad => exact fails (s.bump (Reg.MEM_PCH_UE.UE_READ (stackOf (s.placeOf (q * 64)).1)
      (s.physOf (stackOf (s.placeOf (q * 64)).1) (chanOf (s.placeOf (q * 64)).1) (s.placeOf (q * 64)).2)) 1)

theorem State.withRafts_each (s : State) (m : SMap Raft) (qs : List Nat) :
    (s.withRafts m).each qs State.readSector = (s.each qs State.readSector).withRafts m := by
  unfold State.each
  induction qs generalizing s with
  | nil => rfl
  | cons q qs ih => rw [List.foldl_cons, List.foldl_cons, s.withRafts_readSector m q, ih]

theorem State.withRafts_viaHost (s : State) (m : SMap Raft) (a n : Nat) :
    (s.withRafts m).viaHost a n false = (s.viaHost a n false).withRafts m := by
  unfold State.viaHost
  rw [show (s.withRafts m).on Reg.HIF_CTRL.COH_MODE = s.on Reg.HIF_CTRL.COH_MODE from rfl, show (s.withRafts m).shared = s.shared from rfl,
    show (s.withRafts m).hdmDb = s.hdmDb from rfl, show (s.withRafts m).on Reg.HIF_LINK.RATE = s.on Reg.HIF_LINK.RATE from rfl]
  dsimp only
  split_ifs <;> rfl

theorem State.withRafts_readQuiet (s : State) (m : SMap Raft) (a n : Nat) : (s.withRafts m).readQuiet a n =
    ((s.readQuiet a n).1, (s.readQuiet a n).2.1, (s.readQuiet a n).2.2.withRafts m) := by
  rw [State.readQuiet, s.withRafts_viaHost m, State.readRaw, State.withRafts_each]
  rfl

theorem State.withRafts_aptEntry (s : State) (m : SMap Raft) (i : Nat) :
    (s.withRafts m).aptEntry i = ((s.aptEntry i).1, (s.aptEntry i).2.withRafts m) := by
  unfold State.aptEntry
  rw [show (s.withRafts m).aptCache = s.aptCache from rfl]
  cases s.aptCache.find? fun e => e.1 = i with
  | some e => rfl
  | none =>
    dsimp only
    rw [show (s.withRafts m).hdmBase = s.hdmBase from rfl,
      show (s.withRafts m).getF Reg.HIF_APT_BASE.OFFSET = s.getF Reg.HIF_APT_BASE.OFFSET from rfl, s.withRafts_readQuiet m]
    obtain ⟨bs, bad, t⟩ := s.readQuiet (s.hdmBase * 2 ^ 30 + s.getF Reg.HIF_APT_BASE.OFFSET * 4096 + 8 * i) 8
    dsimp only
    generalize List.drop _ (s.aptCache ++ [(i, BitVec.ofNat 64 (leNat bs))]) = cache
    generalize (bad || !aptEntryOk (BitVec.ofNat 64 (leNat bs))) = unusable
    cases unusable <;> rfl

theorem State.withRafts_aptPage (s : State) (m : SMap Raft) (a : Nat) (store err : Bool) :
    (s.withRafts m).aptPage a store err = ((s.aptPage a store err).1, (s.aptPage a store err).2.withRafts m) := by
  dsimp only [State.aptPage]
  rw [show (s.withRafts m).on Reg.HIF_APT_CFG.EN = s.on Reg.HIF_APT_CFG.EN from rfl,
    show (s.withRafts m).getF Reg.HIF_APT_CFG.COUNT = s.getF Reg.HIF_APT_CFG.COUNT from rfl, s.withRafts_aptEntry m]
  generalize s.aptEntry (a / 2 ^ 21) = r
  split
  · rfl
  · cases r.1 with
    | none => rfl
    | some e =>
      dsimp only
      rw [show (r.2.withRafts m).hostReachable = r.2.hostReachable from rfl]
      split_ifs <;> rfl

theorem State.withRafts_aptFault (s : State) (m : SMap Raft) (a cause : Nat) :
    (s.withRafts m).aptFault a cause = (s.aptFault a cause).withRafts m := by
  unfold State.aptFault
  rw [show (s.withRafts m).on Reg.HIF_APT_FAULT.VALID = s.on Reg.HIF_APT_FAULT.VALID from rfl]
  split <;> rfl

/-- R107: whether an aperture access succeeds, and where it goes, does not depend on rafters. -/
theorem State.withRafts_aptAccess (s : State) (m : SMap Raft) (store err : Bool) (ps acc : List (Nat × Nat)) :
    (s.withRafts m).aptAccess store err ps acc = ((s.aptAccess store err ps acc).1, (s.aptAccess store err ps acc).2.withRafts m) := by
  induction ps generalizing s acc with
  | nil => rfl
  | cons p ps ih =>
    unfold State.aptAccess
    rw [s.withRafts_aptPage m p.1 store err]
    generalize s.aptPage p.1 store err = r
    obtain ⟨r, t⟩ := r
    cases r with
    | error c => exact congrArg (Prod.mk none) (t.withRafts_aptFault m p.1 c)
    | ok h => exact ih t _

/-! ### The pieces of an aperture access -/

/-- R107: a translated piece has the length of the piece. -/
theorem State.aptAccess_lengths {s : State} {store err : Bool} {ps acc qs : List (Nat × Nat)}
    (h : (s.aptAccess store err ps acc).1 = some qs) : qs.map Prod.snd = acc.map Prod.snd ++ ps.map Prod.snd := by
  induction ps generalizing s acc with
  | nil =>
    cases h
    simp
  | cons p ps ih =>
    unfold State.aptAccess at h
    generalize s.aptPage p.1 store err = r at h
    obtain ⟨r, t⟩ := r
    cases r with
    | error c => cases h
    | ok a => simpa using ih h

/-- The pieces of an access by pages, up to page `j` of it, reach to where the page ends or the access does. -/
theorem sum_pages {a n size : Nat} (page : 0 < size) (j : Nat) (within : j ≤ (a + n - 1) / size - a / size + 1) (some : 0 < n) :
    ((List.range j).map fun k =>
      min (a + n) ((a / size + k + 1) * size) - max a ((a / size + k) * size)).sum = min (a + n) ((a / size + j) * size) - a := by
  induction j with
  | zero =>
    have low : a / size * size ≤ a := Nat.div_mul_le_self a size
    simp only [List.range_zero, List.map_nil, List.sum_nil, Nat.add_zero]
    omega
  | succ j ih =>
    have starts : (a / size + j) * size ≤ a + n - 1 :=
      (Nat.mul_le_mul_right size (by have := Nat.div_le_div_right (c := size) (show a ≤ a + n - 1 by omega); omega)).trans
        (Nat.div_mul_le_self (a + n - 1) size)
    have next : (a / size + j + 1) * size = (a / size + j) * size + size := Nat.succ_mul _ _
    rw [List.range_succ, List.map_append, List.sum_append, ih (by omega), ← Nat.add_assoc (a / size) j 1]
    simp only [List.map_cons, List.map_nil, List.sum_cons, List.sum_nil, Nat.add_zero]
    omega

theorem sum_aptPieces (a n : Nat) : ((aptPieces a n).map Prod.snd).sum = n := by
  rcases Nat.eq_zero_or_pos n with rfl | some
  · simp [aptPieces]
  · have last : a + n - 1 < ((a + n - 1) / 2 ^ 21 + 1) * 2 ^ 21 := (Nat.div_lt_iff_lt_mul (by decide)).1 (Nat.lt_succ_self _)
    have mono := Nat.div_le_div_right (c := 2 ^ 21) (show a ≤ a + n - 1 by omega)
    have sum := sum_pages (a := a) (n := n) (size := 2 ^ 21) (by decide) _ (Nat.le_refl _) some
    rw [aptPieces, if_neg (by omega), List.map_map]
    refine Eq.trans sum ?_
    rw [show a / 2 ^ 21 + ((a + n - 1) / 2 ^ 21 - a / 2 ^ 21 + 1) = (a + n - 1) / 2 ^ 21 + 1 by omega]
    omega

/-! ### What reads deliver -/

/-- R108: outside full-coherence mode the host's bytes arrive in order. -/
theorem State.hostLoads_plain {s : State} (off : s.on Reg.HIF_CTRL.COH_MODE = false) (ps : List (Nat × Nat)) (bs : List Byte) :
    ∃ out, s.hostLoads ps bs = (bs.take (ps.map Prod.snd).sum, { s with cxlOut := out }) := by
  induction ps generalizing s bs with
  | nil => exact ⟨s.cxlOut, by rw [State.hostLoads]; simp⟩
  | cons p ps ih =>
    have sent : ∃ out, s.sendCxl .rdCurr p.1 p.2 = { s with cxlOut := out } := by
      unfold State.sendCxl
      split
      · exact ⟨s.cxlOut, rfl⟩
      · exact ⟨_, rfl⟩
    obtain ⟨out, sent⟩ := sent
    obtain ⟨out', rest⟩ := ih (s := { s with cxlOut := out }) off (bs.drop p.2)
    refine ⟨out', ?_⟩
    rw [State.hostLoads, off, if_neg Bool.false_ne_true, sent, rest, List.map_cons, List.sum_cons, List.take_add]

theorem State.ReadTo.cohMode {s t : State} (h : s.ReadTo t) (cs : s.Canon) (ct : t.Canon) :
    t.getF Reg.HIF_CTRL.COH_MODE = s.getF Reg.HIF_CTRL.COH_MODE :=
  State.getF_of_regsOn h.host cs.regs ct.regs (by decide)

/-- R105 to R108: an aperture load that translates delivers what the host answers. -/
theorem State.aptLoad_delivers {s : State} (canon : s.Canon) (off : s.getF Reg.HIF_CTRL.COH_MODE = 0) {a n : Nat} {bs : List Byte}
    (length : bs.length = n) (access : (s.aptAccess false false (aptPieces a n) []).1 ≠ none) :
    ∃ t, s.aptLoad a n (.data bs) = (some bs, t) ∧ s.ReadTo t := by
  have read := s.readTo_aptAccess false false (aptPieces a n) []
  have canon' : (s.aptAccess false false (aptPieces a n) []).2.Canon := (State.aptAccess_kept s _ _ _ _ ⟨canon, rfl, rfl⟩).canon
  obtain ⟨ps, some⟩ := Option.ne_none_iff_exists'.1 access
  have lengths := State.aptAccess_lengths some
  have off' := State.on_eq_false ((read.cohMode canon canon').trans off)
  generalize res : s.aptAccess false false (aptPieces a n) [] = r at read canon' some off'
  obtain ⟨got, u⟩ := r
  cases some
  obtain ⟨out, loads⟩ := State.hostLoads_plain off' ps (bs.take n ++ List.replicate (n - bs.length) 0)
  have all : (bs.take n ++ List.replicate (n - bs.length) 0).take (ps.map Prod.snd).sum = bs := by
    rw [lengths, List.map_nil, List.nil_append, sum_aptPieces, length, Nat.sub_self, List.replicate_zero, List.append_nil, List.take_take, Nat.min_self,
      ← length, List.take_length]
  refine ⟨{ u with cxlOut := out }, ?_, read.trans (u.readTo_cxlOut out)⟩
  have plain : decide (FarAns.data bs = .error) = false := by simp
  unfold State.aptLoad
  rw [plain, res]
  dsimp only at loads ⊢
  rw [loads, all]

/-- R341: sectors without errors deliver the bytes of HBM. -/
theorem State.readHbm_clean {s : State} {a n : Nat} (clean : ∀ q ∈ sectorsOf a n, s.sectorState q = .clean) :
    ∃ t, s.readHbm a n = (s.hbm.bytes a n, t) ∧ s.ReadTo t := by
  obtain ⟨out, via⟩ := s.viaHost_read a n
  have good : s.badStacks a n = [] := by
    rw [State.badStacks, List.map_eq_nil_iff, List.filter_eq_nil_iff]
    intro q hq
    simp [clean q hq]
  have sectors := State.readSectors_clean (s := { s with cxlOut := out }) (sectorsOf a n) clean
  refine ⟨{ s with cxlOut := out }, ?_, s.readTo_cxlOut out⟩
  dsimp only [State.readHbm, State.readQuiet, State.readRaw]
  rw [via, sectors, good]
  rfl

end Sys2Proof.Machine
end

section
/-! SUPPORT. ST.LOAD of the normal class (R165, R167, R174, R180, R371, R375, R376): the load it asks for, its bytes in the rafter store, and
its failure. -/

namespace Sys2Proof.Machine

/-! ### What a load delivers -/

/-- `t` is `s` with `bs` at `near` in the store of rafter `lr`, which is past the instruction that signalled `sig`. -/
structure State.Loaded (s t : State) (lr near : Nat) (bs : List Byte) (sig : Option Nat) : Prop where
  bytes : t.rstore.bytes (lr * rsSize + near) bs.length = bs
  other : ∀ b, (b < lr * rsSize + near ∨ lr * rsSize + near + bs.length ≤ b) → t.rstore.byte b = s.rstore.byte b
  hbm : t.hbm = s.hbm
  loft : t.loft = s.loft
  written : t.rsOk lr near bs.length = true
  pc : (t.raft lr).pc = (s.raft lr).pc + 1
  signal : ∀ ev, sig = some ev → t.event lr ev = s.event lr ev + 1

theorem State.deliver_form {s : State} (quiet : s.inj = none) (lr near : Nat) (bs : List Byte) : ∃ badStore, s.deliver lr near bs false = { s with
    rstore := s.rstore.write (lr * rsSize + near) bs, badStore := badStore
    rsWritten := (blocksTouched near bs.length).foldl (fun l b => insertSorted (lr * 6144 + b) l) s.rsWritten } := by
  have put : ∃ badStore, s.rsPut lr near bs = { s with rstore := s.rstore.write (lr * rsSize + near) bs, badStore := badStore } := by
    cases bs with
    | nil => exact ⟨s.badStore, rfl⟩
    | cons b bs =>
      have armed (t : State) (calm : t.inj = none) (u word : Nat) : t.injectStore u word = t := by rw [State.injectStore, State.armed_none calm]
      exact ⟨_, armed _ (by exact quiet) _ _⟩
  obtain ⟨badStore, put⟩ := put
  exact ⟨badStore, by rw [State.deliver, put]; rfl⟩

/-- R174: the blocks of a delivery are written. -/
theorem rsOk_of_marked {s : State} {lr near n : Nat} {old : List Nat}
    (marked : s.rsWritten = (blocksTouched near n).foldl (fun l b => insertSorted (lr * 6144 + b) l) old) : s.rsOk lr near n = true := by
  have all : (blocksTouched near n).foldl (fun l b => insertSorted (lr * 6144 + b) l) old =
      ((blocksTouched near n).map (lr * 6144 + ·)).foldl (fun l k => insertSorted k l) old := by rw [List.foldl_map]
  rw [State.rsOk, List.all_eq_true]
  intro b hb
  rw [List.contains_iff_mem, marked, all, mem_foldl_insertSorted]
  exact .inl (List.mem_map_of_mem hb)

/-- R365: what is kept of rates changes nothing that the sequencer goes by. -/
theorem State.Streams.moved {s : State} {lr : Nat} {sig : Option Nat} (st : s.Streams lr sig) (ps : List Piece) : (s.moved ps).Streams lr sig := by
  have canon : (s.moved ps).Canon := (State.moved_kept _ _ ⟨st.canon, rfl, rfl⟩).canon
  obtain ⟨course, form, working⟩ := s.moved_next ps
  rw [form] at canon working ⊢
  exact ⟨canon, st.quiet, working.trans st.working, st.main, st.down, st.ahead, st.rising, st.room⟩

/-- R171, R371: all bytes of a load of the normal class have come. -/
theorem State.endLoad_whole {r v : State} {lr : Nat} {l : RunAhead} {far : FarAns} {bs : List Byte}
    (read : r.readPieces lr far l.pieces [] = (bs, true, v)) (st : v.Streams lr l.sig) (normal : l.normal = true) (save : l.save = none) :
    v.Loaded (((r.endLoad lr l far).markBusy).settle lr none) lr l.near bs l.sig := by
  obtain ⟨badStore, delivered⟩ := State.deliver_form st.quiet lr l.near bs
  have canon : (v.deliver lr l.near bs false).Canon := (State.deliver_kept _ _ _ _ _ ⟨st.canon, rfl, rfl⟩).canon
  let u := if l.weight then (v.deliver lr l.near bs false).moved (cutPieces bs.length l.pieces) else v.deliver lr l.near bs false
  have ended : r.endLoad lr l far = u.signalOpt lr l.sig := by
    unfold State.endLoad
    rw [read]
    dsimp only
    rw [st.working, if_neg Bool.false_ne_true, save, normal, if_pos rfl, if_pos rfl]
    simp only [Bool.not_true, Option.isSome_none, Bool.false_or]
    rfl
  have form : ∃ course, u = { v with
      rstore := v.rstore.write (lr * rsSize + l.near) bs, badStore := badStore, course := course
      rsWritten := (blocksTouched l.near bs.length).foldl (fun l b => insertSorted (lr * 6144 + b) l) v.rsWritten } := by
    obtain ⟨course, moved, -⟩ := (v.deliver lr l.near bs false).moved_next (cutPieces bs.length l.pieces)
    dsimp only [u]
    split
    · exact ⟨course, by rw [moved, delivered]⟩
    · exact ⟨v.course, delivered⟩
  have streams : (v.deliver lr l.near bs false).Streams lr l.sig :=
    st.move canon (by rw [delivered]; exact st.quiet) (by rw [delivered]; rfl)
  have streams' : u.Streams lr l.sig := by
    dsimp only [u]
    split
    · exact streams.moved _
    · exact streams
  have past := State.signalBusy_past streams'
  rw [ended]
  clear_value u
  obtain ⟨course, form⟩ := form
  have rising := SMap.rising_of_wf st.canon.rstore
  have rstore : u.rstore = v.rstore.write (lr * rsSize + l.near) bs := by rw [form]
  have marked : u.rsWritten = (blocksTouched l.near bs.length).foldl (fun l b => insertSorted (lr * 6144 + b) l) v.rsWritten := by rw [form]
  have rafts : (u.raft lr).pc = (v.raft lr).pc ∧ ∀ ev, u.event lr ev = v.event lr ev := by
    rw [form]
    exact ⟨rfl, fun _ => rfl⟩
  refine ⟨?_, fun b hb => ?_, past.hbm.trans (by rw [form]), past.loft.trans (by rw [form]), rsOk_of_marked (past.rsWritten.trans marked),
    past.pc.trans (by rw [rafts.1]), fun ev hev => by rw [past.signal ev hev, rafts.2]⟩
  · rw [past.rstore, rstore]
    exact Memory.bytes_write_whole _ _ bs rising
  · rw [past.rstore, rstore]
    exact Memory.byte_write_other _ _ bs rising hb

/-! ### The instruction -/

/-- R375: a load that writes its whole buffer forgets what failed there; no load is listed. -/
theorem State.dropUnread_coded {s : State} {lr : Nat} (canon : s.Canon) (w : SMap.rising s.rafts = true) (ahead : (s.raft lr).ahead = [])
    (wr : List (Nat × Nat)) : s.Coded (s.dropUnread lr wr) lr ∧ ∃ m, s.dropUnread lr wr = s.withRafts m := by
  have canon' : (s.dropUnread lr wr).Canon := (State.dropUnread_kept _ _ _ ⟨canon, rfl, rfl⟩).canon
  cases wr with
  | nil => exact ⟨.refl canon lr, s.rafts, rfl⟩
  | cons r wr =>
    have same : { s.raft lr with ahead := [] } = s.raft lr := by rw [← ahead]
    have none : s.dropUnread lr (r :: wr) = s.setRaft lr (s.raft lr) := by
      rw [State.dropUnread, List.isEmpty_cons, if_neg Bool.false_ne_true]
      dsimp only
      rw [ahead, List.filter_nil, same]
    rw [none] at canon' ⊢
    have raft := State.raft_setRaft lr (s.raft lr) w
    have rising := State.setRaft_rising lr (s.raft lr) w
    refine ⟨⟨⟨_, s.regs, rfl⟩, ?_, rfl, canon'⟩, _, rfl⟩
    rw [State.seqView, raft, rising, State.seqView, w]
    rfl

theorem State.Coded.weightSource {s t : State} {lr : Nat} (h : s.Coded t lr) (canon : s.Canon) (tier a n : Nat) :
    t.weightSource tier a n = s.weightSource tier a n := by
  have words : t.wsrcs = s.wsrcs := by
    rw [State.wsrcs, State.wsrcs, h.planW canon]
    obtain ⟨_, _, form⟩ := h.form
    rw [form]
    rfl
  rw [State.weightSource, State.weightSource, words]

/-- R165, R167, R376: `l` is what an ST.LOAD of `x` asks for: one piece `p`, of the normal class, outside the save window. -/
structure RunAhead.Asks (l : RunAhead) (s : State) (x : StF) (p : Piece) (w0 : W64) : Prop where
  pieces : l.pieces = [p]
  near : l.near = x.near
  sig : l.sig = sigOf w0
  normal : l.normal = true
  save : l.save = none
  plain : s.weightSource x.tier x.far x.n = none → l.weight = false ∧ l.alt = none

/-- R165, R180: the load of an instruction that rafter `lr` may issue with nothing of its own in flight, in one piece outside the save window. -/
theorem State.loadOf_asks {s r : State} {lr : Nat} (coded : s.Coded r lr) (canon : s.Canon) {c : Course} {x : StF} (normal : x.cls = 0)
    (outside : s.inSave x.tier x.far = false) {p : Piece} (one : s.pieces c x.tier x.far x.n false = [p]) (w0 : W64) :
    (r.loadOf c x w0).Asks s x p w0 := by
  have outside' : r.inSave x.tier x.far = false := (coded.inSave canon _ _).trans outside
  have save : r.saveIdx x.tier x.far = none := by rw [State.saveIdx, outside']; rfl
  have len : r.loadLen x.tier x.far x.n = x.n := by rw [State.loadLen, save]; rfl
  refine ⟨?_, rfl, rfl, decide_eq_true normal, save, fun none => ?_⟩
  · rw [State.loadOf, len]
    exact (coded.pieces canon outside c x.n false).trans one
  · have none' : (if r.inSave x.tier x.far then Option.none else r.weightSource x.tier x.far x.n) = Option.none := by
      rw [outside', if_neg Bool.false_ne_true, coded.weightSource canon, none]
    rw [State.loadOf, none']
    exact ⟨rfl, rfl⟩

/-- What an ST.LOAD of the normal class does. -/
def State.loadBody (s : State) (c : Course) (lr : Nat) (x : StF) (w0 : W64) (far : FarAns) : Eff :=
  checked (s.loadCodes lr x) <|
    let l := s.loadOf c x w0
    if s.saveInFlight l.save || (s.raft lr).farBusy l.pieces false then .hold
    else if l.pieces.any (fun p => p.tier = 4) then .posted (s.askLoad c lr l).markBusy
    else if x.cls = 2 ∧ l.pieces ≠ [] then .posted (s.addAhead lr l).markBusy
    else .posted (s.endLoad lr l far).markBusy

theorem State.loadBody_ends {s r : State} {lr : Nat} {c : Course} {x : StF} {p : Piece} {w0 : W64} (st : r.Streams lr (sigOf w0))
    (asks : (r.loadOf c x w0).Asks s x p w0) (codes : broken (r.loadCodes lr x) = []) (normal : x.cls = 0) (near : p.tier ≠ 4) (far : FarAns) :
    r.loadBody c lr x w0 far = .posted (r.endLoad lr (r.loadOf c x w0) far).markBusy := by
  have idle := Raft.farBusy_idle st.down st.ahead [p] false
  have here : [p].any (fun p => decide (p.tier = 4)) = false := by simp [near]
  dsimp only [State.loadBody]
  rw [checked_sound codes, asks.pieces, asks.save, idle, here, normal]
  rfl

/-- R165, R167, R180: a load of the normal class, in one piece that lies neither in the own rafter store nor with a peer, ends as it issues. -/
theorem execStLoad_runs {s : State} {lr : Nat} {w0 w1 : W64} {c : Course} {x : StF} (up : s.coreUp) (may : s.mayIssue lr w0 w1 = some c)
    (st : s.Streams lr (sigOf w0)) (sound : s.badStore = []) (opcode : opcodeOf w0 = 0x20) (formed : wellFormedWords 0x20 w0 w1 = true)
    (fields : x = stFields w0 w1) (normal : x.cls = 0) (outside : s.inSave x.tier x.far = false) (within : inStore (x.near, x.n) = true)
    (room : s.farBad x.tier x.far x.n = false) (tier : x.tier ≠ 0) (loft : x.tier = 1 → s.loftOk (lr / 8) x.far x.n = true) {p : Piece}
    (one : s.pieces c x.tier x.far x.n false = [p]) (near : p.tier ≠ 4) : ∃ (r : State) (l : RunAhead) (m : SMap Raft),
      s.Coded r lr ∧ r = s.withRafts m ∧ l.Asks s x p w0 ∧
        ∀ far, exec (.stLoad lr w0 w1 far) s = .next (((r.endLoad lr l far).markBusy).settle lr none) := by
  obtain ⟨coded, m, rafts⟩ := State.dropUnread_coded (lr := lr) st.canon st.rising st.ahead [(x.near, x.n)]
  have run (far : FarAns) : exec (.stLoad lr w0 w1 far) s =
      .next (((s.dropUnread lr [(x.near, x.n)]).loadBody c lr x w0 far).leaves s (s.dropUnread lr [(x.near, x.n)]) lr w0) := by
    have issued := State.issue_runs (rd := []) (wr := [(x.near, x.n)]) may opcode formed (by simp [Raft.loading, Raft.sourcing, st.ahead])
      (by simp [Raft.unread, st.ahead]) (State.storeCheck_sound sound lr []) fun c s => s.loadBody c lr x w0 far
    rw [show exec (.stLoad lr w0 w1 far) s = .next (stLoad false lr w0 w1 far s) from onCore_up _ s up, ← issued, stLoad, ← fields]
    dsimp only
    rw [if_neg (by simp [normal]), if_neg tier]
    rfl
  generalize s.dropUnread lr [(x.near, x.n)] = r at coded rafts run
  have asks := State.loadOf_asks coded st.canon normal outside one w0
  have outside' : r.inSave x.tier x.far = false := (coded.inSave st.canon _ _).trans outside
  have limit : r.farBad x.tier x.far x.n = false := by
    have limits : r.tierLimit x.tier = s.tierLimit x.tier := by
      unfold State.tierLimit
      rw [coded.hbmCap st.canon]
    rw [← room, State.farBad, State.farBad, limits]
  have written : (decide (x.tier = 1) && !r.loftOk (lr / 8) x.far x.n) = false := by
    rw [Bool.and_eq_false_iff, decide_eq_false_iff_not, Bool.not_eq_false', rafts]
    exact (em (x.tier = 1)).symm.imp id loft
  have codes : broken (r.loadCodes lr x) = [] := by
    simp [broken, State.loadCodes, normal, within, limit, State.saveBad, outside', tier, written]
  exact ⟨r, r.loadOf c x w0, m, coded, rafts, asks, fun far => by
    rw [run, State.loadBody_ends (coded.streams st) asks codes normal near, Eff.leaves]⟩

end Sys2Proof.Machine
end

section
/-! SUPPORT. The streamer's instructions of the normal class (R164, R165, R167, R174, R180, R181, R185, R306, R318). -/

namespace Sys2Proof.Machine

/-! ### Loads -/

theorem State.readPieces_one {s v : State} {lr : Nat} {p : Piece} {far far' : FarAns} {bs : List Byte}
    (read : s.readPiece lr p far = (bs, far', v)) (length : bs.length = p.len) : s.readPieces lr far [p] [] = (bs, true, v) := by
  rw [State.readPieces, read]
  dsimp only
  rw [if_neg (by omega)]
  rfl

theorem State.readPieces_short {s v : State} {lr : Nat} {p : Piece} {far far' : FarAns} {bs : List Byte}
    (read : s.readPiece lr p far = (bs, far', v)) (short : bs.length < p.len) : s.readPieces lr far [p] [] = (bs, false, v) := by
  rw [State.readPieces, read]
  dsimp only
  rw [if_pos short]
  rfl

section
variable {s r : State} {lr : Nat} {x : StF} {p : Piece} {w0 : W64} {l : RunAhead} (st : s.Streams lr (sigOf w0)) (coded : s.Coded r lr)
  (asks : l.Asks s x p w0)
include st coded asks

/-- R371: a load that reads its one piece leaves its bytes in the rafter store. -/
theorem State.endLoad_loaded {v : State} {far far' : FarAns} {bs : List Byte} (read : r.readPiece lr p far = (bs, far', v))
    (length : bs.length = p.len) (rest : r.ReadTo v) (canon : v.Canon) :
    s.Loaded (((r.endLoad lr l far).markBusy).settle lr none) lr x.near bs (sigOf w0) := by
  have pieces : r.readPieces lr far l.pieces [] = (bs, true, v) := by
    rw [asks.pieces]
    exact State.readPieces_one read length
  obtain ⟨_, _, _, _, _, form⟩ := rest.form
  have streams : v.Streams lr l.sig := by
    rw [asks.sig]
    exact (coded.streams st).move canon (by rw [form]; exact (coded.streams st).quiet) (by rw [form]; rfl)
  have loaded := State.endLoad_whole pieces streams asks.normal asks.save
  rw [asks.near, asks.sig] at loaded
  obtain ⟨rafts, regs, back⟩ := coded.form
  obtain ⟨pc, event⟩ := State.seqView_fields coded.view
  have rstore : v.rstore = s.rstore := by rw [form, back]
  refine ⟨loaded.bytes, fun b hb => (loaded.other b hb).trans (by rw [rstore]), loaded.hbm.trans (by rw [form, back]),
    loaded.loft.trans (by rw [form, back]), loaded.written, loaded.pc.trans ?_, fun ev hev => (loaded.signal ev hev).trans ?_⟩
  · rw [← pc, form]
    rfl
  · rw [← event, form]
    rfl

/-- R375: a load of the normal class that the host does not answer, outside every weight source range, fails the course. -/
theorem State.endLoad_fails {v : State} {far far' : FarAns} (read : r.readPiece lr p far = ([], far', v)) (some : 0 < p.len)
    (host : p.tier = 3) (weight : s.weightSource x.tier x.far x.n = none) (rest : r.ReadTo v) (canon : v.Canon) :
    (((r.endLoad lr l far).markBusy).settle lr none).working = none ∧
      (((r.endLoad lr l far).markBusy).settle lr none).getF Reg.CRS_LAST.STATUS = 0x83 := by
  have pieces : r.readPieces lr far l.pieces [] = ([], false, v) := by
    rw [asks.pieces]
    exact State.readPieces_short read some
  obtain ⟨plain, alt⟩ := asks.plain weight
  obtain ⟨_, _, _, _, _, form⟩ := rest.form
  have working : v.working.isNone = false := by
    rw [State.working_congr (by rw [form] : v.course = r.course)]
    exact (coded.streams st).working
  obtain ⟨c, alive⟩ := State.working_isNone_some working
  obtain ⟨running, alive⟩ := State.working_some alive
  have nothing : v.deliver lr l.near [] false = v := rfl
  have status : tierStatus [p] = 0x83 := by simp [tierStatus, host]
  have ended : r.endLoad lr l far = v.failCourse 0x83 := by
    unfold State.endLoad
    rw [pieces]
    dsimp only
    rw [working, if_neg Bool.false_ne_true, asks.save, asks.normal, plain, if_neg Bool.false_ne_true, if_pos rfl, State.endBadly, asks.normal,
      State.loadFailed, alt, plain, asks.pieces, status]
    simp only [Bool.not_true, Option.isSome_none, Bool.or_self, Bool.false_eq_true, if_false]
    rw [nothing]
  have failed := State.failCourse_fields canon 0x83 running alive
  have dead : (v.failCourse 0x83).working = none := State.working_failed (congrArg Prod.fst (State.failCourse_parts 0x83 running alive)) rfl
  obtain ⟨course, busy, same⟩ := (v.failCourse 0x83).markBusy_next
  rw [dead] at same
  have stays : (v.failCourse 0x83).markBusy.settle lr none = (v.failCourse 0x83).markBusy := by
    rw [State.settle, same]
    rfl
  rw [ended, stays]
  refine ⟨Option.isNone_iff_eq_none.1 same, ?_⟩
  rw [busy]
  exact failed.status

end

theorem State.readPiece_hbm {s : State} (quiet : s.inj = none) {a n : Nat} (clean : ∀ q ∈ sectorsOf a n, s.sectorState q = .clean)
    (canon : s.Canon) (lr : Nat) (far : FarAns) : ∃ v, s.readPiece lr ⟨2, a, n⟩ far = (s.hbm.bytes a n, far, v) ∧ s.ReadTo v ∧ v.Canon := by
  obtain ⟨v, read, rest⟩ := State.readHbm_clean clean
  have canon' : (s.readHbm a n).2.Canon := (State.readHbm_kept _ _ _ ⟨canon, rfl, rfl⟩).canon
  rw [read] at canon'
  refine ⟨v, ?_, rest, canon'⟩
  unfold State.readPiece
  rw [State.crossBridges_none quiet]
  dsimp only
  rw [read]
  rfl

theorem State.readPiece_loft {s : State} (quiet : s.inj = none) (lr a n : Nat) (far : FarAns) :
    s.readPiece lr ⟨1, a, n⟩ far = (s.loft.bytes (lr / 8 * loftSize + a) n, far, s) := by
  unfold State.readPiece
  rw [State.crossBridges_none quiet]
  rfl

theorem State.readPiece_host {s : State} (quiet : s.inj = none) (canon : s.Canon) (off : s.getF Reg.HIF_CTRL.COH_MODE = 0) {a n : Nat}
    {bs : List Byte} (length : bs.length = n) (access : (s.aptAccess false false (aptPieces a n) []).1 ≠ none) (lr : Nat) :
    ∃ far' v, s.readPiece lr ⟨3, a, n⟩ (.data bs) = (bs, far', v) ∧ s.ReadTo v ∧ v.Canon := by
  obtain ⟨v, load, rest⟩ := State.aptLoad_delivers canon off length access
  have canon' : (s.aptLoad a n (.data bs)).2.Canon := (State.aptLoad_kept _ _ _ _ ⟨canon, rfl, rfl⟩).canon
  rw [load] at canon'
  refine ⟨.data (bs.drop n), v, ?_, rest, canon'⟩
  unfold State.readPiece
  rw [State.crossBridges_none quiet]
  dsimp only [State.readHost]
  rw [length, Nat.min_self, load]
  dsimp only
  rw [if_neg (Nat.lt_irrefl n)]
  rfl

theorem State.readPiece_lost {s : State} (quiet : s.inj = none) (canon : s.Canon) (lr a n : Nat) :
    ∃ v, s.readPiece lr ⟨3, a, n⟩ .error = ([], .error, v) ∧ s.ReadTo v ∧ v.Canon := by
  refine ⟨(s.aptLoad a n .error).2, ?_, ?_, (State.aptLoad_kept _ _ _ _ ⟨canon, rfl, rfl⟩).canon⟩
  · unfold State.readPiece
    rw [State.crossBridges_none quiet]
    rfl
  · have read := s.readTo_aptAccess false true (aptPieces a n) []
    dsimp only [State.aptLoad]
    rw [decide_eq_true rfl]
    generalize s.aptAccess false true (aptPieces a n) [] = r at read ⊢
    obtain ⟨got, v⟩ := r
    cases got <;> exact read

section
variable {s : State} {lr : Nat} {w0 w1 : W64} {c : Course} {x : StF} (up : s.coreUp) (may : s.mayIssue lr w0 w1 = some c)
  (st : s.Streams lr (sigOf w0)) (sound : s.badStore = []) (opcode : opcodeOf w0 = 0x20) (formed : wellFormedWords 0x20 w0 w1 = true)
  (fields : x = stFields w0 w1) (normal : x.cls = 0) (outside : s.inSave x.tier x.far = false) (within : inStore (x.near, x.n) = true)
  (room : s.farBad x.tier x.far x.n = false)
include up may st sound opcode formed fields normal outside within room

theorem execStLoad_hbm {a : Nat} (tier : x.tier = 2) (one : s.pieces c 2 x.far x.n false = [⟨2, a, x.n⟩])
    (clean : ∀ q ∈ sectorsOf a x.n, s.sectorState q = .clean) (far : FarAns) :
    ∃ t, exec (.stLoad lr w0 w1 far) s = .next t ∧ s.Loaded t lr x.near (s.hbm.bytes a x.n) (sigOf w0) := by
  obtain ⟨r, l, m, coded, rafts, asks, run⟩ := execStLoad_runs up may st sound opcode formed fields normal outside within room
    (by rw [tier]; decide) (fun no => by rw [tier] at no; cases no) (by rw [tier]; exact one) (by simp)
  have hbm : r.hbm = s.hbm := by rw [rafts]; rfl
  obtain ⟨v, read, rest, canon⟩ := State.readPiece_hbm (coded.streams st).quiet (a := a) (n := x.n) (by rw [rafts]; exact clean) coded.canon lr far
  rw [hbm] at read
  exact ⟨_, run far, State.endLoad_loaded st coded asks read (Memory.length_bytes _ _ _) rest canon⟩

theorem execStLoad_loft (tier : x.tier = 1) (written : s.loftOk (lr / 8) x.far x.n = true) (far : FarAns) :
    ∃ t, exec (.stLoad lr w0 w1 far) s = .next t ∧
      s.Loaded t lr x.near (s.loft.bytes (lr / 8 * loftSize + x.far) x.n) (sigOf w0) := by
  have some : 0 < x.n := by rw [fields]; exact stFields_n w0 w1
  have one : s.pieces c x.tier x.far x.n false = [⟨1, x.far, x.n⟩] := by
    rw [State.pieces, outside, tier]
    simp [piecesOf, Nat.ne_of_gt some]
  obtain ⟨r, l, m, coded, rafts, asks, run⟩ := execStLoad_runs up may st sound opcode formed fields normal outside within room
    (by rw [tier]; decide) (fun _ => written) one (by simp)
  have loft : r.loft = s.loft := by rw [rafts]; rfl
  have read := State.readPiece_loft (coded.streams st).quiet lr x.far x.n far
  rw [loft] at read
  exact ⟨_, run far, State.endLoad_loaded st coded asks read (Memory.length_bytes _ _ _) (.refl r) coded.canon⟩

theorem execStLoad_host {a : Nat} {bs : List Byte} (tier : x.tier = 3) (one : s.pieces c 3 x.far x.n false = [⟨3, a, x.n⟩])
    (length : bs.length = x.n) (off : s.getF Reg.HIF_CTRL.COH_MODE = 0) (access : (s.aptAccess false false (aptPieces a x.n) []).1 ≠ none) :
    ∃ t, exec (.stLoad lr w0 w1 (.data bs)) s = .next t ∧ s.Loaded t lr x.near bs (sigOf w0) := by
  obtain ⟨r, l, m, coded, rafts, asks, run⟩ := execStLoad_runs up may st sound opcode formed fields normal outside within room
    (by rw [tier]; decide) (fun no => by rw [tier] at no; cases no) (by rw [tier]; exact one) (by simp)
  have translates : (r.aptAccess false false (aptPieces a x.n) []).1 ≠ none := by
    rw [rafts, State.withRafts_aptAccess]
    exact access
  obtain ⟨far, v, read, rest, canon⟩ :=
    State.readPiece_host (coded.streams st).quiet coded.canon (by rw [rafts]; exact off) length translates lr
  exact ⟨_, run _, State.endLoad_loaded st coded asks read length rest canon⟩

theorem execStLoad_lost {a : Nat} (tier : x.tier = 3) (one : s.pieces c 3 x.far x.n false = [⟨3, a, x.n⟩])
    (weight : s.weightSource 3 x.far x.n = none) :
    ∃ t, exec (.stLoad lr w0 w1 .error) s = .next t ∧ t.working = none ∧ t.getF Reg.CRS_LAST.STATUS = 0x83 := by
  have some : 0 < x.n := by rw [fields]; exact stFields_n w0 w1
  obtain ⟨r, l, m, coded, rafts, asks, run⟩ := execStLoad_runs up may st sound opcode formed fields normal outside within room
    (by rw [tier]; decide) (fun no => by rw [tier] at no; cases no) (by rw [tier]; exact one) (by simp)
  obtain ⟨v, read, rest, canon⟩ := State.readPiece_lost (coded.streams st).quiet coded.canon lr a x.n
  exact ⟨_, run _, State.endLoad_fails st coded asks read some rfl (by rw [tier]; exact weight) rest canon⟩

end

/-- Settles O47: each clause by the bytes that its instruction stores or loads, as the lemmas on them give them. -/
theorem streamerMovesBytes : Obligations.StreamerMovesBytes := by
  intro s lr w0 w1 c x far up canon quiet may ahead down main rising room fields badStore badAcc outside normal _
  have st : s.Streams lr (sigOf w0) := by
    refine ⟨canon, quiet, State.working_isNone (State.mayIssue_some may), main, down, ahead, rising, fun ev hev => ?_⟩
    cases en : sigEn w0 with
    | true =>
      rw [sigOf_some en, Option.some.injEq] at hev
      exact hev ▸ room en
    | false => rw [sigOf_none en] at hev; cases hev
  have signalled {t : State} (h : ∀ ev, sigOf w0 = some ev → t.event lr ev = s.event lr ev + 1) (en : sigEn w0 = true) :
      t.event lr (sigEv w0) = s.event lr (sigEv w0) + 1 := h _ (sigOf_some en)
  refine ⟨fun opcode formed within far_ok => ⟨fun a tier one clean => ?_, fun tier written => ?_,
      fun a bs tier one answer length off access => ?_, fun a tier one weight =>
      execStLoad_lost up may st badStore opcode formed fields normal outside within far_ok tier one weight⟩,
    fun opcode formed tier plain within written far_ok =>
      execStStore_loft up may st fields normal outside badStore opcode formed tier plain within written far_ok far,
    fun opcode formed tier => ⟨fun a plain within written far_ok one below => ?_,
      fun a d comp head headOk desc within written codes sec coded kept one below => ?_⟩,
    fun opcode formed tier => ⟨fun none far_ok => execStDrain_missing up may fields normal outside opcode formed tier none far_ok far,
      fun g a bs tile shape far_ok drained kept one below => ?_, fun g tile other far_ok =>
      execStDrain_shape up may fields normal outside opcode formed tier tile other far_ok far⟩⟩
  · obtain ⟨t, run, bytes, other, hbm, -, ok, pc, signal⟩ :=
      execStLoad_hbm up may st badStore opcode formed fields normal outside within far_ok tier one clean far
    rw [Memory.length_bytes] at bytes other ok
    exact ⟨t, run, bytes, other, hbm, ok, pc, signalled signal⟩
  · obtain ⟨t, run, bytes, other, hbm, loft, ok, pc, signal⟩ :=
      execStLoad_loft up may st badStore opcode formed fields normal outside within far_ok tier written far
    rw [Memory.length_bytes] at bytes other ok
    exact ⟨t, run, bytes, other, loft, hbm, ok, pc, signalled signal⟩
  · obtain ⟨t, run, bytes, other, hbm, -, -, pc, -⟩ :=
      execStLoad_host up may st badStore opcode formed fields normal outside within far_ok tier one length off access
    rw [length] at bytes other
    exact ⟨t, answer ▸ run, bytes, other, hbm, pc⟩
  · obtain ⟨t, run, bytes, other, rstore, -, pc, signal⟩ :=
      execStStore_hbm up may st fields normal outside badStore opcode formed tier plain within written far_ok one below far
    have size : (s.rsRead lr x.near x.n).length = x.n := Memory.length_bytes _ _ _
    rw [size] at bytes other
    exact ⟨t, run, bytes, other, rstore, pc, signalled signal⟩
  · obtain ⟨t, run, stored, counted⟩ := execStStoreComp_hbm up may st fields normal outside badStore opcode formed tier comp head headOk desc
      within written codes coded kept one below far
    exact ⟨t, run, stored.bytes, stored.other, stored.rstore, counted.raw, counted.stored, counted.pass, counted.arm, stored.pc⟩
  · obtain ⟨t, run, stored, counted⟩ :=
      execStDrain_hbm up may st fields normal outside badAcc opcode formed tier tile shape far_ok drained kept one below far
    exact ⟨t, run, stored.bytes, stored.other, stored.acc, stored.rstore, stored.pc, signalled stored.signal, fun comp =>
      ⟨(counted comp).raw, (counted comp).stored, (counted comp).pass, (counted comp).arm⟩⟩

end Sys2Proof.Machine
end

section
/-! SUPPORT. FP32 arithmetic by exact values (R191 to R195): what the classes of codes decode to, when a result is NaN and which sign it has;
and the way of a BF16 code to FP32 and back (R198). -/

namespace Sys2Proof.Machine

/-! ### Classes of codes (R191, R193) -/

theorem isNan_iff {a : W32} : isNan a = true ↔ 0x7F800000 < a.toNat % 2 ^ 31 := decide_eq_true_iff
theorem isInf_iff {a : W32} : isInf a = true ↔ a.toNat % 2 ^ 31 = 0x7F800000 := decide_eq_true_iff
theorem isFin_iff {a : W32} : isFin a = true ↔ a.toNat % 2 ^ 31 < 0x7F800000 := decide_eq_true_iff
theorem isZero_iff {a : W32} : isZero a = true ↔ a.toNat % 2 ^ 31 = 0 := decide_eq_true_iff

theorem FV.of_nan {a : W32} (nan : isNan a = true) : FV.of a = .nan := by
  rw [isNan_iff] at nan
  have above : fmtInf 4 ≤ a.toNat % 2 ^ (fmtBits 4 - 1) := nan.le
  exact (if_pos above).trans (if_neg fun same => nan.ne' same.1)

theorem FV.of_inf {a : W32} (inf : isInf a = true) : FV.of a = .inf (a.getLsbD 31) := by
  rw [isInf_iff] at inf
  have above : fmtInf 4 ≤ a.toNat % 2 ^ (fmtBits 4 - 1) := inf.ge
  exact (if_pos above).trans (if_pos ⟨inf, by decide⟩)

theorem FV.of_subnormal {a : W32} (low : a.toNat % 2 ^ 31 < 2 ^ 23) :
    FV.of a = .num (a.getLsbD 31) (a.toNat % 2 ^ 31) (-149) := by
  have below : ¬fmtInf 4 ≤ a.toNat % 2 ^ (fmtBits 4 - 1) := (low.trans (by decide)).not_ge
  exact (if_neg below).trans (if_pos (Nat.div_eq_of_lt low))

theorem FV.of_normal {a : W32} (fin : isFin a = true) (high : 2 ^ 23 ≤ a.toNat % 2 ^ 31) :
    FV.of a = .num (a.getLsbD 31) (a.toNat % 2 ^ 31 % 2 ^ 23 + 2 ^ 23) (-149 + (a.toNat % 2 ^ 31 / 2 ^ 23 : Nat) - 1) := by
  have below : ¬fmtInf 4 ≤ a.toNat % 2 ^ (fmtBits 4 - 1) := (isFin_iff.mp fin).not_ge
  exact (if_neg below).trans (if_neg (Nat.div_pos high (Nat.two_pow_pos 23)).ne')

theorem FV.of_fin {a : W32} (fin : isFin a = true) : ∃ m e, FV.of a = .num (a.getLsbD 31) m e := by
  rcases lt_or_ge (a.toNat % 2 ^ 31) (2 ^ 23) with low | high
  · exact ⟨_, _, FV.of_subnormal low⟩
  · exact ⟨_, _, FV.of_normal fin high⟩

theorem FV.of_zero {a : W32} (zero : isZero a = true) : FV.of a = .num (a.getLsbD 31) 0 (-149) := by
  rw [isZero_iff] at zero
  rw [FV.of_subnormal (by omega), zero]

/-- A code is NaN, an infinity or finite. -/
theorem class_cases (a : W32) : isNan a = true ∨ isInf a = true ∨ isFin a = true := by
  rw [isNan_iff, isInf_iff, isFin_iff]
  omega

/-- The change of sign is exact (R192). -/
theorem FV.of_fneg (a : W32) : FV.of (fneg a) = (FV.of a).neg := by
  have sign : (fneg a).getLsbD 31 = !a.getLsbD 31 := by simp [fneg]
  have mag : (fneg a).toNat % 2 ^ (fmtBits 4 - 1) = a.toNat % 2 ^ (fmtBits 4 - 1) := by
    rw [fneg, BitVec.toNat_xor, Nat.xor_mod_two_pow]
    exact Nat.xor_zero _
  rw [FV.of, FV.of, decodeF, decodeF, mag, show (fneg a).toNat.testBit (fmtBits 4 - 1) = !a.toNat.testBit (fmtBits 4 - 1) from sign]
  split_ifs <;> rfl

/-! ### Results (R193, R194) -/

/-- The sign of a value; of NaN, `false`. -/
def FV.sign : FV → Bool
  | .nan => false
  | .inf s => s
  | .num s _ _ => s

theorem FV.sign_of {a : W32} (number : FV.of a ≠ .nan) : (FV.of a).sign = a.getLsbD 31 := by
  rcases class_cases a with nan | inf | fin
  · exact absurd (FV.of_nan nan) number
  · rw [FV.of_inf inf]; rfl
  · obtain ⟨m, e, value⟩ := FV.of_fin fin
    rw [value]; rfl

@[simp] theorem FV.to32_nan : FV.nan.to32 = 0x7FC00000 := rfl

/-- The code of a value that is no NaN: its sign bit above a magnitude that does not pass infinity's. -/
theorem FV.to32_toNat {v : FV} (number : v ≠ .nan) :
    ∃ mag ≤ 0x7F800000, v.to32.toNat = v.sign.toNat * 2 ^ 31 + mag := by
  have fits (s : Bool) {mag : Nat} (le : mag ≤ 0x7F800000) :
      (BitVec.ofNat 32 (signBit 4 s + mag)).toNat = s.toNat * 2 ^ 31 + mag := by
    cases s <;> simp [signBit, fmtBits] <;> omega
  cases v with
  | nan => exact absurd rfl number
  | inf s => exact ⟨_, le_rfl, fits s le_rfl⟩
  | num s m e => exact ⟨_, Nat.min_le_right _ _, fits s (Nat.min_le_right _ _)⟩

theorem FV.isNan_to32 {v : FV} : isNan v.to32 = true ↔ v = .nan := by
  refine ⟨fun nan => by_contra fun number => ?_, fun nan => nan ▸ rfl⟩
  obtain ⟨mag, le, code⟩ := FV.to32_toNat number
  rw [isNan_iff, code] at nan
  omega

theorem FV.ne_nan {v : FV} (number : isNan v.to32 = false) : v ≠ .nan := by
  rintro rfl
  exact Bool.false_ne_true number.symm

theorem FV.getLsbD_to32 {v : FV} (number : v ≠ .nan) : v.to32.getLsbD 31 = v.sign := by
  obtain ⟨mag, le, code⟩ := FV.to32_toNat number
  have high : v.to32.toNat / 2 ^ 31 = v.sign.toNat := by omega
  rw [BitVec.getLsbD, Nat.testBit_eq_decide_div_mod_eq, high]
  cases v.sign <;> rfl

/-- R193: the NaN that an operation produces is the canonical one. -/
theorem FV.to32_canonical {v : FV} (nan : isNan v.to32 = true) : v.to32 = 0x7FC00000 := by
  rw [FV.isNan_to32.mp nan, FV.to32_nan]

/-! ### Sums, products and quotients (R195) -/

theorem scaled_not (s : Bool) (m : Nat) (e q : Int) : scaled (!s) m e q = -scaled s m e q := by
  cases s <;> simp [scaled]

/-- A number and its negative sum to +0. -/
theorem FV.num_add_neg (s : Bool) (m : Nat) (e : Int) : (FV.num s m e).add (FV.num s m e).neg = .num false 0 e := by
  have cancel : scaled s m e e + scaled (!s) m e e = 0 := by rw [scaled_not, add_neg_cancel]
  rw [FV.neg, FV.add, min_self, cancel, Bool.and_not_self]
  rfl

theorem FV.inf_add_neg (s : Bool) : (FV.inf s).add (FV.inf s).neg = .nan := by cases s <;> rfl

theorem FV.sign_mul {x y : FV} (number : x.mul y ≠ .nan) : (x.mul y).sign = (x.sign != y.sign) := by
  cases x with
  | nan => exact absurd rfl number
  | inf a =>
    cases y with
    | nan => exact absurd rfl number
    | inf b => rfl
    | num b m e => exact congrArg FV.sign (if_neg fun zero => number (if_pos zero))
  | num a m e =>
    cases y with
    | nan => exact absurd rfl number
    | inf b => exact congrArg FV.sign (if_neg fun zero => number (if_pos zero))
    | num b n f => rfl

theorem FV.sign_div {x y : FV} (number : x.div y ≠ .nan) : (x.div y).sign = (x.sign != y.sign) := by
  cases x with
  | nan => exact absurd rfl number
  | inf a =>
    cases y with
    | nan => exact absurd rfl number
    | inf b => exact absurd rfl number
    | num b m e => rfl
  | num a m e =>
    cases y with
    | nan => exact absurd rfl number
    | inf b => rfl
    | num b n f =>
      rw [FV.div] at number ⊢
      split_ifs at number ⊢
      · exact absurd rfl number
      · rfl
      · rfl

/-- A NaN operand makes a NaN (R195), so the operands of a product that is a number are numbers. -/
theorem FV.mul_number {x y : FV} (number : x.mul y ≠ .nan) : x ≠ .nan ∧ y ≠ .nan :=
  ⟨by rintro rfl; exact number rfl, by rintro rfl; cases x <;> exact number rfl⟩

theorem FV.div_number {x y : FV} (number : x.div y ≠ .nan) : x ≠ .nan ∧ y ≠ .nan :=
  ⟨by rintro rfl; exact number rfl, by rintro rfl; cases x <;> exact number rfl⟩

theorem getLsbD_fmul {a b : W32} (number : isNan (fmul a b) = false) :
    (fmul a b).getLsbD 31 = (a.getLsbD 31 != b.getLsbD 31) := by
  have product : (FV.of a).mul (FV.of b) ≠ .nan := FV.ne_nan number
  obtain ⟨left, right⟩ := FV.mul_number product
  rw [fmul, FV.getLsbD_to32 product, FV.sign_mul product, FV.sign_of left, FV.sign_of right]

theorem getLsbD_fdiv {a b : W32} (number : isNan (fdiv a b) = false) :
    (fdiv a b).getLsbD 31 = (a.getLsbD 31 != b.getLsbD 31) := by
  have quotient : (FV.of a).div (FV.of b) ≠ .nan := FV.ne_nan number
  obtain ⟨left, right⟩ := FV.div_number quotient
  rw [fdiv, FV.getLsbD_to32 quotient, FV.sign_div quotient, FV.sign_of left, FV.sign_of right]

theorem fadd_fneg_fin {a : W32} (fin : isFin a = true) : fadd a (fneg a) = 0 := by
  obtain ⟨m, e, value⟩ := FV.of_fin fin
  rw [fadd, FV.of_fneg, value, FV.num_add_neg]
  rfl

theorem fadd_fneg_inf {a : W32} (inf : isInf a = true) : fadd a (fneg a) = 0x7FC00000 := by
  rw [fadd, FV.of_fneg, FV.of_inf inf, FV.inf_add_neg, FV.to32_nan]

theorem fdiv_inf_inf {a b : W32} (ha : isInf a = true) (hb : isInf b = true) : fdiv a b = 0x7FC00000 := by
  rw [fdiv, FV.of_inf ha, FV.of_inf hb]
  rfl

theorem fmul_inf_zero {a b : W32} (inf : isInf a = true) (zero : isZero b = true) : fmul a b = 0x7FC00000 := by
  rw [fmul, FV.of_inf inf, FV.of_zero zero]
  rfl

theorem fmul_zero_inf {a b : W32} (zero : isZero a = true) (inf : isInf b = true) : fmul a b = 0x7FC00000 := by
  rw [fmul, FV.of_zero zero, FV.of_inf inf]
  rfl

theorem fdiv_zero_zero {a b : W32} (ha : isZero a = true) (hb : isZero b = true) : fdiv a b = 0x7FC00000 := by
  rw [fdiv, FV.of_zero ha, FV.of_zero hb]
  rfl

/-! ### Maximum and minimum with a NaN (R195) -/

section
variable {a b : W32}

theorem fmax_nan_right (number : isNan a = false) (nan : isNan b = true) : fmax a b = a := by simp [fmax, number, nan]
theorem fmax_nan_left (nan : isNan a = true) (number : isNan b = false) : fmax a b = b := by simp [fmax, number, nan]
theorem fmax_nan_nan (left : isNan a = true) (right : isNan b = true) : fmax a b = 0x7FC00000 := by simp [fmax, left, right]
theorem fmin_nan_right (number : isNan a = false) (nan : isNan b = true) : fmin a b = a := by simp [fmin, number, nan]
theorem fmin_nan_left (nan : isNan a = true) (number : isNan b = false) : fmin a b = b := by simp [fmin, number, nan]
theorem fmin_nan_nan (left : isNan a = true) (right : isNan b = true) : fmin a b = 0x7FC00000 := by simp [fmin, left, right]

end

/-! ### BF16 widened and converted back (R198) -/

/-- A magnitude that is a multiple of the last place is its own rounding. -/
theorem rne_exact (k j : Nat) (e : Int) : rne (k * 2 ^ j) e (e + j) = k := by
  cases j with
  | zero => simp [rne]
  | succ j =>
    have above : ¬e + (j + 1 : Nat) ≤ e := by omega
    have places : (e + (j + 1 : Nat) - e).toNat = j + 1 := by omega
    have some : 0 < 2 ^ (j + 1) := Nat.two_pow_pos _
    simp only [rne, if_neg above, places, Nat.mul_mod_left, Nat.mul_div_cancel _ some]
    exact if_pos some

/-- The magnitude code of a value rounded at the place `q`. -/
theorem magCode_of_place {f m : Nat} {e q : Int} (nonzero : m ≠ 0)
    (place : max ((m.log2 : Int) + e - (fmtPrec f - 1 : Nat)) (fmtMin f) = q) :
    magCode f m e = (q - fmtMin f).toNat * 2 ^ (fmtPrec f - 1) + rne m e q := by
  rw [magCode, if_neg nonzero, place]

/-- A number `k` of eight bits at the place `p` of a BF16 code keeps its magnitude: `p` counts from the smallest place, and `k` has its
highest bit set above it. -/
theorem magCode_bf16 {k p : Nat} (fits : k < 2 ^ 8) (full : p = 0 ∨ 2 ^ 7 ≤ k) :
    magCode 3 (k * 2 ^ 16) (p - 149) = p * 2 ^ 7 + k := by
  rcases Nat.eq_zero_or_pos k with rfl | some
  · obtain rfl : p = 0 := by omega
    rfl
  · have nonzero : k * 2 ^ 16 ≠ 0 := by omega
    have top : (k * 2 ^ 16).log2 < 24 := (Nat.log2_lt nonzero).mpr (by omega)
    have bottom : p = 0 ∨ 23 ≤ (k * 2 ^ 16).log2 := full.imp_right fun le => (Nat.le_log2 nonzero).mpr (by omega)
    have place : max (((k * 2 ^ 16).log2 : Int) + (p - 149) - 7) (-133) = p - 149 + (16 : Nat) := by omega
    have steps : ((p : Int) - 149 + (16 : Nat) - fmtMin 3).toNat = p := by rw [show fmtMin 3 = -133 from rfl]; omega
    rw [magCode_of_place nonzero place, steps, rne_exact]
    rfl

theorem bfWide_mag (h : W16) : (bfWide h).toNat % 2 ^ 31 = h.toNat % 2 ^ 15 * 2 ^ 16 := by
  rw [bfWide, BitVec.toNat_ofNat]
  omega

theorem bfWide_sign (h : W16) : (bfWide h).getLsbD 31 = h.getLsbD 15 := by
  have high : h.toNat * 65536 % 2 ^ 32 / 2 ^ 31 = h.toNat / 2 ^ 15 := by omega
  rw [bfWide, BitVec.getLsbD, BitVec.getLsbD, BitVec.toNat_ofNat, Nat.testBit_eq_decide_div_mod_eq, Nat.testBit_eq_decide_div_mod_eq, high]

/-- The value of a finite BF16 code, widened: eight bits `k` at a place `p`, which together are its magnitude code. -/
theorem FV.of_bfWide {h : W16} (fin : h.toNat % 2 ^ 15 < 0x7F80) :
    ∃ k p : Nat, k < 2 ^ 8 ∧ (p = 0 ∨ 2 ^ 7 ≤ k) ∧ p * 2 ^ 7 + k = h.toNat % 2 ^ 15 ∧
      FV.of (bfWide h) = .num (h.getLsbD 15) (k * 2 ^ 16) (p - 149) := by
  have mag := bfWide_mag h
  rcases lt_or_ge (h.toNat % 2 ^ 15) (2 ^ 7) with low | high
  · refine ⟨h.toNat % 2 ^ 15, 0, by omega, .inl rfl, by omega, ?_⟩
    rw [FV.of_subnormal (by omega), mag, bfWide_sign]
    rfl
  · refine ⟨h.toNat % 2 ^ 15 % 2 ^ 7 + 2 ^ 7, h.toNat % 2 ^ 15 / 2 ^ 7 - 1, by omega, .inr (by omega), by omega, ?_⟩
    rw [FV.of_normal (isFin_iff.mpr (by omega)) (by omega), mag, bfWide_sign, FV.num.injEq]
    exact ⟨rfl, by omega, by omega⟩

/-- A BF16 code is its sign bit above its magnitude code. -/
theorem signBit_add_mag (h : W16) : signBit 3 (h.getLsbD 15) + h.toNat % 2 ^ 15 = h.toNat := by
  have low := h.isLt
  rw [BitVec.getLsbD, Nat.testBit_eq_decide_div_mod_eq, signBit, show fmtBits 3 - 1 = 15 from rfl]
  simp only [decide_eq_true_eq]
  split_ifs <;> omega

theorem encodeF_of_bfWide {h : W16} (number : isNan (bfWide h) = false) : encodeF 3 (FV.of (bfWide h)) = h.toNat := by
  rcases class_cases (bfWide h) with nan | inf | fin
  · exact absurd (number.symm.trans nan) Bool.false_ne_true
  · have mag : h.toNat % 2 ^ 15 = fmtInf 3 := by
      rw [isInf_iff, bfWide_mag] at inf
      exact Nat.eq_of_mul_eq_mul_right (Nat.two_pow_pos 16) inf
    rw [FV.of_inf inf, bfWide_sign, encodeF, ← mag, signBit_add_mag]
  · have mag : h.toNat % 2 ^ 15 < fmtInf 3 := by
      rw [isFin_iff, bfWide_mag] at fin
      exact Nat.lt_of_mul_lt_mul_right (a := 2 ^ 16) fin
    obtain ⟨k, p, fits, full, code, value⟩ := FV.of_bfWide mag
    rw [value, encodeF, magCode_bf16 fits full, code, min_eq_left mag.le, signBit_add_mag]

theorem bfNarrow_bfWide {h : W16} (number : isNan (bfWide h) = false) : bfNarrow (bfWide h) = h := by
  rw [bfNarrow, encodeF_of_bfWide number, BitVec.ofNat_toNat, BitVec.setWidth_eq]

/-! ### The statement -/

/-- Settles O37: by the exact values of the operands' classes, by the sign that a product and a quotient carry through their one rounding, and
by the BF16 codes' widened values, which round to themselves. -/
theorem arithmeticSpecialValues : Obligations.ArithmeticSpecialValues := by
  refine ⟨fun a b nan number => ⟨fmax_nan_right number nan, fmax_nan_left nan number, fmin_nan_right number nan, fmin_nan_left nan number⟩,
    fun a b left right => ⟨fmax_nan_nan left right, fmin_nan_nan left right⟩, by decide, by decide, by decide, by decide,
    fun a fin _ => fadd_fneg_fin fin, by decide, by decide, by decide,
    fun a b ha hb => ⟨fadd_fneg_inf ha, fdiv_inf_inf ha hb⟩,
    fun a b inf zero => ⟨fmul_inf_zero inf zero, fmul_zero_inf zero inf, fdiv_zero_zero zero zero⟩, fun a b r result nan => ?_,
    fun a b r result number => ?_, fun h => bfNarrow_bfWide⟩
  · rcases result with rfl | rfl | rfl <;> exact FV.to32_canonical nan
  · rcases result with rfl | rfl
    · exact getLsbD_fmul number
    · exact getLsbD_fdiv number

end Sys2Proof.Machine
end

section
/-! SUPPORT. The frame in which an instruction of a sheaf issues (R232, R242 to R244, R267), and what a write of D leaves of the sheaf. -/

namespace Sys2Proof.Machine

/-! ### The frame -/

/-- R238, R244, R268: what the answer of a thread instruction's body leaves of the state in which sheaf `g` of kernel `k` issues it. -/
def ThEff.leaves (s : State) (lr g : Nat) (k : Kernel) : ThEff → State
  | .bad codes => s.progError lr (lowest codes)
  | .leave => s.dropSheaf lr k g
  | .go t k' sh pc =>
    if t.working.isNone then t else if k.code.length ≤ pc then t.progError lr 0x91 else t.putSheaf lr k' { sh with pc := pc }

section
variable {s t : State} {c : Course} {lr g pc : Nat} {k k' : Kernel} {sh : Sheaf} (working : t.working = some c)
include working

/-- R244: the sheaf goes on within its program … -/
theorem ThEff.leaves_go (room : pc < k.code.length) :
    (ThEff.go t k' sh pc).leaves s lr g k = t.putSheaf lr k' { sh with pc := pc } := by
  rw [ThEff.leaves, State.working_isNone working, if_neg Bool.false_ne_true, if_neg (Nat.not_le.2 room)]

/-- … and past its last instruction the course ends with 0x91 (R243). -/
theorem ThEff.leaves_past (past : k.code.length ≤ pc) : (ThEff.go t k' sh pc).leaves s lr g k = t.progError lr 0x91 := by
  rw [ThEff.leaves, State.working_isNone working, if_neg Bool.false_ne_true, if_pos past]

end

theorem State.threadAt_some {s : State} {lr g op : Nat} {w : W64} {c : Course} {k : Kernel} {sh : Sheaf}
    (h : s.threadAt lr g op w = some (c, k, sh)) : s.working = some c ∧ sh.g = g := by
  unfold State.threadAt at h
  split at h
  · next working _ found =>
    split_ifs at h
    cases h
    have same := List.find?_some found
    exact ⟨working, of_decide_eq_true same⟩
  · cases h

/-- R267: with every register word whole, the check of the words read changes nothing. -/
theorem State.regCheck_sound {sh : Sheaf} (good : sh.bad = []) (s : State) (lr op : Nat) (w : W64) : s.regCheck lr op w sh = (s, sh) := by
  obtain ⟨g, pc, regs, active, stack, bad⟩ := sh
  cases good
  rfl

/-- R243, R268: a thread instruction that breaks a rule of its word ends the course with the lowest code. -/
theorem State.thread_broken {s : State} {lr g op : Nat} {w : W64} {c : Course} {k : Kernel} {sh : Sheaf}
    (next : s.threadAt lr g op w = some (c, k, sh)) (bad : broken (thCodes (regsOf k.regs) op w) ≠ [])
    (body : Course → Kernel → Sheaf → State → ThEff) :
    s.thread lr g op w body = s.progError lr (lowest (broken (thCodes (regsOf k.regs) op w))) := by
  rw [State.thread, State.progTie_none (State.fellNow_working (State.threadAt_some next).1), State.threadNow, next]
  exact if_pos (by simpa using bad)

/-! ### Operand B and the active threads -/

/-- R242: operand B of an opcode that reads IMM as an integer or not at all. -/
theorem opB_int {op : Nat} {w : W64} {u : ThUse} (use : thUse op w = some u) (imm : u.imm ≠ 1) (sh : Sheaf) (t : Nat) :
    opB op w sh t = sh.operandB w immInt t := by
  rw [opB, Sheaf.operandB, use]
  split
  · exact if_neg imm
  · rfl

/-- The active threads are those below 64 whose bit is set. -/
theorem Sheaf.mem_lives {sh : Sheaf} {t : Nat} : t ∈ sh.lives ↔ t < 64 ∧ sh.live t = true := by
  rw [Sheaf.lives, List.mem_filter, List.mem_range]

section
variable {s : State} {lr g op : Nat} {w : W64} {k : Kernel} {sh : Sheaf} (h : s.ThreadRuns lr g op w k sh)
include h

/-- R242 to R244: an instruction that breaks no rule of its word does what its body says. -/
theorem State.ThreadRuns.runs : ∃ c, s.working = some c ∧ ∀ body : Course → Kernel → Sheaf → State → ThEff,
    onCore (fun s => s.thread lr g op w body) s = .next ((body c k sh s).leaves s lr g k) := by
  obtain ⟨c, next⟩ := h.next
  obtain ⟨working, -⟩ := State.threadAt_some next
  refine ⟨c, working, fun body => (onCore_up _ s h.core).trans (congrArg _ ?_)⟩
  rw [State.thread, State.progTie_none (State.fellNow_working working), State.threadNow, next]
  dsimp only
  rw [h.sound, State.regCheck_sound h.good.2.2]
  dsimp only
  rw [State.working_isNone working]
  rfl

section
variable {body : Course → Kernel → Sheaf → State → ThEff} {sh' : Sheaf} {pc : Nat} (answer : ∀ c, body c k sh s = .go s k sh' pc)
include answer

/-- R244: the sheaf goes on at an instruction of its program … -/
theorem State.ThreadRuns.goes (room : pc < k.code.length) :
    onCore (fun s => s.thread lr g op w body) s = .next (s.putSheaf lr k { sh' with pc := pc }) := by
  obtain ⟨c, working, runs⟩ := h.runs
  rw [runs, answer, ThEff.leaves_go working room]

/-- … or at none, and the course ends with 0x91. -/
theorem State.ThreadRuns.goes_or_ends : onCore (fun s => s.thread lr g op w body) s =
    .next (if pc < k.code.length then s.putSheaf lr k { sh' with pc := pc } else s.progError lr 0x91) := by
  by_cases room : pc < k.code.length
  · rw [h.goes answer room, if_pos room]
  · obtain ⟨c, working, runs⟩ := h.runs
    rw [runs, answer, ThEff.leaves_past working (Nat.not_lt.1 room), if_neg room]

end

/-- R268: the body finds a rule broken. -/
theorem State.ThreadRuns.fails {body : Course → Kernel → Sheaf → State → ThEff} (answer : ∀ c, body c k sh s = .bad [0x91]) :
    onCore (fun s => s.thread lr g op w body) s = .next (s.progError lr 0x91) := by
  obtain ⟨c, -, runs⟩ := h.runs
  rw [runs, answer]
  rfl

/-! ### Operands and destination (R242) -/

section
variable {u : ThUse} (use : thUse op w = some u)
include use

theorem State.ThreadRuns.codes : thSub w ≤ u.subMax ∧ (thImmB w = true → u.imm ≠ 0) ∧ (u.d = true → thD w < regsOf k.regs) := by
  have sound := h.sound
  rw [thCodes, use] at sound
  have rules := broken_eq_nil sound
  simp only [List.mem_cons, List.not_mem_nil, or_false, forall_eq_or_imp, forall_eq, decide_eq_false_iff_not, Bool.and_eq_false_imp,
    Bool.or_eq_false_iff, Nat.not_lt, Nat.not_le] at rules
  obtain ⟨sub, -, imm, ⟨⟨dest, -⟩, -⟩, -⟩ := rules
  exact ⟨sub, imm, dest⟩

/-- R242: operand B of an opcode that reads IMM as FP32 bits or not at all. -/
theorem State.ThreadRuns.opB_float (imm : u.imm ≤ 1) (t : Nat) : opB op w sh t = sh.operandB w immFloat t := by
  obtain ⟨-, reads, -⟩ := h.codes use
  rw [opB, Sheaf.operandB, use]
  split
  · exact if_pos (by have := reads ‹_›; omega)
  · rfl

end

/-! ### The write of D (R232) -/

/-- R518: with no injection armed, D is written and nothing else. -/
theorem State.ThreadRuns.writeD_eq (f : Nat → W32) : writeD lr w k sh s f = .go s k (sh.write (thD w) f) (sh.pc + 1) := by
  rw [writeD, State.armed_none h.quiet]

/-- R232: register D of each active thread holds the value written, and every other register what it held. -/
theorem State.ThreadRuns.write_wrote (f : Nat → W32) (dest : thD w < regsOf k.regs) :
    sh.wrote { sh.write (thD w) f with pc := sh.pc + 1 } (thD w) f := by
  obtain ⟨count, width⟩ := h.threads
  refine ⟨rfl, rfl, rfl, rfl, ?_, fun t i thread => ?_⟩
  · rw [Sheaf.write, h.good.2.2]
    rfl
  · have row : sh.regs[t]? = some sh.regs[t] := List.getElem?_eq_getElem (by omega)
    have len : (sh.regs[t]).length = regsOf k.regs := width _ (List.getElem_mem _)
    simp only [Sheaf.reg, Sheaf.write, List.getD_eq_getElem?_getD, List.getElem?_map, List.getElem?_zipIdx, row, Option.map_some,
      Option.getD_some, Nat.zero_add]
    by_cases live : sh.live t = true
    · by_cases same : i = thD w
      · subst same
        simp [live, List.getElem?_set_self (l := sh.regs[t]) (show thD w < _ by omega)]
      · simp [live, same, List.getElem?_set_ne (Ne.symm same)]
    · simp [live]

end

end Sys2Proof.Machine
end

section
/-! SUPPORT. Thread instructions that compute D from A, B and C in each active thread (R193 to R195, R232, R242, R243, R248). -/

namespace Sys2Proof.Machine

/-! ### The instruction -/

/-- `f'` is the operation of the statement, and `f` that of the model, on the operands of each thread. -/
theorem State.ThreadRuns.alu_runs {s : State} {lr g op : Nat} {w : W64} {k : Kernel} {sh : Sheaf} {u : ThUse} (h : s.ThreadRuns lr g op w k sh)
    (room : sh.pc + 1 < k.code.length) (use : thUse op w = some u) (dest : u.d = true) (f : W32 → W32 → W32 → W32) {f' : Nat → W32}
    (same : ∀ t, f' t = f (sh.reg t (thA w)) (opB op w sh t) (sh.reg t (thC w))) :
    ∃ sh' : Sheaf, sh.wrote sh' (thD w) f' ∧ onCore (fun s => s.alu lr g op w f) s = .next (s.putSheaf lr k sh') := by
  obtain ⟨-, -, inside⟩ := h.codes use
  rw [funext same]
  exact ⟨_, h.write_wrote _ (inside dest), h.goes (fun _ => h.writeD_eq _) room⟩

/-! ### FP32, BF16, conversions and special functions -/

/-- R243: a difference is the sum with the operand's sign changed. -/
theorem fsub_eq (a b : W32) : fsub a b = fadd a (fneg b) := by
  rw [fadd, FV.of_fneg]
  rfl

theorem State.ThreadRuns.alu_float {s : State} {lr g op : Nat} {w : W64} {k : Kernel} {sh : Sheaf} {u : ThUse}
    (h : s.ThreadRuns lr g op w k sh) (room : sh.pc + 1 < k.code.length) (use : thUse op w = some u) (dest : u.d = true) (imm : u.imm ≤ 1)
    {f f' : W32 → W32 → W32 → W32} (same : ∀ a b c, f' a b c = f a b c) :
    ∃ sh' : Sheaf, sh.wrote sh' (thD w) (fun t => f' (sh.reg t (thA w)) (sh.operandB w immFloat t) (sh.reg t (thC w))) ∧
      onCore (fun s => s.alu lr g op w f) s = .next (s.putSheaf lr k sh') :=
  h.alu_runs room use dest f fun t => by rw [same, h.opB_float use imm]

/-- Settles O35: each opcode writes D by the operation that the model gives it, FSUB by the exact change of sign. -/
theorem threadArithmetic : Obligations.ThreadArithmetic := by
  intro s lr g w k sh x hx
  simp only [List.mem_cons, List.not_mem_nil, or_false] at hx
  obtain rfl | rfl | rfl | rfl | rfl | rfl | rfl | rfl | rfl | rfl | rfl | rfl | rfl | rfl | rfl | rfl | rfl | rfl | rfl | rfl | rfl := hx <;>
    intro h room
  case inr.inl => exact h.alu_float room rfl rfl (Nat.le_refl _) fun a b _ => (fsub_eq a b).symm
  all_goals exact h.alu_float room rfl rfl (by decide) fun _ _ _ => rfl

/-! ### Integers -/

theorem iadd_eq (a b : W32) : BitVec.ofNat 32 (a.toNat + b.toNat) = a + b := BitVec.eq_of_toNat_eq (by simp)

theorem imul_eq (a b : W32) : BitVec.ofNat 32 (a.toNat * b.toNat) = a * b := BitVec.eq_of_toNat_eq (by simp)

theorem shl_eq (a : W32) (n : Nat) : BitVec.ofNat 32 (a.toNat * 2 ^ n) = a <<< n := by
  apply BitVec.eq_of_toNat_eq
  rw [BitVec.toNat_ofNat, BitVec.toNat_shiftLeft, Nat.shiftLeft_eq]

theorem shr_eq (a : W32) (n : Nat) : BitVec.ofNat 32 (a.toNat / 2 ^ n) = a >>> n := by
  apply BitVec.eq_of_toNat_eq
  rw [BitVec.toNat_ofNat, BitVec.toNat_ushiftRight, Nat.shiftRight_eq_div_pow]
  exact Nat.mod_eq_of_lt ((Nat.div_le_self _ _).trans_lt a.isLt)

theorem sar_eq (a : W32) (n : Nat) : BitVec.ofInt 32 (a.toInt / 2 ^ n) = a.sshiftRight n := by
  rw [BitVec.sshiftRight, Int.shiftRight_eq_div_pow]
  norm_cast

theorem isub_eq (a b : W32) : BitVec.ofInt 32 (a.toNat - b.toNat) = a - b := by
  apply BitVec.eq_of_toInt_eq
  rw [BitVec.toInt_ofInt, BitVec.toInt_sub, BitVec.toInt_eq_toNat_bmod, BitVec.toInt_eq_toNat_bmod, ← Int.sub_bmod]

/-- R243: the four comparisons of ICMP. -/
theorem icmp_eq {sub : Nat} (known : sub ≤ 3) (a b : W32) :
    (if (sub = 0 ∧ a = b) ∨ (sub = 1 ∧ a.toInt < b.toInt) ∨ (sub = 2 ∧ a.toNat < b.toNat) ∨ (sub = 3 ∧ a ≠ b) then 1 else 0) =
      icmp sub a b := by
  obtain rfl | rfl | rfl | rfl : sub = 0 ∨ sub = 1 ∨ sub = 2 ∨ sub = 3 := by omega
  all_goals simp [icmp, BitVec.slt, BitVec.ult]

theorem State.ThreadRuns.alu_int {s : State} {lr g op : Nat} {w : W64} {k : Kernel} {sh : Sheaf} {u : ThUse}
    (h : s.ThreadRuns lr g op w k sh) (room : sh.pc + 1 < k.code.length) (use : thUse op w = some u) (dest : u.d = true) (imm : u.imm ≠ 1)
    {f f' : W32 → W32 → W32 → W32} (same : ∀ a b c, f' a b c = f a b c) :
    ∃ sh' : Sheaf, sh.wrote sh' (thD w) (fun t => f' (sh.reg t (thA w)) (sh.operandB w immInt t) (sh.reg t (thC w))) ∧
      onCore (fun s => s.alu lr g op w f) s = .next (s.putSheaf lr k sh') :=
  h.alu_runs room use dest f fun t => by rw [same, opB_int use imm]

/-- Settles O36: each opcode writes D by the operation that the model gives it on 32-bit words. -/
theorem threadIntegers : Obligations.ThreadIntegers := by
  intro s lr g w k sh x hx
  simp only [List.mem_cons, List.not_mem_nil, or_false] at hx
  obtain rfl | rfl | rfl | rfl | rfl | rfl | rfl | rfl | rfl | rfl | rfl | rfl := hx <;> intro h room
  · exact h.alu_int room rfl rfl (by decide) fun a b _ => iadd_eq a b
  · exact h.alu_int room rfl rfl (by decide) fun a b _ => isub_eq a b
  · exact h.alu_int room rfl rfl (by decide) fun a b _ => imul_eq a b
  · exact h.alu_int room rfl rfl (by decide) fun _ _ _ => rfl
  · exact h.alu_int room rfl rfl (by decide) fun _ _ _ => rfl
  · exact h.alu_int room rfl rfl (by decide) fun _ _ _ => rfl
  · exact h.alu_int room rfl rfl (by decide) fun a b _ => shl_eq a _
  · exact h.alu_int room rfl rfl (by decide) fun a b _ => shr_eq a _
  · exact h.alu_int room rfl rfl (by decide) fun a b _ => sar_eq a _
  · obtain ⟨known, -⟩ := h.codes (u := ⟨true, true, true, false, 3, 2⟩) rfl
    exact h.alu_int room rfl rfl (by decide) fun a b _ => icmp_eq known a b
  · exact h.alu_int room rfl rfl (by decide) fun a b c => (ite_not (c = 0) a b).symm
  · exact h.alu_int room rfl rfl (by decide) fun _ _ _ => rfl

end Sys2Proof.Machine
end

section
/-! SUPPORT. The control instructions of a sheaf, its end, and the program errors of its flow (R232, R238, R243, R244, R268). -/

namespace Sys2Proof.Machine

/-- R243: a thread opcode that is reserved breaks 0x90. -/
theorem thCodes_reserved {op : Nat} {w : W64} (reserved : thUse op w = none) (regs : Nat) : broken (thCodes regs op w) = [0x90] := by
  rw [thCodes, reserved]
  rfl

/-- R244: after an IF the threads active before whose A is not 0. -/
theorem Sheaf.live_ifPush (sh : Sheaf) (w : W64) {t : Nat} (thread : t < 64) :
    (sh.ifPush w).live t = (sh.live t && decide (sh.reg t (thA w) ≠ 0)) :=
  getD_map_range (fun t => sh.live t && decide (sh.reg t (thA w) ≠ 0)) false thread

/-- R244: the sheaf after an ELSE, `a` being the bits pushed … -/
def Sheaf.flipped (sh : Sheaf) (a : List Bool) : Sheaf := { sh with active := (a.zip sh.active).map fun x => x.1 && !x.2 }

/-- … has the threads of `a` active that were not. -/
theorem Sheaf.live_flipped {sh : Sheaf} {a : List Bool} {t : Nat} (pushed : t < a.length) (bits : t < sh.active.length) :
    (sh.flipped a).live t = (a.getD t false && !sh.live t) := by
  simp [Sheaf.live, Sheaf.flipped, List.getD_eq_getElem?_getD, pushed, bits]

/-- Settles O38: each instruction by its body, within the program or past its end. -/
theorem threadControlFlow : Obligations.ThreadControlFlow := by
  intro s lr g w k sh
  refine ⟨fun h => h.goes_or_ends (fun _ => rfl), fun h => ?_, fun h => h.goes_or_ends (fun _ => rfl), fun h taken room => ?_,
    fun h idle room => ?_, fun h room => ⟨fun free => ?_, fun full => ?_⟩, fun h room => ⟨fun a rest pushed len => ?_, fun empty => ?_⟩,
    fun h room => ⟨fun a rest pushed => ?_, fun empty => ?_⟩, fun c up next reserved => ?_⟩
  · obtain ⟨c, -, runs⟩ := h.runs
    exact runs _
  · obtain ⟨t, thread, live, nonzero⟩ := taken
    have jumps : (sh.lives.any fun t => decide (sh.reg t (thA w) ≠ 0)) = true :=
      List.any_eq_true.2 ⟨t, Sheaf.mem_lives.2 ⟨thread, live⟩, decide_eq_true nonzero⟩
    exact h.goes (fun _ => congrArg (ThEff.go s k sh) (if_pos jumps)) room
  · have stays : ¬(sh.lives.any fun t => decide (sh.reg t (thA w) ≠ 0)) = true := by
      rw [List.any_eq_true]
      rintro ⟨t, active, nonzero⟩
      obtain ⟨thread, live⟩ := Sheaf.mem_lives.1 active
      exact of_decide_eq_true nonzero (idle t thread live)
    exact h.goes (fun _ => congrArg (ThEff.go s k sh) (if_neg stays)) room
  · exact ⟨{ sh.ifPush w with pc := sh.pc + 1 }, h.goes (fun _ => if_neg (Nat.not_le.2 free)) room, rfl, rfl, rfl, rfl,
      fun t thread => sh.live_ifPush w thread⟩
  · exact h.fails fun _ => if_pos full
  · exact ⟨{ sh.flipped a with pc := sh.pc + 1 }, h.goes (sh' := sh.flipped a) (fun _ => by rw [Sheaf.flipped, pushed]) room, rfl, rfl, rfl, rfl,
      fun t thread => Sheaf.live_flipped (by omega) (by rw [h.bits]; exact thread)⟩
  · exact h.fails fun _ => by rw [empty]
  · exact h.goes (sh' := { sh with active := a, stack := rest }) (fun _ => by rw [pushed]) room
  · exact h.fails fun _ => by rw [empty]
  · have codes := thCodes_reserved reserved (regsOf k.regs)
    have ends : exec (.reservedThreadOpcode lr g w) s = .next (reservedThread lr g w s) := onCore_up _ s up
    rw [ends, reservedThread, reserved, if_neg (by decide), State.thread_broken next (by rw [codes]; exact List.cons_ne_nil _ _), codes]
    rfl

end Sys2Proof.Machine
end

section
/-! SUPPORT. VX.KERNEL, the sheafs of a kernel as they become resident, and its end (R232, R233, R235, R236, R238, R240). -/

namespace Sys2Proof.Machine

/-! ### An instruction that writes to the rafter store (R170, R375) -/

/-- R375: with no load listed there is none to forget. -/
theorem State.dropUnread_idle {s : State} {lr : Nat} (rising : SMap.rising s.rafts = true) (ahead : (s.raft lr).ahead = [])
    (wr : List (Nat × Nat)) :
    ∃ m, s.dropUnread lr wr = s.withRafts m ∧ SMap.rising m = true ∧ SMap.look Raft.fresh lr m = s.raft lr := by
  by_cases none : wr.isEmpty = true
  · exact ⟨s.rafts, if_pos none, rising, rfl⟩
  · have same : { s.raft lr with ahead := [] } = s.raft lr := by rw [← ahead]
    refine ⟨(s.setRaft lr (s.raft lr)).rafts, (if_neg none).trans ?_, State.setRaft_rising lr _ rising, State.raft_setRaft lr _ rising⟩
    dsimp only
    rw [ahead, List.filter_nil, same]
    rfl

/-- R170, R183: with no load listed and no stored word in error, an instruction does what its body says. -/
theorem State.issue_idle {s : State} {lr op : Nat} {w0 w1 : W64} {c : Course} (may : s.mayIssue lr w0 w1 = some c) (opcode : opcodeOf w0 = op)
    (formed : wellFormedWords op w0 w1 = true) (ahead : (s.raft lr).ahead = []) (sound : s.badStore = []) (rd wr : List (Nat × Nat))
    (body : Course → State → Eff) :
    s.issue lr op w0 w1 rd wr body = (body c (s.dropUnread lr wr)).leaves s (s.dropUnread lr wr) lr w0 :=
  State.issue_runs may opcode formed (by simp [Raft.loading, Raft.sourcing, ahead]) (by simp [Raft.unread, ahead])
    (State.storeCheck_sound sound lr rd) body

/-! ### VX.KERNEL (R235, R236) -/

/-- R235, R236: the kernel of a VX.KERNEL whose code fills `n` instructions from `a`, with parameters `p`. -/
def State.kernelOf (s : State) (lr : Nat) (w0 : W64) (a n : Nat) (p : List Byte) : Kernel :=
  ⟨wbits w0 37 1 = 1, wbits w0 38 2, wbits w0 40 16, words64 n (s.rsRead lr a (8 * n)), p, List.range 16, 0, [], w0, []⟩

/-- R231: instruction `i` of a kernel's code. -/
theorem words64_getElem (s : State) (lr a : Nat) {i n : Nat} (h : i < n) :
    (words64 n (s.rsRead lr a (8 * n)))[i]? = some (BitVec.ofNat 64 (leNat (s.rsRead lr (a + 8 * i) 8))) := by
  have part : ((s.rsRead lr a (8 * n)).drop (8 * i)).take 8 = s.rsRead lr (a + 8 * i) 8 := by
    apply List.ext_getElem
    · simp [State.rsRead, Memory.bytes]
      omega
    · intro j _ _
      simp [State.rsRead, Memory.bytes, Nat.add_assoc]
  rw [words64, List.getElem?_map, List.getElem?_range h, Option.map_some, part]

/-- R235, R236: a VX.KERNEL that breaks no rule starts its kernel, with no sheaf resident. -/
theorem execVxKernel_starts {s : State} {lr : Nat} {w0 w1 : W64} {c : Course} {a n q : Nat} {p : List Byte} (up : s.coreUp)
    (rising : SMap.rising s.rafts = true) (may : s.mayIssue lr w0 w1 = some c) (sound : s.badStore = []) (opcode : opcodeOf w0 = 0x40)
    (formed : wellFormedWords 0x40 w0 w1 = true) (ahead : (s.raft lr).ahead = []) (ha : a = wbits w1 0 19 * 64) (hn : n = wbits w1 19 11 + 1)
    (hq : q = wbits w1 30 19 * 64) (hp : p = s.rsRead lr q 256)
    (codes : broken (s.rangeCodes lr [(a, 8 * n), (q, 256)]) = []) (good : paramOk p = true) (tidA : s.badTid c (paramTidA p) = false)
    (tidB : s.badTid c (paramTidB p) = false) :
    ∃ t : State, exec (.vxKernel lr w0 w1) s = .next t ∧ t.raft lr = { s.raft lr with kernel := some (s.kernelOf lr w0 a n p), sheafs := [] } ∧
      { t with rafts := s.rafts } = s := by
  subst ha hn hq
  obtain ⟨m, dropped, order, look⟩ := State.dropUnread_idle rising ahead [paramWr p]
  refine ⟨(s.withRafts m).setRaft lr { s.raft lr with kernel := some (s.kernelOf lr w0 _ _ p), sheafs := [] }, ?_,
    State.raft_setRaft lr _ order, rfl⟩
  rw [show exec (.vxKernel lr w0 w1) s = .next (vxKernel lr w0 w1 s) from onCore_up _ s up, vxKernel]
  dsimp only
  rw [← hp, State.issue_idle may opcode formed ahead sound, dropped, checked_sound, Eff.leaves]
  · rw [show (s.withRafts m).raft lr = s.raft lr from look]
    rfl
  · rw [broken_append, show broken ((s.withRafts m).rangeCodes lr _) = [] from codes,
      show (s.withRafts m).badTid c (paramTidA p) = false from tidA, show (s.withRafts m).badTid c (paramTidB p) = false from tidB, good]
    simp [broken]

/-! ### Sheafs become resident (R233, R238) -/

/-- R238: sheaf `g` is the next of its quad, and a slot of the quad is free. -/
abbrev SheafFree (s : State) (lr g : Nat) (k : Kernel) : Prop :=
  g ≤ k.sheafs ∧ k.nextG.getD (g % 16) 0 = g ∧ ((s.raft lr).sheafs.filter fun h => h.g % 16 = g % 16).length < 128 / 2 ^ k.regs

theorem sheafResident_eq {s : State} {lr : Nat} {c : Course} {k : Kernel} (working : s.working = some c)
    (kernel : (s.raft lr).kernel = some k) (g : Nat) : sheafResident lr g s =
      if SheafFree s lr g k then s.setRaft lr { s.raft lr with
        kernel := some { k with nextG := k.nextG.set (g % 16) (g + 16) }
        sheafs := (s.raft lr).sheafs ++ [Sheaf.fresh g (regsOf k.regs)] } else s := by
  rw [sheafResident, State.working_isNone working, if_neg Bool.false_ne_true]
  dsimp only
  rw [kernel]
  rfl

/-! ### The end of a kernel (R240) -/

/-- R213, R216, R224: watch counters added change the counters, the largest values and the vote. -/
theorem State.addWatch_next (s : State) (x : Nat × Watch × W32) : ∃ watch amax vote nonfin,
    s.addWatch x = { s with watch := watch, amax := amax, stepVote := vote, stepNonfin := nonfin } := by
  unfold State.addWatch
  split
  · exact ⟨_, _, _, _, rfl⟩
  · dsimp only [State.castVote]
    split
    · exact ⟨_, _, _, _, rfl⟩
    · exact ⟨_, _, _, _, rfl⟩

theorem State.each_addWatch (s : State) (xs : List (Nat × Watch × W32)) : ∃ watch amax vote nonfin,
    s.each xs State.addWatch = { s with watch := watch, amax := amax, stepVote := vote, stepNonfin := nonfin } := by
  induction xs generalizing s with
  | nil => exact ⟨_, _, _, _, rfl⟩
  | cons x xs ih =>
    obtain ⟨_, _, _, _, first⟩ := s.addWatch_next x
    obtain ⟨_, _, _, _, rest⟩ := ih (s.addWatch x)
    exact ⟨_, _, _, _, (rest.trans (by rw [first]) :)⟩

/-- R170, R240: the last sheaf has ended: the counters are added, and the rafter goes on past its VX.KERNEL. -/
theorem kernelDone_ends {s : State} {lr : Nat} {k : Kernel} {c : Course} (rising : SMap.rising s.rafts = true) (working : s.working = some c)
    (kernel : (s.raft lr).kernel = some k) (ended : k.ended = k.sheafs + 1) (silent : sigEn k.w0 = false) (main : (s.raft lr).seg = none) :
    ∃ m, kernelDone lr s = (s.each k.watch State.addWatch).withRafts m ∧
      SMap.look Raft.fresh lr m = { s.raft lr with kernel := none, sheafs := [], pc := (s.raft lr).pc + 1, spliced := [] } := by
  obtain ⟨_, _, _, _, counted⟩ := s.each_addWatch k.watch
  have order : SMap.rising (s.each k.watch State.addWatch).rafts = true := by rw [counted]; exact rising
  have still : (s.each k.watch State.addWatch).working = some c := by
    rw [State.working_congr (s := s) (by rw [counted])]
    exact working
  have ends : kernelDone lr s =
      ((s.each k.watch State.addWatch).setRaft lr { s.raft lr with kernel := none, sheafs := [] }).settle lr (sigOf k.w0) := by
    rw [kernelDone, State.working_isNone working, if_neg Bool.false_ne_true]
    dsimp only
    rw [kernel]
    exact if_pos ended
  rw [ends]
  clear ends counted
  generalize s.each k.watch State.addWatch = u at order still
  have raft := State.raft_setRaft (s := u) lr { s.raft lr with kernel := none, sheafs := [] } order
  have order' := State.setRaft_rising (s := u) lr { s.raft lr with kernel := none, sheafs := [] } order
  refine ⟨_, ?_, State.raft_setRaft lr _ order'⟩
  rw [sigOf_none silent, State.settle_silent (s := u.setRaft lr _) still, State.advance_plain (by rw [raft]; exact main), raft]
  rfl

/-- Settles O40: the start of a kernel by its checks, the sheafs by the guard of their slot, and its end by the counters added. -/
theorem kernelsRunTheirSheafs : Obligations.KernelsRunTheirSheafs := by
  intro s lr up rising
  refine ⟨fun w0 w1 c may sound opcode formed ahead p hp code par codeOk parOk good tidA tidB => ?_, fun k g c working kernel _ => ?_,
    fun k c working kernel => ⟨fun more => ?_, fun ended silent main => ?_⟩⟩
  · have codes : broken (s.rangeCodes lr [(wbits w1 0 19 * 64, 8 * (wbits w1 19 11 + 1)), (wbits w1 30 19 * 64, 256)]) = [] := by
      simp [broken, State.rangeCodes, inStore, code, par, codeOk, parOk]
    obtain ⟨t, run, raft, rest⟩ := execVxKernel_starts up rising may sound opcode formed ahead rfl rfl rfl hp codes good tidA tidB
    refine ⟨t, _, run, raft, rest, rfl, rfl, rfl, rfl, rfl, rfl, decide_eq_true_iff, by simp [State.kernelOf, words64], fun i hi => ?_⟩
    exact words64_getElem s lr _ (Nat.lt_succ_of_le hi)
  · rw [show exec (.sheafResident lr g) s = .next (sheafResident lr g s) from onCore_up _ s up, sheafResident_eq working kernel g]
    by_cases free : SheafFree s lr g k
    · rw [if_pos free]
      exact congrArg _ (if_pos free)
    · rw [if_neg free]
      exact congrArg _ (if_neg free)
  · have run : exec (.kernelDone lr) s = .next (kernelDone lr s) := onCore_up _ s up
    rw [run, kernelDone, State.working_isNone working, if_neg Bool.false_ne_true]
    dsimp only
    rw [kernel]
    exact congrArg _ (if_neg more)
  · obtain ⟨m, done, raft⟩ := kernelDone_ends rising working kernel ended silent main
    obtain ⟨_, _, _, _, counted⟩ := s.each_addWatch k.watch
    refine ⟨(s.each k.watch State.addWatch).withRafts m, (onCore_up _ s up).trans (congrArg _ done), raft, rfl, rfl, ?_, ?_⟩
    · exact (congrArg State.rstore counted :)
    · exact (congrArg State.regs counted :)

end Sys2Proof.Machine
end

section
/-! SUPPORT. A store of a thread to a rafter store that lists one byte twice. The bytes of a memory read back what was written to it where its
keys rise (`Memory.wf`, which every step keeps: `Obligations.StepKeepsCanonical`), and the statement about ST does not ask for that. -/

namespace Sys2Proof.Machine

/-- A course that rafter 0 works on, in a module that is up. -/
def workedCourse : Course := { strayCourse with working := true, running := [0] }
def workedOn : State :=
  { State.reset.setF Reg.SEC_BOOT_STAT.READY 1 with
    power := { State.reset.power with step := .good, coreRails := true, hubRails := true }
    course := some workedCourse }

theorem workedOn_core : workedOn.coreUp := ⟨by decide, by decide, by decide⟩

/-- ST of register 0 in FP32 to the address in register 0. -/
def stWord : W64 := 0x8000000061

/-- A kernel of that instruction and an END, which may write the first 64 bytes of the rafter store, and its sheaf with thread 0 active. -/
def stKernel : Kernel :=
  ⟨false, 0, 0, [stWord, 1], List.replicate 26 0 ++ [8] ++ List.replicate 229 0, List.range 16, 0, [], 0, []⟩
def stSheaf : Sheaf := ⟨0, 0, List.replicate 64 (List.replicate 16 0), true :: List.replicate 63 false, [], []⟩

/-- The rafter store lists byte 0 twice, as 1. -/
def listedTwice : State :=
  { workedOn with rafts := [(0, { Raft.fresh with kernel := some stKernel, sheafs := [stSheaf] })], rstore := [(0, 1), (0, 1)] }

theorem listedTwice_runs : listedTwice.ThreadRuns 0 0 0x61 stWord stKernel stSheaf where
  core := workedOn_core
  rafts := by decide
  next := ⟨workedCourse, by decide +kernel⟩
  sound := by decide +kernel
  threads := by decide +kernel
  bits := by decide
  quiet := rfl
  good := ⟨rfl, rfl, rfl⟩

/-- What the instruction leaves. -/
def storedTwice : State := listedTwice.thread 0 0 0x61 stWord fun c k sh s =>
  if thSub stWord = 2 then s.stFp4 0 0 c k sh stWord else s.stPlain 0 0 c k sh stWord

theorem listedTwice_stores : exec (.st 0 0 stWord) listedTwice = .next storedTwice :=
  onCore_up (fun s => s.thread 0 0 0x61 stWord fun c k sh s =>
    if thSub stWord = 2 then s.stFp4 0 0 c k sh stWord else s.stPlain 0 0 c k sh stWord) listedTwice workedOn_core

/-- No rule of the store is broken … -/
theorem listedTwice_allows : listedTwice.working = some workedCourse ∧ thSub stWord = 4 ∧
    listedTwice.badTid workedCourse (tidOf stKernel stWord) = false ∧
    ∀ t < 64, stSheaf.live t = true → t = 0 ∧ thAddr stWord (stSheaf.reg t (thA stWord)) = 0 := by decide +kernel

/-- … and the zero stored to byte 0 takes one of its two entries away: the other is what the byte reads as. -/
theorem storedTwice_reads : storedTwice.rstore.bytes 0 4 = [1, 0, 0, 0] := by decide +kernel

/-- Refutes O39: its clause on ST does not ask that the rafter store is in its canonical form. In `listedTwice` thread 0 stores the FP32 word 0
at address 0, and byte 0 reads 1 afterwards. -/
theorem not_threadExchangeAndMemory : ¬ Obligations.ThreadExchangeAndMemory := by
  intro claims
  obtain ⟨working, sub, known, alone⟩ := listedTwice_allows
  obtain ⟨-, -, -, -, -, -, -, -, -, -, store, -⟩ := claims listedTwice 0 0 stWord stKernel stSheaf workedCourse (by decide) working
  obtain ⟨u, run, -, -, bytes, -⟩ := store listedTwice_runs (by rw [sub]; decide) known _ rfl _ (fun _ => rfl) fun t thread live => by
    rw [(alone t thread live).2, sub]
    decide +kernel
  have word := bytes 0 (by decide) rfl (fun t thread live other => absurd (alone t thread live).1 other) nofun
  cases listedTwice_stores.symm.trans run
  rw [(alone 0 (by decide) rfl).2, sub] at word
  exact absurd (storedTwice_reads.symm.trans word) (by decide +kernel)

end Sys2Proof.Machine
end

section
/-! SUPPORT. An image command that breaks a rule on a rafter whose entry in the table of rafters spells out the default. Before an instruction
that writes looks at its rules, the frame puts its rafter back (R375), and a default put back is no longer listed; the record of the error
(R185) keeps the table of rafters. -/

namespace Sys2Proof.Machine

/-- Rafter 0 is listed, as `Raft.fresh`, and the block at 0 of its store, written with zeros, is that of a VX.BOXDEC. -/
def freshListed : State := { workedOn with rafts := [(0, Raft.fresh)], rsWritten := [0] }

theorem freshListed_issues : freshListed.mayIssue 0 0x44 0 = some workedCourse ∧ freshListed.rsOk 0 0 128 = true ∧
    sigEn 0x44 = false ∧ opcodeOf 0x44 = 0x44 ∧ wellFormedWords 0x44 0x44 0 = true := by decide +kernel

/-- The command ends the course with the rafter no longer listed in the record of the error … -/
theorem freshListed_forgets : (vxBoxdec 0 0x44 0 freshListed).fell.map Fall.rafts = some [] := by decide +kernel

/-- … where a program error of the state as it stands keeps it. -/
theorem freshListed_keeps (code : Nat) : (freshListed.progError 0 code).fell.map Fall.rafts = some [(0, Raft.fresh)] := by
  rw [State.progError_eq (s := freshListed) 0 code rfl rfl]
  rfl

/-- Refutes O41: its clause on the codes does not ask that no rafter is listed as the default. In `freshListed` the boxes of VX.BOXDEC do not
have four channels, and the course ends with 0x91 and another record of the error than the statement says. -/
theorem not_imageCommands : ¬ Obligations.ImageCommands := by
  rintro ⟨commands, -⟩
  obtain ⟨may, block, silent, opcode, formed⟩ := freshListed_issues
  obtain ⟨ends, -⟩ := commands freshListed 0 0x44 0 workedCourse workedOn_core rfl rfl rfl rfl may silent rfl rfl (by decide +kernel) block _ rfl _
    (.tail _ (.tail _ (.tail _ (.head _)))) opcode formed _ rfl
  have ran := (onCore_up (vxBoxdec 0 0x44 0) freshListed workedOn_core).symm.trans (ends (by decide +kernel))
  injection ran with same
  have record := congrArg (Option.map Fall.rafts ∘ State.fell) same
  exact absurd (freshListed_forgets.symm.trans (record.trans (freshListed_keeps _))) nofun

end Sys2Proof.Machine
end

section
/-! SUPPORT. An attention command that breaks a rule on a rafter whose entry in the table of rafters spells out the default. As with an image
command, the frame puts the rafter back before the rules are looked at (R375), a default put back is no longer listed, and the record of the
error (R185) keeps the table of rafters. -/

namespace Sys2Proof.Machine

/-- `freshListed` with the last byte of its block, a reserved one of an AT.FWD, set. -/
def freshAttending : State := { freshListed with rstore := [(127, 1)] }

theorem freshAttending_core : freshAttending.coreUp := ⟨by decide, by decide, by decide⟩

theorem freshAttending_canon : freshAttending.Canon := ⟨rfl, rfl, rfl, rfl, by decide⟩

theorem freshAttending_issues : freshAttending.mayIssue 0 0x80 0 = some workedCourse ∧ freshAttending.rsOk 0 0 128 = true ∧
    opcodeOf 0x80 = 0x80 ∧ wellFormedWords 0x80 0x80 0 = true := by decide +kernel

/-- The command ends the course with the rafter no longer listed in the record of the error … -/
theorem freshAttending_forgets : (atFwd 0 0x80 0 freshAttending).fell.map Fall.rafts = some [] := by decide +kernel

/-- … where a program error of the state as it stands keeps it. -/
theorem freshAttending_keeps (code : Nat) : (freshAttending.progError 0 code).fell.map Fall.rafts = some [(0, Raft.fresh)] := by
  rw [State.progError_eq (s := freshAttending) 0 code rfl rfl]
  rfl

/-- Refutes O42: its clause on the codes does not ask that no rafter is listed as the default. In `freshAttending` the block of AT.FWD has a
reserved byte set, and the course ends with 0x90 and another record of the error than the statement says. -/
theorem not_attentionOverABatch : ¬ Obligations.AttentionOverABatch := by
  rintro ⟨commands, -⟩
  obtain ⟨may, block, opcode, formed⟩ := freshAttending_issues
  obtain ⟨ends, -⟩ := commands freshAttending 0 0x80 0 workedCourse _ _ freshAttending_core freshAttending_canon may rfl rfl rfl
    (by decide +kernel) block rfl rfl _ (.head _) opcode formed _ rfl
  have ran := (onCore_up (atFwd 0 0x80 0) freshAttending freshAttending_core).symm.trans (ends (by decide +kernel))
  injection ran with same
  have record := congrArg (Option.map Fall.rafts ∘ State.fell) same
  exact absurd (freshAttending_forgets.symm.trans (record.trans (freshAttending_keeps _))) nofun

end Sys2Proof.Machine
end

section
/-! SUPPORT. A copy of a cache page that meets a sector it cannot read (R291, R341). The read fails the course (R73), and its rollback (R298)
leaves the undo log empty, where the statement counts the copy's record. -/

namespace Sys2Proof.Machine

/-! ### The undo log, and the course whose changes it records (R298) -/

/-- The records of the undo log, and the course in progress. -/
def State.logged (s : State) : Nat × Option Course := (s.kvLog, s.course)

theorem State.logged_of_inner {s t : State} (h : t.inner = s.inner) : t.logged = s.logged := (congrArg State.logged h :)

@[simp] theorem State.logged_writeHbm (s : State) (a : Nat) (bs : List Byte) : (s.writeHbm a bs).logged = s.logged :=
  State.logged_of_inner (s.inner_writeHbm a bs)

@[simp] theorem State.logged_setF (s : State) (f : Fld) (v : Nat) : (s.setF f v).logged = s.logged := rfl

@[simp] theorem State.logged_setKvSeq (s : State) (q : Nat) (x : KvSeq) : (s.setKvSeq q x).logged = s.logged := rfl

@[simp] theorem State.logged_withdrawProg (s : State) (t : Fall) : (s.withdrawProg t).logged = s.logged :=
  State.logged_of_inner (s.inner_withdrawProg t)

@[simp] theorem State.logged_amendStatus (s : State) (c : Course) (code : Nat) : (s.amendStatus c code).logged = s.logged := by
  rw [State.amendStatus, State.logged_of_inner (State.inner_amendRecord _ _ _), State.logged_writeHbm]
  rfl

@[simp] theorem State.logged_kvPut (s : State) (a : Nat) (bs : List Byte) : (s.kvPut a bs).logged = s.logged := by
  rw [State.kvPut, State.logged_writeHbm]
  rfl

@[simp] theorem State.logged_setKvPage (s : State) (k : KvConf) (q l b n : Nat) : (s.setKvPage k q l b n).logged = s.logged := by
  rw [State.setKvPage, State.logged_kvPut]

@[simp] theorem State.logged_setKvRef (s : State) (k : KvConf) (n v : Nat) : (s.setKvRef k n v).logged = s.logged := by
  rw [State.setKvRef, State.logged_kvPut]

@[simp] theorem State.logged_kvPend (s : State) (x : Pend) : (s.kvPend x).logged = s.logged := rfl

@[simp] theorem State.logged_kvRelease (s : State) (k : KvConf) (n : Nat) : (s.kvRelease k n).logged = s.logged := by
  rw [State.kvRelease]
  split_ifs
  · rw [State.logged_kvPend, State.logged_setKvRef]
  · rw [State.logged_setKvRef]

theorem State.kvTake_course (s : State) : s.kvTake.2.course = s.course := by
  unfold State.kvTake
  split <;> rfl

theorem State.kvTake_poison (s : State) : s.kvTake.2.poison = s.poison := by
  unfold State.kvTake
  split <;> rfl

/-! ### A read that fails the course (R73, R341) -/

/-- The course has failed, and the undo log is empty. -/
def State.RolledBack (s : State) : Prop := s.kvLog = 0 ∧ ∃ c : Course, s.course = some c ∧ c.failed = true

theorem State.RolledBack.of_logged {s t : State} (h : s.RolledBack) (same : t.logged = s.logged) : t.RolledBack := by
  obtain ⟨log, course⟩ := Prod.mk.inj same
  rwa [State.RolledBack, log, course]

theorem State.failCourse_rolledBack {s : State} {c : Course} (code : Nat) (running : s.course = some c) (alive : c.failed = false) :
    (s.failCourse code).RolledBack := by
  refine ⟨?_, _, congrArg Prod.fst (State.failCourse_parts code running alive), rfl⟩
  rw [State.failCourse_eq code running alive, State.kvRollback_eq]
  rfl

theorem State.logged_forget (s : State) : ({ s with fell := none } : State).logged = s.logged := rfl

/-- R73: once the course has failed, a fault amends its status at most. -/
theorem State.logged_failByFault {s : State} {c : Course} (course : s.course = some c) (failed : c.failed = true) (code : Nat) :
    (s.failByFault code).logged = s.logged := by
  rw [State.failByFault]
  cases s.fellNow with
  | none => exact congrArg State.logged (State.failCourse_failed code course failed)
  | some t =>
    rw [course]
    exact (State.logged_forget _).trans ((State.logged_amendStatus _ c code).trans (s.logged_withdrawProg t))

theorem State.logged_latchFault (s : State) (b : Nat) : (s.latchFault b).logged = s.logged := by
  unfold State.latchFault State.platformEvent State.openMerge State.faultIrq
  split_ifs <;> rfl

theorem State.logged_noteFault (s : State) (b : Nat) (merged : Bool) : (s.noteFault b merged).logged = s.logged := by
  cases merged with
  | true => rfl
  | false => exact s.logged_latchFault b

theorem State.logged_fatalReaction (s : State) (b : Nat) : (s.fatalReaction b).logged = s.logged := by
  dsimp only [State.fatalReaction]
  split_ifs <;> rfl

/-- R73: the error lines of HBM and of the rafters fail the course with 0x80. -/
theorem faultStatus_low {b : Nat} (low : b ≤ 31) (fatal host : Bool) : faultStatus b fatal host = some 0x80 := by
  cases fatal with
  | true => rfl
  | false => simp [faultStatus, low]

/-- R73: a line of an HBM stack rolls the course back, or leaves the one rolled back already. -/
theorem State.raiseLine_rolledBack {s : State} {c : Course} {b : Nat} (low : b ≤ 31) (running : s.course = some c)
    (done : c.failed = true → s.RolledBack) : (s.raiseLine b).RolledBack := by
  have noted := s.logged_noteFault b (s.mergedIn b)
  have course : (s.noteFault b (s.mergedIn b)).course = some c := (congrArg Prod.snd noted).trans running
  have fails (fatal : Bool) : ((s.noteFault b (s.mergedIn b)).faultCourse b fatal).RolledBack := by
    cases alive : c.failed with
    | false =>
      rw [State.faultCourse_alive course alive (faultStatus_low low fatal _)]
      exact State.failCourse_rolledBack _ course alive
    | true =>
      simp only [State.faultCourse, course, faultStatus_low low]
      exact (done alive).of_logged ((State.logged_failByFault course alive _).trans noted)
  have rises : s.raiseLine b = if (s.getF Reg.FLT_FATAL.FATAL).testBit b = true
      then ((s.noteFault b (s.mergedIn b)).faultCourse b ((s.getF Reg.FLT_FATAL.FATAL).testBit b)).fatalReaction b
      else (s.noteFault b (s.mergedIn b)).faultCourse b ((s.getF Reg.FLT_FATAL.FATAL).testBit b) := rfl
  rw [rises]
  split
  · exact (fails _).of_logged (State.logged_fatalReaction _ b)
  · exact fails _

theorem State.raiseStacks_rolledBack {sts : List Nat} (small : ∀ st ∈ sts, st < 20) {s : State} (h : s.RolledBack) :
    (s.each sts fun s st => s.raiseLine (8 + st)).RolledBack := by
  induction sts generalizing s with
  | nil => exact h
  | cons st sts ih =>
    obtain ⟨c, course, -⟩ := h.2
    have low := small st List.mem_cons_self
    exact ih (fun x hx => small x (List.mem_cons_of_mem _ hx)) (State.raiseLine_rolledBack (by omega) course fun _ => h)

theorem State.badStacks_lt (s : State) (a n : Nat) : ∀ st ∈ s.badStacks a n, st < 20 := by
  intro st mem
  obtain ⟨sec, -, rfl⟩ := List.mem_map.1 mem
  exact Nat.mod_lt _ (by decide)

/-- R341: a read after the rollback leaves the cache as it is. -/
theorem State.readHbm_stays {s : State} (h : s.RolledBack) (a n : Nat) : (s.readHbm a n).2.RolledBack :=
  State.raiseStacks_rolledBack (s.badStacks_lt a n) (h.of_logged (State.logged_of_inner (s.inner_readQuiet a n)))

/-- R73, R341, R298: a read that meets a poisoned sector rolls the cache back. -/
theorem State.readHbm_rolledBack {s : State} {c : Course} {a n sec : Nat} (running : s.course = some c) (alive : c.failed = false)
    (read : sec ∈ sectorsOf a n) (bad : s.poison.contains sec = true) : (s.readHbm a n).2.RolledBack := by
  have state : s.sectorState sec = .bad := if_pos (by rw [bad]; rfl)
  have stack : stackOf (s.placeOf (sec * 64)).1 ∈ s.badStacks a n :=
    List.mem_map.2 ⟨sec, List.mem_filter.2 ⟨read, decide_eq_true state⟩, rfl⟩
  have course : (s.readQuiet a n).2.2.course = some c :=
    (congrArg Prod.snd (State.logged_of_inner (s.inner_readQuiet a n))).trans running
  have small := s.badStacks_lt a n
  dsimp only [State.readHbm]
  generalize s.badStacks a n = sts at stack small ⊢
  cases sts with
  | nil => exact absurd stack List.not_mem_nil
  | cons st sts =>
    have low := small st List.mem_cons_self
    refine State.raiseStacks_rolledBack (fun x hx => small x (List.mem_cons_of_mem _ hx)) ?_
    exact State.raiseLine_rolledBack (by omega) course fun failed => absurd (alive.symm.trans failed) Bool.false_ne_true

/-! ### The poison that the record of a change leaves (R341) -/

theorem State.poison_upd (s : State) {hbm kvLog freeCtr} :
    ({ s with hbm := hbm, kvLog := kvLog, freeCtr := freeCtr } : State).poison = s.poison := rfl

theorem State.storeSector_poison (s : State) (q : Nat) : (s.storeSector q).poison = s.poison.filter (· ≠ q) := by
  dsimp only [State.storeSector]
  split <;> rfl

theorem State.viaHost_poison (s : State) (a n : Nat) (store : Bool) : (s.viaHost a n store).poison = s.poison := by
  unfold State.viaHost
  split_ifs <;> rfl

theorem State.storeSectors_poison {qs : List Nat} {sec : Nat} (other : sec ∉ qs) (s : State) (bad : sec ∈ s.poison) :
    sec ∈ (s.each qs State.storeSector).poison := by
  induction qs generalizing s with
  | nil => exact bad
  | cons q qs ih =>
    obtain ⟨ne, other⟩ := not_or.1 (List.mem_cons.not.1 other)
    refine ih other (s.storeSector q) ?_
    rw [s.storeSector_poison]
    exact List.mem_filter.2 ⟨bad, decide_eq_true ne⟩

theorem le_of_mem_sectorsOf {a n sec : Nat} (mem : sec ∈ sectorsOf a n) : a / 64 ≤ sec := by
  unfold sectorsOf at mem
  split at mem
  · exact absurd mem List.not_mem_nil
  · obtain ⟨i, -, rfl⟩ := List.mem_map.1 mem
    exact Nat.le_add_left _ i

/-- R341: a write above a poisoned sector leaves it poisoned. -/
theorem State.writeHbm_poison {s : State} {a sec : Nat} (below : sec < a / 64) (bad : sec ∈ s.poison) (bs : List Byte) :
    sec ∈ (s.writeHbm a bs).poison := by
  have kept (n : Nat) : sec ∈ ((s.viaHost a n true).each (sectorsOf a n) State.storeSector).poison :=
    State.storeSectors_poison (fun mem => absurd below (Nat.not_lt.2 (le_of_mem_sectorsOf mem))) _ (by rwa [s.viaHost_poison a n true])
  rw [show (s.writeHbm a bs).poison = _ from State.poison_upd _]
  exact kept _

/-! ### The copy (R291) -/

/-- R291: the cache as a copy leaves it before it reads the old page. -/
def State.copying (s : State) (k : KvConf) (bumped : Bool) : State := ((s.kvRecord k).kvAppVer bumped).kvTake.2

theorem State.kvAppVer_parts (s : State) (bumped : Bool) :
    (s.kvAppVer bumped).course = s.course ∧ (s.kvAppVer bumped).poison = s.poison := by
  cases bumped <;> exact ⟨rfl, rfl⟩

theorem State.copying_course (s : State) (k : KvConf) (bumped : Bool) : (s.copying k bumped).course = s.course := by
  have written := congrArg Prod.snd (s.logged_writeHbm (k.logBase + 16 * s.kvLog) ((Config.undoRecord s.freeCtr).take 16))
  rw [State.copying, State.kvTake_course, (State.kvAppVer_parts _ bumped).1, State.kvRecord]
  generalize s.writeHbm _ _ = u at written ⊢
  exact written

theorem State.copying_poison {s : State} {k : KvConf} {sec : Nat} (below : sec < k.logBase / 64) (bad : sec ∈ s.poison) (bumped : Bool) :
    sec ∈ (s.copying k bumped).poison := by
  have written := State.writeHbm_poison (a := k.logBase + 16 * s.kvLog) (below.trans_le (Nat.div_le_div_right (Nat.le_add_right _ _))) bad
    ((Config.undoRecord s.freeCtr).take 16)
  rw [State.copying, State.kvTake_poison, (State.kvAppVer_parts _ bumped).2, show (s.kvRecord k).poison = _ from State.poison_upd _]
  exact written

/-- R291: the old page's keys and then its values read, up to the position to be written. -/
def State.copyReads (s : State) (k : KvConf) (old n : Nat) : State :=
  (((s.readHbm (k.pageAddr old) n).2).readHbm (k.pageAddr old + k.pageBytes / 2) n).2

/-- R291: a copy reads the old page; what follows the reads changes neither the number of records nor the course. -/
theorem State.kvReady_copies {s : State} {k : KvConf} {q l pos old n : Nat} {bumped : Bool} (block : pos / 128 ≠ (s.kvSeq q).nb)
    (page : old = s.kvPage k q l (pos / 128)) (len : n = (pos - 128 * (pos / 128)) * k.tokBytes)
    (copied : 1 < s.kvRef k old ∨ ((s.kvSeq q).wp = true ∧ pos / 128 + 1 = (s.kvSeq q).nb)) (idle : s.kvBusy q = false)
    (free : 1 ≤ s.kvFree k) (room : s.kvLog < 65536) :
    ∃ t, s.kvReady k q l pos bumped = .ready t true ∧ t.logged = ((s.copying k bumped).copyReads k old n).logged := by
  subst page len
  have ready : s.kvReady k q l pos bumped = s.kvCopy k q l (pos / 128) pos bumped := by
    rw [State.kvReady, if_neg block, if_pos copied]
  have can : s.kvCan k 1 = none := if_pos free
  have fits : s.kvRoom = true := decide_eq_true room
  rw [ready, State.kvCopy]
  simp only [idle, can, fits, Bool.not_true, Bool.false_eq_true, if_false]
  refine ⟨_, rfl, ?_⟩
  rw [State.bump, State.logged_setF, State.logged_setKvSeq]
  simp only [State.logged_kvRelease, State.logged_setKvRef, State.logged_setKvPage, State.logged_writeHbm]
  rfl

/-! ### A poisoned page -/

/-- A cache of two pages of BF16 keys and values, one head of 64, in one layer of up to four blocks. -/
def smallCache : KvConf :=
  { poolBase := 0x40000, pages := 2, mapBase := 0x100000, refBase := 0x200000, logBase := 0x300000, fmt := 3, dcode := 0, hkv := 1, layers := 1
    maxBlocks := 4, tidK := 0xFFFF, tidV := 0xFFFF }

/-- Sequence 0 holds one token, in page 0, where a TRUNC has left it: the block must not be written. -/
def truncated : KvTabs := ⟨some smallCache, [(0, ⟨.live, 1, 1, true, 1⟩)], 1, [], [], 0⟩

/-- A course that has changed nothing of that cache yet; the first sector of page 0 is poisoned. -/
def poisonedPage : State :=
  { workedOn with kv := truncated, kvUndo := truncated, hbm := [(0x200000, 1)], poison := [0x1000] }

theorem poisonedPage_core : poisonedPage.coreUp := ⟨by decide, by decide, by decide⟩

theorem poisonedPage_canon : poisonedPage.Canon := ⟨rfl, rfl, rfl, rfl, by decide⟩

/-- The token at position 1 asks for a copy of page 0 up to it, one page is free, and the copy reads the poisoned sector. -/
theorem poisonedPage_copies : (1 / 128 ≠ (poisonedPage.kvSeq 0).nb ∧ (poisonedPage.kvSeq 0).wp = true ∧ 1 / 128 + 1 = (poisonedPage.kvSeq 0).nb) ∧
    poisonedPage.kvBusy 0 = false ∧ 1 ≤ poisonedPage.kvFree smallCache ∧ poisonedPage.kvPage smallCache 0 0 (1 / 128) = 0 ∧
    0x1000 ∈ sectorsOf (smallCache.pageAddr 0) ((1 - 128 * (1 / 128)) * smallCache.tokBytes) := by decide +kernel

/-- Refutes O43: its clause on a copy does not ask that the old page can be read. In `poisonedPage` the read fails the course, whose rollback
empties the undo log, and the statement asks for one record. -/
theorem not_rolloutCache : ¬ Obligations.RolloutCache := by
  intro claims
  obtain ⟨⟨block, kept, last⟩, idle, free, page, read⟩ := poisonedPage_copies
  obtain ⟨-, -, -, -, -, appends, -⟩ := claims poisonedPage poisonedPage_core poisonedPage_canon rfl rfl rfl
  obtain ⟨-, copies⟩ := appends smallCache 0 0 1 false (by decide)
  obtain ⟨t, ready, log, -⟩ := copies block (.inr ⟨kept, last⟩) idle free
  obtain ⟨u, copied, logged⟩ := State.kvReady_copies (bumped := false) block page.symm rfl (.inr ⟨kept, last⟩) idle free (by decide)
  cases ready.symm.trans copied
  have poisoned : 0x1000 ∈ (poisonedPage.copying smallCache false).poison := State.copying_poison (by decide) List.mem_cons_self false
  have course : (poisonedPage.copying smallCache false).course = some workedCourse := poisonedPage.copying_course smallCache false
  have failed := State.readHbm_rolledBack course rfl read (List.contains_iff_mem.2 poisoned)
  obtain ⟨empty, -⟩ := (State.readHbm_stays failed _ _).of_logged logged
  exact absurd (log.symm.trans empty) (by decide)

end Sys2Proof.Machine
end

section
/-! SUPPORT. Numbers, elements and bit strings as bytes, and what is read back from them (R14, R314, R315). -/

namespace Sys2Proof.Machine

/-! ### Numbers as bytes (R14) -/

theorem ceilDiv_bounds (a : Nat) {b : Nat} (pos : 0 < b) : a ≤ b * ceilDiv a b ∧ b * ceilDiv a b < a + b := by
  have div : b * ((a + b - 1) / b) + (a + b - 1) % b = a + b - 1 := Nat.div_add_mod _ _
  have rem : (a + b - 1) % b < b := Nat.mod_lt _ pos
  rw [ceilDiv]
  omega

@[simp] theorem length_leBytes (n v : Nat) : (leBytes n v).length = n := by
  induction n generalizing v with
  | zero => rfl
  | succ n ih => rw [leBytes, List.length_cons, ih]

theorem leNat_leBytes (n v : Nat) : leNat (leBytes n v) = v % 256 ^ n := by
  induction n generalizing v with
  | zero => exact (Nat.mod_one v).symm
  | succ n ih => rw [leBytes, leNat, ih, BitVec.toNat_ofNat, Nat.pow_succ' (m := 256), Nat.mod_mul]

theorem leBytes_add (m n v : Nat) : leBytes (m + n) v = leBytes m v ++ leBytes n (v / 256 ^ m) := by
  induction m generalizing v with
  | zero => simp [leBytes]
  | succ m ih => rw [Nat.succ_add, leBytes, leBytes, ih, List.cons_append, Nat.div_div_eq_div_mul, Nat.pow_succ']

theorem leBytes_mod (n v : Nat) : leBytes n (v % 256 ^ n) = leBytes n v := by
  induction n generalizing v with
  | zero => rfl
  | succ n ih =>
    have tail : v % 256 ^ (n + 1) / 256 = v / 256 % 256 ^ n := by
      rw [Nat.pow_succ', Nat.mod_mul_right_div_self]
    have head : BitVec.ofNat 8 (v % 256 ^ (n + 1)) = BitVec.ofNat 8 v :=
      BitVec.eq_of_toNat_eq (by
        rw [BitVec.toNat_ofNat, BitVec.toNat_ofNat]
        exact Nat.mod_mod_of_dvd v (Dvd.intro_left (256 ^ n) rfl))
    rw [leBytes, leBytes, tail, ih, head]

theorem leBytes_zero (n : Nat) : leBytes n 0 = List.replicate n 0 := by
  induction n with
  | zero => rfl
  | succ n ih => rw [leBytes, Nat.zero_div, ih]; rfl

/-! ### Elements as bytes (R315) -/

@[simp] theorem length_elemBytes (f : Nat) (xs : List Nat) : (elemBytes f xs).length = xs.length * fmtBytes f := by
  induction xs with
  | nil => simp [elemBytes]
  | cons x xs ih =>
    rw [elemBytes] at ih
    rw [elemBytes, List.flatMap_cons, List.length_append, ih, length_leBytes, List.length_cons]; ring

theorem bytesElems_elemBytes {f : Nat} {xs : List Nat} (fits : ∀ x ∈ xs, x < 256 ^ fmtBytes f) (more : List Byte) :
    bytesElems f xs.length (elemBytes f xs ++ more) = xs := by
  induction xs with
  | nil => rfl
  | cons x xs ih =>
    obtain ⟨small, fits⟩ := List.forall_mem_cons.1 fits
    have split : elemBytes f (x :: xs) ++ more = leBytes (fmtBytes f) x ++ (elemBytes f xs ++ more) := by
      rw [elemBytes, List.flatMap_cons, List.append_assoc, elemBytes]
    have first : ((leBytes (fmtBytes f) x ++ (elemBytes f xs ++ more)).drop (0 * fmtBytes f)).take (fmtBytes f) = leBytes (fmtBytes f) x := by
      rw [Nat.zero_mul, List.drop_zero, List.take_left' (length_leBytes _ _)]
    have later : ∀ i, (leBytes (fmtBytes f) x ++ (elemBytes f xs ++ more)).drop ((i + 1) * fmtBytes f) =
        (elemBytes f xs ++ more).drop (i * fmtBytes f) := fun i => by
      rw [Nat.succ_mul, Nat.add_comm, ← List.drop_drop, List.drop_left' (length_leBytes _ _)]
    rw [bytesElems] at ih ⊢
    rw [split, List.length_cons, List.range_succ_eq_map, List.map_cons, List.map_map, first, leNat_leBytes, Nat.mod_eq_of_lt small]
    simp only [Function.comp_def, Nat.succ_eq_add_one, later, ih fits]

/-! ### Bits (R314) -/

@[simp] theorem length_toBits (n v : Nat) : (toBits n v).length = n := by
  induction n with
  | zero => rfl
  | succ n ih => rw [toBits, List.length_cons, ih]

theorem ofBits_cons (b : Bool) (bs : List Bool) : ofBits (b :: bs) = bit b * 2 ^ bs.length + ofBits bs := by
  have shift : ∀ (bs : List Bool) (a : Nat),
      bs.foldl (fun a b => 2 * a + bit b) a = a * 2 ^ bs.length + bs.foldl (fun a b => 2 * a + bit b) 0 := by
    intro bs
    induction bs with
    | nil => simp
    | cons c cs ih => intro a; rw [List.foldl_cons, List.foldl_cons, ih (2 * a + bit c), ih (2 * 0 + bit c), List.length_cons]; ring
  rw [ofBits, List.foldl_cons, shift, Nat.mul_zero, Nat.zero_add, ofBits]

theorem ofBits_append (xs ys : List Bool) : ofBits (xs ++ ys) = ofBits xs * 2 ^ ys.length + ofBits ys := by
  induction xs with
  | nil => simp [ofBits]
  | cons x xs ih => rw [List.cons_append, ofBits_cons, ofBits_cons, ih, List.length_append]; ring

theorem ofBits_lt (bs : List Bool) : ofBits bs < 2 ^ bs.length := by
  induction bs with
  | nil => exact Nat.one_pos
  | cons b bs ih =>
    have small : bit b ≤ 1 := by cases b <;> decide
    have shifted : bit b * 2 ^ bs.length ≤ 1 * 2 ^ bs.length := Nat.mul_le_mul_right _ small
    rw [ofBits_cons, List.length_cons, Nat.pow_succ]
    omega

theorem toBits_eq_of_mod {n u v : Nat} (h : u % 2 ^ n = v % 2 ^ n) : toBits n u = toBits n v := by
  induction n with
  | zero => rfl
  | succ n ih =>
    have top : u.testBit n = v.testBit n := by
      have := congrArg (·.testBit n) h
      simpa [Nat.testBit_mod_two_pow] using this
    have low : u % 2 ^ n = v % 2 ^ n := by
      have := congrArg (· % 2 ^ n) h
      simpa [Nat.mod_mod_of_dvd _ (Nat.pow_dvd_pow 2 (Nat.le_succ n))] using this
    rw [toBits, toBits, top, ih low]

theorem ofBits_toBits (n v : Nat) : ofBits (toBits n v) = v % 2 ^ n := by
  induction n with
  | zero => exact (Nat.mod_one v).symm
  | succ n ih =>
    have top : bit (v.testBit n) = v / 2 ^ n % 2 := (Nat.toNat_testBit v n ▸ by cases v.testBit n <;> rfl)
    rw [toBits, ofBits_cons, length_toBits, ih, Nat.pow_succ, Nat.mod_mul, top]
    ring

theorem toBits_ofBits (bs : List Bool) : toBits bs.length (ofBits bs) = bs := by
  induction bs with
  | nil => rfl
  | cons b bs ih =>
    have top : (ofBits (b :: bs)).testBit bs.length = b := by
      rw [ofBits_cons, Nat.mul_comm, Nat.testBit_two_pow_mul_add _ (ofBits_lt bs)]
      cases b <;> simp [bit]
    have low : ofBits (b :: bs) % 2 ^ bs.length = ofBits bs % 2 ^ bs.length := by
      rw [ofBits_cons, Nat.mul_comm, Nat.mul_add_mod]
    rw [List.length_cons, toBits, top, toBits_eq_of_mod low, ih]

theorem ofBits_replicate_false (n : Nat) : ofBits (List.replicate n false) = 0 := by
  induction n with
  | zero => rfl
  | succ n ih => rw [List.replicate_succ, ofBits_cons, ih]; simp [bit]

/-- R314: a byte spells the at most eight bits packed into it, and zero bits below them. -/
theorem toBits_packed {bs : List Bool} (short : bs.length ≤ 8) :
    toBits 8 (BitVec.ofNat 8 (ofBits bs * 2 ^ (8 - bs.length))).toNat = bs ++ List.replicate (8 - bs.length) false := by
  have all : (bs ++ List.replicate (8 - bs.length) false).length = 8 := by simp; omega
  have value : ofBits (bs ++ List.replicate (8 - bs.length) false) = ofBits bs * 2 ^ (8 - bs.length) := by
    rw [ofBits_append, ofBits_replicate_false, List.length_replicate, Nat.add_zero]
  have spelt := toBits_ofBits (bs ++ List.replicate (8 - bs.length) false)
  rw [all, value] at spelt
  exact (toBits_eq_of_mod (by rw [BitVec.toNat_ofNat, Nat.mod_mod])).trans spelt

/-! ### Packing (R314) -/

theorem unpackBits_chunks (n : Nat) (bs : List Bool) (fuel : bs.length < n) :
    ∃ k < 8, unpackBits ((chunks 8 bs n).map fun c => BitVec.ofNat 8 (ofBits c * 2 ^ (8 - c.length))) = bs ++ List.replicate k false := by
  induction n generalizing bs with
  | zero => exact absurd fuel (Nat.not_lt_zero _)
  | succ n ih =>
    rw [chunks]
    cases bs with
    | nil => exact ⟨0, by decide, rfl⟩
    | cons b t =>
      simp only [List.isEmpty_cons, Bool.false_eq_true, if_false, List.map_cons]
      rw [unpackBits, List.flatMap_cons, toBits_packed (List.length_take_le _ _), ← unpackBits]
      rcases Nat.lt_or_ge (b :: t).length 8 with short | long
      · have rest : (b :: t).drop 8 = [] := List.drop_of_length_le short.le
        refine ⟨8 - (b :: t).length, by simp only [List.length_cons]; omega, ?_⟩
        rw [rest, List.take_of_length_le short.le]
        cases n <;> simp [chunks, unpackBits]
      · have less : ((b :: t).drop 8).length < n := by rw [List.length_drop]; omega
        obtain ⟨k, small, rest⟩ := ih _ less
        refine ⟨k, small, ?_⟩
        rw [rest, List.length_take_of_le long, Nat.sub_self, List.replicate_zero, List.append_nil, ← List.append_assoc, List.take_append_drop]

theorem unpackBits_packBits (bs : List Bool) : ∃ k < 8, unpackBits (packBits bs) = bs ++ List.replicate k false :=
  unpackBits_chunks _ bs (Nat.lt_succ_self _)

theorem packBits_eq_nil {bs : List Bool} (h : packBits bs = []) : bs = [] := by
  obtain ⟨k, -, unpacked⟩ := unpackBits_packBits bs
  rw [h] at unpacked
  exact (List.append_eq_nil_iff.1 unpacked.symm).1

end Sys2Proof.Machine
end

section
/-! SUPPORT. The canonical codes of a valid table (R309, R310): each takes its own part of the bit strings of 15 bits, so no bit string begins with
two of them. -/

namespace Sys2Proof.Machine

/-! ### The canonical codes (R309, R310) -/

/-- The width of the bit strings of 15 bits that begin with a code of `l` bits. -/
def codeSpan (l : Nat) : Nat := 2 ^ (15 - l)

theorem codeSpan_half {l : Nat} (short : l < 15) : codeSpan l = 2 * codeSpan (l + 1) := by
  rw [codeSpan, codeSpan, ← Nat.pow_succ', show 15 - l = 15 - (l + 1) + 1 by omega]

theorem two_pow_mul_codeSpan {l : Nat} (short : l ≤ 15) : 2 ^ l * codeSpan l = 2 ^ 15 := by
  rw [codeSpan, ← Nat.pow_add, Nat.add_sub_cancel' short]

/-- A code's bit strings all lie below those of another. -/
def CodeBelow (c d : Nat × Nat × Nat) : Prop := (c.2.2 + 1) * codeSpan c.2.1 ≤ d.2.2 * codeSpan d.2.1

/-- R309: what the lengths of at least `l` take of the 2^15 bit strings of 15 bits. -/
def kraftFrom (lens : List Nat) (l : Nat) : Nat := (lens.map fun x => if l ≤ x then codeSpan x else 0).sum

theorem kraftFrom_succ (lens : List Nat) (l : Nat) : kraftFrom lens l = lens.count l * codeSpan l + kraftFrom lens (l + 1) := by
  induction lens with
  | nil => simp [kraftFrom]
  | cons x xs ih =>
    have head : (if l ≤ x then codeSpan x else 0) = (if x = l then codeSpan l else 0) + if l + 1 ≤ x then codeSpan x else 0 := by
      rcases Nat.lt_trichotomy l x with lt | rfl | gt
      · rw [if_pos lt.le, if_neg lt.ne', if_pos (Nat.succ_le_of_lt lt), Nat.zero_add]
      · rw [if_pos le_rfl, if_pos rfl, if_neg (Nat.not_succ_le_self _), Nat.add_zero]
      · rw [if_neg (by omega), if_neg gt.ne, if_neg (by omega)]
    have count : (x :: xs).count l * codeSpan l = (if x = l then codeSpan l else 0) + xs.count l * codeSpan l := by
      rw [List.count_cons]
      by_cases e : x = l <;> simp [e, Nat.add_mul, Nat.add_comm]
    rw [kraftFrom] at ih
    rw [kraftFrom, kraftFrom, List.map_cons, List.sum_cons, List.map_cons, List.sum_cons, ih, head, count, kraftFrom]
    omega

theorem kraftFrom_one {lens : List Nat} (valid : tableOk lens = true) : kraftFrom lens 1 ≤ 2 ^ 15 := by
  have same : (fun l : Nat => if l = 0 then 0 else 2 ^ (15 - l)) = fun x => if 1 ≤ x then codeSpan x else 0 := by
    funext l
    by_cases zero : l = 0
    · rw [if_pos zero, if_neg (by omega)]
    · rw [if_neg zero, if_pos (Nat.one_le_iff_ne_zero.2 zero), codeSpan]
  rw [kraftFrom, ← same]
  exact of_decide_eq_true valid

theorem length_canonAt (lens : List Nat) (l code : Nat) : (canonAt lens l code).length = lens.count l := by
  have count : ∀ (xs : List Nat) (k : Nat), ((xs.zipIdx k).filter fun x => decide (x.1 = l)).length = xs.count l := by
    intro xs
    induction xs with
    | nil => intro k; rfl
    | cons x xs ih =>
      intro k
      rw [List.zipIdx_cons, List.filter_cons, List.count_cons, ← ih (k + 1)]
      by_cases e : x = l <;> simp [e]
  rw [canonAt, List.length_map, List.length_zipIdx, List.length_map, count]

theorem mem_canonAt {lens : List Nat} {l code : Nat} {c : Nat × Nat × Nat} (h : c ∈ canonAt lens l code) :
    c.2.1 = l ∧ code ≤ c.2.2 ∧ c.2.2 < code + lens.count l := by
  rw [← length_canonAt lens l code]
  obtain ⟨x, hx, rfl⟩ := List.mem_map.1 h
  have index := List.snd_lt_of_mem_zipIdx hx
  rw [canonAt, List.length_map, List.length_zipIdx]
  exact ⟨rfl, Nat.le_add_right _ _, Nat.add_lt_add_left index _⟩

theorem canonAt_ordered (lens : List Nat) (l code : Nat) : (canonAt lens l code).Pairwise CodeBelow := by
  have rising : ∀ (xs : List Nat) (k : Nat), (xs.zipIdx k).Pairwise fun x y => x.2 < y.2 := by
    intro xs
    induction xs with
    | nil => intro k; exact List.Pairwise.nil
    | cons x xs ih =>
      intro k
      rw [List.zipIdx_cons]
      exact List.pairwise_cons.2 ⟨fun y hy => List.le_snd_of_mem_zipIdx hy, ih (k + 1)⟩
  rw [canonAt, List.pairwise_map]
  exact (rising _ 0).imp fun {x y} less => Nat.mul_le_mul_right _ (by simp only; omega)

/-- R310: the codes of lengths `l` to 15 take the bit strings from `code` on, one after another, and no more than the lengths' share. -/
theorem canonFrom_ordered (lens : List Nat) (n l code : Nat) (top : n + l = 16) :
    (canonFrom lens n l code).Pairwise CodeBelow ∧ ∀ c ∈ canonFrom lens n l code, l ≤ c.2.1 ∧ c.2.1 ≤ 15 ∧
      code * codeSpan l ≤ c.2.2 * codeSpan c.2.1 ∧ (c.2.2 + 1) * codeSpan c.2.1 ≤ code * codeSpan l + kraftFrom lens l := by
  induction n generalizing l code with
  | zero => exact ⟨List.Pairwise.nil, fun c hc => absurd hc List.not_mem_nil⟩
  | succ n ih =>
    -- The codes of the next length start where those of this one end.
    have next : 2 * (code + lens.count l) * codeSpan (l + 1) = (code + lens.count l) * codeSpan l ∨ n = 0 := by
      rcases Nat.eq_zero_or_pos n with none | more
      · exact .inr none
      · refine .inl ?_
        rw [codeSpan_half (show l < 15 by omega)]
        ring
    obtain ⟨ordered, bounds⟩ := ih (l + 1) (2 * (code + lens.count l)) (by omega)
    have later : ∀ c ∈ canonFrom lens n (l + 1) (2 * (code + lens.count l)),
        (code + lens.count l) * codeSpan l ≤ c.2.2 * codeSpan c.2.1 ∧ l + 1 ≤ c.2.1 ∧ c.2.1 ≤ 15 ∧
        (c.2.2 + 1) * codeSpan c.2.1 ≤ (code + lens.count l) * codeSpan l + kraftFrom lens (l + 1) := fun c hc => by
      obtain ⟨long, short, low, high⟩ := bounds c hc
      rcases next with eq | none
      · rw [eq] at low high
        exact ⟨low, long, short, high⟩
      · rw [none] at hc
        exact absurd hc List.not_mem_nil
    have share : (code + lens.count l) * codeSpan l + kraftFrom lens (l + 1) = code * codeSpan l + kraftFrom lens l := by
      rw [kraftFrom_succ lens l, Nat.add_mul, Nat.add_assoc]
    rw [canonFrom]
    simp only [length_canonAt]
    constructor
    · refine List.pairwise_append.2 ⟨canonAt_ordered _ _ _, ordered, fun c hc d hd => ?_⟩
      obtain ⟨len, -, small⟩ := mem_canonAt hc
      obtain ⟨low, -⟩ := later d hd
      rw [CodeBelow, len]
      exact (Nat.mul_le_mul_right _ small).trans low
    · intro c hc
      rcases List.mem_append.1 hc with hc | hc
      · obtain ⟨len, low, small⟩ := mem_canonAt hc
        have lower := Nat.mul_le_mul_right (codeSpan l) low
        have upper := Nat.mul_le_mul_right (codeSpan l) (Nat.succ_le_of_lt small)
        rw [len]
        exact ⟨le_rfl, by omega, lower, share ▸ upper.trans (Nat.le_add_right _ _)⟩
      · obtain ⟨low, long, short, high⟩ := later c hc
        rw [share] at high
        exact ⟨(Nat.le_succ l).trans long, short, (Nat.mul_le_mul_right _ (Nat.le_add_right _ _)).trans low, high⟩

/-- R309, R310: a code of a valid table has 1 to 15 bits and fits in them. -/
theorem canon_fits {lens : List Nat} (valid : tableOk lens = true) {c : Nat × Nat × Nat} (hc : c ∈ canon lens) :
    1 ≤ c.2.1 ∧ c.2.1 ≤ 15 ∧ c.2.2 < 2 ^ c.2.1 := by
  obtain ⟨long, short, -, high⟩ := (canonFrom_ordered lens 15 1 0 rfl).2 c hc
  have room : (c.2.2 + 1) * codeSpan c.2.1 ≤ 2 ^ c.2.1 * codeSpan c.2.1 := by
    rw [two_pow_mul_codeSpan short]
    have := kraftFrom_one valid
    omega
  exact ⟨long, short, Nat.le_of_mul_le_mul_right room (Nat.two_pow_pos _)⟩

/-! ### The symbol that a bit string starts with (R310, R314) -/

/-- A code at the head of a bit string takes in the string's first 15 bits, with zeros behind it. -/
theorem code_spans {bs : List Bool} {l code : Nat} (fits : l ≤ bs.length) (short : l ≤ 15) (head : ofBits (bs.take l) = code) :
    code * codeSpan l ≤ ofBits ((bs ++ List.replicate 15 false).take 15) ∧
      ofBits ((bs ++ List.replicate 15 false).take 15) < (code + 1) * codeSpan l := by
  have split : (bs ++ List.replicate 15 false).take 15 = bs.take l ++ ((bs.drop l) ++ List.replicate 15 false).take (15 - l) := by
    conv_lhs => rw [← List.take_append_drop l bs, List.append_assoc, List.take_append, List.length_take_of_le fits,
      List.take_of_length_le ((List.length_take_le _ _).trans short)]
  have rest := ofBits_lt (((bs.drop l) ++ List.replicate 15 false).take (15 - l))
  have len : (((bs.drop l) ++ List.replicate 15 false).take (15 - l)).length = 15 - l := by
    rw [List.length_take, List.length_append, List.length_replicate]
    omega
  rw [len, ← codeSpan] at rest
  rw [split, ofBits_append, len, head, Nat.succ_mul, ← codeSpan]
  omega

/-- No bit string starts with two of the codes. -/
theorem canon_apart {lens : List Nat} {c d : Nat × Nat × Nat} (hc : c ∈ canon lens) (hd : d ∈ canon lens) {bs : List Bool}
    (cFits : c.2.1 ≤ bs.length) (cHead : ofBits (bs.take c.2.1) = c.2.2) (dFits : d.2.1 ≤ bs.length) (dHead : ofBits (bs.take d.2.1) = d.2.2) :
    c = d := by
  obtain ⟨ordered, bounds⟩ := canonFrom_ordered lens 15 1 0 rfl
  obtain ⟨-, cShort, -⟩ := bounds c hc
  obtain ⟨-, dShort, -⟩ := bounds d hd
  obtain ⟨cLow, cHigh⟩ := code_spans cFits cShort cHead
  obtain ⟨dLow, dHigh⟩ := code_spans dFits dShort dHead
  by_contra ne
  have symm : Std.Symm fun a b => CodeBelow a b ∨ CodeBelow b a := ⟨fun _ _ => Or.symm⟩
  have either : (canon lens).Pairwise fun a b => CodeBelow a b ∨ CodeBelow b a := ordered.imp Or.inl
  have apart : CodeBelow c d ∨ CodeBelow d c := either.forall hc hd ne
  rcases apart with below | below <;> rw [CodeBelow] at below <;> omega

theorem nextSym_code {lens : List Nat} (valid : tableOk lens = true) {c : Nat × Nat × Nat} (hc : c ∈ canon lens) (more : List Bool) :
    nextSym (canon lens) (toBits c.2.1 c.2.2 ++ more) = some (c.1, more) := by
  obtain ⟨-, -, small⟩ := canon_fits valid hc
  have fits : c.2.1 ≤ (toBits c.2.1 c.2.2 ++ more).length := by simp
  have head : ofBits ((toBits c.2.1 c.2.2 ++ more).take c.2.1) = c.2.2 := by
    rw [List.take_left' (length_toBits _ _), ofBits_toBits, Nat.mod_eq_of_lt small]
  have rest : (toBits c.2.1 c.2.2 ++ more).drop c.2.1 = more := List.drop_left' (length_toBits _ _)
  rw [nextSym]
  split
  next d found =>
    have matched := List.find?_some found
    rw [Bool.and_eq_true, decide_eq_true_eq, decide_eq_true_eq] at matched
    rw [← canon_apart hc (List.mem_of_find?_eq_some found) fits head matched.1 matched.2, rest]
  next none =>
    have missed := List.find?_eq_none.1 none c hc
    rw [Bool.and_eq_true, decide_eq_true_eq, decide_eq_true_eq] at missed
    exact absurd ⟨fits, head⟩ missed

end Sys2Proof.Machine
end

section
/-! SUPPORT. One sub-stream (R308, R314): the bits that spell its symbols, and its expansion by the leggett (R326). -/

namespace Sys2Proof.Machine

/-! ### Sub-streams (R308, R313, R314) -/

/-- R314: the bits that spell the symbols of a sub-stream, each a code of the symbol and its extra bits. -/
inductive Spells (codes : List (Nat × Nat × Nat)) : List Sym → List Bool → Prop
  | nil : Spells codes [] []
  | cons {c : Nat × Nat × Nat} {y : Sym} {ys : List Sym} {bs : List Bool} (code : c ∈ codes) (symbol : c.1 = y.1) (rest : Spells codes ys bs) :
      Spells codes (y :: ys) (toBits c.2.1 c.2.2 ++ (toBits y.2.1 y.2.2 ++ bs))

/-- R314: one more symbol behind the bits of a sub-stream; none when it has no code. -/
def appendSym (codes : List (Nat × Nat × Nat)) (a : Option (List Bool)) (y : Sym) : Option (List Bool) :=
  a.bind fun bs => (codes.find? fun c => c.1 = y.1).map fun c => bs ++ toBits c.2.1 c.2.2 ++ toBits y.2.1 y.2.2

theorem encodeSub_eq (codes : List (Nat × Nat × Nat)) (syms : List Sym) :
    encodeSub codes syms = (syms.foldl (appendSym codes) (some [])).map packBits := by
  rw [encodeSub]
  congr 2
  funext a y
  cases a with
  | none => rfl
  | some bs =>
    rw [appendSym, Option.bind_some]
    cases codes.find? fun c => decide (c.1 = y.1) with
    | none => rfl
    | some c => rfl

theorem appendSym_none (codes : List (Nat × Nat × Nat)) (y : Sym) : appendSym codes none y = none := rfl

theorem foldl_appendSym_none (codes : List (Nat × Nat × Nat)) (syms : List Sym) : syms.foldl (appendSym codes) none = none := by
  induction syms with
  | nil => rfl
  | cons y ys ih => rw [List.foldl_cons, appendSym_none, ih]

theorem spells_of_foldl {codes : List (Nat × Nat × Nat)} {syms : List Sym} {front out : List Bool}
    (coded : syms.foldl (appendSym codes) (some front) = some out) : ∃ bs, out = front ++ bs ∧ Spells codes syms bs := by
  induction syms generalizing front with
  | nil => exact ⟨[], by rw [List.append_nil]; exact (Option.some.inj coded).symm, .nil⟩
  | cons y ys ih =>
    rw [List.foldl_cons, appendSym, Option.bind_some] at coded
    cases found : codes.find? (fun c => decide (c.1 = y.1)) with
    | none =>
      rw [found, Option.map_none, foldl_appendSym_none] at coded
      exact nomatch coded
    | some c =>
      rw [found, Option.map_some] at coded
      obtain ⟨bs, rfl, rest⟩ := ih coded
      exact ⟨_, by simp only [List.append_assoc],
        .cons (List.mem_of_find?_eq_some found) (by simpa using List.find?_some found) rest⟩

theorem spells_of_encodeSub {codes : List (Nat × Nat × Nat)} {syms : List Sym} {out : List Byte} (coded : encodeSub codes syms = some out) :
    ∃ bs, out = packBits bs ∧ Spells codes syms bs := by
  rw [encodeSub_eq, Option.map_eq_some_iff] at coded
  obtain ⟨bits, folded, rfl⟩ := coded
  obtain ⟨bs, rfl, spelt⟩ := spells_of_foldl folded
  exact ⟨_, rfl, spelt⟩

/-- R309, R314: a symbol takes at least one bit. -/
theorem Spells.eq_nil {lens : List Nat} (valid : tableOk lens = true) {ys : List Sym} {bs : List Bool} (spelt : Spells (canon lens) ys bs)
    (none : bs = []) : ys = [] := by
  cases spelt with
  | nil => rfl
  | cons code _ _ =>
    have bit := (canon_fits valid code).1
    have len := congrArg List.length none
    rw [List.length_append, length_toBits, List.length_nil] at len
    omega

theorem parseSub_eq_nil {f n : Nat} {xs : List Nat} (none : parseSub f (n + 1) xs = []) : xs = [] := by
  cases xs with
  | nil => rfl
  | cons x t =>
    rw [parseSub] at none
    split at none <;> exact nomatch none

/-! ### Runs of zero elements -/

theorem zeroRun_le (xs : List Nat) : zeroRun xs ≤ xs.length := by
  induction xs with
  | nil => exact Nat.le_refl _
  | cons x xs ih =>
    cases x with
    | zero => exact Nat.succ_le_succ ih
    | succ x => exact Nat.zero_le _

theorem replicate_zeroRun (xs : List Nat) : List.replicate (zeroRun xs) 0 ++ xs.drop (zeroRun xs) = xs := by
  induction xs with
  | nil => rfl
  | cons x xs ih =>
    cases x with
    | zero => exact congrArg (0 :: ·) ih
    | succ x => rfl

/-- R308: the run symbols hold every run of 1 to 16 elements, in the bits that follow them. -/
theorem run_extra {r : Nat} (pos : 1 ≤ r) (short : r ≤ 16) :
    2 ^ r.log2 + (if r.log2 < 4 then r - 2 ^ r.log2 else 0) = r ∧
      (if r.log2 < 4 then r - 2 ^ r.log2 else 0) < 2 ^ (if r.log2 < 4 then r.log2 else 0) := by
  have low : 2 ^ r.log2 ≤ r := Nat.log2_self_le (by omega)
  have high : r < 2 ^ (r.log2 + 1) := Nat.lt_log2_self
  rw [Nat.pow_succ] at high
  by_cases small : r.log2 < 4
  · simp only [small, if_true]
    omega
  · have sixteen : 2 ^ 4 ≤ 2 ^ r.log2 := Nat.pow_le_pow_right (by decide) (by omega)
    simp only [small, if_false]
    omega

/-! ### A sub-stream expanded (R314, R326) -/

theorem thFmt_cases {f : Nat} (taken : thFmt f = true) : f = 0 ∨ f = 1 ∨ f = 3 ∨ f = 4 := by
  simpa [thFmt, or_assoc] using taken

/-- R308: an element is its sign and exponent symbol and its mantissa. -/
theorem two_pow_fmtBits {f : Nat} (taken : thFmt f = true) : 2 ^ fmtBits f = 2 ^ thMb f * thZ f := by
  rcases thFmt_cases taken with rfl | rfl | rfl | rfl <;> rfl

theorem decodeSub_padding (f : Nat) (codes : List (Nat × Nat × Nat)) (n : Nat) {k : Nat} (pad : k < 8) :
    decodeSub f codes n 0 (List.replicate k false) = .ok [] := by
  have quiet : ¬(7 < (List.replicate k false).length ∨ (List.replicate k false).any id = true) := by
    simpa using Nat.le_of_lt_succ pad
  cases n <;> exact if_neg quiet

section
variable {f : Nat} {lens : List Nat} (taken : thFmt f = true) (valid : tableOk lens = true)

include valid in
theorem decodeSub_elem {c : Nat × Nat × Nat} (code : c ∈ canon lens) (symbol : c.1 < thZ f) (n m v : Nat) (small : v < 2 ^ thMb f)
    (more : List Bool) :
    decodeSub f (canon lens) (n + 1) (m + 1) (toBits c.2.1 c.2.2 ++ (toBits (thMb f) v ++ more)) =
      (decodeSub f (canon lens) n m more).map ((c.1 * 2 ^ thMb f + v) :: ·) := by
  have long : ¬(toBits (thMb f) v ++ more).length < thMb f := by simp
  rw [decodeSub, nextSym_code valid code]
  simp only [if_pos symbol, if_neg long, List.drop_left' (length_toBits (thMb f) v), List.take_left' (length_toBits (thMb f) v),
    ofBits_toBits, Nat.mod_eq_of_lt small]

include valid in
theorem decodeSub_run {c : Nat × Nat × Nat} (code : c ∈ canon lens) {n m r : Nat} (symbol : c.1 = thZ f + r.log2) (pos : 1 ≤ r) (short : r ≤ 16)
    (fits : r ≤ m + 1) (more : List Bool) :
    decodeSub f (canon lens) (n + 1) (m + 1) (toBits c.2.1 c.2.2 ++
        (toBits (if r.log2 < 4 then r.log2 else 0) (if r.log2 < 4 then r - 2 ^ r.log2 else 0) ++ more)) =
      (decodeSub f (canon lens) n (m + 1 - r) more).map (List.replicate r 0 ++ ·) := by
  obtain ⟨sum, small⟩ := run_extra pos short
  rw [decodeSub, nextSym_code valid code]
  generalize (if r.log2 < 4 then r - 2 ^ r.log2 else 0) = v at sum small ⊢
  have isRun : ¬thZ f + r.log2 < thZ f := by omega
  have long : ¬(toBits (if r.log2 < 4 then r.log2 else 0) v ++ more).length < if r.log2 < 4 then r.log2 else 0 := by simp
  have width := length_toBits (if r.log2 < 4 then r.log2 else 0) v
  simp only [symbol, if_neg isRun, Nat.add_sub_cancel_left, if_neg long, List.drop_left' width, List.take_left' width, ofBits_toBits,
    Nat.mod_eq_of_lt small, sum, if_neg (Nat.not_lt.2 fits)]

include taken valid in
/-- R314, R326: the bits that spell a sub-stream's symbols, with less than a byte of zero bits behind them, expand to the sub-stream. -/
theorem decodeSub_spelt {n : Nat} {xs : List Nat} {bs : List Bool} (spelt : Spells (canon lens) (parseSub f n xs) bs) (fuel : xs.length ≤ n)
    (short : n ≤ 16) (fits : ∀ x ∈ xs, x < 2 ^ fmtBits f) {k : Nat} (pad : k < 8) :
    decodeSub f (canon lens) n xs.length (bs ++ List.replicate k false) = .ok xs := by
  induction n generalizing xs bs with
  | zero =>
    obtain rfl := List.length_eq_zero_iff.1 (Nat.le_zero.1 fuel)
    cases spelt
    exact decodeSub_padding f _ 0 pad
  | succ n ih =>
    cases xs with
    | nil =>
      cases spelt
      exact decodeSub_padding f _ (n + 1) pad
    | cons x t =>
      rw [parseSub] at spelt
      by_cases zero : x = 0
      · subst zero
        have pos : 1 ≤ zeroRun (0 :: t) := Nat.succ_pos _
        have le := zeroRun_le (0 :: t)
        have whole := replicate_zeroRun (0 :: t)
        rw [List.length_cons] at fuel le ⊢
        simp only [if_true] at spelt
        generalize zeroRun (0 :: t) = r at spelt pos le whole
        have left : t.length + 1 - r = ((0 :: t).drop r).length := by rw [List.length_drop, List.length_cons]
        cases spelt with
        | cons code symbol rest =>
          have later := ih rest (by omega) (by omega) fun y hy => fits y (List.mem_of_mem_drop hy)
          rw [List.append_assoc, List.append_assoc, decodeSub_run valid code symbol pos (by omega) le, left, later]
          exact congrArg Except.ok whole
      · obtain ⟨small, fits⟩ := List.forall_mem_cons.1 fits
        simp only [zero] at spelt
        cases spelt with
        | cons code symbol rest =>
          have exponent : x / 2 ^ thMb f < thZ f := Nat.div_lt_of_lt_mul (two_pow_fmtBits taken ▸ small)
          have later := ih rest (Nat.le_of_succ_le_succ fuel) (by omega) fits
          rw [List.append_assoc, List.append_assoc, List.length_cons,
            decodeSub_elem valid code (symbol ▸ exponent) n _ _ (Nat.mod_lt _ (Nat.two_pow_pos _)), later, symbol]
          exact congrArg (Except.ok <| · :: t) (Nat.div_add_mod' _ _)
end

end Sys2Proof.Machine
end

section
/-! SUPPORT. The sixteen sub-streams of a yelm, their bytes and their ends (R313 to R315), and their expansion together (R326). -/

namespace Sys2Proof.Machine

/-! ### The sub-streams of a yelm (R313) -/

/-- R313: sub-stream `i` of a yelm, empty past its end. -/
def subStream (xs : List Nat) (i : Nat) : List Nat := (xs.drop (16 * i)).take 16

theorem length_subStream (xs : List Nat) (i : Nat) : (subStream xs i).length = min 16 (xs.length - 16 * i) := by
  rw [subStream, List.length_take, List.length_drop]

theorem subStream_fits {xs : List Nat} {b : Nat} (fits : ∀ x ∈ xs, x < b) (i : Nat) : ∀ x ∈ subStream xs i, x < b :=
  fun x hx => fits x (List.mem_of_mem_drop (List.mem_of_mem_take hx))

/-- The pieces that `chunks` cuts are the sub-streams in order, but for empty ones at the end. -/
theorem chunks_padded (xs : List Nat) (k : Nat) : ∃ m, (List.range k).map (subStream xs) = chunks 16 xs k ++ List.replicate m [] := by
  induction k generalizing xs with
  | zero => exact ⟨0, rfl⟩
  | succ k ih =>
    have later : subStream xs ∘ Nat.succ = subStream (xs.drop 16) := by
      funext i
      rw [Function.comp_apply, subStream, subStream, List.drop_drop, Nat.mul_succ, Nat.add_comm]
    cases xs with
    | nil =>
      refine ⟨k + 1, List.eq_replicate_iff.2 ⟨by simp, fun y hy => ?_⟩⟩
      obtain ⟨i, -, rfl⟩ := List.mem_map.1 hy
      simp [subStream]
    | cons x t =>
      obtain ⟨m, rest⟩ := ih ((x :: t).drop 16)
      refine ⟨m, ?_⟩
      rw [List.range_succ_eq_map, List.map_cons, List.map_map, later, rest]
      rfl

theorem subStreams_padded (xs : List Nat) : ∃ m, (List.range 16).map (subStream xs) = subStreams xs ++ List.replicate m [] :=
  chunks_padded xs 16

/-- The sub-streams in order make up the yelm. -/
theorem flatMap_subStream (xs : List Nat) (k : Nat) : (List.range k).flatMap (subStream xs) = xs.take (16 * k) := by
  induction k with
  | zero => rfl
  | succ k ih => rw [List.range_succ, List.flatMap_append, ih, List.flatMap_singleton, subStream, Nat.mul_succ, List.take_add]

/-! ### The coded sub-streams of a yelm (R313 to R315) -/

/-- R314: the bytes of one coded sub-stream. -/
def codedSub (f : Nat) (codes : List (Nat × Nat × Nat)) (x : List Nat) : List Byte := (encodeSub codes (parseSub f 16 x)).getD []

/-- R313: the bytes of coded sub-stream `i`. -/
def subBytes (f : Nat) (codes : List (Nat × Nat × Nat)) (xs : List Nat) (i : Nat) : List Byte := codedSub f codes (subStream xs i)

/-- R313, R315: where sub-stream `i` begins when sub-stream `j` has the bytes `b j`. -/
def startOf (b : Nat → List Byte) (i : Nat) : Nat := ((List.range i).flatMap b).length

theorem startOf_succ (b : Nat → List Byte) (i : Nat) : startOf b (i + 1) = startOf b i + (b i).length := by
  rw [startOf, startOf, List.range_succ, List.flatMap_append, List.flatMap_singleton, List.length_append]

theorem startOf_mono (b : Nat → List Byte) {i j : Nat} (le : i ≤ j) : startOf b i ≤ startOf b j :=
  monotone_nat_of_le_succ (fun i => by rw [startOf_succ]; exact Nat.le_add_right _ _) le

theorem encodeSub_nil (f : Nat) (codes : List (Nat × Nat × Nat)) : encodeSub codes (parseSub f 16 []) = some [] := rfl

theorem codedSub_nil (f : Nat) (codes : List (Nat × Nat × Nat)) : codedSub f codes [] = [] := rfl

theorem encodeSub_subStream {f : Nat} {codes : List (Nat × Nat × Nat)} {xs : List Nat}
    (coded : ∀ x ∈ subStreams xs, encodeSub codes (parseSub f 16 x) ≠ none) {i : Nat} (hi : i < 16) :
    encodeSub codes (parseSub f 16 (subStream xs i)) = some (subBytes f codes xs i) := by
  obtain ⟨m, padded⟩ := subStreams_padded xs
  have piece : subStream xs i ∈ (List.range 16).map (subStream xs) := List.mem_map_of_mem (List.mem_range.2 hi)
  have some_ : encodeSub codes (parseSub f 16 (subStream xs i)) ≠ none := by
    rw [padded] at piece
    rcases List.mem_append.1 piece with here | empty
    · exact coded _ here
    · rw [List.eq_of_mem_replicate empty, encodeSub_nil]
      exact Option.some_ne_none _
  obtain ⟨bs, eq⟩ := Option.ne_none_iff_exists'.1 some_
  rw [subBytes, codedSub, eq, Option.getD_some]

theorem flatten_codedSub (f : Nat) (codes : List (Nat × Nat × Nat)) (xs : List Nat) :
    ((subStreams xs).map (codedSub f codes)).flatten = (List.range 16).flatMap (subBytes f codes xs) := by
  obtain ⟨m, padded⟩ := subStreams_padded xs
  have whole : (List.range 16).flatMap (subBytes f codes xs) = (((List.range 16).map (subStream xs)).map (codedSub f codes)).flatten := by
    rw [List.map_map, ← List.flatMap_def]
    rfl
  rw [whole, padded, List.map_append, List.flatten_append, List.map_replicate, codedSub_nil, List.flatten_replicate_nil, List.append_nil]

theorem getD_codedSub (f : Nat) (codes : List (Nat × Nat × Nat)) (xs : List Nat) {i : Nat} (hi : i < 16) :
    ((subStreams xs).map (codedSub f codes)).getD i [] = subBytes f codes xs i := by
  obtain ⟨m, padded⟩ := subStreams_padded xs
  have piece := congrArg (fun l : List (List Nat) => (l.map (codedSub f codes)).getD i []) padded
  simp only [List.map_map, List.map_append, List.map_replicate, codedSub_nil] at piece
  rw [List.getD_eq_getElem _ _ (by simpa using hi)] at piece
  simp only [List.getElem_map, List.getElem_range, Function.comp_apply] at piece
  rw [subBytes, piece]
  rcases Nat.lt_or_ge i ((subStreams xs).map (codedSub f codes)).length with lt | ge
  · rw [List.getD_append _ _ _ _ lt]
  · rw [List.getD_append_right _ _ _ _ ge, List.getD_eq_default _ _ ge]
    simp

theorem runSums_startOf (b : Nat → List Byte) (k n : Nat) :
    runSums (startOf b k) ((List.range' k n).map fun i => (b i).length) = (List.range' k n).map fun i => startOf b (i + 1) := by
  induction n generalizing k with
  | zero => rfl
  | succ n ih => rw [List.range'_succ, List.map_cons, runSums, ← startOf_succ, ih, List.map_cons]

theorem take_drop_flatMap (b : Nat → List Byte) {i k : Nat} (hi : i < k) (more : List Byte) :
    (((List.range k).flatMap b ++ more).drop (startOf b i)).take (b i).length = b i := by
  obtain ⟨m, rfl⟩ := Nat.exists_eq_add_of_lt hi
  rw [Nat.add_right_comm, List.range_add, List.range_succ]
  simp only [List.flatMap_append, List.flatMap_singleton, List.append_assoc]
  rw [startOf, List.drop_left, List.take_left]

/-- R315: the 16 ends of a yelm, 12 bits each. -/
def endsWord (ends : List Nat) : Nat := (ends.zipIdx.map fun x => x.1 * 2 ^ (12 * x.2)).sum

theorem endsWord_eq (ends : List Nat) : endsWord ends = Nat.ofDigits 4096 ends := by
  have shifted : ∀ (l : List Nat) (k : Nat), ((l.zipIdx k).map fun x => x.1 * 2 ^ (12 * x.2)).sum = 2 ^ (12 * k) * Nat.ofDigits 4096 l := by
    intro l
    induction l with
    | nil => intro k; rfl
    | cons x xs ih =>
      intro k
      rw [List.zipIdx_cons, List.map_cons, List.sum_cons, ih, Nat.ofDigits_cons, Nat.mul_succ, Nat.pow_add]
      ring
  rw [endsWord, shifted, Nat.mul_zero, Nat.pow_zero, Nat.one_mul]

theorem bitsOf_endsWord {ends : List Nat} (small : ∀ x ∈ ends, x < 4096) (i : Nat) : bitsOf (endsWord ends) (12 * i) 12 = ends.getD i 0 := by
  rw [bitsOf_div, endsWord_eq, Nat.pow_mul, show (2 : Nat) ^ 12 = 4096 from rfl,
    Nat.ofDigits_div_pow_eq_ofDigits_drop i (by decide) ends small, Nat.ofDigits_mod_eq_head!]
  rcases Nat.lt_or_ge i ends.length with lt | ge
  · rw [List.drop_eq_getElem_cons lt, List.head!_cons, List.getD_eq_getElem _ _ lt, Nat.mod_eq_of_lt (small _ (List.getElem_mem lt))]
  · rw [List.drop_of_length_le ge, List.getD_eq_default _ _ ge]
    rfl

theorem endsWord_lt {ends : List Nat} (small : ∀ x ∈ ends, x < 4096) (count : ends.length = 16) : endsWord ends < 256 ^ 24 := by
  have := Nat.ofDigits_lt_base_pow_length (b := 4096) (by decide) small
  rw [count] at this
  rwa [endsWord_eq]

/-- R326: sub-streams that expand one by one expand together. -/
theorem decodeSubs_ok {f : Nat} {codes : List (Nat × Nat × Nat)} {l : List Nat} {len : Nat → Nat} {b : Nat → List Byte} {p : Nat → List Nat}
    (each : ∀ i ∈ l, decodeSub f codes 16 (len i) (unpackBits (b i)) = .ok (p i)) :
    decodeSubs f codes (l.map fun i => (len i, b i)) = .ok (l.flatMap p) := by
  induction l with
  | nil => rfl
  | cons i l ih =>
    obtain ⟨first, each⟩ := List.forall_mem_cons.1 each
    have rest := ih each
    rw [decodeSubs] at rest ⊢
    rw [List.map_cons, List.foldr_cons, rest, first]
    rfl

/-- R314, R326: a coded sub-stream expands to what went in, and has a byte unless it is empty. -/
theorem decodeSub_coded {f : Nat} {lens : List Nat} (taken : thFmt f = true) (valid : tableOk lens = true) {xs : List Nat} {out : List Byte}
    (coded : encodeSub (canon lens) (parseSub f 16 xs) = some out) (short : xs.length ≤ 16) (fits : ∀ x ∈ xs, x < 2 ^ fmtBits f) :
    decodeSub f (canon lens) 16 xs.length (unpackBits out) = .ok xs ∧ (out = [] ↔ xs = []) := by
  obtain ⟨bs, rfl, spelt⟩ := spells_of_encodeSub coded
  obtain ⟨k, pad, unpacked⟩ := unpackBits_packBits bs
  have expands := decodeSub_spelt taken valid spelt short (Nat.le_refl _) fits pad
  rw [unpacked]
  refine ⟨expands, fun none => parseSub_eq_nil (spelt.eq_nil valid (packBits_eq_nil none)), fun none => ?_⟩
  rw [none] at coded
  exact (Option.some.inj coded).symm

end Sys2Proof.Machine
end

section
/-! SUPPORT. A yelm raw and compressed, its header and CHECK (R314, R315), and the leggett's checks of it (R326). -/

namespace Sys2Proof.Machine

/-! ### A yelm with its header (R315) -/

/-- R315: word 0 of a yelm but for its CHECK. -/
def yelmHead (form f n g : Nat) : Nat := form + f * 4 + (n - 1) * 2 ^ 5 + g * 2 ^ 13

/-- R315: what stands in a yelm of `g` granules behind word 0, `t` and the zero bytes that fill it. -/
def yelmFilled (g : Nat) (t : List Byte) : List Byte := t ++ List.replicate (16 * g - (8 + t.length)) 0

/-- R315: a yelm of `g` granules with `t` behind its word 0. -/
def sealedYelm (form f n g : Nat) (t : List Byte) : List Byte := sealYelm (leBytes 8 (yelmHead form f n g) ++ yelmFilled g t) false

/-- R314: the granules of a compressed yelm whose sub-streams have these bytes. -/
def codedGran (b : Nat → List Byte) : Nat := ceilDiv (32 + startOf b 16) 16

theorem codedGran_holds (b : Nat → List Byte) : 32 + startOf b 16 ≤ 16 * codedGran b := (ceilDiv_bounds _ (by decide)).1

/-- R315: the ends of sub-streams that have these bytes. -/
def endsOf (b : Nat → List Byte) : List Nat := (List.range 16).map fun i => startOf b (i + 1)

theorem length_endsOf (b : Nat → List Byte) : (endsOf b).length = 16 := rfl

theorem getD_endsOf (b : Nat → List Byte) {i : Nat} (hi : i < 16) : (endsOf b).getD i 0 = startOf b (i + 1) := by
  have index : i < (endsOf b).length := hi
  rw [List.getD_eq_getElem _ _ index]
  simp only [endsOf, List.getElem_map, List.getElem_range]

theorem getD_startsOf (b : Nat → List Byte) {i : Nat} (hi : i < 16) : (0 :: endsOf b).getD i 0 = startOf b i := by
  cases i with
  | zero => rfl
  | succ i => rw [List.getD_cons_succ, getD_endsOf b (by omega)]

theorem getD_lengthsOf (b : Nat → List Byte) {i : Nat} (hi : i < 16) : (endsOf b).getD i 0 - (0 :: endsOf b).getD i 0 = (b i).length := by
  rw [getD_endsOf b hi, getD_startsOf b hi, startOf_succ, Nat.add_sub_cancel_left]

/-- R315: the body of a compressed yelm and the ends of its sub-streams in front of it. -/
def codedBody (b : Nat → List Byte) : List Byte :=
  leBytes 24 (endsWord (endsOf b)) ++ (List.range 16).flatMap b

/-- R314: a yelm is stored raw, or, when every sub-stream has its codes and that is shorter, compressed. -/
theorem encodeYelm_bytes (f : Nat) (codes : List (Nat × Nat × Nat)) (xs : List Nat) :
    (encodeYelm f codes xs false).bytes = sealedYelm 1 f xs.length (rawGran f xs.length) (leBytes 8 0 ++ elemBytes f xs) ∨
    ((∀ x ∈ subStreams xs, encodeSub codes (parseSub f 16 x) ≠ none) ∧ codedGran (subBytes f codes xs) < rawGran f xs.length ∧
      (encodeYelm f codes xs false).bytes =
        sealedYelm 2 f xs.length (codedGran (subBytes f codes xs)) (codedBody (subBytes f codes xs))) := by
  have body : ((subStreams xs).map fun x => encodeSub codes (parseSub f 16 x)).map (·.getD []) = (subStreams xs).map (codedSub f codes) := by
    rw [List.map_map]
    rfl
  have size : (((subStreams xs).map (codedSub f codes)).map List.length).sum = startOf (subBytes f codes xs) 16 := by
    rw [← List.length_flatten, flatten_codedSub, startOf]
  have ends : runSums 0 ((List.range 16).map fun i => (((subStreams xs).map (codedSub f codes)).getD i []).length) =
      endsOf (subBytes f codes xs) := by
    rw [List.map_congr_left fun i hi => congrArg List.length (getD_codedSub f codes xs (List.mem_range.1 hi)), List.range_eq_range']
    exact runSums_startOf _ 0 16
  rw [encodeYelm]
  simp only [body, size, ends]
  split
  next cond =>
    rw [Bool.and_eq_true, Bool.not_eq_true', List.any_eq_false, decide_eq_true_eq] at cond
    obtain ⟨coded, less⟩ := cond
    refine .inr ⟨fun x hx none => coded _ (List.mem_map_of_mem hx) (decide_eq_true none), less, ?_⟩
    rw [sealedYelm, yelmFilled, codedBody, flatten_codedSub]
    simp only [List.append_assoc, List.length_append, length_leBytes]
    rfl
  next =>
    refine .inl ?_
    rw [sealedYelm, yelmFilled]
    simp only [List.append_assoc, List.length_append, length_leBytes]
    rfl

/-- R326: the header of the yelm of `n` elements at the head of `bs` is in order. -/
structure HeadOk (form f n g : Nat) (bs : List Byte) : Prop where
  form : bitsOf (leNat (bs.take 8)) 0 2 = form
  fmt : bitsOf (leNat (bs.take 8)) 2 3 = f
  count : bitsOf (leNat (bs.take 8)) 5 8 + 1 = n
  gran : bitsOf (leNat (bs.take 8)) 13 7 = g
  reserved : bitsOf (leNat (bs.take 8)) 20 12 = 0
  check : bitsOf (leNat (bs.take 8)) 32 32 =
    crc32 ((bs.take (16 * g)).take 4 ++ List.replicate 4 0 ++ (bs.take (16 * g)).drop 8)

/-- R315: sealing writes the CHECK into the high half of word 0. -/
theorem sealYelm_word {head : Nat} (small : head < 2 ^ 32) (t : List Byte) :
    sealYelm (leBytes 8 head ++ t) false = leBytes 8 (head + 2 ^ 32 * crc32 (leBytes 8 head ++ t)) ++ t := by
  generalize crc : crc32 (leBytes 8 head ++ t) = c
  have low : leBytes 4 (head + 2 ^ 32 * c) = leBytes 4 head := by
    rw [← leBytes_mod, ← leBytes_mod 4 head]
    congr 1
    omega
  have high : (head + 2 ^ 32 * c) / 256 ^ 4 = c := by omega
  rw [sealYelm, crc, leBytes_add 4 4 (head + 2 ^ 32 * c), low, high, leBytes_add 4 4 head]
  have first : (leBytes 4 head ++ leBytes 4 (head / 256 ^ 4) ++ t).take 4 = leBytes 4 head := by
    rw [List.append_assoc, List.take_left' (length_leBytes 4 _)]
  have behind : (leBytes 4 head ++ leBytes 4 (head / 256 ^ 4) ++ t).drop 8 = t :=
    List.drop_left' (by rw [List.length_append, length_leBytes, length_leBytes])
  rw [first, behind]
  rfl

/-- R315: what word 0 of a yelm of `n` elements and `g` granules can hold, with room for `t` behind it. -/
structure YelmShape (form f n g : Nat) (t : List Byte) : Prop where
  kind : form < 4
  fmt : f < 8
  pos : 1 ≤ n
  most : n ≤ 256
  grans : g < 128
  room : 8 + t.length ≤ 16 * g

section
variable {form f n g : Nat} {t : List Byte} (shape : YelmShape form f n g t)

/-- R315: the CHECK of a yelm. -/
def yelmCheck (form f n g : Nat) (t : List Byte) : Nat := crc32 (leBytes 8 (yelmHead form f n g) ++ yelmFilled g t)

include shape

theorem yelmHead_lt : yelmHead form f n g < 2 ^ 32 := by
  obtain ⟨kind, fmt, -, most, grans, -⟩ := shape
  rw [yelmHead]
  omega

theorem sealedYelm_eq : sealedYelm form f n g t = leBytes 8 (yelmHead form f n g + 2 ^ 32 * yelmCheck form f n g t) ++ yelmFilled g t :=
  sealYelm_word (yelmHead_lt shape) _

theorem length_sealedYelm : (sealedYelm form f n g t).length = 16 * g := by
  have room := shape.room
  rw [sealedYelm_eq shape, yelmFilled, List.length_append, length_leBytes, List.length_append, List.length_replicate]
  omega

theorem take_sealedYelm (rest : List Byte) : (sealedYelm form f n g t ++ rest).take (16 * g) = sealedYelm form f n g t :=
  List.take_left' (length_sealedYelm shape)

theorem drop_sealedYelm_append (rest : List Byte) : (sealedYelm form f n g t ++ rest).drop 8 = yelmFilled g t ++ rest := by
  rw [sealedYelm_eq shape, List.append_assoc, List.drop_left' (length_leBytes 8 _)]

theorem drop_sealedYelm (k : Nat) : (sealedYelm form f n g t).drop (8 + k) = (yelmFilled g t).drop k := by
  rw [← List.drop_drop, sealedYelm_eq shape, List.drop_left' (length_leBytes 8 _)]

/-- R315: the yelm with its CHECK taken as zero. -/
theorem sealedYelm_unchecked : (sealedYelm form f n g t).take 4 ++ List.replicate 4 0 ++ (sealedYelm form f n g t).drop 8 =
    leBytes 8 (yelmHead form f n g) ++ yelmFilled g t := by
  have top : leBytes 4 (yelmHead form f n g / 256 ^ 4) = List.replicate 4 0 := by
    rw [Nat.div_eq_of_lt (show _ < 256 ^ 4 from yelmHead_lt shape), leBytes_zero]
  have low : (sealedYelm form f n g t).take 4 = leBytes 4 (yelmHead form f n g) := by
    have first : (leBytes 8 (yelmHead form f n g) ++ yelmFilled g t).take 4 = leBytes 4 (yelmHead form f n g) := by
      rw [leBytes_add 4 4, List.append_assoc, List.take_left' (length_leBytes 4 _)]
    rw [sealedYelm, sealYelm, first, List.append_assoc, List.take_left' (length_leBytes 4 _)]
  rw [drop_sealedYelm shape 0, List.drop_zero, leBytes_add 4 4 (yelmHead form f n g), top, low]

/-- R315, R326: a sealed yelm's header passes the checks of a header. -/
theorem sealedYelm_headOk (rest : List Byte) : HeadOk form f n g (sealedYelm form f n g t ++ rest) := by
  have crc : yelmCheck form f n g t < 2 ^ 32 := BitVec.isLt _
  have word : leNat ((sealedYelm form f n g t ++ rest).take 8) = yelmHead form f n g + 2 ^ 32 * yelmCheck form f n g t := by
    have small := yelmHead_lt shape
    rw [sealedYelm_eq shape, List.append_assoc, List.take_left' (length_leBytes 8 _), leNat_leBytes, Nat.mod_eq_of_lt]
    omega
  have unchecked := sealedYelm_unchecked shape
  have whole := take_sealedYelm shape rest
  obtain ⟨kind, fmt, pos, most, grans, -⟩ := shape
  constructor
  case check =>
    rw [whole, unchecked, ← yelmCheck, word, bitsOf_div, yelmHead]
    omega
  all_goals
    rw [word, bitsOf_div, yelmHead]
    omega
end

/-! ### The leggett's checks of one yelm (R326) -/

theorem checkYelm_raw {f n g : Nat} {codes : List (Nat × Nat × Nat)} {bs : List Byte} (head : HeadOk 1 f n g bs)
    (word1 : leNat ((bs.drop 8).take 8) = 0) (size : g = rawGran f n) (pad : ∀ x ∈ (bs.take (16 * g)).drop (16 + n * fmtBytes f), x = 0) :
    checkYelm f codes n bs = .ok (bytesElems f n ((bs.take (16 * g)).drop 16), 16 * g) := by
  obtain ⟨form, fmt, count, gran, reserved, check⟩ := head
  have filled : ((bs.take (16 * g)).drop (16 + n * fmtBytes f)).any (fun x => decide (x ≠ 0)) = false :=
    List.any_eq_false.2 fun x hx => by simp [pad x hx]
  rw [checkYelm]
  simp only [form, fmt, count, gran, reserved, check, word1, filled, ← size]
  -- No cause applies, in the order of R326's table: 0x04, 0x05, 0x06, 0x07, 0x0A, and 0x09 of a raw yelm.
  rw [if_neg (by simp), if_neg (by simp), if_neg (by simp), if_neg (by simp), if_neg (by simp), if_pos trivial,
    if_neg Bool.false_ne_true]

/-- R315: the sub-streams that the header of a compressed yelm of `n` elements marks out have the bytes `b`. -/
structure BodyOk (n g : Nat) (b : Nat → List Byte) (bs : List Byte) : Prop where
  ends : ∀ i < 16, bitsOf (leNat ((bs.drop 8).take 24)) (12 * i) 12 = startOf b (i + 1)
  body : ∃ pad, (bs.take (16 * g)).drop 32 = (List.range 16).flatMap b ++ List.replicate pad 0
  empties : ∀ i < 16, min 16 (n - 16 * i) = 0 ↔ (b i).length = 0
  room : startOf b 16 ≤ 16 * g - 32

theorem checkYelm_compressed {f n g : Nat} {codes : List (Nat × Nat × Nat)} {bs : List Byte} {b : Nat → List Byte} {p : Nat → List Nat}
    (head : HeadOk 2 f n g bs) (body : BodyOk n g b bs) (least : 3 ≤ g) (less : g < rawGran f n)
    (expands : ∀ i < 16, decodeSub f codes 16 (min 16 (n - 16 * i)) (unpackBits (b i)) = .ok (p i)) :
    checkYelm f codes n bs = .ok ((List.range 16).flatMap p, 16 * g) := by
  obtain ⟨form, fmt, count, gran, reserved, check⟩ := head
  obtain ⟨ends, ⟨pad, flat⟩, empties, room⟩ := body
  have endList : ((List.range 16).map fun i => bitsOf (leNat ((bs.drop 8).take 24)) (12 * i) 12) = endsOf b :=
    List.map_congr_left fun i hi => ends i (List.mem_range.1 hi)
  have beyond : ∀ k, (bs.take (16 * g)).drop (32 + k) = ((List.range 16).flatMap b ++ List.replicate pad 0).drop k := fun k => by
    rw [← List.drop_drop, flat]
  have rising : ((List.range 16).any fun i => decide ((endsOf b).getD i 0 < (0 :: endsOf b).getD i 0)) = false :=
    List.any_eq_false.2 fun i hi => by
      rw [getD_endsOf b (List.mem_range.1 hi), getD_startsOf b (List.mem_range.1 hi), decide_eq_true_eq]
      exact Nat.not_lt.2 (startOf_mono b (Nat.le_succ i))
  have matched : ((List.range 16).any fun i => decide ((min 16 (n - 16 * i) = 0) ≠ ((endsOf b).getD i 0 - (0 :: endsOf b).getD i 0 = 0))) =
      false := List.any_eq_false.2 fun i hi => by
    rw [getD_lengthsOf b (List.mem_range.1 hi), decide_eq_true_eq]
    exact fun differ => differ (propext (empties i (List.mem_range.1 hi)))
  have cut : ((List.range 16).map fun i => (min 16 (n - 16 * i),
      ((bs.take (16 * g)).drop (32 + (0 :: endsOf b).getD i 0)).take ((endsOf b).getD i 0 - (0 :: endsOf b).getD i 0))) =
      (List.range 16).map fun i => (min 16 (n - 16 * i), b i) := List.map_congr_left fun i hi => by
    have hi := List.mem_range.1 hi
    rw [getD_lengthsOf b hi, getD_startsOf b hi, beyond, take_drop_flatMap b hi]
  have filled : ((bs.take (16 * g)).drop (32 + startOf b 16)).any (fun x => decide (x ≠ 0)) = false := by
    rw [beyond, startOf, List.drop_left]
    exact List.any_eq_false.2 fun x hx => by simp [List.eq_of_mem_replicate hx]
  rw [checkYelm]
  simp only [form, fmt, count, gran, reserved, check, endList, rising, matched, cut, getD_endsOf b (show 15 < 16 by decide), filled,
    decodeSubs_ok fun i hi => expands i (List.mem_range.1 hi)]
  -- No cause applies, in the order of R326's table: 0x04, 0x05, 0x06, 0x07, 0x0A, and 0x09 behind the body; the form is not raw.
  rw [if_neg (by simp), if_neg (by simp), if_neg (by omega), if_neg (by simpa using room), if_neg (by simp), if_neg (by simp),
    if_neg (by simp)]

/-! ### Both forms of a yelm -/

theorem thFmt_bounds {f : Nat} (taken : thFmt f = true) : f < 8 ∧ fmtBytes f ≤ 4 ∧ fmtBits f = 8 * fmtBytes f := by
  rcases thFmt_cases taken with rfl | rfl | rfl | rfl <;> decide

/-- R315: the granules of a raw yelm hold its header and elements, and are at most 65. -/
theorem rawGran_bounds {f n : Nat} (taken : thFmt f = true) (most : n ≤ 256) : 16 + n * fmtBytes f ≤ 16 * rawGran f n ∧ rawGran f n ≤ 65 := by
  obtain ⟨low, high⟩ := ceilDiv_bounds (16 + n * fmtBytes f) (b := 16) (by decide)
  have bytes : n * fmtBytes f ≤ 256 * 4 := Nat.mul_le_mul most (thFmt_bounds taken).2.1
  rw [← rawGran] at low high
  exact ⟨low, by omega⟩

section
variable {f : Nat} {xs : List Nat} (taken : thFmt f = true) (pos : 1 ≤ xs.length) (most : xs.length ≤ 256)
include taken pos most

theorem rawYelm_shape : YelmShape 1 f xs.length (rawGran f xs.length) (leBytes 8 0 ++ elemBytes f xs) := by
  obtain ⟨fmt, -, -⟩ := thFmt_bounds taken
  obtain ⟨holds, small⟩ := rawGran_bounds taken most
  refine ⟨by decide, fmt, pos, most, by omega, ?_⟩
  rw [List.length_append, length_leBytes, length_elemBytes]
  omega

/-- R314: a compressed yelm is shorter than the raw one, so its granules fit their field. -/
theorem codedYelm_shape {b : Nat → List Byte} (less : codedGran b < rawGran f xs.length) :
    YelmShape 2 f xs.length (codedGran b) (codedBody b) := by
  obtain ⟨fmt, -, -⟩ := thFmt_bounds taken
  have small := (rawGran_bounds taken most).2
  have holds := codedGran_holds b
  refine ⟨by decide, fmt, pos, most, by omega, ?_⟩
  rw [codedBody, List.length_append, length_leBytes, ← startOf]
  omega

/-- R315, R326: a raw yelm passes its checks, and its elements are as stored. -/
theorem checkYelm_sealedRaw (fits : ∀ x ∈ xs, x < 2 ^ fmtBits f) (codes : List (Nat × Nat × Nat)) (rest : List Byte) :
    checkYelm f codes xs.length (sealedYelm 1 f xs.length (rawGran f xs.length) (leBytes 8 0 ++ elemBytes f xs) ++ rest) =
      .ok (xs, 16 * rawGran f xs.length) := by
  have shape := rawYelm_shape taken pos most
  obtain ⟨pad, behind⟩ : ∃ pad, (sealedYelm 1 f xs.length (rawGran f xs.length) (leBytes 8 0 ++ elemBytes f xs)).drop 16 =
      elemBytes f xs ++ List.replicate pad 0 := by
    rw [drop_sealedYelm shape 8, yelmFilled, List.append_assoc, List.drop_left' (length_leBytes 8 _)]
    exact ⟨_, rfl⟩
  have word1 : leNat (((sealedYelm 1 f xs.length (rawGran f xs.length) (leBytes 8 0 ++ elemBytes f xs) ++ rest).drop 8).take 8) = 0 := by
    rw [drop_sealedYelm_append shape, yelmFilled, List.append_assoc, List.append_assoc, List.take_left' (length_leBytes 8 _),
      leNat_leBytes, Nat.zero_mod]
  have filled : ∀ x ∈ ((sealedYelm 1 f xs.length (rawGran f xs.length) (leBytes 8 0 ++ elemBytes f xs) ++ rest).take
      (16 * rawGran f xs.length)).drop (16 + xs.length * fmtBytes f), x = 0 := fun x hx => by
    rw [take_sealedYelm shape, ← List.drop_drop, behind, List.drop_left' (length_elemBytes f xs)] at hx
    exact List.eq_of_mem_replicate hx
  have bytes : ∀ x ∈ xs, x < 256 ^ fmtBytes f := by
    rwa [show 256 = 2 ^ 8 from rfl, ← Nat.pow_mul, ← (thFmt_bounds taken).2.2]
  rw [checkYelm_raw (sealedYelm_headOk shape rest) word1 rfl filled, take_sealedYelm shape, behind, bytesElems_elemBytes bytes]

/-- R315: the header of a compressed yelm marks out the sub-streams that stand in its body. -/
theorem sealedYelm_bodyOk {b : Nat → List Byte} (less : codedGran b < rawGran f xs.length)
    (empties : ∀ i < 16, b i = [] ↔ subStream xs i = []) (rest : List Byte) :
    BodyOk xs.length (codedGran b) b (sealedYelm 2 f xs.length (codedGran b) (codedBody b) ++ rest) := by
  have shape := codedYelm_shape taken pos most less
  have small := (rawGran_bounds taken most).2
  have holds := codedGran_holds b
  have low : ∀ x ∈ endsOf b, x < 4096 := fun x hx => by
    obtain ⟨i, hi, rfl⟩ := List.mem_map.1 hx
    have last : startOf b (i + 1) ≤ startOf b 16 := startOf_mono b (List.mem_range.1 hi)
    omega
  constructor
  case ends =>
    intro i hi
    rw [drop_sealedYelm_append shape, yelmFilled, codedBody, List.append_assoc, List.append_assoc, List.take_left' (length_leBytes 24 _),
      leNat_leBytes, Nat.mod_eq_of_lt (endsWord_lt low (length_endsOf b)), bitsOf_endsWord low, getD_endsOf b hi]
  case body =>
    rw [take_sealedYelm shape, drop_sealedYelm shape 24, yelmFilled, codedBody, List.append_assoc, List.drop_left' (length_leBytes 24 _)]
    exact ⟨_, rfl⟩
  case empties =>
    intro i hi
    rw [← length_subStream, List.length_eq_zero_iff, List.length_eq_zero_iff, empties i hi]
  case room => omega

/-- R314, R315, R326: a compressed yelm passes its checks, and its sub-streams expand to its elements. -/
theorem checkYelm_sealedCoded (fits : ∀ x ∈ xs, x < 2 ^ fmtBits f) {lens : List Nat} (valid : tableOk lens = true)
    (coded : ∀ x ∈ subStreams xs, encodeSub (canon lens) (parseSub f 16 x) ≠ none)
    (less : codedGran (subBytes f (canon lens) xs) < rawGran f xs.length) (rest : List Byte) :
    checkYelm f (canon lens) xs.length (sealedYelm 2 f xs.length (codedGran (subBytes f (canon lens) xs))
      (codedBody (subBytes f (canon lens) xs)) ++ rest) = .ok (xs, 16 * codedGran (subBytes f (canon lens) xs)) := by
  have subs : ∀ i < 16, decodeSub f (canon lens) 16 (subStream xs i).length (unpackBits (subBytes f (canon lens) xs i)) =
      .ok (subStream xs i) ∧ (subBytes f (canon lens) xs i = [] ↔ subStream xs i = []) := fun i hi =>
    decodeSub_coded taken valid (encodeSub_subStream coded hi) (List.length_take_le _ _) (subStream_fits fits i)
  generalize subBytes f (canon lens) xs = b at less subs ⊢
  have expands : ∀ i < 16, decodeSub f (canon lens) 16 (min 16 (xs.length - 16 * i)) (unpackBits (b i)) = .ok (subStream xs i) :=
    fun i hi => length_subStream xs i ▸ (subs i hi).1
  have body := sealedYelm_bodyOk taken pos most less (fun i hi => (subs i hi).2) rest
  have least : 3 ≤ codedGran b := by
    have first := body.empties 0 (by decide)
    have start : startOf b 1 = startOf b 0 + (b 0).length := startOf_succ b 0
    have last := startOf_mono b (show 1 ≤ 16 by decide)
    have holds := codedGran_holds b
    omega
  rw [checkYelm_compressed (sealedYelm_headOk (codedYelm_shape taken pos most less) rest) body least less expands,
    flatMap_subStream, List.take_of_length_le most]
end

/-- Settles O46: raw or compressed, the yelm passes each check of R326, and expands as no code begins another (R310). -/
theorem thatchIsLossless : Obligations.ThatchIsLossless := by
  intro f lens xs rest taken _ _ valid pos most fits
  rcases encodeYelm_bytes f (canon lens) xs with raw | ⟨coded, less, compressed⟩
  · rw [raw, checkYelm_sealedRaw taken pos most fits, length_sealedYelm (rawYelm_shape taken pos most)]
  · rw [compressed, checkYelm_sealedCoded taken pos most fits valid coded less, length_sealedYelm (codedYelm_shape taken pos most less)]

end Sys2Proof.Machine
end
